-- ==== Sys2Proof/Word.lean ====
section
/-! DEFINITION. The word types of the block (R5: little-endian, bit 0 the least significant) and the operand types the commands
carry. The opcode table gives no operand; each is what the rule of the row says comes from outside: a message's fields, a
register write's origin and value, a sensor's reading, the outcome of a physical test (notes/assumptions/1.md). The field, sign
and byte-order helpers are in Sys2Proof/Machine/Bits.lean. -/
namespace Sys2Proof

/-- One byte of memory or of a message (R5). -/
abbrev Byte := BitVec 8
/-- A 32-bit word, as an FP32 value, a tile check or a doorbell (R5). -/
abbrev Word32 := BitVec 32
/-- A 64-bit word: the width of every setup register (20_setup_registers). -/
abbrev Word64 := BitVec 64
/-- A 64-byte unit: an edge entry's payload (R81), a descriptor, a ring entry. -/
abbrev Word512 := BitVec 512

/-- Origin codes of R15: 0x0 firmware, 0x1 host PF, 0x2-0x9 VF 0-7, 0xA management, 0xB fabric manager, 0xC device, 0xD boot ROM. -/
inductive Origin where
  | firmware | pf | vf (n : Fin 8) | mgmt | fm | self | bootRom
  deriving DecidableEq, Repr

/-- The 4-bit code of an origin (R15). -/
def Origin.code : Origin → Nat
  | .firmware => 0 | .pf => 1 | .vf n => 2 + n.val | .mgmt => 10 | .fm => 11 | .self => 12 | .bootRom => 13

/-- The paths on which a register is read, each with its own TIME_LATCH (R500, R516). -/
inductive Path where
  | pcie | i3c | thaxa
  deriving DecidableEq, Repr

/-- Which bytes of an 8-byte register a write carries (R501). -/
inductive Part where
  | whole | low | high
  deriving DecidableEq, Repr

/-- A register write as it arrives: its path's origin, its part and its data (R500, R501). -/
structure RegWr where
  origin : Origin
  part   : Part
  value  : Word64
  deriving DecidableEq, Repr

/-- A bead by (die, logical rod, bead), R78. -/
structure BeadId where
  die  : Fin 4
  rod  : Fin 32
  bead : Fin 16
  deriving DecidableEq, Repr

/-- A context of a bead, C0-C3 (R83). -/
structure CtxId where
  bead : BeadId
  ctx  : Fin 4
  deriving DecidableEq, Repr

/-- An input edge of a context (R97). -/
structure EdgeId where
  ctx  : CtxId
  edge : Fin 8
  deriving DecidableEq, Repr

/-- How the words that an access read met their codes and the tile check (R218, R443, R82): all well; the first of `n` words (or entry
halves) that were corrected, and the first that failed, by the byte at which it stands, and whether its code found it uncorrectable or the
tile check alone failed: from the start of the access, within the
bead where an action reads its own tile memory, and within the stack, its HBM4 and after that its staging, in a gather. -/
inductive Check where
  | ok
  | corrected (at_ n : Nat)
  | failed (at_ : Nat) (code : Bool)
  deriving DecidableEq, Repr

/-- A read that failed. -/
def Check.fails : Check → Bool
  | .failed _ _ => true
  | _ => false

/-- A journal record as its mirror page is read at start-up where the page does not hold what was programmed: the mirror, the place of
the record in it and the 64 bytes found (R248). -/
structure JournalRead where
  second : Bool
  at_    : Nat
  bytes  : BitVec 512
  deriving DecidableEq, Repr

/-- What a start meets: the HBM4 channels that do not train (R486, R487) and the journal records that are not read as they were
programmed (R248). -/
structure StartUp where
  untrained : List (Fin 24 × Fin 32)
  journal   : List JournalRead
  deriving DecidableEq, Repr

/-- A beat marker's fields (R52). -/
structure Marker where
  beat       : BitVec 48
  period     : BitVec 11
  nextPeriod : BitVec 11
  countdown  : BitVec 4
  master     : BitVec 11
  epoch      : BitVec 16
  correction : BitVec 24
  deriving DecidableEq, Repr

/-- A Thaxa DATA message: the port and virtual channel it arrived on, its routing header (R292), operation header (R302) and payload. -/
structure Msg where
  port    : Fin 9
  vc      : Fin 4
  dest    : BitVec 14
  src     : BitVec 14
  part    : BitVec 4
  fm      : Bool
  mcast   : Bool
  opt     : BitVec 16
  status  : BitVec 16
  tag     : Word32
  offset  : Word64
  length  : Word32
  seq     : Word32
  aux     : Word32
  payload : List Byte
  deriving DecidableEq, Repr

/-- A fetched SQ entry (R391) with its parameter block as read from host memory (R399); `opcode` is the row's own. -/
structure Cmd where
  sq        : Fin 512
  cid       : BitVec 16
  fence     : Bool
  reserved  : Bool          -- a reserved bit of the entry is nonzero
  inst      : Fin 16
  param     : Word64        -- PARAM
  paramLen  : Word32        -- PARAM_LEN
  args      : List Byte     -- 44 bytes
  block     : List Byte     -- the parameter block's bytes
  busError  : Bool          -- the read of the parameter block failed
  fetchError : Bool         -- the read of the SQ entry itself failed (R412)
  opcode    : Option Byte   -- OPCODE where the entry holds a reserved one in place of the row's (R14, R399)
  deriving DecidableEq, Repr

/-- A doorbell write on BAR2 (R396). -/
structure Bell where
  fn     : Origin
  page   : Fin 2048
  offset : BitVec 12
  value  : Word32
  deriving DecidableEq, Repr

/-- The body of a TRAIN ordered set (R282, R287). -/
structure TrainSet where
  number  : BitVec 16       -- module number, or plane number from a plane
  port    : BitVec 8
  step    : BitVec 8
  credits : List (BitVec 16) -- VC0-VC3
  deriving DecidableEq, Repr

/-- The body of a STEELYARD ordered set (R428). -/
structure SteelSet where
  group    : BitVec 14
  module   : BitVec 11
  beat     : BitVec 48
  constrained : Bool
  unattainable : Bool
  protect  : Bool
  measured : BitVec 16
  cap      : BitVec 16
  floor    : BitVec 16
  pref     : BitVec 16
  boost    : BitVec 16
  slack    : Word32
  checkOk  : Bool           -- CHECK over bytes 8-33 matches
  deriving DecidableEq, Repr


/-- One sample of the input and of the supply domains (R416, R417): volts in units of 10 mV, powers in W. -/
structure InputSample where
  vin   : Nat
  input : Nat
  die0  : Nat
  die1  : Nat
  die2  : Nat
  die3  : Nat
  hub   : Nat
  hbm   : Nat
  vault : Nat
  deriving DecidableEq, Repr

/-- Temperatures in °C: Tj of FD0-FD3, of the hub and of the hottest base die (R433, R435). -/
structure TempSample where
  fd0 : Nat
  fd1 : Nat
  fd2 : Nat
  fd3 : Nat
  hub : Nat
  hbm : Nat
  deriving DecidableEq, Repr

/-- A unit that a proving run tests (R441); a bead is named by its physical rod. -/
inductive ProveUnit where
  | bead (die : Fin 4) (prod : Fin 33) (bead : Fin 16)
  | csBank (bank : Fin 16)
  | stagingBank (stack : Fin 24) (bank : Fin 16)
  | hbmChannel (stack : Fin 24) (chan : Fin 32)
  | bridge (b : Fin 8)
  | port (p : Fin 9)
  deriving DecidableEq, Repr

/-- Where an SPDM or vendor message came from (R479): the PF, a VF, or I3C. -/
inductive Via where
  | pf | vf (n : Fin 8) | i3c
  deriving DecidableEq, Repr

/-- A row of the appliance catalogue for this coordinate (R265). -/
structure ApplianceRow where
  imageId  : BitVec 128
  imageGen : Word32
  digest   : BitVec 256
  committed : Bool
  deriving DecidableEq, Repr

/-- The kinds of arbiter instance (R326). -/
inductive ArbKind where
  | thaxa | hbm | vault | cs
  deriving DecidableEq, Repr

/-- A transfer that a requester presents to an arbiter instance (R329): its requester index, its length in decision points,
and whether it is a locked write, program or sequence, with its declared length for a Thaxa sequence (R332). -/
structure ArbReq where
  index    : Fin 8
  units    : Nat
  write    : Bool
  declared : Nat
  deriving DecidableEq, Repr

end Sys2Proof
end

