-- ==== Sys2Proof/Syntax.lean ====
section
/-! DEFINITION. The commands of the block: `Instr`, one constructor per row of spec/opcode_table.json, in the table's order,
with the operands the model gives each row (the table gives none; notes/assumptions/1.md). -/
namespace Sys2Proof

/-- One command of the block: a register access, a message, a fetched host command, an event of a pin, a sensor or a timer, or the
point at which an engine acts. An operand that has a default may be left out by the sender: the defaults are the report that
nothing was found wrong (`word`, `merge`, `reads`, `lost`, `boot`), sensor 0 and the first seventh of a tick (`sub`). -/
inductive Instr where
  -- the beat and the time unit (02, 20)
  | beatBoundary
  | markerAccept (port : Fin 9) (m : Marker)
  | markerDecision
  | slewTick
  | masterStart
  | timeBeatRead (path : Path)
  | beatRole (w : RegWr)
  | beatPeriod (w : RegWr)
  | takeoverMaster (origin : Origin) (beat : BitVec 48)
  | takeoverRelinquish (origin : Origin) (beat : BitVec 48)
  -- schedule entries (02 R68): the instance whose schedule fires, and the entry's payload
  | layerStart (inst : Fin 16) (payload : Word64)
  | prefetch (inst : Fin 16) (payload : Word64)
  | slotSelect (inst : Fin 16) (payload : Word64)
  | opPref (inst : Fin 16) (payload : Word64)
  | lockBegin (inst : Fin 16) (payload : Word64)
  | collectiveWindow (inst : Fin 16) (payload : Word64)
  | replaySlot (inst : Fin 16) (payload : Word64)
  | telemetry (inst : Fin 16) (payload : Word64)
  | stepEnd (inst : Fin 16) (payload : Word64)
  | stepCompletion (inst : Fin 16) (step : Nat)
  -- actions of a bead's current context (03 to 08); `word` says how the words it reads of tile memory meet their code
  | nop (b : BeadId)
  | matrix (b : BeadId) (word : Check := .ok)
  | vector (b : BeadId) (word : Check := .ok)
  | copy (b : BeadId) (word : Check := .ok)
  | select (b : BeadId) (word : Check := .ok)
  | dispatch (b : BeadId) (word : Check := .ok) (merge : List Check := [])
  | combine (b : BeadId) (word : Check := .ok)
  | fill (b : BeadId) (word : Check := .ok)
  | tileLanding (b : BeadId) (tile : Fin 512) (check : Check)
  | writeback (b : BeadId) (word : Check := .ok)
  | gather (b : BeadId) (word : Check := .ok)
  | gatherComplete (stack : Fin 24) (check : Check)
  | emit (b : BeadId) (owners : List Word32) (word : Check := .ok)
  | build (b : BeadId) (word : Check := .ok)
  | counter (b : BeadId)
  | wait (b : BeadId)
  | contextSwitch (b : BeadId)
  | entryArrival (e : EdgeId) (check : Check) (spilled : Bool)
  | steeringSwitchFire (c : CtxId) (unit : Fin 4)
  | steeringMergeFire (c : CtxId) (unit : Fin 4)
  | spatialDeadlock (die : Fin 4) (config : Fin 64)
  | dictionaryRecordLoad (c : CtxId) (record : Word512) (fromTile : Bool)
  | rodRemap (die : Fin 4) (lost : List (BeadId × Fin 512) := [])
  | swapDecision (lost : List (BeadId × Fin 512) := [])
  | contextRestoreDone (config : Fin 64) (check : Check)
  | prefetchTileLand (stack : Fin 24) (tile : Fin 12288) (check : Check)
  | prefetchFillBy (stack : Fin 24) (list : BitVec 16)
  -- the vault, installation and the catalogue (09)
  | journalFlushTimer
  | pageProgramDone (channel : Fin 128) (reads : List Check := [])
  | powerFail
  | install (c : Cmd) (image : List Byte)
  | installBegin (m : Msg)
  | installAccept (m : Msg) (reads : List Check := [])
  | installRefuse (m : Msg)
  | acceptWaitTimeout
  | installCredit (m : Msg) (reads : List Check := [])
  | installData (m : Msg)
  | installEnd (m : Msg)
  | reportTimer
  | installReport (m : Msg) (reads : List Check := [])
  | installRepair (m : Msg)
  | installCommit (m : Msg)
  | commitResend
  | installCommitted (m : Msg)
  | installAbort (m : Msg)
  | installInactivityTimeout
  | imageDelete (c : Cmd)
  | shardRepair (m : Msg)
  | catalogueSync (m : Msg) (rows : List ApplianceRow)
  | adapterBind (c : Cmd) (reads : List Check := [])
  | adapterUnbind (c : Cmd)
  -- host commands (13, 15)
  | instanceCreate (c : Cmd)
  | activate (c : Cmd) (checks : List Check)
  | configLoad (c : Cmd)
  | instanceRestart (c : Cmd)
  | instanceRelease (c : Cmd)
  | poolSet (c : Cmd)
  | ownSet (c : Cmd)
  | tenantSet (c : Cmd)
  | tableLoad (c : Cmd)
  | routeTableLoad (c : Cmd)
  | automatonLoad (c : Cmd)
  | seqSubmit (c : Cmd) (reads : List Check := [])
  | seqCancel (c : Cmd)
  | hint (c : Cmd)
  | nopCommand (c : Cmd)
  -- batching and sampling (13, 14)
  | admitTimeout (inst : Fin 16) (req : Word32)
  | samplerPosition (inst : Fin 16) (req : Word32) (k : Nat)
  | draftTokenDraw (inst : Fin 16) (req : Word32) (j : Nat)
  -- fabric operations and collectives (11)
  | load (m : Msg) (reads : List Check)
  | store (m : Msg) (reads : List Check)
  | atomic (m : Msg) (reads : List Check)
  | bulkPut (m : Msg) (reads : List Check)
  | bulkGet (m : Msg) (reads : List Check)
  | response (m : Msg)
  | coll (m : Msg)
  | sectionMsg (m : Msg)
  | replayReq (m : Msg)
  | handoff (m : Msg)
  | fmWrite (m : Msg)
  | fmRead (m : Msg)
  | jobTeardown (m : Msg)
  | notice (m : Msg)
  | remoteQueueScan (config : Fin 64) (queue : Fin 16)
  | fabricDeadline (tag : Word32)
  | collectiveSendStart (inst : Fin 16) (index : BitVec 16)
  | collectiveWindowClose (inst : Fin 16) (index : BitVec 16)
  | replaySlotClose (inst : Fin 16) (index : BitVec 16)
  -- links and training (01, 10)
  | bridgeUnitReplay (bridge : Fin 8) (sameUnit : Bool)
  | linkNakReceive (port : Fin 9) (ackSeq : BitVec 12)
  | ackTimer (port : Fin 9)
  | delayMeasurement (port : Fin 9)
  | delayReq (port : Fin 9) (t1 : Nat)
  | delayResp (port : Fin 9) (t2 t3 : Nat)
  | train (port : Fin 9) (set : TrainSet)
  | steelyardSetReceive (port : Fin 9) (set : SteelSet)
  | trainingStateExit (port : Fin 9)
  | trainingBoundExpiry (port : Fin 9) (lanes : BitVec 8)
  | portCfg (port : Fin 9) (w : RegWr)
  | coord (w : RegWr)
  | fabricAdmit (w : RegWr)
  | thaxaCommit (w : RegWr)
  | portFenceClear (port : Fin 9) (w : RegWr)
  -- arbitration (12)
  | arbCommit (w : RegWr)
  | arbSetActivation
  -- host rings and DMA (15, 19)
  | sqDoorbell (d : Bell)
  | completionHeadDoorbell (d : Bell)
  | irqTimer (ring : Fin 1104)
  | ringEnable (ring : Fin 1104) (w : RegWr)
  | ringDisable (ring : Fin 1104) (w : RegWr)
  | functionLevelReset (fn : Fin 9)
  | perst
  | d3hotEntry (fn : Fin 9)
  | d0Return (fn : Fin 9)
  | chanStart (chan : Fin 32) (w : RegWr) (fetched : Word512)
  | chanStop (chan : Fin 32) (w : RegWr)
  | dmaDoorbell (d : Bell) (fetched : Word512)
  | dmaCopyDone (chan : Fin 32) (hostData : List Byte) (reads : List Check) (fetched : Word512)
  | dmaBusError (kind : Fin 5) (addr : Word64)
  | busErrorClear (w : RegWr)
  -- power and heat (16)
  | powerDecision
  | inputSample (x : InputSample) (boot : StartUp := ⟨[], []⟩)
  | lowInputClear
  | sensorRead (x : TempSample)
  | hardwareTrip
  | droopTrip (die : Fin 4)
  | droopRecovery (die : Fin 4)
  | droopCeilingLift (die : Fin 4)
  | cap (w : RegWr)
  | capRenew (w : RegWr)
  | leaseExpiry
  | steelyardCfg (w : RegWr)
  -- proving and fences (17)
  | provingRunStart (u : ProveUnit)
  | provingRunEnd (u : ProveUnit) (pass : Bool) (failingRows : Nat)
  | provingRunTimeout (u : ProveUnit)
  | routineProving (die : Fin 4)
  | proveRequest (w : RegWr)
  | faultClear (w : RegWr)
  | fenceClear (die : Fin 4) (w : RegWr)
  -- the ledger and the security engine (18)
  | ledgerAppend
  | checkpointTimer
  | checkpointSigned
  | ledgerAck (w : RegWr)
  | ledgerCfg (w : RegWr)
  | identityRead (via : Via)
  | ledgerRead (via : Via) (seq : BitVec 48)
  | ckptRead (via : Via) (seq : BitVec 48)
  | pubkeySet (via : Via) (index : Fin 64) (sigSet : BitVec 8) (key : List Byte)
  | pubkeyRevoke (via : Via) (index : Fin 64)
  | fwUpdateBegin (via : Via) (length : Word32)
  | fwUpdateData (via : Via) (offset : Word32) (bytes : List Byte)
  | fwUpdateEnd (via : Via)
  | fwSvnCommit (w : RegWr)
  -- PLDM (18 R477, R478)
  | setTid (via : Via) (tid : BitVec 8)
  | getTid (via : Via)
  | getPldmVersion (via : Via) (type : BitVec 8)
  | getPldmTypes (via : Via)
  | getPldmCommands (via : Via) (type : BitVec 8)
  | setEventReceiver (via : Via) (eid : BitVec 8)
  | getPdrRepositoryInfo (via : Via)
  | getPdr (via : Via) (record : BitVec 32)
  | getSensorReading (via : Via) (sensor : BitVec 16)
  | getStateSensorReadings (via : Via) (sensor : BitVec 16)
  | pldmEventResend (sensor : BitVec 16 := 0)
  -- SPDM (18 R479 to R481)
  | getVersion (via : Via)
  | getCapabilities (via : Via)
  | negotiateAlgorithms (via : Via)
  | challenge (via : Via) (nonce : List Byte)
  | getMeasurements (via : Via) (index : BitVec 8) (signed : Bool) (nonce : List Byte)
  | chunkGet (via : Via) (seqNo : BitVec 16)
  | respondIfReady (via : Via) (token : BitVec 8)
  | vendorDefinedRequest (via : Via) (type : BitVec 8) (body : List Byte)
  -- setup registers (20)
  | setupLock (w : RegWr)
  | registerWrite (origin : Origin) (offset : BitVec 24) (size : Nat) (value : Word64)
  | regAddr (offset : BitVec 24) (length : Nat)
  | regRead
  -- bring-up, standby and pins (19, 21)
  | standby (w : RegWr)
  | resume (w : RegWr) (checks : List Check) (boot : StartUp)
  | prepareRemove (w : RegWr)
  | svcReset (w : RegWr) (boot : StartUp)
  | vstbyApplied
  | mainEnAssert (boot : StartUp)
  | mainEnDeassert
  | presentSenseLoss
  | refLoss
  | flitReceive (port : Fin 9) (raw : List Byte)
  | fecAlignmentLoss (port : Fin 9) (lane : Fin 8)
  | arbiterDecision (kind : ArbKind) (index : Fin 768) (waiting : List ArbReq) (done : Bool) (sub : Fin 7 := 0)
  | msixVectorUnmask (fn : Fin 9) (vector : Fin 1024)
  | installReaderTimeout
  | recoveryImageReceived (image : List Byte) (untrained : List (Fin 24 × Fin 32))
  | bringUpBoundExpiry (step : Fin 10)
  | vhbmLoss
  | inputLoss
  | ref100Return
  | delayExchange (port : Fin 9)
  deriving DecidableEq, Repr

end Sys2Proof
end

