-- ==== Sys2Proof/Decode.lean ====
section
/-! DEFINITION. The commands that a word spells by the table's bits. spec/opcode_table.json gives no row any bits: a command of this
block is a register access, a message or an event, each decoded by the rules of its own chapter inside its meaning
(notes/assumptions/60.md). -/
namespace Sys2Proof

/-- The command a word of `nbits` bits spells: none, for the table gives no row a field. -/
def decodeTableWord (nbits w : Nat) : Option Instr :=
  match nbits, w with
  | _, _ => none

end Sys2Proof
end

