-- ==== Sys2Proof/Machine/Bits.lean ====
section
/-! DEFINITION. Bit fields of numbers and little-endian byte fields of structures (R5). -/
namespace Sys2Proof.Machine

/-- Bits [lo + len - 1 : lo] of `w`. -/
def bits (w lo len : Nat) : Nat := (w / 2 ^ lo) % 2 ^ len

/-- Bit `i` of `w`. -/
def bit (w i : Nat) : Bool := (w / 2 ^ i) % 2 = 1

/-- `w` with bits [lo + len - 1 : lo] replaced by `v`. -/
def putBits (w lo len v : Nat) : Nat :=
  w - bits w lo len * 2 ^ lo + (v % 2 ^ len) * 2 ^ lo

/-- `w` with bit `i` set to `b`. -/
def putBit (w i : Nat) (b : Bool) : Nat := putBits w i 1 (if b then 1 else 0)

/-- A flag as a bit. -/
def flag (b : Bool) : Nat := if b then 1 else 0

/-- The number that bytes spell, the first byte least significant (R5). -/
def leNat : List Byte → Nat
  | [] => 0
  | b :: bs => b.toNat + 256 * leNat bs

/-- The low `n` bytes of a number, the least significant first (R5). -/
def leBytes : Nat → Nat → List Byte
  | 0, _ => []
  | n + 1, v => BitVec.ofNat 8 v :: leBytes n (v / 256)

/-- `n` zero bytes. -/
def zeros (n : Nat) : List Byte := List.replicate n 0

/-- Exactly `n` bytes: cut, or filled with zeros at the end. -/
def fit (n : Nat) (bs : List Byte) : List Byte :=
  let t := bs.take n
  t ++ zeros (n - t.length)

/-- Bytes `off` to `off + n - 1`. -/
def slice (bs : List Byte) (off n : Nat) : List Byte := (bs.drop off).take n

/-- The field of `n` bytes at `off`, as a number; bytes past the end count as zero. -/
def field (bs : List Byte) (off n : Nat) : Nat := leNat (slice bs off n)

/-- Every byte is zero. -/
def allZero (bs : List Byte) : Bool := bs.all (· == 0)

/-- Consecutive pieces of `n` elements, at most `k` of them. -/
def pieces {α : Type} (n : Nat) : Nat → List α → List (List α)
  | 0, _ => []
  | k + 1, bs => bs.take n :: pieces n k (bs.drop n)

/-- `i`-th element with a default. -/
def nth {α : Type} (d : α) (l : List α) (i : Nat) : α := (l[i]?).getD d

/-- Replace the `i`-th element, if there is one. -/
def setNth {α : Type} (l : List α) (i : Nat) (v : α) : List α := l.set i v

/-- Change the `i`-th element, if there is one. -/
def modNth {α : Type} (l : List α) (i : Nat) (f : α → α) : List α := l.modify i f

/-- A two's-complement reading of the low `n` bits. -/
def sgn (n w : Nat) : Int := if bit w (n - 1) then (w % 2 ^ n : Nat) - (2 ^ n : Nat) else (w % 2 ^ n : Nat)

/-- The low `n` bits of an integer in two's complement. -/
def unsgn (n : Nat) (z : Int) : Nat := (z % (2 ^ n : Nat)).toNat

/-- Round `a / b` (b positive) to the nearest integer, halves away from zero. -/
def roundAway (a : Int) (b : Nat) : Int :=
  if a ≥ 0 then ((2 * a + b) / (2 * b)) else - ((2 * (-a) + b) / (2 * b))

/-- Quotient rounded up. -/
def cdiv (a b : Nat) : Nat := (a + b - 1) / b

/-- The value found in a list of pairs. -/
def findKey {α : Type} (l : List (Nat × α)) (k : Nat) : Option α := (l.find? (fun p => p.1 == k)).map (·.2)

/-- A list of pairs with the value of one key replaced or added at the end. -/
def putKey {α : Type} (l : List (Nat × α)) (k : Nat) (v : α) : List (Nat × α) :=
  if l.any (fun p => p.1 == k) then l.map (fun p => if p.1 == k then (k, v) else p) else l ++ [(k, v)]

end Sys2Proof.Machine
end

