-- ==== Sys2Proof/Machine/Crc.lean ====
section
/-! DEFINITION. The two CRCs of the spec and SHAKE256 (FIPS 202; notes/assumptions/8.md). -/
namespace Sys2Proof.Machine

/-- One bit of the reflected CRC-32C (R216). -/
def crc32cBit (c : Word32) : Word32 :=
  if c.getLsbD 0 then (c >>> 1) ^^^ 0x82F63B78#32 else c >>> 1

/-- One byte of the reflected CRC-32C (R216). -/
def crc32cByte (c : Word32) (b : Byte) : Word32 :=
  let c := c ^^^ b.setWidth 32
  crc32cBit (crc32cBit (crc32cBit (crc32cBit (crc32cBit (crc32cBit (crc32cBit (crc32cBit c)))))))

/-- CRC-32C over bytes in address order (R216). -/
def crc32c (bs : List Byte) : Nat := ((bs.foldl crc32cByte 0xFFFFFFFF#32) ^^^ 0xFFFFFFFF#32).toNat

/-- One bit of CRC-16 (R176). -/
def crc16Bit (c : BitVec 16) : BitVec 16 :=
  if c.getLsbD 15 then (c <<< 1) ^^^ 0x1021#16 else c <<< 1

/-- One byte of CRC-16 (R176). -/
def crc16Byte (c : BitVec 16) (b : Byte) : BitVec 16 :=
  let c := c ^^^ (b.setWidth 16 <<< 8)
  crc16Bit (crc16Bit (crc16Bit (crc16Bit (crc16Bit (crc16Bit (crc16Bit (crc16Bit c)))))))

/-- CRC-16 over bytes in order (R176). -/
def crc16 (bs : List Byte) : Nat := (bs.foldl crc16Byte 0xFFFF#16).toNat

/-! ### SHAKE256 -/

/-- The coordinate walk of step rho: after t moves from (1, 0) a lane (x, y) is turned by (t + 1)(t + 2)/2. Answers, for each lane
x + 5y met, its turn; lane 0 is not met. -/
def rhoWalk : Nat → Nat → Nat → Nat → List (Nat × Nat)
  | 0, _, _, _ => []
  | k + 1, t, x, y => (x + 5 * y, (t + 1) * (t + 2) / 2 % 64) :: rhoWalk k (t + 1) y ((2 * x + 3 * y) % 5)

/-- How far step rho turns lane `i`. -/
def rhoTurn (i : Nat) : Nat := (findKey (rhoWalk 24 0 1 0) i).getD 0

/-- The register that step iota shifts once for each bit: x^8 + x^6 + x^5 + x^4 + 1. -/
def iotaShift (r : Nat) : Nat := if r < 128 then 2 * r else (2 * r) ^^^ 0x171

/-- The register after `n` shifts from 1. -/
def iotaReg : Nat → Nat
  | 0 => 1
  | n + 1 => iotaShift (iotaReg n)

/-- What step iota adds to lane 0 in round `k`: bit 2^j - 1 is the register's low bit after j + 7k shifts. -/
def iotaWord (k : Nat) : Word64 :=
  BitVec.ofNat 64 (((List.range 7).map fun j => iotaReg (j + 7 * k) % 2 * 2 ^ (2 ^ j - 1)).foldl (· + ·) 0)

/-- The lane at column x and row y of a sheet, both taken modulo 5. -/
def laneAt (a : List Word64) (x y : Nat) : Word64 := nth 0 a (x % 5 + 5 * (y % 5))

/-- What step theta adds to column x: the parity of the column before it and, turned by one, of the one after it. -/
def thetaAdds (a : List Word64) (x : Nat) : Word64 :=
  let parity := fun u : Nat => (List.range 5).foldl (fun w y => w ^^^ laneAt a u y) 0
  parity (x + 4) ^^^ (parity (x + 1)).rotateLeft 1

/-- Steps theta, rho and pi: the lane that comes to place i. -/
def thetaRhoPi (a : List Word64) : List Word64 :=
  let adds := (List.range 5).map (thetaAdds a)
  (List.range 25).map fun i =>
    let from_ := (i % 5 + 3 * (i / 5)) % 5 + 5 * (i % 5)
    (nth 0 a from_ ^^^ nth 0 adds (from_ % 5)).rotateLeft (rhoTurn from_)

/-- Steps chi and iota of round `k`. -/
def chiIota (k : Nat) (b : List Word64) : List Word64 :=
  (List.range 25).map fun i =>
    let w := nth 0 b i ^^^ (laneAt b (i + 2) (i / 5) &&& ~~~(laneAt b (i + 1) (i / 5)))
    if i = 0 then w ^^^ iotaWord k else w

/-- Keccak-f[1600] on 25 lanes: 24 rounds. -/
def keccakF (a : List Word64) : List Word64 := (List.range 24).foldl (fun a k => chiIota k (thetaRhoPi a)) a

/-- A 136-byte block as 17 lanes and 8 zero lanes. -/
def keccakLanes (bs : List Byte) : List Word64 :=
  (List.range 25).map fun i => BitVec.ofNat 64 (field bs (8 * i) 8)

/-- The 200 bytes of a state. -/
def keccakBytes (a : List Word64) : List Byte := a.flatMap fun w => leBytes 8 w.toNat

/-- SHAKE256 with an output of `n` bytes, at most 136. -/
def shake256 (n : Nat) (m : List Byte) : List Byte :=
  let pad := 136 - m.length % 136
  let tail := if pad = 1 then [0x9F#8] else [0x1F#8] ++ zeros (pad - 2) ++ [0x80#8]
  let blocks := pieces 136 ((m.length + pad) / 136) (m ++ tail)
  let final := blocks.foldl (fun a b => keccakF (List.zipWith (· ^^^ ·) a (keccakLanes b))) (List.replicate 25 0)
  (keccakBytes final).take n

end Sys2Proof.Machine
end

