-- ==== Sys2Proof/Config.lean ====
section
/-! DEFINITION. What the part or its surroundings fix and the spec does not state: fused values, the signature scheme as an
uninterpreted function, and the free values. Each is opaque: no proof can see a value of it. Every one is named in
notes/assumptions/2.md and 3.md. -/
namespace Sys2Proof.Config

/-- The vault variant of the part: true for V32, false for V16 (R1, R34, R508). -/
opaque vaultV32 : Bool
/-- Sniquesa's PCI vendor identifier, fused (R508, ID_VENDOR). -/
opaque vendorId : BitVec 16
/-- The 16-byte serial number, fused (R471, R508). -/
opaque serial : BitVec 128
/-- The 68-byte public identity key, fused (R469, R471). -/
opaque identityKey : List Byte
/-- The Sniquesa endorsement signature over the endorsement fields (R471). -/
opaque endorsement : List Byte
/-- SHAKE256-256 of the boot ROM, fused at the factory (R481, measurement 1). -/
opaque bootRomDigest : List Byte
/-- The fused digest of the Sniquesa firmware key (R469, R473). -/
opaque fwKeyDigest : List Byte
/-- The firmware image the factory stored in the vault's reserved region (R472, R474). -/
opaque factoryImage : List Byte
/-- The security version fused at the factory (R473, R475). -/
opaque factorySvn : Nat
/-- XMSS verification of NIST SP 800-208 (R469): public key, message and signature to accepted or not. Uninterpreted. -/
opaque xmssVerify : List Byte → List Byte → List Byte → Bool
/-- The identity key's signature with leaf `n` over a message (R467, R470, R479): the private seed is fused and unknown. -/
opaque identitySign : Nat → List Byte → List Byte
/-- First of the 160 hub-allocated common-store tiles that hold the checkpoint store (R467, R482 CKPT_BASE). -/
opaque ckptTile : Fin 126817
/-- Node number of the fabric manager, to which a NOTICE goes (R303). -/
opaque fmNode : BitVec 14
/-- Multicast group in which the planes deliver an installation's messages to its members (R256, R292). -/
opaque installGroup : BitVec 14
/-- Data size of an SPDM transport, in bytes (R479, CHUNK_GET). -/
opaque spdmChunk : Nat
/-- The hub's outlier threshold in a reduction (R127, R161). -/
opaque hubThreshold : Word32
/-- SAT_MAX and ZERO_MAX of the hub's watch (R151, R161). -/
opaque hubSatMax : Nat
opaque hubZeroMax : Nat
/-- A free value: an answer the spec leaves open, fresh for each number it is applied to (log 3). -/
opaque freeValue : Nat → BitVec 64

end Sys2Proof.Config
end

