-- ==== Sys2Proof/Machine/State.lean ====
section
/-! DEFINITION. The state of the block as plain data: every register, queue, buffer, table and counter the spec gives the module,
what it has sent outside (`out`), and the queue of waiting commands (`pending`). Counts, lengths and beat numbers are Nat; what
software sees as a word is a bit vector. `State.reset` is the module fresh from the factory with no input applied (R461, R486). -/
namespace Sys2Proof.Machine

/-! ### Time (02_beat_and_schedules, 20_setup_registers) -/

/-- A stamp: beat and tick (R42). -/
structure Stamp where
  beat : Nat
  tick : Nat
  deriving DecidableEq, Repr

/-- States of the time unit (R58). -/
inductive TimeSt where
  | unlocked | acquire | locked | holdover
  deriving DecidableEq, Repr

/-- ROLE (R514). -/
inductive Role where
  | none | slave | master
  deriving DecidableEq, Repr

/-- An in-sequence marker kept for the decision: its port, fields and arrival a (R53, R56). -/
structure Heard where
  port : Nat
  m    : Marker
  a    : Int
  deriving DecidableEq, Repr

/-- TIME_LATCH (R516). -/
structure Latch where
  tick   : Nat
  epoch  : Nat
  locked : Bool
  deriving DecidableEq, Repr

/-- An accepted TAKEOVER awaiting its beat: `toMaster` for ACTION MASTER, otherwise RELINQUISH (R515). -/
structure Takeover where
  toMaster : Bool
  beat     : Nat
  deriving DecidableEq, Repr

/-- The time unit (R40 to R64, R514 to R517). `clk` counts every tick since the island was powered: the count of R47. -/
structure TimeUnit where
  st          : TimeSt
  role        : Role
  beat        : Nat
  tick        : Nat
  clk         : Nat
  period      : Nat
  epoch       : Nat
  ctr10       : Nat
  corr        : Int
  phaseErr    : Int
  master      : Nat
  lastMarker  : Option Nat
  good        : Nat
  bad         : Nat
  holdover    : Nat
  outSeq      : Nat
  acquired    : Bool
  heard       : List Heard
  discarded   : Bool
  seen        : List (Nat × Nat)          -- (BEAT, MASTER) of markers received (R50)
  pendPeriod  : Option (Nat × Nat)        -- announced period and its beat B (R63)
  takeover    : Option Takeover
  masterStart : Option Nat                -- due clk of beat START_BEAT (R515)
  latchPcie   : Latch
  latchI3c    : Latch
  latchFm     : Latch
  lockEnds    : List (Nat × Nat)          -- (instance, beat at which the locked phase ends), R62
  deriving DecidableEq, Repr

/-! ### Ledger and what leaves the module (15, 18) -/

/-- A completion that waits for its command's ledger record (R399, R401). -/
structure Cqe where
  sq     : Nat
  cid    : Nat
  head   : Nat                            -- SQ_HEAD after the command was consumed
  status : Nat
  opcode : Nat
  result : List Byte
  deriving DecidableEq, Repr

/-- A record handed to the ledger unit, with the values its digests cover (R459, R460, R463). -/
structure Held where
  due     : Nat                           -- clk at which it is appended: stamp + 1,000 ticks
  stamp   : Stamp
  origin  : Nat
  refused : Bool
  boot    : Bool
  object  : Nat
  old     : List Byte
  new     : List Byte
  cq      : Option Cqe                    -- written once the record is appended
  deriving DecidableEq, Repr

/-- An appended ledger record (R459). -/
structure LedgerRec where
  seq       : Nat
  stamp     : Stamp
  origin    : Nat
  refused   : Bool
  boot      : Bool
  object    : Nat
  oldDigest : List Byte
  newDigest : List Byte
  chain     : List Byte
  deriving DecidableEq, Repr

/-- An asynchronous event (R393, R414). -/
structure Event where
  type     : Nat
  stamp    : Stamp
  inst     : Nat                          -- 0xFF for none
  config   : Nat                          -- 0xFF for none
  status   : Nat
  location : Nat
  detail   : List Byte
  deriving DecidableEq, Repr

/-- A token stream record (R383). -/
structure TokenRec where
  req      : Word32
  inst     : Nat
  accepted : Nat
  drafted  : Nat
  numeric  : Nat
  final    : Bool
  reason   : Nat
  drop     : Bool
  clamp    : Bool
  replay   : Bool
  penFull  : Bool
  nonfin   : Bool
  status   : Nat
  tokens   : List Nat
  deriving DecidableEq, Repr

/-- What the module writes or sends outside itself. -/
inductive Out where
  /-- a CQ entry (R392): ring, CID, SQ, SQ_HEAD, STATUS, OPCODE, PHASE, stamp, RESULT -/
  | cq (ring cid sq head status opcode : Nat) (phase : Bool) (stamp : Stamp) (result : List Byte)
  /-- a TQ record (R383) -/
  | tq (ring : Nat) (phase : Bool) (r : TokenRec)
  /-- an EQ entry (R393): PART and LOST beside the event -/
  | eq (ring : Nat) (phase : Bool) (part lost : Nat) (e : Event)
  /-- an MSI-X message of a function (R405) -/
  | msix (fn vector : Nat)
  /-- a write to host memory (R408, R410) -/
  | host (addr : Nat) (bytes : List Byte)
  /-- a Thaxa DATA message of a KIND (R303), on its physical port -/
  | msg (kind : Nat) (m : Msg)
  /-- a beat marker (R52) -/
  | marker (port : Nat) (m : Marker)
  /-- DELAY_REQ with t1 (R282) -/
  | delayReq (port t1 : Nat)
  /-- DELAY_RESP with t2, t3 (R282) -/
  | delayResp (port t2 t3 : Nat)
  /-- TRAIN (R282, R287) -/
  | train (port number step : Nat)
  /-- STEELYARD (R428) -/
  | steel (port : Nat) (s : SteelSet)
  /-- acknowledgement or NAK in a link header (R277, R280) -/
  | ack (port seq : Nat) (nak : Bool)
  /-- a resent DATA flit (R280) -/
  | resend (port seq : Nat)
  /-- a credit returned for a virtual channel (R278) -/
  | creditRet (port vc n : Nat)
  /-- a telemetry frame: destination bits of R68 [6:4], frame kind, bytes -/
  | frame (dest kind : Nat) (bytes : List Byte)
  /-- a management alert as an I3C in-band interrupt (R525): an event type of R414 or a cause the rule names -/
  | alert (code : Nat)
  /-- PWR_ALERT_N as driven (R436): true asserted -/
  | pwrAlert (on : Bool)
  /-- a reply to a management, PLDM or SPDM message: transport, code, body -/
  | reply (via : Via) (code : Nat) (body : List Byte)
  /-- LEDGER_PUSH of records (R465) -/
  | push (rs : List LedgerRec)
  /-- LEDGER_PUSH of a checkpoint signature (R467) -/
  | pushSig (seq : Nat) (sig : List Byte)
  /-- register data returned on a path (R500) -/
  | data (path : Path) (value : Word64) (bytes : Nat)
  /-- PLDM PlatformEventMessage: receiver, sensor, state or threshold (R478) -/
  | platformEvent (eid sensor value : Nat)
  /-- the request for an image over I3C of RECOVERY (R474) -/
  | askImage
  deriving DecidableEq, Repr

/-- An appended checkpoint whose signature is under way, or a stored one (R467). -/
structure Ckpt where
  record : LedgerRec
  leaf : Nat
  sig  : List Byte
  deriving DecidableEq, Repr

/-- The ledger unit (R459 to R468). -/
structure Ledger where
  running   : Bool
  held      : List Held                   -- in order of hand-over
  ring      : List LedgerRec              -- newest first, at most 262,144
  head      : Nat
  ack       : Nat
  mirrorEn  : Bool
  low       : Bool
  full      : Bool
  overrun   : Bool
  ckptLast  : Nat
  since     : Nat                         -- records other than checkpoints since the last one
  sinceClk  : Nat                         -- clk of the last checkpoint's, or BOOT record's, stamp
  lastCkpt  : Option LedgerRec            -- previous checkpoint record
  signing   : List LedgerRec              -- checkpoints not yet signed, oldest first
  store     : List Ckpt                   -- last 64, newest first
  ckptBase  : Nat
  deriving DecidableEq, Repr

/-! ### Bead array (03 to 07) -/

/-- One edge entry: sequence tag and 512-bit payload (R81, R102). -/
structure EdgeEntry where
  tag  : BitVec 16
  data : Word512
  deriving DecidableEq, Repr

/-- The block that a COPY has taken from an edge in part (R226): its entries so far, and its place: offset, slots and slot size of the
region, and the slot. -/
structure RegionPart where
  entries : List EdgeEntry
  x       : Nat
  b       : Nat
  z       : Nat
  slot    : Nat
  deriving DecidableEq, Repr

/-- An input edge: descriptor (R97), router queue, and the ring of entries in its spill area (R100). -/
structure InEdge where
  desc       : Word64
  queue      : List EdgeEntry
  spillHead  : Nat
  spillCount : Nat
  ages       : List Nat                   -- for each entry held, oldest first: its place in the order of sending (R108)
  part       : Option RegionPart
  deriving DecidableEq, Repr

/-- An output edge: descriptor (R98), credits, tag counter (R102), and the entries of an issued EMIT that wait for a credit each
(R99, R180). -/
structure OutEdge where
  desc    : Word64
  credits : Nat
  tags    : Nat
  hold    : List EdgeEntry
  deriving DecidableEq, Repr

/-- An action: control word and operand (R85). -/
structure Act where
  ctl : Word64
  op  : Word64
  deriving DecidableEq, Repr

/-- A tally counter (R91). -/
structure Ctr where
  value : Nat
  limit : Nat
  deriving DecidableEq, Repr

/-- A context (R83), with the running marks of R90, R93, R95, R96, R157, R182. -/
structure Context where
  id        : CtxId
  valid     : Bool
  config    : Nat
  gen       : Nat
  acts      : List Act
  pc        : Nat
  ctrs      : List Ctr
  ins       : List InEdge
  outs      : List OutEdge
  steer     : List Word32
  steerBad  : List Bool
  winBase   : Nat                         -- 64 KiB units
  winSize   : Nat
  gate      : Option Nat
  started   : Bool                        -- the first gate release of the step has come (R96)
  ended     : Bool                        -- at BRANCH END (R90)
  blocked   : Bool                        -- at an unmet blocking wait (R95)
  expect    : Nat                         -- EXPECT of that wait
  waitFrom  : Option Nat                  -- beat at which the WAIT at pc was first examined (R94)
  engine    : Word64                      -- R139
  watch     : Word64                      -- R152
  thresh    : Word32                      -- T of R127
  clamp     : Bool                        -- TRIP_CLAMP (R92)
  replays   : Nat
  escs      : Nat
  dictGen   : List Nat                    -- per DICT_ID (R180)
  built     : List (Option (List Nat))    -- per DICT_ID: entries of the dictionary built in this step (R177, R182)
  lastRun   : Nat                         -- clk at which it was last current (R109)
  step      : Option Nat                  -- the step it works for
  runs      : List Nat                    -- steps it has started that have not completed (R183)
  masks     : List (Nat × BitVec 512)     -- live masks (R347)
  dispatched : List Nat                   -- ROUTE_IDs its DISPATCH actions completed in the step (R321)
  deriving DecidableEq, Repr

/-- A dictionary slot (R183): the holders are the steps that hold a reference. -/
structure DictSlot where
  valid   : Bool
  gen     : Nat
  width   : Nat
  entries : List Nat
  holders : List Nat
  deriving DecidableEq, Repr

/-- The two slots of one (context, DICT_ID) and which is current (R183). -/
structure DictPair where
  ctx  : Nat
  id   : Nat
  a    : DictSlot
  b    : DictSlot
  curB : Bool
  deriving DecidableEq, Repr

/-- A tile directory entry (R222). -/
structure DirEntry where
  dirty      : Bool
  checkValid : Bool
  check      : Word32
  deriving DecidableEq, Repr

/-- A tile of a FILL that has not landed (R225), with the attempts on it that this read has seen (R220, R221), and the bridges of its
route once the memory port has issued the read (R25, R80). `data` is what the tile held where a prefetch began to fill it after the
read was issued (R227). -/
structure FillTile where
  ctx   : Nat
  tile  : Nat
  mpa   : Nat
  kind  : Nat
  tries : Nat
  via   : Option (List Nat)
  data  : Option (List Byte)
  deriving DecidableEq, Repr

/-- A bead (R78). Accumulators are keyed by row × 64 + channel under A8, row × 32 + channel under A4 (R140). -/
structure Bead where
  id       : BeadId
  current  : Option Nat
  accTag   : Option (Nat × Nat × Nat)     -- context, configuration, generation (R142)
  acc      : List (Nat × Word32)
  dir      : List (Nat × DirEntry)
  dicts    : List DictPair
  fills    : List FillTile
  formatFails : List (Nat × Nat)          -- context and address of the blocks that failed once in its step (R143, R187)
  encIn    : List Nat                     -- FP32 rows drained to the encoder (R139, R140), not yet encoded
  deriving DecidableEq, Repr

/-- An entry on its way to a consumer's router (R89, R99): the unit it comes from, the bridges of its route when it was sent (R22, R25),
and its place in the order of sending (R108). -/
structure Flight where
  dest  : EdgeId
  entry : EdgeEntry
  src   : Nat
  via   : List Nat
  no    : Nat
  deriving DecidableEq, Repr

/-! ### Tables under the generation-slot rule (R76, R183, R210, R271, R348, R373) -/

/-- One generation slot: its generation, contents, the holders of references, and the beat at which it becomes current. -/
structure GenSlot (α : Type) where
  gen  : Nat
  val  : α
  refs : List Nat
  due  : Nat
  deriving DecidableEq, Repr

/-- Two generation slots at most, and the current generation. -/
structure GenTable (α : Type) where
  slots : List (GenSlot α)
  cur   : Option Nat
  deriving DecidableEq, Repr

/-- A schedule entry (R67). -/
structure SchedEntry where
  kind    : Nat
  boff    : Nat
  tick    : Nat
  payload : Word64
  deriving DecidableEq, Repr

/-- One slot of a slot table (R73). -/
structure SlotEntry where
  opens  : Nat
  closes : Nat
  dest   : Nat
  flow   : Nat
  deriving DecidableEq, Repr

/-- A slot table (R73). -/
structure SlotTable where
  port  : Nat
  rate  : Nat
  gen   : Nat
  slots : List SlotEntry
  deriving DecidableEq, Repr

/-- An entry of a prefetch list (R228). -/
structure PfEntry where
  src   : Nat
  dst   : Nat
  tiles : Nat
  deriving DecidableEq, Repr

/-- A prefetch list (R228). -/
structure PfList where
  stack   : Nat
  index   : Nat
  gen     : Nat
  entries : List PfEntry
  deriving DecidableEq, Repr

/-- A collective descriptor (R318). -/
structure CollDesc where
  index    : Nat
  kind     : Nat
  flowEn   : Bool
  flow     : Nat
  n        : Nat
  rank     : Nat
  blocks   : Nat
  members  : Nat
  src      : Nat
  dst      : Nat
  notify   : Nat
  nnotify  : Nat
  routeId  : Nat
  agent    : Nat
  data     : Nat
  rowBytes : Nat
  deriving DecidableEq, Repr

/-- A step budget (R354). -/
structure Budget where
  maxRows     : Nat
  chunkBudget : Nat
  maxChunk    : Nat
  maxSeqs     : Nat
  kvBudget    : Nat
  kvPerPage   : Nat
  seqSlots    : Nat
  kvStacks    : Nat
  retryMax    : Nat
  targets     : List Nat
  deriving DecidableEq, Repr

/-- A schedule generation with what is loaded and bound with it (R66, R76). -/
structure Sched where
  period  : Nat
  cycle   : Nat
  config  : Nat
  entries : List SchedEntry
  slotTables : List SlotTable
  lists   : List PfList
  colls   : List CollDesc
  budget  : Option Budget
  deriving DecidableEq, Repr

/-- An expert entry (R191). -/
structure Expert where
  nrep : Nat
  cap  : Nat
  base : Nat
  deriving DecidableEq, Repr

/-- A replica descriptor (R192). -/
structure Replica where
  node : Nat
  rod  : Nat
  bead : Nat
  ctx  : Nat
  edge : Nat
  recv : Nat
  deriving DecidableEq, Repr

/-- A routing table (R190). -/
structure RouteTable where
  layer    : Nat
  k        : Nat
  renorm   : Bool
  normTopk : Bool
  sources  : Nat
  loadOff  : Nat
  experts  : List Expert
  replicas : List Replica
  deriving DecidableEq, Repr

/-- A state of a token automaton (R371). -/
structure AutState where
  mask   : Nat
  base   : Nat
  count  : Nat
  dflt   : Nat
  isEnd  : Bool
  deriving DecidableEq, Repr

/-- A transition (R371). -/
structure AutTrans where
  token : Nat
  next  : Nat
  deriving DecidableEq, Repr

/-- A sampler record (R370, R371). -/
structure SamplerRec where
  v         : Nat
  bf16      : Bool
  logitPage : Nat
  dlogitPage : Nat
  targets   : List Nat
  starts    : List Nat
  states    : List AutState
  trans     : List AutTrans
  masks     : List (List Byte)
  deriving DecidableEq, Repr

/-- An adapter generation: its catalogue entry and the instance pages it occupies (R271). -/
structure Adapter where
  entry : Nat
  pages : List (Nat × Nat)
  deriving DecidableEq, Repr

/-! ### Instances and sequences (13, 14) -/

/-- States of an instance (R340). -/
inductive InstSt where
  | free | created | activating | active | part | halted | tornDown
  deriving DecidableEq, Repr

/-- The pool account of an instance (R233). -/
structure Account where
  quota   : Nat
  limit   : Nat
  used    : Nat
  csLimit : Nat
  csUsed  : Nat
  pin     : Bool
  deriving DecidableEq, Repr

/-- A page map entry (R345). -/
structure PageMapEntry where
  stack   : Nat
  lpage   : Nat
  phys    : Nat
  present : Bool
  vault   : Option Nat
  cls     : Nat
  deriving DecidableEq, Repr

/-- A remote request queue: owner context, ring tile, expected SEQ, entries accepted and not complete, and its halt (R307, R308, R316). -/
structure Rrq where
  num     : Nat
  config  : Nat
  tile    : Nat
  expect  : Nat
  stopped : Bool
  open_   : List Nat                      -- tags of accepted, uncompleted entries
  deriving DecidableEq, Repr

/-- A request's sampling parameters (R367). -/
structure Sampling where
  seed     : Word64
  temp     : Word32
  topP     : Word32
  topK     : Nat
  prob     : Bool
  dltEn    : Bool
  penPrompt : Bool
  mask     : Nat
  draftLen : Nat
  rep      : Word32
  freq     : Word32
  pres     : Word32
  automaton : Nat
  stops    : List Nat
  dlt      : List Nat
  listMask : List Nat                     -- tokens of the built mask (R368)
  deriving DecidableEq, Repr

/-- A sequence (R355, R361, R363, R367 to R382). `slot` and the bound generations are set at admission. -/
structure Seq where
  req      : Word32
  tenant   : Nat
  tq       : Nat
  adapter  : Option Nat
  origin   : Nat
  prompt   : List Nat
  maxNew   : Nat
  deadline : Option Nat                   -- clk at which ADMIT_TIMEOUT falls due
  stamp    : Stamp
  par      : Sampling
  slot     : Nat
  adapterGen : Option Nat
  samplerGen : Nat
  done     : Nat                          -- prompt positions processed
  kv       : Nat
  draftKv  : Nat
  newest   : Nat                          -- newest token
  emitted  : Nat
  counts   : List (Nat × Nat)             -- count table in insertion order (R375)
  penFull  : Bool
  autState : Nat
  history  : List Nat                     -- accepted draft counts, newest first, at most four (R378)
  busy     : Option Nat
  failures : Nat
  lastServed : Nat
  cancel   : Bool
  kvPages  : List (Nat × Nat)
  csTiles  : Nat                          -- common-store tiles held: prompt and sampler state
  deriving DecidableEq, Repr

/-- An instance (R340). -/
structure Inst where
  state    : InstSt
  owner    : Nat
  entry    : Option Nat
  acct     : Account
  csBase   : Nat
  csArea   : Nat                          -- tiles of its common-store area
  sched    : GenTable Sched
  routes   : List (Nat × GenTable RouteTable)
  sampler  : GenTable SamplerRec
  adapters : List (Nat × GenTable Adapter)
  pageMap  : List PageMapEntry
  rrqs     : List Rrq
  queue    : List Seq
  seqs     : List Seq
  stopped  : Bool                         -- starts no step (R316, R324)
  stepIdx  : Nat
  lateRoutes : List (Nat × Nat)           -- ROUTE_ID and generation of tables that came after their effective beat (R211)
  fired    : Nat × Nat                    -- entries of the running beat before this tick have fired, and this many at it (R70)
  deriving DecidableEq, Repr

/-- A tenant record (R357): `set` once TENANT_SET named it; `next` is a setting that waits for the boundary (R358). -/
structure Tenant where
  id       : Nat
  set      : Bool
  budget   : Nat
  window   : Nat
  used     : Nat
  reserved : Nat
  charged  : Nat                          -- tokens charged in the beat (R360)
  heldOut  : Nat                          -- sequence-steps held out by budget in the beat
  next     : Option (Nat × Nat)
  deriving DecidableEq, Repr

/-- A sequence's part of a running step (R361, R379). `rows` from position `pos`; `d` is the draft length. -/
structure StepSeq where
  req      : Word32
  tenant   : Nat
  pos      : Nat
  rows     : Nat
  prefill  : Bool
  d        : Nat
  row0     : Nat
  draft    : List Nat                     -- proposals drawn so far
  draftEnd : Bool                         -- the draft stopped early
  cand     : List (List (Nat × Word32))   -- draft distributions (R379)
  emit     : List Nat
  accepted : Nat
  settled  : Bool
  fault    : Option Nat                   -- MASK_EMPTY, NUMERICS_FAULT, KV_LOST
  lostOn   : Nat                          -- with KV_LOST: the frame die whose stack held the tile (R240)
  drop     : Bool
  nonfin   : Bool
  deriving DecidableEq, Repr

/-- A running step (R71, R76, R163, R361). -/
structure StepRun where
  id       : Nat
  inst     : Nat
  index    : Nat
  start    : Nat
  sched    : Nat                          -- bound schedule generation
  routes   : List (Nat × Nat)             -- bound routing generations
  slots    : List (Nat × Nat)             -- bound slot-table generations by port
  configs  : List (Nat × Nat)             -- bound configuration generations
  seqs     : List StepSeq
  rowTable : Nat
  numeric  : Nat
  clamp    : Bool
  replay   : Bool
  late     : Nat
  fail     : Option Nat
  overrun  : Bool                         -- its STEP_END stamp has passed
  window   : List (Nat × Nat × Nat)       -- tenant, window and tokens reserved, one for each sequence of `seqs`
  endNo    : Nat                          -- step index of its STEP_END entry
  left     : Nat                          -- LAYER_START and COLLECTIVE_WINDOW entries of the step still to fire
  deadline : Nat                          -- clk of its STEP_END stamp
  deriving DecidableEq, Repr

/-- Saved live state of a configuration (R352): contexts and tiles with their DIRTY bits. -/
structure Saved where
  ctxs  : List Context
  tiles : List (BeadId × Nat × Bool × List Byte)
  dicts : List (BeadId × DictPair)        -- the contexts' dictionary slots
  deriving DecidableEq, Repr

/-- A configuration generation as loaded: its contexts as compiled and their initial tiles (R347). -/
structure ConfigGen where
  fixed : Bool
  ctxs  : List Context
  tiles : List (BeadId × Nat × List Byte)
  dicts : List (BeadId × Nat × DictSlot)  -- installed dictionaries
  store : Nat                             -- STORE_TILES
  pages : List (Nat × Nat)                -- its CTX pages (R350)
  rrqs  : List (Nat × Nat)                -- remote request queues declared: number, tile of the instance's area (R307)
  deriving DecidableEq, Repr

/-- A module configuration number and its residency (R347 to R352). -/
structure Cfg where
  num      : Nat
  inst     : Nat
  loc      : Nat
  gens     : GenTable ConfigGen
  resident : Bool
  restoring : Bool
  map      : List (BeadId × Nat)          -- context map: bead to physical context (R349)
  waiting  : Option Nat                   -- clk of the gate release it waits for
  release  : List (CtxId × Nat)           -- gate releases to apply when restored
  inbox    : List (EdgeId × Word512)      -- entries of the hub that wait for the restore, by compiled context
  since    : Nat                          -- clk since which it is resident
  saved    : Option Saved
  badSave  : Bool
  disabled : List Nat                     -- generations disabled under R108
  deadlock : Option (Nat × Nat)           -- generation and beat of its last deadlock
  deriving DecidableEq, Repr

/-- A part of a collective's message as received (R202, R302, R319): an encoded block by its rank and place, or a part of a section.
`sender` is the rank, or replica × 256 + source; `stage` counts a section's placements: 1 its rows, 2 its header (R204). -/
structure Got where
  sender : Nat
  phase  : Nat
  place  : Nat                            -- block within the chunk, or part number
  node   : Nat                            -- SRC
  bytes  : List Byte
  stage  : Nat
  deriving DecidableEq, Repr

/-- What became of part 0 of the section that a node is sending (R203): it is taken under its key, was rejected, or repeats a section that
is whole. -/
inductive SectionHead where
  | taken (key : Nat) | rejected | repeated
  deriving DecidableEq, Repr

/-- An open collective of a step (R318 to R324): its descriptor, the routing table its step bound, its windows by clk. -/
structure CollRun where
  inst     : Nat
  step     : Nat
  start    : Nat                          -- beat at which the step started
  desc     : CollDesc
  route    : Option (Nat × RouteTable)    -- generation and table, kinds 3 and 4
  openAt   : Nat
  close    : Nat
  slotOpen : Nat
  slotClose : Nat
  attempt  : Nat
  ready    : Bool                         -- the own contribution was found ready
  sent     : List Nat                     -- attempt × 2 + phase of what has been sent
  got      : List Got
  heads    : List (Nat × SectionHead)     -- by sending node × 2 + attempt
  reduced  : List (List Byte)             -- encoded blocks of the own reduced chunk
  judged   : Bool                         -- its window has closed
  done     : Option Nat                   -- the attempt that succeeded
  failed   : Bool
  deriving DecidableEq, Repr

/-- What a load that waits for a free slot will place (R76, R210, R271, R348, R373). -/
inductive LoadWhat where
  | sched (v : Sched) (gen due : Nat)
  | route (id : Nat) (v : RouteTable) (gen due : Nat)
  | sampler (v : SamplerRec) (gen : Nat)
  | config (num : Nat) (v : ConfigGen) (gen due : Nat)
  | adapter (slot : Nat) (v : Adapter) (gen : Nat) (reads : List Check)
  | slots (v : SlotTable)
  deriving DecidableEq, Repr

/-- A waiting load and the command it completes. -/
structure WaitLoad where
  cqe    : Option Cqe                     -- none after a function level reset (R407)
  origin : Nat
  object : Nat
  digest : List Byte
  what   : LoadWhat
  deriving DecidableEq, Repr

/-- Instances, batching and the pool's owners (13, 14). -/
structure Serve where
  insts   : List Inst                     -- 16
  tenants : List Tenant                   -- those named so far
  steps   : List StepRun
  stepNo  : Nat
  cfgs    : List Cfg
  colls   : List CollRun
  waits   : List WaitLoad
  tqHold  : List (Nat × TokenRec)         -- hub buffers of full TQs (R403), oldest first
  tokFrames : List (List Byte)            -- tenant records of the beat just ended (R360)
  loadGens : List (Nat × Nat × Nat)       -- instance, ROUTE_ID and generation current at the end of the last beat (R209)
  overruns : Nat                          -- steps not complete at their STEP_END (R71)
  deriving DecidableEq, Repr

/-! ### Memory (01, 08, 11) -/

/-- A page record of an allocated page (R231). -/
structure Page where
  stack   : Nat
  num     : Nat
  owner   : Nat
  cls     : Nat
  lastUse : Nat
  deriving DecidableEq, Repr

/-- A running prefetch list (R229): the tiles not landed, the beat and tick of the fill-by point, and whether it was late there. -/
structure PfRun where
  inst    : Nat
  stack   : Nat
  index   : Nat
  left    : List PfEntry                  -- entries with the tiles not yet landed, in order; the first has started
  fillBeat : Nat
  fillTick : Nat
  late     : Bool
  deriving DecidableEq, Repr

/-- A gather command (R237), with the issuing context and the tile address of the command; the bridges of its route once the memory
port has issued it (R25, R80); the staging tiles that a prefetch began to fill after that, as they were (R227); and the attempts on
the tiles it reads that it has seen (R221). -/
structure GatherRun where
  stack : Nat
  ctx   : CtxId
  addr  : Nat
  cmd   : List Byte
  via   : Option (List Nat)
  old   : List (Nat × List Byte)
  seen  : List (Nat × Nat)
  deriving DecidableEq, Repr

/-- An ownership table entry (R312). -/
structure OwnEntry where
  index : Nat
  base  : Nat
  size  : Nat                             -- SIZE_LOG2
  unit  : Nat
  mode  : Nat
  owner : Nat
  epoch : Nat
  deriving DecidableEq, Repr

/-- The memory system. `cells` is canonical: addresses strictly rising, no byte 0x00 listed. -/
structure MemSys where
  cells    : List Host.Cell
  filling  : List (Nat × Nat)             -- (stack, staging tile) in state FILLING (R227)
  pendTiles : List Nat                    -- PENDING common-store tiles (R309), once for each request
  landed   : List (Nat × Nat)             -- common-store tile and the beat of its last WRITEBACK (R321)
  pages    : List Page
  lists    : List PfRun
  listWaits : List PfRun                  -- starts that wait for an earlier run of their list (R229)
  gathers  : List GatherRun
  evicted  : List (Nat × Nat × Nat)       -- instance, pages, stack mask evicted in the beat (R236)
  checks   : List (Nat × Word32)          -- check arrays of staging, common store and HBM4: by tile, or by sector of a GATHER page (R215)
  attempts : List (Nat × Nat × Nat)       -- (tile MPA, step + 1 or 0 for no step, attempts) (R220, R221)
  own      : List OwnEntry
  deriving DecidableEq, Repr

/-! ### Vault and installation (09) -/

/-- A row of a shard table (R251). -/
structure Shard where
  index    : Nat
  row      : Nat
  col      : Nat
  kind     : Nat
  prot     : Bool
  offset   : Nat
  length   : Nat
  checkOff : Nat
  digest   : List Byte
  deriving DecidableEq, Repr

/-- A catalogue entry (R262), with its shard table and the vault pages of its kept shards (EXTENT). -/
structure CatEntry where
  index    : Nat
  imageId  : Nat
  gen      : Nat
  state    : Nat                          -- 1 RECEIVING, 2 VERIFIED, 3 COMMITTED, 4 STALE
  kind     : Nat
  rank     : Nat
  baseId   : Nat
  rows     : Nat
  cols     : Nat
  shards   : List Shard
  kept     : List Nat
  bad      : List Nat
  owed     : List Nat
  bound    : Nat
  digest   : List Byte
  stamp    : List Byte                    -- COMMIT_STAMP, a full stamp (R42)
  staleRows : Nat
  extent   : List (Nat × Nat)             -- shard and vault page, one for each page in stream order
  head     : List Byte                    -- header, shard table and signature as received
  deriving DecidableEq, Repr

/-- A kept shard being received: the stream offsets whose messages have arrived, and how it stands. -/
structure RxShard where
  shard    : Nat
  length   : Nat                          -- stream length: data and check array
  got      : List Nat                     -- stream offsets taken
  programmed : Nat                        -- pages programmed
  verified : Bool
  failed   : Bool
  deriving DecidableEq, Repr

/-- An open installation or repair at a member (R257 to R261). -/
structure Member where
  tag      : Nat
  reader   : Nat                          -- module number
  entry    : Nat
  repair   : Bool
  timeoutMs : Nat
  lastMsg  : Nat                          -- clk of the last message
  shards   : List RxShard
  seqs     : Nat                          -- DATA messages received, or those of the REPAIR under way
  endCount : Option Nat
  endClk   : Nat
  committed : Bool
  extent   : List (Nat × Nat)             -- pages reserved: shard and vault page, in stream order
  created  : Bool                         -- the entry was created by this installation or repair
  deriving DecidableEq, Repr

/-- One member as the reader sees it (R257 to R260). -/
structure Peer where
  bit      : Nat                          -- 9 × column + row
  module   : Nat
  answered : Bool
  credits  : Nat
  verified : Bool
  reported : Bool
  committed : Bool
  fails    : List (Nat × Nat)             -- (shard, failures)
  deriving DecidableEq, Repr

/-- A piece of a shard's stream still to send: to every member, or to the one at `target` (R258, R259); END follows the last one. -/
structure Send where
  shard  : Nat
  off    : Nat
  len    : Nat
  target : Option Nat
  last   : Bool
  deriving DecidableEq, Repr

/-- An installation or repair this module sends (R257, R267). -/
structure Reader where
  tag      : Nat
  cqe      : Option Cqe                   -- none: a SHARD_REPAIR, or after a function level reset
  origin   : Nat
  image    : List Byte                    -- the image in host memory; empty for a repair
  entry    : Nat                          -- a repair's catalogue entry
  shards   : List Shard
  rows     : Nat
  cols     : Nat
  payload  : Nat                          -- PAYLOAD_OFF
  peers    : List Peer
  queue    : List Send                    -- DATA and REPAIR messages still to send
  seq      : Nat
  begun    : Nat                          -- clk of BEGIN, later of the last COMMIT
  timeout  : Nat                          -- clk at which the INSTALL timeout fires
  ended    : Bool
  committing : Bool
  gen      : Nat
  digest   : List Byte
  deriving DecidableEq, Repr

/-- What a journal record says: a logical page shows a physical page (R245), it is free (R261, R264), or a catalogue entry commits
(R260). -/
inductive JWhat where
  | map (page phys : Nat)
  | free (page : Nat)
  | commit (entry : Nat)
  | stored (image : Bool)                 -- the firmware image, or the checkpoint, of the reserved region (R467, R475)
  deriving DecidableEq, Repr

/-- A journal record (R245). -/
structure JRec where
  seq  : Nat
  what : JWhat
  crc  : Word32                           -- CRC-32C over the record's other bytes
  deriving DecidableEq, Repr

/-- A message in the install buffer whose page has not been programmed (R258): logical page, shard, length, and the 64 KiB slot of the
buffer that holds it. -/
structure Piece where
  page  : Nat
  shard : Nat
  len   : Nat
  slot  : Nat
  deriving DecidableEq, Repr

/-- A page program in flight (R245, R247): the physical page and what it is given; not wanted once its member has let the page go. -/
structure Prog where
  piece  : Piece
  phys   : Nat
  data   : List Byte
  wanted : Bool
  deriving DecidableEq, Repr

/-- A BEGIN of which not every message has arrived (R303): its tag and sender, its options, and the pieces by SEQ. -/
structure BeginRx where
  tag    : Nat
  src    : Nat
  opt    : Nat
  pieces : List (Nat × List Byte)
  deriving DecidableEq, Repr

/-- The vault controller (R241 to R272). -/
structure Vault where
  mapReady  : Bool
  quiescent : Bool
  powerFail : Bool
  flights   : List Prog                   -- page programs in flight, one for each channel at most
  waiting   : List Piece                  -- pages to program
  mapped    : List (Nat × Nat)            -- the page map: logical and physical page
  phys      : List (Nat × List Byte)      -- physical pages that hold a completed program, with their contents; the others are free
  mirrorA   : List JRec                   -- the durable journal, in mirrored pages on two channels (R246)
  mirrorB   : List JRec
  reserved  : List Nat                    -- logical pages reserved by the open installation
  begins    : List BeginRx
  buffer    : List JRec
  bufferClk : Option Nat                  -- clk of the first unwritten record
  nextSeq   : Nat
  durable   : Nat                         -- JOURNAL_SEQ
  catalogue : List CatEntry
  member    : Option Member
  reader    : Option Reader
  repair    : Option Reader
  tagNo     : Nat
  storedRods : List Nat                   -- stored rod maps of FD0-FD3 (R113)
  storedDead : List (Nat × Nat)           -- with them: die and physical rod of a second lasting fault (R114, R451)
  storedFences : List (Nat × Nat)         -- stored fence maps by register offset (R451)
  storedCkpt : Option Ckpt                -- stored checkpoint (R467); none: 64 zero bytes (R461)
  image     : Option (List Byte)          -- stored firmware image (R474)
  nextImage : Option (List Byte)          -- a new image whose journal record is not durable yet (R475)
  nextCkpt  : Option Ckpt                 -- a signed checkpoint whose journal record is not durable yet (R467)
  deriving DecidableEq, Repr

/-! ### Thaxa ports and fabric (10, 11) -/

/-- Port states (R301). -/
inductive PortSt where
  | down | detect | equalize | align | delay | admitted | retrain
  deriving DecidableEq, Repr

/-- A delay measurement under way (R284). -/
structure DelayRun where
  t1       : Option Nat                   -- the exchange awaiting its response
  results  : List Int
  attempts : Nat
  last     : Nat                          -- clk of the last DELAY_REQ
  deriving DecidableEq, Repr

/-- A Thaxa port (R273 to R287, R300, R301). -/
structure Port where
  st        : PortSt
  enable    : Bool
  rate      : Bool                        -- RATE: true mode 224
  fallback  : Bool
  rateTrained : Bool
  miscabled : Bool
  peerPlane : Nat
  laneFail  : Nat
  linkDelay : Nat
  tries     : Nat                         -- failed attempts of the sequence
  fellBack  : Bool
  equalizing : Bool                       -- RETRAIN runs EQUALIZE first
  measured  : Bool                        -- RETRAIN has left ALIGN and measures d, or has
  proving   : Bool                        -- RETRAIN done, its proving run not ended (R446)
  trainSeen : Bool                        -- TRAIN with accepted identity seen (R287)
  replay    : List Nat                    -- SEQ of DATA flits sent and unacknowledged, oldest first
  nextSeq   : Nat
  expectSeq : Nat
  nakPending : Bool                       -- discards until the replayed flit arrives
  naks      : Nat                         -- consecutive NAKs of one flit
  nakFlit   : Nat
  sinceAck  : Nat                         -- DATA flits received since the last acknowledgement
  credits   : List Nat                    -- credits held per VC
  buffered  : List Nat                    -- flits in the receive buffers per VC
  incomplete : List Nat                   -- flits of an incomplete message per VC
  delayRun  : Option DelayRun
  deriving DecidableEq, Repr

/-- A message of scheduled traffic that waits for a slot of its flow (R75): the port of the slot table, the bound generation, the flow,
the tick of the running beat from which it waits, and the message with its KIND. -/
structure SlotMsg where
  inst : Nat                              -- whose schedule sends it (R317)
  port : Nat
  gen  : Nat
  flow : Nat
  from_ : Nat
  kind : Nat
  m    : Msg
  deriving DecidableEq, Repr

/-- An outstanding fabric request of a remote request queue (R308, R309, R315). -/
structure Request where
  tag     : Nat
  kind    : Nat
  node    : Nat                           -- target node
  inst    : Nat
  config  : Nat
  queue   : Nat
  slot    : Nat                           -- ring entry
  data    : Nat                           -- common-store offset of the result area
  length  : Nat                           -- bytes of the result
  due     : Nat                           -- clk of its deadline
  tiles   : List Nat                      -- tiles it keeps PENDING
  deriving DecidableEq, Repr

/-- A request at the hub that may not act yet, in order of acceptance: a memory operation whose read waits (R24, R26, R227, R245), or a
change of ownership that waits for those before it (R314). -/
inductive HeldReq where
  | memory (kind : Nat) (m : Msg) (reads : List Check)
  | handoff (m : Msg)
  | ownSet (origin : Nat) (entry : OwnEntry) (valid : Bool) (cqe : Option Cqe)
  deriving DecidableEq, Repr

/-- Thaxa switch and fabric state. -/
structure Fabric where
  ports    : List Port                    -- 9
  part     : Nat
  row      : Nat
  col      : Nat
  coordValid : Bool
  admitted    : Bool
  spareMap : Nat                          -- active
  spareShadow : Nat
  spareBeatShadow : Nat
  sparePend : Option (Nat × Nat)          -- map and beat B
  requests : List Request
  lost     : List Nat                     -- tags abandoned or past their deadline
  tagNo    : Nat
  hubRoutes : List Nat                    -- ring bridges whose traffic takes the hub route (R25)
  routeDue : List (Nat × Bool)            -- ring bridge and its new route at the next boundary
  bridgeRuns : List (Nat × Nat)           -- bridge, consecutive replays of one unit (R24)
  bridgeReplays : List (Nat × Nat)        -- replay counter per bridge (R23)
  denied   : Nat                          -- beat + 1 of the last PARTITION_DENY event (R294)
  slotTabs : List (Nat × GenTable SlotTable) -- slot tables by port, two slots each (R76)
  slotOut  : List SlotMsg                 -- slot traffic that waits, oldest first (R75)
  slotMisses : Nat                        -- messages that missed their slot's CLOSE (R75)
  torn     : List Nat                     -- start beats of the steps that JOB_TEARDOWN ended, modulo 2^32 (R317)
  held     : List HeldReq
  deriving DecidableEq, Repr

/-! ### Arbiters (12) -/

/-- An arbiter instance that has left its idle state (R330). -/
structure ArbNode where
  kind    : ArbKind
  index   : Nat
  holder  : Option ArbReq
  sent    : Nat                           -- flits of the holder's transfer sent (R332)
  waiting : List ArbReq
  ptrs    : List Nat                      -- p[0..7]
  deriving DecidableEq, Repr

/-- The arbiter block (R334 to R338). -/
structure Arb where
  shadow  : List Nat                      -- Thaxa, HBM, vault, common store
  active  : List Nat
  pend    : Option (List Nat × Nat × Nat) -- set, due clk, origin
  nodes   : List ArbNode
  deriving DecidableEq, Repr

/-! ### Host interface (15, 19) -/

/-- A ring (R390, R413). -/
structure Ring where
  num     : Nat
  owner   : Nat
  base    : Word64
  enable  : Bool
  sizeLog : Nat
  cq      : Nat
  irq     : Nat                           -- RING_IRQ [29:0]
  st      : Nat                           -- 0 DISABLED, 1 ACTIVE, 2 ERROR
  err     : Nat
  head    : Nat
  tail    : Nat
  used    : Nat                           -- CQ, TQ, EQ: entries the host has not consumed
  phase   : Bool
  mask    : Word64
  unsig   : Nat
  timer   : Option Nat                    -- clk at which TIME expires
  lost    : Nat
  inFlight : Nat                          -- SQ: fetched, uncompleted commands
  bells   : List (Nat × Stamp × Nat)      -- SQ: tail, stamp and clk of the doorbells whose entries are not all fetched (R44)
  deriving DecidableEq, Repr

/-- States of a DMA channel (R410). -/
inductive ChanSt where
  | idle | fetch | run | writeback | waiting | stopped | error
  deriving DecidableEq, Repr

/-- A DMA channel (R408 to R415). -/
structure Chan where
  owner  : Nat
  head   : Word64
  irq    : Nat
  st     : ChanSt
  stopPending : Bool
  status : Nat
  done   : Nat
  desc   : Option Word512
  waited : Bool                           -- the copy's read has waited for a FILLING tile, and that is counted (R227)
  deriving DecidableEq, Repr

/-- A function: 0 the PF, 1 + n VF n (R387, R405, R489). -/
structure Func where
  d3hot   : Bool
  masked  : List Nat
  pendVec : List Nat
  deriving DecidableEq, Repr

/-- Host interface. -/
structure HostIf where
  rings : List Ring                       -- rings that differ from reset
  chans : List Chan                       -- 32
  funcs : List Func                       -- 9
  cqHold : List Cqe                       -- completions of functions in D3hot (R489), oldest first
  errKind : Nat
  busError : Bool
  errAddr : Word64
  deriving DecidableEq, Repr

/-! ### Power (16) -/

/-- Measurements of a beat (R417, R435). -/
structure Meas where
  input : Nat
  die   : List Nat                        -- FD0-FD3
  hub   : Nat
  hbm   : Nat
  vault : Nat
  vin   : Nat                             -- lowest, 10 mV
  tj    : List Nat                        -- highest, FD0-FD3
  tjHub : Nat
  tjHbm : Nat
  droop : Nat
  changes : Nat
  cap   : Nat                             -- in force at the end of the beat
  budget : Nat                            -- of the decision in the beat
  flags : Nat                             -- POWER_STATUS bits [10:0] at the end of the beat
  deriving DecidableEq, Repr

/-- Sums over the samples of the running beat. -/
structure MeasSum where
  n     : Nat
  input : Nat
  die   : List Nat
  hub   : Nat
  hbm   : Nat
  vault : Nat
  deriving DecidableEq, Repr

/-- A HINT in force or to come (R422); `op` 16 + p takes the PHASE_PREF entry of phase p. -/
structure Hint where
  die   : Nat
  op    : Nat
  start : Nat
  beats : Nat
  deriving DecidableEq, Repr

/-- Power, droop and thermal control (R416 to R440). -/
structure Power where
  op       : List Nat
  pend     : Option (List Nat)
  prefs    : List (Option Nat)            -- OP_PREF in force per die
  hints    : List Hint
  capWatts : Nat
  capValid : Bool
  fallback : Bool
  lease    : Option Nat                   -- clk at which the lease fires
  lowInput : Bool
  lowClear : Option Nat                   -- clk since which VIN is at or above 33.0 V
  thermal  : List Nat                     -- thermal ceiling per die, 11 for none
  throttled : List Bool                   -- the throttle response is in force, per die (R433)
  coolant  : Bool
  coolCeil : List Nat                     -- coolant-loss ceiling per die, 11 for none
  coolCalm : Nat                          -- consecutive readings with the slope below SLOPE
  droopCeil : List (Option (Nat × Nat))   -- ceiling and the beat at which it lifts
  droopLow : List Bool                    -- the clock runs one step lower
  droopTrips : List Nat                   -- trips in the running beat
  cur      : Meas
  sum      : MeasSum
  last     : Meas
  oAt      : List Nat                     -- operating points during the last beat
  tj       : List Nat                     -- latest Tj of FD0-FD3, the hub and the hottest base die
  tjHist   : List Nat                     -- module Tj, newest first, at most 101
  alert    : Bool
  capUnatt : Bool
  groupUnatt : Bool
  partialSet : Bool
  constrained : Bool
  deferred : Bool
  budget   : Nat
  decided  : Nat                          -- beat + 1 of the last decision (R423)
  capPrev  : Option (Nat × Nat)           -- the cap in force before the last change of it, and the clk of that change (R424)
  slack    : Option Int
  sets     : List SteelSet                -- counted sets of the last beats
  deriving DecidableEq, Repr

/-! ### Faults (17) -/

/-- A proving run, queued or running (R444 to R449). -/
structure Run where
  unit    : ProveUnit
  region  : Nat                           -- HBM: the failing tile; otherwise 0
  run     : Nat                           -- 1 to 6 (R454)
  more    : Bool                          -- a bead logic test follows the march
  cls     : Nat
  first   : Stamp
  merged  : Nat
  started : Option Nat                    -- clk at which it started
  beat    : Nat                           -- beat at which it started
  repeated : Bool                         -- lasting by repetition (R449)
  routine : Bool
  deriving DecidableEq, Repr

/-- Fault state. -/
structure Faults where
  status     : Nat                        -- FAULT_STATUS [6:0]
  runs       : List Run                   -- in order of detection
  transients : List (ProveUnit × Nat × Nat) -- unit, window, count
  corrected  : List (ProveUnit × Nat × Nat) -- unit, window, count
  spareUsed  : List (Nat × Nat × Nat)     -- stack, channel, spare rows used
  remaps     : List (Nat × Nat)           -- die, rod: remap pending (R113)
  fenceBridge : Nat
  fenceCs    : Nat
  fencePort  : Nat
  fenceStack : List (Nat × Nat)           -- stack, FENCE_MAP_STACK value
  tests      : List (ProveUnit × Nat)     -- clk of a bead's last logic test (R453)
  routineAt  : List (Nat × Nat)           -- die, beat at which its last routine proving period began (R453)
  dead       : List (Nat × Nat)           -- die, physical rod of a second lasting fault (R114)
  deriving DecidableEq, Repr

/-! ### Security and management (18) -/

/-- A firmware update in progress (R475). -/
structure FwUpdate where
  length : Nat
  bytes  : List (Nat × List Byte)
  deriving DecidableEq, Repr

/-- A signed response that waits (R480). -/
structure Deferred where
  via   : Via
  code  : Nat
  body  : List Byte
  deriving DecidableEq, Repr

/-- A publisher key (R469). -/
structure PubKey where
  sigSet  : Nat
  key     : List Byte
  revoked : Bool
  deriving DecidableEq, Repr

/-- SPDM state of one transport (R479). -/
structure Spdm where
  version : Bool
  caps    : Bool
  algs    : Bool
  large   : List Byte                     -- a response being fetched by CHUNK_GET
  chunk   : Nat
  deriving DecidableEq, Repr

/-- Security engine and management endpoint. -/
structure Security where
  blocks    : Nat
  nextLeaf  : Nat
  exhausted : Bool
  keys      : List (Nat × PubKey)
  svn       : Nat                         -- running SVN
  fusedSvn  : Nat
  digest    : List Byte                   -- firmware digest of the running image
  build     : Nat
  update    : Option FwUpdate
  recovery  : Bool
  recoveryBoot : Bool
  deferred  : List Deferred
  spdmPf    : Spdm
  spdmI3c   : Spdm
  tid       : Nat
  receiver  : Option Nat
  events    : List (Nat × Nat × Nat)      -- PLDM events that may yet be sent again: sensor, value, clk of their sending
  deriving DecidableEq, Repr

/-! ### Service and pins (19, 21) -/

/-- PHASE (R484). -/
inductive Phase where
  | off | supplies | boot | recovery | setupLocked | standbyEntry | standby | halted | removeReady
  deriving DecidableEq, Repr

/-- An instance's save for standby (R490). -/
structure Save where
  num  : Nat
  inst : Inst
  cfgs : List Cfg
  area : List Byte                        -- its common-store area
  digest : List Byte                      -- IMAGE_DIGEST of its bound entry
  pages : List (Nat × Nat)                -- the SYSTEM pages that hold the save
  deriving DecidableEq, Repr

/-- The standby marker (R490). -/
structure StandbyMark where
  seq   : Nat
  chain : List Byte
  saves : List Save
  tenants : List Tenant
  own   : List OwnEntry
  deriving DecidableEq, Repr

/-- The sideband island, the service block and the pins. -/
structure Service where
  phase     : Phase
  hbmReady  : Bool
  sweepDone : Bool
  synced    : Bool
  retained  : Bool
  cause     : Nat
  refusedLast  : Word64
  refusedCount : Nat
  discards  : Nat                         -- RETAIN_DISCARD_COUNT
  island    : Bool
  held      : List Held                   -- records of writes accepted while the ledger unit is off (R483)
  mainEn    : Bool
  vstby     : Bool
  vinOk     : Bool
  refOk     : Bool
  supplies  : List Bool                   -- VVLT, VHUB, VHBM, VFD0-3
  mark      : Option StandbyMark
  markBad   : Bool
  stepNo    : Nat                         -- power-on step under way (R486)
  locked    : Bool                        -- SETUP_LOCK
  regAddr   : Option (Nat × Nat)          -- CCC REG_ADDR: offset and length
  deriving DecidableEq, Repr

/-- The numeric summary of a beat (R165): per die six counts, then the hub's two. -/
structure NumSum where
  die     : List (List Nat)
  hubTrips : Nat
  hubNonfin : Nat
  deriving DecidableEq, Repr

/-- The bead array. -/
structure Array where
  beads   : List Bead                     -- beads that differ from reset
  ctxs    : List Context                  -- contexts that hold a configuration
  flights : List Flight
  accLost : Nat                           -- MATRIX actions that found their sums lost (R142)
  sent    : Nat                           -- entries sent so far
  moves   : List (Nat × Nat × Nat)        -- die, configuration, clk at which an entry last entered or left an edge: the watchdogs (R107)
  spare   : List Bead                     -- beads of the physical rod that no logical rod names, that differ from reset (R111)
  num     : NumSum                        -- counts of the running beat
  numLast : NumSum                        -- counts of the beat just ended
  numRec  : List Byte                     -- summary of the last beat that wrote a record (R166)
  deriving DecidableEq, Repr

/-- The state of the module. `regs` holds every register and counter with no field of its own, by BAR0 offset; an unlisted
register reads its reset value. `free` numbers the free values (log 3). -/
structure State where
  time    : TimeUnit
  regs    : List (Nat × Nat)
  arr     : Array
  mem     : MemSys
  serve   : Serve
  vault   : Vault
  fab     : Fabric
  arb     : Arb
  host    : HostIf
  power   : Power
  faults  : Faults
  ledger  : Ledger
  sec     : Security
  svc     : Service
  out     : List Out                      -- what has left the module, oldest first
  free    : Nat
  pending : List Instr
  deriving DecidableEq, Repr

/-! ### Why a step can stop -/

/-- Faults. The spec reports every error of the module by a status, an event, a counter or a record (R13, R14, R395, R414) and the
machine goes on, so no command faults and the type has no case. -/
inductive Fault where
  deriving DecidableEq, Repr

/-- Refusals. -/
inductive Refusal where
  /-- Raised by an arm of exec whose command has no meaning yet. Safe: the machine stops where the hardware goes on. -/
  | notModelled (mnemonic : String)
  deriving DecidableEq, Repr

/-! ### Reset -/

def TimeUnit.reset : TimeUnit :=
  { st := .unlocked, role := .none, beat := 0, tick := 0, clk := 0, period := 50, epoch := 0, ctr10 := 0, corr := 0,
    phaseErr := 0, master := 0x7FF, lastMarker := none, good := 0, bad := 0, holdover := 0, outSeq := 0, acquired := false,
    heard := [], discarded := false, seen := [], pendPeriod := none, takeover := none, masterStart := none,
    latchPcie := ⟨0, 0, false⟩, latchI3c := ⟨0, 0, false⟩, latchFm := ⟨0, 0, false⟩, lockEnds := [] }

def Ledger.reset : Ledger :=
  { running := false, held := [], ring := [], head := 0, ack := 0, mirrorEn := true, low := false, full := false,
    overrun := false, ckptLast := 0, since := 0, sinceClk := 0, lastCkpt := none, signing := [], store := [], ckptBase := 0 }

def GenTable.empty {α : Type} : GenTable α := ⟨[], none⟩

/-- The account of an instance that has received no POOL_SET (R233). -/
def Account.reset : Account := ⟨0, 25159680, 0, 126976, 0, false⟩

def Inst.reset : Inst :=
  { state := .free, owner := 0, entry := none, acct := Account.reset, csBase := 0, csArea := 0, sched := GenTable.empty,
    routes := [], sampler := GenTable.empty, adapters := [], pageMap := [], rrqs := [], queue := [], seqs := [],
    stopped := false, stepIdx := 0, lateRoutes := [], fired := (0, 0) }

def Serve.reset : Serve :=
  { insts := List.replicate 16 Inst.reset, tenants := [], steps := [], stepNo := 0, cfgs := [], colls := [], waits := [],
    tqHold := [], tokFrames := [], loadGens := [], overruns := 0 }

def MemSys.reset : MemSys :=
  { cells := [], filling := [], pendTiles := [], landed := [], pages := [], lists := [], listWaits := [], gathers := [], evicted := [],
    checks := [], attempts := [], own := [] }

def Vault.reset : Vault :=
  { mapReady := false, quiescent := false, powerFail := false, flights := [], waiting := [], mapped := [], phys := [], mirrorA := [],
    mirrorB := [], reserved := [], begins := [], buffer := [], bufferClk := none, nextSeq := 0, durable := 0, catalogue := [], member := none, reader := none,
    repair := none, tagNo := 0, storedRods := [0x3F, 0x3F, 0x3F, 0x3F], storedDead := [], storedFences := [], storedCkpt := none,
    image := some Config.factoryImage, nextImage := none, nextCkpt := none }

def Port.reset : Port :=
  { st := .down, enable := false, rate := false, fallback := false, rateTrained := false, miscabled := false, peerPlane := 0,
    laneFail := 0, linkDelay := 0, tries := 0, fellBack := false, equalizing := false, measured := false,
    proving := false, trainSeen := false, replay := [], nextSeq := 0, expectSeq := 0, nakPending := false, naks := 0, nakFlit := 0, sinceAck := 0,
    credits := [0, 0, 0, 0], buffered := [0, 0, 0, 0], incomplete := [0, 0, 0, 0], delayRun := none }

def Fabric.reset : Fabric :=
  { ports := List.replicate 9 Port.reset, part := 0, row := 0, col := 0, coordValid := false, admitted := false, spareMap := 0xF,
    spareShadow := 0xF, spareBeatShadow := 0, sparePend := none, requests := [], lost := [], tagNo := 0, hubRoutes := [],
    routeDue := [], bridgeRuns := [], bridgeReplays := [], denied := 0, slotTabs := [],
    slotOut := [], slotMisses := 0, torn := [], held := [] }

/-- The classes at reset (R338), in the order Thaxa, HBM, vault, common store. -/
def Arb.resetClasses : List Nat := [0x00134567, 0x01323455, 0x00002356, 0x03244566]

def Arb.reset : Arb := { shadow := Arb.resetClasses, active := Arb.resetClasses, pend := none, nodes := [] }

/-- A ring at reset (R413). -/
def Ring.reset (r : Nat) : Ring :=
  { num := r, owner := 1, base := 0, enable := false, sizeLog := 0, cq := 0, irq := 0, st := 0, err := 0, head := 0, tail := 0, used := 0,
    phase := false, mask := 0, unsig := 0, timer := none, lost := 0, inFlight := 0, bells := [] }

def Chan.reset : Chan :=
  { owner := 1, head := 0, irq := 0, st := .idle, stopPending := false, status := 0, done := 0, desc := none, waited := false }

def HostIf.reset : HostIf :=
  { rings := [], chans := List.replicate 31 Chan.reset ++ [{ Chan.reset with owner := 0 }],
    funcs := List.replicate 9 ⟨false, [], []⟩, cqHold := [], errKind := 0, busError := false, errAddr := 0 }

def Meas.zero : Meas := ⟨0, [0, 0, 0, 0], 0, 0, 0, 0, [0, 0, 0, 0], 0, 0, 0, 0, 0, 0, 0⟩

def MeasSum.zero : MeasSum := ⟨0, 0, [0, 0, 0, 0], 0, 0, 0⟩

def Power.reset : Power :=
  { op := [0, 0, 0, 0], pend := none, prefs := [none, none, none, none], hints := [], capWatts := 0, capValid := false,
    fallback := true, lease := none, lowInput := false, lowClear := none, thermal := [11, 11, 11, 11],
    throttled := [false, false, false, false], coolant := false,
    coolCeil := [11, 11, 11, 11], tj := [0, 0, 0, 0, 0, 0], coolCalm := 0, droopCeil := [none, none, none, none], droopLow := [false, false, false, false],
    droopTrips := [0, 0, 0, 0], cur := Meas.zero, sum := MeasSum.zero, last := Meas.zero, oAt := [0, 0, 0, 0], tjHist := [],
    alert := false, capUnatt := false, groupUnatt := false, partialSet := false, constrained := false, deferred := false,
    budget := 0, decided := 0, capPrev := none, slack := none, sets := [] }

def Faults.reset : Faults :=
  { status := 0, runs := [], transients := [], corrected := [], spareUsed := [], remaps := [], fenceBridge := 0, fenceCs := 0,
    fencePort := 0, fenceStack := [], tests := [], routineAt := [], dead := [] }

def Spdm.reset : Spdm := ⟨false, false, false, [], 0⟩

def Security.reset : Security :=
  { blocks := 0, nextLeaf := 0, exhausted := false, keys := [], svn := 0, fusedSvn := Config.factorySvn, digest := [], build := 0,
    update := none, recovery := false, recoveryBoot := false, deferred := [], spdmPf := Spdm.reset, spdmI3c := Spdm.reset,
    tid := 0, receiver := none, events := [] }

def Service.reset : Service :=
  { phase := .off, hbmReady := false, sweepDone := false, synced := false, retained := false, cause := 0, refusedLast := 0,
    refusedCount := 0, discards := 0, island := false, held := [], mainEn := false, vstby := false, vinOk := false, refOk := true,
    supplies := [false, false, false, false], mark := none, markBad := false, stepNo := 0, locked := false, regAddr := none }

def NumSum.zero : NumSum :=
  ⟨[[0, 0, 0, 0, 0, 0], [0, 0, 0, 0, 0, 0], [0, 0, 0, 0, 0, 0], [0, 0, 0, 0, 0, 0]], 0, 0⟩

def Array.reset : Array :=
  { beads := [], ctxs := [], flights := [], accLost := 0, sent := 0, moves := [], spare := [], num := NumSum.zero, numLast := NumSum.zero, numRec := [] }

/-- Registers whose reset value is not zero, of those held by offset (R115, R438, R456, R514). -/
def State.resetRegs : List (Nat × Nat) :=
  [(0x20018, 0x32), (0x40008, 0x2710), (0x40018, 0x960), (0x40020, 0x8888), (0x40038, 0x46145F), (0x40040, 0x4028),
   (0x60010, 0x010080809C41), (0x100000, 0x3F), (0x110000, 0x3F), (0x120000, 0x3F), (0x130000, 0x3F)]

/-- The module fresh from the factory with neither input applied: PHASE OFF, every register at its reset value, no command
waiting (R11, R461, R484, R486). -/
def State.reset : State :=
  { time := TimeUnit.reset, regs := State.resetRegs, arr := Array.reset, mem := MemSys.reset, serve := Serve.reset, vault := Vault.reset,
    fab := Fabric.reset, arb := Arb.reset, host := HostIf.reset, power := Power.reset, faults := Faults.reset,
    ledger := Ledger.reset, sec := Security.reset, svc := Service.reset, out := [], free := 0, pending := [] }

end Sys2Proof.Machine
end

