-- ==== Sys2Proof/Machine/Mem.lean ====
section
/-! DEFINITION. Module-physical addresses (R17, R18, R29 to R36, R230, R231) and the one memory, a canonical list of cells. -/
namespace Sys2Proof.Machine

/-- The canonical form: addresses strictly rising and no byte equal to what an unlisted address reads as. -/
abbrev Memory.wf (m : List Host.Cell) : Prop := m.Pairwise (fun a b => a.1 < b.1) ∧ ∀ c ∈ m, c.2 ≠ 0

/-- What an unlisted byte reads as (R227, R486 for staging and the common store; notes/assumptions/6.md for the others). -/
def Memory.default : Byte := 0

/-- One byte. -/
def Memory.read (m : List Host.Cell) (a : Nat) : Byte :=
  match m.find? (fun c => c.1 == a) with
  | some c => c.2
  | none => Memory.default

/-- The bytes at `a`. -/
def Memory.readN (m : List Host.Cell) (a n : Nat) : List Byte :=
  let w := m.filter (fun c => a ≤ c.1 && c.1 < a + n)
  (List.range n).map (fun i => Memory.read w (a + i))

/-- The cells of bytes laid at `a`, in canonical form. -/
def Memory.cellsAt : Nat → List Byte → List Host.Cell
  | _, [] => []
  | a, b :: bs => if b = 0 then Memory.cellsAt (a + 1) bs else (a, b) :: Memory.cellsAt (a + 1) bs

/-- Bytes written at `a`. -/
def Memory.write (m : List Host.Cell) (a : Nat) (bs : List Byte) : List Host.Cell :=
  m.filter (fun c => c.1 < a) ++ (Memory.cellsAt a bs ++ m.filter (fun c => a + bs.length ≤ c.1))

/-- `n` bytes at `a` cleared. -/
def Memory.clear (m : List Host.Cell) (a n : Nat) : List Host.Cell :=
  m.filter (fun c => c.1 < a) ++ m.filter (fun c => a + n ≤ c.1)

/-- The cells of a range at other addresses. -/
def Memory.moved (m : List Host.Cell) (lo hi : Nat) (f : Nat → Nat) : List Host.Cell :=
  (m.filter (fun c => lo ≤ c.1 && c.1 < hi)).map (fun c => (f c.1, c.2))

/-- Bytes of a rod's tile memory (R31). -/
def rodBytes : Nat := 0x2000000

/-- The remap of rod `p` of a die (R111, R113): the bytes of a physical rod stay with it, so the addresses of logical rod L from `p` on
show what rod L + 1 held; the bytes of rod `p` stand behind the 32 logical rods of the die, where no address leads (R32). -/
def Memory.remapped (m : List Host.Cell) (die p : Nat) : List Host.Cell :=
  let base := die * 2 ^ 46
  m.filter (fun c => c.1 < base + p * rodBytes) ++
    Memory.moved m (base + (p + 1) * rodBytes) (base + 33 * rodBytes) (· - rodBytes) ++
    Memory.moved m (base + p * rodBytes) (base + (p + 1) * rodBytes) (· + (32 - p) * rodBytes) ++
    m.filter (fun c => base + 33 * rodBytes ≤ c.1)

/-- The remap of rod `p` taken back (R115). -/
def Memory.unmapped (m : List Host.Cell) (die p : Nat) : List Host.Cell :=
  let base := die * 2 ^ 46
  m.filter (fun c => c.1 < base + p * rodBytes) ++
    Memory.moved m (base + 32 * rodBytes) (base + 33 * rodBytes) (· - (32 - p) * rodBytes) ++
    Memory.moved m (base + p * rodBytes) (base + 32 * rodBytes) (· + rodBytes) ++
    m.filter (fun c => base + 33 * rodBytes ≤ c.1)

/-! ### Addresses -/

/-- Unit index of an MPA (R29). -/
def mpaUnit (a : Nat) : Nat := a / 2 ^ 46
/-- Offset within the unit (R29). -/
def mpaOff (a : Nat) : Nat := a % 2 ^ 46

/-- Vault capacity in bytes (R34). -/
def vaultBytes : Nat := if Config.vaultV32 then 0x1D1A94A20000 else 0x0E8D4A510000

/-- What lies at an address: bead-local tile memory, staging, HBM4, common store, vault, or nothing (R31 to R35). -/
inductive Place where
  | tileMem (b : BeadId) (off : Nat)
  | staging (stack off : Nat)
  | hbm (stack off : Nat)
  | cs (off : Nat)
  | vault (off : Nat)
  | none
  deriving DecidableEq, Repr

/-- The place of a byte, with HBM4 and staging populated only once trained (R35, R487). -/
def placeOf (ready : Bool) (a : Nat) : Place :=
  let u := mpaUnit a
  let o := mpaOff a
  if h : u < 4 then
    if h2 : o < 0x40000000 then
      .tileMem ⟨⟨u, h⟩, ⟨o / 0x2000000, by omega⟩,
        ⟨o / 0x200000 % 16, Nat.mod_lt _ (by decide)⟩⟩ (o % 0x200000)
    else if ready && 0x100000000 ≤ o && o < 0x100000000 + 6 * 0x4000000 && (o - 0x100000000) % 0x4000000 < 0x3000000 then
      .staging (u * 6 + (o - 0x100000000) / 0x4000000) ((o - 0x100000000) % 0x4000000)
    else if ready && 0x10000000000 ≤ o && o < 0x10000000000 + 6 * 0x1000000000 then
      .hbm (u * 6 + (o - 0x10000000000) / 0x1000000000) ((o - 0x10000000000) % 0x1000000000)
    else .none
  else if u = 4 then (if o < 0x20000000 then .cs o else .none)
  else if u = 5 then (if o < vaultBytes then .vault o else .none)
  else .none

/-- The region a byte lies in, for the crossing rule of R36: all bytes of a range must lie in one populated region. -/
def regionOf (ready : Bool) (a : Nat) : Option (Nat × Nat) :=
  match placeOf ready a with
  | .tileMem b _ => some (0, b.die.val)
  | .staging k _ => some (1, k)
  | .hbm k _ => some (2, k)
  | .cs _ => some (3, 0)
  | .vault _ => some (4, 0)
  | .none => none

/-- The whole range is populated (R35, R36). HBM4 windows of one die adjoin, so two stacks of one die count as populated together. -/
def rangeOk (ready : Bool) (a n : Nat) : Bool :=
  n ≠ 0 && mpaOff a + n ≤ 2 ^ 46 &&
  match regionOf ready a, regionOf ready (a + n - 1) with
  | some (2, j), some (2, k) => j / 6 == k / 6
  | some p, some q => p == q
  | _, _ => false

/-- MPA of byte `off` of bead-local tile memory (R31). -/
def mpaTile (b : BeadId) (off : Nat) : Nat :=
  b.die.val * 2 ^ 46 + b.rod.val * 0x2000000 + b.bead.val * 0x200000 + off

/-- MPA of byte `off` of a stack's staging (R31). -/
def mpaStaging (k off : Nat) : Nat := (k / 6) * 2 ^ 46 + 0x100000000 + (k % 6) * 0x4000000 + off

/-- MPA of byte `off` of a stack's HBM4 (R31, R231). -/
def mpaHbm (k off : Nat) : Nat := (k / 6) * 2 ^ 46 + 0x10000000000 + (k % 6) * 0x1000000000 + off

/-- MPA of a common-store offset (R33). -/
def mpaCs (off : Nat) : Nat := 4 * 2 ^ 46 + off

/-- MPA of a vault byte (R34). -/
def mpaVault (off : Nat) : Nat := 5 * 2 ^ 46 + off

/-- The stack V0 to V7 of a vault channel (R20). -/
def vaultStackOf (channel : Nat) : Nat := channel / 16

/-- The channel that holds a vault page (R241). -/
def vaultChannelOf (page : Nat) : Nat := page % 128

/-- The channel of a stack's byte (R18). -/
def channelOf (w : Nat) : Nat := bits w 12 5 ^^^ bits w 17 5

/-- MPA of pool page `p` of stack `k` (R231). -/
def mpaPage (k p : Nat) : Nat := mpaHbm k (p * 0x10000)

/-- First byte of the ledger ring region in the common store (R230, R464). -/
def ledgerBase : Nat := 0x1F000000

end Sys2Proof.Machine
end

