-- ==== Sys2Proof/Machine/Ops.lean ====
section
/-! DEFINITION. The named operations every command uses: raw registers and counters, stamps, time, what leaves the module, the
host rings, interrupts, events, the hand-over of ledger records, and access to memory. -/
namespace Sys2Proof.Machine

/-- The outcome of a command: every one of the spec goes on (R13, R14). -/
abbrev Res := Host.Outcome State Fault Refusal

/-! ### Registers and counters held by offset -/

/-- The raw value held at a BAR0 offset. -/
def State.reg (s : State) (off : Nat) : Nat := (findKey s.regs off).getD 0

/-- The raw value at a BAR0 offset replaced. -/
def State.setReg (s : State) (off v : Nat) : State := { s with regs := putKey s.regs off v }

/-- A counter raised by `n`, saturating at 0xFFFF_FFFF (R164, R240, R298, R415, R438, R456, R482, R510, R514). -/
def State.bumpBy (s : State) (off n : Nat) : State := s.setReg off (min (s.reg off + n) 0xFFFFFFFF)

/-- A counter raised by one. -/
def State.bump (s : State) (off : Nat) : State := s.bumpBy off 1

/-- A counter raised by one where a condition holds. -/
def State.bumpIf (s : State) (b : Bool) (off : Nat) : State := if b then s.bump off else s

/-- Offset of a frame-block register (R499). -/
def rFrame (d off : Nat) : Nat := 0x100000 + d * 0x10000 + off
/-- Offset of a Thaxa port register (R298). -/
def rPort (k off : Nat) : Nat := 0x30100 + k * 0x80 + off
/-- Offset of an instance register (R365). -/
def rInst (i off : Nat) : Nat := 0x90000 + i * 0x40 + off

/-! ### Stamps and time -/

/-- The stamp of this tick (R40, R44). -/
def State.now (s : State) : Stamp := ⟨s.time.beat, s.time.tick⟩

/-- Packed stamp, 9 bytes (R42). -/
def packStamp (t : Stamp) : List Byte := leBytes 9 (t.tick % 2 ^ 21 + (t.beat % 2 ^ 48) * 2 ^ 21)

/-- Full stamp, 16 bytes (R42). -/
def State.fullStamp (s : State) : List Byte :=
  leBytes 8 (s.time.beat % 2 ^ 48) ++ leBytes 4 (s.time.tick % 2 ^ 21) ++ leBytes 2 s.time.epoch ++
    leBytes 2 (flag (s.time.st == .locked))

/-- The order of stamps. -/
def Stamp.before (a b : Stamp) : Bool := a.beat < b.beat || (a.beat == b.beat && a.tick < b.tick)

/-- Ticks of the running beat (R41). -/
def State.beatTicks (s : State) : Nat := s.time.period * 1000

/-- The slew counter while the count goes on by `n` (R57): its phase is kept, a marked tick with r > 0 adds nothing to the count and one
with r < 0 adds two, each taking one from the correction. Answers the counter, the correction, and by how much a doubled last tick
passes `n`. The first argument is the size of the correction. -/
def slewOver : Nat → Nat → Int → Nat → Nat × Int × Nat
  | 0, c, r, n => ((c + n) % 1024, r, 0)
  | k + 1, c, r, n =>
    if n ≤ 1023 - c then (c + n, r, 0)
    else if 0 < r then slewOver k 0 (r - 1) (n - (1023 - c))
    else if n - (1023 - c) = 1 then (0, r + 1, 1)
    else slewOver k 0 (r + 1) (n - (1023 - c) - 2)

/-- The count goes on by `n` ticks, with what the marked ticks among them do (R57). -/
def TimeUnit.run (t : TimeUnit) (n : Nat) : TimeUnit :=
  let w := slewOver t.corr.natAbs t.ctr10 t.corr n
  { t with clk := t.clk + n + w.2.2, tick := t.tick + n + w.2.2, ctr10 := w.1, corr := w.2.1 }

/-- The running beat still holds the tick at which a timeout falls due (R47): a timer whose tick lies past the boundary has not
fired, for the boundary comes first. -/
def State.fallsDue (s : State) (due : Nat) : Bool := s.time.tick + (due - s.time.clk) < s.beatTicks

/-- Time runs on to the point at which a relative timeout falls due (R47). -/
def State.runTo (s : State) (due : Nat) : State :=
  if due ≤ s.time.clk then s else { s with time := s.time.run (due - s.time.clk) }

/-- Time runs on to tick `t` of the running beat. -/
def State.toTick (s : State) (t : Nat) : State :=
  if t ≤ s.time.tick then s else { s with time := s.time.run (t - s.time.tick) }

/-- What a timer does at its tick (R47); a tick that the running beat does not hold has not come. -/
def State.atTimer (s : State) (due : Nat) (act : State → State) : State := if s.fallsDue due then act (s.runTo due) else s

/-- LOCKED or HOLDOVER: schedules and slot traffic may run (R58). -/
def State.beatLocked (s : State) : Bool := s.time.st == .locked || s.time.st == .holdover

/-- Work may run: locked and admitted (R58, R60, R293). -/
def State.mayRun (s : State) : Bool := s.beatLocked && s.fab.admitted

/-- The entries of the running beat stamped before a tick do not fire: what lets schedules run has come at that tick (R58, R70, R293). -/
def State.firesFrom (s : State) (t : Nat) : State :=
  { s with serve := { s.serve with insts := s.serve.insts.map fun x => { x with fired := (t, 0) } } }

/-- A fresh free value (log 3). -/
def State.fresh (s : State) : Nat × State := ((Config.freeValue s.free).toNat, { s with free := s.free + 1 })

/-- Bytes that nothing determines (log 3). -/
def State.freshBytes : Nat → State → List Byte × State
  | 0, s => ([], s)
  | n + 1, s =>
    let (v, s) := s.fresh
    let (bs, s) := s.freshBytes n
    (BitVec.ofNat 8 v :: bs, s)

/-! ### What leaves the module -/

/-- Something sent outside. -/
def State.emit (s : State) (o : Out) : State := { s with out := s.out ++ [o] }

/-- Several things sent outside, in order. -/
def State.emits (s : State) (os : List Out) : State := { s with out := s.out ++ os }

/-- A management alert as an I3C in-band interrupt (R525). -/
def State.alert (s : State) (code : Nat) : State := s.emit (.alert code)

/-! ### Rings and interrupts (15) -/

/-- Ring `r` (R413). -/
def State.ring (s : State) (r : Nat) : Ring := (s.host.rings.find? (fun x => x.num == r)).getD (Ring.reset r)

/-- Ring `x.num` replaced. -/
def State.setRing (s : State) (x : Ring) : State :=
  let rs := if s.host.rings.any (fun y => y.num == x.num) then s.host.rings.map (fun y => if y.num == x.num then x else y)
    else s.host.rings ++ [x]
  { s with host := { s.host with rings := rs } }

/-- Function index of an owning origin: 0 the PF, 1 + n VF n (R15). -/
def fnOf (owner : Nat) : Nat := owner - 1

/-- A function's state. -/
def State.func (s : State) (f : Nat) : Func := nth ⟨false, [], []⟩ s.host.funcs f

/-- A function in D3hot (R489). -/
def State.asleep (s : State) (owner : Nat) : Bool := (s.func (fnOf owner)).d3hot

/-- An MSI-X vector sent, or held pending while masked or in D3hot (R405, R489). A vector past the function's table (R388) has no
message to send. -/
def State.msix (s : State) (f vector : Nat) : State :=
  let fn := s.func f
  if vector ≥ (if f = 0 then 1024 else 128) then s
  else if fn.d3hot || fn.masked.contains vector then
    let fn := { fn with pendVec := if fn.pendVec.contains vector then fn.pendVec else fn.pendVec ++ [vector] }
    { s with host := { s.host with funcs := setNth s.host.funcs f fn } }
  else s.emit (.msix f vector)

/-- Entries of a ring (R390). -/
def Ring.size (x : Ring) : Nat := 2 ^ x.sizeLog

/-- A produced ring takes `n` more entries: ACTIVE with that many free slots (R390, R404). -/
def Ring.room (x : Ring) (n : Nat) : Bool := x.st == 1 && x.used + n ≤ x.size

/-- One entry produced on a CQ, TQ or EQ: tail, PHASE on the wrap, and moderation (R390, R405). -/
def State.produce (s : State) (r : Nat) : State :=
  let x := s.ring r
  let wrap := x.tail + 1 ≥ x.size
  let x := { x with tail := if wrap then 0 else x.tail + 1, phase := if wrap then !x.phase else x.phase, used := x.used + 1 }
  if bit x.irq 11 then
    let count := if bits x.irq 12 8 = 0 then 256 else bits x.irq 12 8
    if x.unsig + 1 ≥ count then
      (s.setRing { x with unsig := 0, timer := none }).msix (fnOf x.owner) (bits x.irq 0 11)
    else
      let t := bits x.irq 20 10
      s.setRing { x with unsig := x.unsig + 1,
                         timer := if x.unsig = 0 && t ≠ 0 then some (s.time.clk + t * 1000) else x.timer }
  else s.setRing x

/-- A CQ entry (R392, R401). A function in D3hot writes none until it returns to D0 (R489). -/
def State.cqWrite (s : State) (q : Cqe) : State :=
  let sq := s.ring q.sq
  let r := 512 + sq.cq
  if s.asleep sq.owner then { s with host := { s.host with cqHold := s.host.cqHold ++ [q] } }
  else
    let s := s.setRing { sq with inFlight := sq.inFlight - 1 }
    let cq := s.ring r
    if cq.st = 1 then
      (s.emit (.cq r q.cid q.sq q.head q.status q.opcode cq.phase s.now q.result)).produce r
    else s

/-- A token stream record, or its wait in the hub while the TQ is full (R383, R403, R489). -/
def State.tqWrite (s : State) (tq : Nat) (t : TokenRec) : State :=
  let r := 1024 + tq
  let x := s.ring r
  if x.room 1 && !(s.asleep x.owner) && s.serve.tqHold.all (fun h => h.1 ≠ tq) then
    (s.emit (.tq r x.phase t)).produce r
  else { s with serve := { s.serve with tqHold := s.serve.tqHold ++ [(tq, t)] } }

/-- EQ rings. -/
def eqRings : List Nat := (List.range 16).map (1088 + ·)

/-- An event to one EQ: written, or dropped and counted when the ring is full (R404). -/
def State.eqOne (s : State) (r : Nat) (parts : List Event) : State :=
  let x := s.ring r
  if x.room parts.length && !(s.asleep x.owner) then
    (parts.zipIdx.foldl (fun (a : State × Nat) (p : Event × Nat) =>
      (((a.1.emit (.eq r (a.1.ring r).phase p.2 a.2 p.1)).produce r), 0)) (s.setRing { x with lost := 0 }, x.lost)).1
  else (s.setRing { x with lost := min (x.lost + 1) 0xFFFF }).bump 0xC0820

/-- The EQ takes an event of a type, as R404 says: ACTIVE, subscribed, and its owner may see it. -/
def State.eqTakes (s : State) (sees : Nat → Bool) (type r : Nat) : Bool :=
  let x := s.ring r
  x.st = 1 && bit x.mask.toNat type && (x.owner = 1 || sees x.owner)

/-- An event to every ACTIVE EQ that subscribes its type and may see it (R404): `sees` answers for a VF's origin code. An event that
no EQ takes is counted only. -/
def State.raiseTo (s : State) (sees : Nat → Bool) (parts : List Event) : State :=
  match parts with
  | [] => s
  | e :: _ =>
    match eqRings.filter (s.eqTakes sees e.type) with
    | [] => s.bump 0xC0820
    | rs => rs.foldl (fun s r => s.eqOne r parts) s

/-- LOCATION of an EQ entry (R393). -/
def locOf (die rod bead stack port : Nat) : Nat := die + rod * 4 + bead * 2 ^ 8 + stack * 2 ^ 12 + port * 2 ^ 17
/-- LOCATION that names nothing but a die (R393). -/
def locDie (die : Nat) : Nat := locOf die 0 0 31 15
/-- LOCATION that names nothing. -/
def locNone : Nat := locDie 0

/-- A module event (R404, R414): to the PF's EQs only. -/
def State.event (s : State) (type : Nat) (status loc : Nat) (detail : List Byte) : State :=
  s.raiseTo (fun _ => false) [⟨type, s.now, 0xFF, 0xFF, status, loc, fit 40 detail⟩]

/-- An instance. -/
def State.inst (s : State) (i : Nat) : Inst := nth Inst.reset s.serve.insts i

/-- An instance replaced. -/
def State.setInst (s : State) (i : Nat) (x : Inst) : State :=
  { s with serve := { s.serve with insts := setNth s.serve.insts i x } }

/-- An event of an instance and a configuration (R404): a VF sees those of its own instances. -/
def State.instEvent (s : State) (type inst config status loc : Nat) (detail : List Byte) : State :=
  s.raiseTo (fun o => o == (s.inst inst).owner) [⟨type, s.now, inst, config, status, loc, fit 40 detail⟩]

/-- An event of a ring or a channel, seen by its owner (R404). -/
def State.ownEvent (s : State) (owner type : Nat) (detail : List Byte) : State :=
  s.raiseTo (fun o => o == owner) [⟨type, s.now, 0xFF, 0xFF, 0, locNone, fit 40 detail⟩]

/-! ### Ledger hand-over (18) -/

/-- An object identifier (R460). -/
def object (cls rest : Nat) : Nat := cls + 256 * rest

/-- The source of a change (R48), in its order: 0 a port, 1 PCIe, 2 I3C, 3 the module itself. -/
def sourceOf (origin : Nat) : Nat := if origin = 11 then 0 else if origin = 10 then 2 else if origin = 0 || 12 ≤ origin then 3 else 1

/-- A record among the held ones: in stamp order, those of one stamp by source (R463). -/
def enterHeld (h : Held) (l : List Held) : List Held :=
  let first := fun x : Held => x.due < h.due || (x.due == h.due && sourceOf x.origin ≤ sourceOf h.origin)
  l.takeWhile first ++ h :: l.dropWhile first

/-- A record handed to the ledger unit (R463); while the unit is off it waits in the island (R483). -/
def State.handCq (s : State) (origin : Nat) (refused : Bool) (obj : Nat) (old new : List Byte) (cq : Option Cqe) : State :=
  let h : Held := { due := s.time.clk + 1000, stamp := s.now, origin := origin, refused := refused, boot := false,
                    object := obj, old := old, new := new, cq := cq }
  if s.ledger.running then { s with ledger := { s.ledger with held := enterHeld h s.ledger.held } }
  else { s with svc := { s.svc with held := s.svc.held ++ [h] } }

/-- A record of a change (R462). -/
def State.hand (s : State) (origin obj : Nat) (old new : List Byte) : State := s.handCq origin false obj old new none

/-- Unacknowledged records (R465). -/
def Ledger.unacked (l : Ledger) : Nat :=
  if l.mirrorEn then min (l.head - l.ack) (l.ring.filter (fun r => r.seq > l.ack)).length else 0

/-- The refusal range of R465. -/
def State.ledgerShut (s : State) : Bool := s.ledger.unacked ≥ 258048

/-- Origins 0x1 to 0xB (R465). -/
def fromOutside (origin : Nat) : Bool := 1 ≤ origin && origin ≤ 11

/-! ### Memory -/

/-- The 64 bytes of a ledger record (R459). -/
def LedgerRec.bytes (r : LedgerRec) : List Byte :=
  leBytes 6 r.seq ++ packStamp r.stamp ++ leBytes 1 (r.origin + 16 * flag r.refused + 32 * flag r.boot) ++ leBytes 8 r.object ++
    fit 12 r.oldDigest ++ fit 12 r.newDigest ++ fit 16 r.chain

/-- The bytes of the ledger ring region from ring offset `o` (R464). -/
def State.ledgerBytes (s : State) (o n : Nat) : List Byte :=
  let first := o / 64
  let recs := (List.range ((o + n) / 64 - first + 1)).flatMap fun k =>
    match s.ledger.ring.find? (fun r => r.seq % 262144 == first + k) with
    | some r => r.bytes
    | none => zeros 64
  slice recs (o % 64) n

/-- The access touches the ledger ring region (R28). -/
def inLedger (a n : Nat) : Bool := mpaCs ledgerBase < a + n && a < mpaCs 0x20000000

/-- The 8-byte record of a page (R231): all zero for a page that is not allocated. -/
def MemSys.pageRecord (m : MemSys) (stack page : Nat) : Nat :=
  match m.pages.find? fun p => p.stack == stack && p.num == page with
  | some p => p.owner + 2 ^ 4 + p.cls * 2 ^ 5 + p.lastUse % 2 ^ 48 * 2 ^ 16
  | none => 0

/-- The offset within a stack at which the page records end: system pages 0 to 127 hold them (R230). -/
def recordsEnd : Nat := 128 * 0x10000

/-- The access touches the page records of a stack (R230). -/
def inRecords (a n : Nat) : Bool :=
  mpaUnit a < 4 && (List.range 6).any fun k =>
    0x10000000000 + k * 0x1000000000 < mpaOff a + n && mpaOff a < 0x10000000000 + k * 0x1000000000 + recordsEnd

/-- The byte of a page record that stands at an MPA. -/
def MemSys.recordByte (m : MemSys) (a : Nat) : Option Byte :=
  match placeOf true a with
  | .hbm k off => if off < recordsEnd then (leBytes 8 (m.pageRecord k (off / 8)))[off % 8]? else none
  | _ => none

/-- An entry of a page map (R345); VAULT_VALID where the page has a vault copy. -/
def PageMapEntry.word (e : PageMapEntry) : Nat :=
  e.phys + flag e.present * 2 ^ 20 + (match e.vault with | some v => v % 2 ^ 29 * 2 ^ 21 + 2 ^ 50 | none => 0)

/-- The byte of a page map that stands at an MPA: the SYSTEM pages of an instance on a stack hold its map there, entry by LPAGE (R345). -/
def State.mapByte (s : State) (a : Nat) : Option Byte :=
  match placeOf true a with
  | .hbm k off =>
    (s.mem.pages.find? fun p => p.stack == k && p.num == off / 0x10000 && p.cls == 6).bind fun p =>
      let before := (s.mem.pages.filter fun q => q.stack == k && q.owner == p.owner && q.cls == 6).takeWhile fun q => q.num != p.num
      let l := before.length * 8192 + off % 0x10000 / 8
      let w := match (s.inst p.owner).pageMap.find? fun e => e.stack == k && e.lpage == l with | some e => e.word | none => 0
      (leBytes 8 w)[off % 8]?
  | _ => none

/-- The access touches a page of class SYSTEM, which holds a page map (R345). -/
def State.inMaps (s : State) (a n : Nat) : Bool :=
  s.mem.pages.any fun p => p.cls == 6 && Nat.blt (mpaPage p.stack p.num) (a + n) && Nat.blt a (mpaPage p.stack p.num + 0x10000)

/-- The contents of a physical page, each missing byte zero. -/
def Vault.physPage (v : Vault) (p : Nat) : List Byte := fit 65536 ((findKey v.phys p).getD [])

/-- What a logical page shows (R245): the physical page that its durable mapping names; zeros where none has ever been mapped. -/
def Vault.page (v : Vault) (l : Nat) : List Byte :=
  match findKey v.mapped l with
  | some p => v.physPage p
  | none => zeros 65536

/-- Bytes of the vault's logical byte space (R34, R241). -/
def Vault.read (v : Vault) (o n : Nat) : List Byte :=
  slice ((List.range ((o + n) / 65536 - o / 65536 + 1)).flatMap fun k => v.page (o / 65536 + k)) (o % 65536) n

/-- Bytes of memory at an MPA (R29); the ledger region shows the ledger ring, the system pages 0 to 127 of a stack show its page
records, which the pool unit alone writes, and the SYSTEM pages of an instance its page map, which the module alone writes (R230, R231,
R345; notes/assumptions/110.md); the vault shows its logical pages (R241, R245). -/
def State.load (s : State) (a n : Nat) : List Byte :=
  if mpaUnit a = 5 then s.vault.read (mpaOff a) n
  else if inLedger a n then
    let k := min n (mpaCs ledgerBase - a)
    Memory.readN s.mem.cells a k ++ s.ledgerBytes (a + k - mpaCs ledgerBase) (n - k)
  else if inRecords a n then (Memory.readN s.mem.cells a n).zipIdx.map fun p => (s.mem.recordByte (a + p.2)).getD p.1
  else if s.inMaps a n then (Memory.readN s.mem.cells a n).zipIdx.map fun p => (s.mapByte (a + p.2)).getD p.1
  else Memory.readN s.mem.cells a n

/-- The part of its tier that one stored check covers: a tile, or a 512-byte sector of a page of class GATHER (R215, R237). -/
def State.checkSpan (s : State) (a : Nat) : Nat :=
  match placeOf true a with
  | .hbm k off => if s.mem.pages.any (fun p => p.stack == k && p.num == off / 0x10000 && p.cls == 2) then 512 else 4096
  | _ => 4096

/-- The tier keeps its checks beside its memory: staging, the common store and HBM4 (R215). Tile memory has the bead's directory, the
vault the image's own checks. -/
def keepsChecks (a : Nat) : Bool :=
  match placeOf true a with
  | .staging _ _ | .hbm _ _ | .cs _ => true
  | _ => false

/-- The stored check of a tile or sector (R215): that of zeros until something is written (R227, R230, R234). -/
def State.checkOf (s : State) (a : Nat) : Word32 :=
  let k := s.checkSpan a
  if inLedger a 1 || inRecords a 1 then BitVec.ofNat 32 (crc32c (s.load (a / k * k) k))
  else (findKey s.mem.checks (a / k * k)).getD (BitVec.ofNat 32 (crc32c (zeros k)))

/-- The stored checks where a write of `n` bytes at an MPA has left these cells: fresh ones for the tiles or sectors it touched (R217). -/
def State.checksOf (s : State) (cells : List Host.Cell) (a n : Nat) : List (Nat × Word32) :=
  if n = 0 || !(keepsChecks a) then s.mem.checks
  else
    let k := s.checkSpan a
    let units := (List.range ((a + n - 1) / k - a / k + 1)).map fun i => (a / k + i) * k
    units.foldl (fun cs u => putKey cs u (BitVec.ofNat 32 (crc32c (Memory.readN cells u k)))) s.mem.checks

/-- Bytes written at an MPA, with fresh checks (R217). -/
def State.storeAt (s : State) (a : Nat) (bs : List Byte) : State :=
  { s with mem := { s.mem with cells := Memory.write s.mem.cells a bs,
                               checks := s.checksOf (Memory.write s.mem.cells a bs) a bs.length } }

/-- `n` bytes at an MPA, whole tiles, set to zero with valid checks. -/
def State.zeroAt (s : State) (a n : Nat) : State :=
  { s with mem := { s.mem with cells := Memory.clear s.mem.cells a n,
                               checks := s.mem.checks.filter fun c => !(a ≤ c.1 && c.1 < a + n) } }

/-- The memory system changed. -/
def State.setMem (s : State) (m : MemSys) : State := { s with mem := m }

/-- The populated test of R35 and R36 in this state. -/
def State.populated (s : State) (a n : Nat) : Bool := rangeOk s.svc.hbmReady a n

/-- An access completed with ADDRESS_ERROR is counted at its unit (R35, R536). -/
def State.addressError (s : State) (a : Nat) : State :=
  let u := mpaUnit a
  if u < 4 then s.bump (rFrame u 0xF8) else if u = 5 then s.bump 0x80060 else s.bump 0x10038

/-- An access notes its beat in the page record it touches (R231). -/
def State.touch (s : State) (a n : Nat) : State :=
  match placeOf s.svc.hbmReady a with
  | .hbm k off =>
    let ps := s.mem.pages.map fun p =>
      if p.stack == k && off / 0x10000 ≤ p.num && p.num ≤ (off + n - 1) / 0x10000 then { p with lastUse := s.time.beat } else p
    { s with mem := { s.mem with pages := ps } }
  | _ => s

/-! ### Status codes (R395) -/

def stOK : Nat := 0
def stADDRESS_ERROR : Nat := 1
def stNOT_PERMITTED : Nat := 2
def stCHECK_ERROR : Nat := 3
def stNOT_OWNER : Nat := 4
def stROD_FENCED : Nat := 5
def stINVALID_FIELD : Nat := 6
def stSHARD_FAULT : Nat := 7
def stBUSY : Nat := 8
def stNOT_READY : Nat := 9
def stPOOL_LIMIT : Nat := 0x10
def stPOOL_EXHAUSTED : Nat := 0x11
def stCONFIG_LIMIT : Nat := 0x12
def stSEQ_LIMIT : Nat := 0x13
def stSEQ_TOO_LONG : Nat := 0x14
def stADAPTER_ABSENT : Nat := 0x15
def stSPARE_ROLE : Nat := 0x16
def stPERIOD_MISMATCH : Nat := 0x17
def stCONFIG_DISABLED : Nat := 0x18
def stIMAGE_REJECTED : Nat := 0x20
def stALREADY_INSTALLED : Nat := 0x21
def stGROUP_INCOMPLETE : Nat := 0x22
def stINSTALL_TIMEOUT : Nat := 0x23
def stREPAIR_EXHAUSTED : Nat := 0x24
def stVAULT_BUSY : Nat := 0x25
def stNO_SPACE : Nat := 0x26
def stIMAGE_STALE : Nat := 0x27
def stSHARD_ABSENT : Nat := 0x28
def stNOT_FOUND : Nat := 0x29
def stCANCELLED : Nat := 0x40
def stADMIT_TIMEOUT : Nat := 0x41
def stMASK_EMPTY : Nat := 0x42
def stNUMERICS_FAULT : Nat := 0x43
def stKV_LOST : Nat := 0x44
def stFORMAT_FAULT : Nat := 0x45
def stTILE_CHECK_FAULT : Nat := 0x46
def stSTEP_OVERRUN : Nat := 0x80
def stCTX_LOST : Nat := 0x81
def stROUTER_ERROR : Nat := 0x82
def stSTEER_FAULT : Nat := 0x83
def stACC_LOST : Nat := 0x84
def stSPATIAL_DEADLOCK : Nat := 0x85
def stBEAT_LOST : Nat := 0x86
def stPERIOD_CHANGED : Nat := 0x87
def stNOT_ADMITTED : Nat := 0x88
def stJOB_TORN_DOWN : Nat := 0x89
def stTARGET_LOST : Nat := 0x100
def stCOLLECTIVE_FAILED : Nat := 0x101
def stBUS_ERROR : Nat := 0x200

/-- INVALID_FIELD and NOT_PERMITTED are refusals (R14). -/
def isRefusal (status : Nat) : Bool := status == stINVALID_FIELD || status == stNOT_PERMITTED

end Sys2Proof.Machine
end

