-- ==== Sys2Proof/Machine/RegMap.lean ====
section
/-! DEFINITION. The BAR0 map (R499) and the register tables (R115, R164, R188, R214, R240, R272, R298, R325, R338, R365, R386, R413,
R415, R438, R456, R482, R483, R508, R510, R514, R518, R536): what each offset is, and what a read of it returns. -/
namespace Sys2Proof.Machine

/-- Access codes (R10). -/
inductive Access where
  | ro | rw | w1c | w1s | wo | sh | lk
  deriving DecidableEq, Repr

/-- A register: its access, the origins that may write it, and whether its owning function may (R9). -/
structure RegInfo where
  access  : Access
  origins : List Nat
  owner   : Bool
  deriving DecidableEq, Repr

/-- A read-only register. -/
def RegInfo.ro : RegInfo := ⟨.ro, [], false⟩

/-- The register at an 8-byte-aligned BAR0 offset; none where it is unpopulated (R499). -/
def regInfo (o : Nat) : Option RegInfo :=
  let b := o / 0x10000
  let f := o % 0x10000
  if o % 8 ≠ 0 then none
  else if b = 0 then (if f ≤ 0x50 then some .ro else none)
  else if b = 1 then
    if f = 0x00 then some ⟨.w1s, [0], false⟩
    else if f = 0x08 then some ⟨.w1c, [1, 10], false⟩
    else if f = 0x10 || f = 0x18 || f = 0x38 then some .ro
    else if f = 0x20 || f = 0x28 || f = 0x30 then some ⟨.lk, [0, 12], false⟩
    else if 0x100 ≤ f && f < 0x1C0 then some ⟨.lk, [0, 12], false⟩
    else none
  else if b = 2 then
    if f ≤ 0x18 then some ⟨.rw, [10], false⟩
    else if f = 0x20 then some ⟨.wo, [10], false⟩
    else if f ≤ 0x58 then some .ro else none
  else if b = 3 then
    if f = 0x00 || f = 0x10 then some ⟨.rw, [10], false⟩
    else if f = 0x18 || f = 0x20 then some ⟨.sh, [11], false⟩
    else if f = 0x28 then some ⟨.wo, [11], false⟩
    else if f ≤ 0x78 then some .ro
    else if 0x100 ≤ f && f < 0x100 + 9 * 0x80 then
      let g := (f - 0x100) % 0x80
      if g = 0 then some ⟨.rw, [10], false⟩
      else if g ≤ 0x38 then some .ro
      else if g = 0x40 then some ⟨.wo, [10], false⟩ else none
    else none
  else if b = 4 then
    if f = 0x10 then some ⟨.wo, [10], false⟩
    else if f = 0x20 then some ⟨.rw, [1, 10], false⟩
    else if f ≤ 0x40 then some ⟨.rw, [10], false⟩
    else if f ≤ 0x88 then some .ro else none
  else if b = 5 then
    if f ≤ 0x18 then some ⟨.sh, [1, 10], false⟩
    else if f = 0x20 then some ⟨.wo, [1, 10], false⟩
    else if f ≤ 0x70 then some .ro else none
  else if b = 6 then
    if f = 0x08 then some ⟨.wo, [10], false⟩
    else if f = 0x10 then some ⟨.rw, [1, 10], false⟩
    else if f = 0x18 then some ⟨.wo, [1, 10], false⟩
    else if f ≤ 0x60 then some .ro else none
  else if b = 7 then
    if f = 0x08 || f = 0x10 then some ⟨.rw, [10], false⟩
    else if f = 0x48 then some ⟨.wo, [10], false⟩
    else if f ≤ 0x68 then some .ro else none
  else if b = 8 then (if f ≤ 0x60 then some .ro else none)
  else if b = 9 then (if f < 0x400 then some .ro else none)
  else if b = 10 then (if f ≤ 0x30 then some .ro else none)
  else if b = 11 then
    if f = 0x10 then some ⟨.wo, [10], false⟩
    else if f ≤ 0x28 then some .ro else none
  else if b = 12 then
    if f < 0x800 then
      let c := f / 0x40
      let g := f % 0x40
      if g = 0 then some ⟨if c = 31 then .ro else .rw, [1], false⟩
      else if g = 0x08 || g = 0x20 then some ⟨.rw, [], true⟩
      else if g = 0x10 then some ⟨.wo, [], true⟩
      else if g = 0x18 || g = 0x28 then some .ro else none
    else if f = 0x800 then some ⟨.w1c, [1], false⟩
    else if f ≤ 0x828 then some .ro else none
  else if 0x10 ≤ b && b ≤ 0x13 then
    if f = 0 then some ⟨.lk, [0, 12], false⟩
    else if f = 8 then some ⟨.wo, [10], false⟩
    else if f ≤ 0xF8 then some .ro else none
  else if 0x200000 ≤ o && o < 0x211400 then
    let r := (o - 0x200000) / 0x40
    let g := o % 0x40
    if g = 0 then some ⟨.rw, [1], false⟩
    else if g = 0x08 || g = 0x10 then some ⟨.rw, [], true⟩
    else if g = 0x18 then some ⟨if r < 512 then .ro else .rw, [], true⟩
    else if g = 0x20 || g = 0x28 then some .ro
    else if g = 0x30 then some ⟨if r < 1088 then .ro else .rw, [], true⟩
    else none
  else none

/-! ### Views -/

/-- State codes (R58). -/
def TimeSt.code : TimeSt → Nat
  | .unlocked => 0 | .acquire => 1 | .locked => 2 | .holdover => 3

/-- Role codes (R514). -/
def Role.code : Role → Nat
  | .none => 0 | .slave => 1 | .master => 2

/-- TIME_STATUS (R517). -/
def TimeUnit.status (t : TimeUnit) : Nat :=
  t.st.code + t.role.code * 4 + t.period * 2 ^ 4 + (t.epoch % 2 ^ 16) * 2 ^ 15 + t.master * 2 ^ 31 +
    flag t.pendPeriod.isSome * 2 ^ 42 + flag t.takeover.isSome * 2 ^ 43

/-- TIME_LATCH (R514, R516). -/
def Latch.value (l : Latch) : Nat := l.tick % 2 ^ 21 + (l.epoch % 2 ^ 16) * 2 ^ 21 + flag l.locked * 2 ^ 37

/-- The latch of a path (R516). -/
def TimeUnit.latch (t : TimeUnit) : Path → Latch
  | .pcie => t.latchPcie | .i3c => t.latchI3c | .thaxa => t.latchFm

/-- Module number, 0x7FF while COORD is not valid (R288, R298). -/
def Fabric.moduleNo (f : Fabric) : Nat := if f.coordValid then f.part * 128 + f.row * 8 + f.col else 0x7FF

/-- Port state codes (R301). -/
def PortSt.code : PortSt → Nat
  | .down => 0 | .detect => 1 | .equalize => 2 | .align => 3 | .delay => 4 | .admitted => 5 | .retrain => 6

/-- A port. -/
def State.port (s : State) (k : Nat) : Port := nth Port.reset s.fab.ports k

/-- A port replaced. -/
def State.setPort (s : State) (k : Nat) (p : Port) : State :=
  { s with fab := { s.fab with ports := setNth s.fab.ports k p } }

/-- PORT_STATUS (R301). -/
def State.portStatus (s : State) (k : Nat) : Nat :=
  let p := s.port k
  p.st.code + flag p.rateTrained * 8 + flag (bit s.faults.fencePort k) * 16 + flag p.miscabled * 32 + p.peerPlane * 64 +
    p.laneFail * 2 ^ 10

/-- FENCE_MAP_STACK_s (R513). -/
def State.fenceStack (s : State) (k : Nat) : Nat := (findKey s.faults.fenceStack k).getD 0

/-- FENCE_HBM (R456, R513). -/
def State.fenceHbm (s : State) : Nat :=
  (List.range 24).foldl (fun a k => a + flag (bits (s.fenceStack k) 0 32 ≠ 0) * 2 ^ k) 0

/-- FENCE_SRAM (R456, R513). -/
def State.fenceSram (s : State) : Nat :=
  s.faults.fenceCs + (List.range 24).foldl (fun a k => a + flag (bits (s.fenceStack k) 32 16 ≠ 0) * 2 ^ (16 + k)) 0

/-- Cap in force, W (R424). -/
def State.cap (s : State) : Nat := if s.power.fallback then s.reg 0x40018 else s.power.capWatts

/-- A protective ceiling of a die (R423, R432, R433). -/
def State.ceiling (s : State) (d : Nat) : Nat :=
  min (min (if s.power.lowInput then 2 else 11) (nth 11 s.power.thermal d))
    (min (nth 11 s.power.coolCeil d) (match nth none s.power.droopCeil d with | some (c, _) => c | none => 11))

/-- POWER_STATUS (R440). CAP_DEFERRED is `deferred`. -/
def State.powerStatus (s : State) : Nat :=
  let p := s.power
  flag p.capUnatt + flag p.alert * 2 + flag p.lowInput * 4 + flag p.coolant * 8 +
    flag (p.thermal.any (· < 11) || p.coolCeil.any (· < 11)) * 16 + flag p.fallback * 32 + flag p.deferred * 64 + flag p.partialSet * 128 +
    flag p.groupUnatt * 256 + flag p.constrained * 512 + flag (p.droopCeil.any (·.isSome)) * 1024

/-- Four operating points, 4 bits each. -/
def packOps (l : List Nat) : Nat := (List.range 4).foldl (fun a d => a + nth 0 l d * 2 ^ (4 * d)) 0

/-- Vault pages of the part (R241). -/
def vaultPages : Nat := vaultBytes / 65536

/-- Logical pages that are mapped, or will be once the journal buffer is programmed, or are reserved (R241, R257, R518). -/
def Vault.inUse (v : Vault) : List Nat :=
  (v.mapped.map (·.1) ++ v.reserved ++ v.buffer.filterMap fun r => match r.what with | .map page _ => some page | _ => none).eraseDups

/-- PHASE codes (R484). -/
def Phase.code : Phase → Nat
  | .off => 0 | .supplies => 1 | .boot => 2 | .recovery => 3 | .setupLocked => 4 | .standbyEntry => 5 | .standby => 6
  | .halted => 7 | .removeReady => 8

/-- Channel state codes (R415). -/
def ChanSt.code : ChanSt → Nat
  | .idle => 0 | .fetch => 1 | .run => 2 | .writeback => 3 | .waiting => 4 | .stopped => 5 | .error => 6

/-- A DMA channel. -/
def State.chan (s : State) (c : Nat) : Chan := nth Chan.reset s.host.chans c

/-- A DMA channel replaced. -/
def State.setChan (s : State) (c : Nat) (x : Chan) : State :=
  { s with host := { s.host with chans := setNth s.host.chans c x } }

/-- Instance state codes (R340). -/
def InstSt.code : InstSt → Nat
  | .free => 0 | .created => 1 | .activating => 2 | .active => 3 | .part => 4 | .halted => 5 | .tornDown => 6

/-- INST_STATE (R366). -/
def State.instState (s : State) (i : Nat) : Nat :=
  let x := s.inst i
  x.state.code + x.owner * 8 + (s.serve.cfgs.filter (fun c => c.inst == i)).length * 128 +
    flag (s.serve.cfgs.any (fun c => c.inst == i && c.waiting.isSome)) * 2 ^ 14

/-- The member of the vault's INSTALL_STATE (R518). -/
def State.installState (s : State) : Nat :=
  let stOf (e : Nat) : Nat := match s.vault.catalogue.find? (fun c => c.index == e) with | some c => c.state | none => 0
  match s.vault.member.filter (fun m => !m.committed) with
  | some m => m.tag + m.reader * 2 ^ 32 + stOf m.entry * 2 ^ 43
  | none =>
    match s.vault.reader, s.vault.repair with
    | some r, _ => r.tag + s.fab.moduleNo * 2 ^ 32
    | none, some r => r.tag + s.fab.moduleNo * 2 ^ 32 + stOf r.entry * 2 ^ 43
    | none, none => 0

/-- An installation or repair is open here. -/
def State.installOpen (s : State) : Bool :=
  (match s.vault.member with | some m => !m.repair && !m.committed | none => false) || s.vault.reader.isSome
def State.repairOpen (s : State) : Bool :=
  (match s.vault.member with | some m => m.repair && !m.committed | none => false) || s.vault.repair.isSome

/-- What a read of a register returns, without side effects (R504); `p` chooses the path's TIME_LATCH (R516). -/
def State.readReg (s : State) (p : Path) (o : Nat) : Nat :=
  let b := o / 0x10000
  let f := o % 0x10000
  match regInfo o with
  | none => 0
  | some i =>
    if i.access == .wo then 0
    else if b = 0 then
      if f = 0x00 then 0x424 else if f = 0x08 then 0xA2
      else if f = 0x10 then (if Config.vaultV32 then 2 else 1)
      else if f = 0x18 then vaultBytes
      else if f = 0x20 then 0xA1A2
      else if f = 0x28 then Config.vendorId.toNat
      else if f = 0x30 then Config.serial.toNat % 2 ^ 64
      else if f = 0x38 then Config.serial.toNat / 2 ^ 64
      else if f = 0x40 then s.sec.build
      else if f = 0x48 then s.sec.keys.foldl (fun a k => a + flag (!k.2.revoked) * 2 ^ k.1) 0
      else 0x00918204
    else if b = 1 then
      if f = 0 then flag s.svc.locked
      else if f = 0x20 then s.faults.fenceBridge
      else if f = 0x28 then s.faults.fenceCs
      else if f = 0x30 then s.faults.fencePort
      else if 0x100 ≤ f then s.fenceStack ((f - 0x100) / 8)
      else s.reg o
    else if b = 2 then
      if f = 0 then s.time.role.code
      else if f = 0x28 then s.time.status
      else if f = 0x30 then s.time.beat % 2 ^ 48
      else if f = 0x38 then (s.time.latch p).value
      else if f = 0x40 then unsgn 32 s.time.phaseErr
      else s.reg o
    else if b = 3 then
      if f = 0 then s.fab.part + s.fab.row * 16 + s.fab.col * 256 + flag s.fab.coordValid * 2048
      else if f = 0x08 then s.fab.moduleNo
      else if f = 0x10 then flag s.fab.admitted
      else if f = 0x18 then s.fab.spareShadow
      else if f = 0x20 then s.fab.spareBeatShadow
      else if 0x100 ≤ f then
        let k := (f - 0x100) / 0x80
        let g := (f - 0x100) % 0x80
        let q := s.port k
        if g = 0 then flag q.enable + flag q.rate * 2 + flag q.fallback * 4
        else if g = 0x08 then s.portStatus k
        else if g = 0x10 then q.linkDelay
        else s.reg o
      else s.reg o
    else if b = 4 then
      if f = 0 then s.power.capWatts + flag s.power.capValid * 2 ^ 16
      else if f = 0x48 then s.powerStatus
      else if f = 0x50 then packOps s.power.op + packOps (s.power.pend.getD s.power.op) * 2 ^ 16
      else if f = 0x58 then s.power.budget + s.cap * 2 ^ 16
      else if f = 0x60 then if s.power.fallback then 0 else (match s.power.lease with | some d => cdiv (d - s.time.clk) 1000000 | none => 0)
      else s.reg o
    else if b = 5 then
      if f ≤ 0x18 then nth 0 s.arb.shadow (f / 8)
      else if 0x28 ≤ f && f ≤ 0x40 then nth 0 s.arb.active ((f - 0x28) / 8)
      else s.reg o
    else if b = 6 then
      if f = 0 then s.faults.status
      else if f = 0x20 then s.faults.fenceBridge
      else if f = 0x28 then s.fenceHbm
      else if f = 0x30 then s.fenceSram
      else if f = 0x58 then (s.faults.runs.filter (fun r => r.started.isNone)).length
      else s.reg o
    else if b = 7 then
      if f = 0 then s.ledger.head
      else if f = 0x08 then s.ledger.ack
      else if f = 0x10 then flag s.ledger.mirrorEn
      else if f = 0x18 then flag s.ledger.low + flag s.ledger.full * 2 + flag s.ledger.overrun * 4 + flag s.sec.exhausted * 8 +
        flag s.sec.recoveryBoot * 16
      else if f = 0x20 then s.ledger.ckptLast
      else if f = 0x28 then s.ledger.ckptBase
      else if f = 0x30 then s.sec.nextLeaf % 2 ^ 40
      else if f = 0x38 then s.sec.blocks % 2 ^ 30
      else if f = 0x40 then s.sec.svn + s.sec.fusedSvn * 2 ^ 32
      else s.reg o
    else if b = 8 then
      if f = 0x38 then flag s.vault.mapReady + flag s.vault.quiescent * 2 + flag s.installOpen * 4 + flag s.repairOpen * 8
      else if f = 0x40 then
        if s.vault.mapReady then vaultPages - s.vault.inUse.length else 0
      else if f = 0x48 then (if s.vault.mapReady then s.vault.catalogue.length else 0)
      else if f = 0x50 then s.installState
      else if f = 0x58 then s.vault.durable
      else s.reg o
    else if b = 9 then
      let i := f / 0x40
      let g := f % 0x40
      if g = 0 then s.instState i
      else if g = 0x08 then (s.inst i).seqs.length
      else if g = 0x10 then (s.inst i).queue.length
      else s.reg o
    else if b = 11 then
      if f = 0 then s.svc.phase.code + flag s.svc.hbmReady * 16 + flag s.svc.sweepDone * 32 + flag s.svc.synced * 64 +
        flag s.svc.retained * 128
      else if f = 0x08 then s.svc.cause
      else if f = 0x18 then s.svc.discards
      else if f = 0x20 then s.svc.refusedLast.toNat
      else s.svc.refusedCount
    else if b = 12 then
      if f < 0x800 then
        let c := s.chan (f / 0x40)
        let g := f % 0x40
        if g = 0 then c.owner
        else if g = 0x08 then c.head.toNat
        else if g = 0x18 then c.st.code + flag c.stopPending * 8 + c.status * 2 ^ 16
        else if g = 0x20 then c.irq
        else c.done
      else if f = 0x800 then flag s.host.busError + s.host.errKind * 2
      else if f = 0x808 then s.host.errAddr.toNat
      else s.reg o
    else if 0x200000 ≤ o then
      let x := s.ring ((o - 0x200000) / 0x40)
      let g := o % 0x40
      if g = 0 then x.owner
      else if g = 0x08 then x.base.toNat
      else if g = 0x10 then flag x.enable + x.sizeLog * 2 + x.cq * 2 ^ 6
      else if g = 0x18 then x.irq
      else if g = 0x20 then x.st + x.err * 4
      else if g = 0x28 then x.head + x.tail * 2 ^ 16 + flag x.phase * 2 ^ 32
      else if g = 0x30 then x.mask.toNat
      else 0
    else s.reg o

/-- Every block but identity and service is reachable only with the setup lock set or during standby entry (R506). -/
def State.reachable (s : State) (o : Nat) : Bool :=
  o / 0x10000 = 0 || o / 0x10000 = 11 || s.svc.phase == .setupLocked || s.svc.phase == .standbyEntry

/-- A VF's view: identity, its rings, channels and instances (R505). -/
def State.vfSees (s : State) (origin o : Nat) : Bool :=
  let b := o / 0x10000
  if b = 0 then true
  else if b = 9 then (s.inst (o % 0x10000 / 0x40)).owner = origin && (s.inst (o % 0x10000 / 0x40)).state != .free
  else if b = 12 then o % 0x10000 < 0x800 && (s.chan (o % 0x10000 / 0x40)).owner = origin
  else if 0x200000 ≤ o && o < 0x211400 then (s.ring ((o - 0x200000) / 0x40)).owner = origin
  else false

/-- A read of `n` bytes at an offset by an origin on a path (R501, R504, R505, R506): the value of those bytes. -/
def State.readPath (s : State) (p : Path) (origin o n : Nat) : Nat :=
  if !(n == 4 || n == 8) || o % n ≠ 0 || !(s.reachable (o / 8 * 8)) then 0
  else if 2 ≤ origin && origin ≤ 9 && !(s.vfSees origin (o / 8 * 8)) then 0
  else
    let v := s.readReg p (o / 8 * 8)
    if n = 8 then v else if o % 8 = 0 then v % 2 ^ 32 else v / 2 ^ 32

/-- The registers whose Origins column lists 0xA, in increasing offset (R481, measurement 3). -/
def mgmtRegs : List Nat :=
  [0x10008, 0x20000, 0x20008, 0x20010, 0x20018, 0x20020, 0x30000, 0x30010] ++
  (List.range 9).flatMap (fun k => [rPort k 0, rPort k 0x40]) ++
  [0x40000, 0x40008, 0x40010, 0x40018, 0x40020, 0x40028, 0x40030, 0x40038, 0x40040,
   0x50000, 0x50008, 0x50010, 0x50018, 0x50020, 0x60008, 0x60010, 0x60018, 0x70008, 0x70010, 0x70048, 0xB0010,
   0x100008, 0x110008, 0x120008, 0x130008]

end Sys2Proof.Machine
end

