-- ==== Sys2Proof/Machine/Tables.lean ====
section
/-! DEFINITION. The generation-slot rule of replaceable tables (R76, R183, R210, R271, R348, R373). -/
namespace Sys2Proof.Machine

/-- The current slot. -/
def GenTable.current {α : Type} (g : GenTable α) : Option (GenSlot α) :=
  match g.cur with
  | some n => g.slots.find? (fun x => x.gen == n)
  | none => none

/-- The slot of a generation. -/
def GenTable.slot {α : Type} (g : GenTable α) (gen : Nat) : Option (GenSlot α) := g.slots.find? (fun x => x.gen == gen)

/-- A loaded slot that is not current yet. -/
def GenTable.waiting {α : Type} (g : GenTable α) (now : Nat) (x : GenSlot α) : Bool := g.cur != some x.gen && now < x.due

/-- The slot in force at beat `b`, seen from beat `now`. -/
def GenTable.at_ {α : Type} (g : GenTable α) (now b : Nat) : Option (GenSlot α) :=
  match g.slots.find? (fun x => g.waiting now x && x.due ≤ b) with
  | some x => some x
  | none => g.current

/-- Slots that are neither current, nor waiting, nor held are released. -/
def GenTable.prune {α : Type} (g : GenTable α) (now : Nat) : GenTable α :=
  { g with slots := g.slots.filter (fun x => g.cur == some x.gen || g.waiting now x || !x.refs.isEmpty) }

/-- A reference of `holder` to a generation. -/
def GenTable.hold {α : Type} (g : GenTable α) (gen holder : Nat) : GenTable α :=
  { g with slots := g.slots.map (fun x => if x.gen == gen then { x with refs := x.refs ++ [holder] } else x) }

/-- Every reference of `holder` dropped, and free slots released. -/
def GenTable.release {α : Type} (g : GenTable α) (now holder : Nat) : GenTable α :=
  GenTable.prune { g with slots := g.slots.map (fun x => { x with refs := x.refs.filter (· ≠ holder) }) } now

/-- A slot is free (two at most). -/
def GenTable.hasRoom {α : Type} (g : GenTable α) : Bool := g.slots.length < 2

/-- A generation loaded into the free slot, current from beat `due`. -/
def GenTable.load {α : Type} (g : GenTable α) (gen : Nat) (v : α) (due : Nat) : GenTable α :=
  { g with slots := g.slots ++ [⟨gen, v, [], due⟩] }

/-- A generation made current at once. -/
def GenTable.enter {α : Type} (g : GenTable α) (now gen : Nat) (v : α) : GenTable α :=
  GenTable.prune { slots := g.slots ++ [⟨gen, v, [], now⟩], cur := some gen } now

/-- At the boundary of beat `now`: a slot due becomes current (R61, R76). -/
def GenTable.turn {α : Type} (g : GenTable α) (now : Nat) : GenTable α :=
  match g.slots.find? (fun x => g.cur != some x.gen && x.due == now) with
  | some x => GenTable.prune { g with cur := some x.gen } now
  | none => GenTable.prune g now

/-- No current generation (R271). -/
def GenTable.unbind {α : Type} (g : GenTable α) (now : Nat) : GenTable α := GenTable.prune { g with cur := none } now

/-- A generation number that a table already holds. -/
def GenTable.has {α : Type} (g : GenTable α) (gen : Nat) : Bool := g.slots.any fun x => x.gen == gen

/-- A number for a generation that the table holds none under: the generation's own, raised by 2^32 as often as it takes. -/
def GenTable.freshGen {α : Type} (g : GenTable α) (gen : Nat) : Nat :=
  (((List.range 3).map fun n => gen + 2 ^ 32 * n).find? fun k => !(g.has k)).getD gen

/-- The slot tables of a port (R73, R76). -/
def State.slotTab (s : State) (k : Nat) : GenTable SlotTable := (findKey s.fab.slotTabs k).getD GenTable.empty

/-- The slot tables of a port replaced. -/
def State.setSlotTab (s : State) (k : Nat) (t : GenTable SlotTable) : State :=
  { s with fab := { s.fab with slotTabs := putKey s.fab.slotTabs k t } }

/-- The free slot of a port takes a table, unless one of its two holds that generation. -/
def State.canSlot (s : State) (v : SlotTable) : Bool := (s.slotTab v.port).has v.gen || (s.slotTab v.port).hasRoom

/-- A slot table loaded, current from beat `due`. -/
def State.loadSlot (s : State) (v : SlotTable) (due : Nat) : State :=
  if (s.slotTab v.port).has v.gen then s else s.setSlotTab v.port ((s.slotTab v.port).load v.gen v due)

end Sys2Proof.Machine
end

