-- ==== Sys2Proof/Machine/Arb.lean ====
section
/-! DEFINITION. Shared-resource arbitration (12_arbitration, R326 to R339). -/
namespace Sys2Proof.Machine

/-- Position of a kind among the class registers (R338). -/
def arbNo : ArbKind → Nat
  | .thaxa => 0 | .hbm => 1 | .vault => 2 | .cs => 3

/-- Instances of a kind (R326). -/
def arbCount : ArbKind → Nat
  | .thaxa => 9 | .hbm => 768 | .vault => 128 | .cs => 16

/-- Requesters of a kind (R327). -/
def arbRequesters : ArbKind → Nat
  | .thaxa => 6 | .hbm => 7 | .vault => 5 | .cs => 8

/-- Virtual channel of a Thaxa egress requester (R278, R327). -/
def arbVc (i : Nat) : Nat := if i = 0 then 0 else if i = 1 then 2 else if i = 2 || i = 4 then 1 else 3

/-- Active class of a requester (R336, R339). -/
def State.arbClass (s : State) (k : ArbKind) (i : Nat) : Nat := bits (nth 0 s.arb.active (arbNo k)) (4 * i) 3

/-- An arbiter instance; all idle with pointers 0 at reset (R330). -/
def State.arbNode (s : State) (k : ArbKind) (i : Nat) : ArbNode :=
  (s.arb.nodes.find? (fun n => n.kind == k && n.index == i)).getD ⟨k, i, none, 0, [], List.replicate 8 0⟩

/-- An arbiter instance replaced. -/
def State.setArbNode (s : State) (n : ArbNode) : State :=
  { s with arb := { s.arb with nodes := s.arb.nodes.filter (fun m => !(m.kind == n.kind && m.index == n.index)) ++ [n] } }

/-- A locked transfer (R332): writes and programs, and a Thaxa sequence of declared length 1 to 256. -/
def arbLocked (k : ArbKind) (r : ArbReq) : Bool :=
  match k with
  | .thaxa => 1 ≤ r.declared && r.declared ≤ 256
  | _ => r.write

/-- The holder's lock has not ended: of a Thaxa sequence, its declared number of flits has not been sent (R330, R332). -/
def ArbNode.locked (n : ArbNode) (h : ArbReq) : Bool := arbLocked n.kind h && (n.kind != .thaxa || n.sent < h.declared)

/-- First waiting requester of class `c` at or after the pointer, in index order, wrapping (R330). -/
def State.arbPick (s : State) (k : ArbKind) (ws : List ArbReq) (c p : Nat) : Option ArbReq :=
  (List.range (arbRequesters k)).findSome? fun j =>
    ws.find? (fun r => r.index.val == (p + j) % arbRequesters k && s.arbClass k r.index.val == c)

/-- The highest class among waiting requesters. -/
def State.arbTop (s : State) (k : ArbKind) (ws : List ArbReq) : Nat :=
  ws.foldl (fun a r => max a (s.arbClass k r.index.val)) 0

/-! ### The slots of a port (R75, R328, R333) -/

/-- Sevenths of a tick that a flit takes on a port: 4/7 ns in mode 448, 8/7 ns in mode 224 (R333). -/
def State.flitTime (s : State) (i : Nat) : Nat := if (s.port i).rateTrained then 8 else 4

/-- Where a decision point stands among the slots of its port: inside one, so near to the next OPEN that a flit would end after it, or
outside (R333). -/
inductive SlotPhase where
  | outside | closing | inside
  deriving DecidableEq, Repr

/-- The logical plane that a port carries; none for the spare port without one, and for a port whose plane T8 carries (R273). -/
def State.portPlane (s : State) (i : Nat) : Option Nat :=
  if i = 8 then (if s.fab.spareMap < 8 then some s.fab.spareMap else none) else if s.fab.spareMap = i then none else some i

/-- The slots of a port in the running beat, T8 following the table loaded for the port of its plane (R291); none while the time unit is
not locked (R58). -/
def State.portSlots (s : State) (i : Nat) : List SlotEntry :=
  match s.portPlane i with
  | some l => if s.beatLocked then match (s.slotTab l).current with | some g => g.val.slots | none => [] else []
  | none => []

/-- The OPEN of the next slot after a point, in sevenths of a tick. -/
def State.nextOpen (s : State) (i t : Nat) : Option Nat := ((s.portSlots i).map fun e => e.opens * 7).find? fun o => t < o

def State.slotPhase (s : State) (i t : Nat) : SlotPhase :=
  if (s.portSlots i).any fun e => e.opens * 7 ≤ t && t < e.closes * 7 then .inside
  else match s.nextOpen i t with
    | some o => if o < t + s.flitTime i then .closing else .outside
    | none => .outside

/-- A transfer may start on a port at a point: a locked sequence only where it finishes before the next OPEN (R75, R333). -/
def State.mayBegin (s : State) (i t : Nat) (r : ArbReq) : Bool :=
  match s.nextOpen i t with
  | some o => !(arbLocked .thaxa r) || t + r.declared * s.flitTime i ≤ o
  | none => true

/-- A requester waits when its index is used and, at a Thaxa port, it holds a credit of its channel (R278, R329); SLOT only while its port
is inside a slot (R328). -/
def State.arbMayWait (s : State) (k : ArbKind) (i t : Nat) (r : ArbReq) : Bool :=
  r.index.val < arbRequesters k &&
    (k != .thaxa || (nth 0 (s.port i).credits (arbVc r.index.val) > 0 && (r.index.val ≠ 0 || s.slotPhase i t == .inside)))

/-- The free instance grants one of the waiting requesters, if any (R330). -/
def State.arbGrant (s : State) (n : ArbNode) (ws : List ArbReq) : State :=
  if ws.isEmpty then s.setArbNode { n with holder := none, waiting := [] }
  else
    let c := s.arbTop n.kind ws
    match s.arbPick n.kind ws c (nth 0 n.ptrs c) with
    | none => s.setArbNode { n with holder := none, waiting := ws }
    | some g =>
      let s := s.bumpIf (n.kind == .thaxa && g.declared > 256) 0x50068
      s.setArbNode { n with holder := some g, sent := 0, waiting := ws.filter (fun r => r.index != g.index),
                            ptrs := setNth n.ptrs c ((g.index.val + 1) % arbRequesters n.kind) }

/-- One decision (R330, R331). `done` says the holder's transfer has completed. -/
def State.arbDecide (s : State) (k : ArbKind) (i : Nat) (ws : List ArbReq) (done : Bool) : State :=
  let n := s.arbNode k i
  let n := if done then { n with holder := none } else n
  match n.holder with
  | none => s.arbGrant n ws
  | some h =>
    let ws := ws.filter (fun r => r.index != h.index)
    let c := s.arbClass k h.index.val
    if n.locked h || ws.isEmpty || s.arbTop k ws ≤ c then s.setArbNode { n with waiting := ws }
    else
      let n := { n with ptrs := setNth n.ptrs c h.index.val }
      (s.bump (0x50048 + 8 * arbNo k)).arbGrant n (ws ++ [h])

/-- At a Thaxa port the flit that the grant lets go takes a credit and a place in the replay buffer (R278, R280). -/
def State.arbFlit (s : State) (i : Nat) : State :=
  match (s.arbNode .thaxa i).holder with
  | none => s
  | some h =>
    let p := s.port i
    let vc := arbVc h.index.val
    if nth 0 p.credits vc = 0 || p.replay.length ≥ 1024 then s
    else
      let n := s.arbNode .thaxa i
      (s.setArbNode { n with sent := n.sent + 1 }).setPort i
        { p with credits := modNth p.credits vc (· - 1), replay := p.replay ++ [p.nextSeq], nextSeq := (p.nextSeq + 1) % 4096 }

/-- Just before an OPEN, SLOT counts as waiting: an unlocked holder is revoked, no flit starts, and IDLE flits go until OPEN (R333). A
locked holder cannot stand there; it goes on. -/
def State.arbClose (s : State) (i : Nat) (ws : List ArbReq) (done : Bool) : State :=
  let n := s.arbNode .thaxa i
  match n.holder with
  | none => s.setArbNode { n with waiting := ws }
  | some h =>
    if done then s.setArbNode { n with holder := none, waiting := ws }
    else if n.locked h then s
    else
      (s.bump 0x50048).setArbNode { n with
        holder := none, waiting := ws.filter (fun r => r.index != h.index) ++ [h],
        ptrs := setNth n.ptrs (s.arbClass .thaxa h.index.val) h.index.val }

/-- Slot traffic that holds the port past its slot's CLOSE gives the port up, waits for the next slot and is counted (R75; DESIGN CHOICE,
notes/assumptions/116.md). -/
def State.slotMissed (s : State) (i : Nat) (done : Bool) : State :=
  let n := s.arbNode .thaxa i
  match n.holder with
  | some h =>
    if done || h.index.val ≠ 0 then s
    else ({ s with fab := { s.fab with slotMisses := s.fab.slotMisses + 1 } } : State).setArbNode { n with holder := none }
  | none => s

/-- A decision of a Thaxa port at a flit boundary, `t` in sevenths of a tick (R75, R330, R333). -/
def State.arbPort (s : State) (i t : Nat) (ws : List ArbReq) (done : Bool) : State :=
  let ws := ws.filter (s.arbMayWait .thaxa i t)
  match s.slotPhase i t with
  | .closing => s.arbClose i ws done
  | .inside => (s.arbDecide .thaxa i (ws.filter (s.mayBegin i t)) done).arbFlit i
  | .outside => ((s.slotMissed i done).arbDecide .thaxa i (ws.filter (s.mayBegin i t)) done).arbFlit i

/-- A decision point of an arbiter instance; at a Thaxa port `sub` says which seventh of the tick it is. -/
def execArbiterDecision (kind : ArbKind) (index : Fin 768) (waiting : List ArbReq) (done : Bool) (s : State) (sub : Fin 7 := 0) : Res :=
  let i := index.val
  if arbCount kind ≤ i then .next s
  else
    match kind with
    | .thaxa => .next (s.arbPort i (s.time.tick * 7 + sub.val) waiting done)
    | k => .next (s.arbDecide k i (waiting.filter (s.arbMayWait k i 0)) done)

/-- A class register may take the value (R328, R334): class 7 only for SLOT, unused indexes zero. -/
def arbValueOk (j v : Nat) : Bool :=
  let n := nth 0 [6, 7, 5, 8] j
  (List.range 8).all fun i =>
    let c := bits v (4 * i) 3
    if i = 0 && j = 0 then true else if i < n then c ≠ 7 else c = 0

/-- A class register's shadow written (R334, R339): reserved bits are dropped, and CLASS_0 of ARB_CLASS_THAXA stays 7. -/
def State.writeArbShadow (s : State) (j v : Nat) : State :=
  let v := (List.range 8).foldl (fun a i => a + bits v (4 * i) 3 * 2 ^ (4 * i)) 0
  let v := if j = 0 then putBits v 0 3 7 else v
  { s with arb := { s.arb with shadow := setNth s.arb.shadow j v } }

/-- ARB_COMMIT (R335): the four shadows become the pending set, active 128 ticks later. -/
def State.writeArbCommit (s : State) (origin : Nat) : State :=
  { s with arb := { s.arb with pend := some (s.arb.shadow, s.time.clk + 128, origin) } }

/-- The four class registers as record bytes (R460). -/
def arbBytes (l : List Nat) : List Byte := l.flatMap (leBytes 8)

/-- A pending set becomes active and writes its record (R335, R337). -/
def State.arbActivate (s : State) : State :=
  match s.arb.pend with
  | none => s
  | some (set, due, origin) =>
    s.atTimer due fun s =>
      let old := s.arb.active
      let s := { s with arb := { s.arb with active := set, pend := none } }
      s.hand origin (object 0x08 0) (arbBytes old) (arbBytes set)

def execArbSetActivation (s : State) : Res := .next s.arbActivate

end Sys2Proof.Machine
end

