-- ==== Sys2Proof/Machine/Ledger.lean ====
section
/-! DEFINITION. The ledger unit: appending, the chain, the ring's fill, the mirrors and checkpoints; identity leaves (18, R459 to R470); the vault's
journal (09 R245, R246). -/
namespace Sys2Proof.Machine

/-- The ledger changed. -/
def State.setLedger (s : State) (l : Ledger) : State := { s with ledger := l }

/-- OBJECT of a REGISTER record (R460). -/
def objReg (off : Nat) : Nat := object 0x01 off
/-- OBJECT of a FIRMWARE record (R460). -/
def objFirmware (event : Nat) : Nat := object 0x0B event
/-- OBJECT of a KEY record (R460). -/
def objKey (event index : Nat) : Nat := object 0x0F (event + index * 256)

/-- A REGISTER record (R460, R462). -/
def State.regRecord (s : State) (origin off old new : Nat) : State := s.hand origin (objReg off) (leBytes 8 old) (leBytes 8 new)

/-- LOW and FULL follow the count of unacknowledged records; LOW raises its alert once, and FULL clears with LOW (R465). -/
def State.ledgerFill (s : State) : State :=
  let n := s.ledger.unacked
  let low := n ≥ 258048
  let alarm := low && !s.ledger.low
  let s := s.setLedger { s.ledger with low := low, full := n ≥ 262144 || (low && s.ledger.full) }
  if alarm then s.alert alertLow else s
where
  /-- The alert code of LOW. -/
  alertLow : Nat := 0x101

/-- The two EQ entries of a mirrored record (R414, R466). -/
def mirrorEvents (s : State) (r : LedgerRec) : List Event :=
  [⟨0x03, s.now, 0xFF, 0xFF, 0, locNone, slice r.bytes 0 40⟩, ⟨0x03, s.now, 0xFF, 0xFF, 0, locNone, fit 40 (slice r.bytes 40 24)⟩]

/-- An appended record enters the ring and goes to both mirrors (R464 to R466). -/
def State.place (s : State) (r : LedgerRec) : State :=
  let lost := s.ledger.mirrorEn && s.ledger.unacked ≥ 262144
  let s := s.bumpIf lost 0x70058
  let s := s.setLedger { s.ledger with ring := (r :: s.ledger.ring).take 262144, head := r.seq,
                                       overrun := s.ledger.overrun || lost }
  let s := s.ledgerFill
  let s := if s.ledger.mirrorEn then s.emit (.push [r]) else s
  s.raiseTo (fun o => o == r.origin) (mirrorEvents s r)

/-- The chain hash over the previous record's 64 bytes and this record's first 48 (R461). -/
def chainOf (prev : List Byte) (r : LedgerRec) : List Byte := shake256 16 (prev ++ slice r.bytes 0 48)

/-- The bytes of the record before the next one: the newest in the ring, or the stored checkpoint, or 64 zero bytes (R461). -/
def State.lastBytes (s : State) : List Byte :=
  match s.ledger.ring with
  | r :: _ => r.bytes
  | [] => match s.vault.storedCkpt with | some c => c.record.bytes | none => zeros 64

/-- A held record appended: SEQ, digests and chain (R459 to R461, R463). -/
def State.append (s : State) (h : Held) (seq : Nat) : State :=
  let r : LedgerRec := { seq := seq, stamp := h.stamp, origin := h.origin, refused := h.refused, boot := h.boot, object := h.object,
                         oldDigest := shake256 12 h.old, newDigest := shake256 12 h.new, chain := [] }
  let s := s.place { r with chain := chainOf s.lastBytes r }
  s.setLedger { s.ledger with since := s.ledger.since + 1 }

/-! ### The vault's journal (R245 to R247) -/

/-- The vault changed. -/
def State.setVault (s : State) (v : Vault) : State := { s with vault := v }

/-- The bytes of a journal record before its CRC-32C (notes/assumptions/113.md). -/
def JRec.body (seq : Nat) (what : JWhat) : List Byte :=
  fit 60 (leBytes 8 seq ++ match what with
    | .map page phys => leBytes 4 1 ++ leBytes 4 page ++ leBytes 8 phys
    | .free page => leBytes 4 2 ++ leBytes 4 page
    | .commit entry => leBytes 4 3 ++ leBytes 4 entry
    | .stored image => leBytes 4 4 ++ leBytes 4 (flag image))

/-- A journal record with its CRC-32C (R245). -/
def JRec.sealed (seq : Nat) (what : JWhat) : JRec := ⟨seq, what, BitVec.ofNat 32 (crc32c (JRec.body seq what))⟩

/-- The 64 bytes of a journal record (R245). -/
def JRec.raw (r : JRec) : List Byte := JRec.body r.seq r.what ++ leBytes 4 r.crc.toNat

/-- The CRC-32C of a record's 64 bytes holds. -/
def jrecOk (bs : List Byte) : Bool := crc32c (bs.take 60) = field bs 60 4

/-- A record from its 64 bytes; none where its CRC-32C fails. -/
def JRec.ofBytes (bs : List Byte) : Option JRec :=
  let what := match field bs 8 4 with
    | 1 => JWhat.map (field bs 12 4) (field bs 16 8)
    | 2 => JWhat.free (field bs 12 4)
    | 3 => JWhat.commit (field bs 12 4)
    | _ => JWhat.stored (field bs 12 4 = 1)
  if jrecOk bs then some ⟨field bs 0 8, what, BitVec.ofNat 32 (field bs 60 4)⟩ else none

/-- The page map after a record (R245). -/
def mapAfter (m : List (Nat × Nat)) (r : JRec) : List (Nat × Nat) :=
  match r.what with
  | .map page phys => putKey m page phys
  | .free page => m.filter fun p => p.1 ≠ page
  | .commit _ | .stored _ => m

/-- A journal record is durable: the page map follows it, and the physical page that a logical page had before is free (R245, R259); the
record of a new image or checkpoint puts it in force (R467, R475). -/
def Vault.settle (v : Vault) (r : JRec) : Vault :=
  let old := match r.what with
    | .map page _ | .free page => findKey v.mapped page
    | .commit _ | .stored _ => none
  let v := match r.what with
    | .stored true => { v with image := if v.nextImage.isSome then v.nextImage else v.image, nextImage := none }
    | .stored false => { v with storedCkpt := if v.nextCkpt.isSome then v.nextCkpt else v.storedCkpt, nextCkpt := none }
    | _ => v
  { v with mapped := mapAfter v.mapped r, phys := v.phys.filter fun p => some p.1 ≠ old }

/-- The two channels that hold the mirrored journal pages (DESIGN CHOICE, notes/assumptions/113.md: R246 asks for two stacks). -/
def mirrorChannels : Nat × Nat := (0, 16)

/-- The journal buffer is programmed to both mirrors: its records are durable (R246). A quiescent vault programs nothing (R247). -/
def State.flushJournal (s : State) : State :=
  let v := s.vault
  if v.quiescent then s
  else
    let last := match v.buffer.getLast? with | some r => r.seq | none => v.durable
    let w := v.buffer.foldl Vault.settle v
    s.setVault { w with mirrorA := v.mirrorA ++ v.buffer, mirrorB := v.mirrorB ++ v.buffer, buffer := [], bufferClk := none,
                        durable := last }

/-- A journal record appended; a full buffer of 1,024 records is programmed at once (R245, R246). -/
def State.journal (s : State) (what : JWhat) : State :=
  let v := s.vault
  let s := s.setVault { v with buffer := v.buffer ++ [JRec.sealed v.nextSeq what], nextSeq := v.nextSeq + 1,
                               bufferClk := some (v.bufferClk.getD s.time.clk) }
  if s.vault.buffer.length ≥ 1024 then s.flushJournal else s

/-! ### Identity leaves (R470) -/

/-- A block of 1,024 leaves reserved, with its KEY record. When BLOCKS reaches 2^30 the key is exhausted. -/
def State.reserveLeaves (s : State) : State :=
  let k := s.sec.blocks
  if k ≥ 2 ^ 30 then { s with sec := { s.sec with exhausted := true, nextLeaf := k * 1024 } }
  else
    let s := { s with sec := { s.sec with blocks := k + 1, nextLeaf := k * 1024, exhausted := s.sec.exhausted || k + 1 = 2 ^ 30 } }
    s.hand 0 (objKey 3 0) (leBytes 4 k) (leBytes 4 (k + 1))

/-- The next identity leaf, with the reservation of a new block where the last is used up; none when the key is exhausted. -/
def State.takeLeaf (s : State) : Option Nat × State :=
  let s := if s.sec.nextLeaf < s.sec.blocks * 1024 then s else s.reserveLeaves
  if s.sec.exhausted then (none, s) else (some s.sec.nextLeaf, { s with sec := { s.sec with nextLeaf := s.sec.nextLeaf + 1 } })

/-- Class of CHECKPOINT records (R460). -/
def clsCheckpoint : Nat := 0x0C

/-- A held record is a CHECKPOINT. -/
def Held.isCkpt (h : Held) : Bool := h.object % 256 == clsCheckpoint

/-- A CHECKPOINT record with origin 0xC and the leaf that will sign it, handed over as every record is (R463, R467, R470). The leaf is
taken here (DESIGN CHOICE, notes/assumptions/62.md). -/
def State.checkpoint (s : State) : State :=
  if s.ledger.held.any Held.isCkpt then s
  else
    let lt := s.takeLeaf
    lt.2.hand 12 (object clsCheckpoint (lt.1.getD 0)) [] []

/-- A CHECKPOINT record is appended, and its signing starts unless the key is exhausted (R460, R467, R470). -/
def State.placeCkpt (s : State) (h : Held) : State :=
  let old := match s.ledger.lastCkpt with | some r => r.bytes | none => []
  let r : LedgerRec := { seq := s.ledger.head + 1, stamp := h.stamp, origin := h.origin, refused := h.refused, boot := h.boot,
                         object := h.object, oldDigest := shake256 12 old, newDigest := [], chain := [] }
  let r := { r with newDigest := shake256 12 (slice r.bytes 0 36) }
  let r := { r with chain := chainOf s.lastBytes r }
  let s := s.place r
  s.setLedger { s.ledger with since := 0, sinceClk := h.due - 1000, lastCkpt := some r,
                              signing := if s.sec.exhausted then s.ledger.signing else s.ledger.signing ++ [r] }

/-- A held record is appended, its command's completion is written, and the 65,536th record brings a checkpoint (R399, R463, R467). -/
def State.appendHeld (s : State) (h : Held) : State :=
  if h.isCkpt then s.placeCkpt h
  else
    let s := s.append h (s.ledger.head + 1)
    let s := match h.cq with | some q => s.cqWrite q | none => s
    if s.ledger.since ≥ 65536 then s.checkpoint else s

/-- The first held record is appended when its 1,000 ticks are over (R463). -/
def State.appendNext (s : State) : State :=
  match s.ledger.held with
  | [] => s
  | h :: t =>
    if s.ledger.running then s.atTimer h.due fun s => (s.setLedger { s.ledger with held := t }).appendHeld h else s

def execLedgerAppend (s : State) : Res := .next s.appendNext

/-- The records held now are appended at once. -/
def State.appendOnce (s : State) : State :=
  let hs := s.ledger.held
  hs.foldl (fun s h => s.appendHeld h) (s.setLedger { s.ledger with held := [] })

/-- Every held record appended at once, with the checkpoint and the KEY record that they may bring: before the supplies go (R434, R490,
R493). -/
def State.appendAll (s : State) : State := s.appendOnce.appendOnce

/-- The checkpoint of a removal or a standby, after every held record (R490, R493). -/
def State.lastCheckpoint (s : State) : State := s.appendAll.checkpoint.appendOnce

/-- A second without a checkpoint and at least one record (R467). -/
def State.ckptTimer (s : State) : State :=
  if s.ledger.running && s.ledger.since ≥ 1 then s.atTimer (s.ledger.sinceClk + 1000000000) State.checkpoint else s

def execCheckpointTimer (s : State) : Res := .next s.ckptTimer

/-- Bytes of a checkpoint slot (R467). -/
def Ckpt.slot (c : Ckpt) : List Byte :=
  leBytes 8 c.record.seq ++ leBytes 8 c.leaf ++ leBytes 4 c.sig.length ++ zeros 4 ++ c.sig

/-- A checkpoint's signature completes: the store, the push, and, once its journal record is durable, the vault's reserved region
(R467). A quiescent vault programs nothing (R247). -/
def State.ckptSigned (s : State) : State :=
  match s.ledger.signing with
  | [] => s
  | r :: t =>
    let leaf := r.object / 256
    let c : Ckpt := ⟨r, leaf, Config.identitySign leaf r.bytes⟩
    let j := s.reg 0x70060 % 64
    let s := (s.bump 0x70060).storeAt (s.ledger.ckptBase + j * 10240) (c.slot.take 10240)
    let s := s.setLedger { s.ledger with signing := t, store := (c :: s.ledger.store).take 64, ckptLast := r.seq }
    let s := s.emit (.pushSig r.seq c.sig)
    ({ s with vault := { s.vault with nextCkpt := some c } }).journal (.stored false)

def execCheckpointSigned (s : State) : Res := .next s.ckptSigned

/-! ### Register writes of the block (R465, R475, R482) -/

/-- LEDGER_ACK may be written (R482). -/
def State.ackOk (s : State) (v : Nat) : Bool := s.ledger.ack ≤ bits v 0 48 && bits v 0 48 ≤ s.ledger.head

/-- LEDGER_ACK (R465). -/
def State.writeAck (s : State) (v : Nat) : State :=
  let s := s.setLedger { s.ledger with ack := bits v 0 48 }
  let n := if s.ledger.mirrorEn then s.ledger.unacked else s.ledger.head - s.ledger.ack
  let s := if n < 258048 then s.setLedger { s.ledger with overrun := false } else s
  s.ledgerFill

/-- Records after LEDGER_ACK that the ring holds, oldest first, in pushes of up to 16 (R465). -/
def State.backlog (s : State) : List Out :=
  let rs := (s.ledger.ring.filter (fun r => r.seq > s.ledger.ack)).reverse
  let n := (rs.length + 15) / 16
  (List.range n).map fun k => Out.push ((rs.drop (16 * k)).take 16)

/-- LEDGER_CFG (R465). A record after LEDGER_ACK has been overwritten where the oldest in the ring is not the BOOT record, with which
this ring begins. -/
def State.writeLedgerCfg (s : State) (v : Nat) : State :=
  if !(bit v 0) then s.setLedger { s.ledger with mirrorEn := false, low := false, full := false }
  else if s.ledger.mirrorEn then s
  else
    let s := s.setLedger { s.ledger with mirrorEn := true }
    let gap := match s.ledger.ring.getLast? with | some r => !r.boot && r.seq > s.ledger.ack + 1 | none => false
    let s := s.setLedger { s.ledger with overrun := s.ledger.overrun || gap }
    (s.emits s.backlog).ledgerFill

/-- FW_SVN_COMMIT raises the fused SVN to that of the running image (R475), recorded as a FIRMWARE event 4 (R460, R462). -/
def State.writeSvnCommit (s : State) (origin v : Nat) : State :=
  if bit v 0 then
    let s := { s with sec := { s.sec with fusedSvn := max s.sec.fusedSvn s.sec.svn } }
    s.hand origin (objFirmware 4) s.sec.digest s.sec.digest
  else s

end Sys2Proof.Machine
end

