-- ==== Sys2Proof/Machine/Sensors.lean ====
section
/-! DEFINITION. The sensors of the PDR repository and the platform events that a change of one sends (18 R478). -/
namespace Sys2Proof.Machine

/-- The sensors of R478 in order; the last three are state sensors. -/
def sensorIds : List Nat := [1, 2, 3, 4, 5, 6, 7, 8, 9, 0x10, 0x11, 0x12, 0x13, 0x14, 0x15, 0x20, 0x21, 0x22]

/-- A numeric sensor. -/
def sensorNumeric (id : Nat) : Bool := (1 ≤ id && id ≤ 9) || (0x10 ≤ id && id ≤ 0x15)

/-- Reading of a numeric sensor from a beat's measurements (R417, R435). -/
def Meas.sensor (m : Meas) (id : Nat) : Nat :=
  if id = 1 then m.input else if id = 2 then m.vin else if 3 ≤ id && id ≤ 6 then nth 0 m.die (id - 3)
  else if id = 7 then m.hub else if id = 8 then m.hbm else if id = 9 then m.vault
  else if 0x10 ≤ id && id ≤ 0x13 then nth 0 m.tj (id - 0x10) else if id = 0x14 then m.tjHub else m.tjHbm

/-- Threshold range of a numeric reading: 1 normal; 2, 3, 4 upper warning, critical, fatal; 5, 6 lower warning, critical. -/
def State.sensorRange (s : State) (id v : Nat) : Nat :=
  if id = 1 then (if v > s.cap then 2 else 1)
  else if id = 2 then (if v > 4100 then 3 else if v < 2800 then 6 else if v < 3200 then 5 else 1)
  else if 0x10 ≤ id then
    (if v ≥ 110 then 4 else if v ≥ 105 then 3 else if v ≥ bits (s.reg 0x40038) 0 8 then 2 else 1)
  else 1

/-- Value of a state sensor (R478). -/
def State.sensorState (s : State) (id : Nat) : Nat :=
  if id = 0x20 then 1 + flag s.power.alert else if id = 0x21 then 1 + flag (bit s.faults.status 0) else s.svc.phase.code + 1

/-- The hub is running (R478, R484). -/
def State.hubRuns (s : State) : Bool :=
  match s.svc.phase with
  | .boot | .recovery | .setupLocked | .standbyEntry => true
  | _ => false

/-- Ticks after which a message that was not accepted is sent again: 100 ms (R478). -/
def resendTicks : Nat := 100000000

/-- A PlatformEventMessage to the receiver, if one is set; it may be sent again once, 100 ms later (R478). -/
def State.platformEvent (s : State) (sensor value : Nat) : State :=
  match s.sec.receiver with
  | some eid =>
    let young := s.sec.events.filter fun e => s.time.clk ≤ e.2.2 + resendTicks
    ({ s with sec := { s.sec with events := young ++ [(sensor, value, s.time.clk)] } }).emit (.platformEvent eid sensor value)
  | none => s

/-- Changes of the state sensors between `old` and `s` sent as platform events. -/
def State.sensorEvents (s old : State) : State :=
  [0x20, 0x21, 0x22].foldl (fun s id =>
    if s.sensorState id = old.sensorState id || (id ≠ 0x22 && !(s.hubRuns && old.hubRuns)) then s
    else s.platformEvent id (s.sensorState id)) s

/-- An action with the platform events of the state changes it makes. -/
def State.watched (s : State) (f : State → State) : State := (f s).sensorEvents s

/-- Threshold crossings between the measurements of two beats sent as platform events. -/
def State.rangeEvents (s : State) (old new : Meas) : State :=
  (sensorIds.filter sensorNumeric).foldl (fun s id =>
    let r := s.sensorRange id (new.sensor id)
    if r = s.sensorRange id (old.sensor id) then s else s.platformEvent id r) s

end Sys2Proof.Machine
end

