-- ==== Sys2Proof/Machine/Time.lean ====
section
/-! DEFINITION. The time unit (R40 to R64, R514 to R517): markers, phase error, slewing, lock and its loss, the roles, the period. -/
namespace Sys2Proof.Machine

/-- The time unit changed. -/
def State.setTime (s : State) (t : TimeUnit) : State := { s with time := t }

/-- Running steps chosen by `p` fail with a status; the first failure of a step stands (R363). -/
def State.failSteps (s : State) (p : StepRun → Bool) (status : Nat) : State :=
  let f := fun r : StepRun => if p r && r.fail.isNone then { r with fail := some status } else r
  { s with serve := { s.serve with steps := s.serve.steps.map f } }

/-- Counter names of the time base block (R514). -/
def rLockLoss : Nat := 0x20048
def rMarkerDiscard : Nat := 0x20050
def rMasterConflict : Nat := 0x20058

/-- OBJECT of a TIME record (R460). -/
def objTime (cause : Nat) : Nat := object 0x0A cause

/-- A TIME record of the device with the full stamp as its value (R460). -/
def State.timeRecord (s : State) (cause : Nat) : State := s.hand 12 (objTime cause) [] s.fullStamp

/-- Slot traffic stops: what waits for a slot is not sent any more (R60). -/
def State.stopSlots (s : State) : State := { s with fab := { s.fab with slotOut := [] } }

/-- Lock loss (R60): slot traffic stops, running steps fail, the record, the event and the alert, then UNLOCKED. -/
def State.lockLoss (s : State) (cause : Nat) : State :=
  let s := (s.stopSlots.bump rLockLoss).failSteps (fun _ => true) stBEAT_LOST
  let s := (s.timeRecord 4).event 0x13 0 locNone (leBytes 1 cause)
  let s := s.alert 0x13
  s.setTime { s.time with st := .unlocked, good := 0, bad := 0, holdover := 0, outSeq := 0, acquired := false, heard := [],
                          discarded := false, pendPeriod := none, takeover := none, corr := 0, lockEnds := [] }

/-- The alert code of a master conflict (R50): the other alerts carry their event type. -/
def alertMasterConflict : Nat := 0x100

/-- The marker names a BEAT that one with another MASTER has named (R50). -/
def TimeUnit.clashes (t : TimeUnit) (m : Marker) : Bool := t.seen.any fun p => p.1 == m.beat.toNat && p.2 != m.master.toNat

/-- A master conflict: counted and reported; a module that is not UNLOCKED loses lock (R50). -/
def State.masterConflict (s : State) : State :=
  let s := (s.bump rMasterConflict).alert alertMasterConflict
  if s.time.st == .unlocked then s else s.lockLoss 3

/-- The BEAT and MASTER of a marker noted (R50). -/
def State.noteMarker (s : State) (m : Marker) : State :=
  let p := (m.beat.toNat, m.master.toNat)
  if s.time.seen.contains p then s else s.setTime { s.time with seen := s.time.seen ++ [p] }

/-- The stamp of a marker as a tick count from the boundary of the beat it names, when it is in sequence (R53, R56). -/
def TimeUnit.arrival (t : TimeUnit) (m : Marker) : Option Int :=
  let half : Int := (t.period * 500 : Nat)
  let a : Int := if m.beat.toNat = t.beat then (t.tick : Int)
    else (t.tick : Int) - (t.period * 1000 : Nat)
  if (m.beat.toNat = t.beat || m.beat.toNat = t.beat + 1) && -half < a && a ≤ half then some a else none

/-- The first marker of ACQUIRE sets the beat and the count (R58); its half ticks are rounded up. -/
def State.acquire (s : State) (d : Nat) (m : Marker) : State :=
  let at_ := d + (m.correction.toNat + 8) / 16
  let len := m.period.toNat * 1000
  s.setTime { s.time with
    st := .acquire, beat := m.beat.toNat + at_ / len, tick := at_ % len, period := m.period.toNat, epoch := m.epoch.toNat,
    master := m.master.toNat, lastMarker := some m.beat.toNat, acquired := true, good := 0, bad := 0, holdover := 0, outSeq := 0,
    phaseErr := 0, corr := 0, heard := [], discarded := false,
    pendPeriod := if m.countdown = 0 then none else some (m.nextPeriod.toNat, m.beat.toNat + m.countdown.toNat) }

/-- A marker accepted at a port (R50, R53, R56, R58). Only admitted ports deliver one; a marker whose PERIOD is out of range is
discarded, and one that conflicts is used for nothing. -/
def State.markerIn (s : State) (k : Nat) (m : Marker) : State :=
  if (s.port k).st != .admitted then s
  else if m.period.toNat < 16 || m.period.toNat > 2000 then s.bump rMarkerDiscard
  else if s.time.clashes m then s.masterConflict
  else
    let s := s.noteMarker m
    if s.time.role != .slave then s
    else if s.time.st == .unlocked || !s.time.acquired then s.acquire (s.port k).linkDelay m
    else
      match s.time.arrival m with
      | none =>
        let s := s.bump rMarkerDiscard
        s.setTime { s.time with discarded := true }
      | some a => s.setTime { s.time with heard := s.time.heard ++ [⟨k, m, a⟩] }

def execMarkerAccept (port : Fin 9) (m : Marker) (s : State) : Res := .next (s.markerIn port.val m)

/-- A period change takes effect (R61, R63, R64): the new period, EPOCH, the stop of schedules compiled for another period, the
steelyard DEADLINE clamp (R427) and the TIME record. -/
def State.newPeriod (s : State) (p epoch : Nat) : State :=
  let s := s.setTime { s.time with period := p, epoch := epoch, pendPeriod := none }
  let stale := fun r : StepRun =>
    match ((s.inst r.inst).sched.slots.find? (fun g => g.gen == r.sched)) with
    | some g => g.val.period != p
    | none => true
  let s := s.failSteps stale stPERIOD_CHANGED
  let cfg := s.reg 0x40028
  let s := if bits cfg 16 21 > p * 1000 - 7000 then s.setReg 0x40028 (putBits cfg 16 21 (p * 1000 - 7000)) else s
  s.timeRecord 2

/-- The marker used for beat N (R53, R56 to R58, R60, R63). -/
def State.useMarker (s : State) (h : Heard) : State :=
  let e16 : Int := 16 * h.a - (16 * ((s.port h.port).linkDelay : Nat) + h.m.correction.toNat : Nat)
  let e := roundAway e16 16
  let near := e16.natAbs ≤ 160
  let far := e16.natAbs > 1600
  let bad := if far then s.time.bad + 1 else 0
  let good := if near then s.time.good + 1 else 0
  let st := match s.time.st with
    | .acquire => if good ≥ 8 then TimeSt.locked else .acquire
    | .holdover => if far then .holdover else .locked
    | x => x
  let moved := h.m.period.toNat ≠ s.time.period
  let newEpoch := h.m.epoch.toNat ≠ s.time.epoch
  let hold := if st == .holdover then s.time.holdover + 1 else 0
  let s := if s.time.st == .acquire && st == .locked then s.firesFrom (s.time.tick + 1) else s
  let s := s.setTime { s.time with
    st := st, phaseErr := e, corr := e, good := good, bad := bad,
    holdover := hold, outSeq := 0,
    master := h.m.master.toNat, lastMarker := some h.m.beat.toNat,
    pendPeriod := if h.m.countdown = 0 then none else some (h.m.nextPeriod.toNat, h.m.beat.toNat + h.m.countdown.toNat) }
  if bad ≥ 4 then s.lockLoss 1
  else if hold ≥ 16 then s.lockLoss 2
  else if moved then
    if s.time.tick ≥ h.m.period.toNat * 1000 then s.lockLoss 4
    else
      let p := s.time.pendPeriod
      let s := s.newPeriod h.m.period.toNat h.m.epoch.toNat
      s.setTime { s.time with pendPeriod := p }
  else if newEpoch then
    let s := s.setTime { s.time with epoch := h.m.epoch.toNat }
    s.timeRecord 5
  else s

/-- Beat N has no marker (R53, R58, R60). The counts of consecutive markers go on over it. DESIGN CHOICE (notes/assumptions/58.md): a
slave in ACQUIRE stays there. -/
def State.noMarker (s : State) : State :=
  let out := if s.time.discarded then s.time.outSeq + 1 else 0
  let hold := s.time.holdover + 1
  if out ≥ 2 then s.lockLoss 4
  else if s.time.st == .acquire then s.setTime { s.time with outSeq := out, discarded := false }
  else if hold ≥ 16 then s.lockLoss 2
  else s.setTime { s.time with st := .holdover, holdover := hold, outSeq := out, discarded := false }

/-- The decision at tick P × 500 + 1 of beat N (R53). -/
def State.markerDecide (s : State) : State :=
  if s.time.role != .slave || s.time.st == .unlocked || !s.time.acquired then s
  else
    let s := s.toTick (s.time.period * 500 + 1)
    let cands := s.time.heard.filter (fun h => h.m.beat.toNat == s.time.beat)
    let later := s.time.heard.filter (fun h => h.m.beat.toNat == s.time.beat + 1)
    let src := bits (s.reg 0x20010) 0 4
    let pick := match cands.find? (fun h => h.port == src) with
      | some h => some h
      | none => (List.range 9).findSome? (fun k => cands.find? (fun h => h.port == k))
    match pick with
    | some h =>
      let s := s.setTime { s.time with heard := later, discarded := false }
      s.useMarker h
    | none =>
      let s := s.setTime { s.time with heard := later }
      s.noMarker

def execMarkerDecision (s : State) : Res := .next s.markerDecide

/-- Ports in state ADMITTED, in order (R285). -/
def State.admittedPorts (s : State) : List Nat := (List.range 9).filter fun k => (s.port k).st == .admitted

/-- The marker that begins the running beat (R51, R52). NEXT_PERIOD is announced in the eight beats before B (R63). -/
def State.marker (s : State) : Marker :=
  let t := s.time
  let ann := match t.pendPeriod with
    | some (p, b) => if t.beat < b && b ≤ t.beat + 8 then (p, b - t.beat) else (t.period, 0)
    | none => (t.period, 0)
  { beat := BitVec.ofNat 48 t.beat, period := BitVec.ofNat 11 t.period, nextPeriod := BitVec.ofNat 11 ann.1,
    countdown := BitVec.ofNat 4 ann.2, master := BitVec.ofNat 11 s.fab.moduleNo, epoch := BitVec.ofNat 16 t.epoch, correction := 0 }

/-- The master sends its marker on every admitted port (R51). -/
def State.sendMarkers (s : State) : State := s.emits (s.admittedPorts.map fun k => Out.marker k s.marker)

/-- The beat that no marker begins: the end of the numbering (R43). -/
def lastBeat : Nat := 0xFFFFFFFFFFFF

/-- Beat START_BEAT begins, 1,000 ticks after the role write (R515). Where the count would begin the last beat of the numbering, the
module enters lock loss and no marker names it (R43). -/
def State.startMaster (s : State) : State :=
  match s.time.masterStart with
  | none => s
  | some due => s.atTimer due fun s =>
    let first := bits (s.reg 0x20008) 0 48
    let s := s.setTime { s.time with masterStart := none, beat := first, tick := 0, good := 0, bad := 0, holdover := 0, corr := 0,
                                     phaseErr := 0 }
    if first = lastBeat then s.lockLoss 5
    else
      let s := s.setTime { s.time with epoch := (s.time.epoch + 1) % 2 ^ 16, st := .locked, acquired := true }
      (s.firesFrom 0).sendMarkers

def execMasterStart (s : State) : Res := .next s.startMaster

/-- The latch of a path set (R516). -/
def TimeUnit.setLatch (t : TimeUnit) (p : Path) (l : Latch) : TimeUnit :=
  match p with
  | .pcie => { t with latchPcie := l }
  | .i3c => { t with latchI3c := l }
  | .thaxa => { t with latchFm := l }

/-- A read of TIME_BEAT latches the tick, the EPOCH and the LOCKED bit of its path (R516). -/
def State.latchTime (s : State) (p : Path) : State :=
  s.setTime (s.time.setLatch p ⟨s.time.tick, s.time.epoch, s.time.st == .locked⟩)

/-- A read of TIME_BEAT by the PF, the management controller or the fabric manager (R505, R506, R516). -/
def State.readTimeBeat (s : State) (p : Path) : State :=
  if s.reachable 0x20030 then
    (s.latchTime p).emit (.data p (BitVec.ofNat 64 (s.readReg p 0x20030)) 8)
  else s.emit (.data p 0 8)

def execTimeBeatRead (path : Path) (s : State) : Res := .next (s.readTimeBeat path)

/-! ### Effects of accepted writes of the time base block (R514, R515) -/

/-- The transition of R515 is listed. -/
def State.roleOk (s : State) (v : Nat) : Bool := v % 4 = 0 || s.time.role == .none

/-- BEAT_ROLE (R515). UNLOCKED counts freely (R58), so a write of NONE ends a correction that remains (DESIGN
CHOICE, notes/assumptions/58.md). -/
def State.writeRole (s : State) (v : Nat) : State :=
  let s := s.setTime { s.time with takeover := none, masterStart := none }
  if v % 4 = 0 then
    let s := if s.beatLocked then s.lockLoss 7 else s
    s.setTime { s.time with role := .none, st := .unlocked, acquired := false, heard := [], corr := 0, pendPeriod := none }
  else if v % 4 = 1 then
    s.setTime { s.time with role := .slave, st := .acquire, acquired := false, good := 0, bad := 0, holdover := 0, outSeq := 0,
                            heard := [], discarded := false }
  else s.setTime { s.time with role := .master, st := .unlocked, masterStart := some (s.time.clk + 1000) }

/-- BEAT_PERIOD may be written: the master, eight beats ahead (R63). -/
def State.periodOk (s : State) (v : Nat) : Bool := s.time.role == .master && bits v 16 48 ≥ s.time.beat + 8

/-- BEAT_PERIOD (R63): the period in force cancels, any other replaces what is pending. -/
def State.writePeriod (s : State) (v : Nat) : State :=
  let p := bits v 0 11
  let s := s.setReg 0x20018 (p + bits v 16 48 * 2 ^ 16)
  s.setTime { s.time with pendPeriod := if p = s.time.period then none else some (p, bits v 16 48) }

/-- TAKEOVER may be written (R55, R515). -/
def State.takeoverOk (s : State) (v : Nat) : Bool :=
  let b := bits v 0 48
  if bits v 48 2 = 1 then
    s.time.role == .slave && s.beatLocked && b ≥ s.time.beat + 2 &&
      (s.time.st != .holdover || b ≤ s.time.lastMarker.getD 0 + 16)
  else s.time.role == .master && b ≥ s.time.beat + 2

/-- TAKEOVER (R515). -/
def State.writeTakeover (s : State) (v : Nat) : State :=
  s.setTime { s.time with takeover := some ⟨bits v 48 2 = 1, bits v 0 48⟩ }

/-- The handover at its boundary (R54): the role changes, the new master raises EPOCH and sends its marker, each writes a record. -/
def State.handover (s : State) : State :=
  match s.time.takeover with
  | none => s
  | some t =>
    if s.time.beat < t.beat then s
    else if t.toMaster then
      let s := s.setTime { s.time with role := .master, st := .locked, epoch := (s.time.epoch + 1) % 2 ^ 16, takeover := none,
                                       holdover := 0, corr := 0, phaseErr := 0 }
      s.timeRecord 3
    else
      let s := s.setTime { s.time with role := .slave, acquired := true, takeover := none, heard := [], discarded := false,
                                       holdover := 0, bad := 0, good := 0 }
      s.timeRecord 3

/-- Loss of the 100 MHz reference (R60, R527). -/
def State.refLost (s : State) : State := if s.time.st == .unlocked then s else s.lockLoss 6

end Sys2Proof.Machine
end

