-- ==== Sys2Proof/Machine/Faults.lean ====
section
/-! DEFINITION. Detection, proving runs, classification, fences and their clearing (17_faults_and_proving; R107, R108, R111 to R117,
R23 to R25, R512). -/
namespace Sys2Proof.Machine

/-- The fault block changed. -/
def State.setFaults (s : State) (f : Faults) : State := { s with faults := f }

/-! ### Rods (R111, R116) -/

/-- ROD_MAP of a frame (R116). -/
def State.rodMap (s : State) (d : Nat) : Nat := s.reg (rFrame d 0)

/-- Physical rod of a logical rod (R111). -/
def State.rodPhys (s : State) (d l : Nat) : Nat :=
  let m := s.rodMap d
  if bit m 7 && bits m 0 6 ≤ l then l + 1 else l

/-- The logical rod that lies on a physical rod; none for the rod that no address leads to (R32, R111). -/
def State.rodOn (s : State) (d p : Nat) : Option (Fin 32) := (List.finRange 32).find? fun l => s.rodPhys d l.val == p

/-- Where the model keeps the tile memory of a bead of the physical rod that no logical rod names (R32). -/
def mpaSpare (d bead : Nat) : Nat := d * 2 ^ 46 + 32 * rodBytes + bead * 0x200000

/-- A bead seen under another logical rod. -/
def Bead.onRod (x : Bead) (l : Nat) : Bead := { x with id := ⟨x.id.die, Fin.ofNat 32 l, x.id.bead⟩ }

/-- The map shifts at rod `p` of a die (R111): the tile memory and the directories stay with their physical rods. -/
def State.remapRod (s : State) (d p : Nat) : State :=
  if 32 ≤ p then s else
  let here := fun x : Bead => x.id.die.val == d
  let beads := s.arr.beads.filterMap fun x =>
    if here x && x.id.rod.val == p then none
    else some (if here x && p < x.id.rod.val then x.onRod (x.id.rod.val - 1) else x)
  let last := (s.arr.spare.filter here).map (·.onRod 31)
  let gone := s.arr.beads.filter fun x => here x && x.id.rod.val == p
  { s with
    mem := { s.mem with cells := Memory.remapped s.mem.cells d p },
    arr := { s.arr with beads := beads ++ last, spare := s.arr.spare.filter (fun x => !(here x)) ++ gone } }

/-- The shifted map is taken back (R115). -/
def State.unmapRod (s : State) (d p : Nat) : State :=
  if 32 ≤ p then s else
  let here := fun x : Bead => x.id.die.val == d
  let beads := s.arr.beads.filterMap fun x =>
    if here x && x.id.rod.val == 31 then none
    else some (if here x && p ≤ x.id.rod.val then x.onRod (x.id.rod.val + 1) else x)
  let back := (s.arr.spare.filter here).map (·.onRod p)
  let gone := s.arr.beads.filter fun x => here x && x.id.rod.val == 31
  { s with
    mem := { s.mem with cells := Memory.unmapped s.mem.cells d p },
    arr := { s.arr with beads := beads ++ back, spare := s.arr.spare.filter (fun x => !(here x)) ++ gone } }

/-- The frame has had a lasting fault (R112). -/
def State.frameHurt (s : State) (d : Nat) : Bool :=
  let m := s.rodMap d
  bits m 0 6 ≠ 0x3F || bits m 6 4 ≠ 0

/-- The unit of a logical bead. -/
def State.beadUnit (s : State) (b : BeadId) : ProveUnit :=
  .bead b.die (Fin.ofNat 33 (s.rodPhys b.die.val b.rod.val)) b.bead

/-- Contexts that lie on a physical bead. -/
def State.ctxsOn (s : State) (d p b : Nat) : List Context :=
  s.arr.ctxs.filter fun c => c.valid && c.id.bead.die.val == d && s.rodPhys d c.id.bead.rod.val == p && c.id.bead.bead.val == b

/-! ### Configurations dropped (R84, R108, R113) -/

/-- Every context of a configuration is invalidated, its edges emptied, and it is stored; what `keep` says of its saved state
stands. -/
def State.dropConfig (s : State) (num : Nat) : State :=
  let ctxs := s.arr.ctxs.filter (fun c => c.config ≠ num)
  let gone := (s.arr.ctxs.filter (fun c => c.config == num)).map (·.id)
  let flights := s.arr.flights.filter (fun f => !(gone.contains f.dest.ctx))
  let beads := s.arr.beads.map fun b =>
    { b with current := match b.current with
        | some c => if gone.any (fun g => g.bead == b.id && g.ctx.val == c) then none else some c
        | none => none }
  let cfgs := s.serve.cfgs.map fun c =>
    if c.num == num then { c with resident := false, restoring := false, saved := none, badSave := false, release := [], inbox := [] } else c
  { s with arr := { s.arr with ctxs := ctxs, flights := flights, beads := beads }, serve := { s.serve with cfgs := cfgs } }

/-- Running steps that have bound a configuration fail. -/
def State.failConfig (s : State) (num status : Nat) : State :=
  s.failSteps (fun r => r.configs.any (fun c => c.1 == num)) status

/-! ### Units and their events (R454) -/

/-- Sub-unit of PROVING_RESULT byte 8. -/
def unitSub : ProveUnit → Nat
  | .bead _ _ _ => 0xFF
  | .csBank b => b.val
  | .stagingBank _ b => b.val
  | .hbmChannel _ c => c.val
  | .bridge b => b.val
  | .port _ => 0xFF

/-- LOCATION of a unit (R393). -/
def unitLoc : ProveUnit → Nat
  | .bead d p b => locOf d.val p.val b.val 31 15
  | .csBank _ => locNone
  | .stagingBank k _ => locOf (k.val / 6) 0 0 k.val 15
  | .hbmChannel k _ => locOf (k.val / 6) 0 0 k.val 15
  | .bridge b => locDie (b.val % 4)
  | .port p => locOf 0 0 0 31 p.val

/-- Transients of a unit in the current window of 1,048,576 beats (R449). -/
def State.transients (s : State) (u : ProveUnit) : Nat :=
  match s.faults.transients.find? (fun t => t.1 == u && t.2.1 == s.time.beat / 1048576) with
  | some t => t.2.2
  | none => 0

/-- Spare rows of an HBM4 channel in use (R450). -/
def State.spareRows (s : State) (k c : Nat) : Nat :=
  match s.faults.spareUsed.find? (fun t => t.1 == k && t.2.1 == c) with
  | some t => t.2.2
  | none => 0

/-- PROVING_RESULT (R454). -/
def State.proveEvent (s : State) (r : Run) (result outcome : Nat) : State :=
  let left := match r.unit with | .hbmChannel k c => 32 - s.spareRows k.val c.val | _ => 0
  let dur := (s.time.clk - r.started.getD s.time.clk) / 1000
  s.event 0x20 0 (unitLoc r.unit)
    (leBytes 1 (if r.routine then 0 else r.cls) ++ leBytes 1 r.run ++ leBytes 1 result ++ leBytes 1 outcome ++ leBytes 4 dur ++
      leBytes 1 (unitSub r.unit) ++ leBytes 1 left ++ leBytes 2 (s.transients r.unit) ++ packStamp r.first)

/-- The unit is fenced. -/
def State.isFenced (s : State) : ProveUnit → Bool
  | .bead d p _ =>
    let m := s.rodMap d.val
    (bits m 0 6 == p.val) || s.faults.remaps.contains (d.val, p.val) || s.faults.dead.contains (d.val, p.val) ||
      (p.val == 32 && bit m 8)
  | .csBank b => bit s.faults.fenceCs b.val
  | .stagingBank k b => bit (s.fenceStack k.val) (32 + b.val)
  | .hbmChannel k c => bit (s.fenceStack k.val) c.val
  | .bridge b => bit s.faults.fenceBridge b.val
  | .port p => bit s.faults.fencePort p.val

/-! ### Detection (R441, R443, R447, R449) -/

/-- A ring bridge: index 4 to 7 (R454). -/
def isRing (b : Nat) : Bool := b ≥ 4

/-- The two ends of a bridge (R21), in the order HB0 to HB3, NB01, NB12, NB23, NB30; end 4 is the hub. -/
def bridgeEnds (b : Nat) : Nat × Nat := if isRing b then (b - 4, (b - 3) % 4) else (b, 4)

/-- The ring bridge between two frame dies; none on a diagonal (R21). -/
def ringBetween (a b : Nat) : Option Nat :=
  (List.range 8).find? fun i => isRing i && (bridgeEnds i == (a, b) || bridgeEnds i == (b, a))

/-- The bridges a transfer between two units crosses (R22). Units 0 to 3 are the frame dies; every other unit is the hub, which holds
the engines, the common store and the ports and alone reaches the vault (R20). Traffic of a ring bridge that has moved takes the
hub route (R24, R25). -/
def State.way (s : State) (src dst : Nat) : List Nat :=
  if src = dst || (4 ≤ src && 4 ≤ dst) then []
  else if 4 ≤ src then [dst]
  else if 4 ≤ dst then [src]
  else
    match ringBetween src dst with
    | some b => if s.fab.hubRoutes.contains b then [src, dst] else [b]
    | none => [src, dst]

/-- A hub bridge carries no traffic while it is fenced (R24, R451), and its traffic waits during its proving run (R446). -/
def State.bridgeShut (s : State) (b : Nat) : Bool :=
  !(isRing b) && (bit s.faults.fenceBridge b ||
    s.faults.runs.any fun r => r.started.isSome && match r.unit with | .bridge u => u.val == b | _ => false)

/-- Every bridge of a route carries traffic. What needs a bridge that does not waits and does not complete
(notes/assumptions/103.md). -/
def State.carries (s : State) (via : List Nat) : Bool := via.all fun b => !(s.bridgeShut b)

/-- The way between two units is open. -/
def State.reaches (s : State) (src dst : Nat) : Bool := s.carries (s.way src dst)

/-- Reads that frame dies have issued over a bridge and that have not completed (R25). -/
def State.onBridge (s : State) (b : Nat) : Bool :=
  let uses := fun via : Option (List Nat) => match via with | some v => v.contains b | none => false
  s.arr.beads.any (fun x => x.fills.any fun f => uses f.via) || s.mem.gathers.any fun g => uses g.via

/-- A ring bridge's traffic takes the named route from the next boundary (R25). A change of the route in force back to itself leaves
nothing to change. -/
def State.routeChange (s : State) (b : Nat) (hub : Bool) : State :=
  let due := s.fab.routeDue.filter (fun p => p.1 ≠ b)
  { s with fab := { s.fab with routeDue := if s.fab.hubRoutes.contains b == hub then due else due ++ [(b, hub)] } }

/-- A detection on a unit: merged into its run, or a new run in order of detection (R441, R447); a unit that already holds three
transients is classified as lasting by repetition (R449); a ring bridge's run moves its traffic to the hub route (R25). -/
def State.detect (s : State) (cls : Nat) (u : ProveUnit) (region run : Nat) (more : Bool) : State :=
  if s.isFenced u then s
  else if s.faults.runs.any (fun r => r.unit == u && r.region == region) then
    s.setFaults { s.faults with runs := s.faults.runs.map fun r =>
      if r.unit == u && r.region == region then { r with merged := r.merged + 1, more := r.more || (more && r.started.isNone) } else r }
  else
    let r : Run := { unit := u, region := region, run := run, more := more, cls := cls, first := s.now, merged := 0, started := none,
                     beat := 0, repeated := s.transients u ≥ 3, routine := false }
    let s := s.setFaults { s.faults with runs := s.faults.runs ++ [r] }
    match u with
    | .bridge b => if isRing b.val then s.routeChange b.val true else s
    | _ => s

/-- Detections on a bead: the march, the logic test, or both, march first (R445). -/
def State.detectBead (s : State) (cls : Nat) (b : BeadId) (march logic : Bool) : State :=
  s.detect cls (s.beadUnit b) 0 (if march then 1 else 2) (march && logic)

/-- The proving run of a suspect memory address (R220, R441): tile memory, staging, common store or HBM4. -/
def State.suspect (s : State) (a : Nat) : State :=
  match placeOf true a with
  | .tileMem b _ => s.detectBead 0x01 b true false
  | .staging k o => s.detect 0x08 (.stagingBank (Fin.ofNat 24 k) (Fin.ofNat 16 (bits o 12 4))) 0 3 false
  | .hbm k o => s.detect 0x0A (.hbmChannel (Fin.ofNat 24 k) (Fin.ofNat 32 (channelOf o))) (o / 4096) 4 false
  | .cs o => s.detect 0x09 (.csBank (Fin.ofNat 16 (bits o 12 4))) 0 3 false
  | _ => s

/-- PROVE_CFG (R458). -/
def rProveCfg : Nat := 0x60010

/-- The corrected-error limit of a unit (R443, R458). -/
def State.corrLimit (s : State) : ProveUnit → Nat
  | .bead _ _ _ => bits (s.reg rProveCfg) 17 8
  | .csBank _ => bits (s.reg rProveCfg) 25 8
  | .stagingBank _ _ => bits (s.reg rProveCfg) 25 8
  | .hbmChannel _ _ => bits (s.reg rProveCfg) 33 8
  | _ => 0

/-- A corrected error of a unit; at its limit in the window one CORRECTED detection (R443). -/
def State.corrected (s : State) (u : ProveUnit) (region : Nat) : State :=
  let w := s.time.beat / 65536
  let n := match s.faults.corrected.find? (fun t => t.1 == u && t.2.1 == w) with | some t => t.2.2 + 1 | none => 1
  let s := s.setFaults { s.faults with corrected := s.faults.corrected.filter (fun t => t.1 != u) ++ [(u, w, n)] }
  if n = s.corrLimit u then
    match u with
    | .bead _ _ _ => s.detect 0x02 u 0 1 false
    | .hbmChannel _ _ => s.detect 0x02 u region 4 false
    | _ => s.detect 0x02 u 0 3 false
  else s

/-- A corrected word at a memory address (R443); tile memory also counts it (R240). -/
def State.correctedAt (s : State) (a : Nat) : State :=
  match placeOf true a with
  | .tileMem b _ => (s.bump (rFrame b.die.val 0xC8)).corrected (s.beadUnit b) 0
  | .staging k o => s.corrected (.stagingBank (Fin.ofNat 24 k) (Fin.ofNat 16 (bits o 12 4))) 0
  | .hbm k o => s.corrected (.hbmChannel (Fin.ofNat 24 k) (Fin.ofNat 32 (channelOf o))) (o / 4096)
  | .cs o => s.corrected (.csBank (Fin.ofNat 16 (bits o 12 4))) 0
  | _ => s

/-- `n` corrected words from an address on (R443); words of the vault are counted by its controller (R272). -/
def State.correctedWords (s : State) (a n : Nat) : State :=
  if mpaUnit a = 5 then s.bumpBy 0x80000 n else (List.range n).foldl (fun s _ => s.correctedAt a) s

/-- The bank or channel that holds a byte is fenced and accepts no access (R451). -/
def State.bankFenced (s : State) (a : Nat) : Bool :=
  match placeOf true a with
  | .staging k o => bit (s.fenceStack k) (32 + bits o 12 4)
  | .hbm k o => bit (s.fenceStack k) (channelOf o)
  | .cs o => bit s.faults.fenceCs (bits o 12 4)
  | _ => false

/-- Some tile of a range lies in a fenced bank or channel. -/
def State.rangeFenced (s : State) (a n : Nat) : Bool :=
  (List.range ((a + n - 1) / 4096 - a / 4096 + 1)).any fun i => s.bankFenced ((a / 4096 + i) * 4096)

/-! ### Fences (R451, R452) -/

/-- OBJECT of a FENCE record (R460). -/
def objFence (kind sub die stack : Nat) (remap : Bool) : Nat :=
  object 0x05 (kind + sub * 2 ^ 8 + die * 2 ^ 16 + stack * 2 ^ 18 + flag remap * 2 ^ 23)

/-- The FENCE event (R454). -/
def State.fenceEvent (s : State) (kind sub loc : Nat) : State :=
  s.event 0x21 0 loc (leBytes 1 kind ++ leBytes 1 sub ++ leBytes 1 (flag (bit s.faults.status 0)))

/-- DEGRADED with a cause bit, its record, event and alert (R452). -/
def State.degrade (s : State) (cause obj : Nat) : State :=
  let old := s.faults.status
  let new := putBit (putBit old 0 true) cause true
  if new = old then s
  else
    let s := s.setFaults { s.faults with status := new }
    let s := s.hand 12 obj (leBytes 8 old) (leBytes 8 new)
    (s.event 0x22 0 locNone (leBytes 2 new)).alert 0x22

/-- The stored copy of a fence map or a rod map (R113, R451, R512). -/
def State.storeMap (s : State) (off v : Nat) : State :=
  { s with vault := { s.vault with storedFences := putKey s.vault.storedFences off v } }

def State.storeRods (s : State) (d v : Nat) : State :=
  { s with vault := { s.vault with storedRods := setNth s.vault.storedRods d v } }

/-- The rods of second lasting faults, with their stored copy: a fence persists across reset (R114, R451;
notes/assumptions/104.md). -/
def State.setDead (s : State) (l : List (Nat × Nat)) : State :=
  { s with faults := { s.faults with dead := l }, vault := { s.vault with storedDead := l } }

/-- A fence that one bit of a map shows: the record, the stored copy, the event and DEGRADED where `cause` says so (R451, R512). -/
def State.fenceMap (s : State) (kind sub die stack off old new loc : Nat) (cause : Option Nat) : State :=
  let obj := objFence kind sub die stack false
  let s := (s.hand 12 obj (leBytes 8 old) (leBytes 8 new)).storeMap off new
  let degraded := match cause with | some c => putBit (putBit s.faults.status 0 true) c true | none => s.faults.status
  let s := s.event 0x21 0 loc (leBytes 1 kind ++ leBytes 1 sub ++ leBytes 1 (flag (bit degraded 0)))
  match cause with | some c => s.degrade c obj | none => s

/-- The plane condition of R451: a fenced port carries a logical plane, and T8 is fenced or already carries one (R295). -/
def State.planesLost (s : State) : Bool :=
  (List.range 8).any (fun k => bit s.faults.fencePort k && s.fab.spareMap ≠ k) &&
    (bit s.faults.fencePort 8 || s.fab.spareMap ≠ 0xF)

def State.fenceBridge (s : State) (b : Nat) : State :=
  let old := s.faults.fenceBridge
  let new := putBit old b true
  let s := s.setFaults { s.faults with fenceBridge := new }
  let s := if isRing b then s.routeChange b true else s
  let cause := if !(isRing b) then some 2 else if ((List.range 4).filter (fun i => bit new (4 + i))).length ≥ 2 then some 3 else none
  s.fenceMap 2 b (b % 4) 31 0x10020 old new (locDie (b % 4)) cause

def State.fencePort (s : State) (k : Nat) : State :=
  let old := s.faults.fencePort
  let new := putBit old k true
  let s := s.setFaults { s.faults with fencePort := new }
  let p := s.port k
  let s := s.setPort k { p with st := .down, replay := [], proving := false, delayRun := none }
  s.fenceMap 3 k 0 31 0x10030 old new (locOf 0 0 0 31 k) (if s.planesLost then some 6 else none)

def State.fenceChannel (s : State) (k c : Nat) : State :=
  let old := s.fenceStack k
  let new := putBit old c true
  let s := s.setFaults { s.faults with fenceStack := putKey s.faults.fenceStack k new }
  s.fenceMap 4 c (k / 6) k (0x10100 + 8 * k) old new (locOf (k / 6) 0 0 k 15) (some 4)

def State.fenceStaging (s : State) (k b : Nat) : State :=
  let old := s.fenceStack k
  let new := putBit old (32 + b) true
  let s := s.setFaults { s.faults with fenceStack := putKey s.faults.fenceStack k new }
  s.fenceMap 5 b (k / 6) k (0x10100 + 8 * k) old new (locOf (k / 6) 0 0 k 15) (some 5)

def State.fenceCsBank (s : State) (b : Nat) : State :=
  let old := s.faults.fenceCs
  let new := putBit old b true
  let s := s.setFaults { s.faults with fenceCs := new }
  s.fenceMap 6 b 0 31 0x10028 old new locNone (some 5)

/-- A run abandoned (R447): reported with RESULT 2. -/
def State.abandon (s : State) (r : Run) : State :=
  let s := s.setFaults { s.faults with runs := s.faults.runs.filter (fun x => x != r) }
  (s.bump 0x60050).proveEvent r 2 0

/-- Every queued and running run abandoned, at a reset, standby or orderly halt (R447). -/
def State.abandonAll (s : State) : State := s.faults.runs.foldl State.abandon s

/-- The fence of a physical rod (R112, R113): its contexts and their configurations, with those being restored onto it, the record, and
what the frame does next. -/
def State.fenceRod (s : State) (d p : Nat) : State :=
  let onRod := s.arr.ctxs.filter (fun c => c.valid && c.id.bead.die.val == d && s.rodPhys d c.id.bead.rod.val == p)
  let coming := s.serve.cfgs.filter fun c => c.restoring && c.map.any fun m => m.1.die.val == d && s.rodPhys d m.1.rod.val == p
  let cfgs := (onRod.map (·.config) ++ coming.map (·.num)).eraseDups
  let s := cfgs.foldl (fun s n => (s.failConfig n stROD_FENCED).dropConfig n) s
  let runs := s.faults.runs.filter fun r => match r.unit with | .bead d' p' _ => d'.val == d && p'.val == p | _ => false
  let s := runs.foldl (fun s r => s.abandon r) s
  let old := s.rodMap d
  let hurt := s.frameHurt d
  let new := if hurt then putBit old 9 true else if p = 32 then putBit old 8 true else putBit old 6 true
  let s := s.setReg (rFrame d 0) new
  let obj := objFence 1 p d 31 false
  let s := (s.hand 12 obj (leBytes 8 old) (leBytes 8 new)).storeRods d new
  let s := if hurt then s.setDead (s.faults.dead ++ [(d, p)])
    else if p = 32 then s
    else s.setFaults { s.faults with remaps := s.faults.remaps ++ [(d, p)] }
  let s := s.event 0x21 0 (locOf d p 0 31 15) (leBytes 1 1 ++ leBytes 1 p ++ leBytes 1 (flag (hurt || bit s.faults.status 0)))
  if hurt then s.degrade 1 obj else s

/-- A lasting fault fences its unit (R451). -/
def State.fence (s : State) (u : ProveUnit) : State :=
  match u with
  | .bead d p _ => s.fenceRod d.val p.val
  | .csBank b => s.fenceCsBank b.val
  | .stagingBank k b => s.fenceStaging k.val b.val
  | .hbmChannel k c => s.fenceChannel k.val c.val
  | .bridge b => s.fenceBridge b.val
  | .port k => s.fencePort k.val

/-! ### Runs (R445 to R450) -/

/-- A unit is a bead of a frame. -/
def ProveUnit.onFrame (d : Fin 4) : ProveUnit → Bool
  | .bead d' _ _ => d' == d
  | _ => false

/-- The beads of a frame that are PROVING (R445): at most four, in the order of their detection; the requests behind them queue
(R447). -/
def State.provingBeads (s : State) (d : Fin 4) : List ProveUnit :=
  (((s.faults.runs.map (·.unit)).filter (ProveUnit.onFrame d)).eraseDups).take 4

/-- A bead is PROVING and holds no valid context (R445, R447). -/
def State.mayStart (s : State) (u : ProveUnit) : Bool :=
  match u with
  | .bead d p b => (s.ctxsOn d.val p.val b.val).isEmpty && (s.provingBeads d).contains u
  | .bridge b => !(isRing b.val) || (s.fab.hubRoutes.contains b.val && !(s.onBridge b.val))
  | .port k => (s.port k.val).proving
  | _ => true

/-- A queued run starts (R445 to R447). -/
def State.startRun (s : State) (u : ProveUnit) : State :=
  if s.mayStart u && s.faults.runs.all (fun r => r.unit != u || r.started.isNone) then
    match s.faults.runs.find? (fun r => r.unit == u) with
    | none => s
    | some r =>
      let r' := { r with started := some s.time.clk, beat := s.time.beat }
      s.setFaults { s.faults with runs := s.faults.runs.map (fun x => if x == r then r' else x) }
  else s

def execProvingRunStart (u : ProveUnit) (s : State) : Res := .next (s.startRun u)

/-- A transient counted (R448, R449). -/
def State.countTransient (s : State) (u : ProveUnit) : State :=
  let n := s.transients u + 1
  let ts := s.faults.transients.filter (fun t => t.1 != u) ++ [(u, s.time.beat / 1048576, n)]
  (s.bump 0x60060).setFaults { s.faults with transients := ts }

/-- The run is over: it leaves the list; a tested bead's tile memory and directory stand as at reset (R222, R445). -/
def State.closeRun (s : State) (r : Run) : State :=
  let s := s.setFaults { s.faults with runs := s.faults.runs.filter (fun x => x != r) }
  match r.unit with
  | .bead d p b =>
    let s := s.setFaults { s.faults with tests := s.faults.tests.filter (fun t => t.1 != r.unit) ++ [(r.unit, s.time.clk)] }
    if r.run = 1 || r.more then
      match s.rodOn d.val p.val with
      | some l =>
        let id : BeadId := ⟨d, l, b⟩
        let s := s.zeroAt (mpaTile id 0) 0x200000
        { s with arr := { s.arr with beads := s.arr.beads.map (fun x => if x.id == id then { x with dir := [] } else x) } }
      | none =>
        let s := s.zeroAt (mpaSpare d.val b.val) 0x200000
        { s with arr := { s.arr with spare := s.arr.spare.filter fun x => !(x.id.die == d && x.id.bead == b) } }
    else s
  | _ => s

/-- A port's RETRAIN and run have ended well: ADMITTED again (R446). -/
def State.admitPort (s : State) (k : Nat) : State :=
  let p := s.port k
  s.setPort k { p with st := .admitted, proving := false, equalizing := false, naks := 0, tries := 0 }

/-- What a pass restores: a ring bridge's route at the next boundary, a port's admission (R25, R446). -/
def State.afterPass (s : State) (u : ProveUnit) : State :=
  match u with
  | .bridge b => if isRing b.val then s.routeChange b.val false else s
  | .port k => s.admitPort k.val
  | _ => s

/-- HBM rows made permanent from spares (R450); each writes a record. -/
def State.repairRows (s : State) (k c n : Nat) : State :=
  let used := s.spareRows k c + n
  let s := s.setFaults { s.faults with
    spareUsed := s.faults.spareUsed.filter (fun t => !(t.1 == k && t.2.1 == c)) ++ [(k, c, used)] }
  let v := leBytes 8 (s.fenceStack k)
  (List.range n).foldl (fun s _ => s.hand 12 (objFence 4 c (k / 6) k false) v v) (s.bumpBy 0x60038 n)

/-- Classification of a run's result (R448 to R450). Of failing HBM rows, those that find a spare row are repaired; the channel is
fenced where one finds none, or where a spare row in use has failed. -/
def State.classify (s : State) (r : Run) (pass : Bool) (rows : Nat) : State :=
  let s := s.bump (if pass then 0x60040 else 0x60048)
  let s0 := s.closeRun r
  let result := flag (!pass)
  match r.unit with
  | .hbmChannel k c =>
    let left := 32 - s.spareRows k.val c.val
    let s0 := if !pass && 0 < rows then s0.repairRows k.val c.val (min rows left) else s0
    if !pass && 0 < rows && rows ≤ left then s0.proveEvent r result 2
    else if r.repeated then (s0.proveEvent r result 3).fence r.unit
    else if pass then (s0.countTransient r.unit).proveEvent r result 0
    else (s0.proveEvent r result 1).fence r.unit
  | u =>
    if r.repeated && !r.routine then (s0.proveEvent r result 3).fence u
    else if !pass then (s0.proveEvent r result 1).fence u
    else if r.routine then s0.proveEvent r result 0
    else ((s0.countTransient u).afterPass u).proveEvent r result 0

/-- A run ends (R445, R448): a march that passes is followed by the logic test where both were asked. A port's failing run gives its
failing lanes in place of rows (R301). -/
def State.endRun (s : State) (u : ProveUnit) (pass : Bool) (rows : Nat) : State :=
  match s.faults.runs.find? (fun r => r.unit == u && r.started.isSome) with
  | none => s
  | some r =>
    if r.run = 1 && r.more && pass then
      s.setFaults { s.faults with runs := s.faults.runs.map (fun x => if x == r then { r with run := 2 } else x) }
    else
      let s := match u with
        | .port k => if pass then s else s.setPort k.val { s.port k.val with laneFail := rows % 256 }
        | _ => s
      s.classify r pass rows

/-- An SRAM run that has not ended in 65,536 beats is abandoned, and its unit classified as failing (R447). -/
def State.runTimeout (s : State) (u : ProveUnit) : State :=
  match s.faults.runs.find? (fun r => r.unit == u && r.started.isSome && r.run == 3) with
  | none => s
  | some r =>
    if r.beat + 65536 ≤ s.time.beat then
      let s := s.setFaults { s.faults with runs := s.faults.runs.filter (fun x => x != r) }
      ((s.bump 0x60050).proveEvent r 2 1).fence u
    else s

def execProvingRunTimeout (u : ProveUnit) (s : State) : Res := .next (s.watched (·.runTimeout u))

/-- Every bead unit of a frame, in physical order (R453). -/
def beadsOf (d : Fin 4) : List ProveUnit :=
  (List.finRange 33).flatMap fun p => (List.finRange 16).map fun b => ProveUnit.bead d p b

/-- clk of a bead's last logic test; 0 before the first. -/
def State.lastTest (s : State) (u : ProveUnit) : Nat :=
  match s.faults.tests.find? (fun t => t.1 == u) with | some t => t.2 | none => 0

/-- The bead that routine proving takes: longest without a test, in physical order, not fenced, without a valid context (R453). -/
def State.routinePick (s : State) (d : Fin 4) : Option ProveUnit :=
  (beadsOf d).foldl (fun best u =>
    let ok := match u with
      | .bead _ p b => !(s.isFenced u) && (s.ctxsOn d.val p.val b.val).isEmpty && s.faults.runs.all (fun r => r.unit != u)
      | _ => false
    if !ok then best
    else match best with
      | none => some u
      | some v => if s.lastTest u < s.lastTest v then some u else some v) none

/-- ROUTINE_PERIOD beats have passed since the frame's last period began; the first begins ROUTINE_PERIOD beats after beat 0
(DESIGN CHOICE, notes/assumptions/63.md). -/
def State.routineDue (s : State) (d : Fin 4) : Bool :=
  (findKey s.faults.routineAt d.val).getD 0 + bits (s.reg rProveCfg) 1 16 ≤ s.time.beat

/-- A routine bead logic test, one for each period (R453). It makes its bead PROVING, so a frame with four such beads starts none
(R447). -/
def State.routine (s : State) (d : Fin 4) : State :=
  if !(bit (s.reg rProveCfg) 0 && s.routineDue d) then s
  else
    let s := s.setFaults { s.faults with routineAt := putKey s.faults.routineAt d.val s.time.beat }
    match (if (s.provingBeads d).length < 4 then s.routinePick d else none) with
    | none => s
    | some u =>
      let r : Run := { unit := u, region := 0, run := 2, more := false, cls := 0, first := s.now, merged := 0,
                       started := some s.time.clk, beat := s.time.beat, repeated := false, routine := true }
      s.setFaults { s.faults with runs := s.faults.runs ++ [r] }

def execRoutineProving (die : Fin 4) (s : State) : Res := .next (s.routine die)

/-! ### Register writes of the block (R115, R298, R456) -/

/-- The run and unit that PROVE_REQUEST names; none for a run or a unit out of range (R456). A stack of 24 or more names the
common store. -/
def proveTarget (v : Nat) : Option (Nat × ProveUnit) :=
  let run := bits v 0 3
  let stack := bits v 15 5
  let sub := bits v 20 5
  let pb := bits v 25 4
  if run = 1 || run = 2 then
    if bits v 5 6 ≤ 32 then some (run, .bead (Fin.ofNat 4 (bits v 3 2)) (Fin.ofNat 33 (bits v 5 6)) (Fin.ofNat 16 (bits v 11 4)))
    else none
  else if run = 3 then
    if sub < 16 then
      some (run, if stack < 24 then .stagingBank (Fin.ofNat 24 stack) (Fin.ofNat 16 sub) else .csBank (Fin.ofNat 16 sub))
    else none
  else if run = 4 then
    if stack < 24 then some (run, .hbmChannel (Fin.ofNat 24 stack) (Fin.ofNat 32 sub)) else none
  else if run = 5 then (if pb < 8 then some (run, .bridge (Fin.ofNat 8 pb)) else none)
  else if run = 6 then (if pb < 9 then some (run, .port (Fin.ofNat 9 pb)) else none)
  else none

/-- The class a requested run carries: the first class of R441 with that run and unit. -/
def proveClass : ProveUnit → Nat → Nat
  | .bead _ _ _, 1 => 0x01
  | .bead _ _ _, _ => 0x03
  | .stagingBank _ _, _ => 0x08
  | .csBank _, _ => 0x09
  | .hbmChannel _ _, _ => 0x0A
  | .bridge _, _ => 0x0B
  | .port _, _ => 0x0C

/-- A port's link error (R281): RETRAIN with its replay buffer held, which begins with ALIGN and its TRAIN set (R287), and the proving run
of the port. -/
def State.linkError (s : State) (k : Fin 9) : State :=
  if bit s.faults.fencePort k.val then s
  else
    let p := s.port k.val
    let s := s.setPort k.val { p with st := .retrain, equalizing := false, measured := false, proving := false, trainSeen := false,
                                      delayRun := none, naks := 0 }
    (s.emit (.train k.val s.fab.moduleNo PortSt.retrain.code)).detect 0x0C (.port k) 0 6 false

/-- PROVE_REQUEST (R456): as if an error had been detected. -/
def State.writeProveRequest (s : State) (v : Nat) : State :=
  match proveTarget v with
  | none => s
  | some (_, .port k) => if (s.port k.val).st == .admitted then s.linkError k else s.detect 0x0C (.port k) 0 6 false
  | some (run, u) => s.detect (proveClass u run) u 0 run false

/-- FAULT_CLEAR (R456): DEGRADED and every bridge, channel and bank fence with their stored copies; a frame's or the planes' cause
bit stays while its condition does. A ring bridge that is no longer fenced has its traffic back from the next boundary, with the
record of R25 (DESIGN CHOICE, notes/assumptions/105.md: R25 names three causes of a route change and this is none of them). -/
def State.writeFaultClear (s : State) (v : Nat) : State :=
  if !(bit v 0) then s
  else
    let rings := (List.range 8).filter (fun b => isRing b && bit s.faults.fenceBridge b)
    let frame := (List.range 4).any (fun d => bit (s.rodMap d) 9)
    let status := flag frame * 2 + flag s.planesLost * 64
    let s := s.setFaults { s.faults with status := status, fenceBridge := 0, fenceCs := 0, fenceStack := [] }
    let s := { s with vault := { s.vault with storedFences := s.vault.storedFences.filter (fun p => p.1 == 0x10030) } }
    rings.foldl (fun s b => s.routeChange b false) s

/-- FENCE_CLEAR of a frame (R115). -/
def State.writeFenceClear (s : State) (d v : Nat) : State :=
  if !(bit v 0) then s
  else
    let s := if bit (s.rodMap d) 7 then s.unmapRod d (bits (s.rodMap d) 0 6) else s
    let s := ((s.setReg (rFrame d 0) 0x3F).storeRods d 0x3F).setDead (s.faults.dead.filter (fun p => p.1 ≠ d))
    s.setFaults { s.faults with remaps := s.faults.remaps.filter (fun p => p.1 ≠ d) }

/-- No context of the frame is valid (R115). -/
def State.frameEmpty (s : State) (d : Nat) : Bool := s.arr.ctxs.all (fun c => !(c.valid && c.id.bead.die.val == d))

/-- PORT_FENCE_CLEAR (R298). -/
def State.writePortFenceClear (s : State) (k v : Nat) : State :=
  if !(bit v 0) then s
  else
    let m := putBit s.faults.fencePort k false
    (s.setFaults { s.faults with fencePort := m }).storeMap 0x10030 m

/-! ### Bridges (R23, R24) -/

/-- A bridge unit is replayed; more than 16 replays of one unit raise a bridge error (R23, R24). No table lists the bridge's replay
counter: it saturates at 0xFFFF_FFFF as the other counters do, and after a bridge error the count of consecutive replays starts
again at 0 (DESIGN CHOICE, notes/assumptions/106.md). -/
def State.bridgeReplay (s : State) (b : Fin 8) (same : Bool) : State :=
  let n := if same then (findKey s.fab.bridgeRuns b.val).getD 0 + 1 else 1
  let c := min ((findKey s.fab.bridgeReplays b.val).getD 0 + 1) 0xFFFFFFFF
  let s := { s with fab := { s.fab with bridgeRuns := putKey s.fab.bridgeRuns b.val (if n > 16 then 0 else n),
                                        bridgeReplays := putKey s.fab.bridgeReplays b.val c } }
  if n > 16 then s.detect 0x0B (.bridge b) 0 5 false else s

def execBridgeUnitReplay (bridge : Fin 8) (sameUnit : Bool) (s : State) : Res := .next (s.bridgeReplay bridge sameUnit)

end Sys2Proof.Machine
end

