-- ==== Sys2Proof/Machine/Fec.lean ====
section
/-! DEFINITION. A flit as it comes from the lanes: the two Reed-Solomon codes, the CRC-32C and the link header (10 R275 to R277). -/
namespace Sys2Proof.Machine

/-! ### GF(2^8) with x^8 + x^4 + x^3 + x^2 + 1 (R276) -/

/-- A field element times α. -/
def gfShift (a : Nat) : Nat := if a < 128 then 2 * a else (2 * a) ^^^ 0x11D

/-- Terms of a product: `a` times the low `n` bits of `b`. -/
def gfTerms : Nat → Nat → Nat → Nat
  | 0, _, _ => 0
  | n + 1, a, b => (if b % 2 = 1 then a else 0) ^^^ gfTerms n (gfShift a) (b / 2)

/-- The product of two field elements. -/
def gf (a b : Nat) : Nat := gfTerms 8 a b

/-- A power of a field element. -/
def gfPow (a : Nat) : Nat → Nat
  | 0 => 1
  | n + 1 => gf a (gfPow a n)

/-- α^n, any n; α has order 255. -/
def gfAlpha (n : Nat) : Nat := gfPow 2 (n % 255)

/-- The inverse of a nonzero element. -/
def gfInv (a : Nat) : Nat := gfPow a 254

/-- A polynomial, lowest coefficient first, at a point. -/
def gfAt (p : List Nat) (x : Nat) : Nat := p.foldr (fun c v => c ^^^ gf v x) 0

/-- Sum of two polynomials. -/
def gfAdd : List Nat → List Nat → List Nat
  | [], q => q
  | p, [] => p
  | a :: p, b :: q => (a ^^^ b) :: gfAdd p q

/-- Product of two polynomials. -/
def gfMulPoly : List Nat → List Nat → List Nat
  | [], _ => []
  | a :: p, q => gfAdd (q.map (gf a)) (0 :: gfMulPoly p q)

/-! ### A codeword of RS(128, 118) (R276)

The first byte of a codeword is the coefficient of x^127 and the last parity byte that of x^0 (PRESUMED, notes/assumptions/8.md). -/

/-- The ten values of a received word at the generator's roots α^0 to α^9. -/
def syndromes (w : List Nat) : List Nat :=
  (List.range 10).map fun j => w.foldl (fun v b => gf v (gfAlpha j) ^^^ b) 0

/-- The search for the shortest recurrence of the syndromes: the error locator, the one it had before its last change of length, its
length, the discrepancy then, and the steps since. -/
structure Locator where
  cur  : List Nat
  old  : List Nat
  len  : Nat
  disc : Nat
  gap  : Nat
  deriving DecidableEq, Repr

/-- One syndrome taken into the recurrence. -/
def Locator.step (s : List Nat) (l : Locator) (n : Nat) : Locator :=
  let d := (List.range (l.len + 1)).foldl (fun v i => v ^^^ gf (nth 0 l.cur i) (nth 0 s (n - i))) 0
  if d = 0 then { l with gap := l.gap + 1 }
  else
    let next := gfAdd l.cur (List.replicate l.gap 0 ++ l.old.map (gf (gf d (gfInv l.disc))))
    if 2 * l.len ≤ n then ⟨next, l.cur, n + 1 - l.len, d, 1⟩ else { l with cur := next, gap := l.gap + 1 }

/-- The error locator of ten syndromes, with its degree. -/
def errorLocator (s : List Nat) : Locator := (List.range 10).foldl (Locator.step s) ⟨[1], [1], 0, 1, 1⟩

/-- The value of the error at the coefficient of x^p, from the evaluator and the odd terms of the locator. -/
def errorValue (s : List Nat) (loc : List Nat) (p : Nat) : Nat :=
  let x := gfAlpha p
  let inv := gfAlpha (255 - p)
  let om := (gfMulPoly s loc).take 10
  let odd := (List.range loc.length).map fun i => if i % 2 = 0 then nth 0 loc (i + 1) else 0
  gf x (gf (gfAt om inv) (gfInv (gfAt odd inv)))

/-- A codeword corrected: none where more than five bytes are wrong. -/
def fecWord (w : List Nat) : Option (List Nat) :=
  let s := syndromes w
  if s.all (· == 0) then some w
  else
    let l := errorLocator s
    let at_ := (List.range 128).filter fun p => gfAt l.cur (gfAlpha (255 - p)) == 0
    let fixed := at_.foldl (fun w p => modNth w (127 - p) (· ^^^ errorValue s l.cur p)) w
    if l.len ≤ 5 && at_.length = l.len && (syndromes fixed).all (· == 0) then some fixed else none

/-- Every second byte from byte `k` on. -/
def everySecond (k : Nat) (bs : List Byte) : List Nat := (List.range 128).map fun i => (nth 0 bs (2 * i + k)).toNat

/-- Two codewords put back together. -/
def interleave : List Nat → List Nat → List Byte
  | a :: as, b :: bs => BitVec.ofNat 8 a :: BitVec.ofNat 8 b :: interleave as bs
  | _, _ => []

/-- A flit with its errors corrected; none where one of its codewords has too many. -/
def fecFlit (bs : List Byte) : Option (List Byte) :=
  match fecWord (everySecond 0 bs), fecWord (everySecond 1 bs) with
  | some a, some b => some (interleave a b)
  | _, _ => none

/-! ### The flit (R275, R277) -/

/-- What the link layer reads of a flit: its link header. -/
structure Flit where
  ftype     : Nat
  vc        : Nat
  seq       : Nat
  ackSeq    : Nat
  ackValid  : Bool
  nak       : Bool
  credVc    : Nat
  credCount : Nat
  osKind    : Nat
  som       : Bool
  eom       : Bool
  deriving DecidableEq, Repr

/-- The link header's fields (R277). -/
def headerFlit (bs : List Byte) : Flit :=
  let h := field bs 0 8
  { ftype := bits h 0 2, vc := bits h 2 2, seq := bits h 4 12, ackSeq := bits h 16 12, ackValid := bit h 28, nak := bit h 29,
    credVc := bits h 30 2, credCount := bits h 32 10, osKind := bits h 42 4, som := bit h 46, eom := bit h 47 }

/-- A flit after FEC and CRC-32C (R276), and whether bytes of it were corrected; none where it fails either. -/
def readFlit (raw : List Byte) : Option (Flit × Bool) :=
  match fecFlit raw with
  | none => none
  | some bs => if crc32c (bs.take 232) = field bs 232 4 then some (headerFlit bs, bs != raw) else none

end Sys2Proof.Machine
end

