-- ==== Sys2Proof/Machine/Thaxa.lean ====
section
/-! DEFINITION. The Thaxa ports: link layer, training, delay measurement, admission, ingress checks, planes and the messages the
module sends (10_thaxa_links_and_topology, R273 to R301; R331). -/
namespace Sys2Proof.Machine

/-- The fabric changed. -/
def State.setFab (s : State) (f : Fabric) : State := { s with fab := f }

/-! ### Planes and sending (R273, R291, R292, R303) -/

/-- The port that carries a logical plane (R273). -/
def State.planePort (s : State) (l : Nat) : Nat := if s.fab.spareMap = l then 8 else l

/-- The plane of a unicast request that names an offset (R291): offset[14:12] xor the destination's column. -/
def planeOf (off dest : Nat) : Nat := bits off 12 3 ^^^ bits dest 3 3

/-- Own node number of a unit (R30, R288). -/
def State.node (s : State) (unit : Nat) : Nat := s.fab.moduleNo * 8 + unit

/-- A message with everything but its port, source and partition at zero. -/
def Msg.blank : Msg :=
  { port := 0, vc := 0, dest := 0, src := 0, part := 0, fm := false, mcast := false, opt := 0, status := 0, tag := 0, offset := 0,
    length := 0, seq := 0, aux := 0, payload := [] }

/-- LENGTH as sent: the payload's, or the bytes wanted where there is none (R302, R303). -/
def sentLength (m : Msg) : Word32 := if m.payload.isEmpty then m.length else BitVec.ofNat 32 m.payload.length

/-- A message leaves on a port (R288, R292, R293): PART is the own partition and FM zero. While the module is not admitted only a
reply to the fabric manager leaves. A port that is neither ADMITTED nor in RETRAIN takes none, and the message is counted in
MISROUTE_COUNT (notes/assumptions/21.md). -/
def State.sendOn (s : State) (port kind : Nat) (toFm : Bool) (m : Msg) : State :=
  if !(s.fab.admitted || toFm) then s
  else
    let st := (s.port port).st
    if st == .admitted || st == .retrain then
      s.emit (.msg kind { m with port := Fin.ofNat 9 port, part := BitVec.ofNat 4 s.fab.part, fm := false,
                                 length := sentLength m })
    else s.bump 0x30030

/-- The destination is a node of this module: the local route of R22, which enters no port (R311). -/
def State.isOwn (s : State) (dest : BitVec 14) : Bool := s.fab.coordValid && dest.toNat / 8 = s.fab.moduleNo

/-- A message that takes the local route. -/
def State.sendLocal (s : State) (kind : Nat) (m : Msg) : State :=
  s.emit (.msg kind { m with part := BitVec.ofNat 4 s.fab.part, fm := false, length := sentLength m })

/-- A unicast request or collective message to a destination at an offset (R291). -/
def State.sendTo (s : State) (kind : Nat) (m : Msg) : State :=
  if s.isOwn m.dest then s.sendLocal kind m else s.sendOn (s.planePort (planeOf m.offset.toNat m.dest.toNat)) kind false m

/-- A control message on VC 3: logical plane 0 (R291). -/
def State.sendControl (s : State) (kind : Nat) (toFm : Bool) (m : Msg) : State :=
  if !m.mcast && s.isOwn m.dest then s.sendLocal kind { m with vc := 3 } else s.sendOn (s.planePort 0) kind toFm { m with vc := 3 }

/-- The response to a message, on the plane it came in on (R291, R303): its KIND with bit 7 set, on VC 2, or VC 3 to the fabric
manager. -/
def State.respond (s : State) (kind : Nat) (m : Msg) (status : Nat) (payload : List Byte) : State :=
  let r := { Msg.blank with vc := if m.fm then 3 else 2, dest := m.src, src := m.dest, status := BitVec.ofNat 16 status, tag := m.tag,
                            offset := m.offset, payload := payload }
  if !m.fm && s.isOwn m.src then s.sendLocal (kind + 0x80) r else s.sendOn m.port.val (kind + 0x80) m.fm r

/-- A NOTICE to the fabric manager (R303): 16 bytes that name the issuer or collective, then the stamp. -/
def State.notice (s : State) (type aux : Nat) (toFm : Bool) (who : List Byte) : State :=
  s.sendControl 0x38 toFm { Msg.blank with dest := Config.fmNode, src := BitVec.ofNat 14 (s.node 4), opt := BitVec.ofNat 16 type,
                                           aux := BitVec.ofNat 32 aux, payload := fit 16 who ++ s.fullStamp }

/-! ### Ingress (R288, R293, R294, R303) -/

/-- Kinds that only the fabric manager may send (R303). -/
def fmOnly (kind : Nat) : Bool := 0x30 ≤ kind && kind ≤ 0x34

/-- The partition check failed: counted, and one event and one alert per beat at most (R294). -/
def State.partitionDeny (s : State) (m : Msg) : State :=
  let s := s.bump 0x30038
  if s.fab.denied = s.time.beat + 1 then s
  else
    let s := s.setFab { s.fab with denied := s.time.beat + 1 }
    (s.event 0x18 0 (locOf 0 0 0 31 m.port.val) (leBytes 2 m.src.toNat ++ leBytes 1 m.part.toNat)).alert 0x18

/-- The checks of R294 and R303 on a message, and what the delivered message does. Only an ADMITTED port accepts one, or the local route. -/
def State.deliver (s : State) (kind : Nat) (m : Msg) (act : State → State) : State :=
  if (s.port m.port.val).st != .admitted && !(s.isOwn m.src) then s
  else if !m.mcast && (!s.fab.coordValid || m.dest.toNat / 8 ≠ s.fab.moduleNo) then s.bump 0x30030
  else if !m.fm && m.part.toNat ≠ s.fab.part then s.partitionDeny m
  else if !s.fab.admitted && !(m.fm && m.vc == 3) then s.bump 0x30040
  else if fmOnly kind && !m.fm then s.bump 0x30040
  else act s

/-! ### The transmitter (R278, R280, R281) -/

/-- Flits acknowledged up to ACK_SEQ leave the replay buffer. -/
def acked (replay : List Nat) (seq : Nat) : List Nat :=
  if replay.contains seq then (replay.dropWhile (· ≠ seq)).drop 1 else replay

/-- Every unacknowledged flit resent in order (R280). -/
def State.resendAll (s : State) (k : Nat) : State := s.emits ((s.port k).replay.map (Out.resend k))

/-- A NAK (R280, R281): ACK_SEQ acknowledges what it covers, the rest is resent; the seventeenth in a row for one flit raises a
link error. -/
def State.nakIn (s : State) (k : Fin 9) (seq : Nat) : State :=
  let p := s.port k.val
  if p.st != .admitted then s
  else
    let s := s.bump (rPort k.val 0x28)
    let flit := (seq + 1) % 4096
    let n := if p.naks > 0 && p.nakFlit = flit then p.naks + 1 else 1
    let s := s.setPort k.val { p with replay := acked p.replay seq, naks := n, nakFlit := flit }
    if n > 16 then s.linkError k else s.resendAll k.val

def execLinkNakReceive (port : Fin 9) (ackSeq : BitVec 12) (s : State) : Res := .next (s.nakIn port ackSeq.toNat)

/-! ### The receiver (R276 to R280, R331) -/

/-- An acknowledgement or a NAK sent: ACK_SEQ is the last SEQ received in order. -/
def State.sendAck (s : State) (k : Nat) (nak : Bool) : State :=
  let p := s.port k
  let s := s.setPort k { p with sinceAck := 0, nakPending := p.nakPending || nak }
  (s.bumpIf nak (rPort k 0x28)).emit (.ack k ((p.expectSeq + 4095) % 4096) nak)

/-- At least one acknowledgement every 64 ticks (R280). -/
def State.ackDue (s : State) (k : Nat) : State := if (s.port k).st == .admitted then s.sendAck k false else s

def execAckTimer (port : Fin 9) (s : State) : Res := .next (s.ackDue port.val)

/-- Credits and acknowledgements that a good flit's header carries (R277). -/
def State.headerIn (s : State) (k : Nat) (f : Flit) : State :=
  let p := s.port k
  s.setPort k { p with
    credits := modNth p.credits f.credVc (· + f.credCount),
    replay := if f.ackValid then acked p.replay f.ackSeq else p.replay,
    naks := if f.ackValid && p.replay.contains f.ackSeq then 0 else p.naks }

/-- Flits leave the buffer of a VC: its credits go back (R278). -/
def State.returnCredits (s : State) (k vc n : Nat) : State :=
  let p := s.port k
  (s.setPort k { p with buffered := modNth p.buffered vc (· - n), incomplete := setNth p.incomplete vc 0 }).emit
    (.creditRet k vc n)

/-- A DATA flit in order (R278, R280, R331): a new first flit discards an incomplete message; the last flit completes one. -/
def State.dataIn (s : State) (k : Nat) (f : Flit) : State :=
  let vc := f.vc
  let stale := nth 0 (s.port k).incomplete vc
  let s := if f.som && stale ≠ 0 then (s.returnCredits k vc stale).bump 0x50070 else s
  let p := s.port k
  let s := s.setPort k { p with
    expectSeq := (p.expectSeq + 1) % 4096, nakPending := false, sinceAck := p.sinceAck + 1,
    buffered := modNth p.buffered vc (· + 1), incomplete := modNth p.incomplete vc (· + 1) }
  let s := if f.eom then s.returnCredits k vc (nth 0 (s.port k).incomplete vc) else s
  if (s.port k).sinceAck ≥ 32 then s.sendAck k false else s

/-- Ordered sets of a listed kind (R282). -/
def osListed (kind : Nat) : Bool := 1 ≤ kind && kind ≤ 5

/-- A good flit (R277, R280, R282): what its header carries, then the flit itself. -/
def State.flitGood (s : State) (k : Fin 9) (f : Flit) (corrected : Bool) : State :=
  let s := (s.bumpIf corrected (rPort k.val 0x18)).headerIn k.val f
  let s := if f.nak then s.nakIn k f.ackSeq else s
  if f.ftype = 1 then
    if f.seq = (s.port k.val).expectSeq then s.dataIn k.val f
    else if (s.port k.val).nakPending then s
    else s.sendAck k.val true
  else s.bumpIf (f.ftype == 2 && !(osListed f.osKind)) (rPort k.val 0x30)

/-- A flit that fails FEC or CRC is discarded (R276, R280, R282): a DATA flit brings a NAK, an ordered set is lost and counted. Its type is
the one its header shows as received (DESIGN CHOICE, notes/assumptions/119.md). -/
def State.flitBad (s : State) (k ftype : Nat) : State :=
  let s := s.bump (rPort k 0x20)
  if ftype = 1 then s.sendAck k true else s.bumpIf (ftype == 2) (rPort k 0x30)

/-- A flit arrives (R276). -/
def State.flitIn (s : State) (k : Fin 9) (raw : List Byte) : State :=
  if (s.port k.val).st != .admitted then s
  else
    match readFlit raw with
    | some (f, corrected) => s.flitGood k f corrected
    | none => s.flitBad k.val (headerFlit raw).ftype

def execFlitReceive (port : Fin 9) (raw : List Byte) (s : State) : Res := .next (s.flitIn port raw)

/-- Loss of FEC codeword alignment on any lane (R281). -/
def State.alignLost (s : State) (k : Fin 9) : State := if (s.port k.val).st == .admitted then s.linkError k else s

def execFecAlignmentLoss (port : Fin 9) (lane : Fin 8) (s : State) : Res :=
  let _ := lane
  .next (s.alignLost port)

/-! ### Delay measurement (R283, R284) -/

/-- A port that may measure its delay. -/
def State.measures (s : State) (k : Nat) : Bool :=
  let st := (s.port k).st
  st == .delay || st == .admitted || st == .retrain

/-- A DELAY_REQ sent with its transmit stamp. -/
def State.askDelay (s : State) (k : Nat) (r : DelayRun) : State :=
  let p := s.port k
  (s.setPort k { p with delayRun := some { r with t1 := some s.time.clk, attempts := r.attempts + 1, last := s.time.clk } }).emit
    (.delayReq k s.time.clk)

/-- A measurement of 16 exchanges begins; one under way goes on. -/
def State.measure (s : State) (k : Nat) : State :=
  if s.measures k && (s.port k).delayRun.isNone then s.askDelay k ⟨none, [], 0, 0⟩ else s

def execDelayMeasurement (port : Fin 9) (s : State) : Res := .next (s.measure port.val)

/-- The next exchange, or the repeat of one without a response: 1,024 ticks after the last; 64 attempts without a valid response
raise a link error. -/
def State.exchange (s : State) (k : Fin 9) : State :=
  match (s.port k.val).delayRun with
  | none => s
  | some r => s.atTimer (r.last + 1024) fun s => if r.attempts ≥ 64 then s.linkError k else s.askDelay k.val r

def execDelayExchange (port : Fin 9) (s : State) : Res := .next (s.exchange port)

/-- DELAY_REQ answered with its receive stamp and its transmit stamp. -/
def State.answerDelay (s : State) (k t1 : Nat) : State :=
  let _ := t1
  if s.measures k then s.emit (.delayResp k s.time.clk s.time.clk) else s

def execDelayReq (port : Fin 9) (t1 : Nat) (s : State) : Res := .next (s.answerDelay port.val t1)

/-- The mean of 16 results, each held as twice d, to the nearest tick with halves up (R284). -/
def delayMean (ds : List Int) : Nat := ((ds.sum + 16) / 32).toNat

/-- DELAY_RESP (R284): one result; the sixteenth stores LINK_DELAY. -/
def State.delayIn (s : State) (k t2 t3 : Nat) : State :=
  let p := s.port k
  match p.delayRun with
  | none => s
  | some r =>
    match r.t1 with
    | none => s
    | some t1 =>
      let twice : Int := ((s.time.clk : Int) - (t1 : Int)) - ((t3 : Int) - (t2 : Int))
      let ds := r.results ++ [twice]
      if ds.length ≥ 16 then s.setPort k { p with linkDelay := delayMean ds % 65536, delayRun := none }
      else s.setPort k { p with delayRun := some ⟨none, ds, 0, r.last⟩ }

def execDelayResp (port : Fin 9) (t2 t3 : Nat) (s : State) : Res := .next (s.delayIn port.val t2 t3)

/-! ### Training (R285 to R287) -/

/-- TRAIN sent: the module number, or 0x07FF, and the training step (R287). -/
def State.sendTrain (s : State) (k : Nat) : State := s.emit (.train k s.fab.moduleNo (s.port k).st.code)

/-- Training starts from DETECT (R285, R286). -/
def State.detectPort (s : State) (k : Nat) (p : Port) : State :=
  (s.setPort k { p with
    st := .detect, trainSeen := false, miscabled := false, equalizing := false, measured := false, delayRun := none }).sendTrain k

/-- TRAIN received (R282, R285, R287): in DETECT the far end is seen; in ALIGN the plane number is checked and the initial credits
are taken. -/
def State.trainIn (s : State) (k : Nat) (t : TrainSet) : State :=
  let p := s.port k
  match p.st with
  | .detect => s.setPort k { p with trainSeen := true }
  | .align | .retrain =>
    let ok := t.number.toNat = k
    s.setPort k { p with trainSeen := ok, miscabled := !ok, peerPlane := bits t.number.toNat 0 4,
                         credits := if ok then (List.range 4).map (fun v => (nth 0 t.credits v).toNat) else p.credits }
  | _ => s

def execTrain (port : Fin 9) (set : TrainSet) (s : State) : Res := .next (s.trainIn port.val set)

/-- The exit condition of a training state is met (R281, R285, R446): RETRAIN passes through ALIGN and DELAY. No port trains without the
100 MHz reference (R527). -/
def State.trainExit (s : State) (k : Nat) : State :=
  let p := s.port k
  if !s.svc.refOk then s
  else match p.st with
  | .detect => if p.trainSeen then s.setPort k { p with st := .equalize, trainSeen := false } else s
  | .equalize => (s.setPort k { p with st := .align, laneFail := 0, trainSeen := false }).sendTrain k
  | .align => if p.trainSeen then (s.setPort k { p with st := .delay, delayRun := none }).measure k else s
  | .delay =>
    if p.delayRun.isSome then s
    else s.setPort k { p with
      st := .admitted, rateTrained := p.rate || p.fellBack, tries := 0, replay := [], nextSeq := 0, expectSeq := 0,
      nakPending := false, naks := 0, sinceAck := 0, buffered := [0, 0, 0, 0], incomplete := [0, 0, 0, 0] }
  | .retrain =>
    if p.proving || !p.trainSeen then s
    else if !p.measured then (s.setPort k { p with measured := true, delayRun := none }).measure k
    else if p.delayRun.isSome then s
    else (s.setPort k { p with proving := true }).resendAll k
  | _ => s

def execTrainingStateExit (port : Fin 9) (s : State) : Res := .next (s.trainExit port.val)

/-- Three attempts have failed (R286): the fallback to mode 224, or DOWN with the count, the event and the alert. -/
def State.trainFailed (s : State) (k : Nat) (counted : Bool) : State :=
  let p := s.port k
  if p.fallback && !p.rate && !p.fellBack then s.detectPort k { p with fellBack := true, tries := 0 }
  else
    let s := s.setPort k { p with st := .down, trainSeen := false, delayRun := none, replay := [] }
    let s := s.bumpIf (!counted) (rPort k 0x38)
    (s.event 0x17 0 (locOf 0 0 0 31 k) (leBytes 1 (s.reg (rPort k 0x38)))).alert 0x17

/-- The queued proving run of a port that failed RETRAIN never starts (R446). -/
def State.dropPortRun (s : State) (k : Fin 9) : State :=
  match s.faults.runs.find? (fun r => r.unit == .port k) with
  | some r => s.abandon r
  | none => s

/-- A bound of R285 expires. RETRAIN without EQUALIZE goes on with it, and a second expiry fences the port without a run (R281,
R446). A miscabled port counts a training failure (R287). -/
def State.boundExpired (s : State) (k : Fin 9) (lanes : Nat) : State :=
  let p := s.port k.val
  match p.st with
  | .detect | .equalize | .align | .delay =>
    let count := p.st == .align && p.miscabled
    let s := s.bumpIf count (rPort k.val 0x38)
    let p := { p with tries := p.tries + 1, laneFail := if p.st == .equalize then lanes else p.laneFail }
    let s := s.setPort k.val p
    if p.tries ≥ 3 then s.trainFailed k.val count else s.detectPort k.val p
  | .retrain =>
    if p.proving then s
    else if !p.equalizing then s.setPort k.val { p with equalizing := true, measured := false, trainSeen := false, delayRun := none }
    else (s.setPort k.val { p with laneFail := lanes }).dropPortRun k |>.fencePort k.val
  | _ => s

def execTrainingBoundExpiry (port : Fin 9) (lanes : BitVec 8) (s : State) : Res := .next (s.watched (·.boundExpired port lanes.toNat))

/-! ### Register writes of the block (R285, R289, R293, R295, R298 to R300) -/

/-- PORT_CFG (R285, R300): ENABLE newly set, or RATE changed while enabled, trains from DETECT; ENABLE cleared takes the port DOWN
and discards its replay buffer. A fenced port stays DOWN. -/
def State.writePortCfg (s : State) (k v : Nat) : State :=
  let p := s.port k
  let q := { p with enable := bit v 0, rate := bit v 1, fallback := bit v 2 }
  if !q.enable then
    s.setPort k { q with st := .down, replay := [], trainSeen := false, proving := false, equalizing := false, delayRun := none,
                         incomplete := [0, 0, 0, 0], buffered := [0, 0, 0, 0] }
  else if bit s.faults.fencePort k then s.setPort k q
  else if !p.enable || p.rate != q.rate then
    s.detectPort k { q with tries := 0, fellBack := false, proving := false, rateTrained := false }
  else s.setPort k q

/-- COORD may be written (R289). -/
def State.coordOk (s : State) (v : Nat) : Bool := !s.fab.admitted && bits v 4 4 ≤ 8

/-- COORD (R289, R299). -/
def State.writeCoord (s : State) (v : Nat) : State :=
  s.setFab { s.fab with part := bits v 0 4, row := bits v 4 4, col := bits v 8 3, coordValid := bit v 11 }

/-- FABRIC_ADMIT may be set (R293). -/
def State.admitOk (s : State) (v : Nat) : Bool :=
  !(bit v 0) || (s.fab.coordValid && s.time.st == .locked && !s.admittedPorts.isEmpty)

/-- FABRIC_ADMIT (R293): clearing it fails every running step. -/
def State.writeAdmit (s : State) (v : Nat) : State :=
  let was := s.fab.admitted
  let s := s.setFab { s.fab with admitted := bit v 0 }
  if was && !(bit v 0) then s.failSteps (fun _ => true) stNOT_ADMITTED
  else if !was && bit v 0 then s.firesFrom (s.time.tick + 1)
  else s

/-- THAXA_COMMIT may be written (R295). -/
def State.thaxaCommitOk (s : State) (v : Nat) : Bool :=
  !(bit v 0) || (s.fab.spareBeatShadow ≥ s.time.beat + 2 && (s.fab.spareShadow = 0xF || (s.port 8).st == .admitted))

/-- THAXA_COMMIT (R295): the map waits for boundary B. -/
def State.writeThaxaCommit (s : State) (v : Nat) : State :=
  if bit v 0 then s.setFab { s.fab with sparePend := some (s.fab.spareShadow, s.fab.spareBeatShadow) } else s

/-- The messages queued for a port are discarded and counted (R295): what its arbiter holds and what waits there. -/
def State.dropQueued (s : State) (k : Nat) : State :=
  let mine := fun n : ArbNode => n.kind == .thaxa && n.index == k
  let count := (s.arb.nodes.filter mine).foldl (fun a n => a + n.waiting.length + flag n.holder.isSome) 0
  ({ s with arb := { s.arb with nodes := s.arb.nodes.map fun n => if mine n then { n with holder := none, waiting := [] } else n } }
    : State).bumpBy 0x30030 count

/-- The new map at boundary B, with its record of origin 0xB (R295): each plane that moves leaves its old port. -/
def State.applySpare (s : State) : State :=
  match s.fab.sparePend with
  | some (m, b) =>
    if s.time.beat < b then s
    else
      let old := s.fab.spareMap
      let s := if m = old then s else (if m < 8 then s.dropQueued m else s)
      let s := if m ≠ old && old < 8 then s.dropQueued 8 else s
      (s.setFab { s.fab with spareMap := m, sparePend := none }).regRecord 11 0x30018 old m
  | none => s

end Sys2Proof.Machine
end

