-- ==== Sys2Proof/Machine/Service.lean ====
section
/-! DEFINITION. Supplies, boot, orderly halt, the pins and the journal of the vault (09 R245 to R248; 16 R433, R434; 18 R468, R470 to
R474; 19 R483 to R488, R492 to R495; 21 R519 to R527). -/
namespace Sys2Proof.Machine

/-! ### The journal's timer and the power-fail signal (R246, R247) -/

/-- 1 ms after the first unwritten record (R246). -/
def State.journalDue (s : State) : State :=
  match s.vault.bufferClk with
  | none => s
  | some c => s.atTimer (c + 1000000) State.flushJournal

def execJournalFlushTimer (s : State) : Res := .next s.journalDue

/-- A page program completes: the physical page holds its data, and a journal record maps the logical page to it (R245). A page that its
member has let go keeps its old mapping (R261). -/
def State.programmed (s : State) (p : Prog) : State :=
  let v := s.vault
  let s := s.setVault { v with flights := v.flights.filter (· != p),
                               phys := if p.wanted then v.phys ++ [(p.phys, p.data)] else v.phys }
  if p.wanted then s.journal (.map p.piece.page p.phys) else s

/-- The power-fail signal (R247): no further program starts, the ones in flight complete, the journal is programmed, and the vault
is quiescent. -/
def State.quiesce (s : State) : State :=
  let s := s.setVault { s.vault with powerFail := true, waiting := [] }
  let s := (s.vault.flights.foldl State.programmed s).flushJournal
  s.setVault { s.vault with quiescent := true, bufferClk := none }

def execPowerFail (s : State) : Res := .next (if s.vault.mapReady then s.quiesce else s)

/-! ### Supplies removed -/

/-- Byte of HBM4, by address (R31). -/
def isHbmByte (a : Nat) : Bool := mpaUnit a < 4 && 0x10000000000 ≤ mpaOff a

/-- What stands while the hub has no supply: the vault's contents, its reserved region and fuses, the sideband island, and HBM4
where it is kept in self-refresh. Everything else is at reset (R485, R486, R490, R494). -/
def State.supplyLess (s : State) (keepHbm : Bool) : State :=
  { State.reset with
    mem := { MemSys.reset with
      cells := s.mem.cells.filter (fun c => keepHbm && isHbmByte c.1),
      pages := if keepHbm then s.mem.pages else [],
      checks := if keepHbm then s.mem.checks.filter (fun c => isHbmByte c.1) else [] },
    vault := { s.vault with
      mapReady := false, quiescent := false, powerFail := false, flights := [], waiting := [], reserved := [], begins := [],
      buffer := [], bufferClk := none, nextImage := none, nextCkpt := none, member := none, reader := none, repair := none,
      catalogue := s.vault.catalogue.map fun c => { c with bound := 0 } },
    faults := { Faults.reset with spareUsed := s.faults.spareUsed },
    sec := { s.sec with
      nextLeaf := 0, svn := 0, digest := [], build := 0, update := none, recovery := false, recoveryBoot := false, deferred := [],
      spdmPf := Spdm.reset },
    svc := { s.svc with
      hbmReady := false, sweepDone := false, synced := false, retained := false, locked := false,
      supplies := [keepHbm, false, false, false], stepNo := 0 },
    out := s.out, free := s.free, pending := s.pending }

/-- PHASE changed. -/
def State.setPhase (s : State) (p : Phase) : State := { s with svc := { s.svc with phase := p } }

/-- The module clears its own admission with origin 0xC (R434, R527). -/
def State.clearAdmit (s : State) : State :=
  if s.fab.admitted then (s.writeAdmit 0).regRecord 12 0x30010 1 0 else s

/-- Every die at OP0 at once (R434). -/
def State.dropOps (s : State) : State :=
  { s with power := { s.power with op := [0, 0, 0, 0], pend := none, droopLow := [false, false, false, false] } }

/-- RESET_CAUSE latched in the island (R485). -/
def State.latchCause (s : State) (cause : Nat) : State := { s with svc := { s.svc with cause := cause } }

/-- HALT's DETAIL cause of a RESET_CAUSE (R437); zero for a halt the table gives none. -/
def haltDetail (cause : Nat) : Nat := if 3 ≤ cause && cause ≤ 5 then cause - 2 else 0

/-- The orderly halt (R434): OP0, admission cleared, the vault quiesced, the record and its push, the event and the alert, and the
supplies switched off. In a phase without the hub only the cause is latched. -/
def State.orderlyHalt (s : State) (cause : Nat) : State :=
  if s.hubRuns then
    let s := s.dropOps.clearAdmit
    let s := (s.failSteps (fun _ => true) stNOT_ADMITTED).abandonAll
    let s := if s.vault.mapReady then s.quiesce else s
    let s := s.regRecord 12 0xB0008 s.svc.cause cause
    let s := (s.event 0x2B 0 locNone (leBytes 1 (haltDetail cause))).alert 0x2B
    let s := s.appendAll
    ((s.supplyLess false).latchCause cause).setPhase .halted
  else if s.svc.phase == .supplies then ((s.supplyLess false).latchCause cause).setPhase .halted
  else s

/-! ### The firmware image (R472, R473) -/

/-- The firmware digest of an image (R472). -/
def fwDigest (image : List Byte) : List Byte := shake256 32 (slice image 0 128)

/-- Acceptance of an image by the boot ROM (R473). -/
def State.fwOk (s : State) (image : List Byte) : Bool :=
  let body := field image 16 8
  field image 0 4 = 0x57464447 && field image 4 2 = 1 && field image 6 2 = 0 && 4096 ≤ body && body ≤ 0x1000000 &&
    body % 4096 = 0 && image.length = 4096 + body && allZero (slice image 124 4) && allZero (slice image 2948 1148) &&
    shake256 32 (slice image 56 68) == Config.fwKeyDigest &&
    Config.xmssVerify (slice image 56 68) (slice image 0 128) (slice image 128 2820) &&
    shake256 32 (image.drop 4096) == slice image 24 32 && s.sec.fusedSvn ≤ field image 8 4

/-- A FIRMWARE record (R460, R474). -/
def State.fwRecord (s : State) (event : Nat) (old new : List Byte) : State := s.hand 13 (objFirmware event) old new

/-! ### Boot (R461, R468, R470, R474, R483) -/

/-- Sequence number of the BOOT record (R461). -/
def State.bootSeq (s : State) : Nat := (match s.vault.storedCkpt with | some c => c.record.seq | none => 0) + 2 ^ 24

/-- The ring as it begins, empty but for the BOOT record. -/
def State.openRing (s : State) (boot : Held) : State :=
  let n := s.bootSeq
  let s := s.setLedger { Ledger.reset with running := true, ckptBase := mpaCs (Config.ckptTile.val * 4096), sinceClk := s.time.clk,
                                           lastCkpt := s.vault.storedCkpt.map (·.record) }
  let s := s.append boot n
  s.setLedger { s.ledger with since := 0 }

/-- The ledger unit starts: the BOOT record follows the stored checkpoint, and the island's deferred records follow it, stamped as they
are appended. -/
def State.startLedger (s : State) (ok : Bool) (digest : List Byte) : State :=
  let boot : Held := { due := s.time.clk, stamp := s.now, origin := 13, refused := false, boot := true,
                       object := objFirmware (if ok then 1 else 5), old := [], new := digest, cq := none }
  let s := s.openRing boot
  let held := s.svc.held
  let s := { s with svc := { s.svc with held := [] } }
  held.foldl (fun s h =>
    let s := s.runTo (s.time.clk + 1)
    s.append { h with stamp := s.now } (s.ledger.head + 1)) s

/-- Vault pages of an entry's extents freed through the journal. -/
def State.freeExtent (s : State) (c : CatEntry) : State :=
  c.extent.foldl (fun s e => s.journal (.free e.2)) s

/-- OBJECT of an IMAGE record (R460). -/
def objImage (reader entry gen : Nat) : Nat := object 0x04 (reader + entry * 2 ^ 11 + gen * 2 ^ 23)

/-- Value of an IMAGE record: digest and STATE (R460). -/
def imageVal (c : CatEntry) (state : Nat) : List Byte := c.digest ++ leBytes 1 state

/-- INSTALL_DISCARD_COUNT (R272). -/
def State.discardInstall (s : State) : State := s.bump 0x80028

/-- A catalogue entry discarded with its pages and its record (R248, R266). -/
def State.discardEntry (s : State) (c : CatEntry) : State :=
  let s := s.discardInstall.freeExtent c
  let s := s.setVault { s.vault with catalogue := s.vault.catalogue.filter (fun x => x.index ≠ c.index) }
  s.hand 12 (objImage s.fab.moduleNo c.index c.gen) (imageVal c c.state) []

/-- The records of a mirror as its pages are read at start-up. -/
def mirrorRead (rs : List JRec) (second : Bool) (reads : List JournalRead) : List (List Byte) :=
  rs.zipIdx.map fun p => match reads.find? (fun d => d.second == second && d.at_ == p.2) with
    | some d => leBytes 64 d.bytes.toNat
    | none => p.1.raw

/-- The record taken where the mirrors differ: the one with the higher sequence number (R248); between equal ones, the second where the
first fails its CRC-32C (DESIGN CHOICE, notes/assumptions/113.md). -/
def mirrorTaken (a b : List Byte) : List Byte :=
  if field a 0 8 < field b 0 8 || (field a 0 8 = field b 0 8 && !(jrecOk a)) then b else a

/-- The page map rebuilt from the journal (R248): both mirrors read, failing records dropped and counted, and every physical page without
a valid record free. -/
def State.replayJournal (s : State) (reads : List JournalRead) : State :=
  let v := s.vault
  let raws := List.zipWith mirrorTaken (mirrorRead v.mirrorA false reads) (mirrorRead v.mirrorB true reads)
  let recs := raws.filterMap JRec.ofBytes
  let m := recs.foldl mapAfter []
  (s.setVault { v with mapped := m, phys := v.phys.filter (fun p => m.any fun q => q.2 == p.1), mirrorA := recs,
                       mirrorB := recs }).bumpBy 0x80030 (raws.length - recs.length)

/-- The page map is rebuilt, and every RECEIVING or VERIFIED entry is discarded (R248). -/
def State.rebuildMap (s : State) (reads : List JournalRead) : State :=
  let s := s.replayJournal reads
  let s := s.setVault { s.vault with mapReady := true, quiescent := false, powerFail := false }
  let drop := s.vault.catalogue.filter (fun c => c.state = 1 || c.state = 2)
  (drop.foldl State.discardEntry s).flushJournal

/-- ROD_MAP written (R111, R116): where the shift changes, what the rods hold stays with them. -/
def State.setRodMap (s : State) (d v : Nat) : State :=
  let m := s.rodMap d
  let on := bit m 7
  if on == bit v 7 && (!on || bits m 0 6 = bits v 0 6) then s.setReg (rFrame d 0) v
  else
    let s := if on then s.unmapRod d (bits m 0 6) else s
    let s := if bit v 7 then s.remapRod d (bits v 0 6) else s
    s.setReg (rFrame d 0) v

/-- A fence map or rod map changed (R510, R512). -/
def State.setLk (s : State) (off v : Nat) : State :=
  if off = 0x10020 then s.setFaults { s.faults with fenceBridge := bits v 0 8 }
  else if off = 0x10028 then s.setFaults { s.faults with fenceCs := bits v 0 16 }
  else if off = 0x10030 then s.setFaults { s.faults with fencePort := bits v 0 9 }
  else if off < 0x20000 then s.setFaults { s.faults with fenceStack := putKey s.faults.fenceStack ((off - 0x10100) / 8) (bits v 0 48) }
  else s.setRodMap (off / 0x10000 - 16) (bits v 0 10)

/-- One register that the firmware writes from a stored copy (R474): recorded with origin 0x0, each a tick after the one before. -/
def State.bootWrite (s : State) (off v : Nat) : State :=
  let old := s.readReg .pcie off
  ((s.runTo (s.time.clk + 1)).setLk off v).regRecord 0 off old v

/-- Stored value of a fence map register; zero when none is stored. -/
def State.storedFence (s : State) (off : Nat) : Nat := (findKey s.vault.storedFences off).getD 0

/-- The fence maps and rod maps in increasing BAR0 offset, with their stored values (R474, R510, R513). -/
def State.bootRegs (s : State) : List (Nat × Nat) :=
  ([0x10020, 0x10028, 0x10030] ++ (List.range 24).map (fun k => 0x10100 + 8 * k)).map (fun o => (o, s.storedFence o)) ++
    (List.range 4).map (fun d => (rFrame d 0, nth 0x3F s.vault.storedRods d))

/-- The conditions of R451 that the loaded fences meet set DEGRADED again (R452). -/
def State.degradeFromFences (s : State) : State :=
  let s := (List.range 4).foldl (fun s d => if bit (s.rodMap d) 9 then s.degrade 1 (objFence 1 (bits (s.rodMap d) 0 6) d 31 false) else s) s
  let hubB := (List.range 4).find? (fun b => bit s.faults.fenceBridge b)
  let s := match hubB with | some b => s.degrade 2 (objFence 2 b b 31 false) | none => s
  let rings := (List.range 4).filter (fun b => bit s.faults.fenceBridge (4 + b))
  let s := if rings.length ≥ 2 then s.degrade 3 (objFence 2 (4 + nth 0 rings 1) (nth 0 rings 1) 31 false) else s
  let s : State := match (List.range 24).find? (fun k => bits (s.fenceStack k) 0 32 ≠ 0) with
    | some k => s.degrade 4 (objFence 4 0 (k / 6) k false) | none => s
  let s := if s.fenceSram ≠ 0 then s.degrade 5 (objFence 6 0 0 31 false) else s
  if s.planesLost then s.degrade 6 (objFence 3 0 0 31 false) else s

/-- The setup lock (R511). -/
def State.setLock (s : State) (origin : Nat) : State :=
  let old := flag s.svc.locked
  let s := { s with svc := { s.svc with locked := true } }
  let s := if s.svc.phase == .boot then s.setPhase .setupLocked else s
  s.regRecord origin 0x10000 old 1

/-- Firmware (R474 steps 4 and 5): the leaf block, the stored maps, the lock. Ring bridges that are fenced take the hub route. -/
def State.firmware (s : State) (image : List Byte) : State :=
  let s := { s with sec := { s.sec with svn := field image 8 4, build := field image 12 4, digest := fwDigest image } }
  let s := s.reserveLeaves
  let s := s.bootRegs.foldl (fun s r => s.bootWrite r.1 r.2) s
  let s := s.setFaults { s.faults with dead := s.vault.storedDead }
  let s := s.setFab { s.fab with hubRoutes := (List.range 8).filter (fun b => isRing b && bit s.faults.fenceBridge b) }
  s.degradeFromFences.setLock 0

/-- HBM4 training ends: failing channels are fenced, and HBM_READY is set (R486, R487). -/
def State.trainHbm (s : State) (untrained : List (Fin 24 × Fin 32)) : State :=
  let s := untrained.foldl (fun s c => if bit (s.fenceStack c.1.val) c.2.val then s else s.fenceChannel c.1.val c.2.val) s
  { s with svc := { s.svc with hbmReady := true } }

/-- Step 3 of R474 onward with an image: verified, or RECOVERY and the request for an image. -/
def State.bootImage (s : State) (image : Option (List Byte)) (untrained : List (Fin 24 × Fin 32)) (train : Bool) : State :=
  match image with
  | some im =>
    if s.fwOk im then
      let s := ((s.fwRecord 1 [] (fwDigest im)).setPhase .boot).firmware im
      if train then s.trainHbm untrained else s
    else
      let s := (s.fwRecord 2 [] (fwDigest im)).fwRecord 5 [] []
      ({ s.setPhase .recovery with sec := { s.sec with recovery := true } }).emit .askImage
  | none =>
    let s := s.fwRecord 5 [] []
    ({ s.setPhase .recovery with sec := { s.sec with recovery := true } }).emit .askImage

/-- Steps 3 to 6 of R486: the supplies, the zeroed common store, the boot ROM and the firmware. -/
def State.start (s : State) (boot : StartUp) : State :=
  let s := { s with svc := { s.svc with phase := .supplies, supplies := [true, true, true, true], mark := none, stepNo := 3 } }
  let ok := match s.vault.image with | some im => s.fwOk im | none => false
  let dg := match s.vault.image with | some im => fwDigest im | none => []
  let s := (s.setPhase .boot).startLedger ok dg
  (s.rebuildMap boot.journal).bootImage s.vault.image boot.untrained true

/-- The input and the reference allow a start (R486, R522, R526). -/
def State.mayPowerUp (s : State) : Bool := s.svc.vinOk && s.svc.refOk

/-! ### Pins -/

/-- The standby input powers the island (R486 step 1). -/
def State.applyVstby (s : State) : State := { s with svc := { s.svc with vstby := true, island := true } }

def execVstbyApplied (s : State) : Res := .next s.applyVstby

/-- MAIN_EN asserted (R486 step 2, R525): an assertion before the input is good is held. A halted module starts only after MAIN_EN was
deasserted (R434). -/
def State.mainOn (s : State) (boot : StartUp) : State :=
  let rest := s.svc.phase == .off || ((s.svc.phase == .halted || s.svc.phase == .removeReady) && !s.svc.mainEn)
  let s := { s with svc := { s.svc with mainEn := true } }
  if rest && s.svc.island && s.mayPowerUp then s.start boot else if rest then s.setPhase .off else s

def execMainEnAssert (boot : StartUp) (s : State) : Res := .next (s.watched (·.mainOn boot))

/-- HBM4 in self-refresh loses its supply: standby ends, and its marker fails (R492). -/
def State.loseVhbm (s : State) : State :=
  if s.svc.phase == .standby then
    let s := (s.supplyLess false).setPhase .off
    { s with svc := { s.svc with markBad := true, mark := none } }
  else s

def execVhbmLoss (s : State) : Res := .next (s.watched (·.loseVhbm))

/-- MAIN_EN deasserted for 10 µs (R494, R525): a running module halts with CAUSE 0x7. One in standby loses what it retained, with the
same CAUSE (R485; DEDUCED, notes/assumptions/24.md). -/
def State.mainOff (s : State) : State :=
  let s := { s with svc := { s.svc with mainEn := false } }
  match s.svc.phase with
  | .supplies | .boot | .recovery | .setupLocked | .standbyEntry => s.orderlyHalt 7
  | .standby => s.loseVhbm.latchCause 7
  | _ => s

def execMainEnDeassert (s : State) : Res := .next (s.watched (·.mainOff))

/-- PRESENT_SENSE lost for 1 µs: an input below 28.0 V (R520). -/
def execPresentSenseLoss (s : State) : Res := .next (s.watched (·.orderlyHalt 3))

/-- Both inputs lost (R483, R485, R492, R507): the island loses what it held, and HBM4 its contents. -/
def State.loseInputs (s : State) : State :=
  let s := (s.orderlyHalt 3).supplyLess false
  { s with svc := { Service.reset with refOk := s.svc.refOk, mainEn := s.svc.mainEn }
           sec := { s.sec with tid := 0, receiver := none, events := [], spdmI3c := Spdm.reset } }

def execInputLoss (s : State) : Res := .next (s.watched (·.loseInputs))

/-- The 100 MHz reference lost for 10 µs (R527): lock loss, own admission cleared, the crystal; running ports lose their link. -/
def State.loseRef (s : State) : State :=
  let s := { s with svc := { s.svc with refOk := false } }
  if s.hubRuns then
    (List.finRange 9).foldl (fun s k => if (s.port k.val).st == .admitted then s.linkError k else s) s.refLost.clearAdmit
  else s

def execRefLoss (s : State) : Res := .next (s.watched (·.loseRef))

/-- The reference meets its requirement again (R527). -/
def execRef100Return (s : State) : Res := .next { s with svc := { s.svc with refOk := true } }

/-- A SERVICE event with its alert (R498). -/
def State.serviceEvent (s : State) (kind count : Nat) : State :=
  (s.event 0x2D 0 locNone (leBytes 1 kind ++ leBytes 1 s.svc.phase.code ++ leBytes 2 count)).alert 0x2D

/-- A power-on step over its bound (R486, R498): PHASE stays. -/
def execBringUpBoundExpiry (step : Fin 10) (s : State) : Res :=
  let _ := step
  .next (s.serviceEvent 4 0)

/-- An image received in RECOVERY (R474): verified, programmed in place of the stored one, and step 3 again. -/
def State.recoverImage (s : State) (image : List Byte) (untrained : List (Fin 24 × Fin 32)) : State :=
  if s.svc.phase != .recovery then s
  else if s.fwOk image then
    let s := { s.setVault { s.vault with image := some image } with sec := { s.sec with recovery := false, recoveryBoot := true } }
    s.bootImage (some image) untrained true
  else s.fwRecord 2 [] (fwDigest image)

def execRecoveryImageReceived (image : List Byte) (untrained : List (Fin 24 × Fin 32)) (s : State) : Res :=
  .next (s.watched (·.recoverImage image untrained))

/-! ### SVC_CTRL RESET (R495) -/

/-- An orderly halt with CAUSE 0x2 and a start from step 3. -/
def State.resetModule (s : State) (boot : StartUp) : State :=
  let s := (s.orderlyHalt 2).supplyLess false
  let s := (s.latchCause 2).setPhase .off
  if s.svc.mainEn && s.mayPowerUp then s.start boot else s

end Sys2Proof.Machine
end

