-- ==== Sys2Proof/Machine/Power.lean ====
section
/-! DEFINITION. Power, droop and thermal control (16_power_and_thermal, R416 to R440). -/
namespace Sys2Proof.Machine

/-- The power block changed. -/
def State.setPower (s : State) (p : Power) : State := { s with power := p }

/-- Typical die power K of an operating point, W (R418). -/
def opPower : List Nat := [150, 185, 224, 268, 317, 370, 429, 487, 550, 618, 690, 784]

/-- The input of assignment `y` as R423 estimates it. -/
def State.predict (s : State) (y : List Nat) : Rat :=
  let term (d : Nat) : Rat :=
    let p : Nat := nth 0 s.power.last.die d
    let k : Nat := nth 0 opPower (nth 0 y d)
    let k0 : Nat := nth 150 opPower (nth 0 s.power.oAt d)
    (p : Rat) * ((k : Rat) / (k0 : Rat) - 1)
  (s.power.last.input : Rat) + (27 / 25 : Rat) * (term 0 + term 1 + term 2 + term 3)

/-- A power rounded to the nearest W, within 16 bits. -/
def toWatts (r : Rat) : Nat :=
  min (((2 * r.num + r.den) / (2 * (r.den : Int))).toNat) 0xFFFF

/-! ### The power alert (R436) -/

/-- A condition of the alert holds. -/
def Power.alarmed (p : Power) : Bool := p.capUnatt || p.groupUnatt || p.lowInput || p.coolant

/-- PWR_ALERT_N, the flag, the event and the management alert follow the conditions. -/
def State.alertCheck (s : State) : State :=
  let on := s.power.alarmed
  if on == s.power.alert then s
  else
    let s := (s.setPower { s.power with alert := on }).emit (.pwrAlert on)
    if on then
      (s.alert 0x28).event 0x28 0 locNone
        (leBytes 2 s.powerStatus ++ leBytes 2 s.power.last.input ++ leBytes 2 s.power.cur.vin)
    else s

/-- A change of POWER_STATUS that the module records with origin 0xC (R424, R425, R432, R433). -/
def State.powerRecord (s : State) (old : Nat) : State := s.regRecord 12 0x40048 old s.powerStatus

/-! ### Operating points (R419, R420) -/

/-- The operating points become `x`; each changed die counts. -/
def State.applyOps (s : State) (x : List Nat) : State :=
  let n := ((List.range 4).filter (fun d => nth 0 x d ≠ nth 0 s.power.op d)).length
  (s.bumpBy 0x40068 n).setPower { s.power with op := x, cur := { s.power.cur with changes := s.power.cur.changes + n } }

/-- Every die at or below its protective ceiling at once. -/
def State.holdCeilings (s : State) : State :=
  s.applyOps ((List.range 4).map fun d => min (nth 0 s.power.op d) (s.ceiling d))

/-! ### Preferences (R421, R422) -/

/-- PHASE_PREF entry of a phase (R438). -/
def State.phasePref (s : State) (p : Nat) : Nat := bits (s.reg 0x40020) (4 * p) 4

/-- The HINT in force for a die at beat `b`. -/
def State.hintAt (s : State) (d b : Nat) : Option Nat :=
  match (s.power.hints.filter (fun h => h.die = d && h.start ≤ b)).getLast? with
  | some h => if b < h.start + h.beats then some (if h.op ≥ 16 then s.phasePref (h.op - 16) else h.op) else none
  | none => none

/-- OP_PREF entries stamped (b, 0) of the running instances' schedules: the last one wins. -/
def State.prefAhead (s : State) (d b : Nat) : Option Nat :=
  s.serve.insts.foldl (fun best x =>
    match (if x.state == .active then x.sched.at_ s.time.beat b else none) with
    | none => best
    | some g =>
      g.val.entries.foldl (fun best e =>
        if e.kind = 4 && e.boff = b % g.val.cycle && bit e.payload.toNat d then some (bits e.payload.toNat 4 4) else best) best) none

/-- The preference of a die at boundary `b` (R421). -/
def State.prefAt (s : State) (d b : Nat) : Nat :=
  match s.hintAt d b with
  | some o => o
  | none =>
    match (if s.mayRun then s.prefAhead d b else none) with
    | some o => o
    | none => (nth none s.power.prefs d).getD (s.phasePref 4)

/-- `want` for boundary `b` (R423). -/
def State.wantAt (s : State) (b : Nat) : List Nat := (List.range 4).map fun d => min (s.prefAt d b) (s.ceiling d)

/-- OP_PREF fires: the operating point is in force for the named dies until the next OP_PREF of the die (R68, R421). -/
def State.opPrefFire (s : State) (payload : Word64) : State :=
  let w := payload.toNat
  s.setPower { s.power with prefs := (List.range 4).map fun d => if bit w d then some (bits w 4 4) else nth none s.power.prefs d }

/-! ### The steelyard (R427 to R430) -/

/-- STEELYARD_CFG. -/
def State.steelCfg (s : State) : Nat := s.reg 0x40028

/-- The set that describes the beat just ended (R428). -/
def State.ownSet (s : State) : SteelSet :=
  let w (r : Rat) : BitVec 16 := BitVec.ofNat 16 (toWatts r)
  { group := BitVec.ofNat 14 (bits s.steelCfg 1 14), module := BitVec.ofNat 11 s.fab.moduleNo,
    beat := BitVec.ofNat 48 (s.time.beat - 1), constrained := s.power.constrained, unattainable := s.power.capUnatt,
    protect := (List.range 4).any (fun d => s.ceiling d < 11), measured := BitVec.ofNat 16 s.power.last.input,
    cap := BitVec.ofNat 16 s.cap, floor := w (s.predict [0, 0, 0, 0]), pref := w (s.predict (s.wantAt (s.time.beat + 1))),
    boost := w (s.predict ((List.range 4).map s.ceiling)),
    slack := match s.power.slack with | some z => BitVec.ofInt 32 z | none => 0x7FFFFFFF, checkOk := true }

/-- The latest set of a module kept. -/
def State.keepSet (s : State) (x : SteelSet) : State :=
  s.setPower { s.power with sets := s.power.sets.filter (fun y => y.module != x.module) ++ [x] }

/-- At tick 0 each member sends its set on every admitted port, and no step has completed yet in the beat that begins (R428). -/
def State.sendSteel (s : State) : State :=
  let x := s.ownSet
  let s := s.setPower { s.power with slack := none }
  if bit s.steelCfg 0 then (s.keepSet x).emits (s.admittedPorts.map fun k => Out.steel k x) else s

/-- A STEELYARD set arrives (R428, R429). DEDUCED (notes/assumptions/71.md): further copies of a set, which R428 discards, are not counted. -/
def State.steelIn (s : State) (k : Nat) (x : SteelSet) : State :=
  if (s.port k).st != .admitted || !(bit s.steelCfg 0) then s
  else if !x.checkOk || x.group.toNat ≠ bits s.steelCfg 1 14 || x.beat.toNat + 1 ≠ s.time.beat then s.bump 0x40080
  else if s.power.sets.any (fun y => y.module == x.module && y.beat == x.beat) then s
  else if s.time.tick ≥ bits s.steelCfg 16 21 then s.bump 0x40080
  else s.keepSet x

def execSteelyardSetReceive (port : Fin 9) (set : SteelSet) (s : State) : Res := .next (s.steelIn port.val set)

/-- A member's share of the computation. -/
structure Share where
  module : Nat
  slack  : Int
  cap    : Nat
  floor  : Nat
  pref   : Nat
  boost  : Nat
  heard  : Bool
  constrained : Bool
  deriving DecidableEq, Repr

/-- A member's figures in this beat: counted, or its latest of the last 4 beats at its cap, or 3,600 W (R429). -/
def State.share (s : State) (x : SteelSet) : Share :=
  let b := x.beat.toNat
  let c := x.cap.toNat
  if b + 1 = s.time.beat then ⟨x.module.toNat, x.slack.toInt, c, x.floor.toNat, x.pref.toNat, x.boost.toNat, true, x.constrained⟩
  else if b + 5 ≥ s.time.beat then ⟨x.module.toNat, x.slack.toInt, c, c, c, c, true, x.constrained⟩
  else ⟨x.module.toNat, 0x7FFFFFFF, 3600, 3600, 3600, 3600, false, false⟩

/-- Before in the order of increasing SLACK, ties by the lower module number. -/
def Share.before (a b : Share) : Bool := a.slack < b.slack || (a.slack == b.slack && a.module ≤ b.module)

/-- One pass of grants in order: what is left and the grants so far. -/
def grantPass (goal : Share → Nat) (order : List Share) (a : List (Nat × Nat)) (r : Nat) : List (Nat × Nat) × Nat :=
  order.foldl (fun (acc : List (Nat × Nat) × Nat) i =>
    let have_ := (findKey acc.1 i.module).getD 0
    let g := min (min (goal i) i.cap - have_) acc.2
    (putKey acc.1 i.module (have_ + g), acc.2 - g)) (a, r)

/-- The allocation of R429: the own share, STEELYARD_PARTIAL and GROUP_UNATTAINABLE. -/
def State.allocation (s : State) : Nat × Bool × Bool :=
  let own := s.fab.moduleNo
  let shares := s.power.sets.map s.share
  let shares := if shares.any (fun x => x.module = own) then shares
    else shares ++ [⟨own, 0x7FFFFFFF, 3600, 3600, 3600, 3600, false, false⟩]
  let part := shares.any (fun x => !x.heard)
  let order := shares.mergeSort Share.before
  let a := shares.map (fun x => (x.module, min x.floor x.cap))
  let used := (a.map (·.2)).sum
  let g := bits (s.reg 0x40030) 0 20
  if used > g then ((findKey a own).getD 0, part, true)
  else
    let p1 := grantPass Share.pref order a (g - used)
    let p2 := if shares.any (·.constrained) then p1 else grantPass Share.boost order p1.1 p1.2
    ((findKey p2.1 own).getD 0, part, false)

/-! ### The decision (R423) -/

/-- The die with the highest x above 0, ties the lower number. -/
def highest (x : List Nat) : Option Nat :=
  (List.range 4).foldl (fun best d =>
    match best with
    | none => if nth 0 x d > 0 then some d else none
    | some c => if nth 0 x d > nth 0 x c then some d else some c) none

/-- The die below its want with the lowest x, ties the lower number. -/
def lowest (x want : List Nat) : Option Nat :=
  (List.range 4).foldl (fun best d =>
    if nth 0 x d < nth 0 want d then
      match best with
      | none => some d
      | some c => if nth 0 x d < nth 0 x c then some d else some c
    else best) none

/-- The lowering loop; 44 steps lower every die from OP11 to OP0. -/
def State.lowerLoop (s : State) (budget : Rat) : Nat → List Nat → List Nat
  | 0, x => x
  | n + 1, x =>
    if s.predict x > budget then
      match highest x with
      | some d => s.lowerLoop budget n (modNth x d (· - 1))
      | none => x
    else x

/-- The raising loop. -/
def State.raiseLoop (s : State) (budget : Rat) (want : List Nat) : Nat → List Nat → List Nat
  | 0, x => x
  | n + 1, x =>
    match lowest x want with
    | none => x
    | some c =>
      let y := modNth x c (· + 1)
      if s.predict y > budget - 50 then x else s.raiseLoop budget want n y

/-- The cap of a decision at tick `due` of the running beat: a write or an expiry stamped at that tick or later does not count in it
(R424). -/
def State.capAt (s : State) (due : Nat) : Nat :=
  match s.power.capPrev with
  | some (w, c) => if s.time.clk + due ≤ c + s.time.tick then w else s.cap
  | none => s.cap

/-- The decision at tick DEADLINE. -/
def State.decide (s : State) : State :=
  let due := bits s.steelCfg 16 21
  let s := s.toTick due
  let alloc := s.allocation
  let en := bit s.steelCfg 0
  let cap := s.capAt due
  let budget := if en then min cap alloc.1 else cap
  let want := s.wantAt (s.time.beat + 1)
  let x := (List.range 4).map fun d => min (nth 0 s.power.oAt d) (nth 0 want d)
  let x := s.lowerLoop budget 44 x
  let x := s.raiseLoop budget want 44 x
  let unatt := x.all (· = 0) && s.predict x > (budget : Rat)
  let cons := (List.range 4).any (fun d => nth 0 x d < nth 0 want d)
  let old := s.powerStatus
  let was := s.power.capUnatt
  let s := s.setPower { s.power with
    decided := s.time.beat + 1, pend := if x = s.power.op then none else some x, budget := budget, capUnatt := unatt, constrained := cons,
    partialSet := en && alloc.2.1, groupUnatt := en && alloc.2.2,
    deferred := s.power.deferred && x ≠ s.power.op }
  let s := if was == unatt then s else s.powerRecord old
  s.alertCheck

/-- One decision in a beat, while the hub runs. -/
def State.decideOnce (s : State) : State := if !s.hubRuns || s.power.decided = s.time.beat + 1 then s else s.decide

def execPowerDecision (s : State) : Res := .next (s.watched State.decideOnce)

/-- A locked phase begins at tick 0 of the running beat (R62): a LOCK_BEGIN so stamped in a schedule that runs, current or bound. -/
def State.phaseBegins (s : State) : Bool :=
  s.mayRun && s.serve.insts.any fun x => x.state == .active && !x.stopped && x.sched.slots.any fun g =>
    (x.sched.cur == some g.gen || !g.refs.isEmpty) && g.val.period == s.time.period &&
      g.val.entries.any fun e => e.kind == 5 && e.tick == 0 && e.boff == s.time.beat % max g.val.cycle 1

/-- A locked phase is in force at tick 0 of the running beat (R62). -/
def State.lockedPhase (s : State) : Bool := s.time.lockEnds.any (fun p => s.time.beat < p.2) || s.phaseBegins

/-- The pending assignment at a boundary (R61, R62, R423). -/
def State.applyPending (s : State) : State :=
  match s.power.pend with
  | none => s
  | some x =>
    let lowers := (List.range 4).any (fun d => nth 0 x d < nth 0 s.power.op d)
    if s.lockedPhase then
      (s.bumpIf lowers 0x40078).setPower { s.power with deferred := s.power.deferred || lowers }
    else
      let y := (List.range 4).map fun d => min (nth 0 x d) (s.ceiling d)
      (s.setPower { s.power with pend := none, deferred := false }).applyOps y

/-! ### Input (R416, R433) -/

/-- The low-input response begins. -/
def State.lowInputOn (s : State) : State :=
  if s.power.lowInput then s
  else
    let old := s.powerStatus
    let s := s.setPower { s.power with lowInput := true, lowClear := none }
    (s.holdCeilings.powerRecord old).alertCheck

/-- Sums and extremes of the running beat. -/
def State.measureInput (s : State) (x : InputSample) : State :=
  let p := s.power
  let m := p.sum
  let sum : MeasSum := ⟨m.n + 1, m.input + x.input, [nth 0 m.die 0 + x.die0, nth 0 m.die 1 + x.die1, nth 0 m.die 2 + x.die2,
    nth 0 m.die 3 + x.die3], m.hub + x.hub, m.hbm + x.hbm, m.vault + x.vault⟩
  let vin := if m.n = 0 then x.vin else min p.cur.vin x.vin
  s.setPower { p with sum := sum, cur := { p.cur with vin := vin } }

/-- One sample of the input: the island's supply and the held MAIN_EN, the measurement, and the thresholds. -/
def State.sampleInput (s : State) (x : InputSample) (boot : StartUp) : State :=
  let ok := 3000 ≤ x.vin && x.vin ≤ 4000
  let s := { s with svc := { s.svc with vinOk := ok, island := s.svc.island || ok } }
  if s.svc.phase == .off then (if s.svc.mainEn && s.svc.island && s.mayPowerUp then s.start boot else s)
  else if s.hubRuns then
    let s := s.measureInput x
    if x.vin < 2800 then s.orderlyHalt 3
    else if x.vin > 4100 then s.orderlyHalt 4
    else
      let clear := if x.vin ≥ 3300 then some (s.power.lowClear.getD s.time.clk) else none
      let s := s.setPower { s.power with lowClear := clear }
      if x.vin < 3200 then s.lowInputOn else s
  else s

def execInputSample (x : InputSample) (s : State) (boot : StartUp := ⟨[], []⟩) : Res := .next (s.watched (·.sampleInput x boot))

/-- Input at or above 33.0 V for 1 ms ends the response. -/
def State.lowInputOff (s : State) : State :=
  match s.power.lowClear with
  | none => s
  | some c =>
    if !s.power.lowInput then s
    else s.atTimer (c + 1000000) fun s =>
      let old := s.powerStatus
      ((s.setPower { s.power with lowInput := false }).powerRecord old).alertCheck

def execLowInputClear (s : State) : Res := .next (s.watched State.lowInputOff)

/-! ### Temperature (R433) -/

/-- THERMAL_CFG fields: THROTTLE, SLOPE, SLOPE_MIN_T. -/
def State.throttle (s : State) : Nat := bits (s.reg 0x40038) 0 8
def State.slopeLimit (s : State) : Nat := bits (s.reg 0x40038) 8 8
def State.slopeMinT (s : State) : Nat := bits (s.reg 0x40038) 16 8

/-- Slope of the module's Tj over the last 1 ms, in 0.1 °C/ms: against the reading 100 readings ago. -/
def Power.slope (p : Power) : Option Int :=
  match (p.tjHist[0]? : Option Nat), (p.tjHist[100]? : Option Nat) with
  | some a, some b => some (((a : Int) - (b : Int)) * 10)
  | _, _ => none

/-- THERMAL (R437). -/
def State.thermalEvent (s : State) (cause die tj : Nat) (slope : Int) : State :=
  s.event 0x2A 0 (if die < 4 then locDie die else locNone)
    (leBytes 1 cause ++ leBytes 1 die ++ leBytes 1 tj ++ zeros 1 ++ leBytes 2 (unsgn 16 slope))

/-- The coolant-loss response begins or ends by the slope. -/
def State.coolantCheck (s : State) (tj : Nat) : State :=
  match s.power.slope with
  | none => s
  | some z =>
    if !s.power.coolant then
      if tj ≥ s.slopeMinT && z > (s.slopeLimit : Int) then
        let old := s.powerStatus
        let s := (s.setPower { s.power with coolant := true, coolCalm := 0 }).powerRecord old
        (s.thermalEvent 2 0xFF tj z).alertCheck
      else s
    else if z < (s.slopeLimit : Int) then
      if s.power.coolCalm + 1 ≥ 100 then
        let old := s.powerStatus
        ((s.setPower { s.power with coolant := false, coolCalm := 0 }).powerRecord old).alertCheck
      else s.setPower { s.power with coolCalm := s.power.coolCalm + 1 }
    else s.setPower { s.power with coolCalm := 0 }

/-- The sensors are read: the beat's highest values, the halt at 105 °C, the slope. -/
def State.readSensors (s : State) (x : TempSample) : State :=
  if !s.hubRuns then s
  else
    let l := [x.fd0, x.fd1, x.fd2, x.fd3, x.hub, x.hbm]
    let tj := l.foldl max 0
    let c := s.power.cur
    let s := s.setPower { s.power with
      tj := l, tjHist := (tj :: s.power.tjHist).take 101,
      cur := { c with tj := (List.range 4).map (fun d => max (nth 0 c.tj d) (nth 0 l d)), tjHub := max c.tjHub x.hub,
                      tjHbm := max c.tjHbm x.hbm } }
    if tj ≥ 105 then s.orderlyHalt 5 else s.coolantCheck tj

def execSensorRead (x : TempSample) (s : State) : Res := .next (s.watched (·.readSensors x))

/-- The analog comparator removes every supply but VVLT and asserts the power-fail signal (R433). -/
def State.trip (s : State) : State :=
  if s.hubRuns || s.svc.phase == .supplies then
    let s := if s.vault.mapReady then s.quiesce else s
    ((s.supplyLess false).latchCause 6).setPhase .halted
  else if s.svc.phase == .standby then s.loseVhbm
  else s

def execHardwareTrip (s : State) : Res := .next (s.watched State.trip)

/-- Ceilings of throttling and coolant loss step at a boundary, locked phases included (R433). DEDUCED (notes/assumptions/70.md): the
throttle response, judged at the boundary on the latest reading, lowers the ceiling at every boundary from THROTTLE on until Tj is below
THROTTLE - 5 °C. -/
def State.thermalStep (s : State) : State :=
  let th := s.throttle
  let step (c o : Nat) : Nat := min c o - 1
  let was (d : Nat) : Bool := nth false s.power.throttled d
  let hot (d : Nat) : Bool := nth 0 s.power.tj d ≥ th || (was d && nth 0 s.power.tj d + 5 ≥ th)
  let thermal := (List.range 4).map fun d =>
    let c := nth 11 s.power.thermal d
    if hot d then step c (nth 0 s.power.op d) else min (c + 1) 11
  let coolC := (List.range 4).map fun d =>
    let c := nth 11 s.power.coolCeil d
    if s.power.coolant then step c (nth 0 s.power.op d) else min (c + 1) 11
  let starts := (List.range 4).filter fun d => hot d && !(was d)
  let steps := ((List.range 4).filter hot).length + (if s.power.coolant then 4 else 0)
  let s := starts.foldl (fun s d => s.thermalEvent 1 d (nth 0 s.power.tj d) (s.power.slope.getD 0)) s
  ((s.bumpBy 0x40088 steps).setPower { s.power with thermal := thermal, throttled := (List.range 4).map hot, coolCeil := coolC }).holdCeilings

/-! ### Droop (R431, R432) -/

/-- A detector trips: counted, and the die's clock runs one step lower. -/
def State.droop (s : State) (d : Fin 4) : State :=
  let p := s.power
  (s.bump 0x40070).setPower { p with droopTrips := modNth p.droopTrips d.val (· + 1), droopLow := setNth p.droopLow d.val true,
                                     cur := { p.cur with droop := min (p.cur.droop + 1) 0xFFFF } }

def execDroopTrip (die : Fin 4) (s : State) : Res := .next (s.droop die)

/-- 1 µs after the last detector clears the clock returns. -/
def State.droopEnd (s : State) (d : Fin 4) : State :=
  s.setPower { s.power with droopLow := setNth s.power.droopLow d.val false }

def execDroopRecovery (die : Fin 4) (s : State) : Res := .next (s.droopEnd die)

/-- A die's droop ceiling changes: the record and the event. -/
def State.droopCeiling (s : State) (d : Nat) (c : Option (Nat × Nat)) (trips : Nat) : State :=
  let old := s.powerStatus
  let s := (s.setPower { s.power with droopCeil := setNth s.power.droopCeil d c }).powerRecord old
  s.event 0x2C 0 (locDie d) (leBytes 1 d ++ leBytes 1 (match c with | some p => p.1 | none => 11) ++ leBytes 2 trips)

/-- At the end of a beat, a die over DROOP_LIMIT loses a step for 1,000 beats. -/
def State.droopStep (s : State) : State :=
  let limit := bits (s.reg 0x40040) 8 8
  let s := (List.range 4).foldl (fun s d =>
    let n := nth 0 s.power.droopTrips d
    if n > limit then s.droopCeiling d (some (nth 0 s.power.op d - 1, s.time.beat + 1000)) n else s) s
  (s.setPower { s.power with droopTrips := [0, 0, 0, 0] }).holdCeilings

/-- 1,000 beats after the last lowering the ceiling lifts; before that the row does nothing. -/
def State.droopLift (s : State) (d : Fin 4) : State :=
  match nth none s.power.droopCeil d.val with
  | some c => if c.2 ≤ s.time.beat then s.droopCeiling d.val none 0 else s
  | none => s

def execDroopCeilingLift (die : Fin 4) (s : State) : Res := .next (s.droopLift die)

/-! ### Caps and leases (R424) -/

/-- The cap is about to change: what was in force before the first change of a tick is kept (R424). -/
def State.noteCap (s : State) : State :=
  let again := match s.power.capPrev with | some p => p.2 == s.time.clk | none => false
  if again then s else s.setPower { s.power with capPrev := some (s.cap, s.time.clk) }

/-- A lease starts. -/
def State.startLease (s : State) : State :=
  s.setPower { s.power with lease := some (s.time.clk + s.reg 0x40008 * 1000000) }

/-- The lease fires (R424). -/
def State.leaseEnds (s : State) : State :=
  match s.power.lease with
  | none => s
  | some due =>
    s.atTimer due fun s =>
      let old := s.powerStatus
      let before := s.cap
      let s := s.noteCap
      let s := (s.setPower { s.power with lease := none, fallback := true }).powerRecord old
      s.event 0x29 0 locNone (leBytes 2 before ++ leBytes 2 (s.reg 0x40018))

/-- A lease that has come to its end by the tick of a write has fired before it (R8, R47, R48). -/
def State.ripeLease (s : State) : State :=
  match s.power.lease with
  | some due => if due ≤ s.time.clk then s.leaseEnds else s
  | none => s

/-- CAP: the cap, a lease, FALLBACK cleared. -/
def State.writeCap (s : State) (v : Nat) : State :=
  let s := s.ripeLease.noteCap
  (s.setPower { s.power with capWatts := bits v 0 16, capValid := true, fallback := false }).startLease

/-- CAP_RENEW. -/
def State.writeRenew (s : State) (v : Nat) : State := if bit v 0 then s.ripeLease.startLease else s

def execLeaseExpiry (s : State) : Res := .next s.leaseEnds

/-- STEELYARD_CFG (R427, R438): DEADLINE 0 becomes 5,000 when EN is first set. -/
def State.writeSteelCfg (s : State) (v : Nat) : State :=
  let v := if bit v 0 && !(bit s.steelCfg 0) && bits v 16 21 = 0 then putBits v 16 21 5000 else v
  s.setReg 0x40028 v

/-- The bound on DEADLINE at the current period (R427). -/
def State.steelOk (s : State) (v : Nat) : Bool := bits v 16 21 ≤ s.time.period * 1000 - 7000

/-! ### Reporting (R417, R435) -/

/-- The beat's measurements close: means of the samples, and the operating points they were taken at. -/
def State.closeMeas (s : State) : State :=
  let p := s.power
  let mean (x : Nat) : Nat := if p.sum.n = 0 then 0 else (2 * x + p.sum.n) / (2 * p.sum.n)
  let m : Meas := { p.cur with input := mean p.sum.input, die := p.sum.die.map mean, hub := mean p.sum.hub, hbm := mean p.sum.hbm,
                               vault := mean p.sum.vault }
  let m := if p.sum.n = 0 then { p.last with droop := p.cur.droop, changes := p.cur.changes } else m
  let m := { m with cap := s.cap, budget := p.budget, flags := s.powerStatus % 2 ^ 11 }
  let old := p.last
  (s.setPower { p with last := m, cur := Meas.zero, sum := MeasSum.zero, oAt := p.op }).rangeEvents old m

/-- The power frame of the beat just ended (R435). -/
def State.powerFrame (s : State) : List Byte :=
  let m := s.power.last
  let w2 (n : Nat) : List Byte := leBytes 2 (min n 0xFFFF)
  fit 64 (leBytes 8 (s.time.beat - 1) ++ w2 m.input ++ w2 m.budget ++ w2 m.cap ++ w2 (toWatts (s.predict [0, 0, 0, 0])) ++
    m.die.flatMap w2 ++ s.power.oAt.flatMap (leBytes 1) ++ w2 m.hub ++ w2 m.hbm ++ w2 m.vault ++ w2 m.vin ++
    m.tj.flatMap (leBytes 1) ++ leBytes 1 m.tjHub ++ leBytes 1 m.tjHbm ++ w2 m.droop ++ leBytes 2 m.flags ++ w2 m.changes)

end Sys2Proof.Machine
end

