-- ==== Sys2Proof/Machine/Host.lean ====
section
/-! DEFINITION. The host rings, doorbells, interrupts, and what every host command shares: its fetch, the checks of R399 and its
completion (15_host_rings_and_dma, R387 to R407, R413; 19 R489). -/
namespace Sys2Proof.Machine

/-! ### Commands (R391, R398 to R402) -/

/-- A fetched command as its own rule sees it: the origin of its SQ's owner, the completion to write, and its stamp. -/
structure Job where
  origin : Nat
  cmd    : Cmd
  opcode : Nat
  cqe    : Cqe
  stamp  : Stamp                          -- of the doorbell that made the command visible (R44)
  clk    : Nat
  deriving DecidableEq, Repr

/-- Slots of a CQ that fetched, uncompleted commands have reserved (R402). -/
def State.reserved (s : State) (cq : Nat) : Nat :=
  (s.host.rings.filter (fun x => x.num < 512 && x.cq = cq)).foldl (fun a x => a + x.inFlight) 0

/-- The front end may fetch the next entry of an SQ (R397, R401, R402, R489). DESIGN CHOICE (notes/assumptions/121.md): no slot is reserved in a
CQ that is not ACTIVE. -/
def State.mayFetch (s : State) (c : Cmd) : Bool :=
  let x := s.ring c.sq.val
  let q := s.ring (512 + x.cq)
  x.st = 1 && x.head ≠ x.tail && !(s.asleep x.owner) && x.inFlight < 64 && q.st = 1 && q.used + s.reserved x.cq + 1 ≤ q.size &&
    (!c.fence || x.inFlight = 0)

/-- A ring enters ERROR, with its event (R397). -/
def State.ringError (s : State) (r err : Nat) : State :=
  let x := s.ring r
  (s.setRing { x with st := 2, err := err }).ownEvent x.owner 0x01 (leBytes 2 r ++ leBytes 1 err)

/-- The value a COMMAND record digests (R460). -/
def cmdValue (c : Cmd) : List Byte := if c.block.isEmpty then fit 44 c.args else c.block

/-- OBJECT of a COMMAND record (R460). -/
def objCommand (opcode inst id : Nat) : Nat := object 0x02 (opcode + (inst % 16) * 2 ^ 8 + (id % 65536) * 2 ^ 12)
/-- OBJECT of a GENERATION record (R460). -/
def objGeneration (type inst id : Nat) : Nat := object 0x03 (type + (inst % 16) * 2 ^ 8 + (id % 65536) * 2 ^ 12)
/-- OBJECT of an INSTANCE record (R460). -/
def objInstance (inst state : Nat) : Nat := object 0x0D (inst + state * 16)

/-- A completion without a record. -/
def State.complete (s : State) (j : Job) (status : Nat) (result : List Byte) : State :=
  s.cqWrite { j.cqe with status := status, result := fit 32 result }

/-- A refused command (R14, R460, R465): its record, unless the ledger is in the refusal range, then its completion. -/
def State.refuse (s : State) (j : Job) (status : Nat) : State :=
  let q : Cqe := { j.cqe with status := status, result := zeros 32 }
  if s.ledgerShut && fromOutside j.origin then s.cqWrite q
  else s.handCq j.origin true (objCommand j.opcode j.cmd.inst.val 0) (cmdValue j.cmd) (cmdValue j.cmd) (some q)

/-- The end of a command that fails: a refusal where the status is one (R14), else a completion that changes nothing. -/
def State.fail (s : State) (j : Job) (status : Nat) : State :=
  if isRefusal status then s.refuse j status else s.complete j status []

/-- An accepted command with its record; the completion follows the record (R399, R401). -/
def State.accept (s : State) (j : Job) (obj : Nat) (old new : List Byte) (result : List Byte) : State :=
  s.handCq j.origin false obj old new (some { j.cqe with status := stOK, result := fit 32 result })

/-- What R398 says of a command: who may send it, whether it names an instance, and its parameter block's length if it has one. -/
structure CmdShape where
  allowed : Nat → Bool                    -- by origin
  names   : Bool
  paramLen : Option Nat
  change  : Bool

/-- The command is well formed (R391, R399 step 2). -/
def cmdFormed (c : Cmd) (h : CmdShape) : Bool :=
  !c.reserved && (h.names || c.inst == 0) && c.args.length = 44 &&
    match h.paramLen with
    | none => c.param == 0 && c.paramLen == 0
    | some n => c.param != 0 && c.param.toNat % 64 = 0 && c.paramLen.toNat = n && n ≠ 0

/-- The stamp of the entry at an SQ's head, and its clk: the doorbell write that made it visible (R44). -/
def Ring.bellAt (x : Ring) (s : State) : Stamp × Nat := match x.bells with | b :: _ => b.2 | [] => (s.now, s.time.clk)

/-- The head of an SQ after the entry at it. -/
def Ring.after (x : Ring) : Nat := if x.head + 1 ≥ x.size then 0 else x.head + 1

/-- The entry at the head of the command's SQ is consumed. -/
def State.consumed (s : State) (c : Cmd) : State :=
  let x := s.ring c.sq.val
  s.setRing { x with head := x.after, inFlight := x.inFlight + 1, bells := x.bells.filter fun b => b.1 ≠ x.after }

/-- The job of a fetched command; `row` is its opcode unless the entry carries another. -/
def State.jobOf (s : State) (row : Nat) (c : Cmd) : Job :=
  let x := s.ring c.sq.val
  let opcode := match c.opcode with | some o => o.toNat | none => row
  let bell := x.bellAt s
  ⟨x.owner, c, opcode, { sq := c.sq.val, cid := c.cid.toNat, head := x.after, status := 0, opcode := opcode, result := zeros 32 }, bell.1, bell.2⟩

/-- A command from its fetch on: the checks of R399, the full ledger (R465), then its own rule. A reserved opcode, for which R398 names no
origin, passes the first check and fails the second. -/
def State.command (s : State) (row : Nat) (c : Cmd) (h : CmdShape) (act : State → Job → State) : State :=
  if !(s.mayFetch c) then s
  else if c.fetchError then (s.bump 0xC0828).ringError c.sq.val 2
  else
    let j := s.jobOf row c
    let s := s.consumed c
    if c.opcode.isSome then s.refuse j stINVALID_FIELD
    else if !(h.allowed j.origin) || (h.names && 2 ≤ j.origin && (s.inst c.inst.val).owner ≠ j.origin) then s.refuse j stNOT_PERMITTED
    else if !(cmdFormed c h) then s.refuse j stINVALID_FIELD
    else if c.busError then (s.bump 0xC0828).complete j stBUS_ERROR []
    else if h.change && s.ledgerShut && fromOutside j.origin then (s.bump 0x70050).complete j stBUSY []
    else act s j

/-- Origins 0x1 only. -/
def onlyPf (o : Nat) : Bool := o = 1
/-- The PF, or the owning VF (which the instance check of R399 settles). -/
def pfOrOwner (o : Nat) : Bool := 1 ≤ o && o ≤ 9

/-- NOP (R398). -/
def execNopCommand (c : Cmd) (s : State) : Res :=
  .next (s.command 0x3F c ⟨pfOrOwner, false, none, false⟩ fun s j => s.complete j stOK [])

/-- Reserved bits of ARGS: every byte not listed is zero. -/
def argsZero (args : List Byte) (off n : Nat) : Bool := allZero (slice args off n)

/-- HINT (R398, R422): from its start beat on it takes the place of an earlier one for the same die. -/
def State.hintCommand (s : State) (j : Job) : State :=
  let a := j.cmd.args
  let die := field a 0 1
  let phase := field a 1 1
  let op := field a 2 1
  let start := field a 8 8
  let beats := field a 16 2
  if die ≥ 16 || phase > 4 || (op > 11 && op ≠ 0xFF) || start ≥ 2 ^ 48 || start < j.stamp.beat + 2 || beats = 0 ||
      !(argsZero a 3 5) || !(argsZero a 18 26) then s.fail j stINVALID_FIELD
  else
    let new := ((List.range 4).filter (fun d => bit die d)).map fun d =>
      (⟨d, if op = 0xFF then 16 + phase else op, start, beats⟩ : Hint)
    let keep := (s.power.hints.filter fun h => s.time.beat < h.start + h.beats).filterMap fun h =>
      if !(bit die h.die) then some h else if start ≤ h.start then none else some { h with beats := min h.beats (start - h.start) }
    (s.setPower { s.power with hints := keep ++ new }).accept j (objCommand 0x38 0 0) [] (cmdValue j.cmd) []

def execHint (c : Cmd) (s : State) : Res := .next (s.command 0x38 c ⟨onlyPf, false, none, true⟩ State.hintCommand)

/-! ### Doorbells (R396, R397, R403) -/

/-- A doorbell discarded and counted (R396). -/
def State.discardBell (s : State) : State := s.bump 0xC0818

/-- The doorbell reaches an ACTIVE ring of its function (R396). DESIGN CHOICE (notes/assumptions/121.md): bits [31:16] of its value, which
R396 does not list among the cases that discard it, are not looked at. -/
def State.bellOk (s : State) (d : Bell) : Bool :=
  let x := s.ring d.page.val
  d.offset == 0 && x.owner = d.fn.code && x.st = 1

/-- Held token records written while the TQ has room (R403). -/
def State.drainTq (s : State) : Nat → Nat → State
  | 0, _ => s
  | n + 1, tq =>
    match s.serve.tqHold.find? (fun h => h.1 = tq) with
    | none => s
    | some h =>
      let x := s.ring (1024 + tq)
      if x.room 1 && !(s.asleep x.owner) then
        let s := { s with serve := { s.serve with tqHold := s.serve.tqHold.erase h } }
        ((s.emit (.tq (1024 + tq) x.phase h.2)).produce (1024 + tq)).drainTq n tq
      else s

/-- An SQ's doorbell: the new tail (R397). -/
def State.sqBell (s : State) (d : Bell) : State :=
  if !(s.bellOk d) then s.discardBell
  else
    let x := s.ring d.page.val
    let tail := bits d.value.toNat 0 16
    if tail ≥ x.size then s.ringError d.page.val 1
    else s.setRing { x with tail := tail, bells := if tail = x.tail then x.bells else x.bells ++ [(tail, s.now, s.time.clk)] }

def execSqDoorbell (d : Bell) (s : State) : Res :=
  .next (if d.page.val < 512 then s.sqBell d else if d.page.val ≥ 1136 then s.discardBell else s)

/-- A CQ's, TQ's or EQ's doorbell: the new head (R397). -/
def State.headBell (s : State) (d : Bell) : State :=
  if !(s.bellOk d) then s.discardBell
  else
    let r := d.page.val
    let x := s.ring r
    let head := bits d.value.toNat 0 16
    let n := (head + x.size - x.head) % x.size
    if head ≥ x.size then s.ringError r 1
    else if n > x.used then s.ringError r 3
    else
      let s := s.setRing { x with head := head, used := x.used - n }
      if 1024 ≤ r && r < 1088 then s.drainTq 64 (r - 1024) else s

def execCompletionHeadDoorbell (d : Bell) (s : State) : Res :=
  .next (if 512 ≤ d.page.val && d.page.val < 1104 then s.headBell d else if d.page.val ≥ 1136 then s.discardBell else s)

/-! ### Interrupts (R405) -/

/-- TIME after the first unsignalled entry the vector is sent. -/
def State.irqDue (s : State) (r : Nat) : State :=
  let x := s.ring r
  match x.timer with
  | none => s
  | some due =>
    s.atTimer due fun s =>
      let s := s.setRing { x with timer := none, unsig := 0 }
      if bit x.irq 11 then s.msix (fnOf x.owner) (bits x.irq 0 11) else s

def execIrqTimer (ring : Fin 1104) (s : State) : Res := .next (s.irqDue ring.val)

/-- A function's state replaced. -/
def State.setFunc (s : State) (f : Nat) (x : Func) : State :=
  { s with host := { s.host with funcs := setNth s.host.funcs f x } }

/-- A vector unmasked: a pending message is sent once. -/
def State.unmask (s : State) (f vector : Nat) : State :=
  let x := s.func f
  let x := { x with masked := x.masked.filter (· ≠ vector) }
  if x.pendVec.contains vector && !x.d3hot then
    (s.setFunc f { x with pendVec := x.pendVec.filter (· ≠ vector) }).emit (.msix f vector)
  else s.setFunc f x

def execMsixVectorUnmask (fn : Fin 9) (vector : Fin 1024) (s : State) : Res := .next (s.unmask fn.val vector.val)

/-! ### Ring registers (R406, R413) -/

/-- Kind of a ring: 0 SQ, 1 CQ, 2 TQ, 3 EQ. -/
def ringKind (r : Nat) : Nat := if r < 512 then 0 else if r < 1024 then 1 else if r < 1088 then 2 else 3

/-- Rings of a kind that a function may hold (R406). -/
def ringLimit (kind owner : Nat) : Nat :=
  if owner = 1 then nth 0 [512, 512, 64, 16] kind else nth 0 [64, 64, 8, 2] kind

/-- Rings of a kind of a function; a ring at reset belongs to the PF. -/
def State.ringsOf (s : State) (kind owner : Nat) : Nat :=
  if owner = 1 then nth 0 [512, 512, 64, 16] kind - (s.host.rings.filter (fun x => ringKind x.num = kind && x.owner ≠ 1)).length
  else (s.host.rings.filter (fun x => ringKind x.num = kind && x.owner = owner)).length

/-- RING_OWNER may be written. -/
def State.ringOwnerOk (s : State) (r v : Nat) : Bool :=
  let x := s.ring r
  let o := bits v 0 4
  x.st = 0 && (o = x.owner || s.ringsOf (ringKind r) o < ringLimit (ringKind r) o)

/-- A TQ named by a live request (R413). -/
def State.tqLive (s : State) (tq : Nat) : Bool :=
  s.serve.insts.any (fun i => i.queue.any (fun q => q.tq = tq) || i.seqs.any (fun q => q.tq = tq))

/-- RING_CFG may be written (R413). -/
def State.ringCfgOk (s : State) (r v : Nat) : Bool :=
  let x := s.ring r
  let en := bit v 0
  let size := bits v 1 5
  let cq := bits v 6 9
  let q := s.ring (512 + cq)
  let kind := ringKind r
  if x.enable then
    size = x.sizeLog && (kind ≠ 0 || cq = x.cq) &&
      (en || !((kind = 1 && s.host.rings.any (fun y => y.num < 512 && y.enable && y.cq + 512 = r)) ||
               (kind = 2 && s.tqLive (r - 1024))))
  else kind ≠ 0 || (q.owner = x.owner && (!en || q.st = 1))

/-- RING_CFG (R390, R413): setting ENABLE starts the ring afresh; clearing it disables the ring. -/
def State.writeRingCfg (s : State) (r v : Nat) : State :=
  let x := s.ring r
  let x := { x with sizeLog := bits v 1 5, cq := if r < 512 then bits v 6 9 else 0 }
  if bit v 0 then
    if x.enable then s.setRing x
    else s.setRing { x with enable := true, head := 0, tail := 0, used := 0, phase := true, st := 1, err := 0, unsig := 0, timer := none,
                            lost := 0, bells := [] }
  else s.setRing { x with enable := false, st := 0, err := 0, timer := none, unsig := 0, bells := [] }

/-- Vectors a function may name (R388, R413). -/
def vectorOk (owner v : Nat) : Bool := if owner = 1 then v < 1024 else v < 128

/-! ### D3hot (R489) -/

/-- A channel stops (R411). -/
def Chan.stop (c : Chan) : Chan :=
  match c.st with
  | .fetch | .waiting => { c with st := .stopped, desc := none, stopPending := false }
  | .run | .writeback => { c with stopPending := true }
  | _ => c

/-- D3hot: the function's channels stop at descriptor boundaries. -/
def State.sleep (s : State) (f : Nat) : State :=
  let s := s.setFunc f { s.func f with d3hot := true }
  { s with host := { s.host with chans := s.host.chans.map fun c => if c.owner = f + 1 then c.stop else c } }

def execD3hotEntry (fn : Fin 9) (s : State) : Res := .next (s.sleep fn.val)

/-- Back in D0: held completions, token records and vectors go out in order. -/
def State.wake (s : State) (f : Nat) : State :=
  let x := s.func f
  let due := x.pendVec.filter (fun v => !(x.masked.contains v))
  let s := s.setFunc f { x with d3hot := false, pendVec := x.pendVec.filter (fun v => x.masked.contains v) }
  let mine := s.host.cqHold.filter (fun q => (s.ring q.sq).owner = f + 1)
  let s := { s with host := { s.host with cqHold := s.host.cqHold.filter (fun q => (s.ring q.sq).owner ≠ f + 1) } }
  let s := mine.foldl State.cqWrite s
  let s := (List.range 64).foldl (fun s t => if (s.ring (1024 + t)).owner = f + 1 then s.drainTq 64 t else s) s
  s.emits (due.map (Out.msix f))

def execD0Return (fn : Fin 9) (s : State) : Res := .next (s.wake fn.val)

end Sys2Proof.Machine
end

