-- ==== Sys2Proof/Machine/Beads.lean ====
section
/-! DEFINITION. The bead array: tile memory and its directory, edges and spill, the issue rule, counters and branches, waits,
gates, context switching, steering, router errors and spatial deadlock (03 R78 to R110; R222). -/
namespace Sys2Proof.Machine

/-! ### Beads, contexts, configurations -/

/-- A bead at reset. -/
def Bead.fresh (b : BeadId) : Bead :=
  { id := b, current := none, accTag := none, acc := [], dir := [], dicts := [], fills := [], formatFails := [], encIn := [] }

def State.bead (s : State) (b : BeadId) : Bead := (s.arr.beads.find? (fun x => x.id == b)).getD (Bead.fresh b)

def State.setBead (s : State) (x : Bead) : State :=
  let bs := if s.arr.beads.any (fun y => y.id == x.id) then s.arr.beads.map (fun y => if y.id == x.id then x else y)
    else s.arr.beads ++ [x]
  { s with arr := { s.arr with beads := bs } }

/-- A valid context (R84). -/
def State.ctx (s : State) (c : CtxId) : Option Context := s.arr.ctxs.find? (fun x => x.id == c && x.valid)

def State.setCtx (s : State) (c : Context) : State :=
  { s with arr := { s.arr with ctxs := s.arr.ctxs.map (fun x => if x.id == c.id then c else x) } }

/-- A configuration held by the module. -/
def State.cfg (s : State) (num : Nat) : Option Cfg := s.serve.cfgs.find? (fun c => c.num == num)

def State.setCfg (s : State) (c : Cfg) : State :=
  { s with serve := { s.serve with cfgs := s.serve.cfgs.map (fun x => if x.num == c.num then c else x) } }

/-- Instance of a configuration. -/
def State.cfgInst (s : State) (num : Nat) : Nat := match s.cfg num with | some c => c.inst | none => 0xFF

/-- The running step a context works for. -/
def State.ctxStep (s : State) (c : Context) : Option StepRun :=
  match c.step with
  | some n => s.serve.steps.find? (fun r => r.id == n)
  | none => none

/-- A running step changed. -/
def State.onStep (s : State) (id : Nat) (f : StepRun → StepRun) : State :=
  { s with serve := { s.serve with steps := s.serve.steps.map (fun r => if r.id == id then f r else r) } }

/-- The step of a context changed. -/
def State.onCtxStep (s : State) (c : Context) (f : StepRun → StepRun) : State :=
  match c.step with
  | some n => s.onStep n f
  | none => s

/-- The step completes with its replay flag set (R189). -/
def State.noteReplay (s : State) (c : Context) : State := s.onCtxStep c fun r => { r with replay := true }

/-- A flag of the numeric status (R163). -/
def State.noteNumeric (s : State) (c : Context) (i : Nat) : State :=
  s.onCtxStep c fun r => { r with numeric := putBit r.numeric i true }

/-- A fault of one request of a step (R160, R220). -/
def State.faultReq (s : State) (c : Context) (req : Word32) (status : Nat) : State :=
  s.onCtxStep c fun r =>
    { r with seqs := r.seqs.map fun q => if q.req == req && q.fault.isNone then { q with fault := some status, emit := [] } else q }

/-- LOCATION of a bead. -/
def locBead (b : BeadId) : Nat := locOf b.die.val b.rod.val b.bead.val 31 15

/-- STEP_FAULT (R414); bytes 8 to 11 carry the configuration generation, as the event of R108 must (DESIGN CHOICE,
notes/assumptions/81.md). -/
def State.stepFault (s : State) (c : Context) (status b5 : Nat) : State :=
  let (idx, num) := match s.ctxStep c with | some r => (r.index, r.numeric) | none => (0, 0)
  s.instEvent 0x10 (s.cfgInst c.config) c.config status (locBead c.id.bead)
    (leBytes 4 idx ++ leBytes 1 num ++ leBytes 1 b5 ++ zeros 2 ++ leBytes 4 c.gen)

/-! ### Tile memory (R31, R222) -/

/-- The directory entry of a tile. -/
def Bead.entry (x : Bead) (t : Nat) : DirEntry := (findKey x.dir t).getD ⟨false, false, 0⟩

/-- Bytes of bead-local tile memory; an address past 2 MiB wraps (R226; DEDUCED, notes/assumptions/102.md). -/
def State.tileRead (s : State) (b : BeadId) (off n : Nat) : List Byte :=
  let o := off % 0x200000
  let k := min n (0x200000 - o)
  s.load (mpaTile b o) k ++ (if k < n then s.load (mpaTile b 0) (n - k) else [])

/-- Tiles written become dirty, with no valid check (R222); another block stands where one that failed stood (R143). -/
def State.dirtyTiles (s : State) (b : BeadId) (off n : Nat) : State :=
  if n = 0 then s
  else
    let x := s.bead b
    let ts := (List.range ((off + n - 1) / 4096 - off / 4096 + 1)).map (· + off / 4096)
    s.setBead { x with
      dir := ts.foldl (fun d t => putKey d t { x.entry t with dirty := true, checkValid := false }) x.dir,
      formatFails := x.formatFails.filter fun f => !(off < f.2 + 64 && f.2 < off + n) }

/-- A write to bead-local tile memory. -/
def State.tileWrite (s : State) (b : BeadId) (off : Nat) (bs : List Byte) : State :=
  let o := off % 0x200000
  let k := min bs.length (0x200000 - o)
  let s := (s.storeAt (mpaTile b o) (bs.take k)).dirtyTiles b o k
  if k < bs.length then (s.storeAt (mpaTile b 0) (bs.drop k)).dirtyTiles b 0 (bs.length - k) else s

/-- A write at any MPA: a tile of tile memory becomes dirty, a page is used (R222, R231). -/
def State.writeMpa (s : State) (a : Nat) (bs : List Byte) : State :=
  match placeOf s.svc.hbmReady a with
  | .tileMem b off => s.tileWrite b off bs
  | _ => (s.storeAt a bs).touch a bs.length

/-! ### Reads at the memory ports (R25, R80) -/

/-- A staging tile in state FILLING (R227). -/
def State.isFilling (s : State) (a : Nat) : Bool :=
  match placeOf true a with
  | .staging k off => s.mem.filling.contains (k, off / 4096)
  | _ => false

/-- A PENDING common-store tile (R309). -/
def State.isPending (s : State) (a : Nat) : Bool :=
  match placeOf true a with
  | .cs off => s.mem.pendTiles.contains (off / 4096)
  | _ => false

/-- A read that waits for a FILLING tile is counted at its base die (R227, R240). -/
def State.countWait (s : State) (a : Nat) : State := s.bumpIf (s.isFilling a) (rFrame (mpaUnit a) 0xD8)

/-- Reads and gather commands that a die's memory ports have issued to a unit by another way than `via` are not complete (R25). -/
def State.readsOtherWay (s : State) (d unit : Nat) (via : List Nat) : Bool :=
  let other := fun v : Option (List Nat) => match v with | some w => w != via | none => false
  (s.arr.beads.any fun x => x.id.die.val == d && x.fills.any fun f => mpaUnit f.mpa == unit && other f.via) ||
    s.mem.gathers.any fun g => g.ctx.bead.die.val == d && g.stack / 6 == unit && other g.via

/-- A request of a die that went another way to a unit has not completed (R25). -/
def State.otherWay (s : State) (d unit : Nat) (via : List Nat) : Bool :=
  s.readsOtherWay d unit via || s.arr.flights.any fun f => f.src == d && f.dest.ctx.bead.die.val == unit && f.via != via

/-- The way on which a die may issue a request to a unit now (R22, R25). -/
def State.mayIssue (s : State) (d unit : Nat) : Option (List Nat) :=
  let via := s.way d unit
  if s.otherWay d unit via then none else some via

/-- The reads that wait at a bead's memory port go out in order, while fewer than 64 are outstanding (R80), by the route in force (R22) and
not before older requests that went another way have completed (R25). -/
def State.issueBead (s : State) (x : Bead) : Bead :=
  let out := (x.fills.filter fun f => f.via.isSome).length
  let go := fun (p : Nat × List FillTile) (f : FillTile) =>
    match f.via, s.mayIssue x.id.die.val (mpaUnit f.mpa) with
    | none, some via => if p.1 < 64 then (p.1 + 1, p.2 ++ [{ f with via := some via }]) else (p.1, p.2 ++ [f])
    | _, _ => (p.1, p.2 ++ [f])
  { x with fills := (x.fills.foldl go (out, [])).2 }

/-- The reads and gather commands of a die's beads go out as far as they may; one that goes to a tile being filled is counted (R227). -/
def State.issueReads (s : State) (d : Nat) : State :=
  let beads := s.arr.beads.map fun x => if x.id.die.val == d then s.issueBead x else x
  let went := (s.arr.beads.zip beads).flatMap fun p => (p.1.fills.zip p.2.fills).filterMap fun f =>
    if f.1.via.isNone && f.2.via.isSome then some f.2.mpa else none
  let gathers := s.mem.gathers.map fun g =>
    if g.ctx.bead.die.val == d && g.via.isNone then { g with via := s.mayIssue d (g.stack / 6) } else g
  let s : State := { s with arr := { s.arr with beads := beads }, mem := { s.mem with gathers := gathers } }
  went.foldl State.countWait s

/-! ### Edges (R97 to R102) -/

def InEdge.valid (e : InEdge) : Bool := bit e.desc.toNat 0
def InEdge.kind (e : InEdge) : Nat := bits e.desc.toNat 1 2
def InEdge.spillBase (e : InEdge) : Nat := bits e.desc.toNat 3 15 * 64
def InEdge.spillSize (e : InEdge) : Nat := bits e.desc.toNat 18 11
/-- Entries an edge holds at the consumer. -/
def InEdge.held (e : InEdge) : Nat := e.queue.length + e.spillCount
def OutEdge.valid (o : OutEdge) : Bool := bit o.desc.toNat 0
def OutEdge.propagate (o : OutEdge) : Bool := bit o.desc.toNat 1
def OutEdge.capacity (o : OutEdge) : Nat := bits o.desc.toNat 18 11

def InEdge.none : InEdge := ⟨0, [], 0, 0, [], Option.none⟩
def OutEdge.none : OutEdge := ⟨0, 0, 0, []⟩

/-- Input edge `e` of a context. -/
def Context.inEdge (c : Context) (e : Nat) : InEdge := nth InEdge.none c.ins e
/-- Output edge `e` of a context. -/
def Context.outEdge (c : Context) (e : Nat) : OutEdge := nth OutEdge.none c.outs e

/-- The bead an output edge names (R98). -/
def OutEdge.bead (o : OutEdge) : BeadId :=
  let d := o.desc.toNat
  ⟨Fin.ofNat 4 (bits d 2 2), Fin.ofNat 32 (bits d 4 5), Fin.ofNat 16 (bits d 9 4)⟩

/-- The consumer edge an output edge names, through the context map of its configuration (R98, R349). -/
def State.outDest (s : State) (config : Nat) (o : OutEdge) : EdgeId :=
  let d := o.desc.toNat
  let ctx : CtxId := match s.arr.ctxs.find? (fun c => c.valid && c.config == config && c.id.bead == o.bead) with
    | some c => c.id
    | none => ⟨o.bead, Fin.ofNat 4 (bits d 16 2)⟩
  ⟨ctx, Fin.ofNat 8 (bits d 13 3)⟩

/-- Entries in flight to an edge. -/
def State.inFlight (s : State) (e : EdgeId) : Nat := (s.arr.flights.filter fun f => f.dest == e).length

/-- An entry entered or left an edge of a configuration on a die: its watchdog starts again (R107). -/
def State.edgeMoved (s : State) (d config : Nat) : State :=
  let rest := s.arr.moves.filter fun m => !(m.1 == d && m.2.1 == config)
  { s with arr := { s.arr with moves := rest ++ [(d, config, s.time.clk)] } }

/-- Entries leave a unit for an edge, by the route in force (R22). -/
def State.fly (s : State) (src : Nat) (dest : EdgeId) (es : List EdgeEntry) : State :=
  let via := s.way src dest.ctx.bead.die.val
  let fs := es.zipIdx.map fun p => (⟨dest, p.1, src, via, s.arr.sent + p.2⟩ : Flight)
  { s with arr := { s.arr with flights := s.arr.flights ++ fs, sent := s.arr.sent + es.length } }

/-- The entries that an output edge holds go out, each against its own credit (R99, R180). -/
def State.drainEdge (s : State) (cid : CtxId) (o : Nat) : State :=
  match s.ctx cid with
  | none => s
  | some c =>
    let x := c.outEdge o
    let go := x.hold.take x.credits
    if go.isEmpty then s
    else
      let dest := s.outDest c.config x
      let s := s.setCtx { c with outs := setNth c.outs o { x with credits := x.credits - go.length, hold := x.hold.drop go.length } }
      ((s.fly cid.bead.die.val dest go).edgeMoved cid.bead.die.val c.config).edgeMoved dest.ctx.bead.die.val c.config

/-- Entries produced on output edge `o` of a context: tagged, and sent as far as there are credits; the others wait in order (R87, R99,
R102, R180). -/
def State.sendEdge (s : State) (cid : CtxId) (o : Nat) (first : BitVec 16) (ps : List Word512) : State :=
  match s.ctx cid with
  | none => s
  | some c =>
    let x := c.outEdge o
    let es := ps.zipIdx.map fun p => (⟨if x.propagate then first else BitVec.ofNat 16 (x.tags + p.2), p.1⟩ : EdgeEntry)
    let x' := { x with hold := x.hold ++ es, tags := if x.propagate then x.tags else (x.tags + ps.length) % 65536 }
    (s.setCtx { c with outs := setNth c.outs o x' }).drainEdge cid o

/-- The queue refilled from the spill area, oldest entry first (R100). -/
def State.refill (s : State) (b : BeadId) (e : InEdge) : Nat → InEdge
  | 0 => e
  | n + 1 =>
    if e.spillCount = 0 || e.queue.length ≥ 16 then e
    else
      let data := leNat (s.tileRead b (e.spillBase + e.spillHead * 64) 64)
      let tag := leNat (s.tileRead b (e.spillBase + e.spillSize * 64 + e.spillHead * 2) 2)
      s.refill b { e with queue := e.queue ++ [⟨BitVec.ofNat 16 tag, BitVec.ofNat 512 data⟩],
                          spillHead := (e.spillHead + 1) % e.spillSize, spillCount := e.spillCount - 1 } n

/-- Credits returned to the producer of an edge (R89, R99). -/
def State.returnCredit (s : State) (e : EdgeId) (n : Nat) : State :=
  let held := (match s.ctx e.ctx with | some c => (c.inEdge e.edge.val).held | none => 0) + s.inFlight e
  let cfg := match s.ctx e.ctx with | some c => c.config | none => 64
  let fedBy := fun o : OutEdge => o.valid && s.outDest cfg o == e
  let fix := fun c : Context =>
    if c.config ≠ cfg then c
    else { c with outs := c.outs.map fun o =>
      if (fedBy o : Bool) then { o with credits := min (o.credits + n) (o.capacity - held) } else o }
  let more := (s.arr.ctxs.filter fun c => c.config == cfg).flatMap fun c =>
    (c.outs.zipIdx.filter fun o => fedBy o.1 && !o.1.hold.isEmpty).map fun o => (c.id, o.2)
  let s : State := { s with arr := { s.arr with ctxs := s.arr.ctxs.map fix } }
  more.foldl (fun s p => s.drainEdge p.1 p.2) (s.edgeMoved e.ctx.bead.die.val cfg)

/-- The bead whose context produces on an edge (R98). -/
def State.producer (s : State) (e : EdgeId) : Option BeadId :=
  match s.ctx e.ctx with
  | none => none
  | some c => (s.arr.ctxs.find? fun p => p.valid && p.config == c.config &&
      p.outs.any fun o => o.valid && s.outDest c.config o == e).map (·.id.bead)

/-- The first `n` entries of an edge consumed (R87, R89, R100). -/
def State.dequeue (s : State) (cid : CtxId) (e n : Nat) : List EdgeEntry × State :=
  match s.ctx cid with
  | none => ([], s)
  | some c =>
    let x := c.inEdge e
    let x' := s.refill cid.bead { x with queue := x.queue.drop n, ages := x.ages.drop n } n
    let s := (s.setCtx { c with ins := setNth c.ins e x' }).returnCredit ⟨cid, Fin.ofNat 8 e⟩ n
    (x.queue.take n, s)

/-- Several edges consumed, in increasing edge number. -/
def State.dequeueAll (s : State) (cid : CtxId) : List (Nat × Nat) → List (Nat × List EdgeEntry) × State
  | [] => ([], s)
  | (e, n) :: rest =>
    let (g, s) := s.dequeue cid e n
    let (gs, s) := s.dequeueAll cid rest
    ((e, g) :: gs, s)

/-! ### Actions (R85, R87, R88, R91) -/

def Act.unit (a : Act) : Nat := bits a.ctl.toNat 0 4
/-- Edges of a mask. -/
def maskEdges (m : Nat) : List Nat := (List.range 8).filter (bit m)
def Act.ins (a : Act) : List Nat := maskEdges (bits a.ctl.toNat 4 8)
def Act.outs (a : Act) : List Nat := maskEdges (bits a.ctl.toNat 12 8)
def Act.inCount (a : Act) : Nat := if bits a.ctl.toNat 20 4 = 0 then 16 else bits a.ctl.toNat 20 4
def Act.outCount (a : Act) : Nat := if bits a.ctl.toNat 24 4 = 0 then 16 else bits a.ctl.toNat 24 4
def Act.cheap (a : Act) : Bool := bit a.ctl.toNat 28
def Act.ctr (a : Act) : Nat := bits a.ctl.toNat 29 4
def Act.ctrOp (a : Act) : Nat := bits a.ctl.toNat 33 3
def Act.branch (a : Act) : Nat := bits a.ctl.toNat 36 3
def Act.target (a : Act) : Nat := bits a.ctl.toNat 39 8

/-- Counter `i` of a context. -/
def Context.counter (c : Context) (i : Nat) : Ctr := nth ⟨0, 0⟩ c.ctrs i

/-- The action at the context's program counter. -/
def Context.act (c : Context) : Option Act := c.acts[c.pc]?

/-- The current context of a bead. -/
def State.currentCtx (s : State) (b : BeadId) : Option Context :=
  match (s.bead b).current with
  | some k => if h : k < 4 then s.ctx ⟨b, ⟨k, h⟩⟩ else none
  | none => none

/-- Two ranges of bytes overlap. -/
def overlaps (a n b m : Nat) : Bool := a < b + m && b < a + n

/-- A range of bead-local bytes as it lies in tile memory: what runs past 2 MiB goes on at 0 (R226; DEDUCED,
notes/assumptions/102.md). -/
def wrapped (r : Nat × Nat) : List (Nat × Nat) :=
  let o := r.1 % 0x200000
  let k := min r.2 (0x200000 - o)
  if k < r.2 then [(o, k), (0, r.2 - k)] else [(o, k)]

/-- A tile of a FILL, or the result of a GATHER, that this context has not got yet lies in a range (R87). -/
def State.awaits (s : State) (c : Context) (rs : List (Nat × Nat)) : Bool :=
  (rs.flatMap wrapped).any fun r =>
    (s.bead c.id.bead).fills.any (fun f => f.ctx == c.id.ctx.val && overlaps r.1 r.2 (f.tile * 4096) 4096) ||
      s.mem.gathers.any (fun g => g.ctx == c.id && overlaps r.1 r.2 g.addr 64)

/-- No memory-port request of the context is in flight. -/
def State.portDone (s : State) (c : Context) : Bool :=
  (s.bead c.id.bead).fills.all (fun f => f.ctx ≠ c.id.ctx.val) && s.mem.gathers.all (fun g => g.ctx != c.id)

/-- Every earlier action of the context has completed (R95): its memory accesses, and the entries of its EMITs. -/
def State.allDone (s : State) (c : Context) : Bool := s.portDone c && c.outs.all fun o => o.hold.isEmpty

/-- The entries an action takes from each edge of its IN_MASK. -/
def Act.takes (a : Act) : List (Nat × Nat) := a.ins.map fun e => (e, a.inCount)

/-- Inputs present and credits held (R87). -/
def Context.ready (c : Context) (a : Act) : Bool :=
  a.ins.all (fun e => a.inCount ≤ (c.inEdge e).queue.length) && a.outs.all (fun e => a.outCount ≤ (c.outEdge e).credits)

/-- The counter update of an action, and whether LOAD_TRIP clamped (R91, R92). -/
def Context.count (c : Context) (a : Act) (got : List (Nat × List EdgeEntry)) : Nat × Bool :=
  let x := c.counter a.ctr
  let op := a.op.toNat
  match a.ctrOp with
  | 1 => (x.value - 1, false)
  | 2 => ((x.value + 1) % 2 ^ 32, false)
  | 3 => (bits op 0 32, false)
  | 4 =>
    let w := match findKey got (bits op 0 3) with
      | some (e :: _) => bits e.data.toNat (32 * bits op 3 4) 32
      | _ => 0
    let mx := bits op 32 32
    (min w mx, w > mx)
  | 5 => (x.limit, false)
  | _ => (x.value, false)

/-- Counter, branch and program counter after an issue; END, and running past the last action, end the context's work (R90, R91). -/
def State.advance (s : State) (cid : CtxId) (a : Act) (got : List (Nat × List EdgeEntry)) : State :=
  match s.ctx cid with
  | none => s
  | some c =>
    let (v, clamp) := c.count a got
    let c := { c with ctrs := setNth c.ctrs a.ctr { c.counter a.ctr with value := v }, clamp := c.clamp || clamp,
                      blocked := false, waitFrom := none }
    let s := if clamp then (s.bump (rFrame cid.bead.die.val 0x18)).onCtxStep c fun r => { r with clamp := true } else s
    let pc := if a.branch = 3 || (a.branch = 1 && v ≠ 0) || (a.branch = 2 && v = 0) then a.target else c.pc + 1
    if a.branch = 4 || pc ≥ c.acts.length then s.setCtx { c with ended := true, pc := 0 }
    else s.setCtx { c with pc := pc }

/-- An action issues: the bead's current context is at an action that `sel` accepts, every condition of R87 holds and `pre` lets it
go (`pre` may change the state while the action waits, and says what is consumed). `run` is the unit's effect and gives the
payloads produced. -/
def State.action (s : State) (b : BeadId) (sel : Act → Bool)
    (pre : State → Context → Act → Option (List (Nat × Nat)) × State)
    (run : State → Context → Act → List (Nat × List EdgeEntry) → State × List (Nat × List Word512)) : State :=
  match s.currentCtx b with
  | none => s
  | some c =>
    match c.act with
    | none => s
    | some a =>
      if c.ended || !(sel a) || !(c.ready a) then s
      else
        match pre s c a with
        | (none, s) => s
        | (some takes, s) =>
          let (got, s) := s.dequeueAll c.id takes
          let first := match got with | (_, e :: _) :: _ => e.tag | _ => 0
          let (s, outs) := run s c a got
          let s := outs.foldl (fun s o => s.sendEdge c.id o.1 first o.2) s
          s.advance c.id a got

/-- An action that waits for its tile ranges only. -/
def readsOnly (ranges : Context → Act → List (Nat × Nat)) (s : State) (c : Context) (a : Act) : Option (List (Nat × Nat)) × State :=
  (if s.awaits c (ranges c a) then none else some a.takes, s)

/-- Payloads of zero on every edge of OUT_MASK: the outputs of NOP, COUNTER and WAIT (R85; DEDUCED,
notes/assumptions/95.md). -/
def Act.zeroOuts (a : Act) : List (Nat × List Word512) := a.outs.map fun e => (e, List.replicate a.outCount 0)

def execNop (b : BeadId) (s : State) : Res :=
  .next (s.action b (fun a => a.unit == 0) (fun s _ a => (some a.takes, s)) (fun s _ a _ => (s, a.zeroOuts)))

def execCounter (b : BeadId) (s : State) : Res :=
  .next (s.action b (fun a => a.unit == 6) (fun s _ a => (some a.takes, s)) (fun s _ a _ => (s, a.zeroOuts)))

/-! ### Waits and context switching (R94, R95, R109, R110) -/

/-- Cycle length of the schedule a context follows. -/
def State.ctxCycle (s : State) (c : Context) : Nat :=
  let i := s.inst (s.cfgInst c.config)
  let slot := match s.ctxStep c with | some r => i.sched.slot r.sched | none => i.sched.current
  match slot with | some x => x.val.cycle | none => 1

/-- A WAIT is met (R94); kind 4 counts from the beat at which the sequencer first examined it. -/
def State.waitMet (s : State) (c : Context) (a : Act) : Bool :=
  let op := a.op.toNat
  let v := (c.counter (bits op 3 4)).value
  match bits op 0 3 with
  | 1 => v ≠ 0
  | 2 => v = 0
  | 3 => match c.gate with | some g => bits op 7 16 ≤ g | none => false
  | 4 =>
    let l := s.ctxCycle c
    let x := bits op 23 12
    match c.waitFrom with
    | some f => x < l && f + 1 + (x + l - (f + 1) % l) % l ≤ s.time.beat
    | none => false
  | _ => false

/-- The context stands at a blocking wait that the sequencer has examined and that is not met (R95). A context whose WAIT has not been
examined is not blocked: it becomes current, and its WAIT is examined then (R87, R109). -/
def State.isBlocked (s : State) (c : Context) : Bool :=
  match c.act with
  | some a => !c.ended && c.blocked && a.unit == 7 && a.cheap && !(s.waitMet c a)
  | none => false

def execWait (b : BeadId) (s : State) : Res :=
  .next (s.action b (fun a => a.unit == 7)
    (fun s c a =>
      if a.cheap && !(s.allDone c) then (none, s)
      else
        let c := { c with waitFrom := some (c.waitFrom.getD s.time.beat) }
        if s.waitMet c a then (some a.takes, s.setCtx c)
        else (none, s.setCtx { c with blocked := a.cheap, expect := bits a.op.toNat 23 12 }))
    (fun s _ a _ => (s, a.zeroOuts)))

/-- The context may be made current (R109): not blocked, and either not at END or at END with its gate released for a new step. -/
def State.runnable (s : State) (c : Context) : Bool :=
  c.valid && !(s.isBlocked c) && (!c.ended || (c.gate.isSome && !c.started))

/-- The tally sequencer switches (R109, R110): the runnable context longest without being current, then the lower number. The context
that has been current until now has gone no time without; one that has not been current since it became valid goes before every
other (DESIGN CHOICE, notes/assumptions/107.md). -/
def State.switch (s : State) (b : BeadId) : State :=
  let free := match s.currentCtx b with
    | some c => c.ended || s.isBlocked c
    | none => true
  let cands := (List.finRange 4).filterMap fun k => match s.ctx ⟨b, k⟩ with
    | some c => if s.runnable c then some c else none
    | none => none
  let last := fun c : Context => if (s.bead b).current == some c.id.ctx.val then s.time.clk else c.lastRun
  let best := cands.foldl (fun (m : Option Context) c =>
    match m with | some d => if last c < last d then some c else some d | none => some c) none
  match free, best with
  | true, some c =>
    let s := match s.currentCtx b with
      | some old => s.setCtx { old with lastRun := s.time.clk }
      | none => s
    let c := (s.ctx c.id).getD c
    let c := if c.ended then { c with ended := false, pc := 0, started := true, waitFrom := none } else c
    (s.setCtx { c with blocked := false, lastRun := s.time.clk }).setBead { s.bead b with current := some c.id.ctx.val }
  | _, _ => s

def execContextSwitch (b : BeadId) (s : State) : Res := .next (s.switch b)

/-! ### Dictionary store (R183) -/

def DictSlot.empty : DictSlot := ⟨false, 0, 0, [], []⟩

/-- The slots of an identifier of a context. -/
def Bead.dictPair (x : Bead) (ctx id : Nat) : DictPair :=
  (x.dicts.find? (fun p => p.ctx == ctx && p.id == id)).getD ⟨ctx, id, DictSlot.empty, DictSlot.empty, false⟩

def Bead.setPair (x : Bead) (p : DictPair) : Bead :=
  { x with dicts := x.dicts.filter (fun q => !(q.ctx == p.ctx && q.id == p.id)) ++ [p] }

/-- The current slot of an identifier. -/
def DictPair.current (p : DictPair) : DictSlot := if p.curB then p.b else p.a

/-- A slot that no step holds and that is not current becomes free (R183, Release). -/
def DictPair.release (p : DictPair) : DictPair :=
  { p with a := if p.a.holders.isEmpty && p.curB then DictSlot.empty else p.a,
           b := if p.b.holders.isEmpty && !p.curB then DictSlot.empty else p.b }

/-- The valid slot with this tag (R183, Lookup). -/
def Bead.lookup (x : Bead) (ctx id tag : Nat) : Option DictSlot :=
  let p := x.dictPair ctx id
  if p.a.valid && p.a.gen % 256 == tag then some p.a
  else if p.b.valid && p.b.gen % 256 == tag then some p.b
  else none

/-- Every current slot of the context bound by a step, or every reference of a step dropped (R183). -/
def Bead.bindDicts (x : Bead) (ctx step : Nat) : Bead :=
  { x with dicts := x.dicts.map fun p =>
      if p.ctx ≠ ctx then p
      else if p.curB then { p with b := if p.b.valid then { p.b with holders := p.b.holders ++ [step] } else p.b }
      else { p with a := if p.a.valid then { p.a with holders := p.a.holders ++ [step] } else p.a } }

def Bead.dropDicts (x : Bead) (step : Nat) : Bead :=
  let cut := fun d : DictSlot => { d with holders := d.holders.filter (· ≠ step) }
  { x with dicts := x.dicts.map fun p => DictPair.release { p with a := cut p.a, b := cut p.b } }

/-- What the store does with a record whose check and layout are right. -/
inductive DictLoad where
  | loaded | waits | refused
  deriving DecidableEq, Repr

/-- A record handed to the store (R183): `steps` are the context's steps in progress. -/
def DictPair.load (p : DictPair) (gen width : Nat) (entries steps : List Nat) : DictLoad × DictPair :=
  let any := p.a.valid || p.b.valid
  let slot : DictSlot := ⟨true, gen, width, entries, steps⟩
  if any && gen ≠ (p.current.gen + 1) % 2 ^ 32 then (.refused, p)
  else
    let freeA := !p.a.valid || p.a.holders.isEmpty
    let freeB := !p.b.valid || p.b.holders.isEmpty
    let toB := if freeA && freeB then (if !p.a.valid then false else if !p.b.valid then true else !p.curB) else freeB
    let other := if toB then p.a else p.b
    if !(freeA || freeB) || (other.valid && other.gen % 256 == gen % 256) then (.waits, p)
    else if toB then (.loaded, DictPair.release { p with b := slot, curB := true })
    else (.loaded, DictPair.release { p with a := slot, curB := false })

/-! ### Gates (R96) -/

/-- A gate released to a context at a layer for a step; the first release of the step starts it (R93, R96, R157, R182, R183). -/
def State.release (s : State) (cid : CtxId) (layer : Nat) (step : Option Nat) : State :=
  match s.ctx cid with
  | none => s
  | some c =>
    match c.gate with
    | some g => if layer > g then s.setCtx { c with gate := some layer } else s
    | none =>
      let begun := !c.ended && c.step.isNone
      let x := s.bead cid.bead
      let x := { x with formatFails := x.formatFails.filter (·.1 ≠ cid.ctx.val) }
      let (x, runs) := match step with
        | some n => (x.bindDicts cid.ctx.val n, c.runs ++ [n])
        | none => (x, c.runs)
      (s.setBead x).setCtx { c with
        gate := some layer, started := begun, step := step, runs := runs, clamp := false, replays := 0, escs := 0,
        steerBad := [false, false, false, false], built := List.replicate 8 none, dispatched := [],
        outs := c.outs.map fun o => { o with tags := 0 } }

/-! ### Arrival, spill and router errors (R82, R99, R100) -/

/-- A router error (R82): the step of the edge's configuration fails, and the beads concerned are tested. -/
def State.routerError (s : State) (e : EdgeId) (source : Option BeadId) (spilled : Bool) : State :=
  let s := s.bump (rFrame e.ctx.bead.die.val 0x38)
  let s := match s.ctx e.ctx with | some c => s.failConfig c.config stROUTER_ERROR | none => s
  let s := s.detectBead 0x03 e.ctx.bead spilled true
  match source with | some b => s.detectBead 0x03 b false true | none => s

/-- The first entry in flight to an edge, and the flights without it. -/
def takeFlight (e : EdgeId) : List Flight → Option (Flight × List Flight)
  | [] => none
  | f :: fs => if f.dest == e then some (f, fs) else
      match takeFlight e fs with | some (g, gs) => some (g, f :: gs) | none => none

/-- An entry placed in the queue or the spill area (R100). -/
def State.place_ (s : State) (c : Context) (e : EdgeId) (x : EdgeEntry) (no : Nat) : State :=
  let i := c.inEdge e.edge.val
  if i.queue.length < 16 && i.spillCount = 0 then
    s.setCtx { c with ins := setNth c.ins e.edge.val { i with queue := i.queue ++ [x], ages := i.ages ++ [no] } }
  else
    let slot := (i.spillHead + i.spillCount) % i.spillSize
    let s := s.setCtx { c with ins := setNth c.ins e.edge.val { i with spillCount := i.spillCount + 1, ages := i.ages ++ [no] } }
    let s := s.tileWrite e.ctx.bead (i.spillBase + slot * 64) (leBytes 64 x.data.toNat)
    let s := s.tileWrite e.ctx.bead (i.spillBase + i.spillSize * 64 + slot * 2) (leBytes 2 x.tag.toNat)
    s.bump (rFrame e.ctx.bead.die.val 0x10)

/-- The oldest entry of a spill area as the router reads it back: its slot and tag hold words that the code corrects (R100, R240) or does
not (R82). -/
def State.spillRead (s : State) (c : Context) (e : EdgeId) (check : Check) : State :=
  let i := c.inEdge e.edge.val
  if i.spillCount = 0 then s
  else
    match check with
    | .ok => s
    | .corrected _ n => s.correctedWords (mpaTile e.ctx.bead (i.spillBase + i.spillHead * 64)) n
    | .failed _ _ =>
      let k := i.queue.length
      let i := { i with spillHead := (i.spillHead + 1) % i.spillSize, spillCount := i.spillCount - 1,
                        ages := i.ages.take k ++ i.ages.drop (k + 1) }
      let s := (s.setCtx { c with ins := setNth c.ins e.edge.val i }).edgeMoved e.ctx.bead.die.val c.config
      s.routerError e (s.producer e) true

/-- The route an entry takes is open, and every request of its source that went another way to the same unit has completed (R25). -/
def State.mayLand (s : State) (f : Flight) : Bool :=
  s.carries f.via &&
    s.arr.flights.all (fun g => !(g.src == f.src && g.dest.ctx.bead.die == f.dest.ctx.bead.die && g.via != f.via && g.no < f.no)) &&
    (f.via.isEmpty || !(s.readsOtherWay f.src f.dest.ctx.bead.die.val f.via))

/-- An entry arrives at its consumer's router (R82, R100): each half is corrected and counted, or the entry is discarded. -/
def State.arrive (s : State) (e : EdgeId) (check : Check) : State :=
  match s.ctx e.ctx with
  | none => s
  | some c =>
    match takeFlight e s.arr.flights with
    | none => s
    | some (f, rest) =>
      let i := c.inEdge e.edge.val
      let gone : State := { s with arr := { s.arr with flights := rest } }
      if !(s.mayLand f) then s
      else
        match check with
        | .failed _ _ => (gone.edgeMoved e.ctx.bead.die.val c.config).routerError e (s.producer e) false
        | _ =>
          if i.held ≥ 16 + i.spillSize then s
          else
            let s := (gone.place_ c e f.entry f.no).edgeMoved e.ctx.bead.die.val c.config
            match check with
            | .corrected _ n =>
              (List.range n).foldl (fun s _ => s.corrected (s.beadUnit e.ctx.bead) 0) (s.bumpBy (rFrame e.ctx.bead.die.val 0x30) n)
            | _ => s

/-- `spilled` says that the router reads the oldest entry of the spill area back; otherwise an entry arrives. -/
def execEntryArrival (e : EdgeId) (check : Check) (spilled : Bool) (s : State) : Res :=
  .next (match s.ctx e.ctx with
    | some c => if spilled then s.spillRead c e check else s.arrive e check
    | none => s)

/-! ### Steering (R103 to R106) -/

/-- The heads and settings of a unit: `k` the control head, `d` the data edge that the code selects, `os` the outputs. -/
structure Steer where
  kEdge : Nat
  dEdge : Nat
  outs  : List Nat
  deriving DecidableEq, Repr

/-- A steering fault (R106): the unit fires no more in the step. -/
def State.steerFault (s : State) (c : Context) (u : Nat) : State :=
  let s := (s.setCtx { c with steerBad := setNth c.steerBad u true }).bump (rFrame c.id.bead.die.val 0x20)
  (s.failConfig c.config stSTEER_FAULT).detectBead 0x04 c.id.bead false true

/-- A unit fires on paired heads: the data entry goes to the outputs with its own tag (R102, R104 to R106). -/
def State.steerPair (s : State) (c : Context) (u : Nat) (x : Steer) : State :=
  match (c.inEdge x.kEdge).queue, (c.inEdge x.dEdge).queue with
  | k :: _, d :: _ =>
    if k.tag ≠ d.tag then s.steerFault c u
    else if x.outs.any (fun o => (c.outEdge o).credits < x.outs.count o) then s
    else
      let s := (s.dequeue c.id x.dEdge 1).2
      let s := (s.dequeue c.id x.kEdge 1).2
      x.outs.foldl (fun s o =>
        match s.ctx c.id with
        | none => s
        | some c =>
          let e := c.outEdge o
          let s1 := s.setCtx { c with outs := setNth c.outs o { e with credits := e.credits - 1 } }
          (s1.fly c.id.bead.die.val (s.outDest c.config e) [d]).edgeMoved c.id.bead.die.val c.config) s
  | _, _ => s

/-- A steering unit as a context sets it, in a mode (1 switch, 2 merge); `act` gets its setting and the code. Steering asks neither that
the context is current nor where its program stands (R104 to R106). -/
def State.steer (s : State) (x : CtxId) (u mode : Nat) (act : Context → Nat → Nat → State) : State :=
  match s.ctx x with
  | none => s
  | some c =>
    let w := (nth 0 c.steer u).toNat
    if bits w 0 2 ≠ mode || nth true c.steerBad u then s
    else
      match (c.inEdge (bits w 8 3)).queue with
      | [] => s
      | k :: _ => act c w (k.data.toNat % 4)

def execSteeringSwitchFire (x : CtxId) (unit : Fin 4) (s : State) : Res :=
  .next (s.steer x unit.val 1 fun c w code =>
    let o0 := bits w 11 3
    let o1 := bits w 14 3
    let os := if code = 0 then [o0] else if code = 1 then [o1] else if code = 2 then [o0, o1] else []
    s.steerPair c unit.val ⟨bits w 8 3, bits w 2 3, os⟩)

def execSteeringMergeFire (x : CtxId) (unit : Fin 4) (s : State) : Res :=
  .next (s.steer x unit.val 2 fun c w code =>
    if code > 1 then s.steerFault c unit.val
    else s.steerPair c unit.val ⟨bits w 8 3, if code = 0 then bits w 2 3 else bits w 5 3, [bits w 11 3]⟩)

/-! ### Spatial deadlock (R107, R108) -/

/-- The context's action waits for a memory access and for nothing else: its entries and credits are there. -/
def State.portHolds (s : State) (c : Context) : Bool :=
  !(s.portDone c) && match c.act with | some a => c.ready a | none => false

/-- A context of the configuration on the die is current, not at END, and held neither by an unmet WAIT nor by a memory-port request in
flight (R107). -/
def State.stalled (s : State) (d config : Nat) : Bool :=
  s.arr.ctxs.any fun c =>
    c.valid && c.config == config && c.id.bead.die.val == d && (s.bead c.id.bead).current == some c.id.ctx.val && !c.ended &&
      !(s.portHolds c) && !(match c.act with | some a => a.unit == 7 && !(s.waitMet c a) | none => false)

/-- Arithmetic clock of a die in units of 100 kHz (R418); a droop step runs it one operating point lower, and at 437.5 MHz in OP0
(R431). -/
def State.dieClock (s : State) (d : Nat) : Nat :=
  let o := nth 0 s.power.op d + (if nth false s.power.droopLow d then 0 else 1)
  nth 0 [4375, 5000, 5625, 6250, 6875, 7500, 8125, 8750, 9375, 10000, 10625, 11250, 12000] o

/-- The watchdog of a configuration on a die has counted 2^20 cycles: at the die's clock that long since an entry last entered or left
one of its edges there (R107; notes/assumptions/108.md). -/
def State.dogBites (s : State) (d config : Nat) : Bool :=
  let from_ := match s.arr.moves.find? (fun m => m.1 == d && m.2.1 == config) with | some m => m.2.2 | none => 0
  2 ^ 20 * 10000 ≤ (s.time.clk - from_) * s.dieClock d

/-- The places in the order of sending of the entries that are on their way to a context, or that it has not consumed. -/
def State.undelivered (s : State) (c : Context) : List Nat :=
  c.ins.filterMap (·.ages.head?) ++ (s.arr.flights.filter fun f => f.dest.ctx == c.id).map (·.no)

/-- The context that holds the edge with the oldest undelivered entry of a configuration (R108); the first context on the die where no
entry is undelivered. -/
def State.deadlockCtx (s : State) (d config : Nat) : Option Context :=
  let cs := s.arr.ctxs.filter fun c => c.valid && c.config == config
  let aged := cs.filterMap fun c => (s.undelivered c).min?.map fun a => (a, c)
  match aged.foldl (fun (m : Option (Nat × Context)) p =>
      match m with | some q => if p.1 < q.1 then some p else some q | none => some p) none with
  | some p => some p.2
  | none => cs.find? fun c => c.id.bead.die.val == d

/-- A spatial-deadlock fault (R108): the step, the edges and contexts, the event, and the disabled generation. -/
def State.deadlock (s : State) (d config : Nat) : State :=
  if !(s.stalled d config) || !(s.dogBites d config) then s
  else
    match s.deadlockCtx d config with
    | none => s
    | some c =>
      let s := ((s.bump (rFrame d 0x28)).failConfig config stSPATIAL_DEADLOCK).stepFault c stSPATIAL_DEADLOCK 0
      let s := (s.dropConfig config).detectBead 0x07 c.id.bead false true
      match s.cfg config with
      | none => s
      | some f =>
        let again := match f.deadlock with | some (g, b) => g == c.gen && s.time.beat < b + 65536 | none => false
        s.setCfg { f with deadlock := some (c.gen, s.time.beat), disabled := if again then f.disabled ++ [c.gen] else f.disabled }

def execSpatialDeadlock (die : Fin 4) (config : Fin 64) (s : State) : Res := .next (s.watched (·.deadlock die.val config.val))

/-! ### Remap (R113, R114) -/

/-- The remap of a frame's fenced rod (R113) at the boundary after no context is left at or above it. -/
def State.remap (s : State) (d : Nat) : State :=
  match s.faults.remaps.find? (fun p => p.1 == d) with
  | none => s
  | some (_, p) =>
    let left := s.arr.ctxs.any (fun c => c.valid && c.id.bead.die.val == d && c.id.bead.rod.val ≥ p)
    let moving := fun b : BeadId => b.die.val == d && p ≤ b.rod.val
    let busy := s.arr.beads.any (fun b => b.fills.any fun f =>
        b.id.die.val == d && (moving b.id || match placeOf true f.mpa with | .tileMem t _ => moving t | _ => false)) ||
      s.mem.gathers.any fun g => moving g.ctx.bead
    if left || busy then s
    else
      let old := s.rodMap d
      let new := putBit (putBit (putBits old 0 6 p) 6 false) 7 true
      let s := (s.remapRod d p).setReg (rFrame d 0) new
      let s := (s.hand 12 (objFence 1 p d 31 true) (leBytes 8 old) (leBytes 8 new)).storeRods d new
      s.setFaults { s.faults with remaps := s.faults.remaps.filter (fun q => q.1 ≠ d) }

/-- An MPA access to tile memory that completes with ROD_FENCED (R114): logical rods p to 31 while the remap is pending; with DEGRADED
set, the logical rods from p on, and the one that lies on the fenced physical rod itself (R451). The physical number of a logical rod
is that number or the next one, so the two conditions are one. -/
def State.rodFenced (s : State) (a : Nat) : Bool :=
  match placeOf true a with
  | .tileMem b _ =>
    let m := s.rodMap b.die.val
    (s.faults.remaps.any (fun p => p.1 == b.die.val && p.2 ≤ b.rod.val)) ||
      (bit m 9 && s.faults.dead.any (fun p => p.1 == b.die.val && p.2 ≤ s.rodPhys b.die.val b.rod.val))
  | _ => false

end Sys2Proof.Machine
end

