-- ==== Sys2Proof/Machine/Recover.lean ====
section
/-! DEFINITION. Who may access which memory, and what becomes of a read that fails its check: shard faults, attempts, restores from the
vault, and the requests whose KV is lost (01 R26, R28, R34 to R36; 03 R114; 08 R217 to R221; 09 R249; 11 R313; 17 R451). -/
namespace Sys2Proof.Machine

/-! ### Who may access what (R28, R34 to R36, R114, R313, R451) -/

/-- The ownership entry that covers a byte. -/
def State.ownAt (s : State) (a : Nat) : Option OwnEntry :=
  s.mem.own.find? fun o => o.unit == mpaUnit a && o.base ≤ mpaOff a && mpaOff a < o.base + 2 ^ o.size

/-- Every mode that covers part of a range is HOME. -/
def State.isHome (s : State) (a n : Nat) : Bool :=
  s.mem.own.all fun o => o.mode == 0 || o.unit ≠ mpaUnit a || !(overlaps o.base (2 ^ o.size) (mpaOff a) n)

/-- A refusal by the ownership table, counted (R313, R325). -/
def State.notOwner (s : State) : State := s.bump 0x30058

/-- Part of a range of tile memory lies on rods that accept no access (R114). -/
def State.rodsFenced (s : State) (a n : Nat) : Bool :=
  s.rodFenced (a + n - 1) || (List.range (n / 0x200000 + 1)).any fun i => s.rodFenced (a + i * 0x200000)

/-- The status of a bead's access to a range through its memory port (R28, R34 to R36, R114, R313, R451). A fenced bank or channel gives a
write the status that it gives a read (DESIGN CHOICE, notes/assumptions/110.md: R451 names the read alone). -/
def State.beadStatus (s : State) (write : Bool) (a n : Nat) : Nat :=
  if write && mpaUnit a = 5 then stNOT_PERMITTED
  else if !(s.populated a n) then stADDRESS_ERROR
  else if inLedger a n then stNOT_PERMITTED
  else if s.rodsFenced a n then stROD_FENCED
  else if !(s.isHome a n) then stNOT_OWNER
  else if s.rangeFenced a n then stTILE_CHECK_FAULT
  else stOK

/-- An access that does not complete with OK is counted where the spec counts it (R35, R313, R325). -/
def State.countAccess (s : State) (a status : Nat) : State :=
  if status = stADDRESS_ERROR then s.addressError a else if status = stNOT_OWNER then s.notOwner else s

/-- A bead's access ends in a status other than OK: it is counted, and the configuration that issued it receives the fault (R35). Chapter
17, to which R35 refers, does not say how an address fault is handled: the configuration's step fails with the access's status (DESIGN
CHOICE, notes/assumptions/82.md). -/
def State.accessFault (s : State) (cid : CtxId) (a status : Nat) : State :=
  let s := s.countAccess a status
  match s.ctx cid with
  | some c => s.failConfig c.config status
  | none => s

/-! ### Shard faults (R249) -/

/-- Vault pages of a shard: data and check array (R257). -/
def Shard.pages (h : Shard) : Nat := cdiv (h.length + h.length / 1024) 65536

/-- The catalogue entry and shard whose pages hold a vault byte. -/
def State.shardAt (s : State) (off : Nat) : Option (CatEntry × Nat) :=
  s.vault.catalogue.findSome? fun c =>
    (c.extent.find? fun e => e.2 == off / 65536).map fun e => (c, e.1)

/-- A catalogue entry replaced. -/
def State.setEntry (s : State) (c : CatEntry) : State :=
  s.setVault { s.vault with catalogue := s.vault.catalogue.map fun x => if x.index == c.index then c else x }

/-- The shard is served: kept and not BAD (R249). -/
def State.shardServed (s : State) (off : Nat) : Bool :=
  match s.shardAt off with
  | some (c, h) => !(c.bad.contains h)
  | none => true

/-- The vault page of a byte has a mapping. A read of one that has none brings a read error (R245), which is taken for an uncorrectable
codeword, as R243 takes one (notes/assumptions/111.md). -/
def State.pageMapped (s : State) (a : Nat) : Bool := s.vault.mapped.any fun p => p.1 == mpaOff a / 65536

/-- A read of a vault tile that failed, counted (R272): an uncorrectable codeword counts beside the failed check (R243). -/
def State.vaultFailed (s : State) (code : Bool) : State := (s.bumpIf code 0x80008).bump 0x80010

/-- A shard fault (R249): marked BAD with its record, the event and the alert. -/
def State.shardFault (s : State) (off : Nat) : State :=
  match s.shardAt off with
  | none => s
  | some (c, h) =>
    if c.bad.contains h then s
    else
      let s := (s.bump 0x80018).setEntry { c with bad := c.bad ++ [h] }
      let v := imageVal c c.state
      let s := s.hand 12 (objImage s.fab.moduleNo c.index c.gen) v v
      (s.event 0x16 0 locNone (leBytes 16 c.imageId ++ leBytes 4 c.gen ++ leBytes 2 h)).alert 0x16

/-! ### Attempts and restores (R219 to R221) -/

/-- The key of a step's attempts on a tile: 0 where no step reads (R220). -/
def stepKey (step : Option Nat) : Nat := match step with | some n => n + 1 | none => 0

/-- Where the recovery of a tile stands in a step: 0 no failure, 1 read again, 2 to be restored from the vault, 3 the vault page to be read
again (R249), 4 restored. -/
def State.attempts (s : State) (tile key : Nat) : Nat :=
  match s.mem.attempts.find? fun e => e.1 == tile && e.2.1 == key with
  | some e => e.2.2
  | none => 0

def State.setAttempts (s : State) (tile key n : Nat) : State :=
  let rest := s.mem.attempts.filter fun e => !(e.1 == tile && e.2.1 == key)
  s.setMem { s.mem with attempts := if n = 0 then rest else rest ++ [(tile, key, n)] }

/-- The attempts of a step are over with it. -/
def State.dropAttempts (s : State) (key : Nat) : State :=
  s.setMem { s.mem with attempts := s.mem.attempts.filter fun e => e.2.1 ≠ key }

/-- The page map entry of the pool page that holds an HBM4 byte, with its instance. -/
def State.pageOf (s : State) (a : Nat) : Option (Nat × PageMapEntry) :=
  match placeOf true a with
  | .hbm k off =>
    (List.range 16).findSome? fun i =>
      ((s.inst i).pageMap.find? fun p => p.stack == k && p.present && p.phys == off / 0x10000).map fun p => (i, p)
  | _ => none

/-- The vault byte from which the tile of an HBM4 byte can be restored: its page has a vault copy whose shard is served (R219, R249). -/
def State.vaultCopy (s : State) (a : Nat) : Option Nat :=
  match s.pageOf a with
  | some (_, p) => match p.vault with
    | some v =>
      let off := v * 0x10000 + mpaOff a % 0x10000 / 4096 * 4096
      if s.shardServed off then some off else none
    | none => none
  | none => none

/-- The class of the page that holds an HBM4 byte (R231); 7 for memory that is no pool page. -/
def State.pageClass (s : State) (a : Nat) : Nat :=
  match placeOf true a with
  | .hbm k off => match s.mem.pages.find? (fun p => p.stack == k && p.num == off / 0x10000) with | some p => p.cls | none => 7
  | _ => 7

/-- A mismatch counted on a frame die and its region suspected (R220, R240). -/
def State.mismatch (s : State) (d a : Nat) : State := (s.bumpIf (Nat.blt d 4) (rFrame d 0xC0)).suspect a

/-- The requests of the running steps whose KV a tile holds are lost: each completes with KV_LOST at the end of its step (R220, R363). -/
def State.kvLost (s : State) (a : Nat) : State :=
  match placeOf true a with
  | .hbm k off =>
    let owners := s.serve.insts.flatMap fun i => (i.seqs.filter fun q => q.kvPages.contains (k, off / 0x10000)).map (·.req)
    let lose := fun q : StepSeq =>
      if owners.contains q.req && q.fault.isNone then { q with fault := some stKV_LOST, emit := [], lostOn := k / 6 } else q
    { s with serve := { s.serve with steps := s.serve.steps.map fun r => { r with seqs := r.seqs.map lose } } }
  | _ => s

/-- What one read of a tile comes to: its bytes may be used; it is read again; or it is given up. -/
inductive Verdict where
  | good | again | lost
  deriving DecidableEq, Repr

/-- One read of a tile in the recovery of R220, counted on frame die `d`; `phase` says where the recovery stands (State.attempts), and the
next phase is answered. WEIGHT, TABLE and GATHER tiles (kind 0 to 2) are read again, then restored from the vault and read once more;
tiles of other kinds are read again, or their stage replayed, once. A page of the vault is read again once, then its shard is BAD
(R249); so is the page that a restore reads. -/
def State.judgeRead (s : State) (d a kind phase : Nat) (check : Check) : Verdict × Nat × State :=
  if mpaUnit a = 5 then
    match if s.pageMapped a then check else .failed 0 true with
    | .ok => (.good, phase, s)
    | .corrected k n => (.good, phase, s.correctedWords (a + k) n)
    | .failed _ code =>
      let s := s.vaultFailed code
      if phase = 0 then (.again, 1, s) else (.lost, 0, s.shardFault (mpaOff a))
  else if phase = 2 || phase = 3 then
    match s.vaultCopy a, check with
    | none, _ => (.lost, 0, s)
    | some off, .failed _ code =>
      let s := s.vaultFailed code
      if phase = 2 then (.again, 3, s) else (.lost, 0, s.shardFault off)
    | some off, check =>
      let s := match check with | .corrected k n => s.correctedWords (mpaVault off + k) n | _ => s
      (.again, 4, s.storeAt (a / 4096 * 4096) (s.load (mpaVault off) 4096))
  else
    match check with
    | .ok => (.good, phase, s)
    | .corrected k n => (.good, phase, s.correctedWords (a + k) n)
    | .failed k _ =>
      let s := s.mismatch d (a + k)
      if phase = 0 then (.again, 1, s)
      else if phase = 1 && kind ≤ 2 && (s.vaultCopy (a + k)).isSome then (.again, 2, s)
      else (.lost, 0, s)

/-- One read of a tile by one of the readers of a step (R221): `seen` is the phase of the tile's recovery that this reader has seen. A
reader that finds the recovery further on than it has seen counts its own detection and takes what the recovery brings; only one
recovery runs. The verdict comes with the phase this reader has then seen. -/
def State.readTile (s : State) (d a kind key seen : Nat) (check : Check) : Verdict × Nat × State :=
  let tile := a / 4096 * 4096
  let phase := s.attempts tile key
  match if mpaUnit a = 5 && !(s.pageMapped a) then Check.failed 0 true else check with
  | .failed k code =>
    if seen < phase then (.again, phase, if mpaUnit a = 5 then s.vaultFailed code else s.mismatch d (a + k))
    else let r := s.judgeRead d a kind phase check; (r.1, r.2.1, r.2.2.setAttempts tile key r.2.1)
  | _ =>
    if seen < phase && (phase = 2 || phase = 3) then (.again, phase, s)
    else let r := s.judgeRead d a kind phase check; (r.1, r.2.1, r.2.2.setAttempts tile key r.2.1)

/-! ### Reads of vault pages by the vault controller (R249) -/

/-- The vault byte at byte `k` of an access that reads pages one after the other. -/
def vaultByte (pages : List Nat) (k : Nat) : Nat := nth 0 pages (k / 65536) * 65536 + k % 65536

/-- The reads of an access to vault pages: each entry says how one reading goes, up to the tile that fails; that tile is read again, and
the access goes on from it. Answers the vault byte of a tile that failed twice, if any, and what follows the access in the list. -/
def State.readPages (s : State) (pages : List Nat) : Option Nat → List Check → Option Nat × List Check × State
  | _, [] => (none, [], s)
  | _, .ok :: rest => (none, rest, s)
  | _, .corrected k n :: rest => (none, rest, s.correctedWords (mpaVault (vaultByte pages k)) n)
  | last, .failed k code :: rest =>
    let off := vaultByte pages k
    let s := s.vaultFailed code
    if last = some (off / 4096) then (some off, rest, s) else s.readPages pages (some (off / 4096)) rest

/-- An access to vault pages: refused where a shard is not served (R249 step 4), a shard fault where a page has no mapping
(notes/assumptions/111.md), and otherwise as its reads go. Answers whether every tile was read. -/
def State.readVault (s : State) (pages : List Nat) (reads : List Check) : Bool × List Check × State :=
  if pages.any fun p => !(s.shardServed (p * 65536)) then (false, reads, s)
  else
    match pages.find? fun p => !(s.pageMapped (mpaVault (p * 65536))) with
    | some p => (false, reads, ((s.vaultFailed true).vaultFailed true).shardFault (p * 65536))
    | none =>
      match s.readPages pages none reads with
      | (some off, rest, s) => (false, rest, s.shardFault off)
      | (none, rest, s) => (true, rest, s)

/-! ### Accesses from the hub (R217, R218, R220, R227) -/

/-- The reads of an access from the hub, one after the other: `reads` says how each comes out, and past its end all are well. `at_` is the
tile whose recovery is under way, with its phase; the tile of a read that fails for good is answered by its first byte's place in the
access. A tile that the spec gives no kind, in tile memory, staging or the common store, is read again once (DESIGN CHOICE,
notes/assumptions/110.md). -/
def State.hubRead (s : State) (a : Nat) : Nat × Nat → List Check → Option Nat × State
  | _, [] => (none, s)
  | (tile, phase), c :: rest =>
    let here := match c with
      | .failed k _ => if phase = 2 || phase = 3 then tile else (a + k) / 4096 * 4096
      | _ => if phase = 2 || phase = 3 then tile else a
    let c := match c with
      | .failed k code => if phase = 2 || phase = 3 then c else .failed ((a + k) % 4096) code
      | _ => c
    let cls := s.pageClass here
    match s.judgeRead (mpaUnit a) here cls (if phase = 2 || phase = 3 || here = tile then phase else 0) c with
    | (.good, _, s) => (none, s)
    | (.again, p, s) => s.hubRead a (here, p) rest
    | (.lost, _, s) => (some (here - a), if cls = 3 then s.kvLost here else s)

/-- The reads that a write makes: of the tiles that it does not write whole (R217). -/
def mergeReads (a n : Nat) (reads : List Check) : List Check :=
  let whole := fun k : Nat => a ≤ (a + k) / 4096 * 4096 && (a + k) / 4096 * 4096 + 4096 ≤ a + n
  reads.filter fun c => match c with
    | .ok => true
    | .corrected k _ => !(whole k)
    | .failed k _ => !(whole k)

/-- A write that makes reads. -/
def merges (a n : Nat) : Bool := a % 4096 ≠ 0 || n % 4096 ≠ 0

/-- A tile of the range is being filled (R227). -/
def State.rangeFilling (s : State) (a n : Nat) : Bool :=
  s.mem.filling.any fun f => overlaps (mpaStaging f.1 (f.2 * 4096)) 4096 a n

/-- An access from the hub cannot act yet: its route is shut (R24, R446), it reads a tile that is being filled (R227), or the vault's
map is not ready (R248). -/
def State.hubWaits (s : State) (reads : Bool) (a n : Nat) : Bool :=
  !(s.reaches 4 (mpaUnit a)) || (reads && s.rangeFilling a n) || (mpaUnit a = 5 && !s.vault.mapReady)

/-! ### Requests that wait at the hub (R26, R314) -/

/-- The MPA a request names (R30, R304). -/
def msgMpa (m : Msg) : Nat := m.dest.toNat % 8 * 2 ^ 46 + m.offset.toNat % 2 ^ 46

/-- Bytes of an atomic's operand (R304): U64 and S64 eight, the others four. -/
def atomicBytes (type : Nat) : Nat := if type = 1 || type = 3 then 8 else 4

/-- The bytes that a memory request of a KIND touches (R304). -/
def memBytes (kind : Nat) (m : Msg) : Nat := if kind = 3 then atomicBytes (bits m.opt.toNat 2 3) else m.length.toNat

/-- The range of memory that a waiting request concerns. -/
def State.heldRange (s : State) : HeldReq → Nat × Nat
  | .memory kind m _ => (msgMpa m, memBytes kind m)
  | .handoff m => match s.ownAt (msgMpa m) with
    | some o => (o.unit * 2 ^ 46 + o.base, 2 ^ o.size)
    | none => (msgMpa m, 1)
  | .ownSet _ o _ _ => (o.unit * 2 ^ 46 + o.base, 2 ^ o.size)

/-- A request accepted before waits for part of a range (R26, R314). -/
def State.behind (s : State) (hs : List HeldReq) (a n : Nat) : Bool :=
  hs.any fun h => let r := s.heldRange h; overlaps r.1 r.2 a n

/-- A request waits. -/
def State.holdReq (s : State) (h : HeldReq) : State := { s with fab := { s.fab with held := s.fab.held ++ [h] } }

end Sys2Proof.Machine
end

