-- ==== Sys2Proof/Machine/Dma.lean ====
section
/-! DEFINITION. Accesses to memory from outside the beads (R28, R34 to R36, R114, R217, R218, R249, R313) and the DMA engine
(15_host_rings_and_dma, R408 to R412, R415). -/
namespace Sys2Proof.Machine

/-! ### Accesses of the hub's ports -/

/-- Part of the range lies in tile memory. -/
def inTileMem (a n : Nat) : Bool := mpaUnit a < 4 && mpaOff a < 0x40000000 && n ≠ 0

/-- The status of an access by DMA or over the fabric, before ownership and checks: writes to the vault and to tile memory (R34,
R304, R409), unpopulated bytes (R35, R36), the ledger region (R28; `ledger` says the reader may read it), fenced rods (R114), fenced
banks and channels (R451). DESIGN CHOICE (notes/assumptions/112.md): a write that R34 or R304 bars is refused with NOT_PERMITTED and
counted nowhere even where its range is not populated, for the unit takes no write at all. -/
def State.portStatusOf (s : State) (write ledger : Bool) (a n : Nat) : Nat :=
  if write && (mpaUnit a = 5 || inTileMem a n) then stNOT_PERMITTED
  else if !(s.populated a n) then stADDRESS_ERROR
  else if inLedger a n && (write || !ledger) then stNOT_PERMITTED
  else if s.rodsFenced a n then stROD_FENCED
  else if s.rangeFenced a n then stCHECK_ERROR
  else stOK

/-- The range holds vault bytes of a BAD shard (R249). -/
def State.badShard (s : State) (a n : Nat) : Bool :=
  mpaUnit a = 5 && (List.range ((a + n - 1) / 65536 - a / 65536 + 1)).any fun i =>
    !(s.shardServed (mpaOff (a / 65536 * 65536) + i * 65536))

/-- The status of a read whose recovery did not succeed (R220, R249). -/
def lostStatus (a : Nat) : Nat := if mpaUnit a = 5 then stSHARD_FAULT else stCHECK_ERROR

/-! ### Descriptors (R408) -/

/-- A DMA descriptor. -/
structure Desc where
  next : Word64
  src  : Nat
  dst  : Nat
  len  : Nat
  out  : Bool                             -- DIR 1: module to host
  irq  : Bool
  last : Bool
  own  : Bool
  ok   : Bool                             -- LENGTH not zero and no reserved bit set
  deriving DecidableEq, Repr

/-- DESIGN CHOICE (notes/assumptions/121.md): the low six bits of NEXT are not looked at, as CHAN_HEAD has none (R415). -/
def descOf (w : Word512) : Desc :=
  let v := w.toNat
  let fld := fun byte n : Nat => bits v (8 * byte) (8 * n)
  let out := bit v (8 * 28)
  let mpa := if out then fld 8 8 else fld 16 8
  { next := BitVec.ofNat 64 (fld 0 8 / 64 * 64), src := fld 8 8, dst := fld 16 8, len := fld 24 4, out := out,
    irq := bit v (8 * 28 + 1), last := bit v (8 * 28 + 2), own := bit v 511,
    ok := fld 24 4 ≠ 0 && bits v (8 * 28 + 3) 5 = 0 && fld 29 3 = 0 && fld 36 12 = 0 && fld 56 7 = 0 && bits v 504 7 = 0 &&
      mpa < 2 ^ 49 }

/-- The module side of a descriptor. -/
def Desc.mpa (d : Desc) : Nat := if d.out then d.src else d.dst

/-! ### The copy's checks (R409) -/

/-- A tile that a VF's channels may reach: a pool page or a common-store tile of one of its instances. -/
def State.vfReaches (s : State) (origin a : Nat) : Bool :=
  match placeOf s.svc.hbmReady a with
  | .hbm k off => s.mem.pages.any fun p => p.stack == k && p.num == off / 0x10000 && (s.inst p.owner).owner == origin
  | .cs off => s.serve.insts.any fun i =>
      i.owner == origin && i.state != .free && i.csBase ≤ off / 4096 && off / 4096 < i.csBase + i.csArea
  | _ => false

/-- Status of a copy's module side for a channel of an owner (R409). DESIGN CHOICE (notes/assumptions/121.md): the conditions are tested in
this order. -/
def State.dmaStatus (s : State) (owner : Nat) (d : Desc) : Nat :=
  let a := d.mpa
  let st := s.portStatusOf (!d.out) (owner = 1) a d.len
  if st ≠ stOK then st
  else if !(s.isHome a d.len) then stNOT_OWNER
  else if 2 ≤ owner && !((List.range ((a + d.len - 1) / 4096 - a / 4096 + 1)).all fun i =>
      s.vfReaches owner ((a / 4096 + i) * 4096)) then stNOT_PERMITTED
  else if d.out && s.badShard a d.len then stSHARD_FAULT
  else stOK

/-! ### Channels (R410, R411) -/

/-- A descriptor completes: bytes 48 to 55, then byte 63, CHAN_HEAD, the next state and the vector. -/
def State.writeback (s : State) (c : Nat) (d : Desc) (status done : Nat) : State :=
  let x := s.chan c
  let next : ChanSt := if x.stopPending || status ≠ stOK then .stopped else if d.last then .idle else .fetch
  let s := s.setChan c { x with
    head := d.next, st := next, stopPending := false, status := status, desc := none, done := min (x.done + 1) 0xFFFFFFFF }
  let s := s.emits [.host (x.head.toNat + 48) (leBytes 2 status ++ zeros 2 ++ leBytes 4 done), .host (x.head.toNat + 63) [0]]
  if d.irq && bit x.irq 11 then s.msix (fnOf x.owner) (bits x.irq 0 11) else s

/-- A descriptor read at CHAN_HEAD: WAIT, RUN, or completed with INVALID_FIELD and STOPPED. -/
def State.fetchDesc (s : State) (c : Nat) (w : Word512) : State :=
  let x := s.chan c
  let d := descOf w
  if x.st != .fetch then s
  else if !d.own then s.setChan c { x with st := .waiting }
  else if !d.ok then s.writeback c d stINVALID_FIELD 0
  else s.setChan c { x with st := .run, desc := some w, waited := false }

/-- The first `n` bytes of a copy move (R409). -/
def State.moveBytes (s : State) (d : Desc) (hostData : List Byte) (n : Nat) : State :=
  if n = 0 then s
  else if d.out then (s.touch d.src n).emit (.host d.dst (s.load d.src n))
  else s.writeMpa d.dst (fit n hostData)

/-- A copy that may act ends: the bytes before the first tile whose check fails for good have moved, in address order (R217, R218, R220,
R410). -/
def State.runCopyDesc (s : State) (c : Nat) (d : Desc) (hostData : List Byte) (reads : List Check) : State :=
  match s.hubRead d.mpa (0, 0) (if d.out then reads else mergeReads d.mpa d.len reads) with
  | (none, s) => (s.moveBytes d hostData d.len).writeback c d stOK d.len
  | (some n, s) => (s.moveBytes d hostData (min n d.len)).writeback c d (lostStatus d.mpa) (min n d.len)

/-- A copy ends (R409, R410): the bytes move, the descriptor is written back, and the next one is read. It stays in RUN while its access
cannot act yet (R24, R227). In FETCH the descriptor read arrives. -/
def State.copyDone (s : State) (c : Nat) (hostData : List Byte) (reads : List Check) (fetched : Word512) : State :=
  let x := s.chan c
  match x.st, x.desc with
  | .fetch, _ => s.fetchDesc c fetched
  | .run, some w =>
    let d := descOf w
    let status := s.dmaStatus x.owner d
    let needs := d.out || merges d.dst d.len
    if status ≠ stOK then ((s.countAccess d.mpa status).writeback c d status 0).fetchDesc c fetched
    else if s.hubWaits needs d.mpa d.len then
      let first := needs && s.rangeFilling d.mpa d.len && !x.waited
      (s.bumpIf first (rFrame (mpaUnit d.mpa) 0xD8)).setChan c { x with waited := x.waited || first }
    else (s.runCopyDesc c d hostData reads).fetchDesc c fetched
  | _, _ => s

def execDmaCopyDone (chan : Fin 32) (hostData : List Byte) (reads : List Check) (fetched : Word512) (s : State) : Res :=
  .next (s.watched (·.copyDone chan.val hostData reads fetched))

/-- A channel's doorbell: a descriptor in WAIT is read again (R396, R410). -/
def State.dmaBell (s : State) (d : Bell) (fetched : Word512) : State :=
  let c := d.page.val - 1104
  let x := s.chan c
  if d.offset != 0 || x.owner ≠ d.fn.code then s.discardBell
  else if x.st == .waiting then (s.setChan c { x with st := .fetch }).fetchDesc c fetched
  else s.fetchDesc c fetched

def execDmaDoorbell (d : Bell) (fetched : Word512) (s : State) : Res :=
  .next (if 1104 ≤ d.page.val && d.page.val < 1136 then s.dmaBell d fetched
    else if d.page.val ≥ 1136 then s.discardBell else s)

/-! ### Register writes of the block (R406, R411, R412, R415) -/

/-- Channels of an origin. -/
def State.chansOf (s : State) (o : Nat) : Nat := (s.host.chans.filter fun c => c.owner = o).length

/-- The channel is IDLE or STOPPED. -/
def State.chanRests (s : State) (c : Nat) : Bool := (s.chan c).st == .idle || (s.chan c).st == .stopped

/-- CHAN_OWNER may be written: at rest, within the amounts of R406. -/
def State.chanOwnerOk (s : State) (c v : Nat) : Bool :=
  let o := bits v 0 4
  s.chanRests c && (o = (s.chan c).owner || s.chansOf o < (if o = 1 then 31 else 4))

/-- CHAN_CTRL may be written. -/
def State.chanCtrlOk (s : State) (c v : Nat) : Bool :=
  !(bit v 0 && bit v 1) && !(bit v 0 && (s.chan c).st == .error)

/-- CHAN_CTRL: START from rest reads the descriptor at CHAN_HEAD; STOP under R411. DESIGN CHOICE (notes/assumptions/121.md): START in FETCH,
RUN, WRITEBACK or WAIT does nothing. -/
def State.writeChanCtrl (s : State) (c v : Nat) : State :=
  let x := s.chan c
  if bit v 0 then (if s.chanRests c then s.setChan c { x with st := .fetch, desc := none } else s)
  else if bit v 1 then s.setChan c x.stop
  else s

/-- DMA_ERROR: writing 1 to BUS_ERROR ends ERROR on every channel. -/
def State.writeDmaError (s : State) (v : Nat) : State :=
  if !(bit v 0) then s
  else
    let chans := s.host.chans.zipIdx.map fun p =>
      if p.1.st == .error then { p.1 with st := if p.2 = 31 then ChanSt.idle else .stopped } else p.1
    { s with host := { s.host with busError := false, chans := chans } }

/-- What a bus error leaves of a copy that was running into the module: some of its first bytes may have been written, and its destination
is undefined until it runs again (R410, R412 step 3), so how many and what they are is free (notes/assumptions/3.md). -/
def State.cutCopy (s : State) (x : Chan) : State :=
  match x.st, x.desc with
  | .run, some w =>
    let d := descOf w
    if d.out || s.dmaStatus x.owner d ≠ stOK || s.hubWaits (merges d.dst d.len) d.dst d.len then s
    else
      let n := s.fresh
      let bs := n.2.freshBytes (n.1 % (d.len + 1))
      if bs.1.isEmpty then bs.2 else bs.2.writeMpa d.dst bs.1
  | _, _ => s

/-- A bus error on a DMA read (R412 steps 1 to 4). -/
def State.busErrorOn (s : State) (kind : Nat) (addr : Word64) : State :=
  let s := (s.host.chans.foldl State.cutCopy s).bump 0xC0810
  let chans := s.host.chans.map fun c => { c with st := .error, desc := none, stopPending := false }
  let s := { s with host := { s.host with errKind := kind, busError := true, errAddr := addr, chans := chans } }
  s.raiseTo (fun o => s.host.chans.any fun c => c.owner == o)
    [⟨0x02, s.now, 0xFF, 0xFF, 0, locNone, fit 40 (leBytes 1 kind ++ zeros 7 ++ leBytes 8 addr.toNat)⟩]

end Sys2Proof.Machine
end

