-- ==== Sys2Proof/Machine/Security.lean ====
section
/-! DEFINITION. Management messages, PLDM and SPDM (18_ledger_identity_and_boot, R469 to R481). Message codes, completion codes and the
layout of bodies are those of the DMTF specifications the rules name (PRESUMED, notes/assumptions/45.md). -/
namespace Sys2Proof.Machine

/-! ### Where messages come from (R476, R477, R479) -/

/-- The origin of a transport. -/
def viaOrigin : Via → Nat
  | .pf => 1 | .vf n => 2 + n.val | .i3c => 10

def State.setSec (s : State) (x : Security) : State := { s with sec := x }

/-- The security engine answers once the setup lock is set (R474 step 5). -/
def State.answers (s : State) : Bool := s.svc.phase == .setupLocked || s.svc.phase == .standbyEntry

/-! ### The messages of R476: a status and the bytes that answer -/

/-- What a message gives: its status, its content and the state after it. -/
abbrev Answer := Nat × List Byte × State

/-- A message that changes state: the ledger's refusal range comes first (R465). -/
def State.changing (s : State) (origin : Nat) (act : State → Answer) : Answer :=
  if s.ledgerShut && fromOutside origin then (stBUSY, [], s.bump 0x70050) else act s

/-- The message is allowed to its origin. -/
def State.allowedTo (s : State) (via : Via) (origins : List Nat) (act : State → Answer) : Answer :=
  if origins.contains (viaOrigin via) then act s else (stNOT_PERMITTED, [], s)

/-- The endorsement record (R471): serial number, member, stepping, key and signature. -/
def endorsementRecord : List Byte :=
  leBytes 16 Config.serial.toNat ++ leBytes 2 0x424 ++ leBytes 1 0xA2 ++ fit 68 Config.identityKey ++ Config.endorsement

def State.identity (s : State) (via : Via) : Answer :=
  s.allowedTo via [1, 10] fun s => (stOK, endorsementRecord, s)

/-- Up to 64 records from a SEQ on that the ring still holds (R476). -/
def State.readLedger (s : State) (via : Via) (seq : Nat) : Answer :=
  s.allowedTo via [1, 10] fun s =>
    (stOK, (((s.ledger.ring.filter fun r => r.seq ≥ seq).reverse.take 64).flatMap LedgerRec.bytes), s)

/-- The slot of a checkpoint (R476). -/
def State.readCkpt (s : State) (via : Via) (seq : Nat) : Answer :=
  s.allowedTo via [1, 10] fun s =>
    match s.ledger.store.find? fun c => c.record.seq == seq with
    | some c => (stOK, c.slot, s)
    | none => (stNOT_FOUND, [], s)

/-- OID of a SIG_SET: the XMSS-SHAKE256 parameter sets of NIST SP 800-208 (PRESUMED,
notes/assumptions/8.md). -/
def sigOid (sigSet : Nat) : Nat := 0x0F + sigSet

/-- Bytes of a signature of a SIG_SET (R469); 0 for a reserved one. -/
def sigLength (sigSet : Nat) : Nat := if sigSet = 1 then 2500 else if sigSet = 2 then 2692 else if sigSet = 3 then 2820 else 0

/-- The number that bytes spell, the first byte most significant. -/
def beNat (bs : List Byte) : Nat := leNat bs.reverse

/-- PUBKEY_SET (R469). -/
def State.setKey (s : State) (via : Via) (index sigSet : Nat) (key : List Byte) : Answer :=
  s.allowedTo via [10] fun s =>
    if sigLength sigSet = 0 || key.length ≠ 68 || beNat (key.take 4) ≠ sigOid sigSet then (stINVALID_FIELD, [], s)
    else s.changing 10 fun s =>
      let old := match findKey s.sec.keys index with | some k => k.key | none => []
      let s := s.setSec { s.sec with keys := putKey s.sec.keys index ⟨sigSet, key, false⟩ }
      (stOK, [], s.hand 10 (objKey 1 index) old key)

/-- PUBKEY_REVOKE (R469). -/
def State.revokeKey (s : State) (via : Via) (index : Nat) : Answer :=
  s.allowedTo via [10] fun s =>
    match findKey s.sec.keys index with
    | none => (stNOT_FOUND, [], s)
    | some k => s.changing 10 fun s =>
      let s := s.setSec { s.sec with keys := putKey s.sec.keys index { k with revoked := true } }
      (stOK, [], s.hand 10 (objKey 2 index) k.key [])

/-- FW_UPDATE_BEGIN (R475): a later BEGIN starts afresh. -/
def State.beginUpdate (s : State) (via : Via) (length : Nat) : Answer :=
  s.allowedTo via [10] fun s =>
    if length < 8192 || 0x1001000 < length || length % 4096 ≠ 0 then (stINVALID_FIELD, [], s)
    else s.changing 10 fun s => (stOK, [], s.setSec { s.sec with update := some ⟨length, []⟩ })

/-- FW_UPDATE_DATA (R475). -/
def State.dataUpdate (s : State) (via : Via) (offset : Nat) (bytes : List Byte) : Answer :=
  s.allowedTo via [10] fun s =>
    match s.sec.update with
    | none => (stNOT_READY, [], s)
    | some u =>
      if offset + bytes.length > u.length then (stINVALID_FIELD, [], s)
      else (stOK, [], s.setSec { s.sec with update := some { u with bytes := u.bytes ++ [(offset, bytes)] } })

/-- The image received so far; bytes never received are zero. -/
def FwUpdate.image (u : FwUpdate) : List Byte :=
  u.bytes.foldl (fun im p => im.take p.1 ++ p.2 ++ im.drop (p.1 + p.2.length)) (zeros u.length)

/-- FW_UPDATE_END (R475): verified under R473 and programmed, the image in force once its journal record is durable, or rejected. -/
def State.endUpdate (s : State) (via : Via) : Answer :=
  s.allowedTo via [10] fun s =>
    match s.sec.update with
    | none => (stNOT_READY, [], s)
    | some u => s.changing 10 fun s =>
      let im := u.image
      let old := match s.vault.image with | some i => fwDigest i | none => []
      let s := s.setSec { s.sec with update := none }
      if s.fwOk im then
        let s := (s.setVault { s.vault with nextImage := some im }).journal (.stored true)
        (stOK, [], s.hand 10 (objFirmware 3) old (fwDigest im))
      else (stIMAGE_REJECTED, [], s.hand 10 (objFirmware 2) old (fwDigest im))

/-- A management message answered on its transport. -/
def State.message (s : State) (via : Via) (act : State → Answer) : State :=
  if s.answers then
    let a := act s
    a.2.2.emit (.reply via a.1 a.2.1)
  else s

def execIdentityRead (via : Via) (s : State) : Res := .next (s.message via (·.identity via))

def execLedgerRead (via : Via) (seq : BitVec 48) (s : State) : Res := .next (s.message via (·.readLedger via seq.toNat))

def execCkptRead (via : Via) (seq : BitVec 48) (s : State) : Res := .next (s.message via (·.readCkpt via seq.toNat))

def execPubkeySet (via : Via) (index : Fin 64) (sigSet : BitVec 8) (key : List Byte) (s : State) : Res :=
  .next (s.message via (·.setKey via index.val sigSet.toNat key))

def execPubkeyRevoke (via : Via) (index : Fin 64) (s : State) : Res := .next (s.message via (·.revokeKey via index.val))

def execFwUpdateBegin (via : Via) (length : Word32) (s : State) : Res := .next (s.message via (·.beginUpdate via length.toNat))

def execFwUpdateData (via : Via) (offset : Word32) (bytes : List Byte) (s : State) : Res :=
  .next (s.message via (·.dataUpdate via offset.toNat bytes))

def execFwUpdateEnd (via : Via) (s : State) : Res := .next (s.message via (·.endUpdate via))

/-! ### PLDM (R477, R478) -/

/-- PLDM completion codes. -/
def pldmSuccess : Nat := 0
def pldmInvalidData : Nat := 2
def pldmUnsupported : Nat := 5
def pldmBadSensor : Nat := 0x80
def pldmBadRecord : Nat := 0x82

/-- A PLDM request answered by the island's responder over I3C; none over PCI Express. -/
def State.pldm (s : State) (via : Via) (act : State → Answer) : State :=
  if via == .i3c && s.svc.island then
    let a := act s
    a.2.2.emit (.reply via a.1 a.2.1)
  else s

/-- SetTID: 0x00 and 0xFF are no terminus identifiers. -/
def execSetTid (via : Via) (tid : BitVec 8) (s : State) : Res :=
  .next (s.pldm via fun s =>
    if tid == 0 || tid == 0xFF then (pldmInvalidData, [], s)
    else (pldmSuccess, [], s.setSec { s.sec with tid := tid.toNat }))

def execGetTid (via : Via) (s : State) : Res := .next (s.pldm via fun s => (pldmSuccess, leBytes 1 s.sec.tid, s))

/-- Version of a PLDM type: 1.1.0 of the base, 1.2.0 of platform monitoring. -/
def execGetPldmVersion (via : Via) (type : BitVec 8) (s : State) : Res :=
  .next (s.pldm via fun s =>
    if type == 0 then (pldmSuccess, leBytes 4 0xF1F1F000, s)
    else if type == 2 then (pldmSuccess, leBytes 4 0xF1F2F000, s)
    else (pldmUnsupported, [], s))

/-- Types 0 and 2 as a mask. -/
def execGetPldmTypes (via : Via) (s : State) : Res := .next (s.pldm via fun s => (pldmSuccess, leBytes 8 5, s))

/-- A mask of command codes. -/
def maskOf (l : List Nat) : Nat := l.foldl (fun a i => a + 2 ^ i) 0

/-- Commands answered of a type. -/
def pldmCommands (type : Nat) : List Nat :=
  if type = 0 then [1, 2, 3, 4, 5] else if type = 2 then [0x04, 0x11, 0x21, 0x50, 0x51] else []

def execGetPldmCommands (via : Via) (type : BitVec 8) (s : State) : Res :=
  .next (s.pldm via fun s =>
    if (pldmCommands type.toNat).isEmpty then (pldmUnsupported, [], s)
    else (pldmSuccess, leBytes 32 (maskOf (pldmCommands type.toNat)), s))

def execSetEventReceiver (via : Via) (eid : BitVec 8) (s : State) : Res :=
  .next (s.pldm via fun s => (pldmSuccess, [], s.setSec { s.sec with receiver := some eid.toNat }))

/-- The repository: one PDR a sensor. -/
def execGetPdrRepositoryInfo (via : Via) (s : State) : Res :=
  .next (s.pldm via fun s => (pldmSuccess, leBytes 4 sensorIds.length, s))

/-- PDR `record`, numbered from 1; 0 is the first. Its content: the next handle, the sensor and its kind. -/
def execGetPdr (via : Via) (record : BitVec 32) (s : State) : Res :=
  .next (s.pldm via fun s =>
    let n := max record.toNat 1
    match (sensorIds[n - 1]? : Option Nat) with
    | some id => (pldmSuccess, leBytes 4 (if n = sensorIds.length then 0 else n + 1) ++ leBytes 2 id ++
        leBytes 1 (flag (!(sensorNumeric id))), s)
    | none => (pldmBadRecord, [], s))

/-- Operational state, threshold range and reading of a numeric sensor. -/
def execGetSensorReading (via : Via) (sensor : BitVec 16) (s : State) : Res :=
  .next (s.pldm via fun s =>
    let id := sensor.toNat
    if !(sensorNumeric id) then (pldmBadSensor, [], s)
    else if !s.hubRuns then (pldmSuccess, leBytes 1 2 ++ zeros 5, s)
    else
      let v := s.power.last.sensor id
      (pldmSuccess, leBytes 1 0 ++ leBytes 1 (s.sensorRange id v) ++ leBytes 4 v, s))

/-- Operational state and value of a state sensor. -/
def execGetStateSensorReadings (via : Via) (sensor : BitVec 16) (s : State) : Res :=
  .next (s.pldm via fun s =>
    let id := sensor.toNat
    if !(sensorIds.contains id) || sensorNumeric id then (pldmBadSensor, [], s)
    else if !s.hubRuns && id ≠ 0x22 then (pldmSuccess, leBytes 1 2 ++ zeros 1, s)
    else (pldmSuccess, leBytes 1 0 ++ leBytes 1 (s.sensorState id), s))

/-- A PlatformEventMessage of a sensor that the receiver did not accept: sent again once, 100 ms after its sending, and dropped (R478).
While the hub is off no tick is counted, and the message is sent again when the row comes. -/
def State.resendEvent (s : State) (sensor : Nat) : State :=
  match s.sec.events.find? (fun e => e.1 == sensor), s.sec.receiver with
  | some e, some eid =>
    let send := fun s : State =>
      (s.setSec { s.sec with events := s.sec.events.erase e }).emit (.platformEvent eid sensor e.2.1)
    if s.hubRuns then s.atTimer (e.2.2 + resendTicks) send else send s
  | _, _ => s

def execPldmEventResend (s : State) (sensor : BitVec 16 := 0) : Res := .next (s.resendEvent sensor.toNat)

/-! ### SPDM (R479 to R481) -/

/-- Response codes. -/
def spdmVERSION : Nat := 0x04
def spdmCAPABILITIES : Nat := 0x61
def spdmALGORITHMS : Nat := 0x63
def spdmCHALLENGE_AUTH : Nat := 0x03
def spdmMEASUREMENTS : Nat := 0x60
def spdmCHUNK : Nat := 0x06
def spdmVENDOR : Nat := 0x7E
def spdmERROR : Nat := 0x7F
/-- Error codes. -/
def errInvalidRequest : Nat := 0x01
def errUnexpected : Nat := 0x04
def errUnspecified : Nat := 0x05
def errLarge : Nat := 0x0F
def errNotReady : Nat := 0x42

/-- The SPDM state of a transport. -/
def State.spdm (s : State) (via : Via) : Spdm := if via == .i3c then s.sec.spdmI3c else s.sec.spdmPf

def State.setSpdm (s : State) (via : Via) (x : Spdm) : State :=
  s.setSec (if via == .i3c then { s.sec with spdmI3c := x } else { s.sec with spdmPf := x })

/-- A response sent. -/
def State.spdmReply (s : State) (via : Via) (code : Nat) (body : List Byte) : State := s.emit (.reply via code body)

/-- ERROR, counted. -/
def State.spdmError (s : State) (via : Via) (err : Nat) : State := (s.bump 0x70068).spdmReply via spdmERROR (leBytes 1 err)

/-- A request on a transport that answers: not from a VF, and at its place in the exchange. -/
def State.spdmDo (s : State) (via : Via) (ready : Spdm → Bool) (act : State → State) : State :=
  let fromVf := match via with | .vf _ => true | _ => false
  if fromVf || !s.answers then s
  else if ready (s.spdm via) then act s
  else s.spdmError via errUnexpected

def execGetVersion (via : Via) (s : State) : Res :=
  .next (s.spdmDo via (fun _ => true) fun s =>
    (s.setSpdm via ⟨true, false, false, [], 0⟩).spdmReply via spdmVERSION (leBytes 2 0x1300))

/-- CHAL_CAP, MEAS_CAP with signature, MEAS_FRESH_CAP, PUB_KEY_ID_CAP, CHUNK_CAP, at their DSP0274 bits. -/
def spdmFlags : Nat := 2 ^ 2 + 2 * 2 ^ 3 + 2 ^ 5 + 2 ^ 16 + 2 ^ 17

def execGetCapabilities (via : Via) (s : State) : Res :=
  .next (s.spdmDo via (·.version) fun s =>
    (s.setSpdm via { s.spdm via with caps := true }).spdmReply via spdmCAPABILITIES (leBytes 4 spdmFlags))

/-- The algorithms of R479: DMTF measurements, raw bit stream, SHA3-256, no BaseAsymAlgo, and the one ExtAsym entry. -/
def spdmAlgorithms : List Byte :=
  leBytes 1 1 ++ leBytes 4 1 ++ leBytes 4 0 ++ leBytes 4 8 ++ leBytes 1 3 ++ leBytes 2 Config.vendorId.toNat ++ leBytes 2 1

def execNegotiateAlgorithms (via : Via) (s : State) : Res :=
  .next (s.spdmDo via (fun x => x.version && x.caps) fun s =>
    (s.setSpdm via { s.spdm via with algs := true }).spdmReply via spdmALGORITHMS spdmAlgorithms)

/-- A signed response made with the next leaf; larger than the transport's data size, it is fetched by CHUNK_GET (R470, R479). -/
def State.sendSigned (s : State) (via : Via) (code : Nat) (body : List Byte) : State :=
  match s.takeLeaf with
  | (none, s) => s.spdmError via errUnspecified
  | (some leaf, s) =>
    let resp := leBytes 1 code ++ body ++ Config.identitySign leaf (leBytes 1 code ++ body)
    (s.setSpdm via { s.spdm via with large := resp, chunk := 0 }).spdmError via errLarge

/-- A signed request: served at once, or deferred while the engine signs (R480). -/
def State.sign (s : State) (via : Via) (code : Nat) (body : List Byte) : State :=
  if s.ledger.signing.isEmpty && s.sec.deferred.isEmpty then s.sendSigned via code body
  else (s.setSec { s.sec with deferred := s.sec.deferred ++ [⟨via, code, body⟩] }).spdmError via errNotReady

def execChallenge (via : Via) (nonce : List Byte) (s : State) : Res :=
  .next (s.spdmDo via (·.algs) fun s => s.sign via spdmCHALLENGE_AUTH (leBytes 1 0xFF ++ fit 32 nonce))

/-- Digest of measurement 3 (R481). -/
def State.configDigest (s : State) : List Byte := shake256 32 (mgmtRegs.flatMap fun o => leBytes 8 (s.readReg .i3c o))

/-- Content of measurement 5 (R481). -/
def State.imagesDigest (s : State) : List Byte :=
  let cs := (s.vault.catalogue.filter fun c => c.state = 3).mergeSort fun a b =>
    a.imageId < b.imageId || (a.imageId == b.imageId && a.gen ≤ b.gen)
  shake256 32 (cs.flatMap fun c => leBytes 16 c.imageId ++ leBytes 4 c.gen ++ fit 32 c.digest) ++ leBytes 2 cs.length

/-- Value type and content of measurement `i`, 1 to 6 (R481). -/
def State.measurement (s : State) (i : Nat) : Nat × List Byte :=
  if i = 1 then (0, fit 32 Config.bootRomDigest)
  else if i = 2 then (1, fit 32 s.sec.digest)
  else if i = 3 then (3, s.configDigest)
  else if i = 4 then
    (4, leBytes 6 s.ledger.head ++ (match s.ledger.ring with | r :: _ => fit 16 r.chain | [] => zeros 16) ++ leBytes 6 s.ledger.ckptLast)
  else if i = 5 then (4, s.imagesDigest)
  else (7, leBytes 4 s.sec.svn ++ leBytes 4 s.sec.fusedSvn)

/-- One measurement block, a raw bit stream. -/
def State.measureBlock (s : State) (i : Nat) : List Byte :=
  let m := s.measurement i
  leBytes 1 i ++ leBytes 1 (0x80 + m.1) ++ leBytes 2 m.2.length ++ m.2

/-- MEASUREMENTS: the count for index 0, every block for 0xFF, else one. -/
def State.measurements (s : State) (index : Nat) : Option (List Byte) :=
  if index = 0 then some (leBytes 1 6)
  else if index = 0xFF then some (leBytes 1 6 ++ (List.range 6).flatMap fun i => s.measureBlock (i + 1))
  else if index ≤ 6 then some (leBytes 1 1 ++ s.measureBlock index)
  else none

def execGetMeasurements (via : Via) (index : BitVec 8) (signed : Bool) (nonce : List Byte) (s : State) : Res :=
  .next (s.spdmDo via (·.algs) fun s =>
    match s.measurements index.toNat with
    | none => s.spdmError via errInvalidRequest
    | some body => if signed then s.sign via spdmMEASUREMENTS (body ++ fit 32 nonce) else s.spdmReply via spdmMEASUREMENTS body)

/-- CHUNK_GET: the chunks of the large response in order. -/
def execChunkGet (via : Via) (seqNo : BitVec 16) (s : State) : Res :=
  .next (s.spdmDo via (fun x => x.version) fun s =>
    let x := s.spdm via
    let rest := x.large.drop (seqNo.toNat * Config.spdmChunk)
    if x.large.isEmpty || seqNo.toNat ≠ x.chunk || rest.isEmpty then s.spdmError via errInvalidRequest
    else
      let last := rest.length ≤ Config.spdmChunk
      let s := s.setSpdm via { x with large := if last then [] else x.large, chunk := if last then 0 else x.chunk + 1 }
      s.spdmReply via spdmCHUNK (leBytes 1 (flag last) ++ leBytes 2 seqNo.toNat ++ rest.take Config.spdmChunk))

/-- RESPOND_IF_READY: the deferred request of this transport when it is the next to be served (R480). -/
def execRespondIfReady (via : Via) (token : BitVec 8) (s : State) : Res :=
  let _ := token
  .next (s.spdmDo via (·.algs) fun s =>
    match s.sec.deferred with
    | [] => s.spdmError via errUnexpected
    | d :: rest =>
      if d.via == via && s.ledger.signing.isEmpty then (s.setSec { s.sec with deferred := rest }).sendSigned via d.code d.body
      else s.spdmError via errNotReady)

/-- The messages of R476 by their number in a VENDOR_DEFINED_REQUEST (notes/assumptions/45.md). -/
def State.vendor (s : State) (via : Via) (type : Nat) (body : List Byte) : Answer :=
  if type = 1 then s.identity via
  else if type = 2 then s.readLedger via (field body 0 6)
  else if type = 3 then s.readCkpt via (field body 0 6)
  else if type = 5 then
    if field body 0 1 < 64 then s.setKey via (field body 0 1) (field body 1 1) (body.drop 2) else (stINVALID_FIELD, [], s)
  else if type = 6 then
    if field body 0 1 < 64 then s.revokeKey via (field body 0 1) else (stINVALID_FIELD, [], s)
  else if type = 7 then s.beginUpdate via (field body 0 4)
  else if type = 8 then s.dataUpdate via (field body 0 4) (body.drop 4)
  else if type = 9 then s.endUpdate via
  else (stNOT_PERMITTED, [], s)

def execVendorDefinedRequest (via : Via) (type : BitVec 8) (body : List Byte) (s : State) : Res :=
  .next (s.spdmDo via (·.version) fun s =>
    let a := s.vendor via type.toNat body
    a.2.2.spdmReply via spdmVENDOR (leBytes 2 a.1 ++ a.2.1))

end Sys2Proof.Machine
end

