-- ==== Sys2Proof/Machine/Float.lean ====
section
/-! DEFINITION. IEEE 754 binary32 and BF16 arithmetic with one rounding, by exact integers (R137, R144, R145, R147). A value is the
number its bits spell. -/
namespace Sys2Proof.Machine

/-- A format: precision, least exponent of a normal number, the code of +Inf, the sign bit's place, the canonical NaN. -/
structure Fmt where
  p    : Nat
  emin : Int
  inf  : Nat
  sign : Nat
  nan  : Nat
  deriving DecidableEq, Repr

def fp32 : Fmt := ⟨24, -126, 0x7F800000, 31, 0x7FC00000⟩
def bf16 : Fmt := ⟨8, -126, 0x7F80, 15, 0x7FC0⟩

/-- A decoded value: NaN, an infinity, or (−1)^neg × m × 2^e. -/
inductive FV where
  | nan
  | inf (neg : Bool)
  | fin (neg : Bool) (m : Nat) (e : Int)
  deriving DecidableEq, Repr

/-- Bits to a value. -/
def Fmt.decode (f : Fmt) (w : Nat) : FV :=
  let neg := bit w f.sign
  let a := w % 2 ^ f.sign
  let frac := a % 2 ^ (f.p - 1)
  let ex := a / 2 ^ (f.p - 1)
  if a > f.inf then .nan
  else if a = f.inf then .inf neg
  else if ex = 0 then .fin neg frac (f.emin - (f.p - 1 : Nat))
  else .fin neg (frac + 2 ^ (f.p - 1)) (f.emin - (f.p - 1 : Nat) + (ex - 1 : Nat))

/-- A sign on a magnitude. -/
def Fmt.signed (f : Fmt) (neg : Bool) (a : Nat) : Nat := if neg then a + 2 ^ f.sign else a

/-- Round to nearest even: the exact value is m × 2^e, plus a positive excess below 2^e where `sticky`. -/
def Fmt.round (f : Fmt) (neg : Bool) (m : Nat) (e : Int) (sticky : Bool) : Nat :=
  if m = 0 then f.signed neg 0
  else
    let qmin : Int := f.emin - (f.p - 1 : Nat)
    let q : Int := max (m.log2 + e - (f.p - 1 : Nat)) qmin
    let mant : Nat :=
      if q ≤ e then m * 2 ^ (e - q).toNat
      else
        let sh := (q - e).toNat
        let t := m / 2 ^ sh
        let r := m % 2 ^ sh
        let h := 2 ^ (sh - 1)
        if r > h || (r == h && (sticky || t % 2 == 1)) then t + 1 else t
    f.signed neg (min ((q - qmin).toNat * 2 ^ (f.p - 1) + mant) f.inf)

/-- A value to bits. -/
def Fmt.encode (f : Fmt) : FV → Nat
  | .nan => f.nan
  | .inf neg => f.signed neg f.inf
  | .fin neg m e => f.round neg m e false

/-- An exact rational rounded: (−1)^neg × a / b × 2^e, b positive. -/
def Fmt.ratio (f : Fmt) (neg : Bool) (a b : Nat) (e : Int) : Nat :=
  if a = 0 then f.signed neg 0
  else
    let k := b.log2 + 64 - min (b.log2 + 60) a.log2 + 8
    f.round neg (a * 2 ^ k / b) (e - k) (a * 2 ^ k % b ≠ 0)

/-- The exact sum of two finite values; an exact zero is −0.0 only when both are. -/
def addFin (n1 : Bool) (m1 : Nat) (e1 : Int) (n2 : Bool) (m2 : Nat) (e2 : Int) : FV :=
  let e := min e1 e2
  let a : Int := (m1 * 2 ^ (e1 - e).toNat : Nat)
  let b : Int := (m2 * 2 ^ (e2 - e).toNat : Nat)
  let z : Int := (if n1 then -a else a) + (if n2 then -b else b)
  if z = 0 then .fin (n1 && n2) 0 0 else .fin (z < 0) z.natAbs e

/-- The exact sum. -/
def FV.add : FV → FV → FV
  | .nan, _ => .nan
  | _, .nan => .nan
  | .inf a, .inf b => if a == b then .inf a else .nan
  | .inf a, .fin _ _ _ => .inf a
  | .fin _ _ _, .inf b => .inf b
  | .fin a m e, .fin b n g => addFin a m e b n g

/-- The exact product. -/
def FV.mul : FV → FV → FV
  | .nan, _ => .nan
  | _, .nan => .nan
  | .inf a, .inf b => .inf (a != b)
  | .inf a, .fin b m _ => if m = 0 then .nan else .inf (a != b)
  | .fin a m _, .inf b => if m = 0 then .nan else .inf (a != b)
  | .fin a m e, .fin b n g => .fin (a != b) (m * n) (e + g)

/-- The sign changed. -/
def FV.neg : FV → FV
  | .nan => .nan
  | .inf a => .inf !a
  | .fin a m e => .fin (!a) m e

/-- rne32 of a sum, a product and a fused multiply-add of FP32 values (R137). -/
def f32add (a b : Nat) : Nat := fp32.encode ((fp32.decode a).add (fp32.decode b))
def f32sub (a b : Nat) : Nat := fp32.encode ((fp32.decode a).add (fp32.decode b).neg)
def f32mul (a b : Nat) : Nat := fp32.encode ((fp32.decode a).mul (fp32.decode b))

/-- A quotient, correctly rounded. -/
def Fmt.div (f : Fmt) (x y : FV) : Nat :=
  match x, y with
  | .nan, _ => f.nan
  | _, .nan => f.nan
  | .inf _, .inf _ => f.nan
  | .inf a, .fin b _ _ => f.signed (a != b) f.inf
  | .fin a _ _, .inf b => f.signed (a != b) 0
  | .fin a m e, .fin b n g =>
    if n = 0 then (if m = 0 then f.nan else f.signed (a != b) f.inf)
    else f.ratio (a != b) m n (e - g)

def f32div (a b : Nat) : Nat := fp32.div (fp32.decode a) (fp32.decode b)

/-- An integer over 2^k as FP32. -/
def f32ofNat (n : Nat) : Nat := fp32.round false n 0 false

/-- A value of either format is NaN. -/
def f32isNan (a : Nat) : Bool := a % 2 ^ 31 > 0x7F800000
def f32finite (a : Nat) : Bool := a % 2 ^ 31 < 0x7F800000

/-- BF16 widened to FP32, and FP32 rounded to BF16 (R144). -/
def bf16wide (a : Nat) : Nat := if a % 2 ^ 15 > 0x7F80 then fp32.nan else a * 65536
def bf16round (a : Nat) : Nat := bf16.encode (fp32.decode a)

/-! ### Order (R147) -/

/-- The place of a non-NaN value in the order, −0.0 below +0.0. -/
def f32key (a : Nat) : Int := if bit a 31 then -((a % 2 ^ 31 : Nat) : Int) - 1 else (a % 2 ^ 31 : Nat)

/-- MAX and MIN of FP32 values. -/
def f32max (a b : Nat) : Nat := if f32isNan a || f32isNan b then fp32.nan else if f32key a < f32key b then b else a
def f32min (a b : Nat) : Nat := if f32isNan a || f32isNan b then fp32.nan else if f32key b < f32key a then b else a

/-! ### Roots (R145) -/

/-- Integer square root by bits, `n` of them. -/
def isqrtGo (x : Nat) : Nat → Nat → Nat
  | 0, r => r
  | n + 1, r => if (r + 2 ^ n) * (r + 2 ^ n) ≤ x then isqrtGo x n (r + 2 ^ n) else isqrtGo x n r

/-- Integer square root. -/
def isqrt (x : Nat) : Nat := isqrtGo x (x.log2 / 2 + 1) 0

/-- The square root of a value. -/
def Fmt.sqrt (f : Fmt) : FV → Nat
  | .nan => f.nan
  | .inf neg => if neg then f.nan else f.inf
  | .fin neg m e =>
    if m = 0 then f.signed neg 0
    else if neg then f.nan
    else
      let odd : Nat := (e % 2).toNat
      let x := m * 2 ^ (80 + odd)
      let r := isqrt x
      f.round false r ((e - odd) / 2 - 40) (r * r ≠ x)

/-- The reciprocal of the square root. -/
def Fmt.rsqrt (f : Fmt) : FV → Nat
  | .nan => f.nan
  | .inf neg => if neg then f.nan else 0
  | .fin neg m e =>
    if m = 0 then f.signed neg f.inf
    else if neg then f.nan
    else
      let odd : Nat := (e % 2).toNat
      let d := m * 2 ^ odd
      let x := 2 ^ (160 + 2 * (d.log2 / 2)) / d
      let r := isqrt x
      f.round false r (-(80 : Int) - (d.log2 / 2 : Nat) - (e - odd) / 2) (r * r * d ≠ 2 ^ (160 + 2 * (d.log2 / 2)))

/-! ### EXP, EXP2, LOG2 (R145): bounds of the exact value over 2^n, tightened until both round alike -/

/-- Bounds of exp(x / 2^n) − from the series of a number x ≥ 0: `k` terms are left; `lo` and `hi` bound term number `i`. -/
def expGo (n xlo xhi : Nat) : Nat → Nat → Nat → Nat → Nat → Nat → Nat × Nat
  | 0, _, _, hi, slo, shi => (slo, shi + 2 * hi + 2)
  | k + 1, i, lo, hi, slo, shi =>
    let lo' := lo * xlo / (i * 2 ^ n)
    let hi' := hi * xhi / (i * 2 ^ n) + 1
    expGo n xlo xhi k (i + 1) lo' hi' (slo + lo') (shi + hi')

/-- Bounds of exp of a number between xlo / 2^n and xhi / 2^n, both below 128. -/
def expBounds (n xlo xhi : Nat) : Nat × Nat := expGo n xlo xhi (n + 512) 1 (2 ^ n) (2 ^ n) (2 ^ n) (2 ^ n)

/-- Bounds of atanh(a / b) from its odd series, a / b ≤ 1 / 3. -/
def atanhGo (n a2 b2 : Nat) : Nat → Nat → Nat → Nat → Nat → Nat → Nat × Nat
  | 0, _, _, hi, slo, shi => (slo, shi + 2 * hi + 2)
  | k + 1, i, lo, hi, slo, shi =>
    let lo' := lo * a2 / b2
    let hi' := hi * a2 / b2 + 1
    atanhGo n a2 b2 k (i + 2) lo' hi' (slo + lo' / i) (shi + hi' / i + 1)

def atanhBounds (n a b : Nat) : Nat × Nat :=
  let lo := a * 2 ^ n / b
  let hi := lo + 1
  atanhGo n (a * a) (b * b) (n / 2) 3 lo hi lo hi

/-- Bounds of ln 2. -/
def ln2Bounds (n : Nat) : Nat × Nat :=
  let r := atanhBounds n 1 3
  (2 * r.1, 2 * r.2)

/-- Both bounds round alike. -/
def Fmt.agree (f : Fmt) (neg : Bool) (lo hi : Nat) (e : Int) : Option Nat :=
  let a := f.round neg lo e true
  if a = f.round neg hi e true && 0 < lo then some a else none

/-- exp of a nonzero finite value at n bits. -/
def Fmt.expAt (f : Fmt) (neg : Bool) (m : Nat) (e : Int) (n : Nat) : Option Nat :=
  let x := if e < 0 then m * 2 ^ n / 2 ^ (-e).toNat else m * 2 ^ n * 2 ^ e.toNat
  let r := expBounds n x (x + 1)
  if neg then f.agree false (2 ^ (3 * n) / (r.2 + 1)) (2 ^ (3 * n) / r.1 + 1) (-(2 * n : Nat))
  else f.agree false r.1 r.2 (-(n : Nat))

/-- 2 to a finite value that is no integer, at n bits: integer part i, fraction from the value. -/
def Fmt.exp2At (f : Fmt) (i : Int) (frac : Nat) (den : Nat) (n : Nat) : Option Nat :=
  let l := ln2Bounds n
  let r := expBounds n (frac * l.1 / den) (frac * l.2 / den + 1)
  f.agree false r.1 r.2 (i - n)

/-- log2 of m × 2^e, not a power of two, at n bits. -/
def Fmt.log2At (f : Fmt) (m : Nat) (e : Int) (n : Nat) : Option Nat :=
  let k := m.log2
  let l := ln2Bounds n
  let r := atanhBounds n (m - 2 ^ k) (m + 2 ^ k)
  let qlo := 2 * r.1 * 2 ^ n / l.2
  let qhi := 2 * r.2 * 2 ^ n / l.1 + 1
  let ip : Int := (e + k) * (2 ^ n : Nat)
  let lo : Int := ip + qlo
  let hi : Int := ip + qhi
  if lo > 0 then f.agree false lo.toNat hi.toNat (-(n : Nat))
  else if hi < 0 then f.agree true (-hi).toNat (-lo).toNat (-(n : Nat))
  else none

/-- The first of four precisions at which the bounds agree; the last one's lower bound otherwise. -/
def refine (g : Nat → Option Nat) (dflt : Nat) : Nat :=
  match g 96 with
  | some v => v
  | none => match g 192 with
    | some v => v
    | none => match g 384 with
      | some v => v
      | none => (g 768).getD dflt

/-- The value is below 2^k in magnitude. -/
def belowPow (m : Nat) (e : Int) (k : Int) : Bool := m = 0 || m.log2 + e < k

/-- EXP. -/
def Fmt.exp (f : Fmt) : FV → Nat
  | .nan => f.nan
  | .inf neg => if neg then 0 else f.inf
  | .fin neg m e =>
    if m = 0 then f.encode (.fin false 1 0)
    else if !(belowPow m e 7) then (if neg then 0 else f.inf)
    else refine (f.expAt neg m e) (f.encode (.fin false 1 0))

/-- EXP2. -/
def Fmt.exp2 (f : Fmt) : FV → Nat
  | .nan => f.nan
  | .inf neg => if neg then 0 else f.inf
  | .fin neg m e =>
    if m = 0 then f.encode (.fin false 1 0)
    else if !(belowPow m e 8) then (if neg then 0 else f.inf)
    else
      let den : Nat := 2 ^ (if e < 0 then (-e).toNat else 0)
      let num : Int := if e < 0 then (m : Int) else (m * 2 ^ e.toNat : Nat)
      let z : Int := if neg then -num else num
      let i := z / (den : Int)
      let fr := (z % (den : Int)).toNat
      if fr = 0 then f.round false 1 i false
      else refine (f.exp2At i fr den) (f.round false 1 i false)

/-- LOG2. -/
def Fmt.log2 (f : Fmt) : FV → Nat
  | .nan => f.nan
  | .inf neg => if neg then f.nan else f.inf
  | .fin neg m e =>
    if m = 0 then f.signed true f.inf
    else if neg then f.nan
    else if m = 2 ^ m.log2 then
      let z : Int := e + m.log2
      f.round (z < 0) z.natAbs 0 false
    else refine (f.log2At m e) f.nan

/-! ### Integers (R144) -/

/-- FP32 to INT32: round to nearest even, saturating; NaN gives 0. -/
def f32toI32 (a : Nat) : Nat :=
  match fp32.decode a with
  | .nan => 0
  | .inf neg => if neg then 0x80000000 else 0x7FFFFFFF
  | .fin neg m e =>
    let v : Nat :=
      if e ≥ 0 then m * 2 ^ (min e.toNat 64)
      else
        let sh := (-e).toNat
        let t := m / 2 ^ sh
        let r := m % 2 ^ sh
        let h := 2 ^ (sh - 1)
        if r > h || (r == h && t % 2 == 1) then t + 1 else t
    if neg then unsgn 32 (-(min v 0x80000000 : Nat)) else min v 0x7FFFFFFF

/-- INT32 to FP32. -/
def i32toF32 (a : Nat) : Nat :=
  let z := sgn 32 a
  fp32.round (z < 0) z.natAbs 0 false

end Sys2Proof.Machine
end

