-- ==== Sys2Proof/Machine/Formats.lean ====
section
/-! DEFINITION. Integer codes, block scales, numeric descriptors, the encoder's arithmetic and watch counts, encoded blocks,
dictionaries and the expander's checks (04 R118 to R130, 05 R149 to R160, 06 R167 to R187). -/
namespace Sys2Proof.Machine

/-- Bits of a width code (R120). -/
def codeWidth (wc : Nat) : Nat := if wc = 0 then 8 else wc

/-- Value of a `w`-bit code field (R118, R119). -/
def codeValue (w f : Nat) : Int := if w = 1 then (if f % 2 = 1 then 1 else -1) else sgn w f

/-- A raw operand block as the engine receives it: code fields, scale bytes, and outliers (scale block, index, BF16) (R123 to R125). -/
structure RawBlock where
  width  : Nat
  fields : List Nat
  scales : List Nat
  outs   : List (Nat × Nat × Nat)
  deriving DecidableEq, Repr

/-- The position is an outlier. -/
def RawBlock.isOut (b : RawBlock) (s i : Nat) : Bool := b.outs.any (fun o => o.1 == s && o.2.1 == i)

/-- The code at a position; an I1 outlier position counts as 0 (R126, R132). -/
def RawBlock.code (b : RawBlock) (s i : Nat) : Int :=
  if b.isOut s i then 0 else codeValue b.width (nth 0 b.fields (32 * s + i))

/-! ### Encoding from real values (R127 to R129, R150) -/

/-- The exponent of the leading bit of a finite nonzero value. -/
def f32exp (a : Nat) : Int :=
  match fp32.decode a with
  | .fin _ m e => m.log2 + e
  | _ => 0

/-- Round to nearest even of m × 2^e, as an integer. -/
def rneInt (m : Nat) (e : Int) : Nat :=
  if e ≥ 0 then m * 2 ^ e.toNat
  else
    let sh := (-e).toNat
    let t := m / 2 ^ sh
    let r := m % 2 ^ sh
    let h := 2 ^ (sh - 1)
    if r > h || (r == h && t % 2 == 1) then t + 1 else t

/-- Magnitude of rne(x ÷ 2^e) of a finite value. -/
def quotient (x : Nat) (e : Int) : Nat :=
  match fp32.decode x with
  | .fin _ m g => rneInt m (g - e)
  | _ => 0

/-- |x| > T (R127). -/
def aboveT (x t : Nat) : Bool :=
  !(f32isNan t) && ((bit t 31 && t ≠ 0x80000000) || x % 2 ^ 31 > t % 2 ^ 31)

/-- An encoded scale block and its counts: the scale byte, the codes, the outliers (index, BF16), N, SAT, ZERO, NONFIN (R150). -/
structure ScaleEnc where
  scale  : Nat
  codes  : List Int
  outs   : List (Nat × Nat)
  n      : Nat
  sat    : Nat
  zero   : Nat
  nonfin : Nat
  deriving DecidableEq, Repr

/-- The kept outliers: at most two candidates by decreasing magnitude, then lower index (R127). -/
def pickOutliers (xs : List Nat) (t : Nat) : List Nat :=
  let cand := xs.zipIdx.filter fun p => f32finite p.1 && aboveT p.1 t && bf16round p.1 % 2 ^ 15 < 0x7F80
  let best := fun (ps : List (Nat × Nat)) =>
    ps.foldl (fun (b : Option (Nat × Nat)) p =>
      match b with
      | none => some p
      | some q => if p.1 % 2 ^ 31 > q.1 % 2 ^ 31 then some p else b) none
  match best cand with
  | none => []
  | some p =>
    match best (cand.filter (fun c => c.2 ≠ p.2)) with
    | none => [p.2]
    | some q => if p.2 < q.2 then [p.2, q.2] else [q.2, p.2]

/-- The computed exponent: smallest e with qmax × 2^e ≥ amax, clamped (R128). -/
def scaleExp (qmax amax : Nat) : Int :=
  match fp32.decode amax with
  | .fin _ m g =>
    let e : Int := m.log2 + g - qmax.log2
    let lo := min e g
    let e := if qmax * 2 ^ (e - lo).toNat < m * 2 ^ (g - lo).toNat then e + 1 else e
    max (-126) (min e 127)
  | _ => -126

/-- One scale block of 32 FP32 values encoded under a limit, a threshold and a computed or supplied scale (R127 to R129, R152). -/
def encodeScale (qmax t : Nat) (sup : Option Nat) (xs : List Nat) : ScaleEnc :=
  let os := pickOutliers xs t
  let isOut := fun i => os.contains i
  let live := xs.zipIdx.filter fun p => f32finite p.1 && !(isOut p.2)
  let amax := live.foldl (fun a p => max a (p.1 % 2 ^ 31)) 0
  let e := match sup with | some b => (b : Int) - 127 | none => scaleExp qmax amax
  let code := fun (p : Nat × Nat) =>
    let (x, i) := p
    if isOut i then (0 : Int)
    else if f32isNan x then (qmax : Int)
    else if !(f32finite x) then (if bit x 31 then -(qmax : Int) else qmax)
    else if amax = 0 then 0
    else
      let q : Int := (min (quotient x e) qmax : Nat)
      if bit x 31 then -q else q
  let nz := live.filter fun p => p.1 % 2 ^ 31 ≠ 0
  { scale := if amax = 0 then 0 else (e + 127).toNat
    codes := xs.zipIdx.map code
    outs := os.map fun i => (i, bf16round (nth 0 xs i))
    n := nz.length
    sat := (nz.filter fun p => quotient p.1 e > qmax).length
    zero := (nz.filter fun p => quotient p.1 e = 0).length
    nonfin := (xs.filter fun x => !(f32finite x)).length }

/-- A scale block trips (R151). -/
def ScaleEnc.trips (b : ScaleEnc) (satMax zeroMax : Nat) : Bool :=
  b.n > 0 && (b.sat == b.n || b.zero == b.n || b.sat > satMax || b.zero > zeroMax)

/-- The four scale blocks of an operand block. -/
def encodeBlock (qmax t : Nat) (sup : Option Nat) (xs : List Nat) : List ScaleEnc :=
  (pieces 32 4 xs).map (encodeScale qmax t sup)

/-- An operand block trips when a scale block does (R151). -/
def blockTrips (satMax zeroMax : Nat) (bs : List ScaleEnc) : Bool := bs.any (·.trips satMax zeroMax)

/-- Code fields of an encoded operand block at a width of 8 or 4. -/
def encFields (w : Nat) (bs : List ScaleEnc) : List Nat := bs.flatMap fun b => b.codes.map (unsgn w)

/-! ### Encoded blocks (R125, R169 to R176) -/

/-- The 40-byte numeric descriptor of an activation block (R125). -/
def descriptorBytes (w : Nat) (bs : List ScaleEnc) : List Byte :=
  let outs := bs.zipIdx.flatMap fun p => p.1.outs.map fun o => o.2 + o.1 * 2 ^ 16 + p.2 * 2 ^ 21
  bs.flatMap (fun b => leBytes 1 b.scale) ++ leBytes 1 (w % 8) ++ leBytes 1 outs.length ++ zeros 2 ++
    fit 32 (outs.flatMap (leBytes 4))

/-- A block header (R169). -/
def blockHeader (mode cls nnz dict gen len ext : Nat) : Nat :=
  mode + cls * 4 + nnz * 16 + dict * 2 ^ 12 + gen * 2 ^ 16 + len * 2 ^ 32 + ext * 2 ^ 48

/-- Fields of `w` bits packed from the low bit up (R124, R171). -/
def packFields (w : Nat) (fs : List Nat) : List Byte :=
  leBytes ((fs.length * w + 7) / 8) (fs.zipIdx.foldl (fun a p => a + p.1 * 2 ^ (w * p.2)) 0)

/-- `n` fields of `w` bits (R171). -/
def unpackFields (w n : Nat) (bs : List Byte) : List Nat :=
  let v := leNat bs
  (List.range n).map fun i => bits v (w * i) w

/-- The presence map (R171). -/
def presenceMap (fs : List Nat) : List Byte := packFields 1 (fs.map fun f => if f = 0 then 0 else 1)

/-- LEN of a mode, class, width and NNZ (R170). -/
def blockLen (mode cls w nnz : Nat) : Nat :=
  let d := if cls < 2 then 40 else 0
  let p := if mode = 0 then (if cls = 0 then 16 * w else if cls = 1 && w = 4 then 64 else 128)
    else if mode = 1 then 16 + (nnz * w + 7) / 8 else 16 + (nnz + 1) / 2
  8 + d + p + 2

/-- Widths a class has. -/
def classWidths (cls : Nat) : List Nat := if cls = 0 then [1, 2, 3, 4, 5, 6, 7, 8] else if cls = 1 then [4, 8] else [8]

/-- R170 allows this LEN for the mode and class of the header, at some width of the class (R186). -/
def lenAllowed (mode cls nnz len : Nat) : Bool :=
  if mode = 3 then len == 64
  else if cls ≥ 2 && mode ≠ 0 then false
  else (classWidths cls).any fun w => blockLen mode cls w nnz == len

/-- A block's bytes with its check value (R176). -/
def withCheck (body : List Byte) : List Byte := body ++ leBytes 2 (crc16 body)

/-- A dictionary that the encoder may use: its identifier, generation and entries. -/
structure DictUse where
  id      : Nat
  gen     : Nat
  entries : List Nat
  deriving DecidableEq, Repr

/-- The mode of an activation block (R177): 0 RAW, 1 BITMAP, 2 DICT. -/
def chooseMode (w : Nat) (fs : List Nat) (dict : Option DictUse) : Nat :=
  let present := fs.filter (· ≠ 0)
  let nnz := present.length
  if w = 1 || nnz > 96 then 0
  else
    let best := match dict with
      | some d =>
        if w ≥ 5 && present.all (fun f => d.entries.contains f) && blockLen 2 1 w nnz < blockLen 1 1 w nnz then 2 else 1
      | none => 1
    if blockLen best 1 w nnz ≥ blockLen 0 1 w 0 then 0 else best

/-- An activation block of width 8 or 4 as encoded bytes, EXT 0 (R169 to R171, R176, R177). -/
def blockBytes (w : Nat) (bs : List ScaleEnc) (dict : Option DictUse) : List Byte :=
  let fs := encFields w bs
  let present := fs.filter (· ≠ 0)
  let mode := chooseMode w fs dict
  let nnz := present.length
  let pay := if mode = 0 then packFields w fs
    else if mode = 1 then presenceMap fs ++ packFields w present
    else presenceMap fs ++ packFields 4 (present.map fun f => (match dict with | some d => d.entries.idxOf f | none => 0))
  let hdr := if mode = 2 then
      (match dict with | some d => blockHeader 2 1 nnz d.id (d.gen % 256) (blockLen 2 1 w nnz) 0 | none => 0)
    else blockHeader mode 1 (if mode = 0 then 0 else nnz) 0 0 (blockLen mode 1 w nnz) 0
  withCheck (leBytes 8 hdr ++ descriptorBytes w bs ++ pay)

/-! ### Dictionary records (R178, R179) -/

/-- Distinct codes with their counts, in order of first appearance. -/
def countCodes (cs : List Int) : List (Int × Nat) :=
  cs.eraseDups.map fun c => (c, cs.count c)

/-- R179's order: count, then magnitude, then the positive code first. -/
def codeBefore (a b : Int × Nat) : Bool :=
  a.2 > b.2 || (a.2 == b.2 && (a.1.natAbs < b.1.natAbs || (a.1.natAbs == b.1.natAbs && a.1 ≥ b.1)))

/-- The first 16 distinct codes of a pass (R179). -/
def dictCodes (cs : List Int) : List Int :=
  (((countCodes (cs.filter (· ≠ 0))).mergeSort codeBefore).take 16).map (·.1)

/-- A dictionary record (R178): class 1, width 8. -/
def recordBytes (id gen : Nat) (entries : List Nat) : List Byte :=
  withCheck (leBytes 8 (blockHeader 3 1 0 id (gen % 256) 64 0) ++ leBytes 4 gen ++ leBytes 1 0 ++ leBytes 1 entries.length ++
    zeros 2 ++ fit 16 (entries.map (BitVec.ofNat 8)) ++ zeros 30)

/-- A record read (R178). -/
structure DictRec where
  id      : Nat
  gen     : Nat
  width   : Nat
  entries : List Nat
  deriving DecidableEq, Repr

/-- What a check of a block or record found. -/
inductive Bad where
  | check | format | miss
  deriving DecidableEq, Repr

/-- A header bit that no field covers is set (R169). -/
def headerReserved (h : Nat) : Bool := bit h 15 || bits h 24 8 ≠ 0 || bits h 58 6 ≠ 0

/-- A dictionary record's fields, or what it breaks (R178); its check takes EXT as zero (R175). -/
def readRecord (bs : List Byte) : Except Bad DictRec :=
  let h := field bs 0 8
  let gen := field bs 8 4
  let wc := field bs 12 1 % 8
  let count := field bs 13 1
  let es := (slice bs 16 16).map (·.toNat)
  let used := es.take count
  let clear := leBytes 8 (putBits h 48 10 0) ++ slice bs 8 54
  if bs.length ≠ 64 || crc16 clear ≠ field bs 62 2 then .error .check
  else if bits h 0 2 ≠ 3 || bits h 2 2 > 1 || headerReserved h || bits h 4 8 ≠ 0 || bits h 48 10 ≠ 0 || bits h 32 16 ≠ 64 ||
      bits h 16 8 ≠ gen % 256 || field bs 12 1 / 8 ≠ 0 || (1 ≤ wc && wc ≤ 4) || count = 0 || count > 16 || field bs 14 2 ≠ 0 ||
      !(allZero (slice bs 32 30)) || (es.drop count).any (· ≠ 0) ||
      used.any (fun e => e = 0 || e ≥ 2 ^ codeWidth wc) || used.eraseDups.length ≠ count then .error .format
  else .ok ⟨bits h 12 3, gen, codeWidth wc, used⟩

/-! ### The expander (R139, R185 to R187) -/

/-- What a port accepts: the weight port's layer width and override, or the activation port's A_FMT and override (R139). -/
inductive Accept where
  | weight (wc : Nat) (tern ovr : Bool)
  | act (fmt : Nat) (ovr : Bool)
  deriving DecidableEq, Repr

/-- The block's class, width code and ternary flag are accepted (R139). -/
def Accept.ok (a : Accept) (cls wc : Nat) (tern : Bool) : Bool :=
  match a with
  | .weight lw lt ovr => cls == 0 && ((wc == lw && tern == lt) || ovr)
  | .act fmt ovr =>
    if cls = 1 then (if fmt = 1 then wc == 4 || (wc == 0 && ovr) else wc == 0)
    else cls ≥ 2 && fmt == cls

/-- The numeric descriptor is well formed for its code fields (R126). -/
def descriptorOk (cls : Nat) (d : List Byte) (w : Nat) (fs : List Nat) : Bool :=
  let wb := field d 4 1
  let wc := wb % 8
  let tern := bit wb 3
  let oc := field d 5 1
  let es := (List.range 8).map fun i => field d (8 + 4 * i) 4
  let used := es.take oc
  let keys := used.map fun e => bits e 16 7
  wb / 16 = 0 && oc ≤ 8 && field d 6 2 = 0 && (es.drop oc).all (· == 0) && used.all (fun e => e / 2 ^ 23 == 0) &&
    (keys.zip (keys.drop 1)).all (fun p => p.1 < p.2) &&
    (List.range 4).all (fun s => (keys.filter (fun k => k / 32 == s)).length ≤ 2) &&
    keys.all (fun k => nth 0 fs k == 0) && (slice d 0 4).all (· ≠ 0xFF) && (!tern || wc == 2) &&
    (cls = 0 || (!tern && (wc = 0 || wc = 4))) && (!tern || fs.all (· ≠ 2)) && w = codeWidth wc

/-- Code fields of a raw payload (R123, R124). -/
def rawFields (cls w : Nat) (pay : List Byte) : List Nat :=
  if cls = 0 then
    (List.range 128).map fun i =>
      (List.range w).foldl (fun a p => a + flag (bit (field pay ((i / 32 * w + p) * 4) 4) (i % 32)) * 2 ^ p) 0
  else unpackFields (if cls = 1 then w else 8) 128 pay

/-- Present elements' fields put in their places (R171). -/
def scatter : List Bool → List Nat → List Nat
  | [], _ => []
  | false :: ps, fs => 0 :: scatter ps fs
  | true :: ps, f :: fs => f :: scatter ps fs
  | true :: ps, [] => 0 :: scatter ps []

/-! ### F8 (R130) -/

/-- An F8 value: none for a non-finite one, else sign, significand and exponent; E4M3 for class 2, E5M2 for class 3. -/
def f8Value (cls x : Nat) : Option (Bool × Nat × Int) :=
  let neg := bit x 7
  if cls = 2 then
    let e := bits x 3 4
    let f := bits x 0 3
    if e = 15 && f = 7 then none
    else if e = 0 then some (neg, f, -9) else some (neg, f + 8, (e : Int) - 10)
  else
    let e := bits x 2 5
    let f := bits x 0 2
    if e = 31 then none
    else if e = 0 then some (neg, f, -16) else some (neg, f + 4, (e : Int) - 17)

/-- The sign of a non-finite F8 pattern as R129 codes it: −qmax for −Inf only. -/
def f8NonFinite (cls x : Nat) : Int := if cls = 3 && bits x 0 2 = 0 && bit x 7 then -127 else 127

/-- One scale block of F8 input: the scale byte and the I8 codes (R130). -/
def f8Scale (cls : Nat) (xs : List Nat) : Nat × List Int :=
  let emax := xs.foldl (fun (a : Option Int) x =>
    match f8Value cls x with
    | some (_, m, e) => if m = 0 then a else
        let k : Int := m.log2 + e
        match a with | none => some k | some b => some (max b k)
    | none => a) none
  match emax with
  | none => (0, xs.map fun x => match f8Value cls x with | none => f8NonFinite cls x | some _ => 0)
  | some k =>
    let e := k - 6
    ((e + 127).toNat, xs.map fun x =>
      match f8Value cls x with
      | none => f8NonFinite cls x
      | some (neg, m, g) =>
        let q : Int := (rneInt m (g - e) : Nat)
        if neg then -q else q)

/-- An F8 block converted to a block-scaled I8 block (R130). -/
def f8Block (cls : Nat) (fs : List Nat) : RawBlock :=
  let ss := (pieces 32 4 fs).map (f8Scale cls)
  { width := 8, fields := ss.flatMap (fun s => s.2.map (unsgn 8)), scales := ss.map (·.1), outs := [] }

/-- R186's checks of a block in order; `bs` holds the block's bytes with its extension joined on. -/
def expand (look : Nat → Nat → Option DictSlot) (acc : Accept) (bs : List Byte) : Except Bad RawBlock :=
  let h := field bs 0 8
  let mode := bits h 0 2
  let cls := bits h 2 2
  let nnz := bits h 4 8
  let len := bits h 32 16
  let clear := leBytes 8 (putBits h 48 10 0) ++ slice bs 8 (len - 10)
  if !(lenAllowed mode cls nnz len) || bs.length < len || crc16 clear ≠ field bs (len - 2) 2 then .error .check
  else if mode = 3 || headerReserved h || (mode = 0 && nnz ≠ 0) || (mode ≠ 2 && (bits h 12 3 ≠ 0 || bits h 16 8 ≠ 0)) then
    .error .format
  else if cls ≥ 2 then
    if acc.ok cls 0 false then .ok (f8Block cls (rawFields cls 8 (slice bs 8 128))) else .error .format
  else
    let d := slice bs 8 40
    let wc := field d 4 1 % 8
    let w := codeWidth wc
    let pay := slice bs 48 (len - 50)
    let map := (unpackFields 1 128 (slice pay 0 16)).map (· == 1)
    let marks := (map.filter (·)).length
    if (cls = 1 && w ≠ 4 && w ≠ 8) || (w = 1 && mode ≠ 0) || len ≠ blockLen mode cls w nnz ||
        (mode ≠ 0 && (marks ≠ nnz || nnz > 96)) || (mode = 2 && w < 5) then .error .format
    else
      let idx := unpackFields 4 nnz (slice pay 16 ((nnz + 1) / 2))
      let slot := if mode = 2 then look (bits h 12 3) (bits h 16 8) else none
      let vals := if mode = 1 then unpackFields w nnz (slice pay 16 ((nnz * w + 7) / 8))
        else match slot with | some t => idx.map (nth 0 t.entries) | none => idx.map fun _ => 0
      let fs := if mode = 0 then rawFields cls w pay else scatter map vals
      let dictBad := match slot with
        | some t => t.width ≠ w || idx.any (fun i => i ≥ t.entries.length)
        | none => false
      if (mode = 1 && vals.contains 0) || dictBad || !(descriptorOk cls d w fs) || !(acc.ok cls wc (bit (field d 4 1) 3)) then
        .error .format
      else if mode = 2 && slot.isNone then .error .miss
      else
        let used := (List.range (field d 5 1)).map fun i => field d (8 + 4 * i) 4
        .ok { width := w, fields := fs, scales := (slice d 0 4).map (·.toNat),
              outs := used.map fun e => (bits e 21 2, bits e 16 5, bits e 0 16) }

/-- The header of a BITMAP or DICT block claims more than 96 present elements (R186). -/
def overruns (bs : List Byte) : Bool :=
  let h := field bs 0 8
  (bits h 0 2 = 1 || bits h 0 2 = 2) && bits h 4 8 > 96

end Sys2Proof.Machine
end

