-- ==== Sys2Proof/Machine/Blocks.lean ====
section
/-! DEFINITION. Operand blocks in tile memory and how they come there: the matrix engine's operands, the encoder's verdicts and
writes, and the recovery of a block that fails at the expander (04 R139, R140, R143; 05 R152 to R160; 06 R173 to R187). -/
namespace Sys2Proof.Machine

/-! ### Operand and engine setup (R139, R140) -/

/-- The operand of a MATRIX action (R140). -/
structure MatOp where
  wOff  : Nat
  aOff  : Nat
  kblk  : Nat
  ch    : Nat
  rows  : Nat
  clear : Bool
  drain : Bool
  out   : Nat
  deriving DecidableEq, Repr

def matOp (v : Nat) : MatOp :=
  { wOff := bits v 0 15 * 64, aOff := bits v 15 15 * 64, kblk := if bits v 30 8 = 0 then 256 else bits v 30 8,
    ch := if bits v 38 6 = 0 then 64 else bits v 38 6, rows := if bits v 44 8 = 0 then 256 else bits v 44 8,
    clear := bit v 52, drain := bit v 53, out := bits v 54 9 * 4096 }

/-- The engine setup (R139). -/
structure Engine where
  wc      : Nat
  tern    : Bool
  wOver   : Bool
  afmt    : Nat
  aOver   : Bool
  cs      : Bool
  outFmt  : Nat
  deriving DecidableEq, Repr

def engineOf (v : Nat) : Engine :=
  { wc := bits v 0 3, tern := bit v 3, wOver := bit v 4, afmt := bits v 5 2, aOver := bit v 7, cs := bit v 8, outFmt := bits v 9 2 }

/-- Slot size of a RAW size (R173). -/
def slotOf (raw : Nat) : Nat := cdiv raw 64 * 64

def Engine.wSlot (e : Engine) : Nat := slotOf (blockLen 0 0 (codeWidth e.wc) 0)
def Engine.aSlot (e : Engine) : Nat := if e.afmt = 0 then 192 else if e.afmt = 1 then 128 else 192
/-- Active rows (R140). -/
def MatOp.active (o : MatOp) (e : Engine) : Nat := if e.afmt = 1 then 2 * o.rows else o.rows
/-- Bytes of the channel-scale area (R140). -/
def MatOp.csBytes (o : MatOp) (e : Engine) : Nat := if e.cs then slotOf (4 * o.ch) else 0

/-! ### Blocks (R174, R186, R187) -/

/-- A region of encoded blocks: first slot, slots, slot size. -/
structure Region where
  x : Nat
  b : Nat
  z : Nat
  deriving DecidableEq, Repr

/-- Block `i` of a region, its extension joined on (R174). -/
def State.block (s : State) (bead : BeadId) (r : Region) (i : Nat) : List Byte :=
  let slot := s.tileRead bead (r.x + i * r.z) r.z
  let h := field slot 0 8
  let len := bits h 32 16
  let k := bits h 48 10
  if len ≤ r.z then slot.take len
  else if k = 0 then slot
  else slot ++ s.tileRead bead (r.x + r.b * r.z + (k - 1) * 64) (min (len - r.z) 64)

/-- The ranges a region's reads touch, extensions included. -/
def State.regionRange (s : State) (bead : BeadId) (r : Region) : Nat × Nat :=
  let ext := (List.range r.b).foldl (fun m i => max m (bits (field (s.tileRead bead (r.x + i * r.z) 8) 0 8) 48 10)) 0
  (r.x, r.b * r.z + ext * 64)

/-- A block that failed: its address, the size of its slot (0 for a record), the tiles that hold it, kind of port, whether it was read from
tile memory, what failed, and its bytes. -/
structure BadBlock where
  addr   : Nat
  slot   : Nat
  tiles  : List Nat
  weight : Bool
  inTile : Bool
  what   : Bad
  bytes  : List Byte
  deriving DecidableEq, Repr

/-- The tiles that hold a block: its slot's, and that of its extension. -/
def State.blockTiles (s : State) (b : BeadId) (r : Region) (i : Nat) : List Nat :=
  let a := r.x + i * r.z
  let k := bits (field (s.tileRead b a 8) 0 8) 48 10
  let ext := if k = 0 then [] else [(r.x + r.b * r.z + (k - 1) * 64) / 4096]
  ([a / 4096, (a + r.z - 1) / 4096] ++ ext).eraseDups

/-- Every block of a region decoded, or the first that fails. -/
def State.expandAll (s : State) (c : Context) (acc : Accept) (weight : Bool) (r : Region) : Except BadBlock (List RawBlock) :=
  (List.range r.b).mapM fun i =>
    let bs := s.block c.id.bead r i
    match expand ((s.bead c.id.bead).lookup c.id.ctx.val) acc bs with
    | .ok b => .ok b
    | .error e => .error ⟨r.x + i * r.z, r.z, s.blockTiles c.id.bead r i, weight, true, e, bs⟩

/-- The MPA a FILL of the context's program brings a tile from, with the tile's kind (R224, R225). -/
def State.fillSource (s : State) (c : Context) (tile : Nat) : Option (Nat × Nat) :=
  c.acts.findSome? fun a =>
    let v := a.op.toNat
    let first := bits v 28 9
    if a.unit = 4 && bits v 0 3 = 0 && first ≤ tile && tile < first + bits v 18 10 then
      let d := s.tileRead c.id.bead (bits v 3 15 * 64) 16
      some (bits (field d 0 8) 0 49 + (tile - first) * 4096, bits (field d 8 1) 0 3)
    else none

/-- The bead-local tile an installed configuration placed there at its load (R347). -/
def State.initialTile (s : State) (c : Context) (tile : Nat) : Option (List Byte) :=
  match s.cfg c.config with
  | some f => match f.gens.slot c.gen with
    | some g => (g.val.tiles.find? (fun t => t.1 == c.id.bead && t.2.1 == tile)).map (·.2.2)
    | none => none
  | none => none

/-! ### Setup and operand (R152, R180) -/

/-- The watch setup of a context (R152). -/
structure Watch where
  sup       : Option Nat
  satMax    : Nat
  zeroMax   : Nat
  replayMax : Nat
  escMax    : Nat
  deriving DecidableEq, Repr

def watchOf (v : Nat) : Watch :=
  { sup := if bit v 0 then some (bits v 1 8) else none, satMax := bits v 9 5, zeroMax := bits v 14 5, replayMax := bits v 19 10,
    escMax := bits v 29 10 }

/-- The operand of an ENCODE action (R180). -/
structure EncOp where
  op     : Nat
  edges  : Bool
  bf16   : Bool
  i4     : Bool
  dictEn : Bool
  dictId : Nat
  src    : Nat
  dst    : Nat
  count  : Nat
  deriving DecidableEq, Repr

def encOp (v : Nat) : EncOp :=
  { op := bits v 0 2, edges := bit v 2, bf16 := bit v 3, i4 := bit v 4, dictEn := bit v 5, dictId := bits v 6 3,
    src := bits v 10 15 * 64, dst := bits v 25 15 * 64, count := if bits v 40 8 = 0 then 256 else bits v 40 8 }

def EncOp.qmax (o : EncOp) : Nat := if o.i4 then 7 else 127
def EncOp.width (o : EncOp) : Nat := if o.i4 then 4 else 8
/-- Bytes of a slot of its output region (R173). -/
def EncOp.slot (o : EncOp) : Nat := if o.i4 then 128 else 192

/-- The encoder takes its sources from the engine's drain: the setup drains to the encoder and the buffer holds them (R139). -/
def State.fromDrain (s : State) (c : Context) (o : EncOp) : Bool :=
  (engineOf c.engine.toNat).outFmt = 2 && o.count * 128 ≤ (s.bead c.id.bead).encIn.length

/-- The source values of an ENCODE action as FP32, 128 a block (R180). -/
def State.encSources (s : State) (c : Context) (o : EncOp) : List (List Nat) :=
  let n := o.count * 128
  let vs := if s.fromDrain c o then (s.bead c.id.bead).encIn.take n
    else if o.bf16 then (pieces 2 n (s.tileRead c.id.bead o.src (2 * n))).map fun b => bf16wide (leNat b)
    else (pieces 4 n (s.tileRead c.id.bead o.src (4 * n))).map leNat
  pieces 128 o.count vs

/-! ### Verdict, replay and escalation (R155, R157, R160, R164, R165) -/

/-- A count of the numeric summary of a die: 0 REPLAYS to 5 NONFINITE (R165). -/
def State.countNum (s : State) (d i n : Nat) : State :=
  let row := nth [] s.arr.num.die d
  let row := setNth row i (min (nth 0 row i + n) 0xFFFF)
  { s with arr := { s.arr with num := { s.arr.num with die := setNth s.arr.num.die d row } } }

/-- A watch event: its counter (R164), its place in the summary and its numeric status flag. -/
def State.watchEvent (s : State) (c : Context) (i : Nat) : State :=
  let d := c.id.bead.die.val
  let s := (s.bump (rFrame d (0x40 + 8 * i))).countNum d i 1
  if i < 4 then s.noteNumeric c i else s

/-- The context as it stands now. -/
def State.fresh_ (s : State) (c : Context) : Context := (s.ctx c.id).getD c

/-- An escalation or its refusal, after the second trip (R155). -/
def State.secondTrip (s : State) (c : Context) (o : EncOp) (w : Watch) (cur : List ScaleEnc) (xs : List Nat) :
    State × Nat × List ScaleEnc :=
  let c := s.fresh_ c
  if !o.i4 then (s.watchEvent c 4, 8, cur)
  else if c.escs < w.escMax then
    let s := s.setCtx { c with escs := c.escs + 1 }
    (s.watchEvent c 1, 8, encodeBlock 127 c.thresh.toNat none xs)
  else (s.watchEvent c 3, 4, cur)

/-- One block's verdict (R155): the state, the width it leaves at, and its encoding. -/
def State.verdict (s : State) (c : Context) (o : EncOp) (xs : List Nat) : State × Nat × List ScaleEnc :=
  let w := watchOf c.watch.toNat
  let first := encodeBlock o.qmax c.thresh.toNat w.sup xs
  if !(blockTrips w.satMax w.zeroMax first) then (s, o.width, first)
  else if w.sup.isSome then
    let c := s.fresh_ c
    if c.replays < w.replayMax then
      let s := (s.setCtx { c with replays := c.replays + 1 }).watchEvent c 0
      let again := encodeBlock o.qmax c.thresh.toNat none xs
      if !(blockTrips w.satMax w.zeroMax again) then (s, o.width, again) else s.secondTrip c o w again xs
    else (s.watchEvent c 2, o.width, first)
  else s.secondTrip c o w first xs

/-- Non-finite sources of a block: counted, flagged, and the owning request marked (R160, R163). -/
def State.nonFinite (s : State) (c : Context) (n : Nat) (owner : Word32) : State :=
  if n = 0 then s
  else
    let d := c.id.bead.die.val
    let s := (s.bumpBy (rFrame d 0x68) n).countNum d 5 n
    (s.noteNumeric c 4).faultReq c owner stNUMERICS_FAULT

/-- The dictionary an EMIT may use (R177). -/
def Context.dictUse (c : Context) (o : EncOp) : Option DictUse :=
  if !o.dictEn then none
  else match nth none c.built o.dictId with
    | some es => if es.isEmpty then none else some ⟨o.dictId, nth 0 c.dictGen o.dictId, es⟩
    | none => none

/-- One block encoded and judged, as bytes with EXT 0 (R155, R158, R177). -/
def State.emitBlock (s : State) (c : Context) (o : EncOp) (xs : List Nat) (owner : Word32) : State × List Byte :=
  let (s, width, enc) := s.verdict c o xs
  let s := s.nonFinite c (enc.foldl (fun n b => n + b.nonfin) 0) owner
  (s, blockBytes width enc (if width = 8 then c.dictUse o else none))

/-- All blocks in order (R158). -/
def State.emitBlocks (s : State) (c : Context) (o : EncOp) : List (List Nat) → List Word32 → State × List (List Byte)
  | [], _ => (s, [])
  | xs :: rest, owners =>
    let (s, b) := s.emitBlock c o xs (owners.headD 0)
    let (s, bs) := s.emitBlocks c o rest (owners.drop 1)
    (s, b :: bs)

/-- A block written into slot `i` of a region, its overflow into extension `k` (R173 to R175). -/
def State.writeBlock (s : State) (b : BeadId) (r : Region) (i k : Nat) (bs : List Byte) : State :=
  if bs.length ≤ r.z then s.tileWrite b (r.x + i * r.z) bs
  else
    let h := putBits (field bs 0 8) 48 10 k
    let bs := leBytes 8 h ++ bs.drop 8
    (s.tileWrite b (r.x + i * r.z) (bs.take r.z)).tileWrite b (r.x + r.b * r.z + (k - 1) * 64) (bs.drop r.z)

/-- Blocks written into consecutive slots from slot `i`; `k` is the next free extension (R174). -/
def State.writeBlocks (s : State) (b : BeadId) (r : Region) : Nat → Nat → List (List Byte) → State
  | _, _, [] => s
  | i, k, bs :: rest =>
    (s.writeBlock b r i k bs).writeBlocks b r (i + 1) (if bs.length ≤ r.z then k else k + 1) rest

/-- A byte string as 64-byte entries. -/
def entries (bs : List Byte) : List Word512 :=
  (pieces 64 (cdiv bs.length 64) bs).map fun p => BitVec.ofNat 512 (leNat p)

/-- The drained rows that an ENCODE action has taken leave the encoder. -/
def State.takeDrain (s : State) (c : Context) (o : EncOp) : State :=
  if s.fromDrain c o then
    let x := s.bead c.id.bead
    s.setBead { x with encIn := x.encIn.drop (o.count * 128) }
  else s

/-- What an ENCODE action reads of tile memory: nothing where its sources come from the engine's drain (R87, R139). -/
def State.encReads (s : State) (c : Context) (o : EncOp) : List (Nat × Nat) :=
  if s.fromDrain c o then [] else [(o.src, o.count * (if o.bf16 then 256 else 512))]

/-- Extended blocks in the slots of a region before slot `i`. -/
def State.extBefore (s : State) (b : BeadId) (r : Region) (i : Nat) : Nat :=
  ((List.range i).filter fun j => bits (field (s.tileRead b (r.x + j * r.z) 8) 0 8) 32 16 > r.z).length

/-! ### Recovery of a tile and of a block (R143, R157, R184, R187, R218, R220) -/

/-- A tile is fetched again from its source tier: by its FILL, which takes the recovery of its source as it stands, or from the
configuration's own tile. -/
def State.refetchTile (s : State) (c : Context) (tile : Nat) : State :=
  match s.fillSource c tile with
  | some (mpa, kind) =>
    let x := s.bead c.id.bead
    if x.fills.any (fun f => f.tile == tile) then s
    else
      let f : FillTile := ⟨c.id.ctx.val, tile, mpa, kind, s.attempts mpa (stepKey c.step), none, none⟩
      (s.setBead { x with fills := x.fills ++ [f] }).issueReads c.id.bead.die.val
  | none =>
    match s.initialTile c tile with
    | some bs => s.storeAt (mpaTile c.id.bead (tile * 4096)) bs
    | none => s

/-- A word that the code cannot correct, found by an action in its own tile memory at bead-local byte `off`: a mismatch of the tile (R218),
counted, its bead suspected, and the recovery of the tile's kind (R220): a tile that a FILL brought is fetched again from its source, or
from there restored; the configuration's own tile is fetched again; any other holds STATE, and the stage that produced it is replayed,
which brings the same bytes. The action does not run. -/
def State.wordFault (s : State) (c : Context) (off : Nat) : State :=
  let b := c.id.bead
  let tile := off % 0x200000 / 4096
  let key := stepKey c.step
  let s := s.mismatch b.die.val (mpaTile b (tile * 4096))
  let lost := fun s : State => s.failConfig c.config stTILE_CHECK_FAULT
  match s.fillSource c tile with
  | some (mpa, kind) =>
    let phase := s.attempts mpa key
    if phase = 0 then (s.setAttempts mpa key 1).refetchTile c tile
    else if phase = 1 && kind ≤ 2 && (s.vaultCopy mpa).isSome then (s.setAttempts mpa key 2).refetchTile c tile
    else if kind = 3 then s.kvLost mpa
    else lost s
  | none =>
    let own := mpaTile b (tile * 4096)
    if s.attempts own key ≠ 0 then lost s
    else if (s.initialTile c tile).isSome then (s.setAttempts own key 1).refetchTile c tile
    else (s.setAttempts own key 1).noteReplay c

/-- What an action's reads of tile memory add to the conditions of its issue: the words it reads meet their code (R215, R218, R240). -/
def wordPre (word : Check) (pre : State → Context → Act → Option (List (Nat × Nat)) × State) (s : State) (c : Context) (a : Act) :
    Option (List (Nat × Nat)) × State :=
  match pre s c a with
  | (none, s) => (none, s)
  | (some takes, s) =>
    match word with
    | .ok => (some takes, s)
    | .corrected k n => (some takes, s.correctedWords (mpaTile c.id.bead (k % 0x200000)) n)
    | .failed k _ => (none, s.wordFault c k)

/-- The EMIT of the program that writes the block at an address, and the block's number in it (R180). -/
def Context.producing (c : Context) (addr : Nat) : Option (EncOp × Nat) :=
  c.acts.findSome? fun a =>
    let o := encOp a.op.toNat
    if a.unit = 5 && o.op = 0 && !o.edges && o.dst ≤ addr && addr < o.dst + o.count * o.slot && (addr - o.dst) % o.slot = 0 then
      some (o, (addr - o.dst) / o.slot)
    else none

/-- The stage that produced an activation block is replayed (R143, R187): the encoder encodes the block afresh from its sources, against
the current dictionary (R184) and on the same counts of replays and escalations (R157), and writes it in its place. Where the block was
not written by this program from tile memory, the spec does not say where the sources stand: what comes is a free value
(notes/assumptions/109.md). -/
def State.replayStage (s : State) (c : Context) (addr z : Nat) : State :=
  match c.producing addr with
  | some (o, i) =>
    if (engineOf c.engine.toNat).outFmt = 2 then
      let (bs, s) := s.freshBytes z
      s.tileWrite c.id.bead addr bs
    else
      let (s, width, enc) := s.verdict c o (nth [] (s.encSources c o) i)
      let bs := blockBytes width enc (if width = 8 then (s.fresh_ c).dictUse o else none)
      let r : Region := ⟨o.dst, o.count, o.slot⟩
      let k := bits (field (s.tileRead c.id.bead addr 8) 0 8) 48 10
      s.writeBlock c.id.bead r i (if k = 0 then s.extBefore c.id.bead r o.count + 1 else k) bs
  | none =>
    let (bs, s) := s.freshBytes z
    s.tileWrite c.id.bead addr bs

/-- A failed block counted, its recovery begun, or on its second failure in the step the FORMAT_FAULT (R143, R184, R187, R189). Answers
whether it was the second. -/
def State.badBlock (s : State) (c : Context) (b : BadBlock) : Bool × State :=
  let d := c.id.bead.die.val
  let s := s.bumpIf (overruns b.bytes) (rFrame d 0x70)
  let s := match b.what with
    | .check =>
      let s := s.bump (rFrame d 0x78)
      if b.inTile then s.detectBead 0x01 c.id.bead true false else s
    | .format => s.bump (rFrame d 0x80)
    | .miss => (s.bump (rFrame d 0x88)).bump (rFrame d 0x80)
  let s := s.noteReplay c
  let key := (c.id.ctx.val, b.addr)
  if (s.bead c.id.bead).formatFails.contains key then
    let h := field b.bytes 0 8
    let why := match b.what with | .check => 1 | .format => 2 | .miss => 3
    let s := s.failConfig c.config stFORMAT_FAULT
    let s := s.stepFault c stFORMAT_FAULT (bits h 0 2 + bits h 2 2 * 4 + why * 16)
    (true, s.detectBead 0x06 c.id.bead false true)
  else
    let s := if b.weight then b.tiles.foldl (fun s t => s.refetchTile c t) s
      else if b.slot = 0 then s else s.replayStage c b.addr b.slot
    let x := s.bead c.id.bead
    (false, s.setBead { x with formatFails := x.formatFails ++ [key] })

end Sys2Proof.Machine
end

