-- ==== Sys2Proof/Machine/Matrix.lean ====
section
/-! DEFINITION. The matrix engine: promotion and accumulation, the drain, and the action (04 R121 to R143, 06 R186 to R189). -/
namespace Sys2Proof.Machine

/-! ### Accumulation (R132, R136) -/

/-- The run sum of a scale block (R132). -/
def runSum (w a : RawBlock) (s : Nat) : Int :=
  (List.range 32).foldl (fun z i => z + a.code s i * w.code s i) 0

/-- Term of a scale block (R136). -/
def scaleTerm (w a : RawBlock) (s : Nat) : Nat :=
  let ew := nth 0 w.scales s
  let ea := nth 0 a.scales s
  if ew = 0 || ea = 0 then 0
  else
    let z := runSum w a s
    fp32.round (z < 0) z.natAbs ((ew : Int) - 127 + ((ea : Int) - 127)) false

/-- The real value of an element: its outlier's, or code × scale (R121, R136). -/
def RawBlock.real (b : RawBlock) (s i : Nat) : FV :=
  match b.outs.find? (fun o => o.1 == s && o.2.1 == i) with
  | some o => fp32.decode (bf16wide o.2.2)
  | none =>
    let e := nth 0 b.scales s
    let z := b.code s i
    if e = 0 then .fin false 0 0 else .fin (z < 0) z.natAbs ((e : Int) - 127)

/-- One reduction block added to an accumulator, in R136's order. -/
def accumulate (w a : RawBlock) (acc : Nat) : Nat :=
  let acc := (List.range 4).foldl (fun z s => f32add z (scaleTerm w a s)) acc
  let acc := w.outs.foldl (fun z o =>
    f32add z (fp32.encode ((fp32.decode (bf16wide o.2.2)).mul (a.real o.1 o.2.1)))) acc
  a.outs.foldl (fun z o =>
    if w.isOut o.1 o.2.1 then z
    else f32add z (fp32.encode ((fp32.decode (bf16wide o.2.2)).mul (w.real o.1 o.2.1)))) acc

/-- The new value of an accumulator over all reduction blocks; blocks lie as (j, n) and (j, m). -/
def accumulateAll (ws as_ : List RawBlock) (kblk ch rows n m : Nat) (acc : Nat) : Nat :=
  let zero : RawBlock := ⟨8, [], [], []⟩
  (List.range kblk).foldl (fun z j => accumulate (nth zero ws (j * ch + n)) (nth zero as_ (j * rows + m)) z) acc

/-! ### The action (R138, R140, R142) -/

/-- Place of an accumulator in the file (R140). -/
def accKey (afmt m n : Nat) : Nat := if afmt = 1 then m * 32 + n else m * 64 + n

/-- What a MATRIX action reads. -/
def State.matRanges (s : State) (c : Context) (a : Act) : List (Nat × Nat) :=
  let o := matOp a.op.toNat
  let e := engineOf c.engine.toNat
  let cs := o.csBytes e
  [(o.wOff, cs), s.regionRange c.id.bead ⟨o.wOff + cs, o.kblk * o.ch, e.wSlot⟩,
   s.regionRange c.id.bead ⟨o.aOff, o.kblk * o.active e, e.aSlot⟩]

/-- The blocks of a MATRIX action. -/
def State.matBlocks (s : State) (c : Context) (o : MatOp) (e : Engine) : Except BadBlock (List RawBlock × List RawBlock) := do
  let ws ← s.expandAll c (.weight e.wc e.tern e.wOver) true ⟨o.wOff + o.csBytes e, o.kblk * o.ch, e.wSlot⟩
  let as_ ← s.expandAll c (.act e.afmt e.aOver) false ⟨o.aOff, o.kblk * o.active e, e.aSlot⟩
  return (ws, as_)

/-- The outputs of a drain in row order, before OUT_FMT (R138). -/
def State.drained (s : State) (c : Context) (o : MatOp) (e : Engine) : List Nat :=
  let x := s.bead c.id.bead
  let scale := (List.range o.ch).map fun n => field (s.tileRead c.id.bead (o.wOff + 4 * n) 4) 0 4
  (List.range (o.active e)).flatMap fun m => (List.range o.ch).map fun n =>
    let v := ((findKey x.acc (accKey e.afmt m n)).getD 0).toNat
    if e.cs then f32mul v (nth 0 scale n) else v

/-- A drain (R138, R140): to tile memory, or to the encoder. -/
def State.drain (s : State) (c : Context) (o : MatOp) (e : Engine) : State :=
  let vs := s.drained c o e
  if e.outFmt = 2 then
    let x := s.bead c.id.bead
    s.setBead { x with encIn := x.encIn ++ vs }
  else if e.outFmt = 1 then s.tileWrite c.id.bead o.out (vs.flatMap fun v => leBytes 2 (bf16round v))
  else s.tileWrite c.id.bead o.out (vs.flatMap (leBytes 4))

/-- The accumulators of the action's rows and channels rewritten (R136). -/
def State.accumulateMat (s : State) (c : Context) (o : MatOp) (e : Engine) (ws as_ : List RawBlock) : State :=
  let x := s.bead c.id.bead
  let rows := o.active e
  let keys := (List.range rows).flatMap fun m => (List.range o.ch).map fun n => (m, n)
  let new := keys.map fun k =>
    let key := accKey e.afmt k.1 k.2
    let old := if o.clear then 0 else ((findKey x.acc key).getD 0).toNat
    (key, (BitVec.ofNat 32 (accumulateAll ws as_ o.kblk o.ch rows k.2 k.1 old) : Word32))
  let kept := x.acc.filter fun p => !(new.any (fun q => q.1 == p.1))
  s.setBead { x with acc := kept ++ new, accTag := some (c.id.ctx.val, c.config, c.gen) }

/-- The engine runs: ACC_LOST, a FORMAT_FAULT that leaves nothing, or the sums and the drain (R136, R138, R142, R143). -/
def State.matRun (s : State) (c : Context) (a : Act) : State :=
  let o := matOp a.op.toNat
  let e := engineOf c.engine.toNat
  if !o.clear && (s.bead c.id.bead).accTag ≠ some (c.id.ctx.val, c.config, c.gen) then
    let s : State := { s with arr := { s.arr with accLost := s.arr.accLost + 1 } }
    ((s.failConfig c.config stACC_LOST).stepFault c stACC_LOST 0).detectBead 0x05 c.id.bead false true
  else
    match s.matBlocks c o e with
    | .error _ => s
    | .ok (ws, as_) =>
      let s := s.accumulateMat c o e ws as_
      if o.drain then s.drain c o e else s

/-- A failed block holds the action at the port until a good copy stands there or the step fails (R143, R187). -/
def State.matPre (s : State) (c : Context) (a : Act) : Option (List (Nat × Nat)) × State :=
  let o := matOp a.op.toNat
  let e := engineOf c.engine.toNat
  let lost := !o.clear && (s.bead c.id.bead).accTag ≠ some (c.id.ctx.val, c.config, c.gen)
  if s.awaits c (s.matRanges c a) then (none, s)
  else if lost then (some a.takes, s)
  else
    match s.matBlocks c o e with
    | .ok _ => (some a.takes, s)
    | .error b =>
      let (second, s) := s.badBlock c b
      (if second then some a.takes else none, s)

def execMatrix (b : BeadId) (s : State) (word : Check := .ok) : Res :=
  .next (s.watched (·.action b (fun a => a.unit == 1) (wordPre word State.matPre) (fun s c a _ => (s.matRun c a, a.zeroOuts))))

end Sys2Proof.Machine
end

