-- ==== Sys2Proof/Machine/Tiles.lean ====
section
/-! DEFINITION. FILL, WRITEBACK and GATHER, the HBM4 pool, and the prefetch lists (08 R217 to R239; R25, R26, R35, R36, R313). -/
namespace Sys2Proof.Machine

/-! ### FILL and WRITEBACK (R223 to R225) -/

/-- The operand of a MEMORY action (R223). -/
structure MemOp where
  desc  : Nat
  count : Nat
  first : Nat
  deriving DecidableEq, Repr

def memOp (v : Nat) : MemOp := ⟨bits v 3 15 * 64, bits v 18 10, bits v 28 9⟩

/-- MPA and KIND of a memory descriptor (R224). -/
def State.memDesc (s : State) (b : BeadId) (off : Nat) : Nat × Nat :=
  let d := s.tileRead b off 16
  (bits (field d 0 8) 0 49, bits (field d 8 1) 0 3)

/-- FILL's reads handed to the memory port, tile by tile; a range that is not populated as a whole is no access (R36, R225). Other bytes
come where a block failed (R143). -/
def State.startFill (s : State) (c : Context) (o : MemOp) : State :=
  let (mpa, kind) := s.memDesc c.id.bead o.desc
  if !(s.populated mpa (o.count * 4096)) then s.accessFault c.id mpa stADDRESS_ERROR
  else
    let new := (List.range o.count).map fun i => (⟨c.id.ctx.val, o.first + i, mpa + i * 4096, kind, 0, none, none⟩ : FillTile)
    let x := s.bead c.id.bead
    let fails := x.formatFails.filter fun f => !(o.first * 4096 < f.2 + 64 && f.2 < (o.first + o.count) * 4096)
    (s.setBead { x with fills := x.fills ++ new, formatFails := fails }).issueReads c.id.bead.die.val

def execFill (b : BeadId) (s : State) (word : Check := .ok) : Res :=
  .next (s.watched (·.action b (fun a => a.unit == 4 && a.op.toNat % 8 == 0)
    (wordPre word (readsOnly fun _ a => [((memOp a.op.toNat).desc, 64)])) (fun s c a _ => (s.startFill c (memOp a.op.toNat), []))))

/-- A tile leaves the FILL that brought it; the next read may go out. -/
def State.endFill (s : State) (b : BeadId) (f : FillTile) : State :=
  let x := s.bead b
  (s.setBead { x with fills := x.fills.erase f }).issueReads b.die.val

/-- The check that travels with a tile from its source (R218): the stored one; where the tier stores none, that of the bytes. -/
def State.sourceCheck (s : State) (f : FillTile) (bs : List Byte) : Word32 :=
  if f.data.isNone && keepsChecks f.mpa && s.checkSpan f.mpa = 4096 then s.checkOf f.mpa else BitVec.ofNat 32 (crc32c bs)

/-- A verified tile lands (R218, R222, R225). -/
def State.land (s : State) (b : BeadId) (f : FillTile) : State :=
  let bs := f.data.getD (s.load f.mpa 4096)
  let check := s.sourceCheck f bs
  let x := s.bead b
  let s := s.bumpIf (x.entry f.tile).dirty (rFrame b.die.val 0xD0)
  let s := ((s.storeAt (mpaTile b (f.tile * 4096)) bs).touch f.mpa 4096).endFill b f
  let x := s.bead b
  s.setBead { x with dir := putKey x.dir f.tile ⟨false, true, check⟩ }

/-- The tile does not land. -/
def State.fillFails (s : State) (b : BeadId) (f : FillTile) (status : Nat) : State :=
  (s.endFill b f).accessFault ⟨b, Fin.ofNat 4 f.ctx⟩ f.mpa status

/-- A tile that has arrived is verified (R218): it lands, waits for its recovery, or is given up (R220, R221). -/
def State.verifyFill (s : State) (b : BeadId) (f : FillTile) (check : Check) : State :=
  let c := s.ctx ⟨b, Fin.ofNat 4 f.ctx⟩
  let key := stepKey (c.bind (·.step))
  match s.readTile b.die.val f.mpa f.kind key f.tries check with
  | (.good, _, s) => s.land b f
  | (.again, seen, s) =>
    let x := s.bead b
    let s := s.setBead { x with fills := x.fills.map fun g => if g == f then { f with tries := seen, data := none } else g }
    match c with
    | some c => if f.kind = 5 then s.noteReplay c else s
    | none => s
  | (.lost, _, s) =>
    if mpaUnit f.mpa = 5 then s.fillFails b f stSHARD_FAULT
    else if f.kind = 3 then (s.kvLost f.mpa).endFill b f
    else s.fillFails b f stTILE_CHECK_FAULT

/-- A moved tile arrives at a bead (R218). It waits while the route is shut (R24, R25), its source is FILLING or PENDING, or the vault is
not open. -/
def State.landTile (s : State) (b : BeadId) (tile : Nat) (check : Check) : State :=
  let s := s.issueReads b.die.val
  match (s.bead b).fills.find? (fun f => f.tile == tile && f.via.isSome) with
  | none => s
  | some f =>
    let status := s.beadStatus false f.mpa 4096
    if !(s.carries (f.via.getD [])) || (f.data.isNone && s.isFilling f.mpa) || s.isPending f.mpa ||
      (mpaUnit f.mpa = 5 && !s.vault.mapReady) then s
    else if status ≠ stOK then s.fillFails b f status
    else if mpaUnit f.mpa = 5 && !(s.shardServed (mpaOff f.mpa)) then s.fillFails b f stSHARD_FAULT
    else s.verifyFill b f check

def execTileLanding (b : BeadId) (tile : Fin 512) (check : Check) (s : State) : Res :=
  .next (s.watched (·.landTile b tile.val check))

/-- One dirty tile sent, with a fresh check at both ends (R217, R222). -/
def State.sendTile (s : State) (b : BeadId) (tile mpa : Nat) : State :=
  if !((s.bead b).entry tile).dirty then s
  else
    let bs := s.tileRead b (tile * 4096) 4096
    let s := s.writeMpa mpa bs
    let s := match placeOf true mpa with
      | .cs off => s.setMem { s.mem with landed := putKey s.mem.landed (off / 4096) s.time.beat }
      | _ => s
    let x := s.bead b
    s.setBead { x with dir := putKey x.dir tile ⟨false, true, BitVec.ofNat 32 (crc32c bs)⟩ }

/-- WRITEBACK of the range (R34, R225): its dirty tiles are sent; where nothing is dirty there is no access. -/
def State.sendTiles (s : State) (c : Context) (o : MemOp) : State :=
  let b := c.id.bead
  let mpa := (s.memDesc b o.desc).1
  let status := s.beadStatus true mpa (o.count * 4096)
  if (List.range o.count).all (fun i => !((s.bead b).entry (o.first + i)).dirty) then s
  else if status ≠ stOK then s.accessFault c.id mpa status
  else (List.range o.count).foldl (fun s i => s.sendTile b (o.first + i) (mpa + i * 4096)) s

/-- A WRITEBACK waits for earlier writes to its tiles (R87), for the bead's own reads of the addresses it writes (R26), and while it may
not go out by the route in force (R24, R25). -/
def State.writebackPre (s : State) (c : Context) (a : Act) : Option (List (Nat × Nat)) × State :=
  let o := memOp a.op.toNat
  let b := c.id.bead
  let d := b.die.val
  let mpa := (s.memDesc b o.desc).1
  let open_ := match s.mayIssue d (mpaUnit mpa) with | some via => s.carries via | none => false
  if s.awaits c [(o.desc, 64)] then (none, s)
  else if s.awaits c [(o.first * 4096, o.count * 4096)] || !open_ ||
      (s.bead b).fills.any (fun f => overlaps f.mpa 4096 mpa (o.count * 4096)) then (none, s)
  else (some a.takes, s)

def execWriteback (b : BeadId) (s : State) (word : Check := .ok) : Res :=
  .next (s.watched (·.action b (fun a => a.unit == 4 && a.op.toNat % 8 == 1) (wordPre word State.writebackPre)
    (fun s c a _ => (s.sendTiles c (memOp a.op.toNat), []))))

/-! ### The gather engine (R237 to R239) -/

/-- A gather command's fields (R237). -/
structure GatherCmd where
  pool   : Nat
  fmt    : Nat
  stride : Nat
  rowBytes : Nat
  outFmt : Nat
  stack  : Nat
  table  : Nat
  rows   : Nat
  nidx   : Nat
  idx    : Nat
  bag    : Option Nat
  nbag   : Nat
  wgt    : Option Nat
  out    : Nat
  deriving DecidableEq, Repr

def gatherCmd (bs : List Byte) : GatherCmd :=
  let opt := fun off : Nat => if field bs off 4 = 0xFFFFFFFF then none else some (field bs off 4 * 64)
  { pool := field bs 1 1, fmt := field bs 2 1, stride := 2 ^ (field bs 3 1 % 16), rowBytes := field bs 4 2, outFmt := field bs 6 1,
    stack := field bs 7 1, table := field bs 8 8, rows := field bs 16 4, nidx := field bs 20 4, idx := field bs 24 4 * 64,
    bag := opt 28, nbag := field bs 32 4, wgt := opt 36, out := field bs 40 4 * 64 }

/-- Elements of a row, and the bytes of one output place (R238). -/
def GatherCmd.elems (g : GatherCmd) : Nat := if g.fmt = 0 then g.rowBytes / 4 else g.rowBytes / 2
def GatherCmd.place (g : GatherCmd) : Nat :=
  if g.pool = 0 then cdiv g.rowBytes 64 * 64 else cdiv (g.elems * (if g.outFmt = 0 then 4 else 2)) 64 * 64
def GatherCmd.outBytes (g : GatherCmd) : Nat := g.place * (if g.pool = 0 then g.nidx else g.nbag)

/-- A 32-bit list in a stack's staging. -/
def State.stagingWords (s : State) (k off n : Nat) : List Nat :=
  (pieces 4 n (s.load (mpaStaging k off) (4 * n))).map leNat

/-- Starts of the bags; one index a bag where there is no list (R237). -/
def State.bagStarts (s : State) (g : GatherCmd) : List Nat :=
  match g.bag with
  | some off => s.stagingWords g.stack off (g.nbag + 1)
  | none => List.range (g.nbag + 1)

/-- The table lies in GATHER pages of the stack (R237). -/
def State.gatherPages (s : State) (g : GatherCmd) : Bool :=
  let last := g.table + g.rows * g.stride - 1
  last < 2 ^ 36 &&
    (s.mem.pages.filter fun p => p.stack == g.stack && p.cls == 2 && g.table / 0x10000 ≤ p.num && p.num ≤ last / 0x10000).length ==
      last / 0x10000 - g.table / 0x10000 + 1

/-- The command is accepted (R237); its bytes are as sent. -/
def State.gatherOk (s : State) (bs : List Byte) : Bool :=
  let g := gatherCmd bs
  let lim := 0x3000000
  let starts := s.bagStarts g
  crc16 (slice bs 0 56) = field bs 62 2 && field bs 0 1 = 1 && g.pool ≤ 2 && g.fmt ≤ 1 && 5 ≤ field bs 3 1 && field bs 3 1 ≤ 9 &&
    4 ≤ g.rowBytes && g.rowBytes ≤ 512 && g.rowBytes % 4 = 0 && g.rowBytes ≤ g.stride && (g.pool = 0 || g.outFmt ≤ 1) &&
    g.stack < 24 && g.table % 512 = 0 && g.table < 2 ^ 36 && 1 ≤ g.rows && 1 ≤ g.nidx && g.nidx ≤ 65536 && 1 ≤ g.nbag &&
    g.nbag ≤ 65536 && (g.bag.isSome || g.nbag = g.nidx) && field bs 48 8 = 0 && field bs 60 2 = 0 && s.gatherPages g &&
    g.idx + 4 * g.nidx ≤ lim && (match g.bag with | some o => o + 4 * (g.nbag + 1) ≤ lim | none => true) &&
    (match g.wgt with | some o => o + 4 * g.nidx ≤ lim | none => true) && g.out + g.outBytes ≤ lim &&
    (starts.zip (starts.drop 1)).all (fun p => p.1 ≤ p.2) && starts.headD 1 = 0 && starts.getLastD 0 = g.nidx &&
    s.isHome (mpaHbm g.stack g.table) (g.rows * g.stride)

/-- The staging tiles a gather reads. -/
def GatherCmd.reads (g : GatherCmd) : List (Nat × Nat) :=
  [(g.idx, 4 * g.nidx)] ++ (match g.bag with | some o => [(o, 4 * (g.nbag + 1))] | none => []) ++
    (match g.wgt with | some o => [(o, 4 * g.nidx)] | none => [])

/-- A staging tile lies among those that a gather reads. -/
def GatherCmd.readsTile (g : GatherCmd) (tile : Nat) : Bool := g.reads.any fun r => overlaps r.1 r.2 (tile * 4096) 4096

/-- One of them is FILLING, and has been since before the command was issued (R227, R237). -/
def State.gatherWaits (s : State) (g : GatherCmd) (old : List (Nat × List Byte)) : Bool :=
  s.mem.filling.any fun f => f.1 == g.stack && g.readsTile f.2 && (findKey old f.2).isNone

/-- Memory as a gather reads it: tiles that a prefetch began to fill after the command was issued show what they held (R227). -/
def State.asIssued (s : State) (r : GatherRun) : State :=
  s.setMem { s.mem with
    cells := r.old.foldl (fun m t => Memory.write m (mpaStaging r.stack (t.1 * 4096)) t.2) s.mem.cells }

/-- A row widened to FP32 (R238). -/
def State.gatherRow (s : State) (g : GatherCmd) (x : Nat) : List Nat :=
  let bs := s.load (mpaHbm g.stack (g.table + x * g.stride)) g.rowBytes
  if g.fmt = 0 then (pieces 4 g.elems bs).map leNat else (pieces 2 g.elems bs).map fun p => bf16wide (leNat p)

/-- One bag's pooled output (R238). -/
def State.gatherBag (s : State) (g : GatherCmd) (xs : List (Nat × Nat)) : List Byte :=
  let live := xs.filter fun p => p.1 < g.rows
  let acc := live.foldl (fun acc p =>
    let v := (s.gatherRow g p.1).map fun e => match g.wgt with | some _ => f32mul p.2 e | none => e
    (acc.zip v).map fun q => f32add q.1 q.2) (List.replicate g.elems 0)
  let acc := if g.pool = 2 && 0 < live.length then acc.map fun e => f32div e (f32ofNat live.length) else acc
  fit g.place (acc.flatMap fun e => if g.outFmt = 0 then leBytes 4 e else leBytes 2 (bf16round e))

/-- The whole output of an accepted command, and its out-of-range count (R238). -/
def State.gatherOut (s : State) (g : GatherCmd) : List Byte × Nat :=
  let idx := s.stagingWords g.stack g.idx g.nidx
  let wgt := match g.wgt with | some o => s.stagingWords g.stack o g.nidx | none => idx.map fun _ => 0
  let pairs := idx.zip wgt
  let oor := (idx.filter fun x => x ≥ g.rows).length
  let starts := s.bagStarts g
  let out := if g.pool = 0 then
      idx.flatMap fun x => fit g.place (if x < g.rows then s.load (mpaHbm g.stack (g.table + x * g.stride)) g.rowBytes else [])
    else (starts.zip (starts.drop 1)).flatMap fun p => s.gatherBag g ((pairs.drop p.1).take (p.2 - p.1))
  (out, oor)

/-- RESULT written back, and the action complete (R237). -/
def State.gatherResult (s : State) (r : GatherRun) (status oor : Nat) : State :=
  let s := s.setMem { s.mem with gathers := s.mem.gathers.erase r }
  (s.tileWrite r.ctx.bead (r.addr + 56) (leBytes 4 (min oor 0xFFFF + status * 2 ^ 16))).issueReads r.ctx.bead.die.val

/-- A word of a stack by the place in it at which a gather's check names it: its HBM4, then its staging. -/
def stackWord (k at_ : Nat) : Nat := if at_ < 2 ^ 36 then mpaHbm k at_ else mpaStaging k (at_ - 2 ^ 36)

/-- The rows a gather reads, by index, in list order. -/
def State.gatherRows (s : State) (g : GatherCmd) : List Nat := (s.stagingWords g.stack g.idx g.nidx).filter (· < g.rows)

/-- A row, a list or the output of the gather lies in a fenced channel or bank (R451). -/
def State.gatherFenced (s : State) (g : GatherCmd) : Bool :=
  ((s.gatherRows g).any fun x => s.rangeFenced (mpaHbm g.stack (g.table + x * g.stride)) g.rowBytes) ||
    (g.reads ++ [(g.out, g.outBytes)]).any fun r => s.rangeFenced (mpaStaging g.stack r.1) r.2

/-- A gather that is given up (R239). -/
def State.gatherFails (s : State) (r : GatherRun) : State :=
  let s := s.gatherResult r 1 0
  match s.ctx r.ctx with | some c => s.failConfig c.config stTILE_CHECK_FAULT | none => s

/-- An accepted command's output stands in staging (R237, R238). -/
def State.gatherWrites (s : State) (r : GatherRun) : State :=
  let g := gatherCmd r.cmd
  let k := g.stack
  let (out, oor) := (s.asIssued r).gatherOut g
  let rows := (s.asIssued r).gatherRows g
  let s := (s.storeAt (mpaStaging k g.out) out).bumpBy (rFrame (k / 6) 0xE8) oor
  let s := s.setMem { s.mem with filling := s.mem.filling.filter fun f =>
    !(f.1 == k && overlaps g.out out.length (f.2 * 4096) 4096) }
  let s := rows.foldl (fun s x => s.touch (mpaHbm k (g.table + x * g.stride)) g.rowBytes) s
  s.gatherResult r 0 oor

/-- A tile that this gather waits to have restored from the vault (R220). -/
def GatherRun.restoring (r : GatherRun) : Option Nat := (r.seen.find? fun e => e.2 == 2 || e.2 == 3).map (·.1)

/-- A sector of the table, or a word of the lists, fails or is corrected; otherwise the tile that waits for it is restored, and at last
the output is written (R218, R220, R239). -/
def State.verifyGather (s : State) (r : GatherRun) (check : Check) : State :=
  let k := (gatherCmd r.cmd).stack
  let at_ := match check with | .failed x _ => x | .corrected x _ => x | .ok => 0
  let named := stackWord k (at_ / 4096 * 4096)
  let tile := match check with | .ok => r.restoring.getD named | _ => named
  let within := match check with | .failed x code => Check.failed (x % 4096) code | .corrected x n => .corrected (x % 4096) n | .ok => .ok
  let key := stepKey ((s.ctx r.ctx).bind (·.step))
  let set := fun (s : State) (x : GatherRun) =>
    s.setMem { s.mem with gathers := s.mem.gathers.map fun y => if y == r then x else y }
  match s.readTile (k / 6) tile (if at_ < 2 ^ 36 then 2 else 7) key ((findKey r.seen tile).getD 0) within with
  | (.good, _, s) => s.gatherWrites r
  | (.again, seen, s) => set s { r with seen := putKey r.seen tile seen }
  | (.lost, _, s) => s.gatherFails r

/-- A gather command ends at its base die (R238, R239). -/
def State.gatherDone (s : State) (k : Nat) (check : Check) : State :=
  match s.mem.gathers.find? (fun r => r.stack == k && r.via.isSome) with
  | none => s
  | some r =>
    let g := gatherCmd r.cmd
    if !(s.carries (r.via.getD [])) || s.gatherWaits g r.old then s
    else if !((s.asIssued r).gatherOk r.cmd) then
      (s.bumpIf (!(s.isHome (mpaHbm g.stack g.table) (g.rows * g.stride))) 0x30058).gatherResult r 2 0
    else if (s.asIssued r).gatherFenced g then s.gatherFails r
    else s.verifyGather r check

/-- A GATHER action sends its command (R237). -/
def State.startGather (s : State) (c : Context) (o : MemOp) : State :=
  let bs := s.tileRead c.id.bead o.desc 64
  let g := gatherCmd bs
  let via := s.mayIssue c.id.bead.die.val (g.stack / 6)
  let r : GatherRun := ⟨g.stack, c.id, o.desc, bs, via, [], []⟩
  if g.stack < 24 then
    let s := s.bumpIf (s.gatherWaits g []) (rFrame (g.stack / 6) 0xD8)
    s.setMem { s.mem with gathers := s.mem.gathers ++ [r] }
  else s.gatherResult r 2 0

def execGather (b : BeadId) (s : State) (word : Check := .ok) : Res :=
  .next (s.watched (·.action b (fun a => a.unit == 4 && a.op.toNat % 8 == 2)
    (wordPre word (readsOnly fun _ a => [((memOp a.op.toNat).desc, 64)])) (fun s c a _ => (s.startGather c (memOp a.op.toNat), []))))

/-! ### The pool (R231 to R236) -/

/-- Admitted sequences, running steps, residency or activation hold an instance's pages (R232). -/
def State.holdsPages (s : State) (i : Nat) : Bool :=
  let x := s.inst i
  x.state == .activating || !x.seqs.isEmpty || x.acct.pin || s.serve.steps.any (fun r => r.inst == i) ||
    s.serve.cfgs.any (fun c => c.inst == i && (c.resident || c.restoring))

/-- A page that eviction may take (R232, R234). -/
def State.evictable (s : State) (forInst : Nat) (p : Page) : Bool :=
  p.cls ≤ 2 && !(s.holdsPages p.owner) && (p.owner = forInst || (s.inst p.owner).acct.used > (s.inst p.owner).acct.quota)

/-- R234's order of candidates. -/
def Page.before (p q : Page) : Bool :=
  p.lastUse < q.lastUse || (p.lastUse == q.lastUse && (p.owner < q.owner || (p.owner == q.owner && p.num < q.num)))

/-- Evictions of the beat counted for R236. -/
def noteEvict (l : List (Nat × Nat × Nat)) (i stack : Nat) : List (Nat × Nat × Nat) :=
  if l.any (fun e => e.1 == i) then l.map fun e => if e.1 == i then (i, e.2.1 + 1, putBit e.2.2 stack true) else e
  else l ++ [(i, 1, 2 ^ stack)]

/-- A page evicted (R234, R342): its owner's account falls, its map entry is absent, and an ACTIVE owner becomes PARTIAL. -/
def State.evict (s : State) (p : Page) : State :=
  let x := s.inst p.owner
  let x := { x with
    acct := { x.acct with used := x.acct.used - 1 },
    pageMap := x.pageMap.map fun e => if e.stack == p.stack && e.present && e.phys == p.num then { e with present := false } else e,
    state := if x.state == .active then .part else x.state }
  (s.setInst p.owner x).setMem { s.mem with pages := s.mem.pages.filter (· != p), evicted := noteEvict s.mem.evicted p.owner p.stack }

/-- Pages evicted until `n` are taken; none where the candidates run out, with what was evicted (R234). -/
def State.evictFor (s : State) (i k : Nat) : Nat → List Nat → Option (List Nat) × State
  | 0, got => (some got, s)
  | n + 1, got =>
    let best := (s.mem.pages.filter fun p => p.stack == k && s.evictable i p).foldl (fun (m : Option Page) p =>
      match m with | some q => if p.before q then some p else some q | none => some p) none
    match best with
    | none => (none, s)
    | some p => (s.evict p).evictFor i k n (got ++ [p.num])

/-- Free pool pages of a stack, lowest first, at most `n` (R231, R234). -/
def State.freePages (s : State) (k n : Nat) : List Nat :=
  let used := (s.mem.pages.filter fun p => p.stack == k).map (·.num)
  ((List.range (used.length + n)).map (· + 256)).filter (fun p => !(used.contains p) && p < 1048576) |>.take n

/-- R234's allocation: page numbers on the stack, or the status. A failed one keeps the evictions it made. -/
def State.allocate (s : State) (i k n cls : Nat) : Except Nat (List Nat) × State :=
  let a := (s.inst i).acct
  if a.used + n > a.limit then (.error stPOOL_LIMIT, s)
  else
    let free := s.freePages k n
    match s.evictFor i k (n - free.length) free with
    | (none, s) => (.error stPOOL_EXHAUSTED, s)
    | (some ps, s) =>
      let s := ps.foldl (fun s p => s.zeroAt (mpaPage k p) 0x10000) s
      let x := s.inst i
      let s := s.setInst i { x with acct := { x.acct with used := x.acct.used + n } }
      (.ok ps, s.setMem { s.mem with pages := s.mem.pages ++ ps.map fun p => ⟨k, p, i, cls, s.time.beat⟩ })

/-- Pages released (R233, R236). -/
def State.freePoolPages (s : State) (i : Nat) (ps : List (Nat × Nat)) : State :=
  let gone := s.mem.pages.filter fun p => p.owner == i && ps.contains (p.stack, p.num)
  let x := s.inst i
  (s.setInst i { x with acct := { x.acct with used := x.acct.used - gone.length } }).setMem
    { s.mem with pages := s.mem.pages.filter fun p => !(gone.contains p) }

/-- Several allocations (stack, pages, class) in order; a failure releases the pages taken. The pages of each come back apart. -/
def State.allocateAll (s : State) (i : Nat) :
    List (Nat × Nat × Nat) → List (List (Nat × Nat)) → Except Nat (List (List (Nat × Nat))) × State
  | [], got => (.ok got, s)
  | (k, n, cls) :: rest, got =>
    if n = 0 then s.allocateAll i rest (got ++ [[]])
    else
      match s.allocate i k n cls with
      | (.error e, s) => (.error e, s.freePoolPages i got.flatten)
      | (.ok ps, s) => s.allocateAll i rest (got ++ [ps.map fun p => (k, p)])

/-- The POOL_EVICT records of the beat that ends (R236, R460). -/
def State.poolRecords (s : State) : State :=
  let s' := s.mem.evicted.foldl (fun s e => s.hand 12 (object 0x07 e.1) [] (leBytes 4 e.2.1 ++ leBytes 4 e.2.2)) s
  s'.setMem { s'.mem with evicted := [] }

/-! ### Prefetch lists (R227 to R229) -/

/-- Tiles of the list's running entry become FILLING; reads of them that were issued before complete with the old contents (R227). -/
def State.markFilling (s : State) (k : Nat) (left : List PfEntry) : State :=
  match left with
  | [] => s
  | e :: _ =>
    let more := ((List.range e.tiles).map (e.dst + ·)).filter fun t => !(s.mem.filling.contains (k, t))
    let old := fun t : Nat => s.load (mpaStaging k (t * 4096)) 4096
    let keep := fun f : FillTile =>
      match placeOf true f.mpa with
      | .staging j off => if j = k && more.contains (off / 4096) && f.via.isSome then { f with data := some (old (off / 4096)) } else f
      | _ => f
    let keepG := fun r : GatherRun =>
      if r.stack = k && r.via.isSome then
        { r with old := r.old ++ (more.filter (gatherCmd r.cmd).readsTile).map fun t => (t, old t) }
      else r
    { s with
      arr := { s.arr with beads := s.arr.beads.map fun b => { b with fills := b.fills.map keep } },
      mem := { s.mem with filling := s.mem.filling ++ more.map fun t => (k, t), gathers := s.mem.gathers.map keepG } }

/-- A PREFETCH starts its list of the schedule it stands in, or waits for the earlier start of it, which is counted with the waits on
staging (R229; notes/assumptions/110.md). -/
def State.startList (s : State) (g : Sched) (inst : Nat) (payload : Word64) : State :=
  let v := payload.toNat
  let k := bits v 16 5
  let index := bits v 0 16
  match g.lists.find? fun l => l.stack == k && l.index == index with
  | none => s
  | some l =>
    let due := s.time.beat + (bits v 42 16 + g.cycle - s.time.beat % g.cycle) % g.cycle
    let r : PfRun := ⟨inst, k, index, l.entries, due, bits v 21 21, false⟩
    if s.mem.lists.any (fun r => r.inst == inst && r.stack == k && r.index == index) then
      (s.setMem { s.mem with listWaits := s.mem.listWaits ++ [r] }).bump (rFrame (k / 6) 0xD8)
    else (s.setMem { s.mem with lists := s.mem.lists ++ [r] }).markFilling k l.entries

/-- A list that has come to its end leaves, and a start that waited for it begins. -/
def State.endList (s : State) (r : PfRun) : State :=
  let s := s.setMem { s.mem with lists := s.mem.lists.filter (· != r) }
  match s.mem.listWaits.find? (fun w => w.inst == r.inst && w.stack == r.stack && w.index == r.index) with
  | none => s
  | some w => (s.setMem { s.mem with listWaits := s.mem.listWaits.erase w, lists := s.mem.lists ++ [w] }).markFilling w.stack w.left

/-- The list goes on past its next tile. -/
def State.stepList (s : State) (r : PfRun) (e : PfEntry) (rest : List PfEntry) : State :=
  let left := if e.tiles ≤ 1 then rest else ⟨e.src + 1, e.dst + 1, e.tiles - 1⟩ :: rest
  let r' := { r with left := left }
  let s := s.setMem { s.mem with lists := s.mem.lists.map fun x => if x == r then r' else x }
  if left.isEmpty then s.endList r' else if e.tiles ≤ 1 then s.markFilling r.stack left else s

/-- A staging tile is LANDED (R227). -/
def State.landed (s : State) (k tile : Nat) : State := s.setMem { s.mem with filling := s.mem.filling.filter (· != (k, tile)) }

/-- The next tile of a list, `src`, read and judged: landed, or read again, restored, or given up (R218, R220, R227). Attempts of a list
belong to no step. A tile that is given up keeps what it held before (DESIGN CHOICE, notes/assumptions/110.md). -/
def State.listRead (s : State) (r : PfRun) (e : PfEntry) (rest : List PfEntry) (src tile : Nat) (check : Check) : State :=
  let k := r.stack
  let cls := s.pageClass src
  let ended := fun s : State => ((s.setAttempts src 0 0).landed k tile).stepList r e rest
  let lost := fun s : State =>
    ended (if cls = 3 then s.kvLost src else s.failSteps (fun x => x.inst == r.inst) stTILE_CHECK_FAULT)
  if s.bankFenced src || s.bankFenced (mpaStaging k (tile * 4096)) then lost s
  else
    match s.readTile (k / 6) src cls 0 (s.attempts src 0) check with
    | (.good, _, s) => ended (s.storeAt (mpaStaging k (tile * 4096)) (s.load src 4096))
    | (.again, _, s) =>
      let replayed := fun x : StepRun => if x.inst = r.inst then { x with replay := true } else x
      if cls = 5 then { s with serve := { s.serve with steps := s.serve.steps.map replayed } } else s
    | (.lost, _, s) => lost s

/-- A prefetched tile arrives: the next one of the list that fills it. -/
def State.landPrefetch (s : State) (k tile : Nat) (check : Check) : State :=
  match s.mem.lists.find? (fun r => r.stack == k && match r.left with | e :: _ => e.dst == tile | [] => false) with
  | none => s
  | some r =>
    match r.left with
    | [] => s
    | e :: rest => s.listRead r e rest (mpaHbm k (e.src * 4096)) tile check

/-- The fill-by point of a list, in its beat (R229): time goes on to it, and a list of which a tile has not landed is late. -/
def State.fillBy (s : State) (k index : Nat) : State :=
  match (s.mem.lists ++ s.mem.listWaits).find? (fun r => r.stack == k && r.index == index && r.fillBeat == s.time.beat && !r.late) with
  | none => s
  | some r =>
    if Nat.blt r.fillTick s.time.tick then s
    else
      let mark := fun x : PfRun => if x == r then { r with late := true } else x
      let s := s.toTick r.fillTick
      let s := s.setMem { s.mem with lists := s.mem.lists.map mark, listWaits := s.mem.listWaits.map mark }
      (s.bump (rFrame (k / 6) 0xE0)).instEvent 0x11 r.inst 0xFF 0 (locOf (k / 6) 0 0 k 15) (leBytes 2 index)

def execPrefetchFillBy (stack : Fin 24) (list : BitVec 16) (s : State) : Res := .next (s.fillBy stack.val list.toNat)

end Sys2Proof.Machine
end

