-- ==== Sys2Proof/Machine/Install.lean ====
section
/-! DEFINITION. Ihlyan images: checks, the reader and the members of an installation, shard repair, the catalogue and its
synchronization (09_vault_and_model_images, R241 to R268). The layouts of the messages' contents that the spec gives in words only are
in notes/assumptions/46.md. -/
namespace Sys2Proof.Machine

/-! ### Images (R250 to R253) -/

/-- A shard table entry (R251). -/
def shardRow (bs : List Byte) : Shard :=
  { index := field bs 0 4, row := field bs 4 1, col := field bs 5 1, kind := field bs 6 1, prot := bit (field bs 7 1) 0,
    offset := field bs 8 8, length := field bs 16 8, checkOff := field bs 24 8, digest := slice bs 32 32 }

/-- Bytes of a shard's check array. -/
def Shard.checkLen (h : Shard) : Nat := h.length / 4096 * 4

/-- The head of an image: header, table and signature, one after the other. -/
def imageHead (image : List Byte) : List Byte :=
  image.take (256 + 64 * field image 36 2) ++ slice image (field image 56 8) (field image 64 4)

/-- The shard table of a head. -/
def headShards (hd : List Byte) : List Shard := (pieces 64 (field hd 36 2) (hd.drop 256)).map shardRow

/-- The signed message M and its digest (R252). -/
def headMessage (hd : List Byte) : List Byte := hd.take (256 + 64 * field hd 36 2)
def headDigest (hd : List Byte) : List Byte := shake256 32 (headMessage hd)

/-- Two shards' data and check arrays do not overlap. -/
def shardsApart (a b : Shard) : Bool :=
  [(a.offset, a.length), (a.checkOff, a.checkLen)].all fun p => [(b.offset, b.length), (b.checkOff, b.checkLen)].all fun q =>
    !(overlaps p.1 p.2 q.1 q.2)

/-- A shard entry stands by itself. -/
def shardOk (rows cols payload : Nat) (i : Nat) (raw : List Byte) (kind : Nat) : Bool :=
  let h := shardRow raw
  h.index = i && (h.row < rows || h.row = 0xFF) && (h.col < cols || h.col = 0xFF) && h.kind ≤ 7 && field raw 7 1 ≤ 1 &&
    h.offset % 4096 = 0 && h.length ≠ 0 && h.length % 4096 = 0 && h.offset + h.length ≤ payload && h.checkOff + h.checkLen ≤ payload &&
    !(overlaps h.offset h.length h.checkOff h.checkLen) && (h.row = 0xFF || h.prot) && (kind ≠ 1 || h.kind = 6)

/-- The publisher key and signature of an image hold (R253, R469). -/
def State.signatureOk (s : State) (hd : List Byte) : Bool :=
  match findKey s.sec.keys (field hd 32 4) with
  | none => false
  | some k =>
    !k.revoked && k.sigSet = field hd 7 1 && field hd 64 4 = sigLength (field hd 7 1) && sigLength (field hd 7 1) ≠ 0 &&
      Config.xmssVerify k.key (headMessage hd) (slice hd (256 + 64 * field hd 36 2) (field hd 64 4))

/-- The header's own fields hold (R250, R253): the table stands at 256, and header, table, signature and payload in that order. -/
def headerOk (hd : List Byte) : Bool :=
  let f := field hd
  let n := f 36 2
  let rank := f 40 1
  f 0 4 = 0x594C4849 && f 4 2 = 1 && f 6 1 ≤ 1 && f 8 2 = 0x424 && (f 10 1 = 0xA1 || f 10 1 = 0xA2) && f 11 1 = 0 && f 12 4 ≠ 0 && 1 ≤ n &&
    1 ≤ f 38 1 && f 38 1 ≤ 8 && 1 ≤ f 39 1 && f 39 1 ≤ 8 && allZero (slice hd 41 7) && f 48 8 = 256 && 256 + 64 * n ≤ f 56 8 &&
    allZero (slice hd 68 4) && f 72 8 % 4096 = 0 && f 80 8 % 4096 = 0 && f 56 8 + f 64 4 ≤ f 72 8 && f 72 8 + f 80 8 ≤ f 88 8 &&
    allZero (slice hd 112 144) && (if f 6 1 = 1 then 1 ≤ rank && rank ≤ 128 else rank = 0 && allZero (slice hd 96 16))

/-- The status of R253 for a head: OK, IMAGE_REJECTED or ALREADY_INSTALLED. `again` leaves the last test out. -/
def State.imageStatus (s : State) (hd : List Byte) (again : Bool) : Nat :=
  let f := field hd
  let raws := pieces 64 (f 36 2) (hd.drop 256)
  let shards := headShards hd
  let apart := shards.all fun a => shards.all fun b => b.index ≤ a.index || shardsApart a b
  if !(headerOk hd) || hd.length < 256 + 64 * f 36 2 + f 64 4 ||
      !(raws.zipIdx.all fun p => shardOk (f 38 1) (f 39 1) (f 80 8) p.2 p.1 (f 6 1)) || !apart || !(s.signatureOk hd) then
    stIMAGE_REJECTED
  else if !again && s.vault.catalogue.any (fun c => c.imageId == f 16 16 && f 12 4 ≤ c.gen) then stALREADY_INSTALLED
  else stOK

/-! ### Who keeps what (R254) -/

/-- A shard addresses a coordinate. -/
def Shard.at_ (h : Shard) (r c : Nat) : Bool := (h.row = r || h.row = 0xFF) && (h.col = c || h.col = 0xFF)

/-- A shard is kept at a coordinate of a grid of `rows`: the spare row keeps the protected shards of its column. -/
def Shard.keptAt (h : Shard) (r c : Nat) : Bool :=
  if r = 8 then h.prot && (h.col = c || h.col = 0xFF) else h.at_ r c

/-- Bit of a coordinate in a member mask. -/
def memberBit (r c : Nat) : Nat := 9 * c + r

/-- Members of a mask as (row, column). -/
def maskMembers (m : Nat) : List (Nat × Nat) :=
  ((List.range 72).filter (bit m)).map fun b => (b % 9, b / 9)

/-- A coordinate that some shard addresses, that the mask omits, and that would keep an unprotected shard (R257). -/
def groupIncomplete (hd : List Byte) (mask : Nat) : Bool :=
  (List.range (field hd 38 1)).any fun r => (List.range (field hd 39 1)).any fun c =>
    !(bit mask (memberBit r c)) && (headShards hd).any fun h => h.at_ r c && !h.prot

/-- Bytes of a shard's stream: data, then check array. -/
def Shard.stream (h : Shard) : Nat := h.length + h.checkLen

/-! ### Messages of an installation (R256) -/

def kBEGIN : Nat := 0x20
def kACCEPT : Nat := 0x21
def kREFUSE : Nat := 0x22
def kCREDIT : Nat := 0x23
def kDATA : Nat := 0x24
def kEND : Nat := 0x25
def kREPORT : Nat := 0x26
def kREPAIR : Nat := 0x27
def kCOMMIT : Nat := 0x28
def kABORT : Nat := 0x29
def kCOMMITTED : Nat := 0x2A

/-- A message to another module's hub. -/
def State.instMsg (s : State) (kind module tag status : Nat) (payload : List Byte) : State :=
  s.sendControl kind false { Msg.blank with dest := BitVec.ofNat 14 (module * 8 + 4), src := BitVec.ofNat 14 (s.node 4),
                                            status := BitVec.ofNat 16 status, tag := BitVec.ofNat 32 tag, payload := payload }

/-- A message to every member. -/
def State.instAll (s : State) (kind tag : Nat) (m : Msg) : State :=
  s.sendControl kind false { m with dest := Config.installGroup, src := BitVec.ofNat 14 (s.node 4), mcast := true,
                                    tag := BitVec.ofNat 32 tag }

/-- Module that sent a message. -/
def msgModule (m : Msg) : Nat := m.src.toNat / 8

/-! ### The catalogue -/

/-- Entry of an image generation. -/
def State.entryOf (s : State) (id gen : Nat) : Option CatEntry := s.vault.catalogue.find? fun c => c.imageId == id && c.gen == gen

/-- A catalogue entry by index. -/
def State.entryAt (s : State) (i : Nat) : Option CatEntry := s.vault.catalogue.find? fun c => c.index == i

/-- Lowest free entry. -/
def State.freeEntry (s : State) : Option Nat := (List.range 4096).find? fun i => (s.entryAt i).isNone

/-- A change of STATE with its record (R262). -/
def State.entryState (s : State) (origin reader : Nat) (c : CatEntry) (state : Nat) : State :=
  (s.setEntry { c with state := state }).hand origin (objImage reader c.index c.gen) (imageVal c c.state) (imageVal c state)

/-- An entry removed with its pages and its record (R261, R264, R265). -/
def State.removeEntry (s : State) (origin reader : Nat) (c : CatEntry) : State :=
  let s := (s.bumpIf (c.state = 1 || c.state = 2) 0x80028).freeExtent c
  let s := s.setVault { s.vault with catalogue := s.vault.catalogue.filter (fun x => x.index ≠ c.index) }
  s.hand origin (objImage reader c.index c.gen) (imageVal c c.state) (imageVal c 0)

/-- Logical pages neither in use nor reserved, lowest first, at most `n` (R241, R257). -/
def State.freeVault (s : State) (n : Nat) : List Nat :=
  let used := s.vault.inUse
  ((List.range (used.length + n)).filter fun p => !(used.contains p) && p < vaultPages).take n

/-- COMMIT_STAMP before a commit. -/
def noStamp : List Byte := zeros 16

/-- An entry as an accepted image creates it. -/
def newEntry (index : Nat) (hd : List Byte) (kept : List Nat) (state : Nat) (stale : Nat) : CatEntry :=
  { index := index, imageId := field hd 16 16, gen := field hd 12 4, state := state, kind := field hd 6 1, rank := field hd 40 1,
    baseId := field hd 96 16, rows := field hd 38 1, cols := field hd 39 1, shards := headShards hd, kept := kept, bad := [], owed := [],
    bound := 0, digest := headDigest hd, stamp := noStamp, staleRows := stale, extent := [], head := hd }

/-- Shards that the module's coordinates keep and the entry does not (R265, R268). -/
def State.missing (s : State) (c : CatEntry) : List Nat :=
  ((c.shards.filter fun h => h.keptAt s.fab.row s.fab.col).map (·.index)).filter fun n => !(c.kept.contains n)

/-! ### The install buffer and the page programs (R242, R245, R247, R258) -/

/-- First tile of the 32 MiB install buffer: the lowest place in the common store beside the checkpoint store (DESIGN CHOICE,
notes/assumptions/114.md). -/
def instTile : Nat := if 8192 ≤ Config.ckptTile.val then 0 else Config.ckptTile.val + 160

/-- MPA of a 64 KiB slot of the install buffer. -/
def slotMpa (slot : Nat) : Nat := mpaCs (instTile * 4096 + slot * 65536)

/-- The lowest slot of the install buffer that holds no message. -/
def Vault.freeSlot (v : Vault) : Option Nat :=
  (List.range 512).find? fun k => v.waiting.all (·.slot ≠ k) && v.flights.all (·.piece.slot ≠ k)

/-- The physical page that a program of a logical page takes: the lowest free one on the page's channel (R241, R245; DESIGN CHOICE,
notes/assumptions/113.md). -/
def Vault.freePhys (v : Vault) (page : Nat) : Nat :=
  let used := v.phys.map (·.1) ++ v.flights.map (·.phys)
  (((List.range (used.length + 1)).map fun k => page % 128 + 128 * k).find? fun q => !(used.contains q)).getD (page % 128)

/-- Page programs that a channel may start, at most one for each (R245, R247): each takes its message from the install buffer. -/
def State.startPrograms (s : State) : List Piece → State
  | [] => s
  | p :: ps =>
    let s :=
      if s.vault.powerFail || s.vault.flights.any (fun f => vaultChannelOf f.piece.page == vaultChannelOf p.page) then s
      else s.setVault { s.vault with
        flights := s.vault.flights ++ [⟨p, s.vault.freePhys p.page, s.load (slotMpa p.slot) p.len, true⟩],
        waiting := s.vault.waiting.filter (· != p) }
    s.startPrograms ps

/-- Programs of pages are no longer wanted: those that wait do not start, and those in flight map nothing. -/
def Vault.unwant (v : Vault) (pages : List Nat) : Vault :=
  { v with waiting := v.waiting.filter fun p => !(pages.contains p.page),
           flights := v.flights.map fun f => if pages.contains f.piece.page then { f with wanted := false } else f }

/-! ### The member (R257 to R261) -/

/-- A new reception of a shard. -/
def rxShard (shard length : Nat) : RxShard := ⟨shard, length, [], 0, false, false⟩

/-- The pages of shards, in order, from a list of free pages. -/
def assignPages : List Shard → List Nat → List (Nat × Nat)
  | [], _ => []
  | h :: hs, ps => ((ps.take h.pages).map fun p => (h.index, p)) ++ assignPages hs (ps.drop h.pages)

/-- The module may open an installation as a member. -/
def State.memberBusy (s : State) (tag : Nat) : Bool :=
  !s.vault.mapReady || s.vault.powerFail || (match s.vault.member with | some m => !m.committed | none => false) ||
    (match s.vault.reader with | some r => r.tag ≠ tag | none => false) || s.vault.repair.isSome

/-- A member opens: pages reserved, ACCEPT and its credits sent. -/
def State.openMember (s : State) (m : Msg) (entry : Nat) (shards : List Shard) (pages : List Nat) (repair created : Bool)
    (timeout : Nat) : State :=
  let x : Member :=
    { tag := m.tag.toNat, reader := msgModule m, entry := entry, repair := repair, timeoutMs := timeout, lastMsg := s.time.clk,
      shards := shards.map fun h => rxShard h.index h.stream, seqs := 0, endCount := none, endClk := 0, committed := false,
      extent := assignPages shards pages, created := created }
  let s := s.setVault { s.vault with member := some x, reserved := pages }
  (s.instMsg kACCEPT (msgModule m) m.tag.toNat stOK []).instMsg kCREDIT (msgModule m) m.tag.toNat stOK (leBytes 4 512)

/-- BEGIN's content: the head, the member mask, the timeout, and a repair's shard list. -/
structure Begin where
  head    : List Byte
  mask    : Nat
  timeout : Nat
  list    : List Nat

def beginOf (bs : List Byte) : Begin :=
  let n := 256 + 64 * field bs 36 2 + field bs 64 4
  let t := bs.drop n
  ⟨bs.take n, field t 0 9, field t 9 4, (pieces 2 (field t 13 2) (t.drop 15)).map leNat⟩

/-- Bytes of BEGIN's content, as far as those that have come tell it. -/
def beginLength (repair : Bool) (bs : List Byte) : Option Nat :=
  let n := 256 + 64 * field bs 36 2 + field bs 64 4 + 13
  if bs.length < 256 then none
  else if !repair then some n
  else if bs.length < n + 2 then none
  else some (n + 2 + 2 * field bs n 2)

/-- The pieces of a BEGIN that have arrived without a gap. -/
def BeginRx.run (b : BeginRx) : List (List Byte) :=
  ((List.range b.pieces.length).map (findKey b.pieces)).takeWhile (·.isSome) |>.filterMap id

/-- One message of BEGIN (R303): its content once all has come. The message that is shorter than 65,536 bytes is the last. -/
def State.takeBegin (s : State) (m : Msg) : Option (List Byte) × State :=
  let same := fun b : BeginRx => b.tag == m.tag.toNat && b.src == m.src.toNat
  let rest := s.vault.begins.filter fun b => !(same b)
  let old := if m.seq.toNat = 0 then [] else ((s.vault.begins.find? same).map (·.pieces)).getD []
  let b : BeginRx := ⟨m.tag.toNat, m.src.toNat, m.opt.toNat, putKey old m.seq.toNat m.payload⟩
  let bs := b.run.flatten
  let whole := (match beginLength (bit m.opt.toNat 0) bs with | some n => n ≤ bs.length | none => false) ||
    b.run.any fun p => p.length < 65536
  if whole then (some bs, s.setVault { s.vault with begins := rest }) else (none, s.setVault { s.vault with begins := rest ++ [b] })

/-- BEGIN of an installation at a member (R257). -/
def State.beginInstall (s : State) (m : Msg) (b : Begin) : State :=
  let refuse := fun status : Nat => s.instMsg kREFUSE (msgModule m) m.tag.toNat status []
  let status := s.imageStatus b.head false
  let shards := (headShards b.head).filter fun h => h.keptAt s.fab.row s.fab.col
  let n := (shards.map Shard.pages).sum
  let pages := s.freeVault n
  if status ≠ stOK then refuse status
  else if s.memberBusy m.tag.toNat then refuse stVAULT_BUSY
  else
    match s.freeEntry with
    | none => refuse stNO_SPACE
    | some e =>
      if pages.length < n then refuse stNO_SPACE
      else
        let stale := if s.fab.row = 8 then (List.range 8).foldl (fun a r =>
          a + flag (!(bit b.mask (memberBit r s.fab.col)) && (headShards b.head).any fun h => h.at_ r s.fab.col) * 2 ^ r) 0 else 0
        let c := { newEntry e b.head (shards.map (·.index)) 1 stale with extent := assignPages shards pages }
        let s := s.setVault { s.vault with catalogue := s.vault.catalogue ++ [c] }
        let s := s.hand 12 (objImage (msgModule m) e c.gen) [] (imageVal c 1)
        s.openMember m e shards pages false true b.timeout

/-- An entry that catalogue synchronization created takes its shard table from the repair: every shard of the coordinate is owed (R265). -/
def State.withTable (s : State) (c : CatEntry) (hd : List Byte) : CatEntry :=
  if !c.shards.isEmpty then c
  else
    let c := { c with shards := headShards hd, head := hd, kind := field hd 6 1, rank := field hd 40 1, baseId := field hd 96 16,
                      rows := field hd 38 1, cols := field hd 39 1 }
    { c with owed := s.missing c }

/-- BEGIN of a repair at its target (R267): into a STALE entry, a COMMITTED one with BAD shards, or a new one, which owes every shard of
the coordinate until it has come (R266). -/
def State.beginRepair (s : State) (m : Msg) (b : Begin) : State :=
  let refuse := fun status : Nat => s.instMsg kREFUSE (msgModule m) m.tag.toNat status []
  let shards := (headShards b.head).filter fun h => b.list.contains h.index
  let n := (shards.map Shard.pages).sum
  let pages := s.freeVault n
  if s.imageStatus b.head true ≠ stOK then refuse stIMAGE_REJECTED
  else if s.memberBusy m.tag.toNat then refuse stVAULT_BUSY
  else if pages.length < n then refuse stNO_SPACE
  else
    match s.entryOf (field b.head 16 16) (field b.head 12 4) with
    | some c =>
      if c.digest != headDigest b.head then refuse stIMAGE_REJECTED
      else if c.state = 4 || (c.state = 3 && !c.bad.isEmpty) then
        (s.setEntry (s.withTable c b.head)).openMember m c.index shards pages true false b.timeout
      else refuse stALREADY_INSTALLED
    | none =>
      match s.freeEntry with
      | none => refuse stNO_SPACE
      | some e =>
        let c := newEntry e b.head [] 1 0
        let c := { c with owed := s.missing c }
        let s := s.setVault { s.vault with catalogue := s.vault.catalogue ++ [c] }
        let s := s.hand 12 (objImage (msgModule m) e c.gen) [] (imageVal c 1)
        s.openMember m e shards pages true true b.timeout

/-- The open member replaced. -/
def State.setMember (s : State) (x : Member) : State := s.setVault { s.vault with member := some x }

/-- Every message of the shard has arrived. -/
def RxShard.whole (x : RxShard) : Bool := x.got.length == cdiv x.length 65536

/-- Tiles of a shard that differ from its check array (R251, R259). -/
def badTiles (h : Shard) (stream : List Byte) : Nat :=
  let checks := stream.drop h.length
  ((pieces 4096 (h.length / 4096) stream).zipIdx.filter fun p => crc32c p.1 ≠ field checks (4 * p.2) 4).length

/-- Pages of a shard of the open member, in stream order. -/
def Member.pagesOf (x : Member) (shard : Nat) : List Nat := (x.extent.filter fun e => e.1 == shard).map (·.2)

/-- The bytes of a shard as the controller reads them back: each page from the physical page programmed last (R259). -/
def State.shardBack (s : State) (x : Member) (h : Shard) : List Byte :=
  let m := s.vault.buffer.foldl mapAfter s.vault.mapped
  ((x.pagesOf h.index).flatMap fun p => match findKey m p with | some q => s.vault.physPage q | none => zeros 65536).take h.stream

/-- A shard read back and verified: every tile check, then the digest (R259); `reads` says how its tiles are read. A tile that fails is
read again once (R249). -/
def State.verifyShard (s : State) (x : Member) (h : Shard) (reads : List Check) : Bool × State :=
  let stream := s.shardBack x h
  let bad := badTiles h stream
  let r := s.readPages (x.pagesOf h.index) none reads
  (r.1.isNone && bad = 0 && shake256 32 stream == h.digest, r.2.2.bumpBy 0x80010 (2 * bad))

/-- Shards to be received from their start again: what stands of their messages is let go, with its credits (R258, R259). -/
def State.freshShards (s : State) (x : Member) (names : List Nat) : State :=
  let pages := (x.extent.filter fun e => names.contains e.1).map (·.2)
  let n := (s.vault.waiting.filter fun p => pages.contains p.page).length
  let x := { x with shards := x.shards.map fun r => if names.contains r.shard then rxShard r.shard r.length else r }
  let s := (s.setVault (s.vault.unwant pages)).setMember x
  if n = 0 then s else s.instMsg kCREDIT x.reader x.tag stOK (leBytes 4 n)

/-- A stream piece taken into the install buffer; its page waits for its channel (R254, R258). -/
def State.takePiece (s : State) (x : Member) (shard off : Nat) (bs : List Byte) : State :=
  match x.shards.find? (fun r => r.shard == shard), s.vault.freeSlot, (x.pagesOf shard)[off / 65536]? with
  | some r, some slot, some page =>
    if r.verified || off % 65536 ≠ 0 || r.length < off + bs.length || r.got.contains off then s.setMember x
    else
      let x := { x with shards := x.shards.map fun y => if y.shard == shard then { y with got := y.got ++ [off] } else y }
      let s := (s.setMember x).storeAt (slotMpa slot) bs
      let s := s.setVault { s.vault with waiting := s.vault.waiting ++ [⟨page, shard, bs.length, slot⟩] }
      s.startPrograms s.vault.waiting
  | _, _, _ => s.setMember x

/-- Shards of a member that are missing or failing (R259). -/
def Member.failing (x : Member) : List Nat := (x.shards.filter fun r => r.failed || !r.whole).map (·.shard)

/-- REPORT sent (R259): VERIFIED, or the list; a listed shard is awaited from its start. The entry of a verified installation becomes
VERIFIED. -/
def State.report (s : State) (x : Member) : State :=
  let bad := x.failing
  let s := s.freshShards { x with endCount := none } bad
  let s := match s.entryAt x.entry with
    | some c => if bad.isEmpty && c.state = 1 then s.entryState 12 x.reader c 2 else s
    | none => s
  s.instMsg kREPORT x.reader x.tag (if bad.isEmpty then stOK else stCHECK_ERROR) (bad.flatMap (leBytes 2))

/-- Every kept shard has been programmed and checked. -/
def Member.checked (x : Member) : Bool := x.shards.all fun r => r.verified || r.failed

/-- A page of a kept shard is programmed: after the last one the shard is verified (R259). -/
def State.shardProgrammed (s : State) (x : Member) (shard : Nat) (reads : List Check) : State :=
  match x.shards.find? (fun r => r.shard == shard), (s.entryAt x.entry).bind (fun c => c.shards.find? fun h => h.index == shard) with
  | some r, some h =>
    let r := { r with programmed := r.programmed + 1 }
    let last := r.whole && r.programmed ≥ r.got.length
    let (ok, s) := if last then s.verifyShard x h reads else (false, s)
    let r := if last then { r with verified := ok, failed := !ok } else r
    let x := { x with shards := x.shards.map fun y => if y.shard == shard then r else y }
    let s := s.setMember x
    if last && x.checked then s.report x else s
  | _, _ => s

/-- A page program completes (R245, R258): its journal record, the credit, and the shard's verification after its last page. -/
def State.programDone (s : State) (ch : Nat) (reads : List Check) : State :=
  match s.vault.flights.find? fun f => vaultChannelOf f.piece.page == ch with
  | none => s
  | some p =>
    let s := s.programmed p
    let s := s.startPrograms s.vault.waiting
    match s.vault.member with
    | none => s
    | some x =>
      if !(x.extent.any fun e => e.2 == p.piece.page) then s
      else
        let s := s.instMsg kCREDIT x.reader x.tag stOK (leBytes 4 1)
        if p.wanted then s.shardProgrammed x p.piece.shard reads else s

def execPageProgramDone (channel : Fin 128) (s : State) (reads : List Check := []) : Res := .next (s.programDone channel.val reads)

/-- END (R259): the count of DATA messages; a member with nothing to keep reports at once. -/
def State.memberEnd (s : State) (x : Member) (count : Nat) : State :=
  let x := { x with endCount := some count, endClk := s.time.clk }
  if x.shards.isEmpty then s.report x else s.setMember x

/-- 10 ms after END with DATA messages still missing (R259): a shard whose messages have all come is not listed for its programs. -/
def State.reportDue (s : State) (x : Member) : State := if x.failing.isEmpty then s.setMember { x with endCount := none } else s.report x

/-- DATA messages counted by END are missing (R259). -/
def Member.lacks (x : Member) : Bool := match x.endCount with | some n => x.seqs < n | none => false

def execReportTimer (s : State) : Res :=
  .next (match s.vault.member with
    | some x => if x.lacks && !x.checked then s.atTimer (x.endClk + 10000000) fun s => s.reportDue x else s
    | none => s)

/-- REPAIR (R259): the shard's stream again from its start, programmed afresh; its messages are counted from its start. -/
def State.memberRepair (s : State) (x : Member) (shard off : Nat) (bs : List Byte) : State :=
  if off = 0 then
    let s := (s.bump 0x80020).freshShards { x with seqs := 1, endCount := none } [shard]
    match s.vault.member with
    | some x => s.takePiece x shard 0 bs
    | none => s
  else s.takePiece { x with seqs := x.seqs + 1 } shard off bs

/-- The entry after a commit (R260, R267): an installation's entry COMMITTED; a repair's shards kept, not BAD and not owed, and the entry
COMMITTED once none is owed (R266). -/
def committedEntry (x : Member) (c : CatEntry) (now : List Byte) : CatEntry :=
  let names := x.shards.map (·.shard)
  let c := { c with
    extent := if x.repair then c.extent.filter (fun (e : Nat × Nat) => !(names.contains e.1)) ++ x.extent else c.extent,
    kept := if x.repair then c.kept ++ names.filter (fun n => !(c.kept.contains n)) else c.kept,
    bad := c.bad.filter fun n => !(names.contains n), owed := c.owed.filter fun n => !(names.contains n) }
  { c with state := if c.owed.isEmpty then 3 else 4, stamp := now }

/-- COMMIT at a member (R260): the COMMIT record durable, the entry COMMITTED, recorded, answered. A member that has committed answers
again; a vault that the power-fail signal has stopped commits nothing (R247). -/
def State.commit (s : State) (x : Member) : State :=
  if x.committed then s.instMsg kCOMMITTED x.reader x.tag stOK []
  else
    match s.entryAt x.entry with
    | none => s
    | some c =>
      if !(x.shards.all (·.verified)) || s.vault.powerFail then s.setMember x
      else
        let old := if x.repair then c.extent.filter (fun (e : Nat × Nat) => (x.shards.map (·.shard)).contains e.1) else []
        let s := ((old.foldl (fun s e => s.journal (.free e.2)) s).journal (.commit c.index)).flushJournal
        let n := committedEntry x c s.fullStamp
        let s := (s.setEntry n).hand 12 (objImage x.reader c.index c.gen) (imageVal c c.state) (imageVal n n.state)
        let s := s.setVault { s.vault with member := some { x with committed := true }, reserved := [] }
        s.instMsg kCOMMITTED x.reader x.tag stOK []

/-- The member lets go of its pages: programs that wait do not start, those in flight map nothing, and what is mapped is freed through
the journal (R261). -/
def State.closeMember (s : State) (x : Member) : State :=
  let pages := x.extent.map (·.2)
  let s := s.setVault { s.vault.unwant pages with member := none, reserved := [] }
  pages.foldl (fun s p => s.journal (.free p)) s

/-- An uncommitted member discards what it holds (R261). The entry of a repair that did not create it stands as it was, and its record
says so (notes/assumptions/115.md). -/
def State.abandonMember (s : State) (x : Member) : State :=
  if x.committed then s.setMember x
  else
    let s := s.closeMember x
    match s.entryAt x.entry with
    | some c =>
      if x.created then s.removeEntry 12 x.reader { c with extent := [] }
      else s.hand 12 (objImage x.reader c.index c.gen) (imageVal c c.state) (imageVal c c.state)
    | none => s

/-- No message for the timeout of BEGIN (R261). -/
def Member.due (x : Member) : Nat := x.lastMsg + x.timeoutMs * 1000000

def execInstallInactivityTimeout (s : State) : Res :=
  .next (match s.vault.member with
    | some x => if x.committed then s else s.atTimer x.due fun s => s.abandonMember x
    | none => s)

/-! ### The reader (R257 to R260) -/

/-- The image is being repaired, not installed: there is no host image. -/
def Reader.isRepair (r : Reader) : Bool := r.image.isEmpty

/-- The vault pages of a shard at a repair's source, in stream order. -/
def State.sourcePages (s : State) (r : Reader) (shard : Nat) : List Nat :=
  match s.entryAt r.entry with
  | some c => (c.extent.filter fun e => e.1 == shard).map (·.2)
  | none => []

/-- Bytes of a shard's stream at the reader: from the host's image, or from the own vault (R267). -/
def State.streamBytes (s : State) (r : Reader) (h : Shard) (off n : Nat) : List Byte :=
  if r.isRepair then slice (((s.sourcePages r h.index).flatMap fun p => s.load (mpaVault (p * 65536)) 65536).take h.stream) off n
  else slice (slice r.image (r.payload + h.offset) h.length ++ slice r.image (r.payload + h.checkOff) h.checkLen) off n

/-- A peer that keeps a shard. -/
def Peer.keeps (p : Peer) (h : Shard) (repair : Bool) : Bool := repair || h.keptAt (p.bit % 9) (p.bit / 9)

/-- Pieces of a shard's stream in messages of 64 KiB. -/
def sendsOf (h : Shard) (target : Option Nat) (final : Bool) : List Send :=
  let n := cdiv h.stream 65536
  (List.range n).map fun i =>
    ⟨h.index, i * 65536, min 65536 (h.stream - i * 65536), target, final && i + 1 == n⟩

/-- One DATA or REPAIR message, and END after the last one (R256, R259): a multicast takes the next sequence number, a REPAIR counts from
its shard's start. -/
def State.sendPiece (s : State) (r : Reader) (q : Send) (dest : Nat) (body : List Byte) : State :=
  let m := { Msg.blank with offset := BitVec.ofNat 64 q.off, aux := BitVec.ofNat 32 q.shard, payload := body,
                            tag := BitVec.ofNat 32 r.tag, src := BitVec.ofNat 14 (s.node 4) }
  match q.target with
  | none =>
    let s := s.instAll kDATA r.tag { m with seq := BitVec.ofNat 32 r.seq }
    if q.last then s.instAll kEND r.tag { Msg.blank with payload := leBytes 4 (r.seq + 1) } else s
  | some _ =>
    let n := q.off / 65536
    let s := s.sendControl kREPAIR false { m with seq := BitVec.ofNat 32 n, dest := BitVec.ofNat 14 (dest * 8 + 4) }
    if q.last then s.instMsg kEND dest r.tag stOK (leBytes 4 (n + 1)) else s

/-- DATA and REPAIR messages sent while the members that keep them hold a credit (R258, R259). A repair's source reads each page from its
vault: the answer's last part is false where a read ends in a shard fault (R249, R267). -/
def State.pump (s : State) (r : Reader) : List Send → List Check → State × Reader × Bool
  | [], _ => (s, { r with queue := [] }, true)
  | q :: qs, reads =>
    match r.shards.find? fun h => h.index == q.shard with
    | none => s.pump r qs reads
    | some h =>
      let who := r.peers.filter fun p => match q.target with | some t => p.bit == t | none => p.keeps h r.isRepair
      if who.any (fun p => p.credits = 0) then (s, { r with queue := q :: qs }, true)
      else
        match if r.isRepair then s.readVault [nth 0 (s.sourcePages r q.shard) (q.off / 65536)] reads else (true, reads, s) with
        | (false, _, s) => (s, r, false)
        | (true, reads, s) =>
          let dest := match who.head? with | some p => p.module | none => 0
          let s := s.sendPiece r q dest (s.streamBytes r h q.off q.len)
          let r := { r with
            seq := if q.target.isNone then r.seq + 1 else r.seq
            peers := r.peers.map fun p => if who.contains p then { p with credits := p.credits - 1 } else p
            ended := r.ended || (q.last && q.target.isNone) }
          s.pump r qs reads

/-- The spare no longer owes a repair that it has itself brought to a row of its column (R257, R262; DESIGN CHOICE,
notes/assumptions/115.md). -/
def State.rowRepaired (s : State) (r : Reader) : State :=
  match r.peers.head?, s.entryAt r.entry with
  | some p, some c =>
    if s.fab.row = 8 && p.module % 8 = s.fab.col && p.committed then
      s.setEntry { c with staleRows := putBit c.staleRows (p.module / 8 % 16) false }
    else s
  | _, _ => s

/-- The outcome of an INSTALL (R257): its record with the reader's origin, and the completion with the unconfirmed mask and the first
refusing member. -/
def State.finishReader (s : State) (r : Reader) (status refuser : Nat) : State :=
  if r.isRepair then (s.rowRepaired r).setVault { (s.rowRepaired r).vault with repair := none }
  else
    let mask := if r.committing then (r.peers.filter fun p => !p.committed).foldl (fun a p => a + 2 ^ p.bit) 0 else 0
    let q := r.cqe.map fun q => { q with result := fit 32 (leBytes 9 mask ++ zeros 1 ++ leBytes 2 refuser) }
    let s := s.setVault { s.vault with reader := none }
    s.handCq r.origin false (objImage s.fab.moduleNo r.entry r.gen) (r.digest ++ leBytes 1 1)
      (r.digest ++ leBytes 1 (if status = stOK then 3 else 0)) (q.map fun q => { q with status := status })

/-- ABORT and the outcome. -/
def State.abortReader (s : State) (r : Reader) (status refuser : Nat) : State :=
  let s := if r.isRepair then r.peers.foldl (fun s p => s.instMsg kABORT p.module r.tag stOK []) s
    else s.instAll kABORT r.tag Msg.blank
  s.finishReader r status refuser

/-- A peer's reply noted. -/
def Reader.setPeer (r : Reader) (m : Msg) (f : Peer → Peer) : Reader :=
  { r with peers := r.peers.map fun p => if p.module == msgModule m then f p else p }

/-- BEGIN sent, in messages of at most 65,536 bytes (R256, R303). -/
def State.sendBegin (s : State) (r : Reader) (head : List Byte) (mask timeout : Nat) (list : List Nat) : State :=
  let body := head ++ leBytes 9 mask ++ leBytes 4 timeout ++ (if r.isRepair then leBytes 2 list.length ++ list.flatMap (leBytes 2) else [])
  (pieces 65536 (cdiv body.length 65536) body).zipIdx.foldl (fun s b =>
    let m := { Msg.blank with src := BitVec.ofNat 14 (s.node 4), tag := BitVec.ofNat 32 r.tag, seq := BitVec.ofNat 32 b.2, payload := b.1 }
    if r.isRepair then
      r.peers.foldl (fun s p => s.sendControl kBEGIN false { m with dest := BitVec.ofNat 14 (p.module * 8 + 4), opt := 1 }) s
    else s.instAll kBEGIN r.tag m) s

/-- INSTALL (R257, R398). -/
def State.install (s : State) (j : Job) (image : List Byte) : State :=
  let a := j.cmd.args
  let mask := field a 16 9
  let ms := if field a 28 4 = 0 then 600000 else field a 28 4
  let hd := imageHead image
  let status := s.imageStatus hd false
  if !(argsZero a 26 2) || !(argsZero a 32 12) || bits (field a 25 1) 4 4 ≠ 0 || ms < 1000 || 3600000 < ms then s.fail j stINVALID_FIELD
  else if !s.fab.coordValid || !(bit mask (memberBit s.fab.row s.fab.col)) then s.fail j stINVALID_FIELD
  else if j.cmd.busError then (s.bump 0xC0828).complete j stBUS_ERROR []
  else if status ≠ stOK then s.fail j status
  else if field hd 88 8 ≠ field a 8 8 || image.length < field a 8 8 then s.fail j stIMAGE_REJECTED
  else if groupIncomplete hd mask then s.fail j stGROUP_INCOMPLETE
  else if s.vault.reader.isSome || s.vault.repair.isSome || (match s.vault.member with | some m => !m.committed | none => false) then
    s.fail j stVAULT_BUSY
  else
    let tag := s.fab.moduleNo + 2 ^ 11 * (s.vault.tagNo % 2 ^ 21)
    let peers := (maskMembers mask).map fun p =>
      (⟨memberBit p.1 p.2, s.fab.part * 128 + p.1 * 8 + p.2, false, 0, false, false, false, []⟩ : Peer)
    let r : Reader :=
      { tag := tag, cqe := some j.cqe, origin := j.origin, image := image, entry := s.freeEntry.getD 0, shards := headShards hd,
        rows := field hd 38 1, cols := field hd 39 1, payload := field hd 72 8, peers := peers, queue := [], seq := 0,
        begun := s.time.clk, timeout := s.time.clk + ms * 1000000, ended := false, committing := false, gen := field hd 12 4,
        digest := headDigest hd }
    let s := s.setVault { s.vault with reader := some r, tagNo := s.vault.tagNo + 1 }
    let s := s.hand j.origin (objImage s.fab.moduleNo r.entry r.gen) [] (r.digest ++ leBytes 1 1)
    s.sendBegin r hd mask ms []

def execInstall (c : Cmd) (image : List Byte) (s : State) : Res :=
  .next (s.command 0x30 { c with busError := false } ⟨onlyPf, false, none, true⟩ fun s j =>
    s.install { j with cmd := c } image)

/-- What the reader still waits for and until when: every member's answer to BEGIN, for 100 ms (R257). -/
def Reader.silent (r : Reader) : Bool := r.peers.any fun p => !p.answered

/-- 100 ms after BEGIN with a member silent (R257). -/
def State.acceptWait (s : State) (r : Reader) : State := s.abortReader r stINSTALL_TIMEOUT 0x7FF

def execAcceptWaitTimeout (s : State) : Res :=
  .next (match s.vault.reader, s.vault.repair with
    | some r, _ | none, some r => if r.silent then s.atTimer (r.begun + 100000000) fun s => s.acceptWait r else s
    | none, none => s)

/-- The timeout of INSTALL (R257, R260). -/
def State.readerEnds (s : State) (r : Reader) : State :=
  if r.committing then s.finishReader r stOK 0x7FF else s.abortReader r stINSTALL_TIMEOUT 0x7FF

def State.readerTimeout (s : State) (r : Reader) : State := s.atTimer r.timeout fun s => s.readerEnds r

def execInstallReaderTimeout (s : State) : Res :=
  .next (match s.vault.reader, s.vault.repair with
    | some r, _ => s.readerTimeout r
    | none, some r => s.readerTimeout r
    | none, none => s)

/-! ### Messages, after the timeouts that have fallen due (R8, R47, R48, R256) -/

/-- The timeouts of a reader or a repair's source that have come by now. -/
def State.ripeReader (s : State) (r : Option Reader) : State :=
  match r with
  | none => s
  | some r =>
    if r.timeout ≤ s.time.clk then s.readerEnds r
    else if r.silent && r.begun + 100000000 ≤ s.time.clk then s.acceptWait r
    else s

/-- The timeouts of an installation that have come by the tick of a message take effect before it (R8, R47, R48). -/
def State.ripeInstall (s : State) : State :=
  let s := match s.vault.member with
    | some x =>
      if !x.committed && x.due ≤ s.time.clk then s.abandonMember x
      else if x.lacks && !x.checked && x.endClk + 10000000 ≤ s.time.clk then s.reportDue x
      else s
    | none => s
  (s.ripeReader s.vault.reader).ripeReader s.vault.repair

/-- A message of an installation (R256). -/
def State.instDeliver (s : State) (kind : Nat) (m : Msg) (act : State → State) : State := s.deliver kind m fun s => act s.ripeInstall

/-- The member of a message's tag; any other tag is counted and discarded (R256). -/
def State.asMember (s : State) (m : Msg) (act : State → Member → State) : State :=
  match s.vault.member with
  | some x => if x.tag = m.tag.toNat then act s { x with lastMsg := s.time.clk } else s.discardInstall
  | none => s.discardInstall

def execInstallBegin (m : Msg) (s : State) : Res :=
  .next (s.instDeliver kBEGIN m fun s =>
    match s.takeBegin m with
    | (none, s) => s
    | (some bs, s) =>
      let b := beginOf bs
      if bit m.opt.toNat 0 then s.beginRepair m b
      else if s.fab.coordValid && bit b.mask (memberBit s.fab.row s.fab.col) then s.beginInstall m b
      else s)

def execInstallData (m : Msg) (s : State) : Res :=
  .next (s.instDeliver kDATA m fun s => s.asMember m fun s x =>
    s.takePiece { x with seqs := x.seqs + 1 } m.aux.toNat m.offset.toNat m.payload)

def execInstallEnd (m : Msg) (s : State) : Res :=
  .next (s.instDeliver kEND m fun s => s.asMember m fun s x => s.memberEnd x (field m.payload 0 4))

def execInstallRepair (m : Msg) (s : State) : Res :=
  .next (s.instDeliver kREPAIR m fun s => s.asMember m fun s x => s.memberRepair x m.aux.toNat m.offset.toNat m.payload)

def execInstallCommit (m : Msg) (s : State) : Res := .next (s.instDeliver kCOMMIT m fun s => s.asMember m State.commit)

/-- ABORT also ends a BEGIN of which not every message has come. -/
def execInstallAbort (m : Msg) (s : State) : Res :=
  .next (s.instDeliver kABORT m fun s =>
    (s.setVault { s.vault with begins := s.vault.begins.filter fun b => b.tag ≠ m.tag.toNat }).asMember m State.abandonMember)

/-- The reader or repair source of a tag, and how to put it back. -/
def State.asReader (s : State) (m : Msg) (act : State → Reader → (State → Option Reader → State) → State) : State :=
  let put := fun (s : State) (r : Option Reader) => s.setVault { s.vault with reader := r }
  let putR := fun (s : State) (r : Option Reader) => s.setVault { s.vault with repair := r }
  match s.vault.reader, s.vault.repair with
  | some r, q =>
    if r.tag = m.tag.toNat then act s r put
    else match q with
      | some q => if q.tag = m.tag.toNat then act s q putR else s.discardInstall
      | none => s.discardInstall
  | none, some q => if q.tag = m.tag.toNat then act s q putR else s.discardInstall
  | none, none => s.discardInstall

/-- What can be sent is sent; a shard fault at a repair's source ends the repair (R249, R267). -/
def State.stream (s : State) (r : Reader) (q : List Send) (reads : List Check) (put : State → Option Reader → State) : State :=
  match s.pump r q reads with
  | (s, r, true) => put s (some r)
  | (s, r, false) => s.abortReader r stSHARD_FAULT 0x7FF

/-- ACCEPT: when every member has accepted, the payload streams (R257); a repair's source sends each shard as a REPAIR (R267). -/
def execInstallAccept (m : Msg) (s : State) (reads : List Check := []) : Res :=
  .next (s.instDeliver kACCEPT m fun s => s.asReader m fun s r put =>
    let fresh := r.silent
    let r := r.setPeer m fun p => { p with answered := true }
    if fresh && !r.silent then
      s.stream r (r.shards.zipIdx.flatMap fun h =>
        sendsOf h.1 (if r.isRepair then r.peers.head?.map (·.bit) else none) (r.isRepair || h.2 + 1 == r.shards.length)) reads put
    else put s (some r))

def execInstallRefuse (m : Msg) (s : State) : Res :=
  .next (s.instDeliver kREFUSE m fun s => s.asReader m fun s r _ =>
    if r.ended || r.committing then s else s.abortReader r m.status.toNat (msgModule m))

/-- CREDIT: more DATA may leave (R258). -/
def execInstallCredit (m : Msg) (s : State) (reads : List Check := []) : Res :=
  .next (s.instDeliver kCREDIT m fun s => s.asReader m fun s r put =>
    let r := r.setPeer m fun p => { p with credits := p.credits + field m.payload 0 4 }
    s.stream r r.queue reads put)

/-- COMMIT sent to the members that have not answered. -/
def State.sendCommit (s : State) (r : Reader) : State :=
  (r.peers.filter fun p => !p.committed).foldl (fun s p => s.instMsg kCOMMIT p.module r.tag stOK []) s

/-- REPORT (R259, R260): all VERIFIED brings COMMIT; a listed shard brings a repair, and its fifth failure the end. -/
def State.takeReport (s : State) (r : Reader) (m : Msg) (reads : List Check) (put : State → Option Reader → State) : State :=
  let bad := (pieces 2 (m.payload.length / 2) m.payload).map leNat
  if r.committing then s
  else if m.status = 0 && bad.isEmpty then
    let r := r.setPeer m fun p => { p with verified := true, reported := true }
    if r.peers.all (·.verified) then
      let r := { r with committing := true, begun := s.time.clk }
      let s := if r.isRepair then s.sendCommit r else s.instAll kCOMMIT r.tag Msg.blank
      put s (some r)
    else put s (some r)
  else
    let r := r.setPeer m fun p =>
      { p with reported := true, fails := bad.foldl (fun l n => putKey l n ((findKey l n).getD 0 + 1)) p.fails }
    match r.peers.find? fun p => p.module == msgModule m with
    | none => s
    | some p =>
      if p.fails.any (fun f => f.2 ≥ 5) then s.abortReader r stREPAIR_EXHAUSTED 0x7FF
      else
        let q := bad.flatMap fun n => match r.shards.find? (fun h => h.index == n) with
          | some h => sendsOf h (some p.bit) true
          | none => []
        s.stream r (r.queue ++ q) reads put

def execInstallReport (m : Msg) (s : State) (reads : List Check := []) : Res :=
  .next (s.instDeliver kREPORT m fun s => s.asReader m fun s r put => s.takeReport r m reads put)

/-- Every 10 ms (R260). -/
def State.resendCommit (s : State) (r : Reader) (put : State → Option Reader → State) : State :=
  if !r.committing then s
  else s.atTimer (r.begun + 10000000) fun s => put (s.sendCommit r) (some { r with begun := s.time.clk })

def execCommitResend (s : State) : Res :=
  .next (match s.vault.reader, s.vault.repair with
    | some r, _ => s.resendCommit r fun s r => s.setVault { s.vault with reader := r }
    | none, some r => s.resendCommit r fun s r => s.setVault { s.vault with repair := r }
    | none, none => s)

/-- COMMITTED (R260): when every member has answered, the installation completes. -/
def execInstallCommitted (m : Msg) (s : State) : Res :=
  .next (s.instDeliver kCOMMITTED m fun s => s.asReader m fun s r put =>
    let r := r.setPeer m fun p => { p with committed := true }
    if r.committing && r.peers.all (·.committed) then s.finishReader r stOK 0x7FF else put s (some r))

/-! ### Deletion, repair and synchronization (R264, R265, R267) -/

/-- An installation or repair of an entry is open. -/
def State.entryOpen (s : State) (c : CatEntry) : Bool :=
  (match s.vault.member with | some m => m.entry = c.index && !m.committed | none => false) ||
    (match s.vault.repair with | some r => r.entry = c.index | none => false)

/-- IMAGE_DELETE (R264). -/
def State.deleteImage (s : State) (j : Job) : State :=
  let a := j.cmd.args
  if !(argsZero a 20 24) then s.fail j stINVALID_FIELD
  else
    match s.entryOf (field a 0 16) (field a 16 4) with
    | none => s.fail j stNOT_FOUND
    | some c =>
      if c.bound ≠ 0 || s.entryOpen c then s.fail j stBUSY
      else
        let s := s.freeExtent c
        let s := s.setVault { s.vault with catalogue := s.vault.catalogue.filter (fun x => x.index ≠ c.index) }
        s.accept j (objImage s.fab.moduleNo c.index c.gen) (imageVal c c.state) (imageVal c 0) []

def execImageDelete (c : Cmd) (s : State) : Res := .next (s.command 0x31 c ⟨onlyPf, false, none, true⟩ State.deleteImage)

/-- SHARD_REPAIR at a source (R267). -/
def State.repairShards (s : State) (m : Msg) : State :=
  let bs := m.payload
  let names := (pieces 2 (field bs 24 2) (bs.drop 26)).map leNat
  let answer := fun (s : State) (st : Nat) => s.respond 0x33 m st []
  match s.entryOf (field bs 4 16) (field bs 20 4) with
  | none => answer s stNOT_FOUND
  | some c =>
    if c.state ≠ 3 || names.isEmpty || !(names.all fun n => c.kept.contains n && !(c.bad.contains n)) then answer s stINVALID_FIELD
    else if s.vault.repair.isSome || s.vault.reader.isSome then answer s stVAULT_BUSY
    else
      let target := field bs 0 2
      let tag := s.fab.moduleNo + 2 ^ 11 * (s.vault.tagNo % 2 ^ 21)
      let bitNo := memberBit (target / 8 % 16) (target % 8)
      let r : Reader :=
        { tag := tag, cqe := none, origin := 11, image := [], entry := c.index,
          shards := c.shards.filter (fun h => names.contains h.index), rows := c.rows, cols := c.cols, payload := 0,
          peers := [⟨bitNo, target, false, 0, false, false, false, []⟩], queue := [], seq := 0, begun := s.time.clk,
          timeout := s.time.clk + 600000 * 1000000, ended := false, committing := false, gen := c.gen, digest := c.digest }
      let s := s.setVault { s.vault with repair := some r, tagNo := s.vault.tagNo + 1 }
      answer (s.sendBegin r c.head (2 ^ bitNo) 600000 names) stOK

def execShardRepair (m : Msg) (s : State) : Res := .next (s.deliver 0x33 m fun s => s.repairShards m)

/-- What the appliance says of an image generation. -/
def rowOf (rows : List ApplianceRow) (id gen : Nat) : Option ApplianceRow :=
  rows.find? fun r => r.imageId.toNat == id && r.imageGen.toNat == gen && r.committed

/-- The open member of an entry that synchronization settles: a discarded entry takes it along, and one that it commits is past COMMIT
(R261, R265). -/
def State.settleMember (s : State) (c : CatEntry) (commit : Bool) : State :=
  match s.vault.member with
  | some x =>
    if x.entry ≠ c.index || x.committed then s
    else if commit then s.setVault { s.vault with member := some { x with committed := true }, reserved := [] }
    else s.closeMember x
  | none => s

/-- One entry compared with the appliance catalogue (R265). -/
def State.syncEntry (s : State) (rows : List ApplianceRow) (c : CatEntry) : State :=
  let me := s.fab.moduleNo
  match rowOf rows c.imageId c.gen with
  | none => if c.state = 1 || c.state = 2 then (s.settleMember c false).removeEntry 11 me c else s
  | some r =>
    if c.state = 2 then
      if leNat c.digest = r.digest.toNat then (s.settleMember c true).entryState 11 me { c with stamp := s.fullStamp } 3
      else (s.settleMember c false).removeEntry 11 me c
    else if c.state = 3 || c.state = 4 then
      let owed := (c.owed ++ s.missing c ++ c.bad).eraseDups
      if owed.isEmpty && !c.shards.isEmpty then s
      else if c.state = 4 then s.setEntry { c with owed := owed }
      else (s.setEntry { c with owed := owed }).entryState 11 me { c with owed := owed } 4
    else s

/-- A generation committed at this coordinate and absent here: an entry created as STALE, without a shard table: every shard of the
coordinate is owed, and named once the repair has brought the table (State.withTable). -/
def State.syncAbsent (s : State) (r : ApplianceRow) : State :=
  if !r.committed || (s.entryOf r.imageId.toNat r.imageGen.toNat).isSome then s
  else
    match s.freeEntry with
    | none => s
    | some e =>
      let c : CatEntry :=
        { index := e, imageId := r.imageId.toNat, gen := r.imageGen.toNat, state := 4, kind := 0, rank := 0, baseId := 0, rows := 0,
          cols := 0, shards := [], kept := [], bad := [], owed := [], bound := 0, digest := leBytes 32 r.digest.toNat, stamp := noStamp,
          staleRows := 0, extent := [], head := [] }
      (s.setVault { s.vault with catalogue := s.vault.catalogue ++ [c] }).hand 11 (objImage s.fab.moduleNo e c.gen) [] (imageVal c 4)

/-- The report of the COMMITTED entries that the appliance does not list (R265): IMAGE_ID and IMAGE_GEN of each (DESIGN CHOICE,
notes/assumptions/115.md). -/
def State.unlisted (s : State) (rows : List ApplianceRow) : List Byte :=
  (s.vault.catalogue.filter fun c => c.state = 3 && (rowOf rows c.imageId c.gen).isNone).flatMap fun c =>
    leBytes 16 c.imageId ++ leBytes 4 c.gen

/-- Catalogue synchronization (R265). -/
def State.sync (s : State) (rows : List ApplianceRow) : State :=
  rows.foldl State.syncAbsent (s.vault.catalogue.foldl (fun s c => s.syncEntry rows c) s)

def execCatalogueSync (m : Msg) (rows : List ApplianceRow) (s : State) : Res :=
  .next (s.deliver 0x34 m fun s => (s.sync rows).respond 0x34 m stOK (s.unlisted rows))

/-- A bus error ends an installation's reading of host memory (R412). -/
def State.busErrorInstall (s : State) : State :=
  match s.vault.reader with
  | some r => if r.committing then s else s.abortReader r stBUS_ERROR 0x7FF
  | none => s

end Sys2Proof.Machine
end

