-- ==== Sys2Proof/Machine/Encode.lean ====
section
/-! DEFINITION. The ENCODE actions, the dictionary store's loads, and MOVE COPY (05 R155 to R166, 06 R177 to R184, 08 R226). -/
namespace Sys2Proof.Machine

/-- EMIT (R155, R180). -/
def State.runEmit (s : State) (c : Context) (a : Act) (owners : List Word32) : State × List (Nat × List Word512) :=
  let o := encOp a.op.toNat
  let (s1, bs) := s.emitBlocks c o (s.encSources c o) owners
  let s1 := if s.fromDrain c o then s1.takeDrain c o else s1
  if o.edges then (s1, a.outs.map fun e => (e, bs.flatMap entries))
  else (s1.writeBlocks c.id.bead ⟨o.dst, o.count, o.slot⟩ 0 1 bs, a.zeroOuts)

def execEmit (b : BeadId) (owners : List Word32) (s : State) (word : Check := .ok) : Res :=
  .next (s.watched (·.action b (fun a => a.unit == 5 && a.op.toNat % 4 == 0)
    (wordPre word fun s c a => readsOnly (fun _ _ => s.encReads c (encOp a.op.toNat)) s c a) (fun s c a _ => s.runEmit c a owners)))

/-! ### Dictionary records (R178, R180, R183) -/

/-- What handing a record to the store came to. -/
inductive Handed where
  | loaded | waits | bad (b : Bad)
  deriving DecidableEq, Repr

/-- A record handed to the bead's store for a context (R178, R183). -/
def State.handRecord (s : State) (c : Context) (bs : List Byte) : Handed × State :=
  match readRecord bs with
  | .error e => (.bad e, s)
  | .ok r =>
    let x := s.bead c.id.bead
    let (l, p) := (x.dictPair c.id.ctx.val r.id).load r.gen r.width r.entries c.runs
    match l with
    | .loaded => (.loaded, s.setBead (x.setPair p))
    | .waits => (.waits, s.bump (rFrame c.id.bead.die.val 0xA0))
    | .refused => (.bad .format, s)

/-- A record that fails is handled like a failed block (R143, R178, R187); its place in the list of failures is its identifier's. Answers
whether one of that identifier has failed in the step before. -/
def State.badRecord (s : State) (c : Context) (bs : List Byte) (e : Bad) (inTile : Bool) : Bool × State :=
  s.badBlock c ⟨0x200000 + bits (field bs 0 8) 12 3, 0, [], false, inTile, e, bs⟩

/-- The record that the replayed stage of an input edge's producer builds again, from the dictionary of its step (R178, R180, R182). -/
def State.rebuilt (s : State) (c : Context) (edge id : Nat) : Option (List Byte) :=
  (s.arr.ctxs.filter fun p => p.valid && p.config == c.config).findSome? fun p =>
    if p.outs.any fun o => o.valid && o.bead == c.id.bead && bits o.desc.toNat 13 3 == edge then
      match nth none p.built id with
      | some es => if es.isEmpty then none else some (recordBytes id (nth 0 p.dictGen id) es)
      | none => none
    else none

/-- BUILD (R179, R180, R182): the entries of the pass; none where the step has built this identifier already. -/
def State.buildCodes (s : State) (c : Context) (o : EncOp) : Option (List Nat) :=
  match nth none c.built o.dictId with
  | some _ => none
  | none =>
    let w := watchOf c.watch.toNat
    let cs := (s.encSources c o).flatMap fun xs => (encodeBlock 127 c.thresh.toNat w.sup xs).flatMap (·.codes)
    some ((dictCodes cs).map (unsgn 8))

/-- BUILD to the bead's own store waits while the store finds no slot (R183). -/
def State.buildPre (s : State) (c : Context) (a : Act) : Option (List (Nat × Nat)) × State :=
  let o := encOp a.op.toNat
  if s.awaits c (s.encReads c o) then (none, s)
  else
    match s.buildCodes c o with
    | some es =>
      if o.edges || es.isEmpty then (some a.takes, s)
      else
        match s.handRecord c (recordBytes o.dictId ((nth 0 c.dictGen o.dictId + 1) % 2 ^ 32) es) with
        | (.waits, s) => (none, s)
        | (.bad e, _) => (some a.takes, (s.badRecord c (recordBytes o.dictId ((nth 0 c.dictGen o.dictId + 1) % 2 ^ 32) es) e false).2)
        | (.loaded, s) => (some a.takes, s)
    | none => (some a.takes, s)

/-- The record sent, and the generation counted (R180). -/
def State.runBuild (s : State) (c : Context) (a : Act) : State × List (Nat × List Word512) :=
  let o := encOp a.op.toNat
  let d := c.id.bead.die.val
  match s.buildCodes c o with
  | none => (s.bump (rFrame d 0x98), [])
  | some es =>
    let c := s.fresh_ c
    if es.isEmpty then (s.setCtx { c with built := setNth c.built o.dictId (some []) }, [])
    else
      let gen := (nth 0 c.dictGen o.dictId + 1) % 2 ^ 32
      let s := (s.setCtx { c with built := setNth c.built o.dictId (some es), dictGen := setNth c.dictGen o.dictId gen }).bump
        (rFrame d 0x90)
      (s, if o.edges then a.outs.map fun e => (e, entries (recordBytes o.dictId gen es)) else [])

def execBuild (b : BeadId) (s : State) (word : Check := .ok) : Res :=
  .next (s.watched (·.action b (fun a => a.unit == 5 && a.op.toNat % 4 == 1) (wordPre word State.buildPre)
    (fun s c a _ => s.runBuild c a)))

/-- A record handed to a context's store, and what follows where it fails. -/
def State.tryRecord (s : State) (c : Context) (bs : List Byte) (fromTile : Bool) : State :=
  match s.handRecord c bs with
  | (.bad e, s) => (s.badRecord c bs e fromTile).2
  | (_, s) => s

/-- A record handed to the store from outside an action: a reader's edge, or a tile (R178, R183). Where it fails, the stage that produced
it is replayed, or the tier it was installed from is read again: the record comes by the next command of this name. -/
def State.recordIn (s : State) (id : CtxId) (record : Word512) (fromTile : Bool) : State :=
  match s.ctx id with
  | none => s
  | some c => s.tryRecord c (leBytes 64 record.toNat) fromTile

def execDictionaryRecordLoad (c : CtxId) (record : Word512) (fromTile : Bool) (s : State) : Res :=
  .next (s.watched (·.recordIn c record fromTile))

/-! ### MOVE COPY (R226) -/

/-- The operand of a COPY. -/
structure CopyOp where
  toTile : Bool
  blocks : Bool
  z      : Nat
  addr   : Nat
  idx    : Nat
  stride : Nat
  deriving DecidableEq, Repr

def copyOp (v : Nat) : CopyOp :=
  { toTile := bit v 2, blocks := bit v 3, z := if bit v 4 then 192 else 128, addr := bits v 5 15 * 64, idx := bits v 20 4,
    stride := bits v 24 12 * 64 }

/-- The first byte moved; the index is read before the action's own counter update. -/
def CopyOp.first (o : CopyOp) (c : Context) : Nat := (o.addr + (c.counter o.idx).value * o.stride) % 0x200000

/-- Entries of a head: one for a record, ⌈LEN ÷ 64⌉ for a block (R180, R226). -/
def unitEntries (e : EdgeEntry) : Nat :=
  let h := e.data.toNat
  if bits h 0 2 = 3 then 1 else max 1 (cdiv (bits h 32 16) 64)

/-- A stream of entries cut into the blocks and records that are complete, and the entries of the last one where it is not. -/
def cutUnits : Nat → List EdgeEntry → List (List EdgeEntry) × List EdgeEntry
  | 0, q => ([], q)
  | f + 1, q =>
    match q with
    | [] => ([], [])
    | e :: _ =>
      let k := unitEntries e
      if q.length < k then ([], q)
      else let r := cutUnits f (q.drop k); (q.take k :: r.1, r.2)

/-- The bytes of a unit, cut to a block's LEN. -/
def unitBytes (es : List EdgeEntry) : List Byte :=
  let bs := es.flatMap fun e => leBytes 64 e.data.toNat
  if bits (field bs 0 8) 0 2 = 3 then bs else bs.take (bits (field bs 0 8) 32 16)

/-- A dictionary record, as its MODE says (R178). -/
def isRecord (u : List Byte) : Bool := bits (field u 0 8) 0 2 = 3

/-- The units that a COPY of blocks completes with `got` from an edge, and the entries left of one that it does not complete. -/
def Context.units (c : Context) (e : Nat) (got : List EdgeEntry) : List (List EdgeEntry) × List EdgeEntry :=
  let before := match (c.inEdge e).part with | some p => p.entries | none => []
  cutUnits 32 (before ++ got)

/-- The region that a copied block's slot belongs to: the activation region of the context's MATRIX that holds the address, otherwise
the slots of this transfer (R174; log 22). -/
def Context.copyRegion (c : Context) (first z n : Nat) : Region :=
  match c.acts.findSome? (fun a =>
    let o := matOp a.op.toNat
    let r : Region := ⟨o.aOff, o.kblk * o.active (engineOf c.engine.toNat), z⟩
    if a.unit = 1 && r.x ≤ first && first < r.x + r.b * r.z then some r else none) with
  | some r => r
  | none => ⟨first, n, z⟩

/-- A record of an edge handed to the store (R178, R183): where it fails for the first time in the step, the one that the replayed stage
builds again takes its place; none where no slot is free. -/
def State.handEdge (s : State) (c : Context) (edge : Nat) (u : List Byte) : Option State :=
  match s.handRecord c u with
  | (.waits, _) => none
  | (.loaded, s) => some s
  | (.bad e, s) =>
    match s.badRecord c u e false, s.rebuilt c edge (bits (field u 0 8) 12 3) with
    | (false, s), some v =>
      match s.handRecord c v with
      | (.waits, _) => none
      | (.loaded, s) => some s
      | (.bad e, s) => some (s.badRecord c v e false).2
    | (_, s), _ => some s

/-- Dictionary records of the edges handed to the store in stream order (R183); none where one of them finds no free slot. -/
def State.handAll (s : State) (c : Context) : List (Nat × List Byte) → Option State
  | [] => some s
  | u :: us => (s.handEdge c u.1 u.2).bind fun s => s.handAll c us

/-- A COPY waits for its ranges, and for a slot for every dictionary record that it completes (R183, R226). -/
def State.copyPre (s : State) (c : Context) (a : Act) : Option (List (Nat × Nat)) × State :=
  let o := copyOp a.op.toNat
  if !o.toTile then
    (if s.awaits c [(o.first c, a.outs.length * a.outCount * 64)] then none else some a.takes, s)
  else if !o.blocks then (some a.takes, s)
  else
    let recs := (a.ins.flatMap fun e => (c.units e ((c.inEdge e).queue.take a.inCount)).1.map fun u => (e, unitBytes u)).filter fun p => isRecord p.2
    match s.handAll c recs with
    | none => (none, s.bump (rFrame c.id.bead.die.val 0xA0))
    | some s => (some a.takes, s)

/-- Entries written edge by edge in 64-byte places. -/
def State.copyIn (s : State) (c : Context) (o : CopyOp) (got : List (Nat × List EdgeEntry)) : State :=
  s.tileWrite c.id.bead (o.first c) (got.flatMap fun g => g.2.flatMap fun e => leBytes 64 e.data.toNat)

/-- Where the next block of a COPY goes, and where the one in hand goes on. -/
structure Placing where
  s    : State
  slot : Nat

/-- One edge's part of a COPY of blocks: each block that it completes is written to its slot, and one that it does not complete keeps the
slot it has (R226; notes/assumptions/22.md). -/
def Placing.edge (p : Placing) (cid : CtxId) (r : Region) (e : Nat) (got : List EdgeEntry) : Placing :=
  match p.s.ctx cid with
  | none => p
  | some c =>
    let old := (c.inEdge e).part
    let (us, rest) := c.units e got
    let place : RegionPart := match old with | some q => q | none => ⟨[], r.x, r.b, r.z, p.slot⟩
    let taken := if old.isSome then 0 else 1
    let write := fun (s : State) (x : RegionPart) (u : List EdgeEntry) =>
      let g : Region := ⟨x.x, x.b, x.z⟩
      s.writeBlocks cid.bead g x.slot (s.extBefore cid.bead g x.slot + 1) [unitBytes u]
    let go := fun (q : Placing × RegionPart × Nat) (u : List EdgeEntry) =>
      let next := q.1.slot + q.2.2
      if isRecord (unitBytes u) then q
      else (⟨write q.1.s q.2.1 u, next⟩, (⟨[], r.x, r.b, r.z, next⟩ : RegionPart), 1)
    let done := us.foldl go (p, place, taken)
    let x := done.2.1
    let s := done.1.s
    let c := (s.ctx cid).getD c
    let part := if rest.isEmpty then none else some { x with entries := rest }
    ⟨s.setCtx { c with ins := setNth c.ins e { c.inEdge e with part := part } },
      if rest.isEmpty then done.1.slot else done.1.slot + done.2.2⟩

/-- Blocks written slot by slot, edge by edge; the dictionary records have gone to the store. -/
def State.copyBlocks (s : State) (c : Context) (a : Act) (o : CopyOp) (got : List (Nat × List EdgeEntry)) : State :=
  let first := o.first c
  let r := c.copyRegion first o.z (a.ins.length * a.inCount)
  (got.foldl (fun p g => p.edge c.id r g.1 g.2) (⟨s, (first - r.x) / r.z⟩ : Placing)).s

/-- COPY's effect. -/
def State.runCopy (s : State) (c : Context) (a : Act) (got : List (Nat × List EdgeEntry)) : State × List (Nat × List Word512) :=
  let o := copyOp a.op.toNat
  if o.toTile then
    (if o.blocks then s.copyBlocks c a o got else s.copyIn c o got, a.zeroOuts)
  else
    let base := o.first c
    (s, a.outs.zipIdx.map fun p =>
      (p.1, (List.range a.outCount).map fun i =>
        BitVec.ofNat 512 (leNat (s.tileRead c.id.bead (base + (p.2 * a.outCount + i) * 64) 64))))

def execCopy (b : BeadId) (s : State) (word : Check := .ok) : Res :=
  .next (s.watched (·.action b (fun a => a.unit == 3 && a.op.toNat % 4 == 0) (wordPre word State.copyPre) State.runCopy))

end Sys2Proof.Machine
end

