-- ==== Sys2Proof/Machine/Vector.lean ====
section
/-! DEFINITION. The vector unit (04 R144 to R148). An element is held as its FP32, INT32 or BF16 bits; a BF16 element is widened
before FP32 arithmetic and rounded once after it. -/
namespace Sys2Proof.Machine

/-- The operand of a VECTOR action (R146). -/
structure VecOp where
  op    : Nat
  fmt   : Nat
  a     : Nat
  b     : Nat
  dst   : Nat
  count : Nat
  bcast : Bool
  deriving DecidableEq, Repr

def vecOp (v : Nat) : VecOp :=
  { op := bits v 0 8, fmt := bits v 8 2, a := bits v 10 15 * 64, b := bits v 25 15 * 64, dst := bits v 40 15 * 64,
    count := if bits v 55 8 = 0 then 256 else bits v 55 8, bcast := bit v 63 }

/-- Bytes of an element of a format. -/
def elemBytes (fmt : Nat) : Nat := if fmt = 1 then 2 else 4
/-- Elements of a vector of 128 bytes. -/
def perVector (fmt : Nat) : Nat := if fmt = 1 then 64 else 32

/-- `n` elements at a bead-local offset. -/
def State.elems (s : State) (b : BeadId) (fmt off n : Nat) : List Nat :=
  (pieces (elemBytes fmt) n (s.tileRead b off (n * elemBytes fmt))).map leNat

/-- Elements as bytes. -/
def elemsOut (fmt : Nat) (vs : List Nat) : List Byte := vs.flatMap (leBytes (elemBytes fmt))

/-- A value of a float format, decoded. -/
def vdec (fmt v : Nat) : FV := if fmt = 1 then bf16.decode v else fp32.decode v
/-- The float format of FMT 0 or 1. -/
def vfmt (fmt : Nat) : Fmt := if fmt = 1 then bf16 else fp32
/-- An element widened to FP32 (R144). -/
def widen (fmt v : Nat) : Nat := if fmt = 1 then bf16wide v else v
/-- An FP32 result rounded to the format (R144). -/
def narrow (fmt v : Nat) : Nat := if fmt = 1 then bf16round v else v

/-- Signed maximum and minimum of INT32 values (R147). -/
def i32max (a b : Nat) : Nat := if sgn 32 a < sgn 32 b then b else a
def i32min (a b : Nat) : Nat := if sgn 32 b < sgn 32 a then b else a

/-- A two-operand elementwise operation; `d` is the destination element of FMA (R144, R146). -/
def elementwise (op fmt a b d : Nat) : Nat :=
  if fmt = 2 then
    let z : Int := if op = 1 then sgn 32 a + sgn 32 b else if op = 2 then sgn 32 a - sgn 32 b else sgn 32 a * sgn 32 b
    if op = 5 then i32max a b else if op = 6 then i32min a b else unsgn 32 z
  else
    let x := vdec fmt a
    let y := vdec fmt b
    let f := vfmt fmt
    if op = 1 then f.encode (x.add y)
    else if op = 2 then f.encode (x.add y.neg)
    else if op = 3 then f.encode (x.mul y)
    else if op = 4 then f.encode ((x.mul y).add (vdec fmt d))
    else if op = 5 then narrow fmt (f32max (widen fmt a) (widen fmt b))
    else narrow fmt (f32min (widen fmt a) (widen fmt b))

/-- EXP, EXP2, LOG2, RCP, SQRT, RSQRT (R145). -/
def elementary (op fmt a : Nat) : Nat :=
  let f := vfmt fmt
  let x := vdec fmt a
  if op = 7 then f.exp x
  else if op = 8 then f.exp2 x
  else if op = 9 then f.log2 x
  else if op = 10 then f.div (.fin false 1 0) x
  else if op = 11 then f.sqrt x
  else f.rsqrt x

/-- RCP of an FP32 value. -/
def f32rcp (a : Nat) : Nat := fp32.div (.fin false 1 0) (fp32.decode a)

/-! ### Reductions (R147) -/

/-- One level of the pairwise tree. -/
def pairSums : List Nat → List Nat
  | a :: b :: l => f32add a b :: pairSums l
  | l => l

/-- The pairwise tree of a vector of at most 2^n FP32 values. -/
def treeSum : Nat → List Nat → Nat
  | 0, l => l.headD 0
  | n + 1, l => treeSum n (pairSums l)

/-- RSUM of FP32 values taken as vectors of `k` elements. -/
def rsum (k count : Nat) (vs : List Nat) : Nat :=
  match (pieces k count vs).map (treeSum 6) with
  | [] => 0
  | t :: ts => ts.foldl f32add t

/-- RMAX of FP32 values. -/
def rmax : List Nat → Nat
  | [] => 0
  | v :: vs => if vs.isEmpty then (if f32isNan v then fp32.nan else v) else vs.foldl f32max v

/-! ### Compound operations (R148) -/

/-- SOFTMAX over FP32 values in vectors of `k`. -/
def softmax (k count : Nat) (xs : List Nat) : List Nat :=
  let m := rmax xs
  if f32isNan m then xs.map fun _ => fp32.nan
  else if m = 0xFF800000 then xs.map fun _ => 0
  else
    let ys := xs.map fun x => fp32.exp (fp32.decode (f32sub x m))
    let r := f32rcp (rsum k count ys)
    ys.map fun y => f32mul y r

/-- 1 ÷ sqrt of the mean of squares plus ε. -/
def rmsScale (k count : Nat) (xs : List Nat) (eps : Nat) : Nat :=
  let q := f32div (rsum k count (xs.map fun x => f32mul x x)) (f32ofNat (k * count))
  fp32.rsqrt (fp32.decode (f32add q eps))

/-- RMSNORM. -/
def rmsnorm (k count : Nat) (xs : List Nat) (eps : Nat) : List Nat :=
  if xs.any f32isNan || f32isNan eps then xs.map fun _ => fp32.nan
  else
    let r := rmsScale k count xs eps
    xs.map fun x => f32mul x r

/-- LAYERNORM. -/
def layernorm (k count : Nat) (xs : List Nat) (eps : Nat) : List Nat :=
  if xs.any f32isNan || f32isNan eps then xs.map fun _ => fp32.nan
  else
    let mu := f32div (rsum k count xs) (f32ofNat (k * count))
    let ds := xs.map fun x => f32sub x mu
    let r := rmsScale k count ds eps
    ds.map fun d => f32mul d r

/-! ### The action (R146) -/

/-- The operation has two sources. -/
def VecOp.two (o : VecOp) : Bool := o.op ≤ 6 || o.op = 0x21 || o.op = 0x22

/-- The ranges a VECTOR action reads. -/
def VecOp.reads (o : VecOp) : List (Nat × Nat) :=
  [(o.a, o.count * 128)] ++ (if o.two then [(o.b, if o.bcast || o.op > 6 then 4 else o.count * 128)] else []) ++
    (if o.op = 4 then [(o.dst, o.count * 128)] else [])

/-- The range a VECTOR action writes: one vector for a reduction, for a conversion to BF16 or from it half as many or twice as many as it
reads (R146). -/
def VecOp.writes (o : VecOp) : Nat × Nat :=
  let n := if 0x10 ≤ o.op && o.op ≤ 0x12 then 1
    else if o.op = 0x18 && o.fmt = 1 then 2 * o.count
    else if o.op = 0x19 then cdiv o.count 2
    else o.count
  (o.dst, n * 128)

/-- The operation is defined and takes the format (R146). -/
def VecOp.defined (o : VecOp) : Bool :=
  let op := o.op
  let float := decide (o.fmt ≤ 1)
  if op = 1 || op = 2 || op = 3 || op = 5 || op = 6 || op = 0x11 then o.fmt ≤ 2
  else if op = 0x18 then o.fmt = 1 || o.fmt = 2
  else if op = 0x19 || op = 0x1A then o.fmt = 0
  else float && (op = 4 || (7 ≤ op && op ≤ 0x0C) || op = 0x10 || op = 0x12 || (0x20 ≤ op && op ≤ 0x22))

/-- A scalar result as a vector: element 0, and +0.0 elsewhere. -/
def scalarOut (fmt v : Nat) : List Byte := fit 128 (elemsOut fmt [v])

/-- The bytes a VECTOR action writes at DST. -/
def State.vecOut (s : State) (b : BeadId) (o : VecOp) : List Byte :=
  let k := perVector o.fmt
  let n := o.count * k
  let xs := s.elems b o.fmt o.a n
  let wide := xs.map (widen o.fmt)
  let eps := widen o.fmt ((s.elems b o.fmt o.b 1).headD 0)
  let fl := fun vs => elemsOut o.fmt (vs.map (narrow o.fmt))
  if o.op ≤ 6 then
    let ys := if o.bcast then List.replicate n ((s.elems b o.fmt o.b 1).headD 0) else s.elems b o.fmt o.b n
    let ds := s.elems b o.fmt o.dst n
    elemsOut o.fmt ((xs.zip (ys.zip ds)).map fun p => elementwise o.op o.fmt p.1 p.2.1 p.2.2)
  else if o.op ≤ 12 then elemsOut o.fmt (xs.map (elementary o.op o.fmt))
  else if o.op = 0x10 then scalarOut o.fmt (narrow o.fmt (rsum k o.count wide))
  else if o.op = 0x11 then
    scalarOut o.fmt (if o.fmt = 2 then (xs.drop 1).foldl i32max (xs.headD 0) else narrow o.fmt (rmax wide))
  else if o.op = 0x12 then scalarOut o.fmt (narrow o.fmt (rsum k o.count (wide.map fun x => f32mul x x)))
  else if o.op = 0x18 then elemsOut 0 (xs.map fun x => if o.fmt = 2 then i32toF32 x else bf16wide x)
  else if o.op = 0x19 then fit (cdiv o.count 2 * 128) (elemsOut 1 (xs.map bf16round))
  else if o.op = 0x1A then elemsOut 2 (xs.map f32toI32)
  else if o.op = 0x20 then fl (softmax k o.count wide)
  else if o.op = 0x21 then fl (rmsnorm k o.count wide eps)
  else fl (layernorm k o.count wide eps)

def execVector (b : BeadId) (s : State) (word : Check := .ok) : Res :=
  .next (s.watched (·.action b (fun a => a.unit == 2) (wordPre word (readsOnly fun _ a => (vecOp a.op.toNat).reads))
    (fun s c a _ =>
      let o := vecOp a.op.toNat
      (s.tileWrite c.id.bead o.dst (s.vecOut c.id.bead o), a.zeroOuts))))

end Sys2Proof.Machine
end

