-- ==== Sys2Proof/Machine/Experts.lean ====
section
/-! DEFINITION. Routing tables, choices, capacity and combination: SELECT, DISPATCH and COMBINE, and the load areas (07 R190 to
R209). -/
namespace Sys2Proof.Machine

/-! ### Operands and tables (R190, R195, R196, R210) -/

/-- The operand of MOVE forms 1 to 3 (R195). -/
structure ExpOp where
  route : Nat
  rows  : Nat
  src   : Nat
  dst   : Nat
  last  : Nat
  deriving DecidableEq, Repr

def expOp (v : Nat) : ExpOp :=
  { route := bits v 2 8, rows := if bits v 10 10 = 0 then 1024 else bits v 10 10, src := bits v 20 15 * 64, dst := bits v 35 15 * 64,
    last := bits v 50 8 }

/-- The routing table a context's step has bound, with its generation; the current one where no step runs (R210). -/
def State.route (s : State) (c : Context) (id : Nat) : Option (GenSlot RouteTable) :=
  match findKey (s.inst (s.cfgInst c.config)).routes id with
  | none => none
  | some g =>
    match s.ctxStep c with
    | some r => match findKey r.routes id with | some gen => g.slot gen | none => g.current
    | none => g.current

/-- Live rows (R196). -/
def Context.live (c : Context) (a : Act) (o : ExpOp) : Nat := min o.rows (c.counter a.ctr).value

/-- Bytes of a score row (R197). -/
def scoreRow (e : Nat) : Nat := cdiv (4 * e) 64 * 64

/-- A choice (R194). -/
structure Choice where
  expert  : Nat
  replica : Nat
  slot    : Nat
  dropped : Bool
  weight  : Nat
  deriving DecidableEq, Repr

def Choice.word (c : Choice) : Nat :=
  c.expert + c.replica * 2 ^ 13 + c.slot * 2 ^ 16 + flag c.dropped * 2 ^ 28 + c.weight * 2 ^ 32

def choiceOf (w : Nat) : Choice := ⟨bits w 0 13, bits w 13 3, bits w 16 12, bit w 28, bits w 32 32⟩

def Choice.none : Choice := ⟨0x1FFF, 0, 0, false, 0⟩

/-- A kept choice (R200, R206). -/
def Choice.kept (c : Choice) : Bool := c.expert ≠ 0x1FFF && !c.dropped

/-! ### SELECT (R197) -/

/-- Expert a ranks before expert b: greater score, then lower index; NaN last, −0.0 equal to +0.0. -/
def ranksBefore (a b : Nat × Nat) : Bool :=
  let key := fun x : Nat => if x % 2 ^ 31 = 0 then (0 : Int) else f32key x
  if f32isNan a.1 then f32isNan b.1 && a.2 ≤ b.2
  else if f32isNan b.1 then true
  else key b.1 < key a.1 || (key a.1 == key b.1 && a.2 ≤ b.2)

/-- Finite and nonzero. -/
def usable (x : Nat) : Bool := f32finite x && x % 2 ^ 31 ≠ 0

/-- Weights scaled by the reciprocal of their rank-order sum, where that is finite and nonzero (R197, R200). -/
def normalize (ws : List Nat) : List Nat :=
  match ws with
  | [] => []
  | w :: rest =>
    let sum := rest.foldl f32add w
    if usable sum then ws.map fun x => f32mul x (f32rcp sum) else ws

/-- A score row's choices. -/
def selectRow (t : RouteTable) (scores : List Nat) : List Choice :=
  let best := (scores.zipIdx.mergeSort ranksBefore).take t.k
  let ws := if t.normTopk then normalize (best.map (·.1)) else best.map (·.1)
  let cs := (best.zip ws).map fun p => (⟨p.1.2, 0, 0, false, p.2⟩ : Choice)
  cs ++ List.replicate (8 - cs.length) Choice.none

/-- SELECT. -/
def State.runSelect (s : State) (c : Context) (a : Act) : State :=
  let o := expOp a.op.toNat
  match s.route c o.route with
  | none => s
  | some t =>
    let e := t.val.experts.length
    let b := c.id.bead
    (List.range (c.live a o)).foldl (fun s m =>
      let row := selectRow t.val (s.elems b 0 (o.src + m * scoreRow e) e)
      s.tileWrite b (o.dst + m * 64) (row.flatMap fun x => leBytes 8 x.word)) s

/-- The score rows that a SELECT reads. -/
def State.selectReads (s : State) (c : Context) (a : Act) : List (Nat × Nat) :=
  let o := expOp a.op.toNat
  let e := match s.route c o.route with | some t => t.val.experts.length | none => 0
  [(o.src, c.live a o * scoreRow e)]

def execSelect (b : BeadId) (s : State) (word : Check := .ok) : Res :=
  .next (s.watched (·.action b (fun a => a.unit == 3 && a.op.toNat % 4 == 1)
    (wordPre word fun s c a => readsOnly s.selectReads s c a) (fun s c a _ => (s.runSelect c a, []))))

/-! ### DISPATCH (R198 to R201, R208) -/

/-- The replica of a row's choice (R199); `n` is the number of replicas. -/
def replicaOf (req pos layer e n : Nat) : Nat :=
  let m := fun x y : Nat => (x * y) % 2 ^ 32
  let h := m req 0x9E3779B1 ^^^ m pos 0x85EBCA77 ^^^ m e 0xC2B2AE3D ^^^ layer
  let h := h ^^^ (h / 2 ^ 15)
  h * n / 2 ^ 32

/-- A dispatch under way: the choice rows, the fill counters by replica descriptor, grants and drops by expert. -/
structure Dispatching where
  rows   : List (List Choice)
  fill   : List Nat
  grants : List Nat
  drops  : List Nat
  lost   : List Nat
  count  : Nat
  deriving DecidableEq, Repr

/-- A dropped choice; its expert's drop is counted where the expert exists. -/
def Dispatching.drop (x : Dispatching) (m r q : Nat) (c : Choice) : Dispatching :=
  { x with rows := modNth x.rows m fun row => setNth row r { c with replica := q, slot := 0, dropped := true },
           drops := modNth x.drops c.expert (· + 1), lost := if x.lost.contains m then x.lost else x.lost ++ [m],
           count := x.count + 1 }

/-- One entry of the pass (R198). -/
def Dispatching.entry (x : Dispatching) (t : RouteTable) (keys : List (Nat × Nat)) (m r : Nat) : Dispatching :=
  let row := nth [] x.rows m
  let c := nth Choice.none row r
  let n := t.experts.length
  if c.expert = 0x1FFF then x
  else if c.expert ≥ n || (row.take r).any (fun d => d.expert == c.expert) then x.drop m r 0 c
  else
    let ex := nth ⟨1, 0, 0⟩ t.experts c.expert
    let key := nth (0, 0) keys m
    let q := replicaOf key.1 key.2 t.layer c.expert ex.nrep
    let slot := nth 0 x.fill (ex.base + q)
    if slot < ex.cap then
      { x with rows := modNth x.rows m fun row => setNth row r { c with replica := q, slot := slot, dropped := false },
               fill := setNth x.fill (ex.base + q) (slot + 1), grants := modNth x.grants c.expert (· + 1) }
    else x.drop m r q c

/-- Kept choices of a row renormalized in rank order (R200). -/
def renormRow (k : Nat) (row : List Choice) : List Choice :=
  let kept := (row.take k).filter Choice.kept
  let ws := normalize (kept.map (·.weight))
  let new := (kept.zip ws).map fun p => { p.1 with weight := p.2 }
  row.map fun c => if c.kept then (new.find? (fun d => d.expert == c.expert)).getD c else c

/-- The whole of R198's order over the live rows. -/
def dispatchRows (t : RouteTable) (rows : List (List Choice)) (keys : List (Nat × Nat)) : Dispatching :=
  let start : Dispatching :=
    { rows := rows, fill := List.replicate t.replicas.length 0, grants := List.replicate t.experts.length 0,
      drops := List.replicate t.experts.length 0, lost := [], count := 0 }
  let x := (List.range t.k).foldl (fun x r => (List.range rows.length).foldl (fun x m => x.entry t keys m r) x) start
  if t.renorm then { x with rows := x.rows.map (renormRow t.k) } else x

/-- The rows of a choice list. -/
def State.choiceRows (s : State) (b : BeadId) (off n : Nat) : List (List Choice) :=
  (List.range n).map fun m => (pieces 8 8 (s.tileRead b (off + m * 64) 64)).map fun w => choiceOf (leNat w)

/-- Common-store offset of a bank of a table's load area (R190, R208). -/
def State.loadBank (s : State) (inst : Nat) (t : RouteTable) (bank : Nat) : Nat :=
  (s.inst inst).csBase * 4096 + t.loadOff * 4096 + bank * 8 * t.experts.length

/-- Grants and drops added into the bank of the issue's beat (R208). -/
def State.addLoads (s : State) (inst : Nat) (t : RouteTable) (x : Dispatching) : State :=
  let a := mpaCs (s.loadBank inst t (s.time.beat % 2))
  (x.grants.zip x.drops).zipIdx.foldl (fun s p =>
    if p.1.1 = 0 && p.1.2 = 0 then s
    else
      let w := field (s.load (a + 8 * p.2) 8) 0 8
      let g := (bits w 0 32 + p.1.1) % 2 ^ 32
      let d := (bits w 32 32 + p.1.2) % 2 ^ 32
      s.storeAt (a + 8 * p.2) (leBytes 8 (g + d * 2 ^ 32))) s

/-- The loads of a DISPATCH reach the load area by merged writes of the memory port; a merge whose reads fail for good writes nothing and
fails the step (R208, R217, R220). -/
def State.mergeLoads (s : State) (c : Context) (t : RouteTable) (x : Dispatching) (merge : List Check) : State :=
  let i := s.cfgInst c.config
  let a := mpaCs (s.loadBank i t (s.time.beat % 2))
  match s.hubRead a (0, 0) merge with
  | (none, s) => s.addLoads i t x
  | (some _, s) => s.failConfig c.config stTILE_CHECK_FAULT

/-- DISPATCH. -/
def State.runDispatch (s : State) (c : Context) (a : Act) (merge : List Check) : State :=
  let o := expOp a.op.toNat
  match s.route c o.route with
  | none => s
  | some t =>
    let b := c.id.bead
    let l := c.live a o
    let keys := (List.range l).map fun m =>
      let w := s.tileRead b (o.dst + m * 8) 8
      (field w 0 4, field w 4 4)
    let x := dispatchRows t.val (s.choiceRows b o.src l) keys
    let s := s.tileWrite b o.src (x.rows.flatMap fun row => row.flatMap fun d => leBytes 8 d.word)
    let s := s.tileWrite b (o.src + o.rows * 64) (x.fill.flatMap (leBytes 2))
    let s := (s.mergeLoads c t.val x merge).bumpBy (rFrame b.die.val 0xA8) x.count
    let lost := x.lost.map fun m => (nth (0, 0) keys m).1
    let s := s.onCtxStep c fun r => { r with seqs := r.seqs.map fun q => if lost.contains q.req.toNat then { q with drop := true } else q }
    match s.ctx c.id with
    | some c => s.setCtx { c with dispatched := if c.dispatched.contains o.route then c.dispatched else c.dispatched ++ [o.route] }
    | none => s

/-- What a DISPATCH reads: choices, and the keys of their rows. -/
def dispatchReads (c : Context) (a : Act) : List (Nat × Nat) :=
  let o := expOp a.op.toNat
  [(o.src, c.live a o * 64), (o.dst, c.live a o * 8)]

/-- `merge` says how the reads come out that its write to the load area merges with (R208, R217). -/
def execDispatch (b : BeadId) (s : State) (word : Check := .ok) (merge : List Check := []) : Res :=
  .next (s.watched (·.action b (fun a => a.unit == 3 && a.op.toNat % 4 == 2) (wordPre word (readsOnly dispatchReads))
    (fun s c a _ => (s.runDispatch c a merge, []))))

/-! ### COMBINE (R205, R206) -/

/-- First byte of a source's return area (R205). -/
def returnArea (choice rows replicas : Nat) : Nat := cdiv (choice + rows * 64 + 2 * replicas) 64 * 64

/-- One row's combined output over `n` elements (R206). -/
def State.combineRow (s : State) (b : BeadId) (ret k n m : Nat) (row : List Choice) : List Nat :=
  let kept := (row.zipIdx.filter fun p => p.1.kept && p.2 < k).mergeSort fun p q => p.1.expert ≤ q.1.expert
  kept.foldl (fun acc p =>
    let ys := s.elems b 0 (ret + (m * k + p.2) * n * 4) n
    (acc.zip ys).map fun q => f32add q.1 (f32mul p.1.weight q.2)) (List.replicate n 0)

/-- COMBINE. -/
def State.runCombine (s : State) (c : Context) (a : Act) : State :=
  let o := expOp a.op.toNat
  match s.route c o.route with
  | none => s
  | some t =>
    let b := c.id.bead
    let l := c.live a o
    let n := (if o.last = 0 then 256 else o.last) * 32
    let ret := returnArea o.src o.rows t.val.replicas.length
    let outs := (s.choiceRows b o.src l).zipIdx.map fun p => s.combineRow b ret t.val.k n p.2 p.1
    s.tileWrite b o.dst (outs.flatMap fun v => v.flatMap (leBytes 4))

/-- What a COMBINE reads: choices, and the return area. -/
def State.combineReads (s : State) (c : Context) (a : Act) : List (Nat × Nat) :=
  let o := expOp a.op.toNat
  let (k, reps) := match s.route c o.route with | some t => (t.val.k, t.val.replicas.length) | none => (0, 0)
  let n := (if o.last = 0 then 256 else o.last) * 128
  [(o.src, c.live a o * 64), (returnArea o.src o.rows reps, c.live a o * k * n)]

def execCombine (b : BeadId) (s : State) (word : Check := .ok) : Res :=
  .next (s.watched (·.action b (fun a => a.unit == 3 && a.op.toNat % 4 == 3)
    (wordPre word fun s c a => readsOnly s.combineReads s c a) (fun s c a _ => (s.runCombine c a, []))))

end Sys2Proof.Machine
end

