-- ==== Sys2Proof/Machine/Records.lean ====
section
/-! DEFINITION. The table records of R343 as bytes: schedules, slot tables, prefetch lists, collective descriptors, step budgets,
routing tables, sampler records, installed dictionaries and configurations, each with the checks of its own chapter (R66 to R69, R73,
R74, R86, R97, R141, R153, R178, R181, R190 to R193, R196, R224, R228, R318, R347, R348, R354, R370 to R372). -/
namespace Sys2Proof.Machine

/-! ### Records (R343) -/

/-- One record: its head and its table. -/
structure Rec where
  type  : Nat
  stack : Nat
  id    : Nat
  table : List Byte
  deriving DecidableEq, Repr

/-- The records of a shard or a parameter block; none where a head breaks R343 or the bytes end inside a record. -/
def splitRecs : Nat → List Byte → Option (List Rec)
  | 0, _ => none
  | n + 1, bs =>
    if bs.isEmpty then some []
    else
      let len := field bs 4 4
      let size := cdiv (16 + len) 64 * 64
      if bs.length < size || !(allZero (slice bs 8 8)) || (field bs 1 1 ≠ 0 && field bs 0 1 ≠ 3) then none
      else (splitRecs n (bs.drop size)).map fun rs => ⟨field bs 0 1, field bs 1 1, field bs 2 2, slice bs 16 len⟩ :: rs

/-- Records of a block. -/
def recsOf (bs : List Byte) : Option (List Rec) := splitRecs (bs.length / 64 + 1) bs

/-- A table with its check: bytes `off` on are covered. -/
def checked (bs : List Byte) (check off : Nat) : Bool := crc32c (bs.drop off) = check

/-! ### Schedules (R66 to R69) -/

/-- An entry of a schedule compiled for `ticks` a beat and cycle `l` is in range (R67, R68, R69). A fill-by tick of P × 1,000 or more and
a fill-by offset of L or more name no tick of the cycle and are refused too (DEDUCED, notes/assumptions/117.md). -/
def schedEntryOk (ticks l : Nat) (e : SchedEntry) : Bool :=
  let p := e.payload.toNat
  let close := bits p 0 21
  e.boff < l && e.tick < ticks &&
  (if e.kind = 1 then bits p 32 32 = 0
   else if e.kind = 2 then bits p 16 5 < 24 && bits p 58 6 = 0 && bits p 21 21 < ticks && bits p 42 16 < l
   else if e.kind = 3 then e.tick = 0 && bits p 9 7 = 0 && bits p 48 16 = 0
   else if e.kind = 4 then e.tick = 0 && bits p 4 4 ≤ 11 && bits p 8 3 ≤ 4 && bits p 11 53 = 0
   else if e.kind = 5 then e.boff + 1 ≤ bits p 0 16 && bits p 0 16 ≤ l && bits p 16 48 = 0
   else if e.kind = 6 || e.kind = 7 then e.tick < close && close ≤ ticks && bits p 21 11 = 0 && bits p 48 16 = 0
   else if e.kind = 8 then bits p 0 4 ≤ 4 && bits p 7 57 = 0
   else e.kind = 9 && bits p 16 48 = 0)

/-- An entry's time in the cycle. -/
def SchedEntry.at_ (ticks : Nat) (e : SchedEntry) : Nat := e.boff * ticks + e.tick

/-- The locked phases of a schedule as intervals of the cycle (R62, R68). -/
def lockedPhases (ticks : Nat) (es : List SchedEntry) : List (Nat × Nat) :=
  (es.filter fun e => e.kind = 5).map fun e => (e.at_ ticks, bits e.payload.toNat 0 16 * ticks)

/-- A window's interval and collective. -/
def SchedEntry.window (ticks : Nat) (e : SchedEntry) : Nat × Nat × Nat :=
  (e.at_ ticks, e.boff * ticks + bits e.payload.toNat 0 21, bits e.payload.toNat 32 16)

/-- Consecutive elements stand in a relation. -/
def chain {α : Type} (r : α → α → Bool) (l : List α) : Bool := (l.zip (l.drop 1)).all fun p => r p.1 p.2

/-- The conditions of R69 over the entries together. -/
def schedOk (ticks l : Nat) (es : List SchedEntry) : Bool :=
  let ph := lockedPhases ticks es
  let wins := (es.filter fun e => e.kind = 6).map (SchedEntry.window ticks)
  let reps := (es.filter fun e => e.kind = 7).map (SchedEntry.window ticks)
  let inside := fun w : Nat × Nat × Nat => ph.any fun q => q.1 ≤ w.1 && w.2.1 ≤ q.2
  es.all (schedEntryOk ticks l) && chain (fun a b => a.at_ ticks ≤ b.at_ ticks) es &&
    ph.all (fun q => q.2 ≤ q.1 + 200000) && chain (fun a b => a.2 ≤ b.1) ph && wins.all inside && reps.all inside &&
    wins.all fun w => reps.any fun r => r.2.2 == w.2.2 && w.2.1 ≤ r.1

/-- A schedule record: the schedule without what loads beside it, its instance and its generation (R66). -/
def parseSched (bs : List Byte) : Option (Sched × Nat × Nat) :=
  let p := field bs 2 2
  let l := field bs 4 2
  let n := field bs 8 4
  let es := (pieces 16 n (bs.drop 64)).map fun e =>
    (⟨field e 0 1, field e 2 2, bits (field e 4 4) 0 21, BitVec.ofNat 64 (field e 8 8)⟩ : SchedEntry)
  let clean := (pieces 16 n (bs.drop 64)).all fun e => field e 1 1 = 0 && bits (field e 4 4) 21 11 = 0
  if field bs 0 2 = 1 && 16 ≤ p && p ≤ 2000 && 1 ≤ l && l ≤ 4096 && field bs 6 2 = 0 && 1 ≤ n && n ≤ 65536 &&
      bits (field bs 12 2) 10 6 = 0 && field bs 14 2 = 0 && allZero (slice bs 24 40) && bs.length = 64 + 16 * n &&
      checked bs (field bs 20 4) 64 && clean && schedOk (p * 1000) l es then
    some ({ period := p, cycle := l, config := bits (field bs 12 2) 4 6, entries := es, slotTables := [], lists := [], colls := [],
            budget := none }, bits (field bs 12 2) 0 4, field bs 16 4)
  else none

/-! ### Slot tables (R73, R74) -/

def parseSlots (bs : List Byte) : Option SlotTable :=
  let p := field bs 0 2
  let n := field bs 4 2
  let es := (pieces 8 n (bs.drop 16)).map fun e =>
    let v := field e 0 8
    (⟨bits v 0 21, bits v 21 21, bits v 42 14, bits v 56 8⟩ : SlotEntry)
  if 16 ≤ p && p ≤ 2000 && field bs 2 1 ≤ 8 && field bs 3 1 ≤ 1 && n ≤ 256 && field bs 6 2 = 0 && bs.length = 16 + 8 * n &&
      checked bs (field bs 12 4) 16 && es.all (fun e => e.opens + 16 ≤ e.closes && e.closes ≤ p * 1000) &&
      chain (fun a b => a.closes ≤ b.opens) es then
    some ⟨field bs 2 1, field bs 3 1, field bs 8 4, es⟩
  else none

/-! ### Prefetch lists (R228) -/

def parseList (r : Rec) : Option PfList :=
  let bs := r.table
  let n := field bs 4 2
  let es := (pieces 8 n (bs.drop 16)).map fun e =>
    let v := field e 0 8
    (⟨bits v 0 24, bits v 24 14, if bits v 38 12 = 0 then 4096 else bits v 38 12⟩ : PfEntry)
  let clean := (pieces 8 n (bs.drop 16)).all fun e => bits (field e 0 8) 50 14 = 0
  if r.stack < 24 && 1 ≤ n && n ≤ 4096 && field bs 6 2 = 0 && field bs 12 4 = 0 && bs.length = 16 + 8 * n &&
      checked bs (field bs 8 4) 16 && clean && es.all (fun e => e.dst + e.tiles ≤ 12288 && e.src + e.tiles ≤ 2 ^ 24) then
    some ⟨r.stack, r.id, field bs 0 4, es⟩
  else none

/-! ### Collective descriptors (R318) -/

/-- One descriptor; offsets are within the instance's area, which begins at tile `base` (R343). -/
def parseColl (base index : Nat) (bs : List Byte) : Option CollDesc :=
  let kind := field bs 0 1
  let n := field bs 3 1
  let blocks := field bs 6 2
  let agent := field bs 28 2
  let row := field bs 36 4
  let own := if kind ≤ 2 then 2 ≤ n && n ≤ 64 && field bs 4 2 < n && blocks ≠ 0 && blocks % n = 0
    else agent < 2 ^ 13 && row % 64 = 0 && 64 ≤ row && row ≤ 32768
  if kind ≤ 4 && field bs 1 1 ≤ 1 && own && field bs 24 1 ≤ 64 && field bs 26 2 = 0 && field bs 30 2 = 0 &&
      allZero (slice bs 40 24) then
    some { index := index, kind := kind, flowEn := bit (field bs 1 1) 0, flow := field bs 2 1, n := n, rank := field bs 4 2,
           blocks := blocks, members := base + field bs 8 4, src := base + field bs 12 4, dst := base + field bs 16 4,
           notify := base * 64 + field bs 20 4, nnotify := field bs 24 1, routeId := field bs 25 1, agent := agent,
           data := field bs 32 4, rowBytes := row }
  else none

def parseColls (base : Nat) (r : Rec) : Option (List CollDesc) :=
  let n := r.table.length / 64
  if r.table.length % 64 = 0 && 1 ≤ n then
    (pieces 64 n r.table).zipIdx.mapM fun p => parseColl base (r.id + p.2) p.1
  else none

/-! ### Step budgets (R354) -/

def parseBudget (bs : List Byte) : Option Budget :=
  let f := field bs
  let nt := f 20 1
  let b : Budget :=
    { maxRows := f 0 2, chunkBudget := f 2 2, maxChunk := f 4 2, maxSeqs := f 6 2, kvBudget := f 8 4, kvPerPage := f 12 2,
      seqSlots := f 14 2, kvStacks := f 16 3, retryMax := f 19 1, targets := (List.range nt).map fun i => f (64 + 2 * i) 2 }
  if bs.length = 192 && 1 ≤ b.maxRows && b.maxRows ≤ 4096 && b.chunkBudget ≤ b.maxRows && 1 ≤ b.maxChunk &&
      b.maxChunk ≤ b.chunkBudget && 1 ≤ b.maxSeqs && b.maxSeqs ≤ 4096 && 1 ≤ b.kvPerPage && 1 ≤ b.seqSlots && b.seqSlots ≤ 16384 &&
      1 ≤ b.retryMax && b.retryMax ≤ 15 && 1 ≤ nt && nt ≤ 64 && allZero (slice bs 21 43) && allZero (slice bs (64 + 2 * nt) 128) then
    some b
  else none

/-! ### Routing tables (R190 to R193) -/

def parseRoute (bs : List Byte) : Option (RouteTable × Nat) :=
  let f := field bs
  let e := f 4 2
  let n := f 10 2
  let ew := (pieces 8 e (bs.drop 64)).map leNat
  let rw_ := (pieces 8 n (bs.drop (64 + 8 * e))).map leNat
  let es := ew.map fun v => (⟨bits v 0 3 + 1, bits v 16 16, bits v 32 15⟩ : Expert)
  let rs := rw_.map fun v => (⟨bits v 0 14, bits v 14 5, bits v 19 4, bits v 23 2, bits v 25 3, bits v 32 15⟩ : Replica)
  let spans := (es.map fun x => (x.base, x.base + x.nrep)).mergeSort fun a b => a.1 ≤ b.1
  if f 0 2 = 1 && 1 ≤ e && e ≤ 4096 && 1 ≤ f 6 1 && f 6 1 ≤ 8 && f 6 1 ≤ e && f 7 1 ≤ 3 && 1 ≤ f 8 2 && f 8 2 ≤ 256 && 1 ≤ n &&
      n ≤ 32768 && allZero (slice bs 24 40) && bs.length = 64 + 8 * (e + n) && checked bs (f 16 4) 64 &&
      ew.all (fun v => bits v 3 13 = 0 && bits v 47 17 = 0) && rw_.all (fun v => bits v 28 4 = 0 && bits v 47 17 = 0) &&
      es.all (fun x => x.base + x.nrep ≤ n && x.cap ≤ 4096) && rs.all (fun r => r.node % 8 ≤ 3) &&
      chain (fun a b => a.2 ≤ b.1) spans then
    some ({ layer := f 2 2, k := f 6 1, renorm := bit (f 7 1) 0, normTopk := bit (f 7 1) 1, sources := f 8 2, loadOff := f 20 4,
            experts := es, replicas := rs }, f 12 4)
  else none

/-- The load area lies within the instance's common-store area (R193). -/
def RouteTable.fits (t : RouteTable) (csArea : Nat) : Bool := t.loadOff * 4096 + 16 * t.experts.length ≤ csArea * 4096

/-- A revision keeps the layout of a ROUTE_ID (R193). -/
def RouteTable.revises (t old : RouteTable) : Bool :=
  t.layer == old.layer && t.experts.length == old.experts.length && t.k == old.k && t.renorm == old.renorm &&
    t.normTopk == old.normTopk

/-! ### Sampler records (R370 to R372) -/

/-- Bit `t` of a mask. -/
def maskBit (m : List Byte) (t : Nat) : Bool := bit (field m (t / 8) 1) (t % 8)

/-- The transition of a state on a token: its own, or DEFAULT; none where neither exists (R371). -/
def SamplerRec.stepFrom (x : SamplerRec) (st t : Nat) : Option Nat :=
  match (x.states[st]? : Option AutState) with
  | none => none
  | some a =>
    match ((x.trans.drop a.base).take a.count).find? fun q => q.token == t with
    | some q => some q.next
    | none => if a.dflt = 0xFFFFFF then none else some a.dflt

/-- The states' indexes and masks hold together (R372). -/
def SamplerRec.consistent (x : SamplerRec) : Bool :=
  let ns := x.states.length
  x.starts.all (· < ns) && x.trans.all (fun q => q.token < x.v && q.next < ns) &&
    x.masks.all (fun m => (List.range (m.length * 8)).all fun t => t < x.v || !(maskBit m t)) &&
    x.states.zipIdx.all fun p =>
      let a := p.1
      let allows := fun t : Nat => a.mask = 0xFFFFFFFF || maskBit (nth [] x.masks a.mask) t
      (a.mask = 0xFFFFFFFF || a.mask < x.masks.length) && a.base + a.count ≤ x.trans.length && (a.dflt = 0xFFFFFF || a.dflt < ns) &&
        chain (fun q r => q.token < r.token) ((x.trans.drop a.base).take a.count) && (List.range x.v).any allows &&
        (List.range x.v).all fun t => !(allows t) || (x.stepFrom p.2 t).isSome

def parseSampler (bs : List Byte) : Option (SamplerRec × Nat) :=
  let f := field bs
  let na := f 2 2
  let v := f 4 4
  let ns := f 28 4
  let nt := f 32 4
  let nm := f 36 4
  let mb := cdiv (cdiv v 8) 64 * 64
  let o1 := 64 + 4 * na
  let o2 := o1 + 16 * ns
  let o3 := o2 + 8 * nt
  let sw := (pieces 4 na (bs.drop 64)).map leNat
  let st := pieces 16 ns (bs.drop o1)
  let tw := (pieces 8 nt (bs.drop o2)).map leNat
  let x : SamplerRec :=
    { v := v, bf16 := f 8 1 == 1, logitPage := f 20 4, dlogitPage := f 24 4, targets := (List.range (f 9 1)).map fun i => f (40 + 2 * i) 2,
      starts := sw.map fun w => bits w 0 24,
      states := st.map fun b => ⟨field b 0 4, field b 4 4, field b 8 4, field b 12 3, bit (field b 15 1) 0⟩,
      trans := tw.map fun w => ⟨bits w 0 18, bits w 24 24⟩, masks := pieces mb nm (bs.drop o3) }
  let page := fun p : Nat => bits p 0 5 < 24 && bits p 5 20 < 1048320 && bits p 25 7 = 0
  if f 0 2 = 1 && na ≤ 256 && 2 ≤ v && v ≤ 262144 && f 8 1 ≤ 1 && f 9 1 ≤ 8 && f 10 2 = 0 && ns < 2 ^ 24 &&
      allZero (slice bs (40 + 2 * f 9 1) (24 - 2 * f 9 1)) && bs.length = o3 + mb * nm && checked bs (f 16 4) 64 && page (f 20 4) &&
      (f 24 4 = 0xFFFFFFFF || page (f 24 4)) && sw.all (fun w => bits w 24 8 = 0) && st.all (fun b => bits (field b 15 1) 1 7 = 0) &&
      tw.all (fun w => bits w 18 6 = 0 && bits w 48 16 = 0) && x.consistent then some (x, f 12 4)
  else none

/-- Bytes of a logit row (R370). -/
def SamplerRec.rowBytes (x : SamplerRec) : Nat := cdiv (x.v * (if x.bf16 then 2 else 4)) 4096 * 4096

/-! ### Configurations (R83, R347) -/

/-- The action program, counters, edges, steering, window, engine and watch setup of a context, at the model's places in the two
tiles (R347; notes/assumptions/14.md). It stands at action 0 and not at END, so that it may issue before its first gate release (DESIGN
CHOICE, notes/assumptions/118.md). -/
def parseCtxState (cid : CtxId) (gen : Nat) (bs : List Byte) : Context :=
  let n := field bs 4392 2
  let ins := (pieces 8 8 (slice bs 4224 64)).map fun d => (⟨BitVec.ofNat 64 (leNat d), [], 0, 0, [], none⟩ : InEdge)
  let outs := (pieces 8 8 (slice bs 4288 64)).map fun d =>
    let v := leNat d
    (⟨BitVec.ofNat 64 v, if bit v 0 then bits v 18 11 else 0, 0, []⟩ : OutEdge)
  { id := cid, valid := true, config := 0, gen := gen,
    acts := (pieces 16 n (slice bs 0 4096)).map fun a => ⟨BitVec.ofNat 64 (field a 0 8), BitVec.ofNat 64 (field a 8 8)⟩,
    pc := 0, ctrs := (pieces 8 16 (slice bs 4096 128)).map fun c => ⟨field c 0 4, field c 4 4⟩, ins := ins, outs := outs,
    steer := (pieces 4 4 (slice bs 4352 16)).map fun w => BitVec.ofNat 32 (leNat w), steerBad := List.replicate 4 false,
    winBase := field bs 4368 2, winSize := field bs 4370 2, gate := none, started := false, ended := false, blocked := false,
    expect := 0, waitFrom := none, engine := BitVec.ofNat 64 (field bs 4372 8), watch := BitVec.ofNat 64 (field bs 4380 8),
    thresh := BitVec.ofNat 32 (field bs 4388 4), clamp := false, replays := 0, escs := 0, dictGen := List.replicate 8 0,
    built := List.replicate 8 none, lastRun := 0, step := none, runs := [], masks := [], dispatched := [] }

/-- What a context record holds: its context, its initial tiles, the remote request queues it declares (R307), and its length. -/
structure CtxRec where
  ctx   : Context
  tiles : List (BeadId × Nat × List Byte)
  rrqs  : List (Nat × Nat)
  len   : Nat

/-- One context record; none where the head is malformed. -/
def parseCtx (gen : Nat) (bs : List Byte) : Option CtxRec :=
  let h := field bs 0 16
  let nm := bits h 13 6
  let nt := bits h 19 10
  let cid : CtxId := ⟨⟨Fin.ofNat 4 (bits h 0 2), Fin.ofNat 32 (bits h 2 5), Fin.ofNat 16 (bits h 7 4)⟩, Fin.ofNat 4 (bits h 11 2)⟩
  let masks := pieces 68 nm (bs.drop 8208)
  let tiles := pieces 4160 nt (bs.drop (8208 + 68 * nm))
  let len := 8208 + 68 * nm + 4160 * nt
  let n := field bs (16 + 4392) 2
  let nq := field bs (16 + 4394) 1
  let qs := pieces 8 nq (slice bs (16 + 4396) (8 * nq))
  if nq ≤ 16 && qs.all (fun q => field q 0 1 < 16 && field q 1 3 = 0 && field q 4 4 < 126976) && field bs (16 + 4395) 1 = 0 &&
      h < 2 ^ 29 && nm ≤ 33 && nt ≤ 512 && len ≤ bs.length && 1 ≤ n && n ≤ 256 && allZero (slice bs (16 + 16 * n) (4096 - 16 * n)) &&
      allZero (slice bs (16 + 4396 + 8 * nq) (8192 - 4396 - 8 * nq)) && masks.all (fun m => field m 2 2 = 0) &&
      tiles.all (fun t => field t 0 2 < 512 && allZero (slice t 2 62)) then
    let c := parseCtxState cid gen (slice bs 16 8192)
    some { ctx := { c with masks := masks.map fun m => (field m 0 2, BitVec.ofNat 512 (field m 4 64)) },
           tiles := tiles.map fun t => (cid.bead, field t 0 2, t.drop 64), rrqs := qs.map fun q => (field q 0 1, field q 4 4), len := len }
  else none

/-- Context records one after another. -/
def parseCtxs (gen : Nat) : Nat → List Byte → Option (List CtxRec)
  | 0, bs => if bs.isEmpty then some [] else none
  | n + 1, bs =>
    match parseCtx gen bs with
    | none => none
    | some c => (parseCtxs gen n (bs.drop c.len)).map fun r => c :: r

/-! ### The checks at a configuration load (R86, R97, R103, R141, R153, R181, R196, R224, R347, R348) -/

/-- A range of bead-local bytes lies in the context's window. -/
def Context.inWindow (c : Context) (off n : Nat) : Bool :=
  c.winBase * 0x10000 ≤ off && off + n ≤ (c.winBase + c.winSize) * 0x10000

/-- A descriptor's edge is valid and of a kind. -/
def Context.hasIn (c : Context) (e kind : Nat) : Bool := (c.inEdge e).valid && (c.inEdge e).kind = kind
def Context.hasOut (c : Context) (e : Nat) : Bool := (c.outEdge e).valid

/-- An input edge descriptor (R86, R97): its codes and reserved bits, used or not, and the spill area of one in use. -/
def Context.inOk (c : Context) (e : InEdge) : Bool :=
  bits e.desc.toNat 29 35 = 0 && e.kind ≤ 1 && e.spillSize ≤ 1024 &&
    (!e.valid || e.spillSize = 0 || c.inWindow e.spillBase (66 * e.spillSize))

/-- An output edge descriptor (R86, R98): its reserved bits, used or not; the consumer of one in use is an edge of the configuration, in
the context that it names, with that capacity. -/
def outOk (cs : List Context) (o : OutEdge) : Bool :=
  let d := o.desc.toNat
  bits d 29 35 = 0 && (!o.valid ||
    match cs.find? (fun c => c.id == ⟨o.bead, Fin.ofNat 4 (bits d 16 2)⟩) with
    | some c => let e := c.inEdge (bits d 13 3); e.valid && o.capacity = 16 + e.spillSize
    | none => false)

/-- A steering unit's setting (R86, R103). Its inputs are edges that feed a steering unit (R97). -/
def Context.steerOk (c : Context) (w : Word32) : Bool :=
  let v := w.toNat
  let m := bits v 0 2
  bits v 17 15 = 0 && (m = 0 || m ≠ 3 && c.hasIn (bits v 2 3) 1 && c.hasIn (bits v 8 3) 1 && c.hasOut (bits v 11 3) &&
    (m ≠ 1 || c.hasOut (bits v 14 3)) && (m ≠ 2 || c.hasIn (bits v 5 3) 1))

/-- A MATRIX operand (R141). -/
def Context.matrixOk (c : Context) (v : Nat) : Bool :=
  let o := matOp v
  let e := engineOf c.engine.toNat
  let m := o.active e
  !(bit v 63) && (e.afmt ≠ 1 || o.ch ≤ 32) && (e.outFmt ≠ 2 || o.ch = 32 || o.ch = 64) &&
    c.inWindow o.wOff (o.csBytes e + o.kblk * o.ch * e.wSlot) && c.inWindow o.aOff (o.kblk * m * e.aSlot) &&
    (!o.drain || e.outFmt = 2 || c.inWindow o.out (m * o.ch * (if e.outFmt = 1 then 2 else 4)))

/-- A VECTOR operand (R146): the operation, its format, and its ranges. -/
def Context.vectorOk (c : Context) (v : Nat) : Bool :=
  let o := vecOp v
  o.defined && o.reads.all (fun r => c.inWindow r.1 r.2) && c.inWindow o.writes.1 o.writes.2

/-- The regions of MOVE forms 1 to 3 with a routing table: score rows and choices; choices with the fill counters after them, and keys;
choices, the return area after them, and the outputs (R195 to R198, R205, R206). -/
def ExpOp.regions (o : ExpOp) (form : Nat) (t : RouteTable) : List (Nat × Nat) :=
  let vecs := (if o.last = 0 then 256 else o.last) * 128
  let reps := t.replicas.length
  if form = 1 then [(o.src, o.rows * scoreRow t.experts.length), (o.dst, o.rows * 64)]
  else if form = 2 then [(o.src, o.rows * 64 + 2 * reps), (o.dst, o.rows * 8)]
  else [(o.src, o.rows * 64), (returnArea o.src o.rows reps, o.rows * t.k * vecs), (o.dst, o.rows * vecs)]

/-- A MOVE operand (R195, R196, R226); `routes` are the instance's routing tables. -/
def Context.moveOk (c : Context) (routes : List (Nat × RouteTable)) (a : Act) : Bool :=
  let v := a.op.toNat
  let bare := a.ins.isEmpty && a.outs.isEmpty && a.ctrOp = 0
  let form := v % 4
  if form = 0 then
    let o := copyOp v
    let n := if o.toTile then a.ins.length * a.inCount else a.outs.length * a.outCount
    bits v 36 28 = 0 && (!o.blocks || o.toTile) && c.inWindow o.addr (n * (if o.blocks then 1 else 64))
  else
    let o := expOp v
    bare && bits v 58 6 = 0 && (form ≠ 1 || o.last = 0) &&
      match routes.find? (fun r => r.1 == o.route) with
      | some r => (o.regions form r.2).all fun x => c.inWindow x.1 x.2
      | none => false

/-- The descriptor at a bead-local offset as the initial tiles hold it (R224, R347): an instance page address and a kind. The configuration
load writes every descriptor (R224), so that one in no initial tile is refused; the `n` tiles from it on are taken within the pages of
its stack (R36). Both are DEDUCED (notes/assumptions/117.md). -/
def descOk (tiles : List (BeadId × Nat × List Byte)) (b : BeadId) (off n : Nat) : Bool :=
  match tiles.find? (fun t => t.1 == b && t.2.1 == off / 4096) with
  | none => false
  | some t =>
    let d := slice t.2.2 (off % 4096) 64
    let v := field d 0 8
    bits v 0 5 < 24 && bits v 5 20 * 16 + bits v 25 4 + n ≤ 1048320 * 16 && v < 2 ^ 29 && field d 8 1 ≤ 5 && allZero (slice d 9 55)

/-- A MEMORY operand (R223, R224). -/
def Context.memoryOk (c : Context) (tiles : List (BeadId × Nat × List Byte)) (a : Act) : Bool :=
  let v := a.op.toNat
  let o := memOp v
  a.ins.isEmpty && a.outs.isEmpty && v % 8 ≤ 2 && bits v 37 27 = 0 && c.inWindow o.desc 64 &&
    (v % 8 = 2 || (1 ≤ o.count && o.count ≤ 512 && o.first + o.count ≤ 512 && c.inWindow (o.first * 4096) (o.count * 4096) &&
      descOk tiles c.id.bead o.desc o.count))

/-- An ENCODE operand (R153, R180, R181). -/
def Context.encodeOk (c : Context) (a : Act) : Bool :=
  let v := a.op.toNat
  let o := encOp v
  let w := c.watch.toNat
  let n := o.count * 128 * (if o.bf16 then 2 else 4)
  let out := if o.op = 1 then 64 else o.count * (if o.i4 then 128 else 192) + 64 * bits w 29 10
  o.op ≤ 1 && bits v 48 16 = 0 && !(o.dictEn && (o.i4 || bit v 9)) && (o.op = 0 || o.dictEn) &&
    c.inWindow o.src n &&
    (o.edges || o.op = 1 || c.inWindow o.dst out) && (!o.edges || a.outs.isEmpty || a.outCount = (if o.op = 1 then 1 else 3)) &&
    (o.i4 || bits w 29 10 = 0)

/-- An action of a context (R85, R86, R91, R94). Refused too are bits [31:7] of a LOAD_TRIP operand that are not zero, which R92 gives no
field, and an IN_MASK that names an edge which feeds a steering unit (R97): DEDUCED (notes/assumptions/117.md). -/
def Context.actOk (c : Context) (tiles : List (BeadId × Nat × List Byte)) (routes : List (Nat × RouteTable)) (a : Act) : Bool :=
  let v := a.op.toNat
  a.unit ≤ 7 && a.ctrOp ≤ 5 && a.branch ≤ 4 && bits a.ctl.toNat 47 17 = 0 && a.target < c.acts.length &&
    (a.unit = 6 || (a.ctrOp ≠ 3 && a.ctrOp ≠ 4)) && (a.ctrOp ≠ 4 || (a.ins.contains (bits v 0 3) && bits v 7 25 = 0)) &&
    a.ins.all (fun e => c.hasIn e 0) && a.outs.all c.hasOut &&
    (!a.ins.isEmpty || a.outs.all fun e => !(c.outEdge e).propagate) &&
    (if a.unit = 1 then c.matrixOk v else if a.unit = 2 then c.vectorOk v else if a.unit = 3 then c.moveOk routes a
     else if a.unit = 4 then c.memoryOk tiles a else if a.unit = 5 then c.encodeOk a
     else a.unit ≠ 7 || (1 ≤ bits v 0 3 && bits v 0 3 ≤ 4 && bits v 35 29 = 0))

/-- Actions that may follow action `i` (R90). -/
def Context.nexts (c : Context) (i : Nat) : List Nat :=
  match (c.acts[i]? : Option Act) with
  | none => []
  | some a =>
    if a.branch = 0 then [i + 1] else if a.branch = 3 then [a.target] else if a.branch = 4 then [] else [i + 1, a.target]

/-- From action `i`, walking until a MATRIX action: a CHEAP action is met before one with CLEAR = 0 (R141, last condition). `cheap` says
one was met; `seen` holds the (action, cheap) pairs walked. -/
def Context.undrained (c : Context) : Nat → List (Nat × Bool) → List (Nat × Bool) → Bool
  | 0, _, _ => false
  | _ + 1, [], _ => false
  | n + 1, (i, cheap) :: todo, seen =>
    if seen.contains (i, cheap) then c.undrained n todo seen
    else
      match (c.acts[i]? : Option Act) with
      | none => c.undrained n todo ((i, cheap) :: seen)
      | some a =>
        let ch := cheap || a.cheap
        if a.unit = 1 then
          if ch && !(matOp a.op.toNat).clear then true else c.undrained n todo ((i, cheap) :: seen)
        else c.undrained n (todo ++ (c.nexts i).map fun j => (j, ch)) ((i, cheap) :: seen)

/-- No path of the program leaves undrained sums across a cheap point (R141). -/
def Context.drainsOk (c : Context) : Bool :=
  (List.range c.acts.length).all fun i =>
    match (c.acts[i]? : Option Act) with
    | some a =>
      !(a.unit = 1 && !(matOp a.op.toNat).drain) || !(c.undrained 1025 ((c.nexts i).map fun j => (j, false)) [])
    | none => true

/-- Engine and watch setup (R120, R139, R141, R152, R153). -/
def Context.setupOk (c : Context) : Bool :=
  let e := c.engine.toNat
  let w := c.watch.toNat
  bits e 11 53 = 0 && bits e 9 2 ≠ 3 && (!(bit e 3) || bits e 0 3 = 2) && bits w 39 25 = 0 && (!(bit w 0) || (bits w 1 8 ≠ 0 && bits w 1 8 ≠ 0xFF))

/-- Each CHEAP action and the END state has exactly one live mask, and no other has one (R347). -/
def Context.masksOk (c : Context) : Bool :=
  let want := (c.acts.zipIdx.filter fun p => p.1.cheap).map (·.2) ++ [0xFFFF]
  want.all (fun i => (c.masks.filter fun m => m.1 == i).length == 1) && c.masks.all fun m => want.contains m.1

/-- Two ranges of bytes share one. -/
def meets (a b : Nat × Nat) : Bool := a.1 < b.1 + b.2 && b.1 < a.1 + a.2

/-- The contexts that take a region of tile memory which a context writes: itself, where a MATRIX action reads its activations there,
and those at the edges to which a COPY moves entries from there; an index may carry a COPY to any byte from its base on (R140, R226). -/
def Context.readers (cs : List Context) (c : Context) (r : Nat × Nat) : List Context :=
  c.acts.flatMap fun a =>
    let v := a.op.toNat
    let m := matOp v
    let e := engineOf c.engine.toNat
    let o := copyOp v
    if a.unit = 1 then (if meets r (m.aOff, m.kblk * m.active e * e.aSlot) then [c] else [])
    else if a.unit = 3 && v % 4 = 0 && !o.toTile &&
        meets r (o.addr, if o.stride = 0 then a.outs.length * a.outCount * 64 else 0x200000) then
      a.outs.filterMap fun x => cs.find? fun d => d.id.bead == (c.outEdge x).bead
    else []

/-- An I4 output that may escalate feeds only contexts that accept it, over an edge or by way of tile memory (R153, last condition). No
record says which encoder's output a collective reduces: its operands lie in the common store (R318), which no descriptor of a
configuration names (R347), so that the condition of R153 on one refuses no load (DEDUCED, notes/assumptions/117.md). -/
def escOk (cs : List Context) (c : Context) : Bool :=
  c.acts.all fun a =>
    let o := encOp a.op.toNat
    let takers := if o.edges then a.outs.filterMap fun e => cs.find? fun d => d.id.bead == (c.outEdge e).bead
      else c.readers cs (o.dst, o.count * 128)
    a.unit ≠ 5 || o.op ≠ 0 || !o.i4 || bits c.watch.toNat 29 10 = 0 ||
      takers.all fun d => let g := engineOf d.engine.toNat; g.afmt = 1 && g.aOver

/-- Every check of R348 on a generation. -/
def configOk (cs : List Context) (tiles : List (BeadId × Nat × List Byte)) (routes : List (Nat × RouteTable)) : Bool :=
  let ends := cs.flatMap fun c => (c.outs.filter OutEdge.valid).map fun o => (o.bead, bits o.desc.toNat 13 3)
  (cs.map (·.id.bead)).eraseDups.length = cs.length && ends.eraseDups.length = ends.length &&
    cs.all fun c =>
      1 ≤ c.winSize && c.winBase + c.winSize ≤ 32 && c.ins.all c.inOk && c.outs.all (outOk cs) && c.steer.all c.steerOk &&
        c.acts.all (c.actOk tiles routes) && c.drainsOk && c.setupOk && c.masksOk && escOk cs c

/-- The largest live set of a context, in tiles. -/
def Context.liveMax (c : Context) : Nat := c.masks.foldl (fun m p => max m (((List.range 512).filter fun k => bit p.2.toNat k).length)) 0

/-- STORE_TILES covers the state tiles and the largest live set of each context (R347, R350). DEDUCED (notes/assumptions/117.md): a
smaller one refuses the load. -/
def storeOk (cs : List Context) (store : Nat) : Bool := (cs.foldl (fun n c => n + 2 + c.liveMax) 0) ≤ store

/-- A configuration record: its generation's contents, its local index and its generation number (R347, R348). -/
def parseConfig (bs : List Byte) (routes : List (Nat × RouteTable)) : Option (ConfigGen × Nat × Nat) :=
  let f := field bs
  let gen := f 8 4
  match parseCtxs gen (f 4 2) (bs.drop 64) with
  | none => none
  | some rs =>
    let cs := rs.map (·.ctx)
    let tiles := rs.flatMap (·.tiles)
    let rrqs := rs.flatMap (·.rrqs)
    if f 0 2 = 1 && f 2 1 < 64 && f 3 1 ≤ 1 && 1 ≤ f 4 2 && f 4 2 ≤ 2048 && f 6 2 = 0 && allZero (slice bs 20 44) &&
        checked bs (f 12 4) 64 && configOk cs tiles routes && storeOk cs (f 16 4) && rrqs.length ≤ 16 && (rrqs.map (·.1)).eraseDups.length = rrqs.length then
      some ({ fixed := bit (f 3 1) 0, ctxs := cs, tiles := tiles, dicts := [], store := f 16 4, pages := [], rrqs := rrqs }, f 2 1, gen)
    else none

/-- An installed dictionary of TYPE 0x07 (R178, R183): its slot as loaded. -/
def parseDict (r : Rec) : Option DictSlot :=
  match readRecord r.table with
  | .ok d => some ⟨true, d.gen, d.width, d.entries, []⟩
  | .error _ => none

end Sys2Proof.Machine
end

