-- ==== Sys2Proof/Machine/Swap.lean ====
section
/-! DEFINITION. Residency, the context store, placement and swapping of configurations, and the remap of a rod (13 R347 to R353; 03
R84, R109 to R113; 17 R445). -/
namespace Sys2Proof.Machine

/-! ### Configurations and their contexts -/

/-- The contexts of a configuration on the beads. -/
def State.ctxsOf (s : State) (num : Nat) : List Context := s.arr.ctxs.filter fun c => c.valid && c.config == num

/-- The physical context a configuration holds, or held last, on a bead (R349). -/
def Cfg.physCtx (c : Cfg) (b : BeadId) : Option Nat := (c.map.find? fun p => p.1 == b).map (·.2)

/-- The generation a configuration's next step uses: bound by the newest running step that bound the configuration, else current. -/
def State.wantedGen (s : State) (c : Cfg) : Option (GenSlot ConfigGen) :=
  match (s.serve.steps.filter fun r => r.configs.any fun p => p.1 == c.num).getLast? with
  | some r => match findKey r.configs c.num with | some g => c.gens.slot g | none => c.gens.current
  | none => c.gens.current

/-- Both places of a configuration's contexts changed: on the beads and in the context store. -/
def State.mapCfgCtxs (s : State) (num : Nat) (f : Context → Context) : State :=
  let cfgs := s.serve.cfgs.map fun c =>
    if c.num == num then { c with saved := c.saved.map fun v => { v with ctxs := v.ctxs.map f } } else c
  { s with arr := { s.arr with ctxs := s.arr.ctxs.map fun c => if c.config == num then f c else c },
           serve := { s.serve with cfgs := cfgs } }

/-- Contexts of a configuration leave the beads: their entries, flights and currency go with them (R84). -/
def State.invalidate (s : State) (num : Nat) : State :=
  let gone := (s.arr.ctxs.filter fun c => c.config == num).map (·.id)
  let beads := s.arr.beads.map fun b =>
    { b with current := b.current.filter fun k => !(gone.any fun g => g.bead == b.id && g.ctx.val == k),
             dicts := b.dicts.filter fun p => !(gone.any fun g => g.bead == b.id && g.ctx.val == p.ctx) }
  { s with arr := { s.arr with
      ctxs := s.arr.ctxs.filter (fun c => c.config ≠ num), flights := s.arr.flights.filter (fun f => !(gone.contains f.dest.ctx)),
      beads := beads } }

/-! ### When a configuration may leave (R351) -/

/-- First beat at or after the running one with an offset of a cycle. -/
def State.nextOffset (s : State) (l off : Nat) : Nat := s.time.beat + (off + l - s.time.beat % l) % l

/-- No beat: later than any. -/
def never : Nat := 2 ^ 48

/-- A LAYER_START names the context compiled as `k` on a bead (R68, R96). -/
def layerNames (p : Nat) (k : Nat) (b : BeadId) : Bool :=
  bit p b.die.val && bits p 4 2 = k && bits p 6 5 ≤ b.rod.val && b.rod.val ≤ bits p 11 5

/-- Compiled context number of a configuration generation on a bead. -/
def ConfigGen.compiled (g : ConfigGen) (b : BeadId) : Option Nat := (g.ctxs.find? fun c => c.id.bead == b).map (·.id.ctx.val)

/-- Beat of the next LAYER_START of a context in its instance's schedule. -/
def State.nextLayer (s : State) (c : Context) : Nat :=
  match s.cfg c.config, (s.inst (s.cfgInst c.config)).sched.current with
  | some f, some g =>
    let k := match f.gens.slot c.gen with | some x => (x.val.compiled c.id.bead).getD c.id.ctx.val | none => c.id.ctx.val
    (g.val.entries.filter fun e => e.kind = 1 && layerNames e.payload.toNat k c.id.bead).foldl (fun best e =>
      let b := s.nextOffset g.val.cycle e.boff
      let b := if b = s.time.beat && e.tick ≤ s.time.tick then b + g.val.cycle else b
      min best b) never
  | _, _ => never

/-- Expected unblock beat of a context at a cheap point (R95, R351). -/
def State.expectBeat (s : State) (c : Context) : Nat :=
  if c.ended then s.nextLayer c
  else
    let e := match c.act with | some a => bits a.op.toNat 23 12 | none => 0
    let l := s.ctxCycle c
    if e < l then s.nextOffset l e else never

/-- A resident configuration is evictable (R351). -/
def State.mayEvict (s : State) (num : Nat) : Bool :=
  (match s.cfg num with | some c => c.resident | none => false) &&
  (s.ctxsOf num).all fun c =>
    (s.isBlocked c || (c.ended && !(c.gate.isSome && !c.started))) && c.ins.all (fun e => e.held == 0) &&
      s.arr.flights.all (fun f => f.dest.ctx != c.id) && s.allDone c

/-- Expected unblock beat of a configuration. -/
def State.cfgExpect (s : State) (num : Nat) : Nat := (s.ctxsOf num).foldl (fun m c => min m (s.expectBeat c)) never

/-! ### Eviction (R352) -/

/-- The mask in force where the context stands: the blocking action's, or END's. -/
def Context.liveMask (c : Context) : BitVec 512 :=
  let i := if c.ended then 0xFFFF else c.pc
  match c.masks.find? (fun m => m.1 == i) with | some m => m.2 | none => 0

/-- Live tiles of a context, with their DIRTY bits. -/
def State.liveTiles (s : State) (c : Context) : List (BeadId × Nat × Bool × List Byte) :=
  let m := c.liveMask.toNat
  let x := s.bead c.id.bead
  ((List.range 512).filter (bit m)).map fun t => (c.id.bead, t, (x.entry t).dirty, s.tileRead c.id.bead (t * 4096) 4096)

/-- Dictionary slots of the contexts. -/
def State.liveDicts (s : State) (c : Context) : List (BeadId × DictPair) :=
  ((s.bead c.id.bead).dicts.filter fun p => p.ctx == c.id.ctx.val).map fun p => (c.id.bead, p)

/-- An eviction to the context store. `lost` lists the tiles whose reads fail in the saves: a live one among them is a detection on its
bead (R441), the configuration's saved state is discarded, and its running steps fail with CTX_LOST, as for a failed CTX read
(R352, R445). -/
def State.evictCfg (s : State) (num : Nat) (lost : List (BeadId × Fin 512)) : State :=
  match s.cfg num with
  | none => s
  | some c =>
    let cs := s.ctxsOf num
    let v : Saved := ⟨cs, cs.flatMap s.liveTiles, cs.flatMap s.liveDicts⟩
    let hit := (lost.filter fun l => v.tiles.any fun t => t.1 == l.1 && t.2.1 == l.2.val).map (·.1) |>.eraseDups
    let s := hit.foldl (fun s b => s.detectBead 0x01 b true false) s
    let s := if hit.isEmpty then s else s.failConfig num stCTX_LOST
    let saved := if hit.isEmpty then some v else none
    ((s.invalidate num).setCfg { c with resident := false, saved := saved, badSave := false }).bump (rInst c.inst 0x20)

/-! ### Placement and restore (R349, R351, R352) -/

/-- The bead is PROVING: it is one of the four beads of its frame that are out of service for their runs (R445, R447). -/
def State.provingBead (s : State) (b : BeadId) : Bool := (s.provingBeads b.die).contains (s.beadUnit b)

/-- A load onto a frame is held off: degraded (R112), a remap of the rod pending (R113), or the bead PROVING (R445). -/
def State.closedBead (s : State) (b : BeadId) : Bool :=
  bit (s.rodMap b.die.val) 9 || s.faults.remaps.any (fun p => p.1 == b.die.val && p.2 ≤ b.rod.val) || s.provingBead b

/-- The configuration that holds a context of a bead, resident or being restored. -/
def State.holder (s : State) (b : BeadId) (k : Nat) : Option Cfg :=
  s.serve.cfgs.find? fun c => (c.resident || c.restoring) && c.physCtx b == some k

/-- A context of a bead is free. -/
def State.freeCtx (s : State) (b : BeadId) (k : Nat) : Bool := (s.holder b k).isNone

/-- The context a generation would take on a bead: its compiled one where FIXED, else the last one if free, else any free one. -/
def State.placeCtx (s : State) (c : Cfg) (g : ConfigGen) (x : Context) : Option Nat :=
  let b := x.id.bead
  if g.fixed then (if s.freeCtx b x.id.ctx.val then some x.id.ctx.val else none)
  else
    match c.physCtx b with
    | some k => if s.freeCtx b k then some k else (List.range 4).find? (s.freeCtx b)
    | none => (List.range 4).find? (s.freeCtx b)

/-- Configurations that stand in the way on the beads where no context serves. -/
def State.inWay (s : State) (c : Cfg) (g : ConfigGen) : List Nat :=
  (g.ctxs.flatMap fun x =>
    if (s.placeCtx c g x).isSome then []
    else (if g.fixed then [x.id.ctx.val] else List.range 4).filterMap fun k => (s.holder x.id.bead k).map (·.num)).eraseDups

/-- The victim among the evictable ones: latest expected unblock beat, then resident longest, then the lower number. -/
def State.victim (s : State) (ns : List Nat) : Option Nat :=
  (ns.filter s.mayEvict).foldl (fun (best : Option Nat) n =>
    match best with
    | none => some n
    | some m =>
      let a := s.cfgExpect n
      let b := s.cfgExpect m
      let sn := match s.cfg n with | some c => c.since | none => 0
      let sm := match s.cfg m with | some c => c.since | none => 0
      if b < a || (a == b && (sn < sm || (sn == sm && n < m))) then some n else some m) none

/-- Evictions until every needed context is free; none where a victim is not evictable. -/
def State.makeRoom (s : State) (c : Cfg) (g : ConfigGen) (lost : List (BeadId × Fin 512)) : Nat → Option State
  | 0 => none
  | n + 1 =>
    let way := s.inWay c g
    if way.isEmpty then some s
    else if g.fixed && !(way.all s.mayEvict) then none
    else
      match s.victim way with
      | none => none
      | some v => (s.evictCfg v lost).makeRoom c g lost n

/-- Tiles a restore writes: the saved ones of this generation, or the initial ones. -/
def Cfg.restores (c : Cfg) (g : GenSlot ConfigGen) : Bool :=
  match c.saved with | some v => v.ctxs.all fun x => x.gen == g.gen | none => false

/-- Tiles to restore. -/
def Cfg.liveCount (c : Cfg) (g : GenSlot ConfigGen) : Nat :=
  match c.saved with
  | some v => if c.restores g then v.tiles.length else g.val.tiles.length
  | none => g.val.tiles.length

/-- The restore of a waiting configuration begins: its contexts are chosen and taken. -/
def State.beginRestore (lost : List (BeadId × Fin 512)) (s : State) (num : Nat) : State :=
  match s.cfg num with
  | none => s
  | some c =>
    match s.wantedGen c with
    | none => s
    | some g =>
      if c.disabled.contains g.gen then
        let s := s.failConfig num stCONFIG_DISABLED
        s.setCfg { c with waiting := none, release := [], inbox := [] }
      else if c.resident || c.restoring || g.val.ctxs.any (fun x => s.closedBead x.id.bead) then s
      else
        match s.makeRoom c g.val lost 65 with
        | none => s
        | some s =>
          let map := g.val.ctxs.filterMap fun x => (s.placeCtx c g.val x).map fun k => (x.id.bead, k)
          s.setCfg { c with restoring := true, map := map }

/-- Waiting configurations in R351's order. -/
def State.waitingCfgs (s : State) : List Nat :=
  let ws := s.serve.cfgs.filter fun c => c.waiting.isSome && !c.resident && !c.restoring
  let key := fun c : Cfg => (c.waiting.getD 0, match s.wantedGen c with | some g => c.liveCount g | none => 0, c.num)
  (ws.mergeSort fun a b =>
    let x := key a
    let y := key b
    x.1 < y.1 || (x.1 == y.1 && (x.2.1 < y.2.1 || (x.2.1 == y.2.1 && x.2.2 ≤ y.2.2)))).map (·.num)

/-- Configurations that a bead's proving run waits for are evicted when they may be (R445). -/
def State.clearProving (s : State) (lost : List (BeadId × Fin 512)) : State :=
  let ns := (s.arr.ctxs.filter fun c => c.valid && s.provingBead c.id.bead).map (·.config) |>.eraseDups
  ns.foldl (fun s n => if s.mayEvict n then s.evictCfg n lost else s) s

/-- The swap unit (R351); `lost` lists the live tiles whose reads fail in a save it makes. -/
def State.swap (s : State) (lost : List (BeadId × Fin 512)) : State :=
  let s := s.clearProving lost
  s.waitingCfgs.foldl (State.beginRestore lost) s

def execSwapDecision (s : State) (lost : List (BeadId × Fin 512) := []) : Res := .next (s.swap lost)

/-! ### The end of a restore (R352) -/

/-- The MPA of an instance page address of a descriptor (R231, R347). -/
def State.pageMpa (s : State) (inst v : Nat) : Option Nat :=
  ((s.inst inst).pageMap.find? fun p => p.stack == bits v 0 5 && p.lpage == bits v 5 20).map fun p =>
    mpaPage p.stack p.phys + bits v 25 4 * 4096

/-- The 8 bytes of a bead-local offset in the initial tiles of a generation. -/
def ConfigGen.initialMpa (g : ConfigGen) (b : BeadId) (off : Nat) : Option Nat :=
  (g.tiles.find? fun t => t.1 == b && t.2.1 == off / 4096).map fun t => field t.2.2 (off % 4096) 8

/-- The memory descriptors of a context, resolved in the tiles that were restored (R347). -/
def State.resolve (s : State) (inst : Nat) (g : ConfigGen) (placed : List (BeadId × Nat)) (c : Context) : State :=
  c.acts.foldl (fun s a =>
    let off := (memOp a.op.toNat).desc
    if a.unit == 4 && a.op.toNat % 8 ≤ 1 && placed.contains (c.id.bead, off / 4096) then
      match (g.initialMpa c.id.bead off).bind (s.pageMpa inst) with
      | some m => s.storeAt (mpaTile c.id.bead off) (leBytes 8 m)
      | none => s
    else s) s

/-- A restored tile in tile memory. -/
def State.putTile (s : State) (t : BeadId × Nat × Bool × List Byte) : State :=
  s.storeAt (mpaTile t.1 (t.2.1 * 4096)) (fit 4096 t.2.2.2)

/-- Directory of a restored tile: DIRTY from the save, CHECK_VALID for a clean one (R222). -/
def State.putDir (s : State) (t : BeadId × Nat × Bool × List Byte) : State :=
  let x := s.bead t.1
  let bs := s.tileRead t.1 (t.2.1 * 4096) 4096
  s.setBead { x with dir := putKey x.dir t.2.1 ⟨t.2.2.1, !t.2.2.1, if t.2.2.1 then 0 else BitVec.ofNat 32 (crc32c bs)⟩ }

/-- The physical number of a context on its bead. -/
def Cfg.place (c : Cfg) (x : Context) : Context :=
  { x with id := ⟨x.id.bead, Fin.ofNat 4 ((c.physCtx x.id.bead).getD x.id.ctx.val)⟩, config := c.num, valid := true }

/-- The configuration of an instance that a C0-C3 field of its schedule names on a bead, with the physical context where it is
resident: the schedule's own configuration first (R349). -/
def State.schedCfg (s : State) (i : Nat) (b : BeadId) (k : Nat) : Option Cfg :=
  let own := match (s.inst i).sched.current with | some g => g.val.config | none => 64
  let cs := s.serve.cfgs.filter fun c => c.inst == i
  let names := fun c : Cfg => match s.wantedGen c with | some g => g.val.compiled b == some k | none => false
  match cs.find? fun c => c.num == own && names c with
  | some c => some c
  | none => cs.find? names

/-- The completion-target format of R318: bead, compiled context, edge. -/
def targetEdge (t : Nat) : EdgeId :=
  ⟨⟨⟨Fin.ofNat 4 (bits t 0 2), Fin.ofNat 32 (bits t 2 5), Fin.ofNat 16 (bits t 7 4)⟩, Fin.ofNat 4 (bits t 11 2)⟩, Fin.ofNat 8 (bits t 13 3)⟩

/-- An entry of the hub placed on a target of an instance (R324, R354, R362, R370): with tag 0, in flight to the context, or kept until
its configuration is restored, which then waits (R349, R351). -/
def State.placeOn (s : State) (i t : Nat) (data : Word512) : State :=
  let e := targetEdge t
  match s.schedCfg i e.ctx.bead e.ctx.ctx.val with
  | none => s
  | some c =>
    if c.resident then
      let k := (c.physCtx e.ctx.bead).getD e.ctx.ctx.val
      s.fly 4 ⟨⟨e.ctx.bead, Fin.ofNat 4 k⟩, e.edge⟩ [⟨0, data⟩]
    else s.setCfg { c with inbox := c.inbox ++ [(e, data)], waiting := some (c.waiting.getD s.time.clk) }

/-- Gate releases that waited for the restore (R96, R351). -/
def State.applyReleases (s : State) (c : Cfg) (step : Option Nat) : State :=
  c.release.foldl (fun s r => match c.physCtx r.1.bead with
    | some k => s.release ⟨r.1.bead, Fin.ofNat 4 k⟩ r.2 step
    | none => s) s

/-- The newest running step that bound a configuration. -/
def State.stepOf (s : State) (num : Nat) : Option Nat :=
  ((s.serve.steps.filter fun r => r.configs.any fun p => p.1 == num).getLast?).map (·.id)

/-- Every context of a configuration is written and becomes valid. -/
def State.finishRestore (s : State) (c : Cfg) (g : GenSlot ConfigGen) : State :=
  let saved : Option Saved := if c.restores g then c.saved else none
  let fresh := g.val.ctxs.map fun x => { x with gen := g.gen }
  let ctxs := (match saved with | some v => v.ctxs | none => fresh).map c.place
  let ctxs := ctxs.map fun x => { x with lastRun := 0 }
  let tiles : List (BeadId × Nat × Bool × List Byte) := match saved with
    | some v => v.tiles
    | none => g.val.tiles.map fun t => (t.1, t.2.1, false, t.2.2)
  let dicts : List (BeadId × DictPair) := match saved with
    | some v => v.dicts.map fun p => (p.1, { p.2 with ctx := (c.physCtx p.1).getD p.2.ctx })
    | none => g.val.dicts.map fun d => (d.1, ⟨(c.physCtx d.1).getD 0, d.2.1, d.2.2, DictSlot.empty, false⟩)
  let s := tiles.foldl State.putTile s
  let s := ctxs.foldl (fun s x => s.resolve c.inst g.val (tiles.map fun t => (t.1, t.2.1)) x) s
  let s := tiles.foldl State.putDir s
  let s := dicts.foldl (fun s p => s.setBead ((s.bead p.1).setPair p.2)) s
  let s := { s with arr := { s.arr with ctxs := s.arr.ctxs ++ ctxs } }
  let s := s.setCfg { c with resident := true, restoring := false, waiting := none, release := [], inbox := [], saved := none,
                             badSave := false, since := s.time.clk }
  let s := c.inbox.foldl (fun s m =>
    s.fly 4 ⟨⟨m.1.ctx.bead, Fin.ofNat 4 ((c.physCtx m.1.ctx.bead).getD m.1.ctx.ctx.val)⟩, m.1.edge⟩ [⟨0, m.2⟩]) s
  (s.applyReleases c (s.stepOf c.num)).bump (rInst c.inst 0x18)

/-- MPA of a byte of a configuration's CTX pages, in the order in which they were taken (R350). -/
def ConfigGen.pageByte (g : ConfigGen) (at_ : Nat) : Nat :=
  let p := nth (0, 256) g.pages (at_ / 0x10000)
  mpaPage p.1 p.2 + at_ % 0x10000

/-- A CTX tile fails its check: read again once, then the swap-in fails with CTX_LOST (R220, R352). -/
def State.restoreFault (s : State) (c : Cfg) (g : GenSlot ConfigGen) (at_ : Nat) : State :=
  let s := s.mismatch (mpaUnit (g.val.pageByte at_)) (g.val.pageByte at_)
  if !c.badSave then s.setCfg { c with badSave := true }
  else
    let s := s.setCfg { c with restoring := false, waiting := none, release := [], inbox := [], saved := none, badSave := false }
    s.failConfig c.num stCTX_LOST

/-- A restore ends (R352). -/
def State.restoreDone (s : State) (num : Nat) (check : Check) : State :=
  match s.cfg num with
  | none => s
  | some c =>
    match s.wantedGen c with
    | none => s
    | some g =>
      if !c.restoring then s
      else
        match check with
        | .failed at_ _ => s.restoreFault c g at_
        | .corrected at_ n => (s.correctedWords (g.val.pageByte at_) n).finishRestore c g
        | .ok => s.finishRestore c g

/-! ### A remap's evictions (R113) -/

/-- Configurations on the rods that move are evicted at their cheap points, and at a beat boundary the remap applies when none is left
and the accesses to those rods have completed. -/
def State.remapFrame (s : State) (d : Nat) (lost : List (BeadId × Fin 512)) : State :=
  match s.faults.remaps.find? (fun p => p.1 == d) with
  | none => s
  | some (_, p) =>
    let ns := (s.arr.ctxs.filter fun c => c.valid && c.id.bead.die.val == d && c.id.bead.rod.val ≥ p).map (·.config) |>.eraseDups
    let s := ns.foldl (fun s n => if s.mayEvict n then s.evictCfg n lost else s) s
    if s.time.tick = 0 then s.remap d else s

def execRodRemap (die : Fin 4) (s : State) (lost : List (BeadId × Fin 512) := []) : Res := .next (s.remapFrame die.val lost)

/-! ### Generations of a configuration (R348) -/

/-- Generations that `new` no longer has. -/
def goneGens {α : Type} (old new : GenTable α) : List (GenSlot α) := old.slots.filter fun x => new.slots.all fun y => y.gen ≠ x.gen

/-- A configuration's generation table replaced: a generation that leaves takes its resident contexts and CTX pages with it. -/
def State.setGens (s : State) (num : Nat) (t : GenTable ConfigGen) : State :=
  match s.cfg num with
  | none => s
  | some c =>
    let gone := goneGens c.gens t
    let s := s.setCfg { c with gens := t }
    gone.foldl (fun s g =>
      let s := s.freePoolPages c.inst g.val.pages
      if (s.ctxsOf num).any (fun x => x.gen == g.gen) then
        match s.cfg num with
        | some c => (s.invalidate num).setCfg { c with resident := false, saved := none }
        | none => s
      else s) s

/-- A step's references on every configuration dropped. -/
def State.dropConfigRefs (s : State) (step : Nat) : State :=
  s.serve.cfgs.foldl (fun s c => s.setGens c.num (c.gens.release s.time.beat step)) s

end Sys2Proof.Machine
end

