-- ==== Sys2Proof/Machine/Instances.lean ====
section
/-! DEFINITION. Instances: their common-store areas, the loads of their tables, activation, and the commands over them (13 R340 to
R350; 08 R233; 09 R263, R270, R271; 11 R312 to R314; 02 R76; 07 R210, R211; 14 R372, R373; 15 R398). -/
namespace Sys2Proof.Machine

/-! ### Records of instances and generations (R341, R460) -/

/-- Value of an INSTANCE record: the 4-byte state and owner. -/
def Inst.value (x : Inst) : List Byte := leBytes 4 (x.state.code + x.owner * 8)

/-- The INSTANCE record and completion of a lifecycle command (R341, R399). -/
def State.instDone (s : State) (j : Job) (old : Inst) (status : Nat) : State :=
  let i := j.cmd.inst.val
  let x := s.inst i
  s.handCq j.origin false (objInstance i x.state.code) old.value x.value (some { j.cqe with status := status, result := zeros 32 })

/-- TYPE of an adapter generation in a GENERATION record (notes/assumptions/47.md). -/
def typeAdapter : Nat := 0x0A

/-- A generation as a record value. -/
def genValue : Option Nat → List Byte
  | some g => leBytes 4 g
  | none => []

/-- The record of a change of current generation (R211, R271, R341, R373). -/
def State.genRecord (s : State) (type inst id : Nat) (old new : Option Nat) : State :=
  if old == new then s else s.hand 12 (objGeneration type inst id) (genValue old) (genValue new)

/-! ### The common-store area (R230, R233, R346) -/

/-- Hub-allocated tiles. -/
def csTiles : Nat := 126976

/-- Runs of tiles in use: the areas of the instances, the checkpoint store and the install buffer. -/
def State.csRuns (s : State) : List (Nat × Nat) :=
  (Config.ckptTile.val, 160) :: (instTile, 8192) :: (s.serve.insts.filter fun x => x.csArea ≠ 0).map fun x => (x.csBase, x.csArea)

/-- Free tiles from `t` on; zero where `t` itself is in use. -/
def State.csFree (s : State) (t : Nat) : Nat :=
  if s.csRuns.any fun r => r.1 ≤ t && t < r.1 + r.2 then 0
  else (s.csRuns.filter fun r => t ≤ r.1).foldl (fun m r => min m (r.1 - t)) (csTiles - t)

/-- The tiles that an instance's address range takes where nothing bounds it: a sixteenth of the hub's (notes/assumptions/48.md). -/
def csShare : Nat := csTiles / 16

/-- Tiles that records of tables need: how far their load areas reach and the row table's sixteen after them, and how many of them they
hold (R193, R208, R362). -/
def tableTiles (rs : List Rec) : Nat × Nat :=
  let ts := (rs.filter fun r => r.type = 5).filterMap fun r => (parseRoute r.table).map (·.1)
  (ts.foldl (fun m t => max m (t.loadOff + cdiv (16 * t.experts.length) 4096)) 0 + 16,
   ts.foldl (fun n t => n + cdiv (16 * t.experts.length) 4096) 16)

/-- The area of an instance: the lowest free run of the tiles wanted, its share within its limit and at least what its tables need
(notes/assumptions/48.md). -/
def State.csRun (s : State) (need limit : Nat) : Option (Nat × Nat) :=
  let want := max need (min limit csShare)
  let starts := (0 :: s.csRuns.map fun r => r.1 + r.2).mergeSort
  if limit < need then none else (starts.find? fun t => want ≤ s.csFree t).map fun t => (t, want)

/-! ### Shards as activation reads them (R254, R343, R344) -/

/-- The data of a shard, from its vault pages. -/
def State.shardData (s : State) (c : CatEntry) (h : Shard) : List Byte :=
  (((c.extent.filter fun e => e.1 == h.index).map (·.2)).flatMap fun v => s.load (mpaVault (v * 65536)) 65536).take h.length

/-- Vault page that holds 64 KiB page `n` of a shard's data. -/
def CatEntry.vaultPage (c : CatEntry) (shard n : Nat) : Option Nat :=
  ((c.extent.filter fun e => e.1 == shard)[n]? : Option (Nat × Nat)).map (·.2)

/-- A row of the directory (R344). -/
structure DirRow where
  shard : Nat
  kind  : Nat
  cls   : Nat
  stack : Nat
  lpage : Nat
  first : Nat
  pages : Nat
  deriving DecidableEq, Repr

/-- Page kinds: weights, adapter weights, gather tables (R343). -/
def pageKind (k : Nat) : Bool := k = 0 || k = 6 || k = 7

def dirRow (bs : List Byte) : DirRow :=
  let v := field bs 0 8
  { shard := bits v 0 16, kind := bits v 16 8, cls := bits v 24 3, stack := bits v 27 5, lpage := bits v 32 20, first := field bs 8 4,
    pages := field bs 12 4 }

/-- A row is well formed for its shard (R344); one that is not refuses the activation with INVALID_FIELD (notes/assumptions/39.md). -/
def dirRowOk (shards : List Shard) (bs : List Byte) : Bool :=
  let r := dirRow bs
  bits (field bs 0 8) 52 12 = 0 && r.kind ≤ 7 &&
    (match shards.find? fun h => h.index == r.shard with | some h => h.kind = r.kind | none => true) &&
    (if pageKind r.kind then
      r.stack < 24 && r.cls ≤ 5 && 1 ≤ r.pages && r.lpage + r.pages ≤ 1048320 &&
        (match shards.find? fun h => h.index == r.shard with | some h => (r.first + r.pages) ≤ cdiv h.length 65536 | none => true)
     else r.cls = 0 && r.stack = 0 && r.lpage = 0 && r.first = 0 && r.pages = 0)

/-- The shard of the directory: the lowest kept one of KIND 2 that addresses the module's coordinates (R268, R344). -/
def State.dirShard (s : State) (c : CatEntry) : Option Shard :=
  (c.shards.filter fun h => h.kind = 2 && c.kept.contains h.index && h.at_ s.fab.row s.fab.col).head?

/-- The directory: the first record of that shard (R344). -/
def State.directory (s : State) (c : CatEntry) (h : Shard) : Option (List DirRow) :=
  match recsOf (s.shardData c h) with
  | some (r :: _) =>
    let raws := pieces 16 (r.table.length / 16) r.table
    if r.type = 0 && r.table.length % 16 = 0 && raws.all (dirRowOk c.shards) then some (raws.map dirRow) else none
  | _ => none

/-- Vault pages of a shard's data, in order. -/
def CatEntry.dataPages (c : CatEntry) (h : Shard) : List Nat := (List.range (cdiv h.length 65536)).filterMap (c.vaultPage h.index)

/-! ### The tables an instance loads (R76, R343, R346) -/

/-- Everything that one activation or TABLE_LOAD brings. -/
structure Loaded where
  sched   : Option (Sched × Nat)          -- with its generation
  slots   : List SlotTable
  lists   : List PfList
  colls   : List CollDesc
  budget  : Option Budget
  routes  : List (Nat × RouteTable × Nat)
  sampler : Option (SamplerRec × Nat)
  cfgs    : List (ConfigGen × Nat × Nat)  -- contents, local index, generation
  deriving DecidableEq, Repr

def Loaded.none : Loaded := ⟨.none, [], [], [], .none, [], .none, []⟩

/-- A dictionary record is installed for every context of the configuration before it (notes/assumptions/49.md). -/
def Loaded.addDict (l : Loaded) (id : Nat) (d : DictSlot) : Loaded :=
  match l.cfgs.reverse with
  | [] => l
  | (g, n, gen) :: rest =>
    let g := { g with dicts := g.dicts ++ g.ctxs.map fun c => (c.id.bead, id, d) }
    { l with cfgs := (rest.reverse) ++ [(g, n, gen)] }

/-- A slot table's RATE is its port's trained rate (R74). -/
def State.slotRateOk (s : State) (t : SlotTable) : Bool := t.rate = flag (s.port t.port).rateTrained

/-- One record added; `routes` are the instance's routing tables. None where its chapter refuses it. -/
def State.addRec (s : State) (inst base area : Nat) (routes : List (Nat × RouteTable)) (l : Loaded) (r : Rec) : Option Loaded :=
  match r.type with
  | 0 => some l
  | 1 =>
    match parseSched r.table with
    | some (x, i, gen) => if l.sched.isNone && i = inst then some { l with sched := some (x, gen) } else none
    | none => none
  | 2 => (parseSlots r.table).bind fun t => if s.slotRateOk t then some { l with slots := l.slots ++ [t] } else none
  | 3 => (parseList r).map fun p => { l with lists := l.lists ++ [p] }
  | 4 =>
    (parseColls base r).bind fun ds =>
      if ds.any (fun d => l.colls.any fun e => e.index == d.index) then none else some { l with colls := l.colls ++ ds }
  | 5 =>
    (parseRoute r.table).bind fun p =>
      if r.id < 256 && p.1.fits area && l.routes.all (fun q => q.1 ≠ r.id) then some { l with routes := l.routes ++ [(r.id, p.1, p.2)] }
      else none
  | 6 => (parseSampler r.table).bind fun p => if l.sampler.isNone then some { l with sampler := some p } else none
  | 7 => (parseDict r).bind fun d => if r.id < 8 then some (l.addDict r.id d) else none
  | 8 =>
    (parseConfig r.table routes).bind fun p =>
      if l.cfgs.all (fun q => q.2.1 ≠ p.2.1) then some { l with cfgs := l.cfgs ++ [(p.1, p.2.1, p.2.2)] } else none
  | 9 => (parseBudget r.table).bind fun b => if l.budget.isNone then some { l with budget := some b } else none
  | _ => none

/-- All records, in order. -/
def State.addRecs (s : State) (inst base area : Nat) (routes : List (Nat × RouteTable)) : List Rec → Loaded → Option Loaded
  | [], l => some l
  | r :: rs, l => (s.addRec inst base area routes l r).bind (s.addRecs inst base area routes rs)

/-- The schedule generation of a load, with what binds with it and its configuration as a module number. -/
def Loaded.schedule (l : Loaded) (cfgOf : Nat → Nat) : Option (Sched × Nat) :=
  l.sched.map fun p =>
    ({ p.1 with config := cfgOf p.1.config, slotTables := l.slots, lists := l.lists, colls := l.colls, budget := l.budget }, p.2)

/-- Consecutive STATE pages from an instance page on hold `n` bytes (R370, R372). -/
def statePages (m : List PageMapEntry) (page n : Nat) : Bool :=
  (List.range (cdiv n 65536)).all fun k =>
    m.any fun e => e.stack == bits page 0 5 && e.lpage == bits page 5 20 + k && e.cls == 5

/-- The logit areas fit (R372). -/
def SamplerRec.areasOk (x : SamplerRec) (m : List PageMapEntry) (maxRows : Nat) : Bool :=
  statePages m x.logitPage (x.rowBytes * maxRows) &&
    (x.dlogitPage = 0xFFFFFFFF || statePages m x.dlogitPage (x.rowBytes * maxRows))

/-- MAX_ROWS of an instance's current budget. -/
def Inst.maxRows (x : Inst) : Nat :=
  match x.sched.current with
  | some g => match g.val.budget with | some b => b.maxRows | none => 0
  | none => 0

/-- The current budget of an instance. -/
def Inst.budget (x : Inst) : Option Budget := x.sched.current.bind fun g => g.val.budget

/-! ### Loads that wait for a slot (R76, R210, R271, R348, R373) -/

/-- Frame dies of an instance's configurations. -/
def State.instDies (s : State) (i : Nat) : List Nat :=
  ((s.serve.cfgs.filter fun c => c.inst == i).flatMap fun c => c.gens.slots.flatMap fun g => g.val.ctxs.map fun x => x.id.bead.die.val).eraseDups

/-- A generation's beat: its effective beat, or the first boundary after it loads (R211, R348). -/
def State.dueBeat (s : State) (due : Nat) : Nat := if due ≤ s.time.beat then s.time.beat + 1 else due

/-- A late placement, when the generation becomes current (R211, R214, R414). -/
def State.latePlacement (s : State) (i id gen : Nat) : State :=
  let s := (s.instDies i).foldl (fun s d => s.bump (rFrame d 0xB8)) s
  s.instEvent 0x12 i 0xFF 0 locNone (leBytes 1 id ++ zeros 3 ++ leBytes 4 gen)

/-- The adapter table of a slot. -/
def Inst.adapter (x : Inst) (slot : Nat) : GenTable Adapter := (findKey x.adapters slot).getD GenTable.empty

/-- The routing table of a ROUTE_ID. -/
def Inst.route (x : Inst) (id : Nat) : GenTable RouteTable := (findKey x.routes id).getD GenTable.empty

/-- BOUND of a catalogue entry changed. -/
def State.bind (s : State) (entry : Nat) (up : Bool) : State :=
  match s.entryAt entry with
  | some c => s.setEntry { c with bound := if up then c.bound + 1 else c.bound - 1 }
  | none => s

/-- An adapter generation leaves: its pages and its binding (R271). -/
def State.dropAdapter (s : State) (i : Nat) (a : Adapter) : State :=
  let x := s.inst i
  let mine := x.pageMap.filter fun e => a.pages.contains (e.stack, e.lpage)
  let s := s.setInst i { x with pageMap := x.pageMap.filter fun e => !(a.pages.contains (e.stack, e.lpage)) }
  (s.freePoolPages i ((mine.filter (·.present)).map fun e => (e.stack, e.phys))).bind a.entry false

/-- An adapter slot's table replaced; generations that leave are dropped. -/
def State.setAdapter (s : State) (i slot : Nat) (t : GenTable Adapter) : State :=
  let x := s.inst i
  let gone := goneGens (x.adapter slot) t
  gone.foldl (fun s g => s.dropAdapter i g.val) (s.setInst i { x with adapters := putKey x.adapters slot t })

/-- Pages of the adapter's shards (page data, vault page), in order. -/
def CatEntry.adapterPages (c : CatEntry) : List Nat :=
  (c.shards.filter fun h => h.kind = 6 && c.kept.contains h.index).flatMap c.dataPages

/-- First instance page of a stack past every one in use. -/
def Inst.nextLpage (x : Inst) (k : Nat) : Nat :=
  (x.pageMap.filter fun e => e.stack == k).foldl (fun m e => max m (e.lpage + 1)) 0

/-- One instance page given its physical page and its vault copy. -/
def State.placePage (s : State) (i k lpage phys cls : Nat) (vault : Option Nat) : State :=
  let x := s.inst i
  let s := s.setInst i { x with pageMap := x.pageMap ++ [⟨k, lpage, phys, true, vault, cls⟩] }
  match vault with
  | some v => s.storeAt (mpaPage k phys) (s.load (mpaVault (v * 65536)) 65536)
  | none => s

/-- The adapter's pages allocated, read and copied (R249, R271): WEIGHT pages spread over the stacks in turn
(notes/assumptions/50.md). -/
def State.loadAdapter (s : State) (i : Nat) (c : CatEntry) (reads : List Check) : Except Nat Adapter × State :=
  let vs := c.adapterPages
  let plan := (List.range 24).map fun k => (k, (vs.zipIdx.filter fun p => p.2 % 24 = k).length, 0)
  match s.allocateAll i plan [] with
  | (.error e, s) => (.error e, s)
  | (.ok got, s) =>
    match s.readVault vs reads with
    | (false, _, s) => (.error stSHARD_FAULT, s.freePoolPages i got.flatten)
    | (true, _, s) =>
    let vk := fun k : Nat => (vs.zipIdx.filter fun p => p.2 % 24 = k).map (·.1)
    let put := fun (a : State × List (Nat × Nat)) (p : List (Nat × Nat) × Nat) =>
      (p.1.zip (vk p.2)).foldl (fun (a : State × List (Nat × Nat)) q =>
        let l := (a.1.inst i).nextLpage p.2
        (a.1.placePage i p.2 l q.1.2 0 (some q.2), a.2 ++ [(p.2, l)])) a
    let r := got.zipIdx.foldl put (s, [])
    (.ok ⟨c.index, r.2⟩, r.1)

/-- The COMMAND record of a load, and the completion that waits on it (R399, R401). -/
def State.loadDone (s : State) (w : WaitLoad) : State :=
  s.handCq w.origin false w.object [] w.digest (w.cqe.map fun q => { q with status := stOK })

/-- A load placed in the free slot of its table; none where both slots are in use. -/
def State.placeLoad (s : State) (w : WaitLoad) : Option State :=
  let i := bits w.object 16 4
  let x := s.inst i
  let now := s.time.beat
  match w.what with
  | .sched v gen due =>
    if !x.sched.hasRoom || !(v.slotTables.all s.canSlot) then none
    else
      let s := s.setInst i { x with sched := x.sched.load gen v (s.dueBeat due) }
      some ((v.slotTables.foldl (fun s t => s.loadSlot t (s.dueBeat due)) s).loadDone w)
  | .route id v gen due =>
    if !(x.route id).hasRoom then none
    else
      let late := if due ≤ now then x.lateRoutes ++ [(id, gen)] else x.lateRoutes
      some ((s.setInst i { x with routes := putKey x.routes id ((x.route id).load gen v (s.dueBeat due)), lateRoutes := late }).loadDone w)
  | .sampler v gen =>
    if !x.sampler.hasRoom then none
    else
      let s := (s.setInst i { x with sampler := x.sampler.enter now gen v }).loadDone w
      some (s.genRecord 6 i 0 x.sampler.cur (some gen))
  | .config num v gen due =>
    match s.cfg num with
    | none => some (s.loadDone w)
    | some c => if !c.gens.hasRoom then none else some ((s.setGens num (c.gens.load gen v (s.dueBeat due))).loadDone w)
  | .adapter slot v gen reads =>
    if !(x.adapter slot).hasRoom then none
    else
      match s.entryAt v.entry with
      | none => some (s.loadDone w)
      | some c =>
        match s.loadAdapter i c reads with
        | (.error e, s) => some (match w.cqe with | some q => s.cqWrite { q with status := e } | none => s)
        | (.ok a, s) =>
          let old := (x.adapter slot).cur
          let key := (x.adapter slot).freshGen gen
          let s := (s.bind c.index true).setAdapter i slot ((x.adapter slot).enter now key a)
          some ((s.loadDone w).genRecord typeAdapter i slot old (some key))
  | .slots v => if s.canSlot v then some (s.loadSlot v (now + 1)) else none

/-- A load placed now, or left to wait. -/
def State.load_ (s : State) (w : WaitLoad) : State :=
  match s.placeLoad w with
  | some s => s
  | none =>
    let s : State := match w.what with | .sampler _ _ => s.bump 0xA0030 | _ => s
    { s with serve := { s.serve with waits := s.serve.waits ++ [w] } }

/-- Waiting loads placed in their order where a slot has come free. -/
def State.retryLoads (s : State) : State :=
  s.serve.waits.foldl (fun s w => match s.placeLoad w with
    | some s => { s with serve := { s.serve with waits := s.serve.waits.erase w } }
    | none => s) s

/-! ### INSTANCE_CREATE, INSTANCE_RESTART, INSTANCE_RELEASE (R341, R342) -/

/-- INSTANCE_CREATE (R263, R265, R296, R341, R487). -/
def State.createInst (s : State) (j : Job) : State :=
  let a := j.cmd.args
  let i := j.cmd.inst.val
  let x := s.inst i
  let owner := field a 20 1
  let entry := s.entryOf (field a 0 16) (field a 16 4)
  if owner = 0 || owner > 9 || !(argsZero a 21 23) then s.fail j stINVALID_FIELD
  else if !s.svc.hbmReady then s.fail j stNOT_READY
  else if x.state != .free then s.fail j stBUSY
  else
    match entry with
    | none => s.fail j stINVALID_FIELD
    | some c =>
      if c.state = 4 then s.fail j stIMAGE_STALE
      else if c.state ≠ 3 || c.kind ≠ 0 then s.fail j stINVALID_FIELD
      else if s.fab.row = 8 then s.fail j stSPARE_ROLE
      else
        let s := (s.bind c.index true).setInst i { Inst.reset with state := .created, owner := owner, entry := some c.index }
        s.instDone j x stOK

def execInstanceCreate (c : Cmd) (s : State) : Res := .next (s.command 0x01 c ⟨onlyPf, true, none, true⟩ State.createInst)

/-- An instance with a page absent. -/
def Inst.hasAbsent (x : Inst) : Bool := x.pageMap.any fun e => !e.present

/-- INSTANCE_RESTART (R64, R341, R342). DESIGN CHOICE (notes/assumptions/40.md): an instance that lost pages while it was torn down
returns to PARTIAL. -/
def State.restartInst (s : State) (j : Job) : State :=
  let i := j.cmd.inst.val
  let x := s.inst i
  if !(argsZero j.cmd.args 0 44) then s.fail j stINVALID_FIELD
  else if x.state != .tornDown then s.fail j stNOT_READY
  else if (match x.sched.current with | some g => g.val.period != s.time.period | none => false) then s.fail j stPERIOD_MISMATCH
  else
    let y := { x with state := if x.hasAbsent then .part else .active, stopped := false, fired := (s.time.tick + 1, 0) }
    (s.setInst i y).instDone j x stOK

def execInstanceRestart (c : Cmd) (s : State) : Res := .next (s.command 0x04 c ⟨pfOrOwner, true, none, true⟩ State.restartInst)

/-- A final record without tokens for a request that ends outside a step (R384). -/
def State.endRecord (s : State) (i : Nat) (q : Seq) (status : Nat) : State :=
  s.tqWrite q.tq { req := q.req, inst := i, accepted := 0, drafted := 0, numeric := 0, final := true, reason := 0, drop := false,
                   clamp := false, replay := false, penFull := q.penFull, nonfin := false, status := status, tokens := [] }

/-- The outstanding fabric requests of an instance are abandoned: later responses are late (R315, R317). -/
def State.abandonRequests (s : State) (i : Nat) : State :=
  let mine := s.fab.requests.filter fun r => r.inst == i
  let held := (mine.flatMap (·.tiles)).foldl (fun (l : List Nat) t => l.erase t) s.mem.pendTiles
  let s := s.setMem { s.mem with pendTiles := held }
  s.setFab { s.fab with requests := s.fab.requests.filter (fun r => r.inst ≠ i), lost := s.fab.lost ++ mine.map (·.tag) }

/-- Everything an instance holds is freed, and its bindings with it (R263, R341). -/
def State.freeInst (s : State) (i : Nat) : State :=
  let x := s.inst i
  let nums := (s.serve.cfgs.filter fun c => c.inst == i).map (·.num)
  let s := nums.foldl State.invalidate s
  let s := (x.adapters.flatMap fun p => p.2.slots.map (·.val.entry)).foldl (fun s e => s.bind e false) s
  let s := match x.entry with | some e => s.bind e false | none => s
  let s := s.setMem { s.mem with pages := s.mem.pages.filter fun p => p.owner ≠ i }
  let s : State := { s with serve := { s.serve with
    cfgs := s.serve.cfgs.filter fun c => c.inst ≠ i, colls := s.serve.colls.filter fun c => c.inst ≠ i,
    waits := s.serve.waits.filter fun w => bits w.object 16 4 ≠ i } }
  s.abandonRequests i

/-- INSTANCE_RELEASE (R341). DESIGN CHOICE (notes/assumptions/40.md): queued requests end with CANCELLED, and the release of a FREE
instance answers OK. -/
def State.releaseInst (s : State) (j : Job) : State :=
  let i := j.cmd.inst.val
  let x := s.inst i
  if !(argsZero j.cmd.args 0 44) then s.fail j stINVALID_FIELD
  else if !x.seqs.isEmpty || s.serve.steps.any (fun r => r.inst == i) then s.fail j stBUSY
  else
    let s := x.queue.foldl (fun s q => s.endRecord i q stCANCELLED) s
    ((s.freeInst i).setInst i Inst.reset).instDone j x stOK

def execInstanceRelease (c : Cmd) (s : State) : Res := .next (s.command 0x05 c ⟨onlyPf, true, none, true⟩ State.releaseInst)

/-! ### Activation and refill (R342, R346, R350) -/

/-- What a page of an allocation is for. -/
inductive PageUse where
  | sys | row (n : Nat) | ctx (n : Nat)
  deriving DecidableEq, Repr

/-- Stacks of a configuration's frame dies. -/
def ConfigGen.stackList (g : ConfigGen) : List Nat :=
  (List.range 24).filter fun k => g.ctxs.any fun c => c.id.bead.die.val = k / 6

/-- CTX pages of a configuration on a stack (R350): its pages go round the stacks of its dies. -/
def ConfigGen.ctxPages (g : ConfigGen) (k : Nat) : Nat :=
  match g.stackList.idxOf? k with
  | none => 0
  | some j => ((List.range (cdiv (g.store * 4096) 65536)).filter fun p => p % g.stackList.length = j).length

/-- Allocations of an activation, stack by stack (R346). -/
def actPlan (rows : List DirRow) (cfgs : List ConfigGen) : List ((Nat × Nat × Nat) × PageUse) :=
  (List.range 24).flatMap fun k =>
    let mine := rows.zipIdx.filter fun r => pageKind r.1.kind && r.1.stack = k
    let top := mine.foldl (fun m r => max m (r.1.lpage + r.1.pages)) 0
    [((k, cdiv (top * 8) 65536, 6), PageUse.sys)] ++ mine.map (fun r => ((k, r.1.pages, r.1.cls), PageUse.row r.2)) ++
      cfgs.zipIdx.map fun g => ((k, g.1.ctxPages k, 4), PageUse.ctx g.2)

/-- Page-kind rows copied from the vault into their pages (R219, R345, R346). -/
def State.copyRow (s : State) (i : Nat) (c : CatEntry) (r : DirRow) (ps : List (Nat × Nat)) : State :=
  ps.zipIdx.foldl (fun s p =>
    let v := c.vaultPage r.shard (r.first + p.2)
    let s := s.placePage i r.stack (r.lpage + p.2) p.1.2 r.cls v
    if r.cls ≤ 2 then s
    else
      let x := s.inst i
      s.setInst i { x with pageMap := x.pageMap.map fun e =>
        if e.stack == r.stack && e.lpage == r.lpage + p.2 then { e with vault := none } else e }) s

/-- Module configuration numbers for `n` configurations: the lowest free ones (R346). -/
def State.freeNums (s : State) (n : Nat) : List Nat :=
  ((List.range 64).filter fun k => s.serve.cfgs.all fun c => c.num ≠ k).take n

/-- A configuration's remote request queues as an instance holds them (R307). -/
def rrqsOf (num : Nat) (g : ConfigGen) : List Rrq := g.rrqs.map fun q => ⟨q.1, num, q.2, 0, false, []⟩

/-- A slot table of an activation (R76, R346): current at once where its port has none, from the next boundary where a slot is free, and
left to wait where both are in use. -/
def State.enterSlot (s : State) (v : SlotTable) : State :=
  let t := s.slotTab v.port
  if t.has v.gen then s
  else if t.slots.isEmpty then s.setSlotTab v.port (t.enter s.time.beat v.gen v)
  else
    s.load_ { cqe := none, origin := 12, object := 0, digest := [], what := .slots v }

/-- The tables and configurations entered (R346). -/
def State.enterTables (s : State) (i : Nat) (l : Loaded) (nums : List Nat) (ctx : Nat → List (Nat × Nat)) : State :=
  let now := s.time.beat
  let pairs := (l.cfgs.zip nums).zipIdx
  let cfgOf := fun n : Nat => match pairs.find? (fun p => p.1.1.2.1 == n) with | some p => p.1.2 | none => 64
  let cfgs := pairs.map fun p =>
    let g := { p.1.1.1 with pages := ctx p.2 }
    ({ num := p.1.2, inst := i, loc := p.1.1.2.1, gens := GenTable.enter GenTable.empty now p.1.1.2.2 g, resident := false, restoring := false,
       map := [], waiting := none, release := [], inbox := [], since := 0, saved := none, badSave := false, disabled := [], deadlock := none } : Cfg)
  let s : State := { s with serve := { s.serve with cfgs := s.serve.cfgs ++ cfgs } }
  let x := s.inst i
  let x := match l.schedule cfgOf with | some (v, gen) => { x with sched := GenTable.enter x.sched now gen v } | none => x
  let x := match l.sampler with | some (v, gen) => { x with sampler := GenTable.enter x.sampler now gen v } | none => x
  let rrqs := pairs.flatMap fun p => rrqsOf p.1.2 p.1.1.1
  let s := s.setInst i { x with
    routes := l.routes.map fun r => (r.1, GenTable.enter GenTable.empty now r.2.2 r.2.1), rrqs := rrqs, state := .active,
    fired := (s.time.tick + 1, 0) }
  l.slots.foldl State.enterSlot s

/-- SEQ_SLOTS of every instance (R346). -/
def State.seqSlots (s : State) : Nat :=
  s.serve.insts.foldl (fun n x => n + match x.budget with | some b => b.seqSlots | none => 0) 0

/-- Records of the table shards of a directory. -/
def State.dirRecs (s : State) (c : CatEntry) (rows : List DirRow) : Option (List Rec) :=
  (rows.filter fun r => !(pageKind r.kind)).foldl (fun acc r =>
    match acc, c.shards.find? (fun h => h.index == r.shard) with
    | some rs, some h => (recsOf (s.shardData c h)).map (rs ++ ·)
    | _, _ => none) (some [])

/-- Routing tables among records, by ROUTE_ID. -/
def routesOf (rs : List Rec) : List (Nat × RouteTable) :=
  (rs.filter fun r => r.type = 5).filterMap fun r => (parseRoute r.table).map fun p => (r.id, p.1)

/-- Vault pages of the table shards of a directory, and of its page-kind rows, in order. -/
def CatEntry.tablePages (c : CatEntry) (rows : List DirRow) : List Nat :=
  (rows.filter fun r => !(pageKind r.kind)).flatMap fun r => (c.shards.filter fun h => h.index = r.shard).flatMap c.dataPages

def CatEntry.rowPages (c : CatEntry) (rows : List DirRow) : List Nat :=
  (rows.filter fun r => pageKind r.kind).flatMap fun r => (List.range r.pages).filterMap fun n => c.vaultPage r.shard (r.first + n)

/-- The page-kind entries copied, and the tables entered with their configurations (R346). An image without the one sampler record of R370 is
refused (notes/assumptions/39.md). -/
def State.enterRows (s : State) (i : Nat) (c : CatEntry) (rows : List DirRow) (rs : List Rec)
    (uses : List (PageUse × List (Nat × Nat))) : Except Nat Unit × State :=
  let x := s.inst i
  let s := rows.zipIdx.foldl (fun s r =>
    match uses.find? (fun u => u.1 == PageUse.row r.2) with | some u => s.copyRow i c r.1 u.2 | none => s) s
  match s.addRecs i x.csBase x.csArea (routesOf rs) rs Loaded.none with
  | none => (.error stINVALID_FIELD, s)
  | some l =>
    let maxRows := match l.budget with | some b => b.maxRows | none => 0
    let ok := match l.sampler with | some x => x.1.areasOk (s.inst i).pageMap maxRows | none => false
    if !ok then (.error stINVALID_FIELD, s)
    else
      let ctx := fun k => (uses.filter fun u => u.1 == PageUse.ctx k).flatMap (·.2)
      (.ok (), s.enterTables i l (s.freeNums l.cfgs.length) ctx)

/-- What follows the reading of the tables (R346): the limits, the allocations, and the copies with their reads. -/
def State.takeRows (s : State) (i : Nat) (c : CatEntry) (rows : List DirRow) (rs : List Rec) (reads : List Check) : Except Nat Unit × State :=
  let n := (rs.filter fun r => r.type = 8).length
  let slots := match rs.find? (fun r => r.type = 9) with
    | some r => match parseBudget r.table with | some b => b.seqSlots | none => 0
    | none => 0
  if s.serve.cfgs.length + n > 64 then (.error stCONFIG_LIMIT, s)
  else if s.seqSlots + slots > 16384 then (.error stSEQ_LIMIT, s)
  else
    let raw := (rs.filter fun r => r.type = 8).filterMap fun r => (parseConfig r.table (routesOf rs)).map (·.1)
    let plan := actPlan rows raw
    match s.allocateAll i (plan.map (·.1)) [] with
    | (.error e, s) => (.error e, s)
    | (.ok got, s) =>
      let x := s.inst i
      let tiles := tableTiles rs
      match s.csRun tiles.1 (x.acct.csLimit - x.acct.csUsed) with
      | none => (.error stPOOL_LIMIT, s)
      | some (base, area) =>
        let y := { x with csBase := base, csArea := area, acct := { x.acct with csUsed := x.acct.csUsed + tiles.2 } }
        let s := (s.setInst i y).zeroAt (mpaCs (base * 4096)) (area * 4096)
        match s.readVault (c.rowPages rows) reads with
        | (false, _, s) => (.error stSHARD_FAULT, s)
        | (true, _, s) => s.enterRows i c rows rs ((plan.map (·.2)).zip got)

/-- The order of R346; the error is the status. `reads` gives how the vault's tiles are read: those of the directory's shard, of the table
shards, and of the page-kind entries, one access after the other (R249). -/
def State.activate (s : State) (i : Nat) (c : CatEntry) (reads : List Check) : Except Nat Unit × State :=
  match s.dirShard c with
  | none => (.error stSHARD_ABSENT, s)
  | some h =>
    match s.readVault (c.dataPages h) reads with
    | (false, _, s) => (.error stSHARD_FAULT, s)
    | (true, reads, s) =>
      match s.directory c h with
      | none => (.error stINVALID_FIELD, s)
      | some rows =>
        if rows.any (fun r => !(c.kept.contains r.shard) || c.owed.contains r.shard) then (.error stSHARD_ABSENT, s)
        else if rows.any (fun r => c.bad.contains r.shard) then (.error stSHARD_FAULT, s)
        else
          match s.readVault (c.tablePages rows) reads with
          | (false, _, s) => (.error stSHARD_FAULT, s)
          | (true, reads, s) =>
            match s.dirRecs c rows with
            | none => (.error stINVALID_FIELD, s)
            | some rs => s.takeRows i c rows rs reads

/-- A failed activation frees what it took (R346). -/
def State.undoActivation (s : State) (i : Nat) (x : Inst) : State :=
  let s := s.freePoolPages i ((s.mem.pages.filter fun p => p.owner == i).map fun p => (p.stack, p.num))
  s.setInst i { x with acct := { (s.inst i).acct with csUsed := x.acct.csUsed } }

/-- The absent pages of an instance. -/
def Inst.absent (x : Inst) : List PageMapEntry := x.pageMap.filter fun e => !e.present

/-- A refill (R235, R342): the absent pages, read from the vault (R249) and allocated again. DESIGN CHOICE (notes/assumptions/40.md): one
that fails leaves the instance PARTIAL. -/
def State.refillInst (s : State) (i : Nat) (reads : List Check) : Except Nat Unit × State :=
  let x := s.inst i
  let es := x.absent
  let s := s.setInst i { x with state := .activating }
  let back := fun s : State => s.setInst i { s.inst i with state := .part }
  match s.readVault (es.filterMap (·.vault)) reads with
  | (false, _, s) => (.error stSHARD_FAULT, back s)
  | (true, _, s) =>
    match s.allocateAll i (es.map fun e => (e.stack, 1, e.cls)) [] with
    | (.error n, s) => (.error n, back s)
    | (.ok got, s) =>
      let fill := fun (s : State) (p : PageMapEntry × List (Nat × Nat)) =>
        match p.2.head? with
        | none => s
        | some q =>
          let y := s.inst i
          let s := s.setInst i { y with pageMap := y.pageMap.map fun e =>
            if e.stack == p.1.stack && e.lpage == p.1.lpage then { e with phys := q.2, present := true } else e }
          match p.1.vault with
          | some v => s.storeAt (mpaPage q.1 q.2) (s.load (mpaVault (v * 65536)) 65536)
          | none => s
      let s := (es.zip got).foldl fill s
      (.ok (), s.setInst i { s.inst i with state := .active, fired := (s.time.tick + 1, 0) })

/-- ACTIVATE (R296, R341, R342, R346, R487). -/
def State.activateCmd (s : State) (j : Job) (checks : List Check) : State :=
  let i := j.cmd.inst.val
  let x := s.inst i
  if !(argsZero j.cmd.args 0 44) then s.fail j stINVALID_FIELD
  else if !s.svc.hbmReady then s.fail j stNOT_READY
  else if s.fab.row = 8 then s.fail j stSPARE_ROLE
  else if x.state == .part then
    match s.refillInst i checks with
    | (.ok _, s) => s.instDone j x stOK
    | (.error e, s) => s.instDone j x e
  else
    match x.state, x.entry.bind s.entryAt with
    | .created, some c =>
      if !s.vault.mapReady then s.fail j stNOT_READY
      else
        match (s.setInst i { x with state := .activating }).activate i c checks with
        | (.ok _, s) => s.instDone j x stOK
        | (.error e, s) =>
          let s := s.undoActivation i x
          if isRefusal e then s.fail j e else s.instDone j x e
    | _, _ => s.fail j stNOT_READY

def execActivate (c : Cmd) (checks : List Check) (s : State) : Res :=
  .next (s.command 0x02 c ⟨pfOrOwner, true, none, true⟩ fun s j => s.activateCmd j checks)

/-! ### Loads by command (R76, R211, R348, R373, R398) -/

/-- A load's own record and slot. -/
def State.startLoad (s : State) (j : Job) (id : Nat) (what : LoadWhat) (result : List Byte) : State :=
  s.load_ { cqe := some { j.cqe with result := fit 32 result }, origin := j.origin, object := objCommand j.opcode j.cmd.inst.val id,
            digest := cmdValue j.cmd, what := what }

/-- The current routing tables of an instance, by ROUTE_ID (R210). -/
def Inst.tables (x : Inst) : List (Nat × RouteTable) := x.routes.filterMap fun p => p.2.current.map fun g => (p.1, g.val)

/-- CONFIG_LOAD (R341, R348, R350, R398). -/
def State.configLoad (s : State) (j : Job) : State :=
  let a := j.cmd.args
  let i := j.cmd.inst.val
  let x := s.inst i
  let due := field a 0 6
  match parseConfig j.cmd.block x.tables with
  | none => s.fail j stINVALID_FIELD
  | some (g, loc, gen) =>
    match s.serve.cfgs.find? fun c => c.inst == i && c.loc == loc with
    | none => s.fail j stINVALID_FIELD
    | some c =>
      if due < j.stamp.beat + 2 || !(argsZero a 6 38) || c.gens.has gen then s.fail j stINVALID_FIELD
      else
        match s.allocateAll i ((List.range 24).map fun k => (k, g.ctxPages k, 4)) [] with
        | (.error e, s) => s.fail j e
        | (.ok got, s) => s.startLoad j c.num (.config c.num { g with pages := got.flatten } gen due) (leBytes 1 c.num)

def execConfigLoad (c : Cmd) (s : State) : Res :=
  .next (s.command 0x03 c ⟨onlyPf, true, some c.paramLen.toNat, true⟩ State.configLoad)

/-- Record types of a schedule generation (R398). -/
def schedType (r : Rec) : Bool := (1 ≤ r.type && r.type ≤ 4) || r.type = 9

/-- TABLE_LOAD (R69, R74, R76, R398). -/
def State.tableLoad (s : State) (j : Job) : State :=
  let a := j.cmd.args
  let i := j.cmd.inst.val
  let x := s.inst i
  let due := field a 0 6
  let cfgOf := fun n : Nat => match s.serve.cfgs.find? (fun c => c.inst == i && c.loc == n) with | some c => c.num | none => 64
  let l := (recsOf j.cmd.block).bind fun rs =>
    if rs.all schedType then s.addRecs i x.csBase x.csArea [] rs Loaded.none else none
  match l.bind fun l => l.schedule cfgOf with
  | none => s.fail j stINVALID_FIELD
  | some (v, gen) =>
    if due < j.stamp.beat + 2 || !(argsZero a 6 38) || x.sched.has gen || x.state == .free || x.state == .created then
      s.fail j stINVALID_FIELD
    else s.startLoad j 0 (.sched v gen due) (leBytes 4 gen)

def execTableLoad (c : Cmd) (s : State) : Res :=
  .next (s.command 0x10 c ⟨onlyPf, true, some c.paramLen.toNat, true⟩ State.tableLoad)

/-- ROUTE_TABLE_LOAD (R193, R210, R211, R398). -/
def State.routeLoad (s : State) (j : Job) : State :=
  let a := j.cmd.args
  let i := j.cmd.inst.val
  let x := s.inst i
  let id := field a 0 1
  let due := field a 8 6
  match parseRoute j.cmd.block with
  | none => s.fail j stINVALID_FIELD
  | some (t, gen) =>
    let fitsOld := match (x.route id).current with | some g => t.revises g.val | none => true
    if due < j.stamp.beat + 2 || !(argsZero a 1 7) || !(argsZero a 14 30) || !(t.fits x.csArea) || !fitsOld || (x.route id).has gen then
      s.fail j stINVALID_FIELD
    else s.startLoad j id (.route id t gen due) []

def execRouteTableLoad (c : Cmd) (s : State) : Res :=
  .next (s.command 0x11 c ⟨onlyPf, true, some c.paramLen.toNat, true⟩ State.routeLoad)

/-- The fields a new sampler generation must keep (R372). -/
def SamplerRec.sameLayout (x y : SamplerRec) : Bool :=
  x.v == y.v && x.bf16 == y.bf16 && x.logitPage == y.logitPage && x.dlogitPage == y.dlogitPage

/-- AUTOMATON_LOAD (R372, R373, R398). -/
def State.automatonLoad (s : State) (j : Job) : State :=
  let i := j.cmd.inst.val
  let x := s.inst i
  match parseSampler j.cmd.block with
  | none => s.fail j stINVALID_FIELD
  | some (v, gen) =>
    let same := match x.sampler.current with | some g => v.sameLayout g.val | none => true
    if !(argsZero j.cmd.args 0 44) || !same || !(v.areasOk x.pageMap x.maxRows) || x.sampler.has gen then s.fail j stINVALID_FIELD
    else s.startLoad j 0 (.sampler v gen) []

def execAutomatonLoad (c : Cmd) (s : State) : Res :=
  .next (s.command 0x12 c ⟨onlyPf, true, some c.paramLen.toNat, true⟩ State.automatonLoad)

/-! ### Adapters (R270, R271) -/

/-- ADAPTER_BIND. -/
def State.adapterBind (s : State) (j : Job) (reads : List Check) : State :=
  let a := j.cmd.args
  let i := j.cmd.inst.val
  let x := s.inst i
  let slot := field a 0 2
  match x.entry.bind s.entryAt, s.entryOf (field a 4 16) (field a 20 4) with
  | some b, some c =>
    if slot ≥ 1024 || !(argsZero a 2 2) || !(argsZero a 24 20) || c.state ≠ 3 || c.kind ≠ 1 || c.baseId ≠ b.imageId || c.rank > 128 then
      s.fail j stINVALID_FIELD
    else s.startLoad j slot (.adapter slot ⟨c.index, []⟩ c.gen reads) []
  | _, _ => s.fail j stINVALID_FIELD

def execAdapterBind (c : Cmd) (s : State) (reads : List Check := []) : Res :=
  .next (s.command 0x22 c ⟨pfOrOwner, true, none, true⟩ fun s j => s.adapterBind j reads)

/-- ADAPTER_UNBIND. -/
def State.adapterUnbind (s : State) (j : Job) : State :=
  let a := j.cmd.args
  let i := j.cmd.inst.val
  let slot := field a 0 2
  if slot ≥ 1024 || !(argsZero a 2 42) then s.fail j stINVALID_FIELD
  else
    let t := (s.inst i).adapter slot
    let s := (s.setAdapter i slot (t.unbind s.time.beat)).accept j (objCommand j.opcode i slot) [] (cmdValue j.cmd) []
    s.genRecord typeAdapter i slot t.cur none

def execAdapterUnbind (c : Cmd) (s : State) : Res := .next (s.command 0x23 c ⟨pfOrOwner, true, none, true⟩ State.adapterUnbind)

/-! ### POOL_SET, OWN_SET, TENANT_SET (R233, R312 to R314, R358) -/

/-- Pool pages of the module (R231). -/
def poolPages : Nat := 25159680

/-- POOL_SET (R233). A FREE instance holds the values of R233 whatever it received. -/
def State.poolSet (s : State) (j : Job) : State :=
  let a := j.cmd.args
  let i := j.cmd.inst.val
  let x := s.inst i
  let quota := field a 0 4
  let limit := field a 4 4
  let cs := field a 8 4
  let others := (s.serve.insts.zipIdx.filter fun p => p.2 ≠ i).foldl (fun n p => n + p.1.acct.quota) 0
  if field a 12 1 > 1 || !(argsZero a 13 31) || others + quota > poolPages || quota > limit || limit > poolPages || cs > csTiles ||
      limit < x.acct.used || cs < x.acct.csUsed then s.fail j stINVALID_FIELD
  else
    let y := if x.state == .free then x
      else { x with acct := { x.acct with quota := quota, limit := limit, csLimit := cs, pin := field a 12 1 = 1 } }
    (s.setInst i y).accept j (objCommand j.opcode i 0) [] (cmdValue j.cmd) []

def execPoolSet (c : Cmd) (s : State) : Res := .next (s.command 0x06 c ⟨onlyPf, true, none, true⟩ State.poolSet)

/-- The 16 bytes of an ownership entry (R312). -/
def OwnEntry.bytes (o : OwnEntry) : List Byte :=
  leBytes 8 (o.base + o.size * 2 ^ 46 + o.unit * 2 ^ 52 + 2 ^ 55 + o.mode * 2 ^ 56) ++ leBytes 8 (o.owner + o.epoch * 2 ^ 16)

/-- OBJECT of an OWNERSHIP record (R460). -/
def objOwn (node index : Nat) : Nat := object 0x09 (node + index * 2 ^ 14)

/-- The entries that accepted OWN_SETs will write, which wait for requests before them (R314). -/
def State.ownWaiting (s : State) : List OwnEntry :=
  s.fab.held.filterMap fun h => match h with | .ownSet _ o true _ => some o | _ => none

/-- Lowest free index of the ownership table; entries that a waiting OWN_SET will write are taken. -/
def State.ownIndex (s : State) : Nat :=
  ((List.range 1024).find? fun k => (s.mem.own ++ s.ownWaiting).all fun o => o.index ≠ k).getD 0

/-- A region overlaps another one that the table holds or that a waiting OWN_SET will give it (R312). -/
def State.ownOverlaps (s : State) (base size unit : Nat) : Bool :=
  (s.mem.own ++ s.ownWaiting).any fun o =>
    o.unit == unit && !(o.base == base && o.size == size) && overlaps o.base (2 ^ o.size) base (2 ^ size)

/-- The ownership table changed, recorded (R314). -/
def State.setOwn (s : State) (origin node : Nat) (old : Option OwnEntry) (new : OwnEntry) (q : Option Cqe) : State :=
  let rest := s.mem.own.filter fun o => o.index ≠ new.index
  (s.setMem { s.mem with own := rest ++ [new] }).handCq origin false (objOwn node new.index)
    (match old with | some o => o.bytes | none => []) new.bytes q

/-- What an accepted OWN_SET does once the requests before it to the region have completed (R314): the entry written, or freed. -/
def State.applyOwn (s : State) (origin : Nat) (o : OwnEntry) (valid : Bool) (cqe : Option Cqe) : State :=
  let done := fun epoch : Nat => cqe.map fun q => { q with status := stOK, result := fit 32 (leBytes 4 epoch) }
  match s.mem.own.find? (fun e => e.base == o.base && e.size == o.size && e.unit == o.unit), valid with
  | some e, true =>
    let n := { o with index := e.index, epoch := (e.epoch + 1) % 2 ^ 32 }
    s.setOwn origin (s.node 4) (some e) n (done n.epoch)
  | none, true => s.setOwn origin (s.node 4) none { o with epoch := 1 } (done 1)
  | old, false =>
    (s.setMem { s.mem with own := s.mem.own.filter (some · != old) }).handCq origin false (objOwn (s.node 4) o.index)
      (match old with | some e => e.bytes | none => []) [] (done o.epoch)

/-- An accepted OWN_SET acts, or waits for the requests to its region that were accepted before it (R314). -/
def State.changeOwn (s : State) (origin : Nat) (o : OwnEntry) (valid : Bool) (cqe : Option Cqe) : State :=
  if s.behind s.fab.held (o.unit * 2 ^ 46 + o.base) (2 ^ o.size) then s.holdReq (.ownSet origin o valid cqe)
  else s.applyOwn origin o valid cqe

/-- OWN_SET (R312, R314). DESIGN CHOICE (notes/assumptions/120.md): VALID = 0 for a region in OPEN, or for one that no entry has, is
INVALID_FIELD; the EPOCH in the command is not looked at. -/
def State.ownSetCmd (s : State) (j : Job) : State :=
  let a := j.cmd.args
  let v := field a 0 8
  let w := field a 8 8
  let base := bits v 0 46
  let size := bits v 46 6
  let unit := bits v 52 3
  let valid := bit v 55
  let mode := bits v 56 2
  let hit := s.mem.own.find? fun o => o.base == base && o.size == size && o.unit == unit
  if bits v 58 6 ≠ 0 || bits w 14 2 ≠ 0 || bits w 48 16 ≠ 0 || mode = 3 || size < 16 || size > 46 || unit > 5 || base % 2 ^ size ≠ 0 ||
      !(argsZero a 16 28) then s.fail j stINVALID_FIELD
  else
    match hit with
    | some o =>
      if o.mode = 1 then s.notOwner.fail j stNOT_OWNER
      else if !valid then
        if o.mode ≠ 0 then s.fail j stINVALID_FIELD
        else s.changeOwn j.origin o false (some j.cqe)
      else s.changeOwn j.origin { o with mode := mode, owner := bits w 0 14 } true (some j.cqe)
    | none =>
      if !valid || s.ownOverlaps base size unit then s.fail j stINVALID_FIELD
      else if s.mem.own.length + s.ownWaiting.length ≥ 1024 then s.fail j stBUSY
      else
        s.changeOwn j.origin ⟨s.ownIndex, base, size, unit, mode, bits w 0 14, 1⟩ true (some j.cqe)

def execOwnSet (c : Cmd) (s : State) : Res := .next (s.command 0x07 c ⟨onlyPf, false, none, true⟩ State.ownSetCmd)

/-- A tenant's record. -/
def State.tenant (s : State) (t : Nat) : Option Tenant := s.serve.tenants.find? fun x => x.id == t

def State.setTenant (s : State) (t : Tenant) : State :=
  { s with serve := { s.serve with tenants := s.serve.tenants.map fun x => if x.id == t.id then t else x } }

/-- TENANT_SET (R357, R358): the setting waits for the next boundary. -/
def State.tenantSet (s : State) (j : Job) : State :=
  let a := j.cmd.args
  let id := field a 0 1
  let w := field a 8 2
  if w = 0 || !(argsZero a 1 3) || !(argsZero a 10 34) then s.fail j stINVALID_FIELD
  else
    let s : State := match s.tenant id with
      | some _ => s
      | none => { s with serve := { s.serve with tenants := s.serve.tenants ++ [⟨id, true, 0, w, 0, 0, 0, 0, none⟩] } }
    let s := match s.tenant id with
      | some t => s.setTenant { t with set := true, next := some (field a 4 4, w) }
      | none => s
    s.accept j (objCommand j.opcode 0 id) [] (cmdValue j.cmd) []

def execTenantSet (c : Cmd) (s : State) : Res := .next (s.command 0x08 c ⟨onlyPf, false, none, true⟩ State.tenantSet)

end Sys2Proof.Machine
end

