-- ==== Sys2Proof/Machine/Serve.lean ====
section
/-! DEFINITION. Sequences: submission, admission, tenant budgets, the composition of steps and their outcomes (13 R354 to R364; 14 R367 to
R369, R375, R376, R378, R382 to R384; 15 R400, R403; 02 R71, R76). -/
namespace Sys2Proof.Machine

/-! ### Submission (R355, R367, R368, R400) -/

/-- Positive and finite. -/
def f32pos (x : Nat) : Bool := f32finite x && !(bit x 31) && x % 2 ^ 31 ≠ 0

/-- The sampling block's own ranges (R367). -/
def samplingOk (bs : List Byte) : Bool :=
  let f := field bs
  let temp := f 8 4
  let topP := f 12 4
  let mask := bits (f 18 1) 3 2
  (temp % 2 ^ 31 = 0 || f32pos temp) && f32pos topP && topP ≤ 0x3F800000 && f 16 2 ≤ 1024 && bits (f 18 1) 5 3 = 0 && f 19 1 ≤ 16 &&
    f32pos (f 20 4) && f32finite (f 24 4) && f32finite (f 28 4) && (mask % 2 = 0 || (1 ≤ f 36 4 && f 36 4 ≤ 262144)) &&
    allZero (slice bs 41 3) && allZero (slice bs 60 4) && (slice bs 64 64).all (fun b => b.toNat ≤ 16)

/-- A request's parameters; `list` is the built mask's tokens. -/
def sampling (bs : List Byte) (list : List Nat) : Sampling :=
  let f := field bs
  { seed := BitVec.ofNat 64 (f 0 8), temp := BitVec.ofNat 32 (f 8 4), topP := BitVec.ofNat 32 (f 12 4),
    topK := if f 16 2 = 0 then 1024 else f 16 2, prob := bit (f 18 1) 0, dltEn := bit (f 18 1) 1, penPrompt := bit (f 18 1) 2,
    mask := bits (f 18 1) 3 2, draftLen := f 19 1, rep := BitVec.ofNat 32 (f 20 4), freq := BitVec.ofNat 32 (f 24 4),
    pres := BitVec.ofNat 32 (f 28 4), automaton := f 40 1,
    stops := ((List.range 4).map fun k => f (44 + 4 * k) 4).filter (· ≠ 0xFFFFFFFF),
    dlt := (List.range 64).map fun k => f (64 + k) 1, listMask := list }

/-- Tokens of 4 bytes each (R400; DEDUCED for the list of R368, notes/assumptions/53.md). -/
def tokens4 (n : Nat) (bs : List Byte) : List Nat := (pieces 4 n bs).map leNat

/-- The allowed-token list: none where it does not lie within the area (R368). -/
def State.tokenList (s : State) (x : Inst) (bs : List Byte) : Option (List Nat) :=
  let off := field bs 32 4 * 64
  let n := field bs 36 4
  if bits (field bs 18 1) 3 1 = 0 then some []
  else if off + 4 * n > x.csArea * 4096 then none
  else some (tokens4 n (s.load (mpaCs (x.csBase * 4096 + off)) (4 * n)))

/-- A live request of an instance. -/
def Inst.live (x : Inst) (req : Word32) : Bool := x.queue.any (fun q => q.req == req) || x.seqs.any (fun q => q.req == req)

/-- Tiles of a prompt (R400). -/
def promptTiles (n : Nat) : Nat := cdiv (4 * n) 4096

/-- The conditions of R355, R368 and R400 that give INVALID_FIELD, with the parameters otherwise. -/
def State.readSubmit (s : State) (x : Inst) (v : SamplerRec) (c : Cmd) : Option (Sampling × List Nat) :=
  let a := c.args
  let bs := c.block
  let prompt := tokens4 (field a 8 4) (bs.drop 128)
  match s.tokenList x bs with
  | none => none
  | some list =>
    let p := sampling bs list
    let tenant := match s.tenant (field a 4 1) with | some t => t.set | none => false
    if samplingOk bs && tenant && !(x.live (BitVec.ofNat 32 (field a 0 4))) && field a 8 4 ≠ 0 && field a 12 4 ≠ 0 && p.stops.all (· < v.v) &&
        list.all (· < v.v) && (p.mask < 2 || p.automaton < v.starts.length) && prompt.all (· < v.v) &&
        (field a 6 2 < 1024 || field a 6 2 = 0xFFFF) then some (p, prompt)
    else none

/-- The sequence as queued. -/
def State.newSeq (s : State) (j : Job) (p : Sampling) (prompt : List Nat) : Seq :=
  let a := j.cmd.args
  let wait := field a 16 4
  { req := BitVec.ofNat 32 (field a 0 4), tenant := field a 4 1, tq := field a 5 1,
    adapter := if field a 6 2 = 0xFFFF then none else some (field a 6 2), origin := j.origin, prompt := prompt, maxNew := field a 12 4,
    deadline := if wait = 0 then none else some (j.clk + wait * s.beatTicks), stamp := j.stamp, par := p, slot := 0, adapterGen := none,
    samplerGen := 0, done := 0, kv := 0, draftKv := 0, newest := 0, emitted := 0, counts := [], penFull := false, autState := 0,
    history := [], busy := none, failures := 0, lastServed := 0, cancel := false, kvPages := [], csTiles := promptTiles prompt.length }

/-- SEQ_SUBMIT. A PARTIAL instance is refilled (R342). -/
def State.submit (s : State) (j : Job) (reads : List Check) : State :=
  let a := j.cmd.args
  let i := j.cmd.inst.val
  let x := s.inst i
  let tq := field a 5 1
  if tq ≥ 64 || !(argsZero a 20 24) then s.fail j stINVALID_FIELD
  else if (s.ring (1024 + tq)).owner ≠ j.origin then s.fail j stNOT_PERMITTED
  else
    match x.state, x.sampler.current with
    | .active, some v | .part, some v | .activating, some v =>
      match s.readSubmit x v.val j.cmd with
      | none => s.fail j stINVALID_FIELD
      | some (p, prompt) =>
        let max := match x.budget with | some b => b.kvBudget | none => 0
        let absent := field a 6 2 ≠ 0xFFFF && (x.adapter (field a 6 2)).cur.isNone
        let q := s.newSeq j p prompt
        if prompt.length + q.maxNew > max then s.fail j stSEQ_TOO_LONG
        else if absent then s.fail j stADAPTER_ABSENT
        else if x.acct.csUsed + q.csTiles > x.acct.csLimit then s.fail j stPOOL_LIMIT
        else
          let s := s.setInst i { x with queue := x.queue ++ [q], acct := { x.acct with csUsed := x.acct.csUsed + q.csTiles } }
          let s := if x.state == .part then (s.refillInst i reads).2 else s
          s.complete j stOK []
    | _, _ => s.fail j stNOT_READY

/-- SEQ_SUBMIT (R355, R398): its parameter block is 128 + 4 × PROMPT bytes (R400). -/
def execSeqSubmit (c : Cmd) (s : State) (reads : List Check := []) : Res :=
  .next (s.command 0x20 c ⟨pfOrOwner, true, some (128 + 4 * field c.args 8 4), true⟩ fun s j => s.submit j reads)

/-! ### The end of a request (R361, R363, R384) -/

/-- A request leaves its instance: slot, pages, tiles and references (R361, R369, R373). -/
def State.dropSeq (s : State) (i : Nat) (q : Seq) : State :=
  let x := s.inst i
  let now := s.time.beat
  let s := s.setInst i { x with
    queue := x.queue.filter (fun y => y.req != q.req), seqs := x.seqs.filter (fun y => y.req != q.req),
    acct := { x.acct with csUsed := x.acct.csUsed - q.csTiles }, sampler := x.sampler.release now q.req.toNat }
  let s := s.freePoolPages i q.kvPages
  match q.adapter with
  | some a => s.setAdapter i a (((s.inst i).adapter a).release now q.req.toNat)
  | none => s

/-- A request ends outside its step, with its record, and loads that waited go on. -/
def State.endSeq (s : State) (i : Nat) (q : Seq) (status : Nat) : State := ((s.dropSeq i q).endRecord i q status).retryLoads

/-- A queued request whose deadline has passed (R356). -/
def State.timeoutSeq (s : State) (i : Nat) (q : Seq) : State := (s.endSeq i q stADMIT_TIMEOUT).bump (rInst i 0x38)

/-- ADMIT_TIMEOUT at its relative timeout (R47, R356). -/
def State.admitTimeout (s : State) (i : Nat) (req : Word32) : State :=
  match (s.inst i).queue.find? fun q => q.req == req with
  | none => s
  | some q => match q.deadline with | some d => s.atTimer d fun s => s.timeoutSeq i q | none => s

def execAdmitTimeout (inst : Fin 16) (req : Word32) (s : State) : Res := .next (s.admitTimeout inst.val req)

/-- SEQ_CANCEL (R341, R361). -/
def State.cancel (s : State) (j : Job) : State :=
  let i := j.cmd.inst.val
  let x := s.inst i
  let req := BitVec.ofNat 32 (field j.cmd.args 0 4)
  if !(argsZero j.cmd.args 4 40) then s.fail j stINVALID_FIELD
  else
    match (x.queue ++ x.seqs).find? fun q => q.req == req with
    | none => s.fail j stINVALID_FIELD
    | some q =>
      if q.origin ≠ j.origin then s.fail j stNOT_PERMITTED
      else if q.busy.isSome then
        (s.setInst i { x with seqs := x.seqs.map fun y => if y.req == req then { y with cancel := true } else y }).complete j stOK []
      else (s.endSeq i q stCANCELLED).complete j stOK []

def execSeqCancel (c : Cmd) (s : State) : Res := .next (s.command 0x21 c ⟨pfOrOwner, true, none, true⟩ State.cancel)

/-! ### Tenant budgets (R357 to R360) -/

/-- REMAIN at the running window; none where it is unlimited. -/
def Tenant.remain (t : Tenant) : Option Nat := if t.budget = 0xFFFFFFFF then none else some (t.budget - (t.used + t.reserved))

/-- REMAIN is at least `n`. -/
def State.remains (s : State) (tenant n : Nat) : Bool :=
  match s.tenant tenant with
  | some t => match t.remain with | some r => n ≤ r | none => true
  | none => false

/-- The smaller of `n` and REMAIN. -/
def State.clipRemain (s : State) (tenant n : Nat) : Nat :=
  match s.tenant tenant with
  | some t => match t.remain with | some r => min n r | none => n
  | none => 0

/-- A window by its length and number. -/
def State.windowOf (s : State) (tenant : Nat) : Nat :=
  match s.tenant tenant with
  | some t => t.window * 2 ^ 48 + s.time.beat / max t.window 1
  | none => 0

/-- A change of one tenant. -/
def State.onTenant (s : State) (tenant : Nat) (f : Tenant → Tenant) : State :=
  match s.tenant tenant with
  | some t => s.setTenant (f t)
  | none => s

/-- A boundary: a setting takes effect, and a new window begins with USED and RESERVED at 0 (R357, R358). -/
def Tenant.roll (t : Tenant) (beat : Nat) : Tenant :=
  let t := match t.next with
    | some (b, w) =>
      { t with budget := b, window := w, used := if w = t.window then t.used else 0, reserved := if w = t.window then t.reserved else 0,
               next := none }
    | none => t
  if beat % max t.window 1 = 0 then { t with used := 0, reserved := 0 } else t

/-- A reservation replaced by the actual charge in its window, if that has not ended (R359, R360). -/
def State.charge (s : State) (w : Nat × Nat × Nat) (actual : Nat) : State :=
  let cur := s.windowOf w.1 == w.2.1
  s.onTenant w.1 fun t =>
    { t with reserved := if cur then t.reserved - w.2.2 else t.reserved, used := if cur then t.used + actual else t.used,
             charged := t.charged + actual }

/-- The telemetry records of the beat that ends (R360). DESIGN CHOICE (notes/assumptions/88.md): a count that changed is that of the tokens
charged or of the sequence-steps held out. -/
def State.tenantFrames (s : State) (beat : Nat) : List (List Byte) :=
  (s.serve.tenants.filter fun t => t.charged ≠ 0 || t.heldOut ≠ 0).map fun t =>
    fit 64 (leBytes 8 beat ++ leBytes 1 t.id ++ zeros 3 ++ leBytes 4 t.charged ++ leBytes 4 t.used ++ leBytes 4 t.budget ++ leBytes 4 t.heldOut)

/-- Tenants at the boundary of the running beat. -/
def State.rollTenants (s : State) : State :=
  let frames := s.tenantFrames (s.time.beat - 1)
  { s with serve := { s.serve with
    tokFrames := frames, tenants := s.serve.tenants.map fun t => { t.roll s.time.beat with charged := 0, heldOut := 0 } } }

/-! ### Admission (R356, R369, R373) -/

/-- An instance's draft configuration exists (R370). -/
def SamplerRec.drafts (v : SamplerRec) : Bool := v.dlogitPage ≠ 0xFFFFFFFF

/-- Tiles of a request's sampler state (R369). -/
def stateTiles (p : Sampling) (draft : Bool) : Nat :=
  17 + (if p.mask = 1 || p.mask = 3 then 8 else 0) + (if p.prob && draft then 32 else 0)

/-- KV pages on a stack: round robin from the lowest (R356). -/
def kvPlan (mask n : Nat) : List (Nat × Nat × Nat) :=
  let ks := (List.range 24).filter (bit mask)
  ks.zipIdx.map fun k => (k.1, n / ks.length + (if k.2 < n % ks.length then 1 else 0), 3)

/-- Lowest free slot. -/
def Inst.freeSlot (x : Inst) (n : Nat) : Option Nat := (List.range n).find? fun k => x.seqs.all fun q => q.slot ≠ k

/-- The START state of a request's automaton. -/
def startState (v : SamplerRec) (p : Sampling) : Nat := if p.mask < 2 then 0 else nth 0 v.starts p.automaton

/-- A request admitted to a slot with its pages. -/
def State.admitSeq (s : State) (i : Nat) (q : Seq) (slot : Nat) (pages : List (Nat × Nat)) (v : GenSlot SamplerRec) (tiles : Nat) : State :=
  let x := s.inst i
  let gen := q.adapter.bind fun a => (x.adapter a).cur
  let y := { q with slot := slot, kvPages := pages, csTiles := q.csTiles + tiles, samplerGen := v.gen, adapterGen := gen,
                    autState := startState v.val q.par }
  let adapters := match q.adapter, gen with
    | some a, some g => putKey x.adapters a ((x.adapter a).hold g q.req.toNat)
    | _, _ => x.adapters
  s.setInst i { x with
    queue := x.queue.filter (fun z => z.req != q.req), seqs := x.seqs ++ [y], adapters := adapters,
    sampler := x.sampler.hold v.gen q.req.toNat, acct := { x.acct with csUsed := x.acct.csUsed + tiles } }

/-- One queued request at a boundary: the state after it, and whether the queue goes on. -/
def State.admitOne (s : State) (i : Nat) (q : Seq) : State × Bool :=
  let x := s.inst i
  if (match q.deadline with | some d => Nat.ble d s.time.clk | none => false) then (s.timeoutSeq i q, true)
  else if !(s.remains q.tenant 1) then (s, true)
  else
    match x.state, x.sampler.current, x.budget with
    | .active, some v, some b =>
      match x.freeSlot b.seqSlots with
      | none => (s, false)
      | some slot =>
        if (match q.adapter with | some a => (x.adapter a).cur.isNone | none => false) then (s.endSeq i q stADAPTER_ABSENT, true)
        else
          let tiles := stateTiles q.par v.val.drafts
          match s.allocateAll i (kvPlan b.kvStacks (cdiv (q.prompt.length + q.maxNew) b.kvPerPage)) [] with
          | (.error _, s) => (s, false)
          | (.ok got, s) =>
            if (s.inst i).acct.csUsed + tiles > (s.inst i).acct.csLimit then (s.freePoolPages i got.flatten, false)
            else (s.admitSeq i q slot got.flatten v tiles, true)
    | _, _, _ => (s, false)

/-- A queue from its head. -/
def State.admitAll (s : State) (i : Nat) : List Seq → State
  | [] => s
  | q :: qs => match s.admitOne i q with | (s, true) => s.admitAll i qs | (s, false) => s

/-- Every instance's queue (R356). -/
def State.admission (s : State) : State := (List.range 16).foldl (fun s i => s.admitAll i (s.inst i).queue) s

/-! ### Composition (R361, R362, R378) -/

/-- Insertion into a list sorted by a key, after its equals. -/
def insertOn {α : Type} (key : α → Nat) (x : α) : List α → List α
  | [] => [x]
  | y :: ys => if key x < key y then x :: y :: ys else y :: insertOn key x ys

/-- A stable sort by a key. -/
def sortOn {α : Type} (key : α → Nat) (l : List α) : List α := l.foldl (fun acc x => insertOn key x acc) []

/-- Draft length of a sequence (R378). -/
def Seq.draftLen (q : Seq) (drafts : Bool) : Nat :=
  if !drafts then 0
  else
    let i := min 63 ((q.history.take 4).foldl (· + ·) 0)
    let d0 := if q.par.dltEn then nth 0 q.par.dlt i else q.par.draftLen
    min (min d0 16) (q.maxNew - q.emitted - 1)

/-- A composition under way. -/
structure Comp where
  s       : State
  rows    : Nat
  prefill : Nat
  seqs    : List StepSeq
  window  : List (Nat × Nat × Nat)
  stop    : Bool

/-- A sequence takes rows, with its reservation (R359). -/
def Comp.take_ (k : Comp) (q : Seq) (n d : Nat) (isPrefill : Bool) : Comp :=
  let e : StepSeq := { req := q.req, tenant := q.tenant, pos := q.kv, rows := n, prefill := isPrefill, d := d, row0 := k.rows, draft := [],
                       draftEnd := false, cand := [], emit := [], accepted := 0, settled := isPrefill && Nat.blt (q.done + n) q.prompt.length, fault := none, lostOn := 0, drop := false,
                       nonfin := false }
  let w := (q.tenant, k.s.windowOf q.tenant, n)
  { k with s := k.s.onTenant q.tenant fun t => { t with reserved := t.reserved + n }, rows := k.rows + n,
           prefill := if isPrefill then k.prefill + n else k.prefill, seqs := k.seqs ++ [e], window := k.window ++ [w] }

/-- A sequence held out by its tenant's budget. -/
def Comp.holdOut (k : Comp) (q : Seq) : Comp := { k with s := k.s.onTenant q.tenant fun t => { t with heldOut := t.heldOut + 1 } }

/-- One decode sequence. -/
def Comp.decode (k : Comp) (b : Budget) (drafts : Bool) (q : Seq) : Comp :=
  let d := q.draftLen drafts
  if k.stop || k.seqs.length = b.maxSeqs || k.rows + d + 1 > b.maxRows then { k with stop := true }
  else if !(k.s.remains q.tenant (d + 1)) then k.holdOut q
  else k.take_ q (d + 1) d false

/-- One sequence with prompt remaining. -/
def Comp.prompt (k : Comp) (b : Budget) (q : Seq) : Comp :=
  if k.stop || k.seqs.length = b.maxSeqs || k.rows = b.maxRows || k.prefill = b.chunkBudget then { k with stop := true }
  else
    let c := k.s.clipRemain q.tenant
      (min (min (q.prompt.length - q.done) b.maxChunk) (min (b.chunkBudget - k.prefill) (b.maxRows - k.rows)))
    if c = 0 then k.holdOut q else k.take_ q c 0 true

/-- The hub buffer of a TQ is full (R403). -/
def State.tqFull (s : State) (tq : Nat) : Bool := (s.serve.tqHold.filter fun h => h.1 == tq).length ≥ 64

/-- The order of R361. -/
def State.compose (s : State) (x : Inst) : Comp :=
  let none_ : Comp := ⟨s, 0, 0, [], [], false⟩
  match x.budget, x.sampler.current with
  | some b, some v =>
    let idle := x.seqs.filter fun q => q.busy.isNone && !(s.tqFull q.tq)
    let ds := sortOn Seq.lastServed (idle.filter fun q => q.prompt.length ≤ q.done)
    let k := ds.foldl (fun k q => k.decode b v.val.drafts q) none_
    (idle.filter fun q => q.done < q.prompt.length).foldl (fun k q => k.prompt b q) { k with stop := false }
  | _, _ => none_

/-- Row entries of a sequence (R362). -/
def StepSeq.rowBytes (q : StepSeq) (slot : Nat) : List Byte :=
  (List.range q.rows).flatMap fun n =>
    let kind := if q.prefill then 2 else if q.d = 0 then 0 else 1
    leBytes 4 q.req.toNat ++ leBytes 4 (q.pos + n) ++ leBytes 2 slot ++ leBytes 1 kind ++ leBytes 1 (flag (n + 1 = q.rows)) ++
      leBytes 4 (q.pos + n)

/-- The row header (R362). -/
def rowHeader (idx : Nat) (k : Comp) (off beat : Nat) : Word512 :=
  let dec := k.rows - k.prefill
  let ws := [idx, k.rows, dec, k.prefill, k.seqs.length, off / 64, beat % 2 ^ 32, beat / 2 ^ 32 % 2 ^ 16]
  BitVec.ofNat 512 (leNat (ws.flatMap (leBytes 4)))

/-- Offset of the row table in an instance's area: its last 16 tiles (notes/assumptions/51.md). -/
def Inst.rowTable (x : Inst) : Nat := (x.csArea - 16) * 4096

/-- An instance's schedule runs (R58, R60, R64, R293, R316, R342). -/
def State.instRuns (s : State) (i : Nat) : Bool :=
  let x := s.inst i
  x.state == .active && !x.stopped && s.mayRun && match x.sched.current with | some g => g.val.period == s.time.period | none => false

/-- A step of a schedule: its first entry's beat offset, its STEP_END, the beats between, and the entries it waits for. -/
structure StepPlan where
  boff  : Nat
  endNo : Nat
  delta : Nat
  tick  : Nat
  left  : Nat
  deriving DecidableEq, Repr

/-- Entries up to and with the first STEP_END, and the rest. -/
def cutStep : List SchedEntry → List SchedEntry × List SchedEntry
  | [] => ([], [])
  | e :: es => if e.kind = 9 then ([e], es) else let r := cutStep es; (e :: r.1, r.2)

/-- The plan of a run of entries that ends with its STEP_END; entries before `wrap` belong to the next cycle. -/
def planOf (cycle : Nat) (wrapped : Bool) (es : List SchedEntry) : List StepPlan :=
  match es.head?, es.getLast? with
  | some a, some z =>
    if z.kind = 9 then
      [⟨a.boff, bits z.payload.toNat 0 16, z.boff + (if wrapped then cycle else 0) - a.boff, z.tick,
        (es.filter fun e => e.kind = 1 || e.kind = 6).length⟩]
    else []
  | _, _ => []

/-- Steps after the first STEP_END, in order; the last piece goes on in the next cycle with `head`. -/
def stepsFrom (cycle : Nat) (head : List SchedEntry) : Nat → List SchedEntry → List StepPlan
  | 0, _ => []
  | n + 1, es =>
    let c := cutStep es
    if c.2.isEmpty && (c.1.getLast?.map (·.kind)) ≠ some 9 then planOf cycle (!c.1.isEmpty) (c.1 ++ head)
    else planOf cycle false c.1 ++ stepsFrom cycle head n c.2

/-- The steps of a schedule (R65, R71, R76): the entries from one STEP_END, which is left out, to the next, around the cycle
(notes/assumptions/52.md). -/
def Sched.steps (v : Sched) : List StepPlan :=
  if v.entries.any fun e => e.kind = 9 then
    let c := cutStep v.entries
    stepsFrom v.cycle c.1 (v.entries.length + 1) c.2
  else []

/-- A step starts: it binds its generations, and its rows are composed (R76, R210, R348, R361, R362). -/
def State.startStep (s : State) (i : Nat) (g : GenSlot Sched) (p : StepPlan) : State :=
  let x := s.inst i
  let k := s.compose x
  let s := k.s
  let id := s.serve.stepNo
  let beat := s.time.beat
  let routes := x.routes.filterMap fun r => r.2.cur.map fun n => (r.1, n)
  let cfgs := (s.serve.cfgs.filter fun c => c.inst == i).filterMap fun c => c.gens.cur.map fun n => (c.num, n)
  let slots := s.fab.slotTabs.filterMap fun p => p.2.cur.map fun n => (p.1, n)
  let off := x.rowTable
  let r : StepRun :=
    { id := id, inst := i, index := x.stepIdx, start := beat, sched := g.gen, routes := routes, configs := cfgs, seqs := k.seqs,
      rowTable := off, slots := slots, numeric := 0, clamp := false, replay := false, late := 0, fail := none, overrun := false, window := k.window,
      endNo := p.endNo, left := p.left, deadline := s.time.clk + p.delta * s.beatTicks + p.tick }
  let reqs := k.seqs.map (·.req)
  let rows := k.seqs.flatMap fun q =>
    q.rowBytes (match x.seqs.find? (fun y => y.req == q.req) with | some y => y.slot | none => 0)
  let s := s.storeAt (mpaCs (x.csBase * 4096 + off)) rows
  let s := (s.setInst i { x with
    stepIdx := x.stepIdx + 1, sched := x.sched.hold g.gen id,
    routes := x.routes.map (fun r => (r.1, match r.2.cur with | some n => r.2.hold n id | none => r.2)),
    seqs := x.seqs.map fun q => if reqs.contains q.req then { q with busy := some id } else q }).bumpBy (rInst i 0x28)
      (x.seqs.length - k.seqs.length)
  let s : State := { s with serve := { s.serve with
    stepNo := id + 1, steps := s.serve.steps ++ [r],
    cfgs := s.serve.cfgs.map fun c => if c.inst == i then (match c.gens.cur with | some n => { c with gens := c.gens.hold n id } | none => c) else c } }
  let s := slots.foldl (fun s p => s.setSlotTab p.1 ((s.slotTab p.1).hold p.2 id)) s
  let targets := match g.val.budget with | some b => b.targets | none => []
  targets.foldl (fun s t => s.placeOn i t (rowHeader x.stepIdx k off beat)) s

/-- Every step whose first beat is the running one (R65, R71). -/
def State.startSteps (s : State) : State :=
  (List.range 16).foldl (fun s i =>
    match s.instRuns i, (s.inst i).sched.current with
    | true, some g =>
      (g.val.steps.filter fun p => p.boff == s.time.beat % g.val.cycle).foldl (fun s p => s.startStep i g p) s
    | _, _ => s) s

/-! ### Completion (R71, R163, R363, R382, R384) -/

/-- A token counted (R375): the table, and whether it was refused. -/
def countToken (cs : List (Nat × Nat)) (t : Nat) : List (Nat × Nat) × Bool :=
  match findKey cs t with
  | some c => (putKey cs t (min (c + 1) 0xFFFFFFFF), false)
  | none => if cs.length < 8192 then (cs ++ [(t, 1)], false) else (cs, true)

/-- Several tokens counted, with the number refused. -/
def countTokens (cs : List (Nat × Nat)) (ts : List Nat) : List (Nat × Nat) × Nat :=
  ts.foldl (fun a t => let r := countToken a.1 t; (r.1, a.2 + flag r.2)) (cs, 0)

/-- The automaton after a token (R371, R376); without one it stays. -/
def autStep (v : SamplerRec) (p : Sampling) (st t : Nat) : Nat := if p.mask < 2 then st else (v.stepFrom st t).getD st

/-- A token ends the automaton. -/
def autEnds (v : SamplerRec) (p : Sampling) (st : Nat) : Bool :=
  p.mask ≥ 2 && match (v.states[st]? : Option AutState) with | some a => a.isEnd | none => false

/-- The kept tokens of an emission and the reason it ends: 0 none, 1 STOP, 2 MAX_NEW, 3 AUTOMATON_END (R382). -/
def cutEmission (v : SamplerRec) (q : Seq) : Nat → Nat → List Nat → List Nat × Nat
  | _, _, [] => ([], 0)
  | st, e, t :: ts =>
    let st' := autStep v q.par st t
    if q.par.stops.contains t then ([t], 1)
    else if autEnds v q.par st' then ([t], 3)
    else if e + 1 ≥ q.maxNew then ([t], 2)
    else let r := cutEmission v q st' (e + 1) ts; (t :: r.1, r.2)

/-- The sampler record a request bound (R373). -/
def Inst.samplerOf (x : Inst) (q : Seq) : Option SamplerRec := (x.sampler.slot q.samplerGen).map (·.val)

/-- A request after a successful step that keeps `ts` tokens (R375, R376, R382). -/
def Seq.commit (q : Seq) (v : SamplerRec) (r : StepRun) (e : StepSeq) (ts : List Nat) : Seq × Nat :=
  let n := ts.length
  let prompt := if e.prefill && q.par.penPrompt then (q.prompt.drop e.pos).take e.rows else []
  let cs := countTokens q.counts (prompt ++ ts)
  let q := { q with
    counts := cs.1, penFull := q.penFull || cs.2 > 0, autState := ts.foldl (autStep v q.par) q.autState, emitted := q.emitted + n,
    newest := ts.getLast?.getD q.newest, lastServed := r.start, failures := 0, busy := none }
  if e.prefill then
    let done := q.done + e.rows
    let freed := if done ≥ q.prompt.length then promptTiles q.prompt.length else 0
    ({ q with done := done, kv := e.pos + e.rows, draftKv := e.pos + e.rows, csTiles := q.csTiles - freed }, cs.2)
  else
    ({ q with kv := e.pos + n, draftKv := min (e.pos + n) (e.pos + e.d),
              history := if e.d = 0 then q.history else (e.accepted :: q.history).take 4 }, cs.2)

/-- A request's record for a step (R383, R384). -/
def tokenRec (i : Nat) (r : StepRun) (e : StepSeq) (q : Seq) (final : Bool) (reason status : Nat) (ts : List Nat) : TokenRec :=
  { req := q.req, inst := i, accepted := e.accepted, drafted := e.draft.length, numeric := r.numeric, final := final, reason := reason,
    drop := e.drop, clamp := r.clamp, replay := r.replay, penFull := q.penFull, nonfin := e.nonfin, status := status, tokens := ts }

/-- A sequence changed in its instance. -/
def State.putSeq (s : State) (i : Nat) (q : Seq) : State :=
  let x := s.inst i
  s.setInst i { x with seqs := x.seqs.map fun y => if y.req == q.req then q else y }

/-- A sequence of a successful step (R363, R382). -/
def State.settleOk (s : State) (r : StepRun) (q : Seq) (e : StepSeq) (w : Nat × Nat × Nat) : State :=
  let i := r.inst
  match (s.inst i).samplerOf q with
  | none => s.putSeq i { q with busy := none }
  | some v =>
    let cut := if e.fault == some stKV_LOST then ([], 0) else cutEmission v q q.autState q.emitted e.emit
    let (q', refused) := q.commit v r e cut.1
    let s := (s.charge w ((if e.prefill then e.rows else 0) + cut.1.length)).bumpBy 0xA0020 refused
    let s := (s.bumpBy 0xA0000 e.draft.length).bumpBy 0xA0008 e.accepted
    let x := s.inst i
    let s := (s.setInst i { x with acct := { x.acct with csUsed := x.acct.csUsed - (q.csTiles - q'.csTiles) } }).putSeq i q'
    match e.fault with
    | some f =>
      (((s.bumpIf (f == stMASK_EMPTY) 0xA0010).bumpIf (f == stKV_LOST) (rFrame e.lostOn 0xF0)).dropSeq i q').tqWrite q.tq (tokenRec i r e q' true 0 f cut.1)
    | none =>
      if cut.1.isEmpty then s
      else
        let s := s.tqWrite q.tq (tokenRec i r e q' (cut.2 ≠ 0) cut.2 0 cut.1)
        if cut.2 = 0 then s else (s.bumpIf (cut.2 == 3) 0xA0028).dropSeq i q'

/-- The instance waits for JOB_TEARDOWN with this status (R363). -/
def haltStatus (st : Nat) : Bool := st = stTARGET_LOST || st = stCOLLECTIVE_FAILED

/-- RETRY_MAX of the schedule a step bound. -/
def State.retryMax (s : State) (r : StepRun) : Nat :=
  match (s.inst r.inst).sched.slot r.sched with
  | some g => match g.val.budget with | some b => b.retryMax | none => 1
  | none => 1

/-- One sequence of a completing step (R363): a request marked with a numerics fault, or whose KV is lost, completes with that status
though the step itself is retried (R160, R220). -/
def State.settleSeq (s : State) (r : StepRun) (p : StepSeq × (Nat × Nat × Nat)) : State :=
  let i := r.inst
  match (s.inst i).seqs.find? fun q => q.req == p.1.req with
  | none => s.charge p.2 0
  | some q =>
    let gone := fun (s : State) (n st : Nat) =>
      ((s.charge p.2 n).dropSeq i q).tqWrite q.tq (tokenRec i r { p.1 with accepted := 0, draft := [] } q true 0 st [])
    match r.fail with
    | none => if q.cancel then gone s (if p.1.prefill then p.1.rows else 0) stCANCELLED else s.settleOk r q p.1 p.2
    | some st =>
      if haltStatus st then s.charge p.2 0
      else if q.cancel then gone s 0 stCANCELLED
      else if st = stFORMAT_FAULT then gone s 0 st
      else if p.1.fault == some stNUMERICS_FAULT then gone s 0 stNUMERICS_FAULT
      else if p.1.fault == some stKV_LOST then gone (s.bump (rFrame p.1.lostOn 0xF0)) 0 stKV_LOST
      else
        let s := s.bump (rInst i 0x30)
        if q.failures + 1 ≥ s.retryMax r then gone s 0 st
        else (s.charge p.2 0).putSeq i { q with busy := none, failures := q.failures + 1 }

/-- Every reference of a step dropped (R76, R183, R210, R348). -/
def State.dropStep (s : State) (r : StepRun) : State :=
  let x := s.inst r.inst
  let now := s.time.beat
  let s := s.setInst r.inst { x with
    sched := x.sched.release now r.id, routes := x.routes.map fun t => (t.1, t.2.release now r.id) }
  let s := s.dropConfigRefs r.id
  let s := r.slots.foldl (fun s p => s.setSlotTab p.1 ((s.slotTab p.1).release now r.id)) s
  let beads := s.arr.beads.map fun b => b.dropDicts r.id
  let drop := fun c : Context => { c with runs := c.runs.filter (· ≠ r.id) }
  let freed := fun c : Context => if c.step == some r.id && r.fail.isSome then { drop c with gate := none, started := false } else drop c
  let s : State := { s with
    arr := { s.arr with beads := beads, ctxs := s.arr.ctxs.map freed },
    serve := { s.serve with
      steps := s.serve.steps.filter (fun t => t.id ≠ r.id), colls := s.serve.colls.filter (fun c => c.step ≠ r.id || (r.fail.isNone && c.done.isSome)),
      cfgs := s.serve.cfgs.map fun c => { c with saved := c.saved.map fun v => { v with ctxs := v.ctxs.map freed } } } }
  (s.dropAttempts (stepKey (some r.id))).retryLoads

/-- The work of a step has drained: its contexts are at END, its accesses and collectives are over (R71, R183). -/
def State.stepDrained (s : State) (r : StepRun) : Bool :=
  let mine := s.arr.ctxs.filter fun c => c.runs.contains r.id
  mine.all (fun c => (if c.step == some r.id then c.ended && (c.started || c.gate.isNone) else c.ended || c.started) && s.allDone c) &&
    s.serve.cfgs.all (fun c => r.configs.all (fun p => p.1 ≠ c.num) || (c.release.isEmpty && c.saved.all fun v =>
      v.ctxs.all fun x => x.step != some r.id || x.ended)) &&
    s.serve.colls.all (fun c => c.step ≠ r.id || c.done.isSome || c.failed)

/-- The step may complete: drained, every entry fired, every sequence drawn; a step that failed otherwise than by overrun at once. -/
def State.mayComplete (s : State) (r : StepRun) : Bool :=
  match r.fail with
  | none => s.stepDrained r && r.left = 0 && r.seqs.all fun q => q.settled || q.fault.isSome
  | some st => st ≠ stSTEP_OVERRUN || s.stepDrained r

/-- SLACK of a completion (R428). -/
def State.noteSlack (s : State) (r : StepRun) : State :=
  { s with power := { s.power with slack := some ((r.deadline : Int) - (s.time.clk : Int)) } }

/-- A step completes. -/
def State.finishStep (s : State) (r : StepRun) : State :=
  ((r.seqs.zip r.window).foldl (fun s p => s.settleSeq r p) (s.noteSlack r)).dropStep r

/-- Completion of the step of an instance with this index. -/
def State.completeStep (s : State) (i idx : Nat) : State :=
  match s.serve.steps.find? fun r => r.inst == i && r.index == idx with
  | some r => if s.mayComplete r then s.finishStep r else s
  | none => s

def execStepCompletion (inst : Fin 16) (step : Nat) (s : State) : Res := .next (s.completeStep inst.val step)

/-- The step that the entries of an instance's schedule concern: the oldest one whose STEP_END has not passed. -/
def State.openStep (s : State) (i : Nat) : Option StepRun := s.serve.steps.find? fun r => r.inst == i && !r.overrun

/-- The gates of an instance's configurations are cleared (R96). -/
def State.clearGates (s : State) (i : Nat) : State :=
  (s.serve.cfgs.filter fun c => c.inst == i).foldl (fun s c => s.mapCfgCtxs c.num fun x => { x with gate := none, started := false }) s

end Sys2Proof.Machine
end

