-- ==== Sys2Proof/Machine/Sampler.lean ====
section
/-! DEFINITION. The sampler: the pipeline of R374, the count table and the mask with their tentative values (R375, R376), the
generator (R377), draft draws (R379) and acceptance under MATCH and PROB (R380, R381). -/
namespace Sys2Proof.Machine

/-! ### The generator (R377) -/

/-- One round of Philox4x32-10. -/
def philoxRound (x0 x1 x2 x3 k0 k1 : Nat) : Nat × Nat × Nat × Nat :=
  let a := 0xD2511F53 * x0
  let b := 0xCD9E8D57 * x2
  (Nat.xor (Nat.xor (b / 2 ^ 32) x1) k0, b % 2 ^ 32, Nat.xor (Nat.xor (a / 2 ^ 32) x3) k1, a % 2 ^ 32)

/-- `n` rounds from a counter and a key: the first word at the end. -/
def philox : Nat → Nat × Nat × Nat × Nat → Nat → Nat → Nat
  | 0, x, _, _ => x.1
  | n + 1, x, k0, k1 =>
    philox n (philoxRound x.1 x.2.1 x.2.2.1 x.2.2.2 k0 k1) ((k0 + 0x9E3779B9) % 2 ^ 32) ((k1 + 0xBB67AE85) % 2 ^ 32)

/-- u of a draw, as FP32: (x0 >> 8) × 2^−24. -/
def drawU (seed : Word64) (pos purpose : Nat) : Nat :=
  let x := philox 10 (pos % 2 ^ 32, purpose, 0, 0) (seed.toNat % 2 ^ 32) (seed.toNat / 2 ^ 32)
  fp32.round false (x / 256) (-24) false

/-! ### The pipeline (R374) -/

def f32posInf : Nat := 0x7F800000
def f32negInf : Nat := 0xFF800000
def f32max_ : Nat := 0x7F7FFFFF

/-- +Inf becomes the largest finite value (steps 2 and 5). -/
def holdInf (x : Nat) : Nat := if x = f32posInf then f32max_ else x

/-- Above zero. -/
def f32above (x : Nat) : Bool := !(bit x 31) && x ≠ 0

/-- Step 1 for one logit: the widened value, and whether it was not finite. -/
def widenLogit (bf : Bool) (w : Nat) : Nat × Bool :=
  let x := if bf then bf16wide w else w
  if f32finite x then (x, false) else (f32negInf, true)

/-- Step 2 for one logit and its count. -/
def penalize (p : Sampling) (c x : Nat) : Nat :=
  if x = f32negInf then x
  else
    let a := holdInf (if f32above x then f32div x p.rep.toNat else f32mul x p.rep.toNat)
    if a = f32negInf then a
    else
      let b := holdInf (f32sub a (f32mul p.freq.toNat (f32ofNat c)))
      if b = f32negInf then b else holdInf (f32sub b p.pres.toNat)

/-- What steps 4 to 8 find: a completion, or the kept tokens with e, in order, and S'. -/
inductive Draw where
  | maskEmpty
  | numerics
  | dist (kept : List (Nat × Nat)) (sum : Nat)
  deriving DecidableEq, Repr

/-- A sum in order from +0.0. -/
def sumInOrder (es : List Nat) : Nat := es.foldl f32add 0

/-- x ≥ y of FP32 numbers. -/
def f32ge (x y : Nat) : Bool := ranksBefore (x, 0) (y, 0)

/-- x < y of FP32 numbers. -/
def f32lt (x y : Nat) : Bool := !(f32ge x y)

/-- Step 8: the kept tokens, until the cumulated p reaches TOP_P. -/
def nucleus (topP : Nat) : Nat → List (Nat × Nat × Nat) → List (Nat × Nat)
  | _, [] => []
  | c, (t, e, p) :: rest =>
    let c := f32add c p
    (t, e) :: (if f32ge c topP then [] else nucleus topP c rest)

/-- Steps 5 to 8 over the finite logits (value, token), sorted. -/
def shapeDist (p : Sampling) (sorted : List (Nat × Nat)) : Draw :=
  match sorted.take (min p.topK sorted.length) with
  | [] => .numerics
  | (m, t) :: rest =>
    let es := ((m, t) :: rest).map fun x => (x.2, fp32.exp (fp32.decode (f32sub x.1 m)))
    let sum := sumInOrder (es.map (·.2))
    let kept := nucleus p.topP.toNat 0 (es.map fun x => (x.1, x.2, f32div x.2 sum))
    .dist kept (sumInOrder (kept.map (·.2)))

/-- Steps 3 to 8: `ls` the logits after step 2 by token, `allow` the effective mask. -/
def sampleDist (p : Sampling) (allow : Nat → Bool) (ls : List Nat) : Draw :=
  let tagged := ls.zipIdx.filter fun x => allow x.2
  let finite := tagged.filter fun x => x.1 ≠ f32negInf
  if tagged.isEmpty then .maskEmpty
  else if finite.isEmpty then .numerics
  else if p.temp.toNat % 2 ^ 31 = 0 then
    match finite with
    | [] => .numerics
    | x :: xs => .dist [((xs.foldl (fun b y => if ranksBefore b y then b else y) x).2, 0x3F800000)] 0x3F800000
  else
    let cold := (finite.map fun x => (holdInf (f32div x.1 p.temp.toNat), x.2)).filter fun x => x.1 ≠ f32negInf
    shapeDist p (cold.mergeSort ranksBefore)

/-- Step 9 from a target. -/
def pickFrom (target : Nat) : Nat → List (Nat × Nat) → Nat
  | _, [] => 0
  | _, [x] => x.1
  | c, x :: y :: rest =>
    let c := f32add c x.2
    if f32lt target c then x.1 else pickFrom target c (y :: rest)

/-- Step 9: a draw with u over weights in order and their sum. -/
def pick (u : Nat) (ws : List (Nat × Nat)) (sum : Nat) : Nat := pickFrom (f32mul u sum) 0 ws

/-- p' (or q') of a distribution, token by token. -/
def finalProbs (kept : List (Nat × Nat)) (sum : Nat) : List (Nat × Nat) := kept.map fun x => (x.1, f32div x.2 sum)

/-! ### Masks and tentative values (R375, R376) -/

/-- The effective mask at an automaton state. -/
def maskAllows (v : SamplerRec) (p : Sampling) (st t : Nat) : Bool :=
  let auto := match (v.states[st]? : Option AutState) with
    | some a => a.mask = 0xFFFFFFFF || maskBit (nth [] v.masks a.mask) t
    | none => true
  (p.mask % 2 = 0 || p.listMask.contains t) && (p.mask < 2 || auto)

/-- The count table and the automaton state within a step, with the prompt tokens of its chunk and the draft tokens before the
position. -/
def Seq.tentative (q : Seq) (v : SamplerRec) (e : StepSeq) (n : Nat) : List (Nat × Nat) × Nat :=
  let prompt := if e.prefill && q.par.penPrompt then (q.prompt.drop e.pos).take e.rows else []
  let ts := e.draft.take n
  ((countTokens q.counts (prompt ++ ts)).1, ts.foldl (autStep v q.par) q.autState)

/-! ### Logit rows (R370) -/

/-- `n` bytes of an instance's pages from a byte offset after a first page. -/
def State.pageBytes (s : State) (i page off n : Nat) : List Byte :=
  let firstPage := off / 65536
  let lastPage := (off + n - 1) / 65536
  let all := (List.range (lastPage + 1 - firstPage)).flatMap fun k =>
    match s.pageMpa i (page % 2 ^ 25 + (firstPage + k) * 32) with
    | some a => s.load a 65536
    | none => zeros 65536
  slice all (off % 65536) n

/-- A row of a logit area: the widened logits, and whether one was not finite. -/
def State.logitRow (s : State) (i : Nat) (v : SamplerRec) (page row : Nat) : List Nat × Bool :=
  let w := if v.bf16 then 2 else 4
  let ws := (pieces w v.v (s.pageBytes i page (row * v.rowBytes) (v.v * w))).map fun bs => widenLogit v.bf16 (leNat bs)
  (ws.map (·.1), ws.any (·.2))

/-- The draw of a position whose logits lie in a row: steps 1 to 8, and whether a logit was not finite. -/
def State.drawRow (s : State) (i : Nat) (v : SamplerRec) (q : Seq) (e : StepSeq) (n page row : Nat) : Draw × Bool :=
  let r := s.logitRow i v page row
  let t := q.tentative v e n
  let ls := r.1.zipIdx.map fun x => match findKey t.1 x.2 with | some c => penalize q.par c x.1 | none => x.1
  (sampleDist q.par (maskAllows v q.par t.2) ls, r.2)

/-! ### A sequence's part of a step -/

/-- The running step of a request with its part, its sequence and its sampler record. -/
structure Sampled where
  run : StepRun
  e   : StepSeq
  q   : Seq
  v   : SamplerRec

/-- What the sampler works on for a request: a sequence that is busy in a step that has not failed. -/
def State.sampled (s : State) (i : Nat) (req : Word32) : Option Sampled :=
  let x := s.inst i
  match x.seqs.find? fun q => q.req == req with
  | none => none
  | some q =>
    match q.busy.bind fun id => s.serve.steps.find? fun r => r.id == id, x.samplerOf q with
    | some r, some v =>
      match r.seqs.find? fun e => e.req == req with
      | some e => if r.fail.isSome || e.settled || e.fault.isSome then none else some ⟨r, e, q, v⟩
      | none => none
    | _, _ => none

/-- A part of a step changed; a row whose logits were not finite is counted (R374 step 1, R386). -/
def State.putPart (s : State) (k : Sampled) (nonfin : Bool) (e : StepSeq) : State :=
  let e := { e with nonfin := e.nonfin || nonfin }
  let s := s.bumpIf nonfin 0xA0018
  s.onStep k.run.id fun r => { r with seqs := r.seqs.map fun y => if y.req == e.req then e else y }

/-- An edge entry that carries a token (notes/assumptions/53.md). -/
def tokenEntry (t : Nat) : Word512 := BitVec.ofNat 512 t

/-- A token placed on every draft token target (R379). -/
def State.feedDraft (s : State) (i : Nat) (v : SamplerRec) (t : Nat) : State :=
  v.targets.foldl (fun s d => s.placeOn i d (tokenEntry t)) s

/-- Row of a drafting sequence in the draft area (R370). -/
def StepRun.draftRow (r : StepRun) (req : Word32) : Nat :=
  let ds := r.seqs.filter fun e => e.d ≠ 0
  (ds.takeWhile fun e => e.req != req).length

/-- The draw of draft pass j (R379 step 2, step 3). -/
def State.draftDraw (s : State) (i : Nat) (req : Word32) (j : Nat) : State :=
  match s.sampled i req with
  | none => s
  | some k =>
    let e := k.e
    if j = 0 || j > e.d then s
    else if e.draftEnd && j > e.draft.length then s.feedDraft i k.v 0
    else if j ≠ e.draft.length + 1 then s
    else
      let r := s.drawRow i k.v k.q e e.draft.length k.v.dlogitPage (k.run.draftRow req)
      match r.1 with
      | .dist kept sum =>
        let t := pick (drawU k.q.par.seed (e.pos + j) 3) kept sum
        let cand := if k.q.par.prob then e.cand ++ [(finalProbs kept sum).map fun c => (c.1, BitVec.ofNat 32 c.2)] else e.cand
        (s.putPart k r.2 { e with draft := e.draft ++ [t], cand := cand }).feedDraft i k.v t
      | _ => (s.putPart k r.2 { e with draftEnd := true }).feedDraft i k.v 0

def execDraftTokenDraw (inst : Fin 16) (req : Word32) (j : Nat) (s : State) : Res := .next (s.draftDraw inst.val req j)

/-- An emitted token that ends the draws of the step. -/
def StepSeq.last (e : StepSeq) (t : Nat) : StepSeq := { e with emit := e.emit ++ [t], settled := true }

/-- An accepted draft token. -/
def StepSeq.accept (e : StepSeq) (t : Nat) : StepSeq := { e with emit := e.emit ++ [t], accepted := e.accepted + 1 }

/-- The residual weights of R381: r(t) over the main kept tokens, in order. -/
def residual (ps qs : List (Nat × Nat)) : List (Nat × Nat) :=
  ps.map fun x => (x.1, let d := f32sub x.2 ((findKey qs x.1).getD 0); if f32above d then d else 0)

/-- Acceptance of x(k) under PROB. -/
def acceptProb (p : Sampling) (e : StepSeq) (pos x : Nat) (kept : List (Nat × Nat)) (sum : Nat) (cand : List (Nat × Nat)) : StepSeq :=
  let ps := finalProbs kept sum
  let pv := (findKey ps x).getD 0
  let qv := (findKey cand x).getD 0
  if f32lt (f32mul (drawU p.seed pos 1) qv) pv then e.accept x
  else
    let rs := residual ps cand
    let rsum := sumInOrder (rs.map (·.2))
    e.last (if f32above rsum then pick (drawU p.seed pos 2) rs rsum else pick (drawU p.seed pos 0) kept sum)

/-- The main draw at position L + k: of the first token, of a decode row, or of a verify position, in position order (R379 to R381). -/
def State.mainDraw (s : State) (i : Nat) (req : Word32) (k : Nat) : State :=
  match s.sampled i req with
  | none => s
  | some w =>
    let e := w.e
    let p := w.q.par
    if k ≠ e.accepted + 1 || (!e.prefill && !e.draftEnd && e.draft.length < e.d) then s
    else
      let pos := if e.prefill then e.pos + e.rows else e.pos + k
      let row := if e.prefill then e.row0 + e.rows - 1 else e.row0 + k - 1
      let r := s.drawRow i w.v w.q e (k - 1) w.v.logitPage row
      let u := drawU p.seed pos 0
      s.putPart w r.2 (match r.1 with
        | .maskEmpty => { e with fault := some stMASK_EMPTY }
        | .numerics => { e with fault := some stNUMERICS_FAULT }
        | .dist kept sum =>
          match (e.draft[k - 1]? : Option Nat) with
          | none => e.last (pick u kept sum)
          | some x =>
            if p.prob then acceptProb p e pos x kept sum ((nth [] e.cand (k - 1)).map fun c => (c.1, c.2.toNat))
            else
              let y := pick u kept sum
              if y = x then e.accept x else e.last y)

def execSamplerPosition (inst : Fin 16) (req : Word32) (k : Nat) (s : State) : Res := .next (s.mainDraw inst.val req k)

end Sys2Proof.Machine
end

