-- ==== Sys2Proof/Machine/Fabric.lean ====
section
/-! DEFINITION. Fabric operations: the memory operations that arrive, the ownership table's part in them, the remote request queues with
their responses and deadlines, and JOB_TEARDOWN (11 R302 to R317). -/
namespace Sys2Proof.Machine

/-! ### Requests that arrive (R302 to R306, R313) -/

/-- The fields that are zero in every memory request. -/
def requestFormed (m : Msg) : Bool := m.status == 0 && Nat.blt m.offset.toNat (2 ^ 46)

/-- The range lies within one tile. -/
def inOneTile (a n : Nat) : Bool := Nat.ble (a % 4096 + n) 4096

/-- A remote write by a node is allowed at a byte (R313). -/
def State.writerAllowed (s : State) (node a : Nat) : Bool :=
  match s.ownAt a with
  | some o => o.mode == 2 || (o.mode == 1 && o.owner == node)
  | none => false

/-- A memory request of a KIND writes (R303). -/
def memWrites (kind : Nat) : Bool := 2 ≤ kind && kind ≤ 4

/-- OPT is an encoding that R303 and R306 give a kind: operation and type of an ATOMIC, the new mode of a HANDOFF (R312). -/
def optOk (kind opt : Nat) : Bool :=
  if kind = 3 then opt < 32 && bits opt 0 2 < 3 && bits opt 2 3 < 5 else if kind = 0x18 then opt < 3 else opt = 0

/-- The limits of R303 and R304 on a memory request of a KIND: 1 LOAD, 2 STORE, 3 ATOMIC, 4 BULK_PUT, 5 BULK_GET. -/
def memFormed (kind : Nat) (m : Msg) : Bool :=
  let n := m.length.toNat
  let a := msgMpa m
  let w := memBytes kind m
  requestFormed m && Nat.ble 1 n &&
    match kind with
    | 1 => m.opt == 0 && Nat.ble n 256 && inOneTile a n && m.payload.isEmpty
    | 2 => m.opt == 0 && Nat.ble n 256 && inOneTile a n && m.payload.length == n
    | 3 => optOk 3 m.opt.toNat && a % w == 0 &&
        n == (if bits m.opt.toNat 0 2 = 1 then 2 * w else w) && m.payload.length == n
    | 4 => m.opt == 0 && Nat.ble n 65536 && m.payload.length == n
    | _ => m.opt == 0 && Nat.ble n 65536 && m.payload.isEmpty

/-- What an atomic leaves in memory (R306): 0 ADD, 1 CAS, 2 MAX over U32, U64, S32, S64, F32. -/
def atomicResult (op type old x y : Nat) : Nat :=
  let w := 8 * atomicBytes type
  if op = 1 then (if old = x then y else old)
  else if type = 4 then (if op = 0 then f32add old x else f32max old x)
  else if op = 0 then (old + x) % 2 ^ w
  else if type < 2 then max old x
  else if sgn w old < sgn w x then x else old

/-- The effect of a memory request, and the data of its response (R304 to R306, R217). -/
def State.memAct (s : State) (kind : Nat) (m : Msg) : State × List Byte :=
  let a := msgMpa m
  let old := s.load a (memBytes kind m)
  if kind = 3 then
    let w := memBytes kind m
    (s.writeMpa a (leBytes w (atomicResult (bits m.opt.toNat 0 2) (bits m.opt.toNat 2 3) (leNat old) (field m.payload 0 w)
      (field m.payload w w))), old)
  else if memWrites kind then (s.writeMpa a m.payload, [])
  else (s, old)

/-- The status of a memory request before its checks (R28, R34 to R36, R114, R249, R304, R313). -/
def State.fabricStatus (s : State) (write : Bool) (node a n : Nat) : Nat :=
  let st := s.portStatusOf write false a n
  if st ≠ stOK then st
  else if write && !(s.writerAllowed node a && s.writerAllowed node (a + n - 1)) then stNOT_OWNER
  else if !write && s.badShard a n then stSHARD_FAULT
  else stOK

/-- A memory request acts: the checks of the tiles it reads or merges with, then its effect and its data (R217, R218, R220, R304, R305). -/
def State.serveMem (s : State) (kind : Nat) (m : Msg) (reads : List Check) : State :=
  let a := msgMpa m
  let n := memBytes kind m
  match s.hubRead a (0, 0) (if memWrites kind then mergeReads a n reads else reads) with
  | (some _, s) => s.respond kind m (lostStatus a) []
  | (none, s) =>
    let r := (s.touch a n).memAct kind m
    r.1.respond kind m stOK r.2

/-- A memory request makes reads: it loads, or merges. -/
def memReads (kind : Nat) (m : Msg) : Bool := !(memWrites kind) || merges (msgMpa m) (memBytes kind m)

/-- A memory request: its limits, its status, and then its effect, for which it waits at the hub where its read must wait or an earlier
request to its bytes does (R26, R227, R304, R305, R310). -/
def State.memoryOp (s : State) (kind : Nat) (m : Msg) (reads : List Check) : State :=
  let a := msgMpa m
  let n := memBytes kind m
  let st := s.fabricStatus (memWrites kind) m.src.toNat a n
  if !(memFormed kind m) then s.respond kind m stINVALID_FIELD []
  else if st ≠ stOK then (s.countAccess a st).respond kind m st []
  else if s.behind s.fab.held a n || s.hubWaits (memReads kind m) a n then
    (s.bumpIf (memReads kind m && s.rangeFilling a n) (rFrame (mpaUnit a) 0xD8)).holdReq (.memory kind m reads)
  else s.serveMem kind m reads

/-- LOAD (R303 to R305). -/
def execLoad (m : Msg) (reads : List Check) (s : State) : Res := .next (s.watched (·.deliver 0x01 m fun s => s.memoryOp 0x01 m reads))
/-- STORE (R303 to R305, R217). -/
def execStore (m : Msg) (reads : List Check) (s : State) : Res := .next (s.watched (·.deliver 0x02 m fun s => s.memoryOp 0x02 m reads))
/-- ATOMIC (R303 to R306). -/
def execAtomic (m : Msg) (reads : List Check) (s : State) : Res := .next (s.watched (·.deliver 0x03 m fun s => s.memoryOp 0x03 m reads))
/-- BULK_PUT: whole tiles with fresh checks, the ends merged (R217, R303 to R305). -/
def execBulkPut (m : Msg) (reads : List Check) (s : State) : Res := .next (s.watched (·.deliver 0x04 m fun s => s.memoryOp 0x04 m reads))
/-- BULK_GET (R218, R303 to R305). -/
def execBulkGet (m : Msg) (reads : List Check) (s : State) : Res := .next (s.watched (·.deliver 0x05 m fun s => s.memoryOp 0x05 m reads))

/-- HANDOFF acts: it is refused to any node but the owner of a REMOTE region (R314). DESIGN CHOICE (log 120): OWNER takes the request's
AUX whatever the new mode; R312 gives it a meaning in REMOTE only. -/
def State.handoffNow (s : State) (m : Msg) : State :=
  match s.ownAt (msgMpa m) with
  | some o =>
    if o.mode = 1 && o.owner = m.src.toNat then
      let n := { o with mode := m.opt.toNat, owner := m.aux.toNat, epoch := (o.epoch + 1) % 2 ^ 32 }
      (s.setOwn 12 m.src.toNat (some o) n none).respond 0x18 m stOK []
    else s.notOwner.respond 0x18 m stNOT_OWNER []
  | none => s.notOwner.respond 0x18 m stNOT_OWNER []

/-- HANDOFF by the owner of a REMOTE region (R303, R314): it waits for the requests to the region that were accepted before it. -/
def State.handoffIn (s : State) (m : Msg) : State :=
  if !(requestFormed m) || m.opt.toNat > 2 || m.aux.toNat ≥ 2 ^ 14 || m.length != 0 || !m.payload.isEmpty then
    s.respond 0x18 m stINVALID_FIELD []
  else
    let r := s.heldRange (.handoff m)
    if s.behind s.fab.held r.1 r.2 then s.holdReq (.handoff m) else s.handoffNow m

def execHandoff (m : Msg) (s : State) : Res := .next (s.deliver 0x18 m fun s => s.handoffIn m)

/-! ### Requests that have waited -/

/-- A waiting request still waits. -/
def State.stillWaits (s : State) : HeldReq → Bool
  | .memory kind m _ => s.hubWaits (memReads kind m) (msgMpa m) (memBytes kind m)
  | _ => false

/-- A request that has waited acts. A memory request was checked when it was accepted (R314). -/
def State.actHeld (s : State) : HeldReq → State
  | .memory kind m reads => s.serveMem kind m reads
  | .handoff m => s.handoffNow m
  | .ownSet origin o valid cqe => s.applyOwn origin o valid cqe

/-- Waiting requests act in order of acceptance as far as they may (R26, R314). -/
def State.retryHeld (s : State) : State :=
  s.fab.held.foldl (fun s h =>
    let r := s.heldRange h
    if s.stillWaits h || s.behind s.fab.held r.1 r.2 then s.holdReq h else s.actHeld h) { s with fab := { s.fab with held := [] } }

/-- Reads, commands and requests that waited for a route or a bridge go on (R25, R446). -/
def State.routesOpen (s : State) : State := ((List.range 4).foldl State.issueReads s).retryHeld

def execPrefetchTileLand (stack : Fin 24) (tile : Fin 12288) (check : Check) (s : State) : Res :=
  .next (s.watched fun s => (s.landPrefetch stack.val tile.val check).retryHeld)

def execGatherComplete (stack : Fin 24) (check : Check) (s : State) : Res :=
  .next (s.watched fun s => (s.gatherDone stack.val check).retryHeld)

/-- A proving run ends; what waited for its bridge goes on (R446). -/
def execProvingRunEnd (u : ProveUnit) (pass : Bool) (failingRows : Nat) (s : State) : Res :=
  .next (s.watched fun s => (s.endRun u pass failingRows).retryHeld)

/-- NOTICE is for the fabric manager: a module discards one it receives (R303). -/
def execNotice (m : Msg) (s : State) : Res := .next (s.deliver 0x38 m id)

/-! ### Remote request queues (R307 to R310, R314) -/

/-- A ring entry (R307). -/
structure RrqEntry where
  seq      : Nat
  kind     : Nat
  opt      : Nat
  target   : Nat
  length   : Nat
  data     : Nat                          -- bytes into the common store
  deadline : Nat
  owner    : Nat
  formed   : Bool
  deriving DecidableEq, Repr

def rrqEntry (bs : List Byte) : RrqEntry :=
  let f := field bs
  { seq := f 0 2, kind := f 2 1, opt := f 3 1, target := f 4 8, length := f 12 4, data := f 16 4 * 64, deadline := f 20 2,
    owner := f 28 2,
    formed := [1, 2, 3, 4, 5, 0xF, 0x18].contains (f 2 1) && optOk (f 2 1) (f 3 1) && f 4 8 < 2 ^ 60 && f 12 4 ≤ 65536 &&
      f 20 2 ≤ 1000 && f 22 2 = 0 && f 27 1 = 0 && f 28 2 < 2 ^ 14 && allZero (slice bs 30 34) }

/-- A queue of a configuration. -/
def State.rrq (s : State) (config num : Nat) : Option Rrq :=
  (s.inst (s.cfgInst config)).rrqs.find? fun q => q.config == config && q.num == num

/-- A queue changed. -/
def State.setRrq (s : State) (q : Rrq) : State :=
  let i := s.cfgInst q.config
  let x := s.inst i
  s.setInst i { x with rrqs := x.rrqs.map fun p => if p.config == q.config && p.num == q.num then q else p }

/-- MPA of a queue's ring tile. -/
def State.ringMpa (s : State) (q : Rrq) : Nat := mpaCs (((s.inst (s.cfgInst q.config)).csBase + q.tile) * 4096)

/-- STATUS and DONE of an entry written by the hub (R307). -/
def State.endEntry (s : State) (q : Rrq) (slot status : Nat) : State :=
  s.storeAt (s.ringMpa q + slot * 64 + 24) (leBytes 2 status ++ [BitVec.ofNat 8 (bits (field (s.load (s.ringMpa q + slot * 64 + 26) 1) 0 1) 1 7 * 2 + 1)])

/-- Bytes an entry's request carries: store data or operands; the result's bytes. -/
def RrqEntry.carried (e : RrqEntry) : Nat :=
  if e.kind = 2 || e.kind = 4 then e.length
  else if e.kind = 3 then (if e.opt % 4 = 1 then 2 else 1) * atomicBytes (bits e.opt 2 3) else 0
def RrqEntry.result (e : RrqEntry) : Nat :=
  if e.kind = 1 || e.kind = 5 then e.length else if e.kind = 3 then atomicBytes (bits e.opt 2 3) else 0

/-- The status of an entry's own area in the common store (R28, R35, R451). -/
def State.areaStatus (s : State) (e : RrqEntry) : Nat :=
  let n := max e.carried e.result
  if n = 0 then stOK
  else if e.data + n > 0x20000000 || !(s.populated (mpaCs e.data) n) then stADDRESS_ERROR
  else if inLedger (mpaCs e.data) n then stNOT_PERMITTED
  else if s.rangeFenced (mpaCs e.data) n then stCHECK_ERROR
  else stOK

/-- A request issued by the hub for an entry (R303, R308, R309, R311, R315). -/
def State.issue (s : State) (q : Rrq) (slot : Nat) (e : RrqEntry) : State :=
  let tag := (s.fab.tagNo + 1) % 2 ^ 32
  let ring := (s.inst (s.cfgInst q.config)).csBase + q.tile
  let tiles := if e.kind = 1 || e.kind = 5 then (List.range (cdiv (e.data % 4096 + e.length) 4096)).map (e.data / 4096 + ·) else []
  let r : Request :=
    { tag := tag, kind := e.kind, node := e.target / 2 ^ 46, inst := s.cfgInst q.config, config := q.config, queue := q.num, slot := slot,
      data := e.data, length := e.result, due := s.time.clk + (if e.deadline = 0 then 20 else e.deadline) * 1000, tiles := ring :: tiles }
  let body := s.load (mpaCs e.data) e.carried
  let m := { Msg.blank with
    vc := 1, dest := BitVec.ofNat 14 (e.target / 2 ^ 46), src := BitVec.ofNat 14 (s.node 4), opt := BitVec.ofNat 16 e.opt,
    tag := BitVec.ofNat 32 tag, offset := BitVec.ofNat 64 (e.target % 2 ^ 46), aux := if e.kind = 0x18 then BitVec.ofNat 32 e.owner else 0,
    length := if e.carried = 0 && (e.kind = 1 || e.kind = 5) then BitVec.ofNat 32 e.length else 0,
    payload := body }
  let s := s.setFab { s.fab with tagNo := tag, requests := s.fab.requests ++ [r] }
  let s := s.setMem { s.mem with pendTiles := s.mem.pendTiles ++ r.tiles }
  let s := s.setRrq { q with open_ := q.open_ ++ [tag] }
  s.sendTo e.kind m

/-- One entry at the place of the expected number: none where the scan stops (R308, R310, R314). -/
def State.scanEntry (s : State) (config num : Nat) : Option State :=
  match s.rrq config num with
  | none => none
  | some q =>
    let slot := q.expect % 64
    let e := rrqEntry (s.load (s.ringMpa q + slot * 64) 64)
    if q.stopped || e.seq ≠ q.expect then none
    else if e.formed && (e.kind = 0xF || e.kind = 0x18) && !q.open_.isEmpty then none
    else
      let q := { q with expect := (q.expect + 1) % 65536 }
      let s := s.setRrq q
      if !e.formed then some (s.endEntry q slot stINVALID_FIELD)
      else if e.kind = 0xF then some (s.endEntry q slot stOK)
      else
        let st := s.areaStatus e
        if st ≠ stOK then some ((s.countAccess (mpaCs e.data) st).endEntry q slot st) else some (s.issue q slot e)

/-- At most `n` entries accepted. -/
def State.scanQueue (s : State) (config num : Nat) : Nat → State
  | 0 => s
  | n + 1 => match s.scanEntry config num with
    | some s => s.scanQueue config num n
    | none => s

/-- The ring tile landed (R308). -/
def execRemoteQueueScan (config : Fin 64) (queue : Fin 16) (s : State) : Res := .next (s.scanQueue config.val queue.val 64)

/-! ### Responses, deadlines (R305, R309, R315, R316) -/

/-- A request ends: its data, then STATUS and DONE, then its tiles are no longer PENDING, and the queue goes on. -/
def State.endRequest (s : State) (r : Request) (status : Nat) (bs : List Byte) : State :=
  let s := s.setFab { s.fab with requests := s.fab.requests.filter fun x => x.tag ≠ r.tag }
  let s := if status = stOK && r.length ≠ 0 then s.storeAt (mpaCs r.data) (fit r.length bs) else s
  let s := match s.rrq r.config r.queue with
    | some q => (s.setRrq { q with open_ := q.open_.filter (· ≠ r.tag) }).endEntry q r.slot status
    | none => s
  s.setMem { s.mem with pendTiles := r.tiles.foldl (fun (l : List Nat) t => l.erase t) s.mem.pendTiles }

/-- A response (R305, R315): after the deadline, or to an abandoned request, it is late. DESIGN CHOICE (log 120): so is one whose tag
names no request of the module. -/
def State.responseIn (s : State) (m : Msg) : State :=
  match s.fab.requests.find? fun r => r.tag == m.tag.toNat with
  | some r =>
    if r.due ≤ s.time.clk then s.bump 0x30048
    else (s.endRequest r m.status.toNat m.payload).scanQueue r.config r.queue 64
  | none =>
    if s.fab.lost.contains m.tag.toNat then (s.setFab { s.fab with lost := s.fab.lost.erase m.tag.toNat }).bump 0x30048
    else s.bump 0x30048

def execResponse (m : Msg) (s : State) : Res := .next (s.deliver 0x81 m fun s => s.responseIn m)

/-- FILLs that wait on PENDING tiles are released by the failed step (R316). -/
def State.dropPendingFills (s : State) (num : Nat) : State :=
  let mine := fun (b : BeadId) (k : Nat) => match s.ctx ⟨b, Fin.ofNat 4 k⟩ with | some c => c.config == num | none => false
  let beads := s.arr.beads.map fun b => { b with fills := b.fills.filter fun f => !(mine b.id f.ctx && s.isPending f.mpa) }
  { s with arr := { s.arr with beads := beads } }

/-- An instance halts (R316, R324, R340). -/
def State.haltInst (s : State) (i : Nat) : State :=
  let x := s.inst i
  s.setInst i { x with stopped := true, state := if x.state == .active then .halted else x.state }

/-- A request reaches its deadline (R315, R316). -/
def State.deadlineOf (s : State) (tag : Nat) : State :=
  match s.fab.requests.find? fun r => r.tag == tag with
  | none => s
  | some r => s.atTimer r.due fun s =>
    let s := s.dropPendingFills r.config
    let s := (s.endRequest r stTARGET_LOST []).bump 0x30050
    let s := s.setFab { s.fab with lost := s.fab.lost ++ [tag] }
    let s := match s.rrq r.config r.queue with | some q => s.setRrq { q with stopped := true } | none => s
    let run := (s.stepOf r.config).bind fun id => s.serve.steps.find? fun x => x.id == id
    let s := match run with
      | some x =>
        let s := s.failSteps (fun y => y.id == x.id) stTARGET_LOST
        if x.fail.isSome then s
        else s.instEvent 0x10 r.inst r.config stTARGET_LOST locNone (leBytes 4 x.index ++ leBytes 1 x.numeric)
      | none => s
    let s := s.haltInst r.inst
    let s := s.instEvent 0x14 r.inst r.config stTARGET_LOST locNone (leBytes 2 r.node ++ leBytes 2 r.queue)
    s.notice 1 r.inst false (leBytes 2 r.node ++ leBytes 1 r.inst ++ leBytes 1 r.config ++ leBytes 1 r.queue)

def execFabricDeadline (tag : Word32) (s : State) : Res := .next (s.deadlineOf tag.toNat)

/-! ### JOB_TEARDOWN (R317) -/

/-- The requests and steps of an instance end with JOB_TORN_DOWN; from ACTIVE or HALTED it is then TORN_DOWN (steps 1 to 4, R342). -/
def State.tearInst (s : State) (i : Nat) : State :=
  let x := s.inst i
  let named := x.state == .active || x.state == .halted
  if x.state == .free then s
  else
    let runs := s.serve.steps.filter fun r => r.inst == i
    let s := runs.foldl (fun s r => (r.window.foldl (fun s w => s.charge w 0) s).dropStep { r with fail := some stJOB_TORN_DOWN }) s
    let s := (x.queue ++ x.seqs).foldl (fun s q => s.endSeq i q stJOB_TORN_DOWN) s
    let mine := s.serve.waits.filter fun w => bits w.object 16 4 == i
    let s := mine.foldl (fun s w => match w.cqe with | some q => s.cqWrite { q with status := stJOB_TORN_DOWN } | none => s) s
    let s : State := { s with serve := { s.serve with
      waits := s.serve.waits.filter (fun w => bits w.object 16 4 ≠ i), colls := s.serve.colls.filter fun c => c.inst ≠ i } }
    let s := s.setFab { s.fab with slotOut := s.fab.slotOut.filter (fun x => x.inst ≠ i),
                                   torn := (s.fab.torn ++ runs.map fun r : StepRun => r.start % 2 ^ 32).eraseDups }
    let s := s.abandonRequests i
    let s := ((s.serve.cfgs.filter fun c => c.inst == i).map (·.num)).foldl State.dropConfig s
    let y := s.inst i
    s.setInst i { y with state := if named then .tornDown else y.state, stopped := named || y.stopped,
                         rrqs := y.rrqs.map fun q => { q with expect := 0, stopped := false, open_ := [] } }

/-- REMOTE entries of an owner in the partition become HOME (step 5). -/
def State.resetOwnership (s : State) : State :=
  s.setMem { s.mem with own := s.mem.own.map fun o =>
    if o.mode = 1 && o.owner / 1024 = s.fab.part then { o with mode := 0, owner := 0, epoch := (o.epoch + 1) % 2 ^ 32 } else o }

/-- OBJECT of a TEARDOWN record (R460). -/
def objTeardown (mask : Nat) : Nat := object 0x0E mask

/-- JOB_TEARDOWN. -/
def State.teardown (s : State) (m : Msg) : State :=
  let mask := m.aux.toNat
  if m.part.toNat ≠ s.fab.part then s.respond 0x32 m stNOT_PERMITTED []
  else if m.opt.toNat > 1 || mask ≥ 65536 || m.status != 0 || m.offset != 0 || !m.payload.isEmpty then s.respond 0x32 m stINVALID_FIELD []
  else
    let s := ((List.range 16).filter (bit mask)).foldl State.tearInst s
    let s := if m.opt == 1 then s.resetOwnership else s
    let s := (s.hand 11 (objTeardown mask) [] []).retryLoads
    (s.respond 0x32 m stOK []).notice 3 mask true (leBytes 2 mask)

def execJobTeardown (m : Msg) (s : State) : Res := .next (s.deliver 0x32 m fun s => s.teardown m)

end Sys2Proof.Machine
end

