-- ==== Sys2Proof/Machine/Colls.lean ====
section
/-! DEFINITION. Collectives: contributions and their reduction, windows, replay and failure (11 R318 to R324; 02 R72; 05 R161, R165), and
the sections of expert dispatch and return (07 R202 to R205). -/
namespace Sys2Proof.Machine

/-! ### Blocks of a reduction (R161, R319, R320) -/

/-- An I8 block of a contribution: RAW or BITMAP, class 1, width 8. A DICT block is a format error (R319). -/
def hubBlock (bs : List Byte) : Option RawBlock :=
  match expand (fun _ _ => none) (.act 0 false) bs with
  | .ok b => if b.width = 8 then some b else none
  | .error _ => none

/-- Consecutive whole blocks; none where one is not whole or fails its checks. -/
def splitBlocks : Nat → List Byte → Option (List (List Byte))
  | 0, _ => none
  | n + 1, bs =>
    if bs.isEmpty then some []
    else
      let len := bits (field bs 0 8) 32 16
      if len = 0 || len > bs.length || (hubBlock (bs.take len)).isNone then none
      else (splitBlocks n (bs.drop len)).map fun rest => bs.take len :: rest

/-- One element of a block as FP32 (R161 stage 1). -/
def RawBlock.widen (b : RawBlock) (e : Nat) : Nat :=
  let k := e / 32
  match b.outs.find? fun o => o.1 == k && o.2.1 == e % 32 with
  | some o => bf16wide o.2.2
  | none =>
    let c := b.code k (e % 32)
    let scale := nth 0 b.scales k
    if scale = 0 then 0 else fp32.round (decide (c < 0)) c.natAbs ((scale : Int) - 127) false

/-- The 128 values of an encoded block. -/
def blockValues (bs : List Byte) : List Nat :=
  match hubBlock bs with
  | some b => (List.range 128).map b.widen
  | none => List.replicate 128 0

/-- One level of the tree (R320). -/
def treeLevel : List (List Nat) → List (List Nat)
  | a :: b :: rest => ((a.zip b).map fun p => f32add p.1 p.2) :: treeLevel rest
  | rest => rest

/-- The pairwise tree in rank order: `n` levels at most. -/
def collTree : Nat → List (List Nat) → List Nat
  | 0, rows => rows.headD []
  | n + 1, rows => if rows.length ≤ 1 then rows.headD [] else collTree n (treeLevel rows)

/-- One block of a reduced chunk: its encoding, and whether it trips the hub's watch (R127 to R129, R151, R161). -/
def reduceBlock (rows : List (List Byte)) : List ScaleEnc := encodeBlock 127 Config.hubThreshold.toNat none (collTree 7 (rows.map blockValues))

/-- Trips and non-finite elements counted for the summary (R165). -/
def State.hubNumbers (s : State) (trips nonfin : Nat) : State :=
  let n := s.arr.num
  { s with arr := { s.arr with num := { n with hubTrips := min (n.hubTrips + trips) 0xFFFFFFFF,
                                               hubNonfin := min (n.hubNonfin + nonfin) 0xFFFF } } }

/-! ### An open collective -/

/-- Blocks of a chunk: the whole contribution for ALL_GATHER. -/
def CollDesc.chunk (d : CollDesc) : Nat := if d.kind = 2 then d.blocks else d.blocks / max d.n 1

/-- A collective of an instance. -/
def State.coll (s : State) (i index : Nat) : Option CollRun := s.serve.colls.find? fun r => r.inst == i && r.desc.index == index

def State.setColl (s : State) (r : CollRun) : State :=
  { s with serve := { s.serve with
    colls := s.serve.colls.map fun x => if x.inst == r.inst && x.desc.index == r.desc.index then r else x } }

/-- One collective changed. -/
def State.onColl (s : State) (i index : Nat) (f : CollRun → CollRun) : State :=
  match s.coll i index with | some r => s.setColl (f r) | none => s

/-- Member module numbers in rank order (R318). -/
def State.members (s : State) (d : CollDesc) : List Nat := (pieces 2 d.n (s.load (mpaCs (d.members * 4096)) (2 * d.n))).map leNat

/-- An encoded block in a 192-byte slot of the common store. -/
def State.slotBlock (s : State) (tile k : Nat) : List Byte :=
  let bs := s.load (mpaCs (tile * 4096 + k * 192)) 192
  bs.take (bits (field bs 0 8) 32 16)

def State.putSlot (s : State) (tile k : Nat) (bs : List Byte) : State := s.storeAt (mpaCs (tile * 4096 + k * 192)) bs

/-- The own contribution's blocks; none where one of them is no block (R319). -/
def State.ownBlocks (s : State) (d : CollDesc) : Option (List (List Byte)) :=
  (List.range d.blocks).mapM fun k => let bs := s.slotBlock d.src k; if (hubBlock bs).isSome then some bs else none

/-- The context a descriptor's AGENT names, where its configuration is resident (R318). -/
def State.agent (s : State) (r : CollRun) : Option Context :=
  let e := targetEdge r.desc.agent
  match s.schedCfg r.inst e.ctx.bead e.ctx.ctx.val with
  | some c => if c.resident then (c.physCtx e.ctx.bead).bind fun k => s.ctx ⟨e.ctx.bead, Fin.ofNat 4 k⟩ else none
  | none => none

/-- The contribution is ready (R319, R321). -/
def State.contribReady (s : State) (r : CollRun) : Bool :=
  let d := r.desc
  if d.kind ≤ 2 then
    ((List.range (cdiv (d.blocks * 192) 4096)).all fun t => match findKey s.mem.landed (d.src + t) with
      | some b => Nat.ble r.start b
      | none => false) && (s.ownBlocks d).isSome
  else
    match s.agent r with
    | some c => c.step == some r.step && (if d.kind = 3 then c.dispatched.contains d.routeId else c.ended)
    | none => false

/-- A received block of a rank, of either attempt. -/
def CollRun.block (r : CollRun) (rank phase k : Nat) : Option (List Byte) :=
  (r.got.find? fun g => g.sender == rank && g.phase == phase && g.place == k).map (·.bytes)

/-- Every block of a rank's message. -/
def CollRun.full (r : CollRun) (rank phase n : Nat) : Bool := (List.range n).all fun k => (r.block rank phase k).isSome

/-! ### Sections (R202 to R205) -/

/-- The expert whose replicas include a replica descriptor, with its number (R191). -/
def RouteTable.expertOf (t : RouteTable) (ri : Nat) : Option (Nat × Expert) :=
  (t.experts.zipIdx.find? fun p => p.1.base ≤ ri && ri < p.1.base + p.1.nrep).map fun p => (p.2, p.1)

/-- The completion-target number of a replica's header edge. -/
def Replica.target (r : Replica) : Nat := r.node % 4 + r.rod * 4 + r.bead * 128 + r.ctx * 2048 + r.edge * 8192
def Replica.at_ (r : Replica) : BeadId := ⟨Fin.ofNat 4 r.node, Fin.ofNat 32 r.rod, Fin.ofNat 16 r.bead⟩

/-- Replica descriptors of this module, with their numbers. -/
def State.localReplicas (s : State) (t : RouteTable) : List (Nat × Replica) :=
  (t.replicas.zipIdx.filter fun p => p.1.node / 8 == s.fab.moduleNo && (t.expertOf p.2).isSome).map fun p => (p.2, p.1)

/-- A context's DISPATCH for a ROUTE_ID. -/
def Context.dispatchOp (c : Context) (route : Nat) : Option ExpOp :=
  (c.acts.find? fun a => a.unit == 3 && a.op.toNat % 4 == 2 && (expOp a.op.toNat).route == route).map fun a => expOp a.op.toNat

/-- The sources of a ROUTE_ID in an instance's configurations, resident or stored: configuration, bead and DISPATCH operand. -/
def State.sources (s : State) (i route : Nat) : List (Cfg × BeadId × ExpOp) :=
  (s.serve.cfgs.filter fun c => c.inst == i).flatMap fun c =>
    match s.wantedGen c with
    | some g => g.val.ctxs.filterMap fun x => (x.dispatchOp route).map fun o => (c, x.id.bead, o)
    | none => []

/-- A section header (R202). -/
def sectionHeader (gen layer expert replica rows source dir beat : Nat) : List Byte :=
  withCheck (leBytes 4 gen ++ leBytes 2 layer ++ leBytes 2 (expert + replica * 2 ^ 13) ++ leBytes 4 rows ++ leBytes 2 source ++
    leBytes 1 dir ++ zeros 1 ++ leBytes 6 beat ++ zeros 40)

/-- Row and rank of the choice that took a slot of a replica. -/
def choiceAt (rows : List (List Choice)) (e q k : Nat) : Option (Nat × Nat) :=
  rows.zipIdx.findSome? fun p =>
    (p.1.zipIdx.find? fun c => c.1.kept && c.1.expert == e && c.1.replica == q && c.1.slot == k).map fun c => (p.2, c.2)

/-- A section's destination node and bytes. -/
structure Section where
  node  : Nat
  bytes : List Byte

/-- The sections of a DISPATCH: one for each replica, from the agent's choice list and DATA rows (R319). -/
def State.dispatchSections (s : State) (r : CollRun) : List Section :=
  match s.agent r, r.route with
  | some c, some (gen, t) =>
    match c.dispatchOp r.desc.routeId with
    | none => []
    | some o =>
      let b := c.id.bead
      let rows := s.choiceRows b o.src o.rows
      t.replicas.zipIdx.filterMap fun p => (t.expertOf p.2).map fun e =>
        let n := field (s.tileRead b (o.src + o.rows * 64 + 2 * p.2) 2) 0 2
        let body := (List.range n).flatMap fun k => match choiceAt rows e.1 (p.2 - e.2.base) k with
          | some m => s.tileRead b (r.desc.data * 64 + m.1 * r.desc.rowBytes) r.desc.rowBytes
          | none => zeros r.desc.rowBytes
        ⟨p.1.node, sectionHeader gen t.layer e.1 (p.2 - e.2.base) n o.last 0 r.start ++ body⟩
  | _, _ => []

/-- The dispatch collective that a return answers. -/
def State.dispatchOf (s : State) (r : CollRun) : Option CollRun :=
  s.serve.colls.find? fun d => d.inst == r.inst && d.step == r.step && d.desc.kind == 3 && d.desc.routeId == r.desc.routeId

/-- The sections of a RETURN: one for each source whose dispatch section came, rows of the agent's outputs in (source, slot) order. -/
def State.returnSections (s : State) (r : CollRun) : List Section :=
  match s.agent r, r.route, s.dispatchOf r with
  | some c, some (gen, t), some d =>
    let at_ := (targetEdge r.desc.agent).ctx
    match (s.localReplicas t).find? fun p => p.2.at_ == at_.bead && p.2.ctx == at_.ctx.val with
    | none => []
    | some (ri, _) =>
      match t.expertOf ri with
      | none => []
      | some (e, x) =>
        (d.got.filter fun g => g.sender / 256 == ri && g.place == 0).map fun g =>
          let src := g.sender % 256
          let n := field g.bytes 8 4
          let off := r.desc.data * 64 + src * x.cap * r.desc.rowBytes
          ⟨g.node, sectionHeader gen t.layer e (ri - x.base) n src 1 r.start ++ s.tileRead c.id.bead off (n * r.desc.rowBytes)⟩
  | _, _, _ => []

/-- A section's bytes by parts: the header and the rows that fit, then rows (R303). -/
def sectionParts (row : Nat) (bs : List Byte) : List (List Byte) :=
  let per := max 1 (65536 / max row 1) * row
  let first := 64 + (65536 - 64) / max row 1 * row
  bs.take first :: pieces per (cdiv (bs.length - first) (max per 1)) (bs.drop first)

/-! ### Sending (R291, R319, R321) -/

/-- Slots of a flow to a node in a table (R73). -/
def SlotTable.of (t : SlotTable) (flow node : Nat) : List SlotEntry := t.slots.filter fun e => e.flow == flow && e.dest == node

/-- The generation of a port's slot table (R76). -/
def State.slotGen (s : State) (port gen : Nat) : Option SlotTable := ((s.slotTab port).slot gen).map (·.val)

/-- Among the slot tables that a step bound, the port and generation with a slot of a flow to a node (R76, R291). -/
def State.slotFor (s : State) (step flow node : Nat) : Option (Nat × Nat) :=
  (s.serve.steps.find? fun r => r.id == step).bind fun r =>
    r.slots.find? fun p => match s.slotGen p.1 p.2 with | some t => !(t.of flow node).isEmpty | none => false

/-- A message that waits leaves by tick `upTo` of the running beat: a slot of its flow has opened by then that had not closed when it
began to wait (R75). -/
def State.slotReady (s : State) (upTo : Nat) (x : SlotMsg) : Bool :=
  match s.slotGen x.port x.gen with
  | some t => (t.of x.flow x.m.dest.toNat).any fun e => Nat.ble e.opens upTo && Nat.blt x.from_ e.closes
  | none => false

/-- Waiting slot traffic leaves in its order as far as its slots have opened; it runs in LOCKED and HOLDOVER, and while admitted, only
(R58, R60, R75). What no slot table holds any more is not sent. -/
def State.drainSlots (s : State) (upTo : Nat) : State :=
  if !s.mayRun then s
  else
    let now := s.fab.slotOut.filter (s.slotReady upTo)
    let rest := s.fab.slotOut.filter fun x => !(s.slotReady upTo x) && (s.slotGen x.port x.gen).isSome
    now.foldl (fun s x => s.sendOn (s.planePort x.port) x.kind false x.m) (s.setFab { s.fab with slotOut := rest })

/-- At the end of a beat: what still waits goes on from the first tick of the next (R75). -/
def State.holdSlots (s : State) : State :=
  s.setFab { s.fab with slotOut := s.fab.slotOut.map fun x => { x with from_ := 0 } }

/-- A message of a flow takes its slot, or waits for the next one of the flow; one that comes after the CLOSE of a slot of its flow has
missed it, which is counted (R75). In UNLOCKED and ACQUIRE, and while not admitted, no slot traffic is sent (R58, R60). -/
def State.sendSlot (s : State) (i port gen flow kind : Nat) (m : Msg) : State :=
  if !s.mayRun then s
  else
    let x : SlotMsg := ⟨i, port, gen, flow, s.time.tick, kind, m⟩
    let missed := match s.slotGen port gen with
      | some t => !(s.slotReady s.time.tick x) && (t.of flow m.dest.toNat).any fun e => Nat.ble e.closes s.time.tick
      | none => false
    (s.setFab { s.fab with slotOut := s.fab.slotOut ++ [x], slotMisses := s.fab.slotMisses + flag missed }).drainSlots s.time.tick

/-- A message of a collective leaves: in its slots on VC 0, or unscheduled on VC 1. -/
def State.collOut (s : State) (r : CollRun) (kind : Nat) (m : Msg) : State :=
  let m := { m with src := BitVec.ofNat 14 (s.node 4), seq := m.seq, aux := BitVec.ofNat 32 r.start,
                    tag := BitVec.ofNat 32 (r.desc.index + r.attempt * 2 ^ 16), vc := if r.desc.flowEn then 0 else 1 }
  if !r.desc.flowEn || s.isOwn m.dest then s.sendTo kind m
  else
    match s.slotFor r.step r.desc.flow m.dest.toNat with
    | some (k, gen) => s.sendSlot r.inst k gen r.desc.flow kind m
    | none => s

/-- Blocks of a chunk in messages of at most 65,536 bytes: first block and bytes (R319). -/
def packBlocks : Nat → Nat → List Byte → List (List Byte) → List (Nat × List Byte)
  | first, n, cur, [] => if n = 0 then [] else [(first, cur)]
  | first, n, cur, b :: rest =>
    if n ≠ 0 && cur.length + b.length > 65536 then (first, cur) :: packBlocks (first + n) 1 b rest
    else packBlocks first (n + 1) (cur ++ b) rest

/-- A chunk sent to a rank. -/
def State.sendChunk (s : State) (r : CollRun) (ms : List Nat) (rank phase : Nat) (bs : List (List Byte)) : State :=
  (packBlocks 0 0 [] bs).foldl (fun s p => s.collOut r 0x10 { Msg.blank with
    dest := BitVec.ofNat 14 (nth 0 ms rank * 8 + 4), opt := BitVec.ofNat 16 phase, seq := BitVec.ofNat 32 r.desc.rank,
    offset := BitVec.ofNat 64 (p.1 * 192), payload := p.2 }) s

/-- A section sent. -/
def State.sendSection (s : State) (r : CollRun) (x : Section) : State :=
  let src := BitVec.ofNat 14 (s.node (r.desc.agent % 4))
  (sectionParts r.desc.rowBytes x.bytes).zipIdx.foldl (fun s p => s.collOut r 0x11 { Msg.blank with
    dest := BitVec.ofNat 14 x.node, src := src, seq := BitVec.ofNat 32 p.2, payload := p.1 }) s

/-- Every other rank. -/
def CollDesc.others (d : CollDesc) : List Nat := (List.range d.n).filter (· ≠ d.rank)

/-- The contribution of the running attempt sent. -/
def State.sendContribution (s : State) (r : CollRun) : State :=
  let d := r.desc
  let ms := s.members d
  if d.kind = 3 then (s.dispatchSections r).foldl (fun s x => s.sendSection r x) s
  else if d.kind = 4 then (s.returnSections r).foldl (fun s x => s.sendSection r x) s
  else
    let bs := (s.ownBlocks d).getD []
    d.others.foldl (fun s j =>
      s.sendChunk r ms j 0 (if d.kind = 2 then bs else (bs.drop (j * d.chunk)).take d.chunk)) s

/-- The own chunk reduced once every contribution to it is there (R320). -/
def State.reduceOwn (s : State) (r : CollRun) : State × CollRun :=
  let d := r.desc
  let n := d.chunk
  if d.kind ≥ 2 || !r.ready || !r.reduced.isEmpty || !(d.others.all fun k => r.full k 0 n) then (s, r)
  else
    let own := (s.ownBlocks d).getD []
    let encs := (List.range n).map fun k => reduceBlock ((List.range d.n).map fun j =>
      if j = d.rank then nth [] own (d.rank * n + k) else (r.block j 0 k).getD [])
    let bs := encs.map fun e => blockBytes 8 e none
    let trips := (encs.filter fun e => blockTrips Config.hubSatMax Config.hubZeroMax e).length
    let nonfin := (encs.flatMap id).foldl (fun a b => a + b.nonfin) 0
    let s := bs.zipIdx.foldl (fun s p => s.putSlot d.dst (d.rank * n + p.2) p.1) s
    (s.hubNumbers trips nonfin, { r with reduced := bs })

/-- What can be sent is sent, once for each attempt (R319, R321, R323). -/
def State.pushColl (s : State) (r : CollRun) : State :=
  let (s, r) := s.reduceOwn r
  let a := r.attempt * 2
  let first := r.ready && !(r.sent.contains a)
  let s := if first then s.sendContribution r else s
  let second := r.desc.kind == 0 && !r.reduced.isEmpty && !(r.sent.contains (a + 1))
  let ms := s.members r.desc
  let s := if second then r.desc.others.foldl (fun s j => s.sendChunk r ms j 1 r.reduced) s else s
  s.setColl { r with sent := r.sent ++ (if first then [a] else []) ++ (if second then [a + 1] else []) }

/-- The contribution is looked at, and sent where it is ready (R321). -/
def State.startSending (s : State) (i index : Nat) : State :=
  match s.coll i index with
  | none => s
  | some r =>
    if s.time.clk < r.openAt || r.failed then s
    else s.pushColl { r with ready := r.ready || s.contribReady r }

/-! ### Receiving (R203, R204, R322, R323) -/

/-- A late or rejected message (R47, R322, R325). -/
def State.collLate (s : State) (r : CollRun) : State :=
  (s.bump 0x30060).onStep r.step fun x => { x with late := x.late + 1 }

/-- The collective that a message belongs to, by its index and its step's start beat (R302, R303). -/
def State.collFor (s : State) (m : Msg) : Option CollRun :=
  s.serve.colls.find? fun r => r.desc.index == m.tag.toNat % 65536 && r.start % 2 ^ 32 == m.aux.toNat

/-- The attempt of a message (R302). -/
def attemptOf (m : Msg) : Nat := m.tag.toNat / 65536

/-- A message of no open collective: of a step that JOB_TEARDOWN ended it is discarded (R317, R325); any other one is late (R322). DESIGN
CHOICE (notes/assumptions/32.md): so is one that names no step of the module. -/
def State.collNone (s : State) (m : Msg) : State :=
  if s.fab.torn.contains m.aux.toNat then s.bump 0x30078 else s.bump 0x30060

/-- The stamp lies in the window of the message's attempt (R46, R72). -/
def State.inWindow (s : State) (r : CollRun) (attempt : Nat) : Bool :=
  if attempt = 0 then r.openAt ≤ s.time.clk && s.time.clk < r.close
  else attempt = 1 && r.slotOpen ≤ s.time.clk && s.time.clk < r.slotClose

/-- What a window, its attempt and an earlier success leave of a message. -/
def State.collIn (s : State) (m : Msg) (act : State → CollRun → State) : State :=
  match s.collFor m with
  | none => s.collNone m
  | some r =>
    if attemptOf m = 1 && r.done == some 0 then s
    else if !(s.inWindow r (attemptOf m)) then s.collLate r
    else act s r

/-- COLL (R319, R322). -/
def State.takeColl (s : State) (m : Msg) (r : CollRun) : State :=
  let d := r.desc
  let from_ := m.seq.toNat
  let phase := m.opt.toNat
  let first := m.offset.toNat / 192
  let parsed := splitBlocks (m.payload.length + 1) m.payload
  let bs := parsed.getD []
  if d.kind > 2 || from_ ≥ d.n || from_ = d.rank || nth 0 (s.members d) from_ ≠ m.src.toNat / 8 || phase > (if d.kind = 0 then 1 else 0) ||
      m.offset.toNat % 192 ≠ 0 || m.status != 0 || m.payload.length > 65536 || bs.isEmpty || first + bs.length > d.chunk then s.collLate r
  else
    let new := bs.zipIdx.filterMap fun p =>
      if (r.block from_ phase (first + p.2)).isSome then none else some (⟨from_, phase, first + p.2, m.src.toNat, p.1, 0⟩ : Got)
    let r := { r with got := r.got ++ new }
    (s.setColl r).pushColl r

/-- The bytes of a section as received. -/
def CollRun.section_ (r : CollRun) (sender : Nat) : List Byte := (r.got.filter fun g => g.sender == sender).flatMap (·.bytes)

/-- A section is whole. -/
def CollRun.whole (r : CollRun) (sender : Nat) : Bool :=
  let bs := r.section_ sender
  !bs.isEmpty && bs.length = 64 + field bs 8 4 * r.desc.rowBytes

/-- A section header passes R203: its replica number and source. -/
def State.headerPasses (s : State) (r : CollRun) (dest : Nat) (hd : List Byte) : Option Nat :=
  match r.route with
  | none => none
  | some (gen, t) =>
    let e := bits (field hd 6 2) 0 13
    let q := bits (field hd 6 2) 13 3
    let src := field hd 12 2
    let dir := field hd 14 1
    match (t.experts[e]? : Option Expert) with
    | none => none
    | some x =>
      let ri := x.base + q
      let mine := if dir = 0 then (match (t.replicas[ri]? : Option Replica) with | some p => p.node == dest | none => false)
        else (s.sources r.inst r.desc.routeId).any fun c => c.2.2.last == src && c.2.1.die.val == dest % 8
      if hd.length = 64 && crc16 (hd.take 62) = field hd 62 2 && field hd 0 4 = gen && field hd 16 6 = r.start && field hd 4 2 = t.layer &&
          q < x.nrep && dir = (if r.desc.kind = 3 then 0 else 1) && mine && src < t.sources && field hd 8 4 ≤ x.cap && field hd 15 1 = 0 &&
          allZero (slice hd 22 40) then some (ri * 256 + src) else none

/-- A node's section in hand, and another in its place. -/
def headKey (m : Msg) : Nat := m.src.toNat * 2 + attemptOf m
def CollRun.setHead (r : CollRun) (m : Msg) (h : SectionHead) : CollRun := { r with heads := putKey r.heads (headKey m) h }

/-- A rejected section (R203, R214): counted once, with the message that brought it; its later parts are rejected messages only (R325). -/
def State.rejectSection (s : State) (r : CollRun) (m : Msg) : State :=
  ((s.setColl (r.setHead m .rejected)).bump (rFrame (m.dest.toNat % 8 % 4) 0xB0)).collLate r

/-- The stage of a section (R204). -/
def CollRun.stage (r : CollRun) (sender : Nat) : Nat :=
  match r.got.find? fun g => g.sender == sender && g.place == 0 with | some g => g.stage | none => 0

def CollRun.setStage (r : CollRun) (sender n : Nat) : CollRun :=
  { r with got := r.got.map fun g => if g.sender == sender && g.place == 0 then { g with stage := n } else g }

/-- The rows of a dispatch section placed in its source's part (R203, R205); its configuration is resident. -/
def State.placeRows (s : State) (r : CollRun) (t : RouteTable) (ri src : Nat) (p : Replica) : State :=
  let cap := match t.expertOf ri with | some e => e.2.cap | none => 0
  s.tileWrite p.at_ (p.recv * 64 + src * cap * r.desc.rowBytes) ((r.section_ (ri * 256 + src)).drop 64)

/-- A configuration that is not resident waits for its restore (R349, R351). -/
def State.wakeCfg (s : State) (c : Cfg) : State :=
  if c.waiting.isNone then s.setCfg { c with waiting := some s.time.clk } else s

/-- The rows of a return section placed in the return area of its source (R205); they wait while the source is stored. -/
def State.returnRows (s : State) (r : CollRun) (t : RouteTable) (ri src : Nat) : State × CollRun :=
  match (s.sources r.inst r.desc.routeId).find? fun c => c.2.2.last == src, t.expertOf ri with
  | some (f, b, o), some (e, x) =>
    if !f.resident then (s.wakeCfg f, r)
    else
    let n := r.desc.rowBytes
    let rows := s.choiceRows b o.src o.rows
    let ret := returnArea o.src o.rows t.replicas.length
    let body := (r.section_ (ri * 256 + src)).drop 64
    ((List.range (body.length / max n 1)).foldl (fun s k => match choiceAt rows e (ri - x.base) k with
      | some m => s.tileWrite b (ret + (m.1 * t.k + m.2) * n) (slice body (k * n) n)
      | none => s) s, r.setStage (ri * 256 + src) 1)
  | _, _ => (s, r)

/-- The section's rows, then its header in SOURCE order; a configuration that is not resident waits (R203, R204, R349). -/
def State.placeOne (s : State) (r : CollRun) (t : RouteTable) (p : Nat × Replica) (src : Nat) : State × CollRun :=
  let key := p.1 * 256 + src
  match s.schedCfg r.inst p.2.at_ p.2.ctx with
  | none => (s, r)
  | some c =>
    if !(r.whole key) then (s, r)
    else if !c.resident then (s.wakeCfg c, r)
    else
      let rows := r.stage key = 0
      let s := if rows then s.placeRows r t p.1 src p.2 else s
      let r := if rows then r.setStage key 1 else r
      if r.stage key = 1 && (List.range src).all (fun k => r.stage (p.1 * 256 + k) == 2) then
        (s.placeOn r.inst p.2.target (BitVec.ofNat 512 (leNat ((r.section_ key).take 64))), r.setStage key 2)
      else (s, r)

/-- Every section of a collective that can be placed. -/
def State.placeSections (s : State) (r : CollRun) : State :=
  match r.route with
  | none => s
  | some (_, t) =>
    if r.desc.kind = 3 then
      let out := (s.localReplicas t).foldl (fun a p => (List.range t.sources).foldl (fun a src => a.1.placeOne a.2 t p src) a) (s, r)
      out.1.setColl out.2
    else if r.desc.kind = 4 then
      let keys := (r.got.filter fun g => g.place == 0 && g.stage == 0 && r.whole g.sender).map (·.sender)
      let out := keys.foldl (fun a key => a.1.returnRows a.2 t (key / 256) (key % 256)) (s, r)
      out.1.setColl out.2
    else s

/-- The parts of a section received so far. -/
def CollRun.parts (r : CollRun) (sender : Nat) : Nat := (r.got.filter fun g => g.sender == sender).length

/-- A later part of the section that its node is sending: the next one of a section that is taken, or one that goes the way of its
section's part 0 (R203, R303). -/
def State.takePart (s : State) (m : Msg) (r : CollRun) : State :=
  match findKey r.heads (headKey m) with
  | none => s.rejectSection r m
  | some .rejected => s.collLate r
  | some .repeated => s
  | some (.taken key) =>
    match r.got.find? fun g => g.sender == key && g.place == 0 with
    | none => s.rejectSection r m
    | some g =>
      if r.parts key ≠ m.seq.toNat then s.rejectSection r m
      else
        let r := { r with got := r.got ++ [{ g with place := m.seq.toNat, bytes := m.payload }] }
        (s.setColl r).placeSections r

/-- SECTION (R202 to R204, R322): part 0 with its header, later parts after it from the same node. -/
def State.takeSection (s : State) (m : Msg) (r : CollRun) : State :=
  if r.desc.kind < 3 || m.opt != 0 || m.status != 0 then s.rejectSection r m
  else if m.seq != 0 then s.takePart m r
  else
    match s.headerPasses r m.dest.toNat (m.payload.take 64) with
    | none => s.rejectSection r m
    | some key =>
      if r.whole key then s.setColl (r.setHead m .repeated)
      else if m.payload.length > 64 + field m.payload 8 4 * r.desc.rowBytes then s.rejectSection r m
      else
        let r := r.setHead m (.taken key)
        let r := { r with got := r.got.filter (fun g => g.sender ≠ key) ++ [⟨key, 0, 0, m.src.toNat, m.payload, 0⟩] }
        (s.setColl r).placeSections r

/-- A restore ends, and sections that waited for it are placed (R352, R203). -/
def execContextRestoreDone (config : Fin 64) (check : Check) (s : State) : Res :=
  let s := s.restoreDone config.val check
  .next (s.serve.colls.foldl (fun s r => s.placeSections r) s)

/-! ### Judgement, replay and failure (R322 to R324) -/

/-- Ranks, sources or replicas whose messages are missing, by bit (R322, R324). -/
def State.missingOf (s : State) (r : CollRun) : List Nat :=
  let d := r.desc
  let own := if r.ready || s.contribReady r then [] else [d.rank]
  if d.kind ≤ 2 then
    own ++ d.others.filter fun k =>
      !(r.full k 0 d.chunk && (d.kind ≠ 0 || r.full k 1 d.chunk)) || (d.kind < 2 && r.reduced.isEmpty)
  else
    match r.route with
    | none => own
    | some (_, t) =>
      own ++ (if d.kind = 3 then
        (s.localReplicas t).flatMap fun p => (List.range t.sources).filter fun k => !(r.whole (p.1 * 256 + k))
      else
        (s.sources r.inst d.routeId).flatMap fun c => (List.range t.replicas.length).filter fun p =>
          (t.expertOf p).isSome && !(r.whole (p * 256 + c.2.2.last)))

/-- Success (R319, R324): the result in DST, and a completion entry on each NOTIFY target. -/
def State.succeedColl (s : State) (r : CollRun) : State :=
  let d := r.desc
  let n := d.chunk
  let s := if d.kind = 0 then d.others.foldl (fun s j => (List.range n).foldl (fun s k =>
        s.putSlot d.dst (j * n + k) ((r.block j 1 k).getD [])) s) s
    else if d.kind = 2 then (List.range d.n).foldl (fun s j => (List.range n).foldl (fun s k =>
        s.putSlot d.dst (j * n + k) (if j = d.rank then s.slotBlock d.src k else (r.block j 0 k).getD [])) s) s
    else s
  let s := s.setColl { r with done := some r.attempt }
  let targets := (pieces 2 d.nnotify (s.load (mpaCs (d.notify * 64)) (2 * d.nnotify))).map leNat
  targets.foldl (fun s t => s.placeOn r.inst t (BitVec.ofNat 512 (d.index + r.attempt * 2 ^ 32))) s

/-- Other members' hub nodes: the member list, or for kinds 3 and 4 the modules that hold replicas and those sections came from. -/
def State.otherHubs (s : State) (r : CollRun) : List Nat :=
  let ms := if r.desc.kind ≤ 2 then r.desc.others.map (nth 0 (s.members r.desc))
    else (match r.route with | some (_, t) => t.replicas.map (·.node / 8) | none => []) ++ r.got.map (·.node / 8)
  (ms.filter (· ≠ s.fab.moduleNo)).eraseDups.map (· * 8 + 4)

/-- Attempt 1 starts (R323, R324). -/
def State.startReplay (s : State) (r : CollRun) : State :=
  if r.attempt = 1 then s
  else
    let r := { r with attempt := 1 }
    let s := (s.bump 0x30068).onStep r.step fun x => { x with replay := true }
    (s.setColl r).pushColl r

/-- The second failure (R324). -/
def State.failColl (s : State) (r : CollRun) (missing : List Nat) : State :=
  let i := r.inst
  let mask := missing.foldl (fun a k => if k < 64 then putBit a k true else a) 0
  let s := (s.setColl { r with failed := true }).failSteps (fun x => x.id == r.step) stCOLLECTIVE_FAILED
  let s := ((s.serve.cfgs.filter fun c => c.inst == i).map (·.num)).foldl State.dropConfig s
  let s := s.haltInst i
  let s := (s.instEvent 0x15 i 0xFF stCOLLECTIVE_FAILED locNone (leBytes 2 r.desc.index ++ zeros 6 ++ leBytes 8 mask)).bump 0x30070
  s.notice 2 i false (leBytes 2 r.desc.index ++ leBytes 8 mask)

/-- The close of the window (R322, R323). -/
def State.closeWindow (s : State) (i index : Nat) : State :=
  match s.coll i index with
  | none => s
  | some r =>
    if r.judged || r.failed then s
    else s.atTimer r.close fun s =>
      let r := { r with judged := true }
      let missing := s.missingOf r
      let s := s.setColl r
      if missing.isEmpty then (s.succeedColl { r with attempt := 0 }).onColl i index fun x => { x with attempt := r.attempt }
      else
        let s := (s.otherHubs r).foldl (fun s node => s.sendTo 0x12 { Msg.blank with
          vc := 1, dest := BitVec.ofNat 14 node, src := BitVec.ofNat 14 (s.node 4), tag := BitVec.ofNat 32 (index + 65536),
          seq := BitVec.ofNat 32 r.desc.rank }) s
        s.startReplay r

/-- REPLAY_REQ (R323): in [window close, replay slot close) attempt 1 starts; elsewhere it is counted and discarded. -/
def State.takeReplayReq (s : State) (m : Msg) : State :=
  let hit := s.serve.colls.find? fun r =>
    r.desc.index == m.tag.toNat % 65536 && (r.desc.kind > 2 || (m.seq.toNat < r.desc.n && nth 0 (s.members r.desc) m.seq.toNat == m.src.toNat / 8))
  match hit with
  | some r => if r.close ≤ s.time.clk && s.time.clk < r.slotClose && !r.failed then s.startReplay r else s.bump 0x30078
  | none => s.bump 0x30078

/-- The close of the replay slot: attempt 1 is judged, and a collective whose step has completed is dropped (R323, R324). -/
def State.closeReplay (s : State) (i index : Nat) : State :=
  match s.coll i index with
  | none => s
  | some r =>
    if !r.judged || r.failed then s
    else s.atTimer r.slotClose fun s =>
      let missing := s.missingOf r
      let s := if r.done.isSome then s else if missing.isEmpty then s.succeedColl r else s.failColl r missing
      let stale := fun x : CollRun => x.inst == i && x.desc.index == index && !(s.serve.steps.any fun t => t.id == x.step)
      { s with serve := { s.serve with colls := s.serve.colls.filter fun x => !(stale x) } }

end Sys2Proof.Machine
end

