-- ==== Sys2Proof/Machine/Standby.lean ====
section
/-! DEFINITION. Standby and resume, removal with draining, function level reset and the DMA bus error (19 R488, R490 to R493, R498; 15
R407, R412). -/
namespace Sys2Proof.Machine

/-! ### Entering standby (R490) -/

/-- An installation, shard repair or firmware update is open. -/
def State.updating (s : State) : Bool := s.installOpen || s.repairOpen || s.sec.update.isSome

/-- SVC_CTRL STANDBY may be written. -/
def State.standbyOk (s : State) : Bool :=
  s.svc.phase == .setupLocked && !s.fab.admitted && s.serve.steps.isEmpty &&
    s.serve.insts.all (fun x => x.queue.isEmpty && x.seqs.isEmpty && x.state != .activating) && !s.updating

/-- Instances that are not FREE, in order. -/
def State.heldInsts (s : State) : List Nat := (List.range 16).filter fun i => (s.inst i).state != .free

/-- SYSTEM pages for the save of an instance: its area's bytes and one page more, on the lowest stack that can give them. -/
def State.savePages (s : State) (i : Nat) : Option (List (Nat × Nat)) × State :=
  let n := cdiv ((s.inst i).csArea * 4096) 65536 + 1
  (List.range 24).foldl (fun (a : Option (List (Nat × Nat)) × State) k =>
    match a.1 with
    | some _ => a
    | none =>
      match a.2.allocate i k n 6 with
      | (.ok ps, s) => (some (ps.map fun p => (k, p)), s)
      | (.error _, s) => (none, s)) (none, s)

/-- The pages of every save; those taken so far are freed where one fails. -/
def State.allSavePages (s : State) : List Nat → List (Nat × List (Nat × Nat)) → Option (List (Nat × List (Nat × Nat))) × State
  | [], got => (some got, s)
  | i :: rest, got =>
    let r := s.savePages i
    match r.1 with
    | some ps => r.2.allSavePages rest (got ++ [(i, ps)])
    | none => (none, got.foldl (fun s g => s.freePoolPages g.1 g.2) r.2)

/-- The save of an instance. -/
def State.saveOf (s : State) (i : Nat) (ps : List (Nat × Nat)) : Save :=
  let x := s.inst i
  { num := i, inst := x, cfgs := s.serve.cfgs.filter fun c => c.inst == i,
    area := if x.csArea = 0 then [] else s.load (mpaCs (x.csBase * 4096)) (x.csArea * 4096),
    digest := match x.entry.bind s.entryAt with | some c => c.digest | none => [], pages := ps }

/-- Every checkpoint whose signature is under way is signed and stored. -/
def State.signAll (s : State) : State := s.ledger.signing.foldl (fun s _ => s.ckptSigned) s

/-- STANDBY accepted: the saves, the checkpoint, the marker and the supplies. -/
def State.enterStandby (s : State) : State :=
  let s := (s.setPhase .standbyEntry).abandonAll
  let s := ((s.serve.cfgs.filter fun c => c.resident).map (·.num)).foldl (fun s n => s.evictCfg n []) s
  match s.allSavePages s.heldInsts [] with
  | (none, s) => (s.setPhase .setupLocked).serviceEvent 1 0
  | (some got, s) =>
    let saves := got.map fun g => s.saveOf g.1 g.2
    let s := s.lastCheckpoint.signAll.flushJournal
    let r := s.ledger.lastCkpt
    let mark : StandbyMark :=
      { seq := match r with | some r => r.seq | none => 0, chain := match r with | some r => r.chain | none => [], saves := saves,
        tenants := if saves.isEmpty then [] else s.serve.tenants, own := if saves.isEmpty then [] else s.mem.own }
    let s := (s.supplyLess true).setPhase .standby
    { s with svc := { s.svc with mark := some mark, markBad := false } }

/-! ### Resume (R491) -/

/-- The current generation alone, with no reference. -/
def GenTable.keepCurrent {α : Type} (g : GenTable α) : GenTable α :=
  { g with slots := (g.slots.filter fun x => g.cur == some x.gen).map fun x => { x with refs := [], due := 0 } }

/-- A failed page of an instance: absent with a vault copy, zeroed and kept in class STATE, freed in another class. -/
def State.sweepPage (s : State) (i : Nat) (p : Page) : State :=
  let x := s.inst i
  let entry := x.pageMap.find? fun e => e.stack == p.stack && e.phys == p.num && e.present
  if p.cls = 5 then s.zeroAt (mpaPage p.stack p.num) 65536
  else
    let s := match entry with
      | some e => s.setInst i { x with pageMap := x.pageMap.map fun y => if y == e then { y with present := false } else y }
      | none => s
    s.freePoolPages i [(p.stack, p.num)]

/-- A configuration as restored: not resident, with its current generation, and initial tiles where a CTX page failed. -/
def Cfg.resumed (c : Cfg) (bad : List (Nat × Nat)) : Cfg :=
  let lost := c.gens.slots.any fun g => g.val.pages.any bad.contains
  { c with gens := c.gens.keepCurrent, resident := false, restoring := false, map := [], waiting := none, release := [], inbox := [],
           since := 0, saved := if lost then none else c.saved, badSave := false }

/-- An instance restored from its save (R263, R491). Only ACTIVE and PARTIAL follow the sweep; the other states come back as they were. -/
def State.restoreInst (s : State) (v : Save) (bad : List Page) : State :=
  let i := v.num
  let mine := bad.filter fun p => p.owner = i
  let x := v.inst
  let adapters := x.adapters.map fun a => (a.1, a.2.keepCurrent)
  let s := s.setInst i { x with
    sched := x.sched.keepCurrent, sampler := x.sampler.keepCurrent, adapters := adapters,
    routes := x.routes.map fun r => (r.1, r.2.keepCurrent), queue := [], seqs := [] }
  let s := s.storeAt (mpaCs (x.csBase * 4096)) v.area
  let s : State := { s with serve := { s.serve with
    cfgs := s.serve.cfgs ++ v.cfgs.map fun c => c.resumed (mine.map fun p => (p.stack, p.num)) } }
  let s := match x.entry with | some e => s.bind e true | none => s
  let s := (adapters.flatMap fun a => a.2.slots.map (·.val.entry)).foldl (fun s e => s.bind e true) s
  let s := mine.foldl (fun s p => s.sweepPage i p) s
  let s := s.freePoolPages i v.pages
  let y := s.inst i
  let hurt := y.hasAbsent || mine.any fun p => p.cls = 4
  let st : InstSt := match x.state with
    | .active | .part => if hurt then .part else .active
    | z => z
  let s := s.setInst i { y with state := st }
  s.hand 12 (objInstance i st.code) x.value (s.inst i).value

/-- A save is whole and its entry is still COMMITTED with the saved digest. -/
def State.saveStands (s : State) (v : Save) (bad : List Page) : Bool :=
  bad.all (fun p => !(v.pages.contains (p.stack, p.num))) &&
    match v.inst.entry.bind s.entryAt with | some c => c.state = 3 && c.digest == v.digest | none => false

/-- The save's own pages passed the sweep. -/
def Save.readable (v : Save) (bad : List Page) : Bool := bad.all fun p => !(v.pages.contains (p.stack, p.num))

/-- The instances of the marker, swept and restored. -/
def State.restoreAll (s : State) (m : StandbyMark) (bad : List Page) : State :=
  let s := m.saves.foldl (fun s v =>
    if s.saveStands v bad then s.restoreInst v bad
    else s.setMem { s.mem with pages := s.mem.pages.filter fun p => p.owner ≠ v.num }) s
  match m.saves.head? with
  | some v =>
    if v.readable bad then
      let s : State := { s with serve := { s.serve with tenants := m.tenants } }
      s.setMem { s.mem with own := m.own }
    else s
  | none => s

/-- Instances that came back. -/
def State.restoredCount (s : State) : Nat := s.heldInsts.length

/-- The retained contents are discarded. -/
def State.discardRetained (s : State) : State :=
  let s := s.setMem { s.mem with pages := [] }
  let s : State := { s with svc := { s.svc with retained := false, discards := min (s.svc.discards + 1) 0xFFFFFFFF } }
  s.serviceEvent 3 0

/-- RESUME accepted: steps 3 to 5 of R486, the stacks retrained, then the checks and the sweep. `checks` gives what the sweep finds in
the allocated pages, in order. A start that ends in RECOVERY keeps nothing. -/
def State.resumeModule (s : State) (checks : List Check) (boot : StartUp) : State :=
  let mark := if s.svc.markBad then none else s.svc.mark
  let s := (s.latchCause 1).start boot
  if s.svc.phase != .setupLocked then s.setMem { s.mem with pages := [] }
  else
    let good := match mark, s.vault.storedCkpt with
      | some m, some c => c.record.seq = m.seq && c.record.chain == m.chain
      | _, _ => false
    match mark, good with
    | some m, true =>
      let bad := ((s.mem.pages.zip checks).filter fun p => p.2.fails).map (·.1)
      let s := s.restoreAll m bad
      let s : State := { s with svc := { s.svc with retained := true, sweepDone := true, hbmReady := true } }
      s.serviceEvent 2 s.restoredCount
    | _, _ => s.discardRetained

/-! ### Removal (R493) -/

/-- SVC_CTRL PREPARE_REMOVE may be written. -/
def State.removeOk (s : State) : Bool := !s.fab.admitted && !s.updating

/-- PREPARE_REMOVE accepted: the programs in flight, the journal, the stored checkpoint, the ledger to its mirror, and the supplies. -/
def State.removeModule (s : State) : State :=
  if s.hubRuns then
    let s := s.abandonAll
    let s := (s.vault.flights.foldl State.programmed s).flushJournal
    let s := s.lastCheckpoint.signAll.flushJournal
    let s := s.emits s.backlog
    ((s.supplyLess false).latchCause 8).setPhase .removeReady
  else (s.latchCause 8).setPhase .removeReady

/-! ### Function level reset (R407, R488) -/

/-- Requests of an origin leave without a record; a running step keeps its rows and settles without them. -/
def State.dropOrigin (s : State) (o : Nat) : State :=
  (List.range 16).foldl (fun s i =>
    (((s.inst i).queue ++ (s.inst i).seqs).filter fun q => q.origin = o).foldl (fun s q => s.dropSeq i q) s) s

/-- A channel stopped at once: its descriptor keeps OWN = 1. -/
def Chan.halt (c : Chan) : Chan :=
  match c.st with
  | .idle | .error | .stopped => c
  | _ => { c with st := .stopped, desc := none, stopPending := false }

/-- A function's rings, channels and requests. -/
def State.resetFn (s : State) (f : Nat) : State :=
  let o := f + 1
  let mine := fun r : Nat => (s.ring r).owner = o
  let drop := fun q : Option Cqe => q.filter fun q => !(mine q.sq)
  let held := s.ledger.held.map fun h => { h with cq := drop h.cq }
  let waits := s.serve.waits.map fun w => { w with cqe := drop w.cqe }
  let reader := s.vault.reader.map fun r => { r with cqe := drop r.cqe }
  let waiting := s.fab.held.map fun h => match h with
    | .ownSet origin o valid cqe => HeldReq.ownSet origin o valid (drop cqe)
    | h => h
  let rings := s.host.rings.map fun x =>
    if x.owner = o then { x with enable := false, st := 0, err := 0, timer := none, unsig := 0, inFlight := 0, bells := [] } else x
  let chans := s.host.chans.map fun c => if c.owner = o then c.halt else c
  let s : State := { s with
    ledger := { s.ledger with held := held }
    serve := { s.serve with waits := waits, tqHold := s.serve.tqHold.filter fun h => !(mine (1024 + h.1)) }
    vault := { s.vault with reader := reader }
    fab := { s.fab with held := waiting }
    host := { s.host with rings := rings, chans := chans, cqHold := s.host.cqHold.filter fun q => !(mine q.sq) } }
  (s.dropOrigin o).retryLoads

/-- The record of a function level reset: class COMMAND, opcode 0, with the origin of the function in the identifier's field. -/
def objReset (f : Nat) : Nat := objCommand 0 0 (f + 1)

/-- A function level reset; that of the PF does the same for every function. -/
def State.levelReset (s : State) (f : Nat) : State :=
  let s := if f = 0 then (List.range 9).foldl State.resetFn s else s.resetFn f
  s.hand 12 (objReset f) [] []

def execFunctionLevelReset (fn : Fin 9) (s : State) : Res := .next (if s.answers then s.levelReset fn.val else s)

/-- PERST#: a function level reset of the PF, and nothing else (R488). -/
def execPerst (s : State) : Res := .next (if s.answers then s.levelReset 0 else s)

/-! ### DMA bus errors (R412, R415) -/

/-- A DMA read fails on the bus: KIND counts from 1. -/
def execDmaBusError (kind : Fin 5) (addr : Word64) (s : State) : Res := .next ((s.busErrorOn (kind.val + 1) addr).busErrorInstall)

end Sys2Proof.Machine
end

