-- ==== Sys2Proof/Machine/RegWrite.lean ====
section
/-! DEFINITION. Writes and reads of setup registers on every path: the checks of R507, refusals, records, and the effect each register's
table gives a write (20 R500 to R507; R10 to R13, R115, R298, R338, R413, R415, R438, R456, R462, R465, R482, R483, R510, R511,
R514, R515; the commands of 02, 10, 12, 15, 16, 17, 18, 19 and 20 that are writes or reads of a register). -/
namespace Sys2Proof.Machine

/-- A write as it arrives: its own offset, its size in bytes and its data; `outside` marks an FM_WRITE past its block. -/
structure Attempt where
  origin  : Nat
  off     : Nat
  size    : Nat
  value   : Nat
  outside : Bool

/-- What a command that is a write carries beside the write: the descriptor a START reads, the sweep of a RESUME, and the channels that
fail HBM4 training. -/
structure Extra where
  fetched   : Option Word512
  checks    : List Check
  boot      : StartUp

/-- No more than the write. -/
def Extra.none : Extra := ⟨.none, [], ⟨[], []⟩⟩

/-- The 8-byte-aligned offset of the register. -/
def Attempt.reg (a : Attempt) : Nat := a.off / 8 * 8

/-! ### The value a write produces (R501, R502, R12) -/

/-- Bits of a WO register that are not reserved. -/
def woMask (o : Nat) : Nat :=
  if o = 0x20020 then 50 else if o = 0x60018 then 29 else if o = 0xB0010 then 4
  else if o / 0x10000 = 12 then 2 else 1

/-- The 64-bit value that a write produces: the other half as a read of it returns. A W1C or W1S register takes only what is written. -/
def State.produced (s : State) (a : Attempt) (acc : Access) : Nat :=
  let cur := if acc == .w1c || acc == .w1s then 0 else s.readReg .pcie a.reg
  if a.size = 8 then a.value % 2 ^ 64
  else if a.off % 8 = 0 then cur / 2 ^ 32 * 2 ^ 32 + a.value % 2 ^ 32
  else cur % 2 ^ 32 + a.value % 2 ^ 32 * 2 ^ 32

/-! ### Checks (R502, R507) -/

def reasonORIGIN : Nat := 1
def reasonACCESS : Nat := 2
def reasonENCODING : Nat := 3
def reasonSTATE : Nat := 4
def reasonADDRESS : Nat := 5
def reasonSIZE : Nat := 6
def reasonLEDGER : Nat := 7
def reasonNOT_READY : Nat := 8

/-- The origin that owns a ring's or channel's registers. -/
def State.ownerOf (s : State) (o : Nat) : Nat :=
  if o < 0x100000 then (s.chan (o % 0x10000 / 0x40)).owner else (s.ring ((o - 0x200000) / 0x40)).owner

/-- The register's Origins list the origin (R9). -/
def State.originMay (s : State) (i : RegInfo) (origin o : Nat) : Bool :=
  i.origins.contains origin || (i.owner && 1 ≤ origin && origin ≤ 9 && s.ownerOf o == origin)

/-- A value within a range. -/
def within (lo hi v : Nat) : Bool := lo ≤ v && v ≤ hi

/-- No field holds a reserved encoding or a value out of its stated range (R13, R502). -/
def State.encodingOk (s : State) (o v : Nat) : Bool :=
  let b := o / 0x10000
  let f := o % 0x10000
  if b = 2 then
    if f = 0 then bits v 0 2 ≠ 3
    else if f = 0x10 then bits v 0 4 ≤ 8
    else if f = 0x18 then within 16 2000 (bits v 0 11)
    else if f = 0x20 then within 1 2 (bits v 48 2) else true
  else if b = 3 then
    if f = 0 then bits v 4 4 ≤ 8
    else if f = 0x18 then bits v 0 4 ≤ 7 || bits v 0 4 = 15 else true
  else if b = 4 then
    if f = 0 then within 1500 3600 (bits v 0 16)
    else if f = 0x08 then within 100 3600000 (bits v 0 32)
    else if f = 0x18 then within 1500 3600 (bits v 0 16)
    else if f = 0x20 then (List.range 5).all fun p => bits v (4 * p) 4 ≤ 11
    else if f = 0x30 then bits v 0 20 ≤ 921600
    else if f = 0x38 then within 70 100 (bits v 0 8) && within 5 100 (bits v 8 8) && within 40 95 (bits v 16 8)
    else if f = 0x40 then within 20 80 (bits v 0 8) && bits v 8 8 ≠ 0 else true
  else if b = 5 then (if f ≤ 0x18 then arbValueOk (f / 8) v else true)
  else if b = 6 then
    if f = 0x10 then bits v 1 16 ≠ 0 && bits v 17 8 ≠ 0 && bits v 25 8 ≠ 0 && bits v 33 8 ≠ 0
    else if f = 0x18 then (proveTarget v).isSome else true
  else if 0x10 ≤ b && b ≤ 0x13 then (if f = 0 then bits v 0 6 ≤ 31 || bits v 0 6 = 63 else true)
  else if b = 12 then (if f < 0x800 && f % 0x40 = 0 then within 1 9 (bits v 0 4) else true)
  else if 0x200000 ≤ o then
    let g := o % 0x40
    if g = 0 then within 1 9 (bits v 0 4)
    else if g = 0x10 then within 4 16 (bits v 1 5)
    else if g = 0x18 then vectorOk (s.ownerOf o) (bits v 0 11) else true
  else true

/-- The bit of SVC_CTRL that is set, when exactly one is (R483). -/
def svcBit (v : Nat) : Option Nat :=
  match (List.range 4).filter (bit v) with
  | [i] => some i
  | _ => none

/-- The condition of a SVC_CTRL write (R483, R490 to R493, R495). -/
def State.svcOk (s : State) (v : Nat) : Bool :=
  match svcBit v with
  | some 0 => s.standbyOk
  | some 1 => s.svc.phase == .standby
  | some 2 => s.svc.phase != .standby && s.removeOk
  | some 3 => s.svc.phase != .standby
  | _ => false

/-- Every condition that the register's meaning states holds; during standby entry no write passes (R492). -/
def State.stateOk (s : State) (o v : Nat) : Bool :=
  let b := o / 0x10000
  let f := o % 0x10000
  if s.svc.phase == .standbyEntry then false
  else if b = 2 then
    if f = 0 then s.roleOk v else if f = 0x18 then s.periodOk v else if f = 0x20 then s.takeoverOk v else true
  else if b = 3 then
    if f = 0 then s.coordOk v else if f = 0x10 then s.admitOk v else if f = 0x28 then s.thaxaCommitOk v
    else if 0x100 ≤ f && (f - 0x100) % 0x80 = 0x40 then !(s.port ((f - 0x100) / 0x80)).enable else true
  else if b = 4 then (if f = 0x28 then s.steelOk v else true)
  else if b = 6 then
    if f = 0x08 then s.serve.insts.all fun x => x.state == .free
    else if f = 0x18 then (match proveTarget v with | some (_, u) => !(s.isFenced u) | none => false) else true
  else if b = 7 then (if f = 0x08 then s.ackOk v else true)
  else if b = 11 then s.svcOk v
  else if b = 12 then
    let c := f / 0x40
    let g := f % 0x40
    if f ≥ 0x800 then true
    else if g = 0 then s.chanOwnerOk c v else if g = 0x08 then s.chanRests c else if g = 0x10 then s.chanCtrlOk c v else true
  else if 0x10 ≤ b && b ≤ 0x13 then (if f = 0x08 then s.frameEmpty (b - 16) else true)
  else if 0x200000 ≤ o then
    let r := (o - 0x200000) / 0x40
    let g := o % 0x40
    if g = 0 then s.ringOwnerOk r v else if g = 0x08 then !(s.ring r).enable else if g = 0x10 then s.ringCfgOk r v else true
  else true

/-- A write that a full ledger does not refuse: LEDGER_ACK and LEDGER_CFG by origin 0xA (R465). -/
def ledgerExempt (origin o : Nat) : Bool := origin = 10 && (o = 0x70008 || o = 0x70010)

/-- REASON of a write after the phase check, 0 for one that is accepted (R507). After the setup lock a map refuses origins 0x0 and 0x1
with ACCESS (R511), before the check of origins (DEDUCED, notes/assumptions/122.md). -/
def State.reasonOf (s : State) (a : Attempt) : Nat :=
  let o := a.reg
  if !(a.size == 4 || a.size == 8) || a.off % a.size ≠ 0 then reasonSIZE
  else if a.outside then reasonADDRESS
  else
    match regInfo o with
    | none => reasonADDRESS
    | some i =>
      let v := s.produced a i.access
      if i.access == .lk && s.svc.locked && a.origin ≤ 1 then reasonACCESS
      else if !(s.originMay i a.origin o) then reasonORIGIN
      else if i.access == .ro then reasonACCESS
      else if !(s.encodingOk o v) then reasonENCODING
      else if !(s.stateOk o v) then reasonSTATE
      else if s.ledgerShut && fromOutside a.origin && !(ledgerExempt a.origin o) then reasonLEDGER
      else 0

/-- REFUSED_LAST (R507). -/
def refusedWord (a : Attempt) (reason : Nat) : Nat := a.off % 2 ^ 24 + a.origin * 2 ^ 24 + reason * 2 ^ 28

/-- A refused write (R13, R465, R506, R507). -/
def State.refuseWrite (s : State) (a : Attempt) (reason : Nat) : State :=
  let w := refusedWord a reason
  if s.answers then
    let s := (s.setReg 0x10008 1).setReg 0x10018 w
    if reason = reasonLEDGER then s.bump 0x70050
    else
      let s := s.bump 0x10010
      if s.ledgerShut && fromOutside a.origin then s
      else
        let cur := leBytes 8 (s.readReg .pcie a.reg)
        s.handCq a.origin true (objReg a.reg) cur cur none
  else
    { s with svc := { s.svc with refusedLast := BitVec.ofNat 64 w, refusedCount := min (s.svc.refusedCount + 1) 0xFFFFFFFF } }

/-! ### Effects -/

/-- SVC_CTRL (R490, R491, R493, R495). -/
def State.svcEffect (s : State) (v : Nat) (x : Extra) : State :=
  match svcBit v with
  | some 0 => s.enterStandby
  | some 1 => s.resumeModule x.checks x.boot
  | some 2 => s.removeModule
  | some 3 => s.resetModule x.boot
  | _ => s

/-- A register held by offset takes the unreserved bits of a value. -/
def State.keepBits (s : State) (o n v : Nat) : State := s.setReg o (bits v 0 n)

/-- A ring's register. -/
def State.ringEffect (s : State) (r g v : Nat) : State :=
  let x := s.ring r
  if g = 0 then s.setRing { x with owner := bits v 0 4 }
  else if g = 0x08 then s.setRing { x with base := BitVec.ofNat 64 (v / 4096 * 4096) }
  else if g = 0x10 then s.writeRingCfg r v
  else if g = 0x18 then s.setRing { x with irq := bits v 0 30 }
  else s.setRing { x with mask := BitVec.ofNat 64 v }

/-- A channel's register; a START reads its descriptor when the command brings it. -/
def State.chanEffect (s : State) (c g v : Nat) (w : Option Word512) : State :=
  let x := s.chan c
  if g = 0 then s.setChan c { x with owner := bits v 0 4 }
  else if g = 0x08 then s.setChan c { x with head := BitVec.ofNat 64 (v / 64 * 64) }
  else if g = 0x10 then
    let s := s.writeChanCtrl c v
    match w with
    | some w => if bit v 0 then s.fetchDesc c w else s
    | none => s
  else s.setChan c { x with irq := bits v 0 12 }

/-- The time base block (R514, R515). -/
def State.timeEffect (s : State) (f v : Nat) : State :=
  if f = 0 then s.writeRole v
  else if f = 0x08 then s.keepBits 0x20008 48 v
  else if f = 0x10 then s.keepBits 0x20010 4 v
  else if f = 0x18 then s.writePeriod v
  else s.writeTakeover v

/-- The Thaxa block (R298). -/
def State.thaxaEffect (s : State) (f v : Nat) : State :=
  if f = 0 then s.writeCoord v
  else if f = 0x10 then s.writeAdmit v
  else if f = 0x18 then s.setFab { s.fab with spareShadow := bits v 0 4 }
  else if f = 0x20 then s.setFab { s.fab with spareBeatShadow := bits v 0 48 }
  else if f = 0x28 then s.writeThaxaCommit v
  else if (f - 0x100) % 0x80 = 0 then s.writePortCfg ((f - 0x100) / 0x80) v
  else s.writePortFenceClear ((f - 0x100) / 0x80) v

/-- The power block (R438). -/
def State.powerEffect (s : State) (f v : Nat) : State :=
  if f = 0 then s.writeCap v
  else if f = 0x08 then s.keepBits 0x40008 32 v
  else if f = 0x10 then s.writeRenew v
  else if f = 0x18 then s.keepBits 0x40018 16 v
  else if f = 0x20 then s.keepBits 0x40020 20 v
  else if f = 0x28 then s.writeSteelCfg (bits v 0 15 + bits v 16 21 * 2 ^ 16)
  else if f = 0x30 then s.keepBits 0x40030 20 v
  else if f = 0x38 then s.keepBits 0x40038 24 v
  else s.keepBits 0x40040 16 v

/-- The effect of an accepted write with the value it produces. -/
def State.regEffect (s : State) (origin o v : Nat) (x : Extra) : State :=
  let b := o / 0x10000
  let f := o % 0x10000
  if b = 1 then
    if f = 0 then (if bit v 0 then s.setLock origin else s)
    else if f = 0x08 then (if bit v 0 then s.setReg 0x10008 0 else s)
    else s.setLk o v
  else if b = 2 then s.timeEffect f v
  else if b = 3 then s.thaxaEffect f v
  else if b = 4 then s.powerEffect f v
  else if b = 5 then
    if f ≤ 0x18 then s.writeArbShadow (f / 8) v else if bit v 0 then s.writeArbCommit origin else s
  else if b = 6 then
    if f = 0x08 then (s.writeFaultClear v).routesOpen else if f = 0x10 then s.keepBits 0x60010 41 v else s.writeProveRequest v
  else if b = 7 then
    if f = 0x08 then s.writeAck v else if f = 0x10 then s.writeLedgerCfg v else s.writeSvnCommit origin v
  else if b = 11 then s.svcEffect v x
  else if b = 12 then (if f < 0x800 then s.chanEffect (f / 0x40) (f % 0x40) v x.fetched else s.writeDmaError v)
  else if 0x10 ≤ b && b ≤ 0x13 then (if f = 0 then s.setLk o v else s.writeFenceClear (b - 16) v)
  else s.ringEffect ((o - 0x200000) / 0x40) (o % 0x40) v

/-! ### Records (R460, R462, R483, R511, R514) -/

/-- Accepted writes with no record of their own: shadows, commits whose change is recorded, the setup lock and the SVN, which record
themselves, and RESUME. -/
def unrecorded (o v : Nat) : Bool :=
  o = 0x30018 || o = 0x30020 || o = 0x30028 || (0x50000 ≤ o && o ≤ 0x50020) || (o = 0x10000 && bit v 0) ||
    (o = 0x70048 && bit v 0) || (o = 0xB0010 && bit v 1)

/-- TIME cause of a time base register (R514). -/
def timeCause (o : Nat) : Nat := if o = 0x20018 then 2 else if o = 0x20020 then 3 else 1

/-- OBJECT of a map that the device changes by a register write: its fence record, with the lowest bit that is newly set. -/
def mapObj (o old new : Nat) : Nat :=
  let sub := ((List.range 48).find? fun i => bit new i && !(bit old i)).getD 0
  if o = 0x10020 then objFence 2 sub (sub % 4) 31 false
  else if o = 0x10028 then objFence 6 sub 0 31 false
  else if o = 0x10030 then objFence 3 sub 0 31 false
  else if o < 0x20000 then
    let k := (o - 0x10100) / 8
    objFence (if sub < 32 then 4 else 5) (sub % 32) (k / 6) k false
  else objFence 1 (bits new 0 6) (o / 0x10000 - 16) 31 false

/-- The record of an accepted write. -/
def State.recordWrite (s : State) (origin o v : Nat) (acc : Access) (old new : Nat) : State :=
  if unrecorded o v then s
  else if o / 0x10000 = 2 then s.hand origin (objTime (timeCause o)) (leBytes 8 old) (leBytes 8 new)
  else if acc == .lk && origin = 12 then s.hand origin (mapObj o old new) (leBytes 8 old) (leBytes 8 new)
  else s.regRecord origin o old new

/-- An accepted write: its record, with the register's values before and after it, then its effect. -/
def State.acceptWrite (s : State) (a : Attempt) (i : RegInfo) (x : Extra) : State :=
  let o := a.reg
  let v := s.produced a i.access
  let old := s.readReg .pcie o
  let new := if i.access == .wo then bits v 0 (woMask o) else (s.regEffect a.origin o v Extra.none).readReg .pcie o
  (s.recordWrite a.origin o v i.access old new).regEffect a.origin o v x

/-- A write after the phase check. -/
def State.judge (s : State) (a : Attempt) (x : Extra) : State :=
  match s.reasonOf a, regInfo a.reg with
  | 0, some i => s.acceptWrite a i x
  | r, _ => s.refuseWrite a r

/-- The path of an origin reaches a register: a unit of the hub while the hub runs, PCI Express and Thaxa with the setup lock set, I3C
whenever the island has its supply (R500, R506). -/
def State.pathUp (s : State) (origin : Nat) : Bool :=
  if origin = 10 then s.svc.island else if fromOutside origin then s.answers else s.hubRuns

/-- A write of a register (R500 to R507). -/
def State.write (s : State) (a : Attempt) (x : Extra) : State :=
  if !(s.pathUp a.origin) then s
  else if a.origin = 10 && !(s.reachable a.reg) then s.refuseWrite a reasonNOT_READY
  else s.judge a x

/-! ### Writes as commands -/

/-- A register write as a row's command carries it, to the register at `o`; `on` and `off` are the bits that the row itself sets and
clears in the low half. -/
def rowAttempt (w : RegWr) (o on off : Nat) : Attempt :=
  let force := fun v : Nat => (v ||| on) - ((v ||| on) &&& off)
  match w.part with
  | .whole => ⟨w.origin.code, o, 8, force w.value.toNat, false⟩
  | .low => ⟨w.origin.code, o, 4, force (w.value.toNat % 2 ^ 32), false⟩
  | .high => ⟨w.origin.code, o + 4, 4, w.value.toNat % 2 ^ 32, false⟩

/-- A row's write, with the platform events it brings. -/
def State.rowWrite (s : State) (w : RegWr) (o on : Nat) : State := s.watched (·.write (rowAttempt w o on 0) Extra.none)

def execBeatRole (w : RegWr) (s : State) : Res := .next (s.rowWrite w 0x20000 0)
def execBeatPeriod (w : RegWr) (s : State) : Res := .next (s.rowWrite w 0x20018 0)

/-- A whole write of TAKEOVER. -/
def State.takeover (s : State) (origin : Origin) (action beat : Nat) : State :=
  s.watched (·.write ⟨origin.code, 0x20020, 8, beat + action * 2 ^ 48, false⟩ Extra.none)

def execTakeoverMaster (origin : Origin) (beat : BitVec 48) (s : State) : Res := .next (s.takeover origin 1 beat.toNat)
def execTakeoverRelinquish (origin : Origin) (beat : BitVec 48) (s : State) : Res := .next (s.takeover origin 2 beat.toNat)

def execPortCfg (port : Fin 9) (w : RegWr) (s : State) : Res := .next (s.rowWrite w (rPort port.val 0) 0)
def execCoord (w : RegWr) (s : State) : Res := .next (s.rowWrite w 0x30000 0)
def execFabricAdmit (w : RegWr) (s : State) : Res := .next (s.rowWrite w 0x30010 0)
def execThaxaCommit (w : RegWr) (s : State) : Res := .next (s.rowWrite w 0x30028 1)
def execPortFenceClear (port : Fin 9) (w : RegWr) (s : State) : Res := .next (s.rowWrite w (rPort port.val 0x40) 1)
def execArbCommit (w : RegWr) (s : State) : Res := .next (s.rowWrite w 0x50020 1)

def execRingEnable (ring : Fin 1104) (w : RegWr) (s : State) : Res := .next (s.rowWrite w (0x200010 + ring.val * 0x40) 1)
def execRingDisable (ring : Fin 1104) (w : RegWr) (s : State) : Res :=
  .next (s.watched (·.write (rowAttempt w (0x200010 + ring.val * 0x40) 0 1) Extra.none))

def execChanStart (chan : Fin 32) (w : RegWr) (fetched : Word512) (s : State) : Res :=
  .next (s.watched (·.write (rowAttempt w (0xC0010 + chan.val * 0x40) 1 0) { Extra.none with fetched := some fetched }))
def execChanStop (chan : Fin 32) (w : RegWr) (s : State) : Res := .next (s.rowWrite w (0xC0010 + chan.val * 0x40) 2)
def execBusErrorClear (w : RegWr) (s : State) : Res := .next (s.rowWrite w 0xC0800 1)

def execCap (w : RegWr) (s : State) : Res := .next (s.rowWrite w 0x40000 0)
def execCapRenew (w : RegWr) (s : State) : Res := .next (s.rowWrite w 0x40010 1)
def execSteelyardCfg (w : RegWr) (s : State) : Res := .next (s.rowWrite w 0x40028 0)

def execProveRequest (w : RegWr) (s : State) : Res := .next (s.rowWrite w 0x60018 0)
def execFaultClear (w : RegWr) (s : State) : Res := .next (s.rowWrite w 0x60008 1)
def execFenceClear (die : Fin 4) (w : RegWr) (s : State) : Res := .next (s.rowWrite w (rFrame die.val 8) 1)

def execLedgerAck (w : RegWr) (s : State) : Res := .next (s.rowWrite w 0x70008 0)
def execLedgerCfg (w : RegWr) (s : State) : Res := .next (s.rowWrite w 0x70010 0)
def execFwSvnCommit (w : RegWr) (s : State) : Res := .next (s.rowWrite w 0x70048 1)
def execSetupLock (w : RegWr) (s : State) : Res := .next (s.rowWrite w 0x10000 1)

/-- Any register, by its offset (R500). -/
def execRegisterWrite (origin : Origin) (offset : BitVec 24) (size : Nat) (value : Word64) (s : State) : Res :=
  .next (s.watched (·.write ⟨origin.code, offset.toNat, size, value.toNat, false⟩ Extra.none))

def execStandby (w : RegWr) (s : State) : Res := .next (s.rowWrite w 0xB0010 1)
def execResume (w : RegWr) (checks : List Check) (boot : StartUp) (s : State) : Res :=
  .next (s.watched (·.write (rowAttempt w 0xB0010 2 0) { Extra.none with checks := checks, boot := boot }))
def execPrepareRemove (w : RegWr) (s : State) : Res := .next (s.rowWrite w 0xB0010 4)
def execSvcReset (w : RegWr) (boot : StartUp) (s : State) : Res :=
  .next (s.watched (·.write (rowAttempt w 0xB0010 8 0) { Extra.none with boot := boot }))

/-! ### Reads and the fabric manager's accesses (R500, R501, R504, R505, R516) -/

/-- A read of a register on a path: TIME_BEAT latches. A read that a virtual function is not given reads zero and latches nothing
(R505; DEDUCED, notes/assumptions/122.md). -/
def State.readOn (s : State) (p : Path) (origin o n : Nat) : State × Nat :=
  let s := if o / 8 * 8 = 0x20030 && (n == 4 || n == 8) && o % n = 0 && s.reachable 0x20030 && !(2 ≤ origin && origin ≤ 9)
    then s.latchTime p else s
  (s, s.readPath p origin o n)

/-- CCC REG_ADDR (R500). -/
def execRegAddr (offset : BitVec 24) (length : Nat) (s : State) : Res :=
  .next (if s.svc.island then { s with svc := { s.svc with regAddr := some (offset.toNat, length) } } else s)

/-- CCC REG_READ returns the bytes that REG_ADDR named (R500). -/
def State.cccRead (s : State) : State :=
  match s.svc.regAddr with
  | some (o, n) =>
    if s.svc.island then
      let r := s.readOn .i3c 10 o n
      r.1.emit (.data .i3c (BitVec.ofNat 64 r.2) n)
    else s
  | none => s

def execRegRead (s : State) : Res := .next s.cccRead

/-- Block number of an offset (R499). -/
def blockOf (o : Nat) : Nat := if 0x200000 ≤ o && o < 0x211400 then 0x20 else o / 0x10000

/-- BAR0 offset of an FM_WRITE or FM_READ. -/
def fmOffset (m : Msg) : Nat := m.aux.toNat * 0x10000 + m.offset.toNat

/-- The offset lies outside its block. -/
def fmOutside (m : Msg) : Bool := blockOf (fmOffset m) != m.aux.toNat

/-- Response status of an FM_WRITE (R505). -/
def fmStatus (reason : Nat) : Nat :=
  if reason = 0 then stOK
  else if reason = reasonSIZE || reason = reasonENCODING then stINVALID_FIELD
  else if reason = reasonADDRESS then stADDRESS_ERROR
  else stNOT_PERMITTED

/-- FM_WRITE (R303, R500, R501, R505). -/
def State.fmWrite (s : State) (m : Msg) : State :=
  let a : Attempt := ⟨11, fmOffset m, m.payload.length, leNat m.payload, fmOutside m⟩
  let a := if a.off % 8 = 0 && a.size = 8 then a else { a with size := 0 }
  let st := fmStatus (s.reasonOf a)
  (s.write a Extra.none).respond 0x30 m st []

def execFmWrite (m : Msg) (s : State) : Res := .next (s.watched (·.deliver 0x30 m fun s => if s.answers then s.fmWrite m else s))

/-- FM_READ: it reads every register the PF reads. -/
def State.fmRead (s : State) (m : Msg) : State :=
  let o := fmOffset m
  if o % 8 ≠ 0 || !m.payload.isEmpty then s.respond 0x31 m stINVALID_FIELD []
  else if fmOutside m || (regInfo o).isNone then s.respond 0x31 m stADDRESS_ERROR []
  else
    let r := s.readOn .thaxa 11 o 8
    r.1.respond 0x31 m stOK (leBytes 8 r.2)

def execFmRead (m : Msg) (s : State) : Res := .next (s.deliver 0x31 m fun s => if s.answers then s.fmRead m else s)

end Sys2Proof.Machine
end

