-- ==== Sys2Proof/Machine/Boundary.lean ====
section
/-! DEFINITION. The beat boundary, the entries of a schedule, and what an idle tick does (02 R41 to R43, R57, R61 to R77; 05 R165, R166; 07
R209 to R211; 10 R295; 01 R25). -/
namespace Sys2Proof.Machine

/-! ### Schedule entries (R68, R70, R76) -/

/-- The schedule that the entries of an instance fire from: the one its open step bound, else the current one. -/
def State.firing (s : State) (i : Nat) : Option Sched :=
  match s.openStep i with
  | some r => ((s.inst i).sched.slot r.sched).map (·.val)
  | none => (s.inst i).sched.current.map (·.val)

/-- Entries of an instance's schedule in the running beat that have not fired, in table order (R65, R70). -/
def State.unfired (s : State) (i : Nat) : List SchedEntry :=
  if !(s.instRuns i) then []
  else
    match s.firing i with
    | none => []
    | some g =>
      let f := (s.inst i).fired
      let today := g.entries.filter fun e => e.boff == s.time.beat % max g.cycle 1
      (today.filter fun e => e.tick == f.1).drop f.2 ++ today.filter fun e => Nat.blt f.1 e.tick

/-- An entry has fired: it fires once, and none before it any more (R70). -/
def State.markFired (s : State) (i : Nat) (e : SchedEntry) : State :=
  let x := s.inst i
  s.setInst i { x with fired := if e.tick = x.fired.1 then (e.tick, x.fired.2 + 1) else (e.tick, 1) }

/-- One entry fewer to wait for in the open step (R71). -/
def State.entryDone (s : State) (r : StepRun) : State := s.onStep r.id fun x => { x with left := x.left - 1 }

/-- The gate of one context (R96): released where its configuration is resident in the generation the step bound, kept for the restore
where it is not (R351). -/
def State.gateOf (s : State) (i layer step : Nat) (b : BeadId) (k : Nat) : State :=
  match s.schedCfg i b k with
  | none => s
  | some c =>
    let want := match s.wantedGen c with | some g => g.gen | none => 0
    if c.resident && (s.ctxsOf c.num).all (fun x => x.gen == want) then
      match c.physCtx b with
      | some p => s.release ⟨b, Fin.ofNat 4 p⟩ layer (some step)
      | none => s
    else s.setCfg { c with waiting := some (c.waiting.getD s.time.clk), release := c.release ++ [(⟨b, Fin.ofNat 4 k⟩, layer)] }

/-- Beads that a LAYER_START names in the configurations of an instance. -/
def State.layerBeads (s : State) (i p : Nat) : List BeadId :=
  ((s.serve.cfgs.filter fun c => c.inst == i).flatMap fun c =>
    match s.wantedGen c with
    | some g => (g.val.ctxs.filter fun x => layerNames p x.id.ctx.val x.id.bead).map (·.id.bead)
    | none => []).eraseDups

/-- LAYER_START (R68, R96). A step that has failed releases no further gate. -/
def State.layerStart (s : State) (i : Nat) (payload : Word64) : State :=
  match s.openStep i with
  | none => s
  | some r =>
    let p := payload.toNat
    let s := s.entryDone r
      if r.fail.isSome then s
      else (s.layerBeads i p).foldl (fun s b => s.gateOf i (bits p 16 16) r.id b (bits p 4 2)) s

/-- SLOT_SELECT (R68, R76): the named ports follow that generation of their slot table; a generation that a port's slots do not hold
binds nothing (notes/assumptions/91.md). -/
def State.selectSlots (s : State) (payload : Word64) : State :=
  let p := payload.toNat
  ((List.range 9).filter (bit p)).foldl (fun s k =>
    let t := s.slotTab k
    if (t.slot (bits p 16 32)).isSome then s.setSlotTab k (GenTable.prune { t with cur := some (bits p 16 32) } s.time.beat) else s) s

/-- LOCK_BEGIN (R62, R68). -/
def State.lockBegin (s : State) (i : Nat) (e : SchedEntry) : State :=
  s.setTime { s.time with lockEnds := s.time.lockEnds ++ [(i, s.time.beat + (bits e.payload.toNat 0 16 - e.boff))] }

/-- The REPLAY_SLOT of a collective after its window: its open and close in ticks from the window's open (R69). -/
def Sched.replayOf (g : Sched) (e : SchedEntry) (beatTicks : Nat) : Nat × Nat :=
  let later := g.entries.filter fun x =>
    x.kind == 7 && bits x.payload.toNat 32 16 == bits e.payload.toNat 32 16 &&
      (Nat.blt e.boff x.boff || (x.boff == e.boff && Nat.ble e.tick x.tick))
  match later.head? with
  | some x =>
    let base := (x.boff - e.boff) * beatTicks
    (base + x.tick - e.tick, base + bits x.payload.toNat 0 21 - e.tick)
  | none => (0, 0)

/-- COLLECTIVE_WINDOW (R68, R318, R322): the collective of the open step opens, bound to what the step bound. -/
def State.openColl (s : State) (i : Nat) (r : StepRun) (g : Sched) (e : SchedEntry) : State :=
  let p := e.payload.toNat
  match g.colls.find? fun d => d.index == bits p 32 16 with
  | none => s
  | some d =>
    let route := if d.kind < 3 then none
      else (findKey r.routes d.routeId).bind fun n => (((s.inst i).route d.routeId).slot n).map fun t => (n, t.val)
    let slot := g.replayOf e s.beatTicks
    let now := s.time.clk
    let c : CollRun :=
      { inst := i, step := r.id, start := r.start, desc := d, route := route, openAt := now, close := now + (bits p 0 21 - e.tick),
        slotOpen := now + slot.1, slotClose := now + slot.2, attempt := 0, ready := false, sent := [], got := [], heads := [], reduced := [],
        judged := false, done := none, failed := false }
    let rest := s.serve.colls.filter fun x => !(x.inst == i && x.desc.index == d.index)
    { s with serve := { s.serve with colls := rest ++ [c] } }

/-- COLLECTIVE_WINDOW fires. -/
def State.collWindow (s : State) (i : Nat) (e : SchedEntry) : State :=
  match s.openStep i, s.firing i with
  | some r, some g => (s.entryDone r).openColl i r g e
  | _, _ => s

/-- REPLAY_SLOT (R68): the slot opens at its tick. -/
def State.replaySlot (s : State) (i : Nat) (e : SchedEntry) : State :=
  s.onColl i (bits e.payload.toNat 32 16) fun c =>
    { c with slotOpen := s.time.clk, slotClose := s.time.clk + (bits e.payload.toNat 0 21 - e.tick) }

/-! ### Telemetry (R68, R165, R209, R360, R435) -/

/-- The numeric summary of a beat (R165). -/
def numSummary (n : NumSum) (beat : Nat) : List Byte :=
  fit 64 (leBytes 8 (beat % 2 ^ 48) ++ (n.die.flatMap fun l => l.flatMap fun x => leBytes 2 (min x 0xFFFF)) ++ leBytes 4 n.hubTrips ++
    leBytes 2 n.hubNonfin)

/-- The expert-load frame of a routing table for the beat just ended; none where its bank holds no count (R209). -/
def State.loadFrame (s : State) (i id gen : Nat) : Option (List Byte) :=
  ((s.inst i).route id).current.bind fun t =>
    let beat := s.time.beat - 1
    let n := t.val.experts.length
    let bank := s.load (mpaCs (s.loadBank i t.val (beat % 2))) (8 * n)
    let es := (pieces 8 n bank).map fun w => field w 0 8
    if allZero bank then none
    else
      some (fit 64 (leBytes 8 (beat % 2 ^ 48) ++ leBytes 1 i ++ leBytes 1 id ++ leBytes 2 n ++ leBytes 4 gen ++
        leBytes 4 ((es.map fun w => bits w 0 32).foldl (· + ·) 0) ++ leBytes 4 ((es.map fun w => bits w 32 32).foldl (· + ·) 0)) ++ bank)

/-- A frame of link errors: 64 bytes that the spec does not describe, each word a free value. -/
def State.linkFrame (s : State) : List Byte × State :=
  (List.range 8).foldl (fun (a : List Byte × State) _ =>
    let r := a.2.fresh
    (a.1 ++ leBytes 8 r.1, r.2)) ([], s)

/-- TELEMETRY: the frames of the beat just ended, to the named destinations. -/
def State.telemetry (s : State) (payload : Word64) : State :=
  let p := payload.toNat
  let kind := bits p 0 4
  let send := fun (s : State) (fs : List (List Byte)) => s.emits (fs.map fun f => Out.frame (bits p 4 3) kind f)
  if kind = 0 then send s [s.powerFrame]
  else if kind = 1 then send s [numSummary s.arr.numLast (s.time.beat - 1)]
  else if kind = 2 then send s (s.serve.loadGens.filterMap fun g => s.loadFrame g.1 g.2.1 g.2.2)
  else if kind = 3 then send s s.serve.tokFrames
  else let r := s.linkFrame; send r.2 [r.1]

/-! ### STEP_END (R71, R96) -/

/-- A step whose work is complete completes; one whose work is not overruns, counted, and the gates of the instance are cleared. -/
def State.stepEnd (s : State) (i : Nat) (payload : Word64) : State :=
  let s' := s.clearGates i
  match s.serve.steps.find? fun r => r.inst == i && !r.overrun && r.endNo == bits payload.toNat 0 16 with
  | none => s'
  | some r =>
    if s.mayComplete r then (s.finishStep r).clearGates i
    else
      let late := { r with overrun := true, fail := some (r.fail.getD stSTEP_OVERRUN) }
      let s' := s'.onStep r.id fun _ => late
      if r.fail.isSome then s'
      else
        let num := match (s.inst i).sched.slot r.sched with | some g => (if g.val.config < 64 then g.val.config else 0xFF) | none => 0xFF
        let s' : State := { s' with serve := { s'.serve with overruns := s'.serve.overruns + 1 } }
        s'.instEvent 0x10 i num stSTEP_OVERRUN locNone (leBytes 4 r.index ++ leBytes 1 r.numeric)

/-! ### Firing (R61, R70) -/

/-- What an entry does, by its KIND (R68). -/
def State.entryAct (s : State) (i : Nat) (e : SchedEntry) : State :=
  match e.kind with
  | 1 => s.layerStart i e.payload
  | 2 => match s.firing i with | some g => s.startList g i e.payload | none => s
  | 3 => s.selectSlots e.payload
  | 4 => s.opPrefFire e.payload
  | 5 => s.lockBegin i e
  | 6 => s.collWindow i e
  | 7 => s.replaySlot i e
  | 8 => s.telemetry e.payload
  | 9 => s.stepEnd i e.payload
  | _ => s

/-- An entry fires at its tick. -/
def State.fireEntry (s : State) (i : Nat) (e : SchedEntry) : State := ((s.toTick e.tick).markFired i e).entryAct i e

/-- Entries fire in turn, each while its instance's schedule runs. -/
def State.fireAll (s : State) (es : List (Nat × SchedEntry)) : State :=
  es.foldl (fun s p => if s.instRuns p.1 then s.fireEntry p.1 p.2 else s) s

/-- Unfired entries of the instances that `p` keeps, by tick, each instance's in table order; at one tick by instance number. -/
def State.entriesIn (s : State) (p : Nat → SchedEntry → Bool) : List (Nat × SchedEntry) :=
  sortOn (fun x : Nat × SchedEntry => x.2.tick) ((List.range 16).flatMap fun i => ((s.unfired i).filter (p i)).map fun e => (i, e))

/-- The time unit has come to this tick: every entry with a stamp up to it has fired, and slot traffic whose slot has opened leaves. -/
def State.catchUp (s : State) : State :=
  (s.fireAll (s.entriesIn fun _ e => e.tick ≤ s.time.tick)).drainSlots s.time.tick

/-- The row of an entry: time goes on to its tick. The entries with earlier stamps, and those before it in its own table, fire first. A
row that names no entry which is still to fire in this beat does nothing (notes/assumptions/28.md). -/
def State.fireRow (s : State) (i kind : Nat) (payload : Word64) : State :=
  let is := fun e : SchedEntry => e.kind == kind && e.payload == payload
  match (s.unfired i).find? is with
  | none => s
  | some e =>
    let own := (s.unfired i).takeWhile fun x => !(is x)
    let before := s.entriesIn fun j x => if j == i then own.contains x else Nat.blt x.tick e.tick
    (s.fireAll before).fireEntry i e

def execLayerStart (inst : Fin 16) (payload : Word64) (s : State) : Res := .next (s.fireRow inst.val 1 payload)
/-- PREFETCH (R68, R229). -/
def execPrefetch (inst : Fin 16) (payload : Word64) (s : State) : Res := .next (s.fireRow inst.val 2 payload)
def execSlotSelect (inst : Fin 16) (payload : Word64) (s : State) : Res := .next (s.fireRow inst.val 3 payload)
/-- OP_PREF (R68, R421). -/
def execOpPref (inst : Fin 16) (payload : Word64) (s : State) : Res := .next (s.fireRow inst.val 4 payload)
def execLockBegin (inst : Fin 16) (payload : Word64) (s : State) : Res := .next (s.fireRow inst.val 5 payload)
def execCollectiveWindow (inst : Fin 16) (payload : Word64) (s : State) : Res := .next (s.fireRow inst.val 6 payload)
def execReplaySlot (inst : Fin 16) (payload : Word64) (s : State) : Res := .next (s.fireRow inst.val 7 payload)
def execTelemetry (inst : Fin 16) (payload : Word64) (s : State) : Res := .next (s.fireRow inst.val 8 payload)
def execStepEnd (inst : Fin 16) (payload : Word64) (s : State) : Res := .next (s.fireRow inst.val 9 payload)

/-! ### The boundary (R61) -/

/-- The count begins the next beat (R41). DESIGN CHOICE (notes/assumptions/58.md): past the end of the numbering, which does not wrap
(R43), the count stays at the last number and further boundaries repeat it. A doubled tick (R57) that passes the boundary begins the beat
at tick 1. -/
def State.nextBeat (s : State) : State :=
  let n := s.beatTicks - s.time.tick
  let t := s.time.run n
  s.setTime { t with tick := t.tick - (s.time.tick + n), beat := min (t.beat + 1) lastBeat }

/-- The beat that ends is the last but one of the numbering, so its boundary is lock loss, for a module in any state (R43, R60). -/
def State.numberingEnd (s : State) (ended : Nat) : State := if ended + 1 = lastBeat then s.lockLoss 5 else s

/-- A period change due at this boundary, of a module that is locked (R61, R63). -/
def State.periodTurn (s : State) : State :=
  match s.time.pendPeriod with
  | some (p, b) => if b ≤ s.time.beat && s.beatLocked then s.newPeriod p ((s.time.epoch + 1) % 2 ^ 16) else s
  | none => s

/-- A running master sends the marker that begins the beat (R51). -/
def State.beginMarker (s : State) : State :=
  if s.time.role == .master && s.time.st == .locked then s.sendMarkers else s

/-- The summary of the beat just ended, and its record where a frame die replayed or escalated (R165, R166). -/
def State.numericTurn (s : State) : State :=
  let n := s.arr.num
  let rec_ := n.die.any fun l => nth 0 l 0 ≠ 0 || nth 0 l 1 ≠ 0
  let bs := numSummary n (s.time.beat - 1)
  let old := s.arr.numRec
  let s : State := { s with arr := { s.arr with num := NumSum.zero, numLast := n, numRec := if rec_ then bs else s.arr.numRec } }
  if rec_ then s.hand 12 (object 0x06 0) old bs else s

/-- A routing table becomes current: the change is recorded, and one that could not be loaded by its effective beat is a late placement
(R211, R214). -/
def State.routeTurned (s : State) (i : Nat) (late : List (Nat × Nat)) (id : Nat) (old new : Option Nat) : State :=
  let s := s.genRecord 5 i id old new
  match new with
  | some gen => if old != new && late.contains (id, gen) then s.latePlacement i id gen else s
  | none => s

/-- The schedule and routing tables of an instance turn (R61, R76, R211). -/
def State.turnInst (s : State) (i : Nat) : State :=
  let x := s.inst i
  let now := s.time.beat
  let sched := x.sched.turn now
  let routes := x.routes.map fun r => (r.1, r.2.turn now)
  let late := x.lateRoutes.filter fun p => !(routes.any fun r => r.1 == p.1 && r.2.cur == some p.2)
  let s := (s.setInst i { x with sched := sched, routes := routes, lateRoutes := late }).genRecord 1 i 0 x.sched.cur sched.cur
  (x.routes.zip routes).foldl (fun s p => s.routeTurned i x.lateRoutes p.1.1 p.1.2.cur p.2.2.cur) s

/-- A configuration's generations turn; a new current one starts its remote request queues afresh (R307, R348). -/
def State.turnCfg (s : State) (c : Cfg) : State :=
  let t := c.gens.turn s.time.beat
  let s := (s.setGens c.num t).genRecord 8 c.inst c.num c.gens.cur t.cur
  if t.cur == c.gens.cur then s
  else
    match t.current with
    | some g =>
      let x := s.inst c.inst
      s.setInst c.inst { x with rrqs := x.rrqs.filter (fun q => q.config ≠ c.num) ++ rrqsOf c.num g.val }
    | none => s

/-- The slot tables turn, those that a SLOT_SELECT entry stamped with this boundary names among them (R61, R76). -/
def State.turnSlots (s : State) : State :=
  let now := s.time.beat
  let s := s.setFab { s.fab with slotTabs := s.fab.slotTabs.map fun p => (p.1, p.2.turn now) }
  (s.entriesIn fun _ e => e.kind == 3 && e.tick == 0).foldl (fun s p => s.selectSlots p.2.payload) s

/-- Every replaceable table with a generation due (R61). -/
def State.tablesTurn (s : State) : State :=
  let s := (List.range 16).foldl State.turnInst s
  (s.serve.cfgs.foldl State.turnCfg s).turnSlots.retryLoads

/-- No entry of the beat that begins has fired. -/
def State.newEntries (s : State) : State :=
  { s with serve := { s.serve with insts := s.serve.insts.map fun x => { x with fired := (0, 0) } } }

/-- Route changes of ring bridges take effect, each with its record (R25). -/
def State.routesTurn (s : State) : State :=
  let due := s.fab.routeDue
  let mask := fun l : List Nat => l.foldl (fun a b => putBit a b true) 0
  let s := s.setFab { s.fab with routeDue := [] }
  due.foldl (fun s d =>
    let old := s.fab.hubRoutes
    let new := if d.2 then (if old.contains d.1 then old else old ++ [d.1]) else old.filter (· ≠ d.1)
    (s.setFab { s.fab with hubRoutes := new }).hand 12 (objFence 2 d.1 (d.1 % 4) 31 false) (leBytes 8 (mask old)) (leBytes 8 (mask new))) s

/-- Routing tables in force: instance, ROUTE_ID and generation. -/
def State.currentRoutes (s : State) : List (Nat × Nat × Nat) :=
  (List.range 16).flatMap fun i => (s.inst i).routes.filterMap fun r => r.2.cur.map fun n => (i, r.1, n)

/-- The load bank of the beat that begins is cleared before any count of it (R209). -/
def State.clearBanks (s : State) : State :=
  s.currentRoutes.foldl (fun s r =>
    match ((s.inst r.1).route r.2.1).current with
    | some t => s.zeroAt (mpaCs (s.loadBank r.1 t.val (s.time.beat % 2))) (8 * t.val.experts.length)
    | none => s) s

/-- What ends with a beat: the entries and slots that are left of it, its measurements, records and telemetry counts (R70, R75, R165, R209,
R236, R360, R417, R432). -/
def State.endBeat (s : State) : State :=
  let s := ((s.fireAll (s.entriesIn fun _ _ => true)).drainSlots s.beatTicks).holdSlots
  let gens := s.currentRoutes
  let s : State := { s with serve := { s.serve with loadGens := gens } }
  ((s.nextBeat.numberingEnd s.time.beat).newEntries).closeMeas.numericTurn.poolRecords.droopStep

/-- The order of R61 as far as the operating points. -/
def State.turn (s : State) : State :=
  s.handover.periodTurn.beginMarker.rollTenants.tablesTurn.applyPending.thermalStep.applySpare.routesTurn.routesOpen

/-- What begins with a beat: load banks, steps, admissions, the steelyard's set, the swap unit, and the entries stamped (B, 0) in table
order (R61, R209, R351, R356, R361, R428). -/
def State.beginBeat (s : State) : State :=
  let s := s.clearBanks.startSteps.admission.sendSteel.swap []
  (s.setTime { s.time with lockEnds := s.time.lockEnds.filter fun p => s.time.beat < p.2 }).catchUp

/-- A beat boundary. -/
def State.boundary (s : State) : State := if s.hubRuns then s.endBeat.turn.beginBeat else s

def execBeatBoundary (s : State) : Res := .next (s.watched State.boundary)

/-! ### An idle tick -/

/-- A tick in which nothing is commanded: the count goes on, held or doubled where the slew counter marks the tick (R57), past the last
tick of the beat the next one begins (R41), and the entries of the tick fire (R70). Without its supplies the hub counts nothing. -/
def State.idle (s : State) : State :=
  let t := s.time
  if !s.hubRuns then s
  else if t.ctr10 ≥ 1023 && 0 < t.corr then s.setTime { t with ctr10 := 0, corr := t.corr - 1 }
  else
    let n := if t.ctr10 ≥ 1023 && t.corr < 0 then 2 else 1
    if t.tick + n < s.beatTicks then (s.setTime (t.run n)).catchUp else s.watched State.boundary

/-- The tick that the slew counter marks next comes, and the time unit acts on its correction (R57). The ticks before it pass, with the
boundary where it lies among them. -/
def State.slew (s : State) : State :=
  if !s.hubRuns then s
  else
    let goes := fun s : State =>
      let n := 1023 - s.time.ctr10
      if s.time.tick + n < s.beatTicks then (s.setTime (s.time.run n)).catchUp else s
    let k := 1023 - s.time.ctr10
    let s := if s.time.tick + k < s.beatTicks then s else s.watched State.boundary
    (goes s).idle

def execSlewTick (s : State) : Res := .next s.slew

end Sys2Proof.Machine
end

