-- ==== Sys2Proof/Machine/Arrival.lean ====
section
/-! DEFINITION. The order of events of one stamp (02 R8, R46 to R48), and what a collective hears at a stamp: the entries of the schedule
that are stamped up to it have opened their windows first (11 R319, R322, R323). -/
namespace Sys2Proof.Machine

/-! ### Events of one stamp (R48) -/

/-- The rank of an origin among the sources of R48: the planes, PCIe, I3C, internal units. -/
def originRank (o : Origin) : Nat :=
  match o with
  | .pf | .vf _ => 9
  | .mgmt => 10
  | .fm => 0
  | .firmware | .self | .bootRom => 11

/-- The rank of a path of the management commands. -/
def viaRank (v : Via) : Nat := match v with | .pf | .vf _ => 9 | .i3c => 10

/-- The source of an event, ranked as R48 ranks them: the physical port T0 to T8, then PCIe, then I3C, then internal units. -/
def sourceRank (c : Instr) : Nat :=
  match c with
  | .markerAccept p _ | .linkNakReceive p _ | .delayReq p _ | .delayResp p _ _ | .train p _ | .steelyardSetReceive p _
  | .flitReceive p _ => p.val
  | .installBegin m | .installAccept m _ | .installRefuse m | .installCredit m _ | .installData m | .installEnd m | .installReport m _
  | .installRepair m | .installCommit m | .installCommitted m | .installAbort m | .shardRepair m | .catalogueSync m _ | .load m _
  | .store m _ | .atomic m _ | .bulkPut m _ | .bulkGet m _ | .response m | .coll m | .sectionMsg m | .replayReq m | .handoff m | .fmWrite m
  | .fmRead m | .jobTeardown m | .notice m => m.port.val
  | .install _ _ | .imageDelete _ | .adapterBind _ _ | .adapterUnbind _ | .instanceCreate _ | .activate _ _ | .configLoad _
  | .instanceRestart _ | .instanceRelease _ | .poolSet _ | .ownSet _ | .tenantSet _ | .tableLoad _ | .routeTableLoad _ | .automatonLoad _
  | .seqSubmit _ _ | .seqCancel _ | .hint _ | .nopCommand _ | .sqDoorbell _ | .completionHeadDoorbell _ | .functionLevelReset _ | .perst
  | .d3hotEntry _ | .d0Return _ | .dmaDoorbell _ _ | .msixVectorUnmask _ _ => 9
  | .beatRole w | .beatPeriod w | .portCfg _ w | .coord w | .fabricAdmit w | .thaxaCommit w | .portFenceClear _ w | .arbCommit w
  | .ringEnable _ w | .ringDisable _ w | .chanStart _ w _ | .chanStop _ w | .busErrorClear w | .cap w | .capRenew w | .steelyardCfg w
  | .proveRequest w | .faultClear w | .fenceClear _ w | .ledgerAck w | .ledgerCfg w | .fwSvnCommit w | .setupLock w | .standby w
  | .resume w _ _ | .prepareRemove w | .svcReset w _ => originRank w.origin
  | .takeoverMaster o _ | .takeoverRelinquish o _ | .registerWrite o _ _ _ => originRank o
  | .timeBeatRead p => match p with | .pcie => 9 | .i3c => 10 | .thaxa => 0
  | .identityRead v | .ledgerRead v _ | .ckptRead v _ | .pubkeySet v _ _ _ | .pubkeyRevoke v _ | .fwUpdateBegin v _ | .fwUpdateData v _ _
  | .fwUpdateEnd v | .setTid v _ | .getTid v | .getPldmVersion v _ | .getPldmTypes v | .getPldmCommands v _ | .setEventReceiver v _
  | .getPdrRepositoryInfo v | .getPdr v _ | .getSensorReading v _ | .getStateSensorReadings v _ | .getVersion v | .getCapabilities v
  | .negotiateAlgorithms v | .challenge v _ | .getMeasurements v _ _ _ | .chunkGet v _ | .respondIfReady v _
  | .vendorDefinedRequest v _ _ => viaRank v
  | .regAddr _ _ | .regRead => 10
  | _ => 11

/-- Events of one stamp join the queue in R48's order; those of one source keep the order in which they came. -/
def State.present (s : State) (cs : List Instr) : State := { s with pending := s.pending ++ sortOn sourceRank cs }

/-! ### What a collective hears (R46, R319 to R323) -/

/-- COLL (R303, R322): its stamp alone decides whether it lies in the window (R46). -/
def execColl (m : Msg) (s : State) : Res := .next (s.catchUp.deliver 0x10 m fun s => s.collIn m fun s r => s.takeColl m r)

/-- SECTION (R203, R303). -/
def execSectionMsg (m : Msg) (s : State) : Res := .next (s.catchUp.deliver 0x11 m fun s => s.collIn m fun s r => s.takeSection m r)

/-- REPLAY_REQ (R303, R323). -/
def execReplayReq (m : Msg) (s : State) : Res := .next (s.catchUp.deliver 0x12 m fun s => s.takeReplayReq m)

def execCollectiveSendStart (inst : Fin 16) (index : BitVec 16) (s : State) : Res :=
  .next (s.catchUp.startSending inst.val index.toNat)

def execCollectiveWindowClose (inst : Fin 16) (index : BitVec 16) (s : State) : Res :=
  .next (s.catchUp.closeWindow inst.val index.toNat)

def execReplaySlotClose (inst : Fin 16) (index : BitVec 16) (s : State) : Res := .next (s.catchUp.closeReplay inst.val index.toNat)

end Sys2Proof.Machine
end

