-- ==== Sys2Proof/Machine/Dispatch.lean ====
section
/-! DEFINITION. The dispatch of a command to its meaning: one arm per row of spec/opcode_table.json, each one direct call. -/
namespace Sys2Proof.Machine

/-- The effect of command `i` on the state, by the rules of the spec; the queue `pending` is untouched. -/
def exec (i : Instr) (s : State) : Host.Outcome State Fault Refusal :=
  match i with
  | .beatBoundary => Sys2Proof.Machine.execBeatBoundary s
  | .markerAccept port m => Sys2Proof.Machine.execMarkerAccept port m s
  | .markerDecision => Sys2Proof.Machine.execMarkerDecision s
  | .slewTick => Sys2Proof.Machine.execSlewTick s
  | .masterStart => Sys2Proof.Machine.execMasterStart s
  | .timeBeatRead path => Sys2Proof.Machine.execTimeBeatRead path s
  | .beatRole w => Sys2Proof.Machine.execBeatRole w s
  | .beatPeriod w => Sys2Proof.Machine.execBeatPeriod w s
  | .takeoverMaster origin beat => Sys2Proof.Machine.execTakeoverMaster origin beat s
  | .takeoverRelinquish origin beat => Sys2Proof.Machine.execTakeoverRelinquish origin beat s
  | .layerStart inst payload => Sys2Proof.Machine.execLayerStart inst payload s
  | .prefetch inst payload => Sys2Proof.Machine.execPrefetch inst payload s
  | .slotSelect inst payload => Sys2Proof.Machine.execSlotSelect inst payload s
  | .opPref inst payload => Sys2Proof.Machine.execOpPref inst payload s
  | .lockBegin inst payload => Sys2Proof.Machine.execLockBegin inst payload s
  | .collectiveWindow inst payload => Sys2Proof.Machine.execCollectiveWindow inst payload s
  | .replaySlot inst payload => Sys2Proof.Machine.execReplaySlot inst payload s
  | .telemetry inst payload => Sys2Proof.Machine.execTelemetry inst payload s
  | .stepEnd inst payload => Sys2Proof.Machine.execStepEnd inst payload s
  | .stepCompletion inst step => Sys2Proof.Machine.execStepCompletion inst step s
  | .nop b => Sys2Proof.Machine.execNop b s
  | .matrix b word => Sys2Proof.Machine.execMatrix b s word
  | .vector b word => Sys2Proof.Machine.execVector b s word
  | .copy b word => Sys2Proof.Machine.execCopy b s word
  | .select b word => Sys2Proof.Machine.execSelect b s word
  | .dispatch b word merge => Sys2Proof.Machine.execDispatch b s word merge
  | .combine b word => Sys2Proof.Machine.execCombine b s word
  | .fill b word => Sys2Proof.Machine.execFill b s word
  | .tileLanding b tile check => Sys2Proof.Machine.execTileLanding b tile check s
  | .writeback b word => Sys2Proof.Machine.execWriteback b s word
  | .gather b word => Sys2Proof.Machine.execGather b s word
  | .gatherComplete stack check => Sys2Proof.Machine.execGatherComplete stack check s
  | .emit b owners word => Sys2Proof.Machine.execEmit b owners s word
  | .build b word => Sys2Proof.Machine.execBuild b s word
  | .counter b => Sys2Proof.Machine.execCounter b s
  | .wait b => Sys2Proof.Machine.execWait b s
  | .contextSwitch b => Sys2Proof.Machine.execContextSwitch b s
  | .entryArrival e check spilled => Sys2Proof.Machine.execEntryArrival e check spilled s
  | .steeringSwitchFire c unit => Sys2Proof.Machine.execSteeringSwitchFire c unit s
  | .steeringMergeFire c unit => Sys2Proof.Machine.execSteeringMergeFire c unit s
  | .spatialDeadlock die config => Sys2Proof.Machine.execSpatialDeadlock die config s
  | .dictionaryRecordLoad c record fromTile => Sys2Proof.Machine.execDictionaryRecordLoad c record fromTile s
  | .rodRemap die lost => Sys2Proof.Machine.execRodRemap die s lost
  | .swapDecision lost => Sys2Proof.Machine.execSwapDecision s lost
  | .contextRestoreDone config check => Sys2Proof.Machine.execContextRestoreDone config check s
  | .prefetchTileLand stack tile check => Sys2Proof.Machine.execPrefetchTileLand stack tile check s
  | .prefetchFillBy stack list => Sys2Proof.Machine.execPrefetchFillBy stack list s
  | .journalFlushTimer => Sys2Proof.Machine.execJournalFlushTimer s
  | .pageProgramDone channel reads => Sys2Proof.Machine.execPageProgramDone channel s reads
  | .powerFail => Sys2Proof.Machine.execPowerFail s
  | .install c image => Sys2Proof.Machine.execInstall c image s
  | .installBegin m => Sys2Proof.Machine.execInstallBegin m s
  | .installAccept m reads => Sys2Proof.Machine.execInstallAccept m s reads
  | .installRefuse m => Sys2Proof.Machine.execInstallRefuse m s
  | .acceptWaitTimeout => Sys2Proof.Machine.execAcceptWaitTimeout s
  | .installCredit m reads => Sys2Proof.Machine.execInstallCredit m s reads
  | .installData m => Sys2Proof.Machine.execInstallData m s
  | .installEnd m => Sys2Proof.Machine.execInstallEnd m s
  | .reportTimer => Sys2Proof.Machine.execReportTimer s
  | .installReport m reads => Sys2Proof.Machine.execInstallReport m s reads
  | .installRepair m => Sys2Proof.Machine.execInstallRepair m s
  | .installCommit m => Sys2Proof.Machine.execInstallCommit m s
  | .commitResend => Sys2Proof.Machine.execCommitResend s
  | .installCommitted m => Sys2Proof.Machine.execInstallCommitted m s
  | .installAbort m => Sys2Proof.Machine.execInstallAbort m s
  | .installInactivityTimeout => Sys2Proof.Machine.execInstallInactivityTimeout s
  | .imageDelete c => Sys2Proof.Machine.execImageDelete c s
  | .shardRepair m => Sys2Proof.Machine.execShardRepair m s
  | .catalogueSync m rows => Sys2Proof.Machine.execCatalogueSync m rows s
  | .adapterBind c reads => Sys2Proof.Machine.execAdapterBind c s reads
  | .adapterUnbind c => Sys2Proof.Machine.execAdapterUnbind c s
  | .instanceCreate c => Sys2Proof.Machine.execInstanceCreate c s
  | .activate c checks => Sys2Proof.Machine.execActivate c checks s
  | .configLoad c => Sys2Proof.Machine.execConfigLoad c s
  | .instanceRestart c => Sys2Proof.Machine.execInstanceRestart c s
  | .instanceRelease c => Sys2Proof.Machine.execInstanceRelease c s
  | .poolSet c => Sys2Proof.Machine.execPoolSet c s
  | .ownSet c => Sys2Proof.Machine.execOwnSet c s
  | .tenantSet c => Sys2Proof.Machine.execTenantSet c s
  | .tableLoad c => Sys2Proof.Machine.execTableLoad c s
  | .routeTableLoad c => Sys2Proof.Machine.execRouteTableLoad c s
  | .automatonLoad c => Sys2Proof.Machine.execAutomatonLoad c s
  | .seqSubmit c reads => Sys2Proof.Machine.execSeqSubmit c s reads
  | .seqCancel c => Sys2Proof.Machine.execSeqCancel c s
  | .hint c => Sys2Proof.Machine.execHint c s
  | .nopCommand c => Sys2Proof.Machine.execNopCommand c s
  | .admitTimeout inst req => Sys2Proof.Machine.execAdmitTimeout inst req s
  | .samplerPosition inst req k => Sys2Proof.Machine.execSamplerPosition inst req k s
  | .draftTokenDraw inst req j => Sys2Proof.Machine.execDraftTokenDraw inst req j s
  | .load m reads => Sys2Proof.Machine.execLoad m reads s
  | .store m reads => Sys2Proof.Machine.execStore m reads s
  | .atomic m reads => Sys2Proof.Machine.execAtomic m reads s
  | .bulkPut m reads => Sys2Proof.Machine.execBulkPut m reads s
  | .bulkGet m reads => Sys2Proof.Machine.execBulkGet m reads s
  | .response m => Sys2Proof.Machine.execResponse m s
  | .coll m => Sys2Proof.Machine.execColl m s
  | .sectionMsg m => Sys2Proof.Machine.execSectionMsg m s
  | .replayReq m => Sys2Proof.Machine.execReplayReq m s
  | .handoff m => Sys2Proof.Machine.execHandoff m s
  | .fmWrite m => Sys2Proof.Machine.execFmWrite m s
  | .fmRead m => Sys2Proof.Machine.execFmRead m s
  | .jobTeardown m => Sys2Proof.Machine.execJobTeardown m s
  | .notice m => Sys2Proof.Machine.execNotice m s
  | .remoteQueueScan config queue => Sys2Proof.Machine.execRemoteQueueScan config queue s
  | .fabricDeadline tag => Sys2Proof.Machine.execFabricDeadline tag s
  | .collectiveSendStart inst index => Sys2Proof.Machine.execCollectiveSendStart inst index s
  | .collectiveWindowClose inst index => Sys2Proof.Machine.execCollectiveWindowClose inst index s
  | .replaySlotClose inst index => Sys2Proof.Machine.execReplaySlotClose inst index s
  | .bridgeUnitReplay bridge sameUnit => Sys2Proof.Machine.execBridgeUnitReplay bridge sameUnit s
  | .linkNakReceive port ackSeq => Sys2Proof.Machine.execLinkNakReceive port ackSeq s
  | .ackTimer port => Sys2Proof.Machine.execAckTimer port s
  | .delayMeasurement port => Sys2Proof.Machine.execDelayMeasurement port s
  | .delayReq port t1 => Sys2Proof.Machine.execDelayReq port t1 s
  | .delayResp port t2 t3 => Sys2Proof.Machine.execDelayResp port t2 t3 s
  | .train port set => Sys2Proof.Machine.execTrain port set s
  | .steelyardSetReceive port set => Sys2Proof.Machine.execSteelyardSetReceive port set s
  | .trainingStateExit port => Sys2Proof.Machine.execTrainingStateExit port s
  | .trainingBoundExpiry port lanes => Sys2Proof.Machine.execTrainingBoundExpiry port lanes s
  | .portCfg port w => Sys2Proof.Machine.execPortCfg port w s
  | .coord w => Sys2Proof.Machine.execCoord w s
  | .fabricAdmit w => Sys2Proof.Machine.execFabricAdmit w s
  | .thaxaCommit w => Sys2Proof.Machine.execThaxaCommit w s
  | .portFenceClear port w => Sys2Proof.Machine.execPortFenceClear port w s
  | .arbCommit w => Sys2Proof.Machine.execArbCommit w s
  | .arbSetActivation => Sys2Proof.Machine.execArbSetActivation s
  | .sqDoorbell d => Sys2Proof.Machine.execSqDoorbell d s
  | .completionHeadDoorbell d => Sys2Proof.Machine.execCompletionHeadDoorbell d s
  | .irqTimer ring => Sys2Proof.Machine.execIrqTimer ring s
  | .ringEnable ring w => Sys2Proof.Machine.execRingEnable ring w s
  | .ringDisable ring w => Sys2Proof.Machine.execRingDisable ring w s
  | .functionLevelReset fn => Sys2Proof.Machine.execFunctionLevelReset fn s
  | .perst => Sys2Proof.Machine.execPerst s
  | .d3hotEntry fn => Sys2Proof.Machine.execD3hotEntry fn s
  | .d0Return fn => Sys2Proof.Machine.execD0Return fn s
  | .chanStart chan w fetched => Sys2Proof.Machine.execChanStart chan w fetched s
  | .chanStop chan w => Sys2Proof.Machine.execChanStop chan w s
  | .dmaDoorbell d fetched => Sys2Proof.Machine.execDmaDoorbell d fetched s
  | .dmaCopyDone chan hostData reads fetched => Sys2Proof.Machine.execDmaCopyDone chan hostData reads fetched s
  | .dmaBusError kind addr => Sys2Proof.Machine.execDmaBusError kind addr s
  | .busErrorClear w => Sys2Proof.Machine.execBusErrorClear w s
  | .powerDecision => Sys2Proof.Machine.execPowerDecision s
  | .inputSample x boot => Sys2Proof.Machine.execInputSample x s boot
  | .lowInputClear => Sys2Proof.Machine.execLowInputClear s
  | .sensorRead x => Sys2Proof.Machine.execSensorRead x s
  | .hardwareTrip => Sys2Proof.Machine.execHardwareTrip s
  | .droopTrip die => Sys2Proof.Machine.execDroopTrip die s
  | .droopRecovery die => Sys2Proof.Machine.execDroopRecovery die s
  | .droopCeilingLift die => Sys2Proof.Machine.execDroopCeilingLift die s
  | .cap w => Sys2Proof.Machine.execCap w s
  | .capRenew w => Sys2Proof.Machine.execCapRenew w s
  | .leaseExpiry => Sys2Proof.Machine.execLeaseExpiry s
  | .steelyardCfg w => Sys2Proof.Machine.execSteelyardCfg w s
  | .provingRunStart u => Sys2Proof.Machine.execProvingRunStart u s
  | .provingRunEnd u pass failingRows => Sys2Proof.Machine.execProvingRunEnd u pass failingRows s
  | .provingRunTimeout u => Sys2Proof.Machine.execProvingRunTimeout u s
  | .routineProving die => Sys2Proof.Machine.execRoutineProving die s
  | .proveRequest w => Sys2Proof.Machine.execProveRequest w s
  | .faultClear w => Sys2Proof.Machine.execFaultClear w s
  | .fenceClear die w => Sys2Proof.Machine.execFenceClear die w s
  | .ledgerAppend => Sys2Proof.Machine.execLedgerAppend s
  | .checkpointTimer => Sys2Proof.Machine.execCheckpointTimer s
  | .checkpointSigned => Sys2Proof.Machine.execCheckpointSigned s
  | .ledgerAck w => Sys2Proof.Machine.execLedgerAck w s
  | .ledgerCfg w => Sys2Proof.Machine.execLedgerCfg w s
  | .identityRead via => Sys2Proof.Machine.execIdentityRead via s
  | .ledgerRead via seq => Sys2Proof.Machine.execLedgerRead via seq s
  | .ckptRead via seq => Sys2Proof.Machine.execCkptRead via seq s
  | .pubkeySet via index sigSet key => Sys2Proof.Machine.execPubkeySet via index sigSet key s
  | .pubkeyRevoke via index => Sys2Proof.Machine.execPubkeyRevoke via index s
  | .fwUpdateBegin via length => Sys2Proof.Machine.execFwUpdateBegin via length s
  | .fwUpdateData via offset bytes => Sys2Proof.Machine.execFwUpdateData via offset bytes s
  | .fwUpdateEnd via => Sys2Proof.Machine.execFwUpdateEnd via s
  | .fwSvnCommit w => Sys2Proof.Machine.execFwSvnCommit w s
  | .setTid via tid => Sys2Proof.Machine.execSetTid via tid s
  | .getTid via => Sys2Proof.Machine.execGetTid via s
  | .getPldmVersion via type => Sys2Proof.Machine.execGetPldmVersion via type s
  | .getPldmTypes via => Sys2Proof.Machine.execGetPldmTypes via s
  | .getPldmCommands via type => Sys2Proof.Machine.execGetPldmCommands via type s
  | .setEventReceiver via eid => Sys2Proof.Machine.execSetEventReceiver via eid s
  | .getPdrRepositoryInfo via => Sys2Proof.Machine.execGetPdrRepositoryInfo via s
  | .getPdr via record => Sys2Proof.Machine.execGetPdr via record s
  | .getSensorReading via sensor => Sys2Proof.Machine.execGetSensorReading via sensor s
  | .getStateSensorReadings via sensor => Sys2Proof.Machine.execGetStateSensorReadings via sensor s
  | .pldmEventResend sensor => Sys2Proof.Machine.execPldmEventResend s sensor
  | .getVersion via => Sys2Proof.Machine.execGetVersion via s
  | .getCapabilities via => Sys2Proof.Machine.execGetCapabilities via s
  | .negotiateAlgorithms via => Sys2Proof.Machine.execNegotiateAlgorithms via s
  | .challenge via nonce => Sys2Proof.Machine.execChallenge via nonce s
  | .getMeasurements via index signed nonce => Sys2Proof.Machine.execGetMeasurements via index signed nonce s
  | .chunkGet via seqNo => Sys2Proof.Machine.execChunkGet via seqNo s
  | .respondIfReady via token => Sys2Proof.Machine.execRespondIfReady via token s
  | .vendorDefinedRequest via type body => Sys2Proof.Machine.execVendorDefinedRequest via type body s
  | .setupLock w => Sys2Proof.Machine.execSetupLock w s
  | .registerWrite origin offset size value => Sys2Proof.Machine.execRegisterWrite origin offset size value s
  | .regAddr offset length => Sys2Proof.Machine.execRegAddr offset length s
  | .regRead => Sys2Proof.Machine.execRegRead s
  | .standby w => Sys2Proof.Machine.execStandby w s
  | .resume w checks boot => Sys2Proof.Machine.execResume w checks boot s
  | .prepareRemove w => Sys2Proof.Machine.execPrepareRemove w s
  | .svcReset w boot => Sys2Proof.Machine.execSvcReset w boot s
  | .vstbyApplied => Sys2Proof.Machine.execVstbyApplied s
  | .mainEnAssert boot => Sys2Proof.Machine.execMainEnAssert boot s
  | .mainEnDeassert => Sys2Proof.Machine.execMainEnDeassert s
  | .presentSenseLoss => Sys2Proof.Machine.execPresentSenseLoss s
  | .refLoss => Sys2Proof.Machine.execRefLoss s
  | .flitReceive port raw => Sys2Proof.Machine.execFlitReceive port raw s
  | .fecAlignmentLoss port lane => Sys2Proof.Machine.execFecAlignmentLoss port lane s
  | .arbiterDecision kind index waiting done sub => Sys2Proof.Machine.execArbiterDecision kind index waiting done s sub
  | .msixVectorUnmask fn vector => Sys2Proof.Machine.execMsixVectorUnmask fn vector s
  | .installReaderTimeout => Sys2Proof.Machine.execInstallReaderTimeout s
  | .recoveryImageReceived image untrained => Sys2Proof.Machine.execRecoveryImageReceived image untrained s
  | .bringUpBoundExpiry step => Sys2Proof.Machine.execBringUpBoundExpiry step s
  | .vhbmLoss => Sys2Proof.Machine.execVhbmLoss s
  | .inputLoss => Sys2Proof.Machine.execInputLoss s
  | .ref100Return => Sys2Proof.Machine.execRef100Return s
  | .delayExchange port => Sys2Proof.Machine.execDelayExchange port s

end Sys2Proof.Machine
end

