-- ==== Sys2Proof/Safety.lean ====
section
/-! DEFINITION. What counts as a safe run of the module, and the words the claims use: a command that answers a next state, a register
write that passes its checks, an action that issues, a fetched host command that passes the checks of R399, and what recording a change
may touch. An error of the module is a status, an event, a counter or a record (R13, R14), so a safe step always goes on. -/
set_option Elab.async false
namespace Sys2Proof.Machine

/-- The state's memory is in canonical form: equal memories are equal data. -/
def State.memOk (s : State) : Prop := Memory.wf s.mem.cells

/-- The fixed lists have their length: 16 instances (R340), 9 ports (R273), 32 channels (R408), 9 functions (R387). -/
def State.shape (s : State) : Prop :=
  s.serve.insts.length = 16 ∧ s.fab.ports.length = 9 ∧ s.host.chans.length = 32 ∧ s.host.funcs.length = 9

/-- The parts of a state, but the queue: `handed` the records on their way to the ledger, `rings` the host's rings, vectors and held
completions, `chans` the rest of the host interface, `platform` the platform events to send again, `phase` PHASE. -/
inductive Part where
  | time | regs | arr | mem | serve | vault | fab | arb | chans | rings | power | faults | ledger | handed | sec | platform | svc | phase
  | out | free
  deriving DecidableEq, Repr

/-- Two states agree in a part. -/
def State.agree (s t : State) : Part → Prop
  | .time => t.time = s.time
  | .regs => t.regs = s.regs
  | .arr => t.arr = s.arr
  | .mem => t.mem = s.mem
  | .serve => t.serve = s.serve
  | .vault => t.vault = s.vault
  | .fab => t.fab = s.fab
  | .arb => t.arb = s.arb
  | .chans => { t.host with rings := [], funcs := [], cqHold := [] } = { s.host with rings := [], funcs := [], cqHold := [] }
  | .rings => (t.host.rings, t.host.funcs, t.host.cqHold) = (s.host.rings, s.host.funcs, s.host.cqHold)
  | .power => t.power = s.power
  | .faults => t.faults = s.faults
  | .ledger => { t.ledger with held := [] } = { s.ledger with held := [] }
  | .handed => (t.ledger.held, t.svc.held) = (s.ledger.held, s.svc.held)
  | .sec => { t.sec with events := [] } = { s.sec with events := [] }
  | .platform => t.sec.events = s.sec.events
  | .svc => { t.svc with held := [], phase := .off } = { s.svc with held := [], phase := .off }
  | .phase => t.svc.phase = s.svc.phase
  | .out => t.out = s.out
  | .free => t.free = s.free

/-- Nothing but the listed parts differs. -/
def Only (ps : List Part) (s t : State) : Prop := t.pending = s.pending ∧ ∀ p, p ∉ ps → s.agree t p

/-- Every part but the counter of free values. -/
def allButFree : List Part :=
  [.time, .regs, .arr, .mem, .serve, .vault, .fab, .arb, .chans, .rings, .power, .faults, .ledger, .handed, .sec, .platform, .svc, .phase, .out]

/-- The parts of the state that a command may change, on any of its ways. A command that is a register write also leaves the note of a
refusal (R507), in the hub's registers or in the island. -/
def touches : Instr → List Part
  | .beatBoundary .. | .slewTick .. =>
      [.time, .regs, .arr, .mem, .serve, .vault, .fab, .arb, .rings, .power, .faults, .handed, .platform, .out, .free]
  | .markerAccept .. | .markerDecision .. | .masterStart .. => [.time, .regs, .serve, .fab, .rings, .handed, .out]
  | .timeBeatRead .. | .regRead .. => [.time, .out]
  | .beatRole .. => [.time, .regs, .serve, .fab, .rings, .handed, .platform, .svc, .out]
  | .beatPeriod .. | .takeoverMaster .. | .takeoverRelinquish .. => [.time, .regs, .handed, .platform, .svc, .out]
  | .layerStart .. | .prefetch .. | .slotSelect .. | .opPref .. | .lockBegin .. | .collectiveWindow .. | .replaySlot ..
  | .telemetry .. | .stepEnd .. | .coll .. | .sectionMsg .. | .replayReq .. | .collectiveSendStart .. | .collectiveWindowClose ..
  | .replaySlotClose .. => [.time, .regs, .arr, .mem, .serve, .vault, .fab, .rings, .power, .faults, .handed, .out, .free]
  | .stepCompletion .. => [.regs, .arr, .mem, .serve, .vault, .fab, .rings, .power, .faults, .handed, .out]
  | .nop .. | .counter .. | .wait .. | .draftTokenDraw .. => [.regs, .arr, .serve]
  | .matrix .. | .copy .. | .build .. | .dictionaryRecordLoad .. =>
      [.regs, .arr, .mem, .serve, .fab, .rings, .faults, .platform, .out, .free]
  | .vector .. | .select .. | .combine .. | .fill .. | .writeback .. | .gather .. | .emit .. =>
      [.regs, .arr, .mem, .serve, .fab, .faults, .platform, .out]
  | .dispatch .. | .tileLanding .. | .gatherComplete .. | .prefetchTileLand .. | .load .. | .store .. | .atomic .. | .bulkPut ..
  | .bulkGet .. | .provingRunEnd .. => [.regs, .arr, .mem, .serve, .vault, .fab, .rings, .faults, .handed, .platform, .out]
  | .contextSwitch .. => [.arr]
  | .entryArrival .. | .contextRestoreDone .. => [.regs, .arr, .mem, .serve, .fab, .faults]
  | .steeringSwitchFire .. | .steeringMergeFire .. | .swapDecision .. => [.regs, .arr, .serve, .fab, .faults]
  | .spatialDeadlock .. => [.regs, .arr, .serve, .fab, .rings, .faults, .platform, .out]
  | .rodRemap .. => [.regs, .arr, .mem, .serve, .vault, .fab, .faults, .handed]
  | .prefetchFillBy .. => [.time, .regs, .mem, .rings, .out]
  | .journalFlushTimer .. => [.time, .vault]
  | .pageProgramDone .. => [.regs, .vault, .fab, .faults, .handed, .out]
  | .powerFail .. => [.vault]
  | .install .. | .imageDelete .. => [.regs, .vault, .rings, .handed, .out]
  | .installBegin .. | .installRefuse .. | .installEnd .. | .installCommit .. | .installCommitted .. | .installAbort ..
  | .catalogueSync .. => [.regs, .vault, .fab, .rings, .handed, .out]
  | .installAccept .. | .installCredit .. | .installReport .. => [.regs, .vault, .fab, .rings, .faults, .handed, .out]
  | .acceptWaitTimeout .. | .reportTimer .. | .installReaderTimeout .. => [.time, .regs, .vault, .handed, .out]
  | .installData .. | .installRepair .. => [.regs, .mem, .vault, .fab, .rings, .handed, .out]
  | .commitResend .. => [.time, .regs, .vault, .out]
  | .installInactivityTimeout .. => [.time, .regs, .vault, .handed]
  | .shardRepair .. => [.regs, .vault, .fab, .rings, .out]
  | .adapterBind .. | .activate .. | .configLoad .. | .tableLoad .. | .routeTableLoad .. | .automatonLoad .. | .seqCancel ..
  | .jobTeardown .. => [.regs, .arr, .mem, .serve, .vault, .fab, .rings, .faults, .handed, .out]
  | .adapterUnbind .. => [.regs, .mem, .serve, .vault, .rings, .handed, .out]
  | .instanceCreate .. => [.regs, .serve, .vault, .rings, .handed, .out]
  | .instanceRestart .. | .poolSet .. | .tenantSet .. => [.regs, .serve, .rings, .handed, .out]
  | .instanceRelease .. => [.regs, .arr, .mem, .serve, .vault, .fab, .rings, .handed, .out]
  | .ownSet .. | .handoff .. => [.regs, .mem, .fab, .rings, .handed, .out]
  | .seqSubmit .. => [.regs, .mem, .serve, .vault, .fab, .rings, .faults, .handed, .out]
  | .hint .. | .droopCeilingLift .. => [.regs, .rings, .power, .handed, .out]
  | .nopCommand .. => [.regs, .rings, .handed, .out]
  | .admitTimeout .. => [.time, .regs, .arr, .mem, .serve, .vault, .fab, .rings, .faults, .handed, .out]
  | .samplerPosition .. => [.regs, .serve]
  | .response .. => [.regs, .mem, .serve, .fab, .rings, .out]
  | .fmWrite .. | .inputSample .. | .sensorRead .. | .hardwareTrip .. | .registerWrite .. | .standby .. | .resume ..
  | .prepareRemove .. | .svcReset .. | .mainEnDeassert .. | .presentSenseLoss .. | .vhbmLoss .. | .inputLoss .. => allButFree
  | .fmRead .. => [.time, .regs, .fab, .rings, .out]
  | .notice .. => [.regs, .fab, .rings, .out]
  | .remoteQueueScan .. => [.regs, .mem, .serve, .fab, .out]
  | .fabricDeadline .. => [.time, .regs, .arr, .mem, .serve, .fab, .rings, .out]
  | .bridgeUnitReplay .. => [.fab, .faults]
  | .linkNakReceive .. | .flitReceive .. => [.regs, .fab, .faults, .out]
  | .ackTimer .. => [.regs, .fab, .out]
  | .delayMeasurement .. | .trainingStateExit .. => [.fab, .out]
  | .delayReq .. | .identityRead .. | .ledgerRead .. | .ckptRead .. | .getTid .. | .getPldmVersion .. | .getPldmTypes ..
  | .getPldmCommands .. | .getPdrRepositoryInfo .. | .getPdr .. | .getSensorReading .. | .getStateSensorReadings .. => [.out]
  | .delayResp .. | .train .. => [.fab]
  | .steelyardSetReceive .. | .droopTrip .. => [.regs, .power]
  | .trainingBoundExpiry .. => [.regs, .vault, .fab, .rings, .faults, .handed, .platform, .out]
  | .portCfg .. | .coord .. | .thaxaCommit .. => [.regs, .fab, .handed, .platform, .svc, .out]
  | .fabricAdmit .. => [.regs, .serve, .fab, .handed, .platform, .svc, .out]
  | .portFenceClear .. => [.regs, .vault, .faults, .handed, .platform, .svc, .out]
  | .arbCommit .. => [.regs, .arb, .handed, .platform, .svc, .out]
  | .arbSetActivation .. => [.time, .arb, .handed]
  | .sqDoorbell .. | .bringUpBoundExpiry .. => [.regs, .rings, .out]
  | .completionHeadDoorbell .. => [.regs, .serve, .rings, .out]
  | .irqTimer .. => [.time, .rings, .out]
  | .ringEnable .. | .ringDisable .. => [.regs, .rings, .handed, .platform, .svc, .out]
  | .functionLevelReset .. | .perst .. => [.regs, .arr, .mem, .serve, .vault, .fab, .chans, .rings, .faults, .handed, .out]
  | .d3hotEntry .. => [.chans, .rings]
  | .d0Return .. => [.serve, .rings, .out]
  | .chanStart .. | .chanStop .. => [.regs, .chans, .rings, .handed, .platform, .svc, .out]
  | .dmaDoorbell .. => [.regs, .chans, .rings, .out]
  | .dmaCopyDone .. => [.regs, .arr, .mem, .serve, .vault, .fab, .chans, .rings, .faults, .handed, .platform, .out]
  | .dmaBusError .. => [.regs, .arr, .mem, .vault, .chans, .rings, .handed, .out, .free]
  | .busErrorClear .. => [.regs, .chans, .handed, .platform, .svc, .out]
  | .powerDecision .. | .lowInputClear .. => [.time, .regs, .rings, .power, .handed, .platform, .out]
  | .droopRecovery .. => [.power]
  | .cap .. | .capRenew .. => [.time, .regs, .rings, .power, .handed, .platform, .svc, .out]
  | .leaseExpiry .. => [.time, .regs, .rings, .power, .handed, .out]
  | .steelyardCfg .. => [.regs, .handed, .platform, .svc, .out]
  | .provingRunStart .. | .routineProving .. => [.faults]
  | .provingRunTimeout .. => [.regs, .arr, .serve, .vault, .fab, .rings, .faults, .handed, .platform, .out]
  | .proveRequest .. => [.regs, .fab, .faults, .handed, .platform, .svc, .out]
  | .faultClear .. => [.regs, .arr, .mem, .serve, .vault, .fab, .rings, .faults, .handed, .platform, .svc, .out]
  | .fenceClear .. => [.regs, .arr, .mem, .vault, .faults, .handed, .platform, .svc, .out]
  | .ledgerAppend .. => [.time, .regs, .rings, .ledger, .handed, .sec, .out]
  | .checkpointTimer .. => [.time, .handed, .sec]
  | .checkpointSigned .. => [.regs, .mem, .vault, .ledger, .out]
  | .ledgerAck .. | .ledgerCfg .. => [.regs, .ledger, .handed, .platform, .svc, .out]
  | .pubkeySet .. | .pubkeyRevoke .. => [.regs, .handed, .sec, .out]
  | .fwUpdateBegin .. => [.regs, .sec, .out]
  | .fwUpdateData .. | .setTid .. | .setEventReceiver .. => [.sec, .out]
  | .fwUpdateEnd .. | .vendorDefinedRequest .. => [.regs, .vault, .handed, .sec, .out]
  | .fwSvnCommit .. => [.regs, .handed, .sec, .platform, .svc, .out]
  | .pldmEventResend .. => [.time, .platform, .out]
  | .getVersion .. | .getCapabilities .. | .negotiateAlgorithms .. | .chunkGet .. => [.regs, .sec, .platform, .out]
  | .challenge .. | .getMeasurements .. | .respondIfReady .. => [.regs, .handed, .sec, .platform, .out]
  | .setupLock .. => [.regs, .handed, .platform, .svc, .phase, .out]
  | .regAddr .. | .vstbyApplied .. | .ref100Return .. => [.svc]
  | .mainEnAssert .. => [.time, .regs, .arr, .mem, .vault, .fab, .rings, .faults, .ledger, .handed, .sec, .platform, .svc, .phase, .out]
  | .refLoss .. => [.time, .regs, .serve, .fab, .rings, .faults, .handed, .platform, .svc, .out]
  | .fecAlignmentLoss .. => [.fab, .faults, .out]
  | .arbiterDecision .. => [.regs, .fab, .arb]
  | .msixVectorUnmask .. => [.rings, .out]
  | .recoveryImageReceived .. => [.time, .regs, .arr, .mem, .vault, .fab, .rings, .faults, .handed, .sec, .platform, .svc, .phase, .out]
  | .delayExchange .. => [.time, .fab, .faults, .out]

/-- The command answers a next state of which `P` holds. -/
def Does (c : Instr) (s : State) (P : State → Prop) : Prop := ∃ t, exec c s = .next t ∧ P t

/-- `s` with what recording a change and reporting it to the platform may alter, taken from `t`: the records handed to the ledger unit
or kept in the island (R463, R483), and the platform events (R478). -/
def State.recorded (s t : State) : State :=
  { s with ledger := { s.ledger with held := t.ledger.held }, svc := { s.svc with held := t.svc.held },
           sec := { s.sec with events := t.sec.events }, out := t.out }

/-- `s` with what raising events may alter, taken from `t`: the EQ rings and their interrupts, the count of events that no EQ takes
(R404), and what is sent. -/
def State.reported (s t : State) : State :=
  { s with host := { s.host with rings := t.host.rings, funcs := t.host.funcs }, regs := t.regs, out := t.out }

/-! ### Register writes (R500 to R507) -/

/-- The write reaches its register and passes every check (R500, R506, R507). -/
def State.accepts (s : State) (a : Attempt) : Prop :=
  s.pathUp a.origin = true ∧ (a.origin = 10 → s.reachable a.reg = true) ∧ s.reasonOf a = 0

/-- The value an attempt produces (R501). -/
def State.valueOf (s : State) (a : Attempt) : Nat :=
  match regInfo a.reg with | some i => s.produced a i.access | none => 0

/-! ### Schedule entries (R65, R68) -/

/-- An entry of an instance's schedule is due: it is the first of this beat's that has not fired (R70), and no other instance's
schedule has one with an earlier tick to fire before it. -/
def State.due (s : State) (i : Nat) (payload : Word64) (e : SchedEntry) : Prop :=
  (s.unfired i).head? = some e ∧ e.payload = payload ∧ s.entriesIn (fun j x => j != i && Nat.blt x.tick e.tick) = []

/-! ### Actions of a bead (R87 to R91) -/

/-- The bead's current context is `c`, at its action `a`, with the inputs and credits that R87 asks for. -/
def State.atAction (s : State) (b : BeadId) (c : Context) (a : Act) : Prop :=
  s.currentCtx b = some c ∧ c.act = some a ∧ c.ended = false ∧ c.ready a = true

/-- An action issued: its entries taken, its unit run, its payloads sent, then counter, branch and program counter (R87 to R91). -/
def State.issueAct (s : State) (c : Context) (a : Act) (takes : List (Nat × Nat))
    (run : State → List (Nat × List EdgeEntry) → State × List (Nat × List Word512)) : State :=
  let g := s.dequeueAll c.id takes
  let first := match g.1 with | (_, e :: _) :: _ => e.tag | _ => 0
  let r := run g.2 g.1
  (r.2.foldl (fun s o => s.sendEdge c.id o.1 first o.2) r.1).advance c.id a g.1

/-! ### Fetched host commands (R391, R399) -/

/-- The command is fetched and passes the checks of R399 and of the full ledger (R465). -/
def State.passes (s : State) (c : Cmd) (h : CmdShape) : Prop :=
  let x := s.ring c.sq.val
  s.mayFetch c = true ∧ c.fetchError = false ∧ c.opcode = none ∧ h.allowed x.owner = true ∧
    (h.names = true → 2 ≤ x.owner → (s.inst c.inst.val).owner = x.owner) ∧ cmdFormed c h = true ∧ c.busError = false ∧
    (h.change = true → fromOutside x.owner = true → s.ledgerShut = false)

/-- Opcode, command and shape of a host command (R398); an INSTALL's bus errors concern its image, which its own rule reads. -/
def hostShape : Instr → Option (Nat × Cmd × CmdShape)
  | .install c _ => some (0x30, { c with busError := false }, ⟨onlyPf, false, none, true⟩)
  | .imageDelete c => some (0x31, c, ⟨onlyPf, false, none, true⟩)
  | .adapterBind c _ => some (0x22, c, ⟨pfOrOwner, true, none, true⟩)
  | .adapterUnbind c => some (0x23, c, ⟨pfOrOwner, true, none, true⟩)
  | .instanceCreate c => some (0x01, c, ⟨onlyPf, true, none, true⟩)
  | .activate c _ => some (0x02, c, ⟨pfOrOwner, true, none, true⟩)
  | .configLoad c => some (0x03, c, ⟨onlyPf, true, some c.paramLen.toNat, true⟩)
  | .instanceRestart c => some (0x04, c, ⟨pfOrOwner, true, none, true⟩)
  | .instanceRelease c => some (0x05, c, ⟨onlyPf, true, none, true⟩)
  | .poolSet c => some (0x06, c, ⟨onlyPf, true, none, true⟩)
  | .ownSet c => some (0x07, c, ⟨onlyPf, false, none, true⟩)
  | .tenantSet c => some (0x08, c, ⟨onlyPf, false, none, true⟩)
  | .tableLoad c => some (0x10, c, ⟨onlyPf, true, some c.paramLen.toNat, true⟩)
  | .routeTableLoad c => some (0x11, c, ⟨onlyPf, true, some c.paramLen.toNat, true⟩)
  | .automatonLoad c => some (0x12, c, ⟨onlyPf, true, some c.paramLen.toNat, true⟩)
  | .seqSubmit c _ => some (0x20, c, ⟨pfOrOwner, true, some (128 + 4 * field c.args 8 4), true⟩)
  | .seqCancel c => some (0x21, c, ⟨pfOrOwner, true, none, true⟩)
  | .hint c => some (0x38, c, ⟨onlyPf, false, none, true⟩)
  | .nopCommand c => some (0x3F, c, ⟨pfOrOwner, false, none, false⟩)
  | _ => none

/-- A host command that its ring delivers and that passes every check before its own rule, as the job that this rule takes up. -/
def State.runs (s : State) (i : Instr) (j : Job) : Prop :=
  ∃ op c h, hostShape i = some (op, c, h) ∧ s.passes c h ∧ j = s.jobOf op c

/-! ### Messages of the fabric (R288 to R294, R302, R303) -/

/-- A message of this KIND is delivered: it came in on an admitted port or by the local route, it names this module, its partition and
the module's admission fit, and the kinds of the fabric manager come from it. -/
def State.takes (s : State) (kind : Nat) (m : Msg) : Prop :=
  ((s.port m.port.val).st = .admitted ∨ s.isOwn m.src = true) ∧
  (m.mcast = true ∨ (s.fab.coordValid = true ∧ m.dest.toNat / 8 = s.fab.moduleNo)) ∧
  (m.fm = true ∨ m.part.toNat = s.fab.part) ∧ (s.fab.admitted = true ∨ (m.fm = true ∧ m.vc = 3)) ∧ (fmOnly kind = true → m.fm = true)

/-- The response to a message takes the local route. -/
def State.answersHere (s : State) (m : Msg) : Bool := !m.fm && s.isOwn m.src

/-- The response to a message can leave. -/
def State.answerable (s : State) (m : Msg) : Prop :=
  s.answersHere m = true ∨
    ((s.fab.admitted = true ∨ m.fm = true) ∧ ((s.port m.port.val).st = .admitted ∨ (s.port m.port.val).st = .retrain))

/-- The response to a message: KIND with bit 7 set, back to its source with its tag and offset, a status and a payload. -/
def State.answer (s : State) (kind : Nat) (m : Msg) (status : Nat) (payload : List Byte) : Out :=
  .msg (kind + 0x80) { Msg.blank with
    port := if s.answersHere m then 0 else m.port, vc := if m.fm then 3 else 2, dest := m.src, src := m.dest,
    part := BitVec.ofNat 4 s.fab.part, status := BitVec.ofNat 16 status, tag := m.tag, offset := m.offset,
    length := BitVec.ofNat 32 payload.length, payload := payload }

/-- KIND and message of a command that is a message (R303) or an installation message. -/
def messageOf : Instr → Option (Nat × Msg)
  | .load m _ => some (0x01, m)
  | .store m _ => some (0x02, m)
  | .atomic m _ => some (0x03, m)
  | .bulkPut m _ => some (0x04, m)
  | .bulkGet m _ => some (0x05, m)
  | .response m => some (0x81, m)
  | .coll m => some (0x10, m)
  | .sectionMsg m => some (0x11, m)
  | .replayReq m => some (0x12, m)
  | .handoff m => some (0x18, m)
  | .fmWrite m => some (0x30, m)
  | .fmRead m => some (0x31, m)
  | .jobTeardown m => some (0x32, m)
  | .shardRepair m => some (0x33, m)
  | .catalogueSync m _ => some (0x34, m)
  | .notice m => some (0x38, m)
  | _ => none

/-- A memory request: whether it writes, how many bytes it reads or writes, and whether its fields are as R303 to R306 have them. -/
def memoryRow : Instr → Option (Bool × Nat × Bool)
  | .load m _ => some (false, m.length.toNat,
      m.opt == 0 && decide (1 ≤ m.length.toNat ∧ m.length.toNat ≤ 256) && inOneTile (msgMpa m) m.length.toNat && m.payload.isEmpty)
  | .store m _ => some (true, m.length.toNat,
      m.opt == 0 && decide (1 ≤ m.length.toNat ∧ m.length.toNat ≤ 256) && inOneTile (msgMpa m) m.length.toNat &&
        m.payload.length == m.length.toNat)
  | .atomic m _ =>
    let w := atomicBytes (bits m.opt.toNat 2 3)
    some (true, w, decide (m.opt.toNat < 32 ∧ bits m.opt.toNat 0 2 < 3 ∧ bits m.opt.toNat 2 3 < 5) && msgMpa m % w == 0 &&
      m.length.toNat == (if bits m.opt.toNat 0 2 = 1 then 2 * w else w) && m.payload.length == m.length.toNat)
  | .bulkPut m _ => some (true, m.length.toNat,
      m.opt == 0 && decide (1 ≤ m.length.toNat ∧ m.length.toNat ≤ 65536) && m.payload.length == m.length.toNat)
  | .bulkGet m _ => some (false, m.length.toNat,
      m.opt == 0 && decide (1 ≤ m.length.toNat ∧ m.length.toNat ≤ 65536) && m.payload.isEmpty)
  | _ => none

/-! ### Supplies and boot (R434, R474, R486, R494) -/

/-- The hub has no supply: its time base, registers, array, requests, fabric, arbiters, host interface, power unit and ledger unit stand
as at reset, the setup lock is open, HBM4 is not ready, the vault's map is gone and nothing but the vault, or HBM4 in self-refresh, holds
memory. -/
def State.hubOff (t : State) : Prop :=
  t.time = State.reset.time ∧ t.regs = State.reset.regs ∧ t.arr = State.reset.arr ∧ t.serve = State.reset.serve ∧
    t.fab = State.reset.fab ∧ t.arb = State.reset.arb ∧ t.host = State.reset.host ∧ t.power = State.reset.power ∧
    t.ledger = State.reset.ledger ∧ t.svc.locked = false ∧ t.svc.hbmReady = false ∧ t.vault.mapReady = false ∧
    ∀ c ∈ t.mem.cells, mpaUnit c.1 = 5 ∨ isHbmByte c.1 = true

/-- The module halted: RESET_CAUSE names the cause and the hub is off. -/
def State.haltedBy (t : State) (cause : Nat) : Prop := t.svc.phase = .halted ∧ t.svc.cause = cause ∧ t.hubOff

/-- The boot that starts from `s` has run up to `t`: with an accepted image the firmware set the setup lock, HBM4 is trained and the
ledger unit runs; with none, RECOVERY asks for one. -/
def State.booted (s t : State) : Prop :=
  (∀ image, s.vault.image = some image → s.fwOk image = true →
    t.svc.phase = .setupLocked ∧ t.svc.locked = true ∧ t.svc.hbmReady = true ∧ t.ledger.running = true ∧ t.vault.mapReady = true ∧
      t.sec.svn = field image 8 4 ∧ t.sec.digest = fwDigest image) ∧
  ((∀ image, s.vault.image = some image → s.fwOk image = false) →
    t.svc.phase = .recovery ∧ t.sec.recovery = true ∧ t.ledger.running = true ∧ Out.askImage ∈ t.out)

end Sys2Proof.Machine
end

