-- ==== Sys2Proof/Certificates/Slice0/Obligations.lean ====
section
/-! DEFINITION. The statements for the provers: what every step keeps, what each family of commands does and leaves unchanged, and the
rules that the shared operations follow. A statement that rests on a choice of the model names its log entry. -/

open Sys2Proof Sys2Proof.Machine

/-! ### The block as a whole -/

/-- A command at the front of the queue: the step is exec of it on the queue's rest. -/
def Obligations.StepRunsFront : Prop :=
  ∀ (c : Instr) (rest : List Instr) (s : State), s.pending = c :: rest → step s = exec c { s with pending := rest }

/-- With nothing waiting a tick passes (log 61). Where the hub does not run the state stands. Where it runs the count goes on by one, held
or doubled where the slew counter marks the tick and the correction is not zero, and the entries stamped with the new count fire; past the
last tick of a beat comes its boundary. -/
def Obligations.IdleTick : Prop :=
  ∀ s : State, s.pending = [] → ∃ t, step s = .next t ∧
    (s.hubRuns = false → t = s) ∧
    (s.hubRuns = true →
      (s.time.ctr10 < 1023 → s.time.tick + 1 < s.beatTicks →
        t = ({ s with time := { s.time with ctr10 := s.time.ctr10 + 1, clk := s.time.clk + 1, tick := s.time.tick + 1 } } : State).catchUp) ∧
      (s.time.ctr10 = 1023 → s.time.corr = 0 → s.time.tick + 1 < s.beatTicks →
        t = ({ s with time := { s.time with ctr10 := 0, clk := s.time.clk + 1, tick := s.time.tick + 1 } } : State).catchUp) ∧
      (s.time.ctr10 = 1023 → 0 < s.time.corr →
        t = { s with time := { s.time with ctr10 := 0, corr := s.time.corr - 1 } }) ∧
      (s.time.ctr10 = 1023 → s.time.corr < 0 → s.time.tick + 2 < s.beatTicks →
        t = ({ s with time := { s.time with ctr10 := 0, corr := s.time.corr + 1, clk := s.time.clk + 2, tick := s.time.tick + 2 } }
          : State).catchUp) ∧
      ((s.time.ctr10 < 1023 ∨ s.time.corr = 0) → s.beatTicks ≤ s.time.tick + 1 → t = s.watched State.boundary))

/-- Every command answers a next state, and so does every step: an error of the module stops nothing (R13, R14). No command touches the
queue of waiting commands, what has left the module is not recalled, and no word spells a command, since the table gives no row any bits
(log 60). Events of one stamp join the queue in the order of their sources, each source's in the order in which they came (R48). Where the
spec leaves a detail open it rests on the model's choices of logs 43 and 99. -/
def Obligations.EveryCommandAnswers : Prop :=
  ((∀ (c : Instr) (s : State), ∃ t, exec c s = .next t) ∧ ∀ s : State, ∃ t, step s = .next t) ∧
  (∀ (c : Instr) (s t : State), exec c s = .next t → t.pending = s.pending ∧ s.out <+: t.out) ∧
  (∀ (s : State) (nbits w : Nat), decodeTableWord nbits w = none ∧ s.withFetchWord nbits w = s) ∧
  (∀ (s : State) (cs : List Instr), ∃ ds, s.present cs = { s with pending := s.pending ++ ds } ∧ ds.Perm cs ∧
    ds.Pairwise (fun c d => sourceRank c ≤ sourceRank d) ∧
    ∀ k, ds.filter (fun c => sourceRank c == k) = cs.filter fun c => sourceRank c == k)

/-- The frame of every command: nothing differs but the parts that it may change (`touches`), and the queue stands. Where the spec leaves
a detail open it rests on the model's choice of log 42. -/
def Obligations.CommandFrames : Prop :=
  ∀ (c : Instr) (s t : State), exec c s = .next t → Only (touches c) s t

/-- Every step keeps the memory's canonical form. -/
def Obligations.StepKeepsMemory : Prop :=
  ∀ s t : State, s.memOk → step s = .next t → t.memOk

/-- Every step keeps the number of instances, ports, channels and functions. -/
def Obligations.StepKeepsShape : Prop :=
  ∀ s t : State, s.shape → step s = .next t → t.shape

/-- Memory is in canonical form at reset, the fixed lists have their lengths, nothing waits, and the setup registers hold the values their
tables give. Where the spec leaves a detail open it rests on the model's choices of logs 5, 6 and 101. -/
def Obligations.ResetOk : Prop :=
  State.reset.memOk ∧ State.reset.shape ∧ State.reset.pending = [] ∧
    (∀ o v, (o, v) ∈ [(0x20018, 0x32), (0x40008, 0x2710), (0x40018, 0x960), (0x40020, 0x8888), (0x40038, 0x46145F), (0x40040, 0x4028),
        (0x60010, 0x010080809C41), (0x100000, 0x3F), (0x110000, 0x3F), (0x120000, 0x3F), (0x130000, 0x3F), (0x10000, 0), (0x10020, 0),
        (0x20000, 0), (0x30000, 0), (0x30010, 0), (0x40000, 0), (0x50000, 0x00134567), (0x50008, 0x01323455), (0x50010, 0x00002356),
        (0x50018, 0x03244566), (0x70008, 0), (0x70010, 1)] → State.reset.readReg .pcie o = v)

/-- The one-way counters: whatever the module does, the fused SVN never falls, and BLOCKS, the counter of reserved identity leaves, can
only be incremented. -/
def Obligations.MonotoneCounters : Prop :=
  (∀ s t : State, step s = .next t → s.sec.fusedSvn ≤ t.sec.fusedSvn) ∧
  (∀ s t : State, step s = .next t → s.sec.blocks ≤ t.sec.blocks)

/-! ### Register writes (20) -/

/-- The checks of a register write in their order, the first that fails giving the reason; what a refused write sets, counts and records
while the security engine answers, with the exceptions of a full ledger; the fields of REFUSED_LAST; the phase check before all others.
That a locked map refuses origins 0x0 and 0x1 with ACCESS before the check of origins is the model's reading (log 122). -/
def Obligations.WriteChecks : Prop :=
  (∀ (s : State) (a : Attempt),
     ((a.size ≠ 4 ∧ a.size ≠ 8 ∨ a.off % a.size ≠ 0) → s.reasonOf a = reasonSIZE) ∧
     ((a.size = 4 ∨ a.size = 8) → a.off % a.size = 0 →
       ((a.outside = true ∨ regInfo a.reg = none) → s.reasonOf a = reasonADDRESS) ∧
       ∀ i, a.outside = false → regInfo a.reg = some i →
         ((i.access = .lk ∧ s.svc.locked = true ∧ a.origin ≤ 1) → s.reasonOf a = reasonACCESS) ∧
         (¬ (i.access = .lk ∧ s.svc.locked = true ∧ a.origin ≤ 1) → s.originMay i a.origin a.reg = false →
           s.reasonOf a = reasonORIGIN) ∧
         (¬ (i.access = .lk ∧ s.svc.locked = true ∧ a.origin ≤ 1) → s.originMay i a.origin a.reg = true →
           (i.access = .ro → s.reasonOf a = reasonACCESS) ∧
           (i.access ≠ .ro →
             (s.encodingOk a.reg (s.produced a i.access) = false → s.reasonOf a = reasonENCODING) ∧
             (s.encodingOk a.reg (s.produced a i.access) = true →
               (s.stateOk a.reg (s.produced a i.access) = false → s.reasonOf a = reasonSTATE) ∧
               (s.stateOk a.reg (s.produced a i.access) = true →
                 ((s.ledgerShut = true ∧ fromOutside a.origin = true ∧ ledgerExempt a.origin a.reg = false) →
                   s.reasonOf a = reasonLEDGER) ∧
                 (¬ (s.ledgerShut = true ∧ fromOutside a.origin = true ∧ ledgerExempt a.origin a.reg = false) →
                   s.reasonOf a = 0))))))) ∧
  (∀ (s : State) (a : Attempt) (r : Nat), s.answers = true →
     let t := s.refuseWrite a r
     Only [.regs, .handed] s t ∧ t.reg 0x10008 = 1 ∧ t.reg 0x10018 = refusedWord a r ∧
     t.reg 0x10010 = (if r = reasonLEDGER then s.reg 0x10010 else min (s.reg 0x10010 + 1) 0xFFFFFFFF) ∧
     t.reg 0x70050 = (if r = reasonLEDGER then min (s.reg 0x70050 + 1) 0xFFFFFFFF else s.reg 0x70050) ∧
     (∀ o, o ≠ 0x10008 → o ≠ 0x10018 → o ≠ 0x10010 → o ≠ 0x70050 → t.reg o = s.reg o) ∧
     ((r = reasonLEDGER ∨ (s.ledgerShut = true ∧ fromOutside a.origin = true)) → t.ledger.held = s.ledger.held ∧ t.svc.held = s.svc.held) ∧
     (r ≠ reasonLEDGER → (s.ledgerShut = false ∨ fromOutside a.origin = false) → s.ledger.running = true →
       ∃ h : Held, t.ledger.held = enterHeld h s.ledger.held ∧ h.refused = true ∧ h.origin = a.origin ∧ h.object = objReg a.reg ∧
         h.old = h.new ∧ h.stamp = s.now ∧ h.due = s.time.clk + 1000)) ∧
  (∀ (a : Attempt) (r : Nat), a.origin < 16 → r < 16 →
     bits (refusedWord a r) 0 24 = a.off % 2 ^ 24 ∧ bits (refusedWord a r) 24 4 = a.origin ∧ bits (refusedWord a r) 28 4 = r) ∧
  (∀ (s : State) (origin : Origin) (offset : BitVec 24) (size : Nat) (value : Word64),
     let a : Attempt := ⟨origin.code, offset.toNat, size, value.toNat, false⟩
     (s.pathUp a.origin = false → exec (.registerWrite origin offset size value) s = .next s) ∧
     (s.pathUp a.origin = true → a.origin = 10 → s.reachable a.reg = false →
       exec (.registerWrite origin offset size value) s = .next (s.refuseWrite a reasonNOT_READY)))

/-- A write of any register by its offset: accepted, it is recorded and takes effect; refused, only the refusal is noted; on a path that
does not reach the module, nothing happens. While the island alone is powered it latches and counts the refusal. Where the spec leaves a
detail open it rests on the model's choice of log 19. -/
def Obligations.RegisterWrite : Prop :=
  (∀ (s : State) (origin : Origin) (offset : BitVec 24) (size : Nat) (value : Word64),
     let a : Attempt := ⟨origin.code, offset.toNat, size, value.toNat, false⟩
     (s.accepts a → Does (.registerWrite origin offset size value) s fun t =>
       ∃ i, regInfo a.reg = some i ∧ t = (s.acceptWrite a i Extra.none).sensorEvents s) ∧
     (s.pathUp a.origin = true → (a.origin = 10 → s.reachable a.reg = true) → s.reasonOf a ≠ 0 →
       Does (.registerWrite origin offset size value) s fun t => t = (s.refuseWrite a (s.reasonOf a)).sensorEvents s) ∧
     (s.pathUp a.origin = true → a.origin = 10 → s.reachable a.reg = false →
       Does (.registerWrite origin offset size value) s fun t => t = (s.refuseWrite a reasonNOT_READY).sensorEvents s) ∧
     (s.pathUp a.origin = false → Does (.registerWrite origin offset size value) s fun t => t = s)) ∧
  (∀ (s : State) (a : Attempt) (r : Nat), s.answers = false →
     s.refuseWrite a r = { s with svc := { s.svc with refusedLast := BitVec.ofNat 64 (refusedWord a r),
                                                      refusedCount := min (s.svc.refusedCount + 1) 0xFFFFFFFF } })

/-- The class registers are shadows: a write changes the shadow of its register alone and a read returns it; class 7 for another
requester than SLOT, and a value for an unused index, are refused. -/
def Obligations.ClassShadows : Prop :=
  ∀ (s : State) (origin : Origin) (offset : BitVec 24) (size : Nat) (value : Word64) (j : Nat), j < 4 →
    let a : Attempt := ⟨origin.code, offset.toNat, size, value.toNat, false⟩
    let used := nth 0 [6, 7, 5, 8] j
    a.reg = 0x50000 + 8 * j →
      s.readReg .pcie a.reg = nth 0 s.arb.shadow j ∧
      (s.arb.shadow.length = 4 → s.accepts a → Does (.registerWrite origin offset size value) s fun t =>
        t.arb = { s.arb with shadow := t.arb.shadow } ∧ Only [.arb] s t ∧ (∀ k, k ≠ j → nth 0 t.arb.shadow k = nth 0 s.arb.shadow k) ∧
        ∀ i, i < 8 → bits (nth 0 t.arb.shadow j) (4 * i) 3 = if j = 0 ∧ i = 0 then 7 else bits (s.valueOf a) (4 * i) 3) ∧
      (∀ i, i < 8 → ((i < used ∧ ¬ (j = 0 ∧ i = 0) ∧ bits (s.valueOf a) (4 * i) 3 = 7) ∨ (used ≤ i ∧ bits (s.valueOf a) (4 * i) 3 ≠ 0)) →
        s.reasonOf a ≠ 0)

/-- Accepted writes of the time base block: the role, the period, the takeover. -/
def Obligations.TimeWrites : Prop :=
  ∀ (s : State) (w : RegWr) (origin : Origin) (beat : BitVec 48),
    (s.accepts (rowAttempt w 0x20000 0 0) → Does (.beatRole w) s fun t =>
      let v := s.valueOf (rowAttempt w 0x20000 0 0)
      (v % 4 = 1 → t.time.role = .slave ∧ t.time.st = .acquire) ∧
      (v % 4 = 2 → t.time.role = .master ∧ t.time.st = .unlocked ∧ t.time.masterStart = some (s.time.clk + 1000)) ∧
      (v % 4 = 0 → t.time.role = .none ∧ t.time.st = .unlocked) ∧ t.time.takeover = none ∧
      Only [.time, .serve, .fab, .rings, .regs, .handed, .platform, .out] s t) ∧
    (s.accepts (rowAttempt w 0x20018 0 0) → Does (.beatPeriod w) s fun t =>
      let v := s.valueOf (rowAttempt w 0x20018 0 0)
      t.time = { s.time with
        pendPeriod := if bits v 0 11 = s.time.period then none else some (bits v 0 11, bits v 16 48) } ∧
      Only [.time, .regs, .handed, .platform, .out] s t ∧ ∀ o, o ≠ 0x20018 → t.reg o = s.reg o) ∧
    (s.accepts ⟨origin.code, 0x20020, 8, beat.toNat + 1 * 2 ^ 48, false⟩ → Does (.takeoverMaster origin beat) s fun t =>
      t.time = { s.time with takeover := some ⟨true, beat.toNat⟩ } ∧ Only [.time, .handed, .platform, .out] s t) ∧
    (s.accepts ⟨origin.code, 0x20020, 8, beat.toNat + 2 * 2 ^ 48, false⟩ → Does (.takeoverRelinquish origin beat) s fun t =>
      t.time = { s.time with takeover := some ⟨false, beat.toNat⟩ } ∧ Only [.time, .handed, .platform, .out] s t)

/-- Accepted writes of the Thaxa block: the coordinates, the admission, the spare map, a port's enable, a port's fence. Where the spec
leaves a detail open it rests on the model's choice of log 15. -/
def Obligations.ThaxaWrites : Prop :=
  ∀ (s : State) (w : RegWr) (port : Fin 9),
    (s.accepts (rowAttempt w 0x30000 0 0) → Does (.coord w) s fun t =>
      let v := s.valueOf (rowAttempt w 0x30000 0 0)
      t.fab = { s.fab with part := bits v 0 4, row := bits v 4 4, col := bits v 8 3, coordValid := bit v 11 } ∧
      Only [.fab, .handed, .platform, .out] s t) ∧
    (s.accepts (rowAttempt w 0x30010 0 0) → Does (.fabricAdmit w) s fun t =>
      let v := s.valueOf (rowAttempt w 0x30010 0 0)
      t.fab = { s.fab with admitted := bit v 0 } ∧
      (s.fab.admitted = true → bit v 0 = false → t.serve = { s.serve with steps := t.serve.steps } ∧ ∀ r ∈ t.serve.steps, r.fail.isSome) ∧
      (s.fab.admitted = false → bit v 0 = true →
        t.serve = { s.serve with insts := s.serve.insts.map fun x => { x with fired := (s.time.tick + 1, 0) } }) ∧
      (s.fab.admitted = bit v 0 → t.serve = s.serve) ∧ Only [.fab, .serve, .handed, .platform, .out] s t) ∧
    (s.accepts (rowAttempt w 0x30028 1 0) → bit (s.valueOf (rowAttempt w 0x30028 1 0)) 0 = true → Does (.thaxaCommit w) s fun t =>
      t.fab = { s.fab with sparePend := some (s.fab.spareShadow, s.fab.spareBeatShadow) } ∧ Only [.fab, .handed, .platform, .out] s t) ∧
    (s.accepts (rowAttempt w (rPort port.val 0) 0 0) → s.shape → Does (.portCfg port w) s fun t =>
      let v := s.valueOf (rowAttempt w (rPort port.val 0) 0 0)
      (t.port port.val).enable = bit v 0 ∧ (t.port port.val).rate = bit v 1 ∧ (t.port port.val).fallback = bit v 2 ∧
      (bit v 0 = false → (t.port port.val).st = .down ∧ (t.port port.val).replay = []) ∧
      (∀ k, k ≠ port.val → t.port k = s.port k) ∧ Only [.fab, .handed, .platform, .out] s t) ∧
    (s.accepts (rowAttempt w (rPort port.val 0x40) 1 0) → bit (s.valueOf (rowAttempt w (rPort port.val 0x40) 1 0)) 0 = true →
      Does (.portFenceClear port w) s fun t =>
        let m := putBit s.faults.fencePort port.val false
        t.faults = { s.faults with fencePort := m } ∧
        t.vault = { s.vault with storedFences := putKey s.vault.storedFences 0x10030 m } ∧
        Only [.faults, .vault, .handed, .platform, .out] s t)

/-- Accepted writes of the arbitration, ledger and power blocks: the class set that becomes active 128 ticks later, the acknowledgement,
the mirror switch, the fused SVN, the cap with its lease, its renewal, the steelyard's settings. A lease that has come to its end by the
tick of a write ends before it. Where the spec leaves a detail open it rests on the model's choices of logs 10 and 72. -/
def Obligations.UnitWrites : Prop :=
  (∀ (s : State) (w : RegWr),
     (s.accepts (rowAttempt w 0x50020 1 0) → bit (s.valueOf (rowAttempt w 0x50020 1 0)) 0 = true → Does (.arbCommit w) s fun t =>
       t.arb = { s.arb with pend := some (s.arb.shadow, s.time.clk + 128, w.origin.code) } ∧ Only [.arb, .handed, .platform, .out] s t) ∧
     (∀ set due origin, s.arb.pend = some (set, due, origin) →
       (s.fallsDue due = true → Does .arbSetActivation s fun t =>
         t.arb = { s.arb with active := set, pend := none } ∧ t.time = (s.runTo due).time ∧ Only [.arb, .time, .handed] s t) ∧
       (s.fallsDue due = false → exec .arbSetActivation s = .next s))) ∧
  (∀ (s : State) (w : RegWr),
     (s.accepts (rowAttempt w 0x70008 0 0) → Does (.ledgerAck w) s fun t =>
       t.ledger.ack = bits (s.valueOf (rowAttempt w 0x70008 0 0)) 0 48 ∧ t.ledger.ring = s.ledger.ring ∧
       t.ledger.head = s.ledger.head ∧ t.ledger.mirrorEn = s.ledger.mirrorEn ∧
       (t.ledger.low ↔ 258048 ≤ t.ledger.unacked) ∧ (t.ledger.full ↔ 262144 ≤ t.ledger.unacked ∨ (t.ledger.low ∧ s.ledger.full)) ∧
       Only [.ledger, .handed, .platform, .out] s t) ∧
     (s.accepts (rowAttempt w 0x70010 0 0) → Does (.ledgerCfg w) s fun t =>
       t.ledger.mirrorEn = bit (s.valueOf (rowAttempt w 0x70010 0 0)) 0 ∧ t.ledger.ring = s.ledger.ring ∧ t.ledger.head = s.ledger.head ∧
       (t.ledger.mirrorEn = false → t.ledger.low = false ∧ t.ledger.full = false) ∧ Only [.ledger, .handed, .platform, .out] s t) ∧
     (s.accepts (rowAttempt w 0x70048 1 0) → bit (s.valueOf (rowAttempt w 0x70048 1 0)) 0 = true → Does (.fwSvnCommit w) s fun t =>
       t.sec.fusedSvn = max s.sec.fusedSvn s.sec.svn ∧ t.sec = { s.sec with fusedSvn := t.sec.fusedSvn, events := t.sec.events } ∧
       Only [.sec, .handed, .platform, .out] s t)) ∧
  (∀ (s : State) (w : RegWr),
     (s.accepts (rowAttempt w 0x40000 0 0) → Does (.cap w) s fun t =>
       t.power.capWatts = bits (s.valueOf (rowAttempt w 0x40000 0 0)) 0 16 ∧ t.power.capValid = true ∧ t.power.fallback = false ∧
       t.power.lease = some (s.time.clk + s.reg 0x40008 * 1000000) ∧
       ((∀ due, s.power.lease = some due → s.time.clk < due) →
         t.power = { s.noteCap.power with capWatts := t.power.capWatts, capValid := true, fallback := false, lease := t.power.lease } ∧
         Only [.power, .handed, .platform, .out] s t)) ∧
     (s.accepts (rowAttempt w 0x40010 1 0) → bit (s.valueOf (rowAttempt w 0x40010 1 0)) 0 = true → Does (.capRenew w) s fun t =>
       t.power.lease = some (s.time.clk + s.reg 0x40008 * 1000000) ∧ t.power.capWatts = s.power.capWatts ∧
       t.power.capValid = s.power.capValid ∧
       (∀ due, s.power.lease = some due → due ≤ s.time.clk → s.time.tick < s.beatTicks → t.power.fallback = true) ∧
       ((∀ due, s.power.lease = some due → s.time.clk < due) →
         t.power = { s.power with lease := t.power.lease } ∧ Only [.power, .handed, .platform, .out] s t)) ∧
     (s.accepts (rowAttempt w 0x40028 0 0) → Does (.steelyardCfg w) s fun t =>
       let v := s.valueOf (rowAttempt w 0x40028 0 0)
       let u := bits v 0 15 + bits v 16 21 * 2 ^ 16
       t.reg 0x40028 = (if bit u 0 && !(bit (s.reg 0x40028) 0) && bits u 16 21 = 0 then putBits u 16 21 5000 else u) ∧
       Only [.regs, .handed, .platform, .out] s t ∧ ∀ o, o ≠ 0x40028 → t.reg o = s.reg o))

/-- Accepted writes of a ring's configuration and of a DMA channel's control: a ring set up afresh or disabled, a channel that reads the
descriptor at its head or stops, the end of a bus error; no other ring or channel changes. Where the spec leaves a detail open it rests on
the model's choice of log 11. -/
def Obligations.HostWrites : Prop :=
  (∀ (s : State) (w : RegWr) (ring : Fin 1104),
     (s.accepts (rowAttempt w (0x200010 + ring.val * 0x40) 1 0) → bit (s.valueOf (rowAttempt w (0x200010 + ring.val * 0x40) 1 0)) 0 = true →
       Does (.ringEnable ring w) s fun t =>
         let v := s.valueOf (rowAttempt w (0x200010 + ring.val * 0x40) 1 0)
         (t.ring ring.val).enable = true ∧ (t.ring ring.val).sizeLog = bits v 1 5 ∧
         (t.ring ring.val).cq = (if ring.val < 512 then bits v 6 9 else 0) ∧
         ((s.ring ring.val).enable = false → (t.ring ring.val).st = 1 ∧ (t.ring ring.val).head = 0 ∧ (t.ring ring.val).tail = 0 ∧
           (t.ring ring.val).used = 0 ∧ (t.ring ring.val).phase = true ∧ (t.ring ring.val).err = 0) ∧
         (∀ k, k ≠ ring.val → t.ring k = s.ring k) ∧ Only [.rings, .handed, .platform, .out] s t) ∧
     (s.accepts (rowAttempt w (0x200010 + ring.val * 0x40) 0 1) → bit (s.valueOf (rowAttempt w (0x200010 + ring.val * 0x40) 0 1)) 0 = false →
       Does (.ringDisable ring w) s fun t =>
         (t.ring ring.val).enable = false ∧ (t.ring ring.val).st = 0 ∧ (t.ring ring.val).err = 0 ∧ (t.ring ring.val).timer = none ∧
         (t.ring ring.val).base = (s.ring ring.val).base ∧ (t.ring ring.val).owner = (s.ring ring.val).owner ∧
         (∀ k, k ≠ ring.val → t.ring k = s.ring k) ∧ Only [.rings, .handed, .platform, .out] s t)) ∧
  (∀ (s : State) (w : RegWr) (chan : Fin 32) (fetched : Word512), s.shape →
     (s.accepts (rowAttempt w (0xC0010 + chan.val * 0x40) 1 0) → bit (s.valueOf (rowAttempt w (0xC0010 + chan.val * 0x40) 1 0)) 0 = true →
       s.chanRests chan.val = true → Does (.chanStart chan w fetched) s fun t =>
         let d := descOf fetched
         (d.own = false → t.chan chan.val = { s.chan chan.val with st := .waiting, desc := none }) ∧
         (d.own = true → d.ok = true → t.chan chan.val = { s.chan chan.val with st := .run, desc := some fetched, waited := false }) ∧
         (d.own = true → d.ok = false → (t.chan chan.val).st = .stopped ∧ (t.chan chan.val).status = stINVALID_FIELD ∧
           (t.chan chan.val).head = d.next) ∧
         (∀ k, k ≠ chan.val → t.chan k = s.chan k) ∧ Only [.chans, .rings, .handed, .platform, .out] s t) ∧
     (s.accepts (rowAttempt w (0xC0010 + chan.val * 0x40) 2 0) → bit (s.valueOf (rowAttempt w (0xC0010 + chan.val * 0x40) 2 0)) 1 = true →
       Does (.chanStop chan w) s fun t =>
         ((s.chan chan.val).st = .fetch ∨ (s.chan chan.val).st = .waiting → (t.chan chan.val).st = .stopped) ∧
         ((s.chan chan.val).st = .run ∨ (s.chan chan.val).st = .writeback →
           (t.chan chan.val).stopPending = true ∧ (t.chan chan.val).st = (s.chan chan.val).st) ∧
         (s.chanRests chan.val = true ∨ (s.chan chan.val).st = .error → t.chan chan.val = s.chan chan.val) ∧
         (∀ k, k ≠ chan.val → t.chan k = s.chan k) ∧ Only [.chans, .handed, .platform, .out] s t) ∧
     (s.accepts (rowAttempt w 0xC0800 1 0) → bit (s.valueOf (rowAttempt w 0xC0800 1 0)) 0 = true → Does (.busErrorClear w) s fun t =>
       t.host.busError = false ∧
       (∀ k, k < 32 → (s.chan k).st = .error → (t.chan k).st = if k = 31 then .idle else .stopped) ∧
       (∀ k, k < 32 → (s.chan k).st ≠ .error → t.chan k = s.chan k) ∧ Only [.chans, .handed, .platform, .out] s t))

/-- A stop of a DMA channel takes effect at a descriptor boundary: pending in RUN until the write-back, at once in FETCH and WAIT with
the fetched descriptor unstarted, and without effect at rest. -/
def Obligations.StopAtBoundary : Prop :=
  ∀ (s : State) (w : RegWr) (chan : Fin 32) (hostData : List Byte) (fetched : Word512), s.shape →
    let x := s.chan chan.val
    let a := rowAttempt w (0xC0010 + chan.val * 0x40) 2 0
    (s.accepts a → bit (s.valueOf a) 1 = true →
      (x.st = .run → Does (.chanStop chan w) s fun t => t.chan chan.val = { x with stopPending := true }) ∧
      ((x.st = .fetch ∨ x.st = .waiting) → Does (.chanStop chan w) s fun t => (t.chan chan.val).st = .stopped ∧
        (t.chan chan.val).head = x.head ∧ t.out = s.out ∧ t.mem = s.mem) ∧
      ((x.st = .idle ∨ x.st = .stopped) → Does (.chanStop chan w) s fun t => t.chan chan.val = x)) ∧
    (∀ w reads, x.st = .run → x.desc = some w → x.stopPending = true →
      (s.dmaStatus x.owner (descOf w) = stOK →
        s.hubWaits ((descOf w).out || merges (descOf w).dst (descOf w).len) (descOf w).mpa (descOf w).len = false) →
      Does (.dmaCopyDone chan hostData reads fetched) s fun t =>
        (t.chan chan.val).st = .stopped ∧ (t.chan chan.val).head = (descOf w).next ∧ Out.host (x.head.toNat + 63) [0] ∈ t.out)

/-- Accepted writes of the fault block and of the setup lock: a requested run, the clearing of DEGRADED and of fences, the clearing of a
frame's fence, and the lock that ends boot in SETUP_LOCKED. Where the spec leaves a detail open it rests on the model's choices of logs
12, 15 and 64. -/
def Obligations.FaultWrites : Prop :=
  (∀ (s : State) (w : RegWr) (die : Fin 4),
     (∀ run u, s.accepts (rowAttempt w 0x60018 0 0) → proveTarget (s.valueOf (rowAttempt w 0x60018 0 0)) = some (run, u) →
       Does (.proveRequest w) s fun t =>
         Only [.faults, .fab, .handed, .platform, .out] s t ∧
         ((∃ r ∈ s.faults.runs, r.unit = u ∧ r.region = 0) → t.faults.runs.length = s.faults.runs.length) ∧
         ((∀ r ∈ s.faults.runs, r.unit ≠ u ∨ r.region ≠ 0) →
           ∃ r : Run, t.faults.runs = s.faults.runs ++ [r] ∧ r.unit = u ∧ r.run = run ∧ r.started = none ∧ r.first = s.now)) ∧
     (s.accepts (rowAttempt w 0x60008 1 0) → bit (s.valueOf (rowAttempt w 0x60008 1 0)) 0 = true → Does (.faultClear w) s fun t =>
       ∃ u : State, t = u.routesOpen.sensorEvents s ∧
         u.faults = { s.faults with status := u.faults.status, fenceBridge := 0, fenceCs := 0, fenceStack := [] } ∧
         bit u.faults.status 0 = false ∧ (∀ p ∈ u.vault.storedFences, p.1 = 0x10030) ∧
         u.vault = { s.vault with storedFences := u.vault.storedFences } ∧ u.fab = { s.fab with routeDue := u.fab.routeDue } ∧
         Only [.faults, .vault, .fab, .handed] s u) ∧
     (s.accepts (rowAttempt w (rFrame die.val 8) 1 0) → bit (s.valueOf (rowAttempt w (rFrame die.val 8) 1 0)) 0 = true →
       Does (.fenceClear die w) s fun t =>
         t.reg (rFrame die.val 0) = 0x3F ∧ (∀ o, o ≠ rFrame die.val 0 → t.reg o = s.reg o) ∧
         (∀ p, p ∈ t.faults.dead ↔ p ∈ s.faults.dead ∧ p.1 ≠ die.val) ∧
         t.vault = { s.vault with storedRods := setNth s.vault.storedRods die.val 0x3F, storedDead := t.faults.dead } ∧
         (∀ p, p ∈ t.faults.remaps ↔ p ∈ s.faults.remaps ∧ p.1 ≠ die.val) ∧
         (bit (s.rodMap die.val) 7 = false → t.arr = s.arr ∧ t.mem = s.mem) ∧
         (bit (s.rodMap die.val) 7 = true → ∃ u : State, u = s.unmapRod die.val (bits (s.rodMap die.val) 0 6) ∧ t.arr = u.arr ∧ t.mem = u.mem) ∧
         Only [.regs, .arr, .mem, .faults, .vault, .handed, .platform, .out] s t)) ∧
  (∀ (s : State) (w : RegWr), s.accepts (rowAttempt w 0x10000 1 0) → bit (s.valueOf (rowAttempt w 0x10000 1 0)) 0 = true →
     Does (.setupLock w) s fun t =>
       t.svc = { s.svc with locked := true, held := t.svc.held, phase := if s.svc.phase = .boot then .setupLocked else s.svc.phase } ∧
       Only [.svc, .phase, .handed, .platform, .out] s t)

/-- Reads: TIME_BEAT latches the tick, EPOCH and LOCKED of its path, a read before the setup lock returns zero, REG_ADDR names the
register that REG_READ reads, and the fabric manager's accesses answer with their status and value. Where the spec leaves a detail open it
rests on the model's choice of log 19. -/
def Obligations.RegisterReads : Prop :=
  ∀ (s : State) (path : Path) (offset : BitVec 24) (length : Nat) (m : Msg),
    (s.reachable 0x20030 = true → Does (.timeBeatRead path) s fun t =>
      t.time = s.time.setLatch path ⟨s.time.tick, s.time.epoch, s.time.st == .locked⟩ ∧
      t.out = s.out ++ [.data path (BitVec.ofNat 64 s.time.beat) 8] ∧ Only [.time, .out] s t) ∧
    (s.reachable 0x20030 = false → exec (.timeBeatRead path) s = .next (s.emit (.data path 0 8))) ∧
    (s.svc.island = true → exec (.regAddr offset length) s =
      .next { s with svc := { s.svc with regAddr := some (offset.toNat, length) } }) ∧
    (s.svc.island = false → exec (.regAddr offset length) s = .next s ∧ exec .regRead s = .next s) ∧
    (∀ o n, s.svc.island = true → s.svc.regAddr = some (o, n) → Does .regRead s fun t =>
      t.out = s.out ++ [.data .i3c (BitVec.ofNat 64 (s.readPath .i3c 10 o n)) n] ∧ Only [.time, .out] s t ∧
      (o / 8 * 8 ≠ 0x20030 → t.time = s.time)) ∧
    (s.answers = true → s.takes 0x31 m → m.payload = [] → fmOffset m % 8 = 0 → fmOutside m = false → regInfo (fmOffset m) ≠ none →
      s.answerable m → Does (.fmRead m) s fun t =>
        t.out = s.out ++ [s.answer 0x31 m stOK (leBytes 8 (s.readPath .thaxa 11 (fmOffset m) 8))] ∧ Only [.time, .out] s t) ∧
    (s.answers = true → s.takes 0x30 m → m.payload.length = 8 → fmOffset m % 8 = 0 → fmOutside m = false →
      let a : Attempt := ⟨11, fmOffset m, 8, leNat m.payload, false⟩
      (s.reasonOf a ≠ 0 → s.answerable m → Does (.fmWrite m) s fun t =>
        t.reg 0x10018 = refusedWord a (s.reasonOf a) ∧
        t.out = s.out ++ [s.answer 0x30 m (fmStatus (s.reasonOf a)) []] ∧ Only [.regs, .handed, .out] s t) ∧
      (s.accepts a → Does (.fmWrite m) s fun t =>
        ∃ i, regInfo a.reg = some i ∧ t = ((s.acceptWrite a i Extra.none).respond 0x30 m stOK []).sensorEvents s))

/-! ### The ledger and the security engine (18) -/

/-- A record of a change joins those handed over, in the order of stamps and sources, with the stamp, the origin, the object and both
values, due 1,000 ticks later, or waits in the island while the ledger unit is off. The next record is appended when it is due: SEQ one
after the last, its stamp and object as handed over, the digests of both values, and the chain over the record before it; the ring takes
it as its newest, and a checkpoint follows the 65,536th. A checkpoint digests the record before it and its own first bytes, and its
signing begins. With nothing handed over, nothing due in the running beat, or the ledger unit off, nothing is appended. Where the spec leaves a detail open it rests
on the model's choices of logs 55 and 56. -/
def Obligations.LedgerAppend : Prop :=
  (∀ (s : State) (origin obj : Nat) (old new : List Byte),
     let t := s.hand origin obj old new
     let h : Held := { due := s.time.clk + 1000, stamp := s.now, origin := origin, refused := false, boot := false, object := obj,
                       old := old, new := new, cq := none }
     Only [.handed] s t ∧ (s.ledger.running = true → t.ledger.held = enterHeld h s.ledger.held ∧ t.svc.held = s.svc.held) ∧
     (s.ledger.running = false → t.svc.held = s.svc.held ++ [h] ∧ t.ledger.held = s.ledger.held)) ∧
  (∀ (s : State) (h : Held) (rest : List Held), s.ledger.running = true → s.ledger.held = h :: rest → s.fallsDue h.due = true →
     Does .ledgerAppend s fun t =>
       t.time = (s.runTo h.due).time ∧
       ∃ r : LedgerRec, r.seq = s.ledger.head + 1 ∧ r.stamp = h.stamp ∧ r.origin = h.origin ∧ r.refused = h.refused ∧ r.object = h.object ∧
         r.chain = shake256 16 (s.lastBytes ++ slice { r with chain := [] }.bytes 0 48) ∧
         t.ledger.ring = (r :: s.ledger.ring).take 262144 ∧ t.ledger.head = r.seq ∧
         (h.isCkpt = false → r.oldDigest = shake256 12 h.old ∧ r.newDigest = shake256 12 h.new ∧ t.ledger.since = s.ledger.since + 1 ∧
           (s.ledger.since + 1 < 65536 → t.ledger.held = rest) ∧ (65536 ≤ s.ledger.since + 1 → ∃ k ∈ t.ledger.held, k.isCkpt = true)) ∧
         (h.isCkpt = true → r.newDigest = shake256 12 (slice { r with newDigest := [], chain := [] }.bytes 0 36) ∧
           r.oldDigest = shake256 12 (match s.ledger.lastCkpt with | some c => c.bytes | none => []) ∧ t.ledger.lastCkpt = some r ∧
           t.ledger.since = 0 ∧ t.ledger.held = rest ∧
           (s.sec.exhausted = false → t.ledger.signing = s.ledger.signing ++ [r]) ∧
           (s.sec.exhausted = true → t.ledger.signing = s.ledger.signing))) ∧
  (∀ s : State, (s.ledger.held = [] ∨ s.ledger.running = false ∨ (∀ h ∈ s.ledger.held.head?, s.fallsDue h.due = false)) →
     exec .ledgerAppend s = .next s)

/-- Checkpoints and leaves: a second after the last, with at least one record since, a checkpoint record of the device is handed over with
the leaf that will sign it, unless one waits already; its signature, once made, is kept as the newest of the store, pushed, written to its
slot, and stored in the vault by a journal record; an identity leaf is taken once, and no leaf of a key that is exhausted. Where the spec leaves a detail open it rests on the model's choice of log 62. -/
def Obligations.Checkpoints : Prop :=
  (∀ s : State,
     (s.ledger.running = true → 1 ≤ s.ledger.since → s.fallsDue (s.ledger.sinceClk + 1000000000) = true → Does .checkpointTimer s fun t =>
       t.time = (s.runTo (s.ledger.sinceClk + 1000000000)).time ∧
       ((∃ k ∈ s.ledger.held, k.isCkpt = true) → t.ledger = s.ledger ∧ t.sec = s.sec) ∧
       ((∀ k ∈ s.ledger.held, k.isCkpt = false) → s.sec.nextLeaf < s.sec.blocks * 1024 → s.sec.exhausted = false →
         t.sec = { s.sec with nextLeaf := s.sec.nextLeaf + 1 } ∧
         ∃ k : Held, t.ledger = { s.ledger with held := enterHeld k s.ledger.held } ∧ k.origin = 12 ∧ k.due = t.time.clk + 1000 ∧
           k.object = object 0x0C s.sec.nextLeaf ∧ k.stamp = t.now)) ∧
     ((s.ledger.running = false ∨ s.ledger.since = 0 ∨ s.fallsDue (s.ledger.sinceClk + 1000000000) = false) →
       exec .checkpointTimer s = .next s)) ∧
  (∀ (s : State),
     (∀ r rest, s.ledger.signing = r :: rest → Does .checkpointSigned s fun t =>
       let c : Ckpt := ⟨r, r.object / 256, Config.identitySign (r.object / 256) r.bytes⟩
       t.ledger = { s.ledger with signing := rest, store := (c :: s.ledger.store).take 64, ckptLast := r.seq } ∧
       (s.vault.buffer.length + 1 < 1024 → t.vault.nextCkpt = some c ∧
         t.vault.buffer = s.vault.buffer ++ [JRec.sealed s.vault.nextSeq (.stored false)]) ∧
       (1024 ≤ s.vault.buffer.length + 1 → s.vault.quiescent = false → t.vault.storedCkpt = some c ∧ t.vault.buffer = []) ∧
       t.out = s.out ++ [.pushSig r.seq c.sig] ∧
       (∀ (x : Nat), (x < s.ledger.ckptBase + s.reg 0x70060 % 64 * 10240 ∨ s.ledger.ckptBase + (s.reg 0x70060 % 64 + 1) * 10240 ≤ x) →
         Memory.read t.mem.cells x = Memory.read s.mem.cells x) ∧
       t.reg 0x70060 = min (s.reg 0x70060 + 1) 0xFFFFFFFF ∧ ∀ o, o ≠ 0x70060 → t.reg o = s.reg o) ∧
     (s.ledger.signing = [] → exec .checkpointSigned s = .next s)) ∧
  (∀ s : State,
     (s.sec.exhausted = true → s.takeLeaf.1 = none) ∧
     (s.sec.exhausted = false →
       (s.sec.nextLeaf < s.sec.blocks * 1024 → s.takeLeaf.1 = some s.sec.nextLeaf ∧ s.takeLeaf.2.sec.nextLeaf = s.sec.nextLeaf + 1 ∧
         s.takeLeaf.2.sec.blocks = s.sec.blocks) ∧
       (s.sec.blocks * 1024 ≤ s.sec.nextLeaf → s.sec.blocks + 1 < 2 ^ 30 → s.takeLeaf.1 = some (s.sec.blocks * 1024) ∧
         s.takeLeaf.2.sec.nextLeaf = s.sec.blocks * 1024 + 1 ∧ s.takeLeaf.2.sec.blocks = s.sec.blocks + 1) ∧
       (s.sec.blocks * 1024 ≤ s.sec.nextLeaf → 2 ^ 30 ≤ s.sec.blocks + 1 → s.takeLeaf.1 = none ∧ s.takeLeaf.2.sec.exhausted = true)))

/-- The reads: the endorsement record, up to 64 ledger records from a SEQ on, a checkpoint slot; the PF and the management controller
may send them, a VF is refused, and nothing answers before the setup lock. -/
def Obligations.SecurityReads : Prop :=
  ∀ (s : State) (via : Via) (seq : BitVec 48),
    (s.answers = true → (viaOrigin via = 1 ∨ viaOrigin via = 10) →
      exec (.identityRead via) s = .next (s.emit (.reply via stOK endorsementRecord)) ∧
      exec (.ledgerRead via seq) s = .next (s.emit (.reply via stOK
        (((s.ledger.ring.filter fun r => seq.toNat ≤ r.seq).reverse.take 64).flatMap LedgerRec.bytes))) ∧
      (∀ c, s.ledger.store.find? (fun c => c.record.seq == seq.toNat) = some c →
        exec (.ckptRead via seq) s = .next (s.emit (.reply via stOK c.slot))) ∧
      (s.ledger.store.find? (fun c => c.record.seq == seq.toNat) = none →
        exec (.ckptRead via seq) s = .next (s.emit (.reply via stNOT_FOUND [])))) ∧
    (s.answers = true → 2 ≤ viaOrigin via → viaOrigin via ≤ 9 →
      ∀ c ∈ [Instr.identityRead via, .ledgerRead via seq, .ckptRead via seq],
        exec c s = .next (s.emit (.reply via stNOT_PERMITTED []))) ∧
    (s.answers = false → ∀ c ∈ [Instr.identityRead via, .ledgerRead via seq, .ckptRead via seq], exec c s = .next s)

/-- Publisher keys: the management controller sets and revokes them, each with its record; a message that would change state while the
ledger refuses answers BUSY and counts it. A firmware update: BEGIN opens it afresh, DATA places its bytes, END stores an image that is
accepted, in force once its journal record is programmed, and rejects another. Where the spec leaves a detail open it rests on the model's choice of log 57. -/
def Obligations.KeysAndFirmware : Prop :=
  (∀ (s : State) (index : Fin 64) (sigSet : BitVec 8) (key : List Byte), s.answers = true →
     (s.ledgerShut = false → sigLength sigSet.toNat ≠ 0 → key.length = 68 → beNat (key.take 4) = sigOid sigSet.toNat →
       Does (.pubkeySet .i3c index sigSet key) s fun t =>
         t.sec = { s.sec with keys := putKey s.sec.keys index.val ⟨sigSet.toNat, key, false⟩ } ∧
         t.out = s.out ++ [.reply .i3c stOK []] ∧ Only [.sec, .handed, .out] s t) ∧
     (∀ k, s.ledgerShut = false → findKey s.sec.keys index.val = some k → Does (.pubkeyRevoke .i3c index) s fun t =>
       t.sec = { s.sec with keys := putKey s.sec.keys index.val { k with revoked := true } } ∧
       t.out = s.out ++ [.reply .i3c stOK []] ∧ Only [.sec, .handed, .out] s t) ∧
     (s.ledgerShut = true → sigLength sigSet.toNat ≠ 0 → key.length = 68 → beNat (key.take 4) = sigOid sigSet.toNat →
       Does (.pubkeySet .i3c index sigSet key) s fun t =>
         t.out = s.out ++ [.reply .i3c stBUSY []] ∧ t.reg 0x70050 = min (s.reg 0x70050 + 1) 0xFFFFFFFF ∧ Only [.regs, .out] s t) ∧
     ∀ via, via ≠ .i3c →
       exec (.pubkeySet via index sigSet key) s = .next (s.emit (.reply via stNOT_PERMITTED [])) ∧
       exec (.pubkeyRevoke via index) s = .next (s.emit (.reply via stNOT_PERMITTED []))) ∧
  (∀ (s : State) (length offset : Word32) (bytes : List Byte), s.answers = true →
     (s.ledgerShut = false → 8192 ≤ length.toNat → length.toNat ≤ 0x1001000 → length.toNat % 4096 = 0 →
       exec (.fwUpdateBegin .i3c length) s =
         .next ((s.setSec { s.sec with update := some ⟨length.toNat, []⟩ }).emit (.reply .i3c stOK []))) ∧
     (∀ u, s.sec.update = some u → offset.toNat + bytes.length ≤ u.length →
       exec (.fwUpdateData .i3c offset bytes) s =
         .next ((s.setSec { s.sec with update := some { u with bytes := u.bytes ++ [(offset.toNat, bytes)] } }).emit
           (.reply .i3c stOK []))) ∧
     (∀ u, s.sec.update = some u → s.ledgerShut = false → Does (.fwUpdateEnd .i3c) s fun t =>
       t.sec = { s.sec with update := none } ∧ Only [.sec, .vault, .handed, .out] s t ∧
       (s.fwOk u.image = true → t.out = s.out ++ [.reply .i3c stOK []] ∧
         (s.vault.buffer.length + 1 < 1024 → t.vault.nextImage = some u.image ∧ t.vault.image = s.vault.image ∧
           t.vault.buffer = s.vault.buffer ++ [JRec.sealed s.vault.nextSeq (.stored true)]) ∧
         (1024 ≤ s.vault.buffer.length + 1 → s.vault.quiescent = false → t.vault.image = some u.image)) ∧
       (s.fwOk u.image = false → t.vault = s.vault ∧ t.out = s.out ++ [.reply .i3c stIMAGE_REJECTED []])))

/-- The boot ROM accepts an image only if all of the conditions of R473 hold, over the fields of R472. -/
def Obligations.ImageAcceptance : Prop :=
  ∀ (s : State) (im : List Byte), s.fwOk im = true ↔
    (field im 0 4 = 0x57464447 ∧ field im 4 2 = 1 ∧ field im 6 2 = 0 ∧ 4096 ≤ field im 16 8 ∧ field im 16 8 ≤ 0x1000000 ∧
      field im 16 8 % 4096 = 0 ∧ im.length = 4096 + field im 16 8 ∧ allZero (slice im 124 4) = true ∧
      allZero (slice im 2948 1148) = true) ∧
    shake256 32 (slice im 56 68) = Config.fwKeyDigest ∧
    Config.xmssVerify (slice im 56 68) (slice im 0 128) (slice im 128 2820) = true ∧
    shake256 32 (im.drop 4096) = slice im 24 32 ∧ s.sec.fusedSvn ≤ field im 8 4

/-- PLDM is answered over I3C, whatever the hub does, and over no other transport; its settings are the terminus identifier and the event
receiver. A platform event that its receiver did not accept is sent again once, 100 ms after it was sent, and dropped. Where the spec leaves a detail open it rests
on the model's choices of logs 45 and 77. -/
def Obligations.PldmMessages : Prop :=
  (∀ (s : State) (tid eid type : BitVec 8) (record : BitVec 32) (sensor : BitVec 16), s.svc.island = true →
     (tid ≠ 0 → tid ≠ 0xFF → exec (.setTid .i3c tid) s = .next ((s.setSec { s.sec with tid := tid.toNat }).emit (.reply .i3c pldmSuccess []))) ∧
     exec (.getTid .i3c) s = .next (s.emit (.reply .i3c pldmSuccess (leBytes 1 s.sec.tid))) ∧
     exec (.setEventReceiver .i3c eid) s = .next ((s.setSec { s.sec with receiver := some eid.toNat }).emit (.reply .i3c pldmSuccess [])) ∧
     exec (.getPdrRepositoryInfo .i3c) s = .next (s.emit (.reply .i3c pldmSuccess (leBytes 4 18))) ∧
     exec (.getPldmTypes .i3c) s = .next (s.emit (.reply .i3c pldmSuccess (leBytes 8 5))) ∧
     Does (.getPldmVersion .i3c type) s (fun t => ∃ code body, t = s.emit (.reply .i3c code body) ∧
       ((type = 0 ∨ type = 2) ↔ code = pldmSuccess)) ∧
     Does (.getPldmCommands .i3c type) s (fun t => ∃ code body, t = s.emit (.reply .i3c code body) ∧
       ((type = 0 ∨ type = 2) ↔ code = pldmSuccess)) ∧
     Does (.getPdr .i3c record) s (fun t => ∃ code body, t = s.emit (.reply .i3c code body) ∧ (record.toNat ≤ 18 ↔ code = pldmSuccess)) ∧
     Does (.getSensorReading .i3c sensor) s (fun t => ∃ code body, t = s.emit (.reply .i3c code body) ∧
       (sensorNumeric sensor.toNat = true ↔ code = pldmSuccess) ∧
       (sensorNumeric sensor.toNat = true → s.hubRuns = true →
         body = leBytes 1 0 ++ leBytes 1 (s.sensorRange sensor.toNat (s.power.last.sensor sensor.toNat)) ++
           leBytes 4 (s.power.last.sensor sensor.toNat))) ∧
     Does (.getStateSensorReadings .i3c sensor) s (fun t => ∃ code body, t = s.emit (.reply .i3c code body) ∧
       ((sensor.toNat = 0x20 ∨ sensor.toNat = 0x21 ∨ sensor.toNat = 0x22) ↔ code = pldmSuccess) ∧
       (sensor.toNat = 0x22 → body = leBytes 1 0 ++ leBytes 1 (s.svc.phase.code + 1))) ∧
     ∀ via, via ≠ .i3c → ∀ c ∈ [Instr.setTid via tid, .getTid via, .getPldmVersion via type, .getPldmTypes via, .getPldmCommands via type,
       .setEventReceiver via eid, .getPdrRepositoryInfo via, .getPdr via record, .getSensorReading via sensor,
       .getStateSensorReadings via sensor], exec c s = .next s) ∧
  (∀ (s : State) (sensor : BitVec 16) (e : Nat × Nat × Nat) (eid : Nat),
     s.sec.events.find? (fun e => e.1 == sensor.toNat) = some e → s.sec.receiver = some eid →
     let sent := fun u : State => (u.setSec { u.sec with events := u.sec.events.erase e }).emit (.platformEvent eid sensor.toNat e.2.1)
     (s.hubRuns = false → exec (.pldmEventResend sensor) s = .next (sent s)) ∧
     (s.hubRuns = true → s.fallsDue (e.2.2 + 100000000) = true → exec (.pldmEventResend sensor) s = .next (sent (s.runTo (e.2.2 + 100000000)))) ∧
     (s.hubRuns = true → s.fallsDue (e.2.2 + 100000000) = false → exec (.pldmEventResend sensor) s = .next s)) ∧
  (∀ (s : State) (sensor : BitVec 16), (s.sec.receiver = none ∨ ∀ e ∈ s.sec.events, e.1 ≠ sensor.toNat) →
     exec (.pldmEventResend sensor) s = .next s)

/-- SPDM: the exchange goes in order, version first; a request out of place answers ERROR and is counted. SPDM answers no VF, and nobody
before the setup lock. Measurements: the count for index 0, one block for an index from 1 to 6, every block for 0xFF, an error for any
other. Where the spec leaves a detail open it rests on the model's choice of log 45. -/
def Obligations.SpdmExchange : Prop :=
  (∀ (s : State) (via : Via), s.answers = true → (∀ n, via ≠ .vf n) →
     exec (.getVersion via) s = .next ((s.setSpdm via ⟨true, false, false, [], 0⟩).spdmReply via spdmVERSION (leBytes 2 0x1300)) ∧
     ((s.spdm via).version = true → exec (.getCapabilities via) s =
       .next ((s.setSpdm via { s.spdm via with caps := true }).spdmReply via spdmCAPABILITIES (leBytes 4 spdmFlags))) ∧
     ((s.spdm via).version = true → (s.spdm via).caps = true → exec (.negotiateAlgorithms via) s =
       .next ((s.setSpdm via { s.spdm via with algs := true }).spdmReply via spdmALGORITHMS spdmAlgorithms)) ∧
     ((s.spdm via).version = false → exec (.getCapabilities via) s = .next (s.spdmError via errUnexpected)) ∧
     ((s.spdm via).algs = false → ∀ n, exec (.challenge via n) s = .next (s.spdmError via errUnexpected))) ∧
  (∀ (s : State) (via : Via) (n body : List Byte) (i type tok : BitVec 8) (q : BitVec 16) (sg : Bool),
     (s.answers = false ∨ ∃ v, via = .vf v) →
     ∀ c ∈ [Instr.getVersion via, .getCapabilities via, .negotiateAlgorithms via, .challenge via n, .getMeasurements via i sg n,
       .chunkGet via q, .respondIfReady via tok, .vendorDefinedRequest via type body], exec c s = .next s) ∧
  (∀ (s : State) (via : Via) (index : BitVec 8) (nonce : List Byte), s.answers = true → (∀ n, via ≠ .vf n) → (s.spdm via).algs = true →
     (index = 0 → exec (.getMeasurements via index false nonce) s = .next (s.spdmReply via spdmMEASUREMENTS (leBytes 1 6))) ∧
     (1 ≤ index.toNat → index.toNat ≤ 6 → exec (.getMeasurements via index false nonce) s =
       .next (s.spdmReply via spdmMEASUREMENTS (leBytes 1 1 ++ s.measureBlock index.toNat))) ∧
     (6 < index.toNat → index.toNat < 255 → exec (.getMeasurements via index false nonce) s = .next (s.spdmError via errInvalidRequest)))

/-- Signed responses: each takes the next leaf and waits to be fetched in chunks; while a checkpoint is being signed the request is
deferred, and RESPOND_IF_READY has it served afterwards. CHUNK_GET gives the chunks of a large response in order, and the last one ends
it; a vendor-defined request carries the messages of the security engine. Where the spec leaves a detail open it rests on the model's
choice of log 45. -/
def Obligations.SpdmSigned : Prop :=
  (∀ (s : State) (via : Via) (nonce : List Byte), s.answers = true → (∀ n, via ≠ .vf n) → (s.spdm via).algs = true →
     (s.ledger.signing = [] → s.sec.deferred = [] → s.sec.nextLeaf < s.sec.blocks * 1024 → s.sec.exhausted = false → Does (.challenge via nonce) s fun t =>
       let body := leBytes 1 spdmCHALLENGE_AUTH ++ (leBytes 1 0xFF ++ fit 32 nonce)
       (t.spdm via).large = body ++ Config.identitySign s.sec.nextLeaf body ∧ (t.spdm via).chunk = 0 ∧
       t.sec.nextLeaf = s.sec.nextLeaf + 1) ∧
     (s.ledger.signing ≠ [] → Does (.challenge via nonce) s fun t =>
       t.sec.deferred = s.sec.deferred ++ [⟨via, spdmCHALLENGE_AUTH, leBytes 1 0xFF ++ fit 32 nonce⟩] ∧ t.sec.nextLeaf = s.sec.nextLeaf) ∧
     (∀ d rest tok, s.sec.deferred = d :: rest → d.via = via → s.ledger.signing = [] → s.sec.nextLeaf < s.sec.blocks * 1024 → s.sec.exhausted = false →
       Does (.respondIfReady via tok) s fun t =>
         t.sec.deferred = rest ∧ t.sec.nextLeaf = s.sec.nextLeaf + 1 ∧
         (t.spdm via).large = (leBytes 1 d.code ++ d.body) ++ Config.identitySign s.sec.nextLeaf (leBytes 1 d.code ++ d.body))) ∧
  (∀ (s : State) (via : Via) (seqNo : BitVec 16), s.answers = true → (∀ n, via ≠ .vf n) → (s.spdm via).version = true →
     (seqNo.toNat = (s.spdm via).chunk → seqNo.toNat * Config.spdmChunk < (s.spdm via).large.length → Does (.chunkGet via seqNo) s fun t =>
       let rest := (s.spdm via).large.drop (seqNo.toNat * Config.spdmChunk)
       t.out = s.out ++ [.reply via spdmCHUNK
         (leBytes 1 (flag (rest.length ≤ Config.spdmChunk)) ++ leBytes 2 seqNo.toNat ++ rest.take Config.spdmChunk)] ∧
       (rest.length ≤ Config.spdmChunk → (t.spdm via).large = []) ∧
       (Config.spdmChunk < rest.length → (t.spdm via).large = (s.spdm via).large ∧ (t.spdm via).chunk = (s.spdm via).chunk + 1)) ∧
     (∀ body, exec (.vendorDefinedRequest via 1 body) s = .next (s.spdmReply via spdmVENDOR (leBytes 2 stOK ++ endorsementRecord))) ∧
     (∀ (type : BitVec 8) body, (type.toNat = 0 ∨ type.toNat = 4 ∨ 9 < type.toNat) →
       exec (.vendorDefinedRequest via type body) s = .next (s.spdmReply via spdmVENDOR (leBytes 2 stNOT_PERMITTED ++ []))))

/-! ### The beat and schedules (02) -/

/-- The markers: the slew at a marked tick, the master's first beat, which is never the last of the numbering, what an accepted marker
does to a slave that is acquiring or locked, a master conflict, and the decision with and without a marker for the beat. Where the spec
leaves a detail open it rests on the model's choices of logs 4 and 58. -/
def Obligations.MarkerCommands : Prop :=
  ∀ (s : State) (port : Fin 9) (m : Marker),
    (s.hubRuns = false → exec .slewTick s = .next s) ∧
    (∀ k, s.hubRuns = true → s.time.ctr10 + k = 1023 → s.time.tick + k + 2 < s.beatTicks → s.fab.slotOut = [] →
      s.entriesIn (fun _ e => e.tick ≤ s.time.tick + k + 2) = [] →
      Does .slewTick s fun t => Only [.time] s t ∧ t.time.ctr10 = 0 ∧ t.time.tick - s.time.tick = t.time.clk - s.time.clk ∧
        (0 < s.time.corr → t.time.corr = s.time.corr - 1 ∧ t.time.clk = s.time.clk + k) ∧
        (s.time.corr < 0 → t.time.corr = s.time.corr + 1 ∧ t.time.clk = s.time.clk + k + 2) ∧
        (s.time.corr = 0 → t.time.corr = 0 ∧ t.time.clk = s.time.clk + k + 1)) ∧
    (∀ due, s.time.masterStart = some due → s.fallsDue due = true →
      (bits (s.reg 0x20008) 0 48 ≠ 0xFFFFFFFFFFFF → Does .masterStart s fun t =>
        t.time.beat = bits (s.reg 0x20008) 0 48 ∧ t.time.tick = 0 ∧ t.time.epoch = (s.time.epoch + 1) % 65536 ∧ t.time.st = .locked ∧
        t.time.clk = (s.runTo due).time.clk ∧ t.time.masterStart = none ∧ Only [.time, .serve, .out] s t ∧
        ∃ b : Marker, b.beat.toNat = bits (s.reg 0x20008) 0 48 ∧ b.correction = 0 ∧
          t.out = s.out ++ s.admittedPorts.map fun k => Out.marker k b) ∧
      (bits (s.reg 0x20008) 0 48 = 0xFFFFFFFFFFFF → Does .masterStart s fun t =>
        t.time.st = .unlocked ∧ t.reg 0x20048 = min (s.reg 0x20048 + 1) 0xFFFFFFFF ∧
        ∀ k b, Out.marker k b ∈ t.out → Out.marker k b ∈ s.out)) ∧
    ((s.time.masterStart = none ∨ ∃ due, s.time.masterStart = some due ∧ s.fallsDue due = false) → exec .masterStart s = .next s) ∧
    ((s.port port.val).st ≠ .admitted → exec (.markerAccept port m) s = .next s) ∧
    ((s.port port.val).st = .admitted → (m.period.toNat < 16 ∨ 2000 < m.period.toNat) →
      exec (.markerAccept port m) s = .next (s.bump 0x20050)) ∧
    ((s.port port.val).st = .admitted → 16 ≤ m.period.toNat → m.period.toNat ≤ 2000 → s.time.role = .slave →
      (∀ p ∈ s.time.seen, p.1 = m.beat.toNat → p.2 = m.master.toNat) →
      ((s.time.st = .unlocked ∨ s.time.acquired = false) → Does (.markerAccept port m) s fun t =>
        let a := (s.port port.val).linkDelay + (m.correction.toNat + 8) / 16
        t.time.st = .acquire ∧ t.time.acquired = true ∧ t.time.period = m.period.toNat ∧ t.time.epoch = m.epoch.toNat ∧
        t.time.master = m.master.toNat ∧ t.time.beat * (m.period.toNat * 1000) + t.time.tick = m.beat.toNat * (m.period.toNat * 1000) + a ∧
        t.time.tick < m.period.toNat * 1000 ∧ Only [.time] s t) ∧
      (s.time.st ≠ .unlocked → s.time.acquired = true → s.time.tick < s.beatTicks →
        (m.beat.toNat = s.time.beat → s.time.tick ≤ s.time.period * 500 → Does (.markerAccept port m) s fun t =>
          t.time.heard = s.time.heard ++ [⟨port.val, m, s.time.tick⟩] ∧ t.time.st = s.time.st ∧ Only [.time] s t) ∧
        (m.beat.toNat = s.time.beat + 1 → s.time.period * 500 < s.time.tick → Does (.markerAccept port m) s fun t =>
          t.time.heard = s.time.heard ++ [⟨port.val, m, (s.time.tick : Int) - s.beatTicks⟩] ∧ t.time.st = s.time.st ∧ Only [.time] s t) ∧
        (m.beat.toNat ≠ s.time.beat → m.beat.toNat ≠ s.time.beat + 1 → Does (.markerAccept port m) s fun t =>
          t.time.heard = s.time.heard ∧ t.time.discarded = true ∧ t.reg 0x20050 = min (s.reg 0x20050 + 1) 0xFFFFFFFF ∧
          Only [.time, .regs] s t))) ∧
    ((s.port port.val).st = .admitted → 16 ≤ m.period.toNat → m.period.toNat ≤ 2000 →
      (∃ p ∈ s.time.seen, p.1 = m.beat.toNat ∧ p.2 ≠ m.master.toNat) → Does (.markerAccept port m) s fun t =>
        t.reg 0x20058 = min (s.reg 0x20058 + 1) 0xFFFFFFFF ∧ t.time.st = .unlocked ∧
        (s.time.st = .unlocked → t.time = s.time) ∧
        (s.time.st ≠ .unlocked → t.reg 0x20048 = min (s.reg 0x20048 + 1) 0xFFFFFFFF ∧ ∀ r ∈ t.serve.steps, r.fail.isSome)) ∧
    (s.time.role = .slave → s.time.st ≠ .unlocked → s.time.acquired = true → s.time.tick ≤ s.time.period * 500 + 1 →
      ((∀ h ∈ s.time.heard, h.m.beat.toNat ≠ s.time.beat) → s.time.discarded = false → s.time.holdover < 15 →
        s.time.st ≠ .acquire → Does .markerDecision s fun t =>
          t.time.st = .holdover ∧ t.time.holdover = s.time.holdover + 1 ∧
          t.time.tick = (s.toTick (s.time.period * 500 + 1)).time.tick ∧ Only [.time] s t) ∧
      (∀ h, s.time.heard = [h] → h.port < 9 → h.m.beat.toNat = s.time.beat → h.m.period.toNat = s.time.period → h.m.epoch.toNat = s.time.epoch →
        let e := roundAway (16 * h.a - (16 * (s.port h.port).linkDelay + h.m.correction.toNat : Nat)) 16
        (16 * h.a - (16 * (s.port h.port).linkDelay + h.m.correction.toNat : Nat)).natAbs ≤ 1600 → Does .markerDecision s fun t =>
          t.time.phaseErr = e ∧ t.time.corr = e ∧ t.time.holdover = 0 ∧ t.time.bad = 0 ∧
          (s.time.st ≠ .acquire → t.time.st = .locked) ∧
          (s.time.st = .acquire → (t.time.st = .locked ↔ 8 ≤ t.time.good)) ∧
          ((s.time.st ≠ .acquire ∨ t.time.st = .acquire) → Only [.time] s t) ∧ Only [.time, .serve] s t))

/-- A beat boundary: the next beat begins, at tick 0 but where a doubled tick passes it, a period change of a locked module that is due at
it takes effect with a new EPOCH, a takeover due at it moves the role, and a running master sends the marker that begins the beat on every admitted port. -/
def Obligations.BeatBoundary : Prop :=
  ∀ s : State,
    (s.hubRuns = false → exec .beatBoundary s = .next s) ∧
    (s.hubRuns = true → s.time.beat + 1 < 0xFFFFFFFFFFFF → Does .beatBoundary s fun t =>
      t.time.beat = s.time.beat + 1 ∧ t.time.tick ≤ 1 ∧ (0 ≤ s.time.corr → t.time.tick = 0) ∧
      (∀ p b, s.time.takeover = none → s.time.pendPeriod = some (p, b) → b ≤ s.time.beat + 1 → s.beatLocked = true →
        t.time.period = p ∧ t.time.epoch = (s.time.epoch + 1) % 65536 ∧ t.time.pendPeriod = none ∧ t.time.role = s.time.role) ∧
      (∀ b, s.time.pendPeriod = none → s.time.takeover = some ⟨true, b⟩ → b ≤ s.time.beat + 1 →
        t.time.role = .master ∧ t.time.st = .locked ∧ t.time.epoch = (s.time.epoch + 1) % 65536 ∧ t.time.takeover = none) ∧
      (∀ b, s.time.pendPeriod = none → s.time.takeover = some ⟨false, b⟩ → b ≤ s.time.beat + 1 →
        t.time.role = .slave ∧ t.time.takeover = none ∧ t.time.epoch = s.time.epoch) ∧
      (s.time.role = .master → s.time.st = .locked → s.time.takeover = none → ∀ k ∈ s.admittedPorts,
        ∃ b : Marker, b.beat.toNat = s.time.beat + 1 ∧ Out.marker k b ∈ t.out))

/-- A row that names no entry still to fire in this beat does nothing; what is still to fire lies in the running schedule's beat, at or
after the last entry that fired. An entry that is due fires once, at its tick: a list of prefetches starts or waits for its earlier start,
the slots of ports are selected, preferences are noted, a locked phase begins, frames are sent, a replay slot opens. Where the spec leaves
a detail open it rests on the model's choices of logs 28, 29, 91 and 110. -/
def Obligations.ScheduleEntries : Prop :=
  (∀ (s : State) (i : Fin 16) (p : Word64),
     (s.instRuns i.val = false → s.unfired i.val = []) ∧
     (∀ e ∈ s.unfired i.val, (s.inst i.val).fired.1 ≤ e.tick ∧ ∃ g, s.firing i.val = some g ∧ e ∈ g.entries ∧
       e.boff = s.time.beat % max g.cycle 1) ∧
     ∀ r ∈ [(1, Instr.layerStart i p), (2, .prefetch i p), (3, .slotSelect i p), (4, .opPref i p), (5, .lockBegin i p),
         (6, .collectiveWindow i p), (7, .replaySlot i p), (8, .telemetry i p), (9, .stepEnd i p)],
       (∀ e ∈ s.unfired i.val, e.kind = r.1 → e.payload ≠ p) → exec r.2 s = .next s) ∧
  (∀ (s : State) (i : Fin 16) (p : Word64) (e : SchedEntry), s.due i.val p e →
     let u := (s.toTick e.tick).markFired i.val e
     (e.kind = 2 → ∀ g l, s.firing i.val = some g →
       g.lists.find? (fun l => l.stack == bits p.toNat 16 5 && l.index == bits p.toNat 0 16) = some l →
       let due := s.time.beat + (bits p.toNat 42 16 + g.cycle - s.time.beat % g.cycle) % g.cycle
       let run : PfRun := ⟨i.val, bits p.toNat 16 5, bits p.toNat 0 16, l.entries, due, bits p.toNat 21 21, false⟩
       ((∀ r ∈ s.mem.lists, r.inst ≠ i.val ∨ r.stack ≠ bits p.toNat 16 5 ∨ r.index ≠ bits p.toNat 0 16) → Does (.prefetch i p) s fun t =>
         t.mem.lists = s.mem.lists ++ [run] ∧ t.mem.cells = s.mem.cells ∧ t.time = u.time ∧ Only [.time, .serve, .arr, .mem] s t ∧
         ∀ x ∈ l.entries.head?, ∀ j, j < x.tiles → (bits p.toNat 16 5, x.dst + j) ∈ t.mem.filling) ∧
       ((∃ r ∈ s.mem.lists, r.inst = i.val ∧ r.stack = bits p.toNat 16 5 ∧ r.index = bits p.toNat 0 16) → Does (.prefetch i p) s fun t =>
         t.mem = { s.mem with listWaits := s.mem.listWaits ++ [run] } ∧ t.time = u.time ∧ Only [.time, .serve, .mem, .regs] s t ∧
         t.reg (rFrame (bits p.toNat 16 5 / 6) 0xD8) = min (s.reg (rFrame (bits p.toNat 16 5 / 6) 0xD8) + 1) 0xFFFFFFFF)) ∧
     (e.kind = 3 → Does (.slotSelect i p) s fun t => t.time = u.time ∧ Only [.time, .serve, .fab] s t ∧ ∀ k, k < 9 →
       t.slotTab k = if bit p.toNat k = true ∧ ((s.slotTab k).slot (bits p.toNat 16 32)).isSome then
           GenTable.prune { s.slotTab k with cur := some (bits p.toNat 16 32) } s.time.beat
         else s.slotTab k) ∧
     (e.kind = 4 → Does (.opPref i p) s fun t => t.time = u.time ∧ Only [.time, .serve, .power] s t ∧ ∀ d, d < 4 →
       nth none t.power.prefs d = if bit p.toNat d then some (bits p.toNat 4 4) else nth none s.power.prefs d) ∧
     (e.kind = 5 → exec (.lockBegin i p) s = .next { u with time := { u.time with
       lockEnds := u.time.lockEnds ++ [(i.val, s.time.beat + (bits p.toNat 0 16 - e.boff))] } }) ∧
     (e.kind = 7 → ∀ c, s.coll i.val (bits p.toNat 32 16) = some c → Does (.replaySlot i p) s fun t =>
       Only [.time, .serve] s t ∧ t.time = u.time ∧ ∃ d, t.coll i.val (bits p.toNat 32 16) = some d ∧
         d = { c with slotOpen := u.time.clk, slotClose := u.time.clk + (bits p.toNat 0 21 - e.tick) }) ∧
     (e.kind = 8 → (bits p.toNat 0 4 < 4 → Does (.telemetry i p) s fun t => t.time = u.time ∧ Only [.time, .serve, .out] s t ∧
         (bits p.toNat 0 4 = 0 → t.out = s.out ++ [.frame (bits p.toNat 4 3) 0 s.powerFrame]) ∧
         (bits p.toNat 0 4 = 1 → t.out = s.out ++ [.frame (bits p.toNat 4 3) 1 (numSummary s.arr.numLast (s.time.beat - 1))]) ∧
         (bits p.toNat 0 4 = 2 → t.out = s.out ++
           (s.serve.loadGens.filterMap fun g => s.loadFrame g.1 g.2.1 g.2.2).map (Out.frame (bits p.toNat 4 3) 2)) ∧
         (bits p.toNat 0 4 = 3 → t.out = s.out ++ s.serve.tokFrames.map (Out.frame (bits p.toNat 4 3) 3))) ∧
       (4 ≤ bits p.toNat 0 4 → Does (.telemetry i p) s fun t => t.time = u.time ∧ Only [.time, .serve, .out, .free] s t ∧
         ∃ f : List Byte, f.length = 64 ∧ t.out = s.out ++ [.frame (bits p.toNat 4 3) (bits p.toNat 0 4) f])))

/-- The entries of the open step: a gate is released to the layer, a collective opens its window, and each is one entry fewer to wait for;
the step's end completes it, or has it overrun, counted, where its work is not complete. A step completes once its work has drained, or at once
where it failed otherwise than by overrun; before, the command does nothing. Where the spec leaves a detail open it rests on the model's
choices of logs 29 and 52. -/
def Obligations.Steps : Prop :=
  (∀ (s : State) (i : Fin 16) (p : Word64) (e : SchedEntry) (r : StepRun), s.due i.val p e → s.openStep i.val = some r →
     let v := (s.toTick e.tick).markFired i.val e
     let u := v.entryDone r
     (e.kind = 1 → (r.fail.isSome → exec (.layerStart i p) s = .next u) ∧
       ∀ b c q x, r.fail = none → u.layerBeads i.val p.toNat = [b] → u.schedCfg i.val b (bits p.toNat 4 2) = some c → c.resident = true →
         (∀ y ∈ u.ctxsOf c.num, ∀ g, u.wantedGen c = some g → y.gen = g.gen) → u.wantedGen c ≠ none → c.physCtx b = some q →
         u.ctx ⟨b, Fin.ofNat 4 q⟩ = some x → Does (.layerStart i p) s fun t =>
           ∃ y, t.ctx ⟨b, Fin.ofNat 4 q⟩ = some y ∧ y.acts = x.acts ∧ y.pc = x.pc ∧
             (x.gate = none → y.gate = some (bits p.toNat 16 16) ∧ y.step = some r.id) ∧
             (∀ g, x.gate = some g → y.gate = some (max g (bits p.toNat 16 16)))) ∧
     (e.kind = 6 → ∀ g d, s.firing i.val = some g → g.colls.find? (fun d => d.index == bits p.toNat 32 16) = some d → d.kind < 3 →
       Does (.collectiveWindow i p) s fun t => ∃ c ∈ t.serve.colls, c.inst = i.val ∧ c.step = r.id ∧ c.desc = d ∧ c.openAt = u.time.clk ∧
         c.close = u.time.clk + (bits p.toNat 0 21 - e.tick) ∧ c.route = none ∧ c.sent = [] ∧ c.got = [] ∧ c.done = none ∧
         t.serve.steps = u.serve.steps ∧ Only [.time, .serve] s t) ∧
     (e.kind = 9 → r.endNo = bits p.toNat 0 16 →
       (v.mayComplete r = true → Does (.stepEnd i p) s fun t =>
         (∀ x ∈ t.serve.steps, x.id ≠ r.id) ∧ t.serve.overruns = s.serve.overruns ∧
         t.power.slack = some ((r.deadline : Int) - (v.time.clk : Int))) ∧
       (v.mayComplete r = false → Does (.stepEnd i p) s fun t =>
         (∃ x ∈ t.serve.steps, x.id = r.id ∧ x.overrun = true ∧ x.fail = some (r.fail.getD stSTEP_OVERRUN)) ∧
         t.serve.overruns = s.serve.overruns + flag r.fail.isNone))) ∧
  (∀ (s : State) (i : Fin 16) (idx : Nat) (r : StepRun), s.serve.steps.find? (fun r => r.inst == i.val && r.index == idx) = some r →
     (s.mayComplete r = true → Does (.stepCompletion i idx) s fun t =>
       (∀ x ∈ t.serve.steps, x.id ≠ r.id) ∧ t.power = { s.power with slack := some ((r.deadline : Int) - (s.time.clk : Int)) } ∧
       t.time = s.time) ∧
     (s.mayComplete r = false → exec (.stepCompletion i idx) s = .next s))

/-! ### Beads and tiles (03 to 08) -/

/-- Actions without a memory range issue as soon as inputs and credits stand; a WAIT issues once it is met, and a blocking one that is not
marks its context blocked. What an issue does to its context: the counter of CTR by CTR_OP, then the branch on the updated value, and the
end of the context's work. Where the spec leaves a detail open it rests on the model's choices of logs 81 and 95. -/
def Obligations.PlainActions : Prop :=
  (∀ (s : State) (b : BeadId) (c : Context) (a : Act), s.atAction b c a →
     (a.unit = 0 → exec (.nop b) s = .next (s.issueAct c a a.takes fun s _ => (s, a.zeroOuts))) ∧
     (a.unit = 6 → exec (.counter b) s = .next (s.issueAct c a a.takes fun s _ => (s, a.zeroOuts))) ∧
     (a.unit = 7 → (a.cheap = true → s.allDone c = true) →
       let d := { c with waitFrom := some (c.waitFrom.getD s.time.beat) }
       (s.waitMet d a = true → exec (.wait b) s = .next ((s.setCtx d).issueAct c a a.takes fun s _ => (s, a.zeroOuts))) ∧
       (s.waitMet d a = false → exec (.wait b) s = .next (s.setCtx { d with blocked := a.cheap, expect := bits a.op.toNat 23 12 }))) ∧
     (a.unit = 7 → a.cheap = true → s.allDone c = false → exec (.wait b) s = .next s)) ∧
  (∀ (s : State) (cid : CtxId) (a : Act) (got : List (Nat × List EdgeEntry)) (c : Context), s.ctx cid = some c →
     a.ctr < c.ctrs.length → ∃ d, (s.advance cid a got).ctx cid = some d ∧ d.acts = c.acts ∧ d.gate = c.gate ∧
       (∀ k, k ≠ a.ctr → d.counter k = c.counter k) ∧
       let v := (d.counter a.ctr).value
       let old := (c.counter a.ctr).value
       (d.counter a.ctr).limit = (c.counter a.ctr).limit ∧
       (a.ctrOp = 0 → v = old) ∧ (a.ctrOp = 1 → v = old - 1) ∧ (a.ctrOp = 2 → v = (old + 1) % 2 ^ 32) ∧
       (a.ctrOp = 3 → v = bits a.op.toNat 0 32) ∧ (a.ctrOp = 4 → v ≤ bits a.op.toNat 32 32) ∧
       (a.ctrOp = 5 → v = (c.counter a.ctr).limit) ∧
       let pc := if a.branch = 3 ∨ (a.branch = 1 ∧ v ≠ 0) ∨ (a.branch = 2 ∧ v = 0) then a.target else c.pc + 1
       ((a.branch = 4 ∨ c.acts.length ≤ pc) → d.ended = true ∧ d.pc = 0) ∧
       (a.branch ≠ 4 → pc < c.acts.length → d.ended = c.ended ∧ d.pc = pc))

/-- Actions of the engines: where no awaited tile lies in their ranges they issue with the result of their unit; MATRIX takes its blocks,
VECTOR writes its output, COPY moves entries or bytes, EMIT and BUILD encode. A word of tile memory that the code does not correct holds
the action, and the recovery of its tile begins. SELECT, DISPATCH and COMBINE issue under the routing table that the context's step has
bound. Where the spec leaves a detail open it rests on the model's choices of logs 22 and 81. -/
def Obligations.EngineActions : Prop :=
  (∀ (s : State) (b : BeadId) (c : Context) (a : Act) (owners : List Word32), s.atAction b c a →
     (a.unit = 1 → s.awaits c (s.matRanges c a) = false → (∃ x, s.matBlocks c (matOp a.op.toNat) (engineOf c.engine.toNat) = .ok x) →
       exec (.matrix b .ok) s = .next ((s.issueAct c a a.takes fun s _ => (s.matRun c a, a.zeroOuts)).sensorEvents s)) ∧
     (a.unit = 2 → s.awaits c (vecOp a.op.toNat).reads = false →
       exec (.vector b .ok) s = .next ((s.issueAct c a a.takes fun s _ =>
         (s.tileWrite c.id.bead (vecOp a.op.toNat).dst (s.vecOut c.id.bead (vecOp a.op.toNat)), a.zeroOuts)).sensorEvents s) ∧
       ∀ k code, exec (.vector b (.failed k code)) s = .next ((s.wordFault c k).sensorEvents s)) ∧
     (a.unit = 3 → a.op.toNat % 4 = 0 →
       let o := copyOp a.op.toNat
       (o.toTile = false → s.awaits c [(o.first c, a.outs.length * a.outCount * 64)] = false → exec (.copy b .ok) s =
         .next ((s.issueAct c a a.takes fun s _ => (s, a.outs.zipIdx.map fun p => (p.1, (List.range a.outCount).map fun i =>
           BitVec.ofNat 512 (leNat (s.tileRead c.id.bead (o.first c + (p.2 * a.outCount + i) * 64) 64))))).sensorEvents s)) ∧
       (o.toTile = true → o.blocks = false → exec (.copy b .ok) s = .next ((s.issueAct c a a.takes fun s got =>
         (s.tileWrite c.id.bead (o.first c) (got.flatMap fun g => g.2.flatMap fun e => leBytes 64 e.data.toNat), a.zeroOuts)).sensorEvents
           s))) ∧
     (a.unit = 5 → a.op.toNat % 4 = 0 → s.awaits c (s.encReads c (encOp a.op.toNat)) = false → exec (.emit b owners .ok) s =
       .next ((s.issueAct c a a.takes fun s _ => s.runEmit c a owners).sensorEvents s)) ∧
     (a.unit = 5 → a.op.toNat % 4 = 1 → s.awaits c (s.encReads c (encOp a.op.toNat)) = false →
       (s.buildCodes c (encOp a.op.toNat) = none ∨ (encOp a.op.toNat).edges = true) → exec (.build b .ok) s =
         .next ((s.issueAct c a a.takes fun s _ => s.runBuild c a).sensorEvents s))) ∧
  (∀ (s : State) (b : BeadId) (c : Context) (a : Act) (t : GenSlot RouteTable) (merge : List Check), s.atAction b c a → a.unit = 3 →
     let o := expOp a.op.toNat
     s.route c o.route = some t →
     (a.op.toNat % 4 = 1 → s.awaits c [(o.src, c.live a o * scoreRow t.val.experts.length)] = false → exec (.select b .ok) s =
       .next ((s.issueAct c a a.takes fun s _ => (s.runSelect c a, [])).sensorEvents s) ∧
       s.runSelect c a = (List.range (c.live a o)).foldl (fun s m => s.tileWrite c.id.bead (o.dst + m * 64)
         ((selectRow t.val (s.elems c.id.bead 0 (o.src + m * scoreRow t.val.experts.length) t.val.experts.length)).flatMap fun x =>
           leBytes 8 x.word)) s) ∧
     (a.op.toNat % 4 = 2 → s.awaits c [(o.src, c.live a o * 64), (o.dst, c.live a o * 8)] = false → exec (.dispatch b .ok merge) s =
       .next ((s.issueAct c a a.takes fun s _ => (s.runDispatch c a merge, [])).sensorEvents s)) ∧
     (a.op.toNat % 4 = 3 → s.awaits c [(o.src, c.live a o * 64),
         (returnArea o.src o.rows t.val.replicas.length, c.live a o * t.val.k * ((if o.last = 0 then 256 else o.last) * 128))] = false →
       exec (.combine b .ok) s = .next ((s.issueAct c a a.takes fun s _ => (s.runCombine c a, [])).sensorEvents s)))

/-- The choices that DISPATCH makes: a replica takes no more rows than its expert's capacity, each granted slot of a replica once, and
every choice is granted or dropped. -/
def Obligations.DispatchCapacity : Prop :=
  ∀ (t : RouteTable) (rows : List (List Choice)) (keys : List (Nat × Nat)), t.layer < 65536 → (∀ ex ∈ t.experts, 1 ≤ ex.nrep) →
    let x := dispatchRows t rows keys
    x.fill.length = t.replicas.length ∧ x.rows.length = rows.length ∧ x.lost.length ≤ rows.length ∧
    (∀ k, ∀ ex ∈ t.experts, ex.base ≤ k → k < ex.base + ex.nrep →
      (∀ ey ∈ t.experts, ey ≠ ex → k < ey.base ∨ ey.base + ey.nrep ≤ k) → nth 0 x.fill k ≤ ex.cap) ∧
    x.drops.sum ≤ x.count

/-- A FILL asks for its tiles where its range is populated, a tile lands whole with the check that travels with it, one that fails its
check for the first time is read again, a WRITEBACK sends dirty tiles only, a GATHER is handed to its stack and ends with RESULT, a
prefetched tile lands in staging, and a list that is not landed at its fill-by point is late, once. Where the spec leaves a detail open it
rests on the model's choices of logs 1, 82 and 110. -/
def Obligations.TileTraffic : Prop :=
  ∀ (s : State) (b : BeadId),
    (∀ c a, s.atAction b c a → a.unit = 4 →
      let o := memOp a.op.toNat
      let mpa := (s.memDesc b o.desc).1
      (a.op.toNat % 8 = 0 → s.awaits c [(o.desc, 64)] = false → Does (.fill b .ok) s fun t =>
        t.mem.cells = s.mem.cells ∧
        (s.populated mpa (o.count * 4096) = false → (t.bead b).fills = (s.bead b).fills) ∧
        (s.populated mpa (o.count * 4096) = true → (t.bead b).fills.map (fun f => (f.ctx, f.tile, f.mpa, f.kind, f.tries, f.data)) =
          (s.bead b).fills.map (fun f => (f.ctx, f.tile, f.mpa, f.kind, f.tries, f.data)) ++
            (List.range o.count).map fun i => (c.id.ctx.val, o.first + i, mpa + i * 4096, (s.memDesc b o.desc).2, 0, none))) ∧
      (a.op.toNat % 8 = 1 → s.awaits c [(o.desc, 64), (o.first * 4096, o.count * 4096)] = false →
        (∀ f ∈ (s.bead b).fills, overlaps f.mpa 4096 mpa (o.count * 4096) = false) →
        (∀ via, s.mayIssue b.die.val (mpaUnit mpa) = some via → s.carries via = true) →
        ((s.mayIssue b.die.val (mpaUnit mpa)).isSome → exec (.writeback b .ok) s =
          .next ((s.issueAct c a a.takes fun u _ => (u.sendTiles c o, [])).sensorEvents s)) ∧
        (s.mayIssue b.die.val (mpaUnit mpa) = none → exec (.writeback b .ok) s = .next s)) ∧
      (a.op.toNat % 8 = 2 → s.awaits c [(o.desc, 64)] = false →
        let g := gatherCmd (s.tileRead b o.desc 64)
        (g.stack < 24 → Does (.gather b .ok) s fun t => t.mem.cells = s.mem.cells ∧
          ∃ via, t.mem.gathers = s.mem.gathers ++ [⟨g.stack, c.id, o.desc, s.tileRead b o.desc 64, via, [], []⟩]) ∧
        (24 ≤ g.stack → Does (.gather b .ok) s fun t =>
          Memory.readN t.mem.cells (mpaTile b (o.desc + 56)) 4 = leBytes 4 0x20000))) ∧
    (∀ (c : Context) (o : MemOp), c.id.bead = b →
      let mpa := (s.memDesc b o.desc).1
      ((∀ i, i < o.count → ((s.bead b).entry (o.first + i)).dirty = false) → s.sendTiles c o = s) ∧
      ((∃ i, i < o.count ∧ ((s.bead b).entry (o.first + i)).dirty = true) →
        (s.beadStatus true mpa (o.count * 4096) ≠ stOK → s.sendTiles c o = s.accessFault c.id mpa (s.beadStatus true mpa (o.count * 4096))) ∧
        (s.beadStatus true mpa (o.count * 4096) = stOK →
          s.sendTiles c o = (List.range o.count).foldl (fun v i => v.sendTile b (o.first + i) (mpa + i * 4096)) s))) ∧
    (∀ (tile : Fin 512) mpa k off, (((s.bead b).entry tile.val).dirty = false → s.sendTile b tile.val mpa = s) ∧
      (((s.bead b).entry tile.val).dirty = true → placeOf s.svc.hbmReady mpa = .staging k off → off + 4096 ≤ 0x3000000 →
        (((s.sendTile b tile.val mpa).bead b).entry tile.val).dirty = false ∧
        ∀ i, i < 4096 → Memory.read (s.sendTile b tile.val mpa).mem.cells (mpa + i) =
          Memory.read s.mem.cells (mpaTile b (tile.val * 4096) + i))) ∧
    (∀ (tile : Fin 512) f, let u := s.issueReads b.die.val
      (u.bead b).fills.find? (fun f => f.tile == tile.val && f.via.isSome) = some f → f.data = none → u.carries (f.via.getD []) = true →
      u.isFilling f.mpa = false → u.isPending f.mpa = false → mpaUnit f.mpa ≠ 5 → u.beadStatus false f.mpa 4096 = stOK →
      u.attempts (f.mpa / 4096 * 4096) (stepKey ((s.ctx ⟨b, Fin.ofNat 4 f.ctx⟩).bind (·.step))) = 0 →
      (Does (.tileLanding b tile .ok) s fun t =>
        (∀ i, i < 4096 → Memory.read t.mem.cells (mpaTile b (tile.val * 4096) + i) = (u.load f.mpa 4096).getD i 0) ∧
        (∀ x, (x < mpaTile b (tile.val * 4096) ∨ mpaTile b (tile.val * 4096) + 4096 ≤ x) →
          Memory.read t.mem.cells x = Memory.read s.mem.cells x) ∧
        (t.bead b).entry tile.val = ⟨false, true, u.sourceCheck f (u.load f.mpa 4096)⟩ ∧
        (t.bead b).fills.length + 1 = (u.bead b).fills.length) ∧
      (f.tries = 0 → ∀ k code, Does (.tileLanding b tile (.failed k code)) s fun t =>
        t.mem.cells = s.mem.cells ∧ { f with tries := 1 } ∈ (t.bead b).fills ∧
        t.reg (rFrame b.die.val 0xC0) = min (u.reg (rFrame b.die.val 0xC0) + 1) 0xFFFFFFFF)) ∧
    (∀ (k : Fin 24) r, s.mem.gathers.find? (fun r => r.stack == k.val && r.via.isSome) = some r → s.carries (r.via.getD []) = true →
      s.gatherWaits (gatherCmd r.cmd) r.old = false → r.addr + 64 ≤ 0x200000 → s.fab.held = [] →
      let g := gatherCmd r.cmd
      let word := fun t : State => Memory.readN t.mem.cells (mpaTile r.ctx.bead (r.addr + 56)) 4
      ((s.asIssued r).gatherOk r.cmd = false → ∀ check, Does (.gatherComplete k check) s fun t =>
        word t = leBytes 4 0x20000 ∧ t.mem.gathers.length + 1 = s.mem.gathers.length) ∧
      ((s.asIssued r).gatherOk r.cmd = true → (s.asIssued r).gatherFenced g = true → ∀ check, Does (.gatherComplete k check) s fun t =>
        word t = leBytes 4 0x10000 ∧ t.mem.gathers.length + 1 = s.mem.gathers.length) ∧
      ((s.asIssued r).gatherOk r.cmd = true → (s.asIssued r).gatherFenced g = false → r.seen = [] →
        s.attempts (mpaHbm g.stack 0) (stepKey ((s.ctx r.ctx).bind (·.step))) = 0 → Does (.gatherComplete k .ok) s fun t =>
          word t = leBytes 4 (min ((s.asIssued r).gatherOut g).2 0xFFFF) ∧ t.mem.gathers.length + 1 = s.mem.gathers.length ∧
          ∀ i, i < ((s.asIssued r).gatherOut g).1.length → g.out + i < 0x3000000 →
            Memory.read t.mem.cells (mpaStaging g.stack g.out + i) = ((s.asIssued r).gatherOut g).1.getD i 0)) ∧
    (∀ (k : Fin 24) (tile : Fin 12288) r e rest,
      s.mem.lists.find? (fun r => r.stack == k.val && match r.left with | e :: _ => e.dst == tile.val | [] => false) = some r →
      r.left = e :: rest →
      let src := mpaHbm k.val (e.src * 4096)
      s.bankFenced src = false → s.bankFenced (mpaStaging k.val (tile.val * 4096)) = false → s.attempts src 0 = 0 → mpaUnit src ≠ 5 →
      s.fab.held = [] →
      (Does (.prefetchTileLand k tile .ok) s fun t =>
        (∀ i, i < 4096 → Memory.read t.mem.cells (mpaStaging k.val (tile.val * 4096) + i) = (s.load src 4096).getD i 0) ∧
        (2 ≤ e.tiles → t.mem.filling = s.mem.filling.filter (· != (k.val, tile.val)) ∧
          { r with left := ⟨e.src + 1, e.dst + 1, e.tiles - 1⟩ :: rest } ∈ t.mem.lists)) ∧
      (∀ i code, Does (.prefetchTileLand k tile (.failed i code)) s fun t => t.mem.cells = s.mem.cells ∧ t.mem.lists = s.mem.lists ∧
        t.attempts src 0 = 1 ∧ t.reg (rFrame (k.val / 6) 0xC0) = min (s.reg (rFrame (k.val / 6) 0xC0) + 1) 0xFFFFFFFF)) ∧
    (∀ (k : Fin 24) (n : BitVec 16),
      let is := fun r : PfRun => r.stack == k.val && r.index == n.toNat && r.fillBeat == s.time.beat && !r.late
      ((s.mem.lists ++ s.mem.listWaits).find? is = none → exec (.prefetchFillBy k n) s = .next s) ∧
      (∀ r, (s.mem.lists ++ s.mem.listWaits).find? is = some r →
        (r.fillTick < s.time.tick → exec (.prefetchFillBy k n) s = .next s) ∧
        (s.time.tick ≤ r.fillTick → Does (.prefetchFillBy k n) s fun t => t.time = (s.toTick r.fillTick).time ∧
          t.reg (rFrame (k.val / 6) 0xE0) = min (s.reg (rFrame (k.val / 6) 0xE0) + 1) 0xFFFFFFFF ∧
          t.mem.lists = (s.mem.lists.map fun x => if x == r then { r with late := true } else x) ∧ t.mem.cells = s.mem.cells)))

/-- The tally sequencer and the routers: the next context of a bead, an entry that arrives or is read back from a spill area, the steering
units, which fire whether or not their context is current, a spatial deadlock once its watchdog has counted, a dictionary record. Where
the spec leaves a detail open it rests on the model's choices of logs 81, 96, 103, 107 and 108. -/
def Obligations.ContextsAndRouters : Prop :=
  ∀ (s : State) (b : BeadId),
    (let last := fun c : Context => if (s.bead b).current = some c.id.ctx.val then s.time.clk else c.lastRun
     ∀ c : Context, (∀ d, s.currentCtx b = some d → d.ended = true ∨ s.isBlocked d = true) → s.ctx ⟨b, c.id.ctx⟩ = some c →
      s.runnable c = true → (∀ k d, s.ctx ⟨b, k⟩ = some d → s.runnable d = true → k ≠ c.id.ctx →
        last c < last d ∨ (last c = last d ∧ c.id.ctx.val < k.val)) → Does (.contextSwitch b) s fun t =>
        (t.bead b).current = some c.id.ctx.val ∧ t.serve = s.serve ∧ t.mem = s.mem) ∧
    (∀ d, s.currentCtx b = some d → d.ended = false → s.isBlocked d = false → exec (.contextSwitch b) s = .next s) ∧
    (∀ (e : EdgeId) c f rest, s.ctx e.ctx = some c → takeFlight e s.arr.flights = some (f, rest) →
      (s.mayLand f = false → ∀ check, exec (.entryArrival e check false) s = .next s) ∧
      (s.mayLand f = true →
        ((c.inEdge e.edge.val).queue.length < 16 → (c.inEdge e.edge.val).spillCount = 0 → e.edge.val < c.ins.length →
          Does (.entryArrival e .ok false) s fun t => t.arr.flights = rest ∧
            ∃ d, t.ctx e.ctx = some d ∧ (d.inEdge e.edge.val).queue = (c.inEdge e.edge.val).queue ++ [f.entry]) ∧
        (16 + (c.inEdge e.edge.val).spillSize ≤ (c.inEdge e.edge.val).held → exec (.entryArrival e .ok false) s = .next s) ∧
        ∀ k code, Does (.entryArrival e (.failed k code) false) s fun t => t.arr.flights = rest ∧
          t.reg (rFrame e.ctx.bead.die.val 0x38) = min (s.reg (rFrame e.ctx.bead.die.val 0x38) + 1) 0xFFFFFFFF ∧
          ∀ r ∈ t.serve.steps, (r.configs.any fun p => p.1 == c.config) = true → r.fail.isSome)) ∧
    (∀ (e : EdgeId) c, s.ctx e.ctx = some c → e.edge.val < c.ins.length →
      ((c.inEdge e.edge.val).spillCount = 0 → ∀ check, exec (.entryArrival e check true) s = .next s) ∧
      (0 < (c.inEdge e.edge.val).spillCount → exec (.entryArrival e .ok true) s = .next s ∧
        ∀ k code, Does (.entryArrival e (.failed k code) true) s fun t =>
          (∃ d, t.ctx e.ctx = some d ∧ (d.inEdge e.edge.val).spillCount + 1 = (c.inEdge e.edge.val).spillCount) ∧
          t.reg (rFrame e.ctx.bead.die.val 0x38) = min (s.reg (rFrame e.ctx.bead.die.val 0x38) + 1) 0xFFFFFFFF ∧
          ∀ r ∈ t.serve.steps, (r.configs.any fun p => p.1 == c.config) = true → r.fail.isSome)) ∧
    (∀ (x : CtxId) (u : Fin 4) c k ks d ds, s.ctx x = some c →
      let w := (nth 0 c.steer u.val).toNat
      let sent := fun t : State => t.arr.flights.map fun f => (f.dest, f.entry)
      let still := ∀ y ∈ s.arr.ctxs, ∀ o ∈ y.outs, o.hold = []
      nth true c.steerBad u.val = false → (c.inEdge (bits w 8 3)).queue = k :: ks →
      (bits w 0 2 = 1 → (c.inEdge (bits w 2 3)).queue = d :: ds → k.tag = d.tag →
        let code := k.data.toNat % 4
        let os := if code = 0 then [bits w 11 3] else if code = 1 then [bits w 14 3] else if code = 2 then [bits w 11 3, bits w 14 3] else []
        (∀ o ∈ os, os.count o ≤ (c.outEdge o).credits) → Does (.steeringSwitchFire x u) s fun t =>
          ∃ more, sent t = sent s ++ more ++ (os.map fun o => (s.outDest c.config (c.outEdge o), d)) ∧ (still → more = [])) ∧
      (bits w 0 2 = 2 → k.data.toNat % 4 ≤ 1 →
        (c.inEdge (if k.data.toNat % 4 = 0 then bits w 2 3 else bits w 5 3)).queue = d :: ds → k.tag = d.tag →
        1 ≤ (c.outEdge (bits w 11 3)).credits → Does (.steeringMergeFire x u) s fun t =>
          ∃ more, sent t = sent s ++ more ++ [(s.outDest c.config (c.outEdge (bits w 11 3)), d)] ∧ (still → more = [])) ∧
      (bits w 0 2 = 2 → 1 < k.data.toNat % 4 → Does (.steeringMergeFire x u) s fun t => t.arr.flights = s.arr.flights ∧
        t.reg (rFrame x.bead.die.val 0x20) = min (s.reg (rFrame x.bead.die.val 0x20) + 1) 0xFFFFFFFF)) ∧
    (∀ (die : Fin 4) (config : Fin 64),
      ((s.stalled die.val config.val = false ∨ s.dogBites die.val config.val = false) → exec (.spatialDeadlock die config) s = .next s) ∧
      (s.stalled die.val config.val = true → s.dogBites die.val config.val = true → Does (.spatialDeadlock die config) s fun t =>
        (∀ x ∈ t.arr.ctxs, x.config ≠ config.val) ∧
        t.reg (rFrame die.val 0x28) = min (s.reg (rFrame die.val 0x28) + 1) 0xFFFFFFFF ∧
        ∀ r ∈ t.serve.steps, (r.configs.any fun p => p.1 == config.val) = true → r.fail.isSome)) ∧
    (∀ (id : CtxId) (w : Word512) (fromTile : Bool) c r, s.ctx id = some c → readRecord (leBytes 64 w.toNat) = .ok r →
      let l := ((s.bead id.bead).dictPair id.ctx.val r.id).load r.gen r.width r.entries c.runs
      (l.1 = .loaded → Does (.dictionaryRecordLoad id w fromTile) s fun t =>
        (t.bead id.bead).dictPair id.ctx.val r.id = l.2 ∧ Only [.arr] s t) ∧
      (l.1 = .waits → exec (.dictionaryRecordLoad id w fromTile) s = .next (s.bump (rFrame id.bead.die.val 0xA0))))

/-- A dictionary store takes a record only as the successor of its current generation, into a slot that no step holds, and never beside
a slot whose generation has the same low eight bits. -/
def Obligations.DictionarySlots : Prop :=
  ∀ (p q : DictPair) (gen width : Nat) (es steps : List Nat), p.load gen width es steps = (.loaded, q) →
    ((p.a.valid = true ∨ p.b.valid = true) → gen = (p.current.gen + 1) % 2 ^ 32) ∧
    q.current.valid = true ∧ q.current.gen = gen ∧ q.current.entries = es ∧ q.current.holders = steps ∧
    (p.a.valid = true → p.a.holders ≠ [] → q.a = p.a) ∧ (p.b.valid = true → p.b.holders ≠ [] → q.b = p.b) ∧
    (q.a.valid = true → q.b.valid = true → q.a.gen % 256 ≠ q.b.gen % 256)

/-- Residency: the swap unit begins the restore of a waiting configuration, the end of a restore makes it resident, and a frame's remap
applies at a boundary once its rods are empty: a logical rod then shows what the next one held. Where the spec leaves a detail open it
rests on the model's choice of log 84. -/
def Obligations.Residency : Prop :=
  ∀ s : State,
    (∀ lost, (∀ c ∈ s.arr.ctxs, s.provingBead c.id.bead = false) →
      (s.waitingCfgs = [] → exec (.swapDecision lost) s = .next s) ∧
      (∀ n c g, s.waitingCfgs = [n] → s.cfg n = some c → s.wantedGen c = some g → c.disabled.contains g.gen = false →
        c.resident = false → c.restoring = false → (∀ x ∈ g.val.ctxs, s.closedBead x.id.bead = false) → s.inWay c g.val = [] →
        Does (.swapDecision lost) s fun t => t.cfg n = some { c with
          restoring := true, map := g.val.ctxs.filterMap fun x => (s.placeCtx c g.val x).map fun k => (x.id.bead, k) }) ∧
      (∀ n c g, s.waitingCfgs = [n] → s.cfg n = some c → s.wantedGen c = some g → c.disabled.contains g.gen = true →
        Does (.swapDecision lost) s fun t => t.cfg n = some { c with waiting := none, release := [], inbox := [] } ∧
          ∀ r ∈ t.serve.steps, (r.configs.any fun p => p.1 == n) = true → r.fail.isSome)) ∧
    (∀ (n : Fin 64) c g, s.cfg n.val = some c → s.wantedGen c = some g → c.restoring = true → s.serve.colls = [] →
      (Does (.contextRestoreDone n .ok) s fun t =>
        t.cfg n.val = some { c with resident := true, restoring := false, waiting := none, release := [], inbox := [], saved := none,
                                    badSave := false, since := s.time.clk } ∧
        t.reg (rInst c.inst 0x18) = min (s.reg (rInst c.inst 0x18) + 1) 0xFFFFFFFF) ∧
      (∀ k code, c.badSave = false → Does (.contextRestoreDone n (.failed k code)) s fun t =>
        t.cfg n.val = some { c with badSave := true }) ∧
      (∀ k code, c.badSave = true → Does (.contextRestoreDone n (.failed k code)) s fun t =>
        t.cfg n.val = some { c with restoring := false, waiting := none, release := [], inbox := [], saved := none, badSave := false } ∧
        ∀ r ∈ t.serve.steps, (r.configs.any fun p => p.1 == n.val) = true → r.fail.isSome)) ∧
    (∀ (die : Fin 4) lost,
      ((∀ p ∈ s.faults.remaps, p.1 ≠ die.val) → exec (.rodRemap die lost) s = .next s) ∧
      (∀ p, s.faults.remaps.find? (fun p => p.1 == die.val) = some (die.val, p) →
        (∀ c ∈ s.arr.ctxs, c.valid = true → c.id.bead.die = die → c.id.bead.rod.val < p) →
        (0 < s.time.tick → exec (.rodRemap die lost) s = .next s) ∧
        (s.time.tick = 0 →
          (∀ x ∈ s.arr.beads, ∀ f ∈ x.fills, ¬ (x.id.die = die ∧ p ≤ x.id.rod.val) ∧
            ∀ y off, placeOf true f.mpa = .tileMem y off → ¬ (y.die = die ∧ p ≤ y.rod.val) ∨ x.id.die ≠ die) →
          (∀ g ∈ s.mem.gathers, ¬ (g.ctx.bead.die = die ∧ p ≤ g.ctx.bead.rod.val)) → Does (.rodRemap die lost) s fun t =>
            t.reg (rFrame die.val 0) = putBit (putBit (putBits (s.rodMap die.val) 0 6 p) 6 false) 7 true ∧
            t.faults = { s.faults with remaps := s.faults.remaps.filter fun q => q.1 ≠ die.val } ∧
            (∀ o, o ≠ rFrame die.val 0 → t.reg o = s.reg o) ∧
            ∀ l off, p ≤ l → l < 31 → off < 0x2000000 → Memory.read t.mem.cells (die.val * 2 ^ 46 + l * 0x2000000 + off) =
              Memory.read s.mem.cells (die.val * 2 ^ 46 + (l + 1) * 0x2000000 + off))))

/-! ### The vault and installations (09) -/

/-- The journal: its buffer is programmed to both mirrors a millisecond after its first record, and the page map then follows it; a page
program that completes fills its physical page and brings its record, and the power-fail signal ends every program and leaves nothing
unwritten. The appliance's commands: a repair is opened at its source, and synchronization leaves no installation that the appliance does
not know, marks entries that miss shards as STALE, creates what is committed and absent, and reports what it does not list. Where the spec
leaves a detail open it rests on the model's choices of logs 85, 113 and 115. -/
def Obligations.VaultCommands : Prop :=
  (∀ s : State,
     (s.vault.bufferClk = none → exec .journalFlushTimer s = .next s) ∧
     (∀ c, s.vault.bufferClk = some c →
       (s.fallsDue (c + 1000000) = false → exec .journalFlushTimer s = .next s) ∧
       (s.fallsDue (c + 1000000) = true → Does .journalFlushTimer s fun t => t.time = (s.runTo (c + 1000000)).time ∧
         t.vault.nextSeq = s.vault.nextSeq ∧ t.vault.catalogue = s.vault.catalogue ∧ Only [.time, .vault] s t ∧
         (s.vault.quiescent = true → t.vault = s.vault) ∧
         (s.vault.quiescent = false → t.vault.buffer = [] ∧ t.vault.bufferClk = none ∧
           t.vault.mirrorA = s.vault.mirrorA ++ s.vault.buffer ∧ t.vault.mirrorB = s.vault.mirrorB ++ s.vault.buffer ∧
           (∀ r, s.vault.buffer.getLast? = some r → t.vault.durable = r.seq) ∧
           ∀ n page phys, s.vault.buffer = [JRec.sealed n (.map page phys)] → findKey t.vault.mapped page = some phys))) ∧
     (∀ (ch : Fin 128) reads, (∀ f ∈ s.vault.flights, f.piece.page % 128 ≠ ch.val) → exec (.pageProgramDone ch reads) s = .next s) ∧
     (∀ (ch : Fin 128) reads p, s.vault.flights.find? (fun f => f.piece.page % 128 == ch.val) = some p → s.vault.waiting = [] →
       s.vault.member = none → s.vault.buffer.length < 1023 → Does (.pageProgramDone ch reads) s fun t =>
         t.vault.flights = s.vault.flights.filter (· != p) ∧ t.vault.mapped = s.vault.mapped ∧ Only [.vault] s t ∧
         (p.wanted = true → t.vault.nextSeq = s.vault.nextSeq + 1 ∧ t.vault.phys = s.vault.phys ++ [(p.phys, p.data)] ∧
           t.vault.buffer = s.vault.buffer ++ [JRec.sealed s.vault.nextSeq (.map p.piece.page p.phys)]) ∧
         (p.wanted = false → t.vault.nextSeq = s.vault.nextSeq ∧ t.vault.phys = s.vault.phys ∧ t.vault.buffer = s.vault.buffer)) ∧
     (s.vault.mapReady = true → Does .powerFail s fun t =>
       t.vault.powerFail = true ∧ t.vault.quiescent = true ∧ t.vault.flights = [] ∧ t.vault.waiting = [] ∧
       (s.vault.quiescent = false → t.vault.buffer = []) ∧ t.vault.bufferClk = none ∧
       t.vault.nextSeq = s.vault.nextSeq + (s.vault.flights.filter (·.wanted)).length ∧
       t.vault.catalogue = s.vault.catalogue ∧ Only [.vault] s t) ∧
     (s.vault.mapReady = false → exec .powerFail s = .next s)) ∧
  (∀ (s : State) (m : Msg) (rows : List ApplianceRow),
     (s.takes 0x33 m → s.answerable m →
       let id := field m.payload 4 16
       let gen := field m.payload 20 4
       (s.entryOf id gen = none → Does (.shardRepair m) s fun t => t.out = s.out ++ [s.answer 0x33 m stNOT_FOUND []] ∧ Only [.out] s t) ∧
       (∀ c, s.entryOf id gen = some c → c.state ≠ 3 → Does (.shardRepair m) s fun t =>
         t.out = s.out ++ [s.answer 0x33 m stINVALID_FIELD []] ∧ Only [.out] s t) ∧
       (∀ c, s.entryOf id gen = some c → c.state = 3 →
         let names := (pieces 2 (field m.payload 24 2) (m.payload.drop 26)).map leNat
         names ≠ [] → (∀ n ∈ names, c.kept.contains n = true ∧ c.bad.contains n = false) → s.vault.repair = none → s.vault.reader = none →
         Does (.shardRepair m) s fun t => ∃ r : Reader, t.vault = { s.vault with repair := some r, tagNo := s.vault.tagNo + 1 } ∧
           r.entry = c.index ∧ r.shards = c.shards.filter (fun h => names.contains h.index) ∧ r.peers.length = 1 ∧
           t.out.getLast? = some (s.answer 0x33 m stOK []))) ∧
     (s.takes 0x34 m → s.answerable m → s.vault.catalogue = [] → rows = [] → Does (.catalogueSync m rows) s fun t =>
       t.out = s.out ++ [s.answer 0x34 m stOK []] ∧ Only [.out] s t) ∧
     (∀ r, s.takes 0x34 m → rows = [r] → r.committed = true → s.vault.catalogue = [] → Does (.catalogueSync m rows) s fun t =>
       ∃ c : CatEntry, t.vault.catalogue = [c] ∧ c.state = 4 ∧ c.imageId = r.imageId.toNat ∧ c.gen = r.imageGen.toNat ∧ c.kept = []) ∧
     (∀ c, s.takes 0x34 m → s.vault.catalogue = [c] → rows = [] →
       ((c.state = 1 ∨ c.state = 2) → Does (.catalogueSync m rows) s fun t => t.vault.catalogue = []) ∧
       (c.state = 3 → s.answerable m → Does (.catalogueSync m rows) s fun t => t.vault = s.vault ∧
         t.out = s.out ++ [s.answer 0x34 m stOK (leBytes 16 c.imageId ++ leBytes 4 c.gen)])) ∧
     (∀ c r, s.takes 0x34 m → s.vault.catalogue = [c] → rows = [r] → r.committed = true → r.imageId.toNat = c.imageId →
       r.imageGen.toNat = c.gen → c.state = 3 → s.missing c ≠ [] → Does (.catalogueSync m rows) s fun t =>
         ∃ d, t.vault.catalogue = [d] ∧ d.state = 4 ∧ d.kept = c.kept ∧ ∀ n ∈ s.missing c, n ∈ d.owed))

/-- A member of an installation: BEGIN opens it with its pages reserved, DATA and REPAIR take pieces of its shards into the install buffer,
END counts, COMMIT makes it durable, ABORT discards it; a message of another tag is counted and discarded. The reader of an installation:
acceptances, refusals, credits and reports of its members, the commit, and its timeouts. A timeout that has come by the tick of a message
takes effect before it. Where the spec leaves a detail open it rests on the model's choices of logs 46, 85, 114 and 115. -/
def Obligations.Installations : Prop :=
  (∀ s : State,
     (∀ x, s.vault.member = some x → x.committed = false → x.due ≤ s.time.clk → s.ripeInstall.vault.member = none) ∧
     ((∀ x, s.vault.member = some x → (x.committed = true ∨ s.time.clk < x.due) ∧
         (x.lacks = false ∨ x.checked = true ∨ s.time.clk < x.endClk + 10000000)) →
       (∀ r, (s.vault.reader = some r ∨ s.vault.repair = some r) →
         s.time.clk < r.timeout ∧ (r.silent = false ∨ s.time.clk < r.begun + 100000000)) → s.ripeInstall = s)) ∧
  (∀ (s : State) (m : Msg),
     let u := s.ripeInstall
     (s.takes kBEGIN m → (u.takeBegin m).1 = none → exec (.installBegin m) s = .next (u.takeBegin m).2) ∧
     (∀ bs v, s.takes kBEGIN m → bit m.opt.toNat 0 = false → u.takeBegin m = (some bs, v) → v.fab.coordValid = true →
       let b := beginOf bs
       bit b.mask (memberBit v.fab.row v.fab.col) = true →
       let kept := (headShards b.head).filter fun h => h.keptAt v.fab.row v.fab.col
       let n := (kept.map Shard.pages).sum
       (v.imageStatus b.head false ≠ stOK → exec (.installBegin m) s =
         .next (v.instMsg kREFUSE (msgModule m) m.tag.toNat (v.imageStatus b.head false) [])) ∧
       (∀ e, v.imageStatus b.head false = stOK → v.memberBusy m.tag.toNat = false → v.freeEntry = some e →
         (v.freeVault n).length = n → Does (.installBegin m) s fun t =>
           (∃ x : Member, t.vault.member = some x ∧ x.tag = m.tag.toNat ∧ x.reader = msgModule m ∧ x.entry = e ∧
             x.shards = (kept.map fun h => rxShard h.index h.stream) ∧ x.extent = assignPages kept (v.freeVault n) ∧
             x.committed = false ∧ x.timeoutMs = b.timeout ∧ x.lastMsg = v.time.clk) ∧
           t.vault.reserved = v.freeVault n ∧
           ∃ c : CatEntry, t.vault.catalogue = v.vault.catalogue ++ [c] ∧ c.index = e ∧ c.state = 1 ∧ c.kept = kept.map (·.index))) ∧
     (m.seq = 0 → m.payload.length < 65536 → (s.takeBegin m).1 = some m.payload) ∧
     (∀ x, u.vault.member = some x → x.tag = m.tag.toNat →
       let y := { x with lastMsg := u.time.clk }
       (∀ r slot page, s.takes kDATA m → x.shards.find? (fun r => r.shard == m.aux.toNat) = some r → r.verified = false →
         m.offset.toNat % 65536 = 0 → m.offset.toNat + m.payload.length ≤ r.length → m.offset.toNat ∉ r.got →
         u.vault.freeSlot = some slot → (x.pagesOf m.aux.toNat)[m.offset.toNat / 65536]? = some page →
         Does (.installData m) s fun t =>
           t.vault.member = some { y with seqs := x.seqs + 1, shards := x.shards.map fun q =>
             if q.shard == m.aux.toNat then { q with got := q.got ++ [m.offset.toNat] } else q } ∧
           (∀ i, i < m.payload.length → Memory.read t.mem.cells (slotMpa slot + i) = m.payload.getD i 0) ∧
           t.vault.catalogue = u.vault.catalogue ∧ Only [.mem, .vault] u t) ∧
       (∀ r page, s.takes kREPAIR m → m.offset = 0 → x.shards.find? (fun r => r.shard == m.aux.toNat) = some r →
         m.payload.length ≤ r.length → u.vault.freeSlot ≠ none → (x.pagesOf m.aux.toNat).head? = some page →
         Does (.installRepair m) s fun t =>
           t.reg 0x80020 = min (u.reg 0x80020 + 1) 0xFFFFFFFF ∧ ∃ z, t.vault.member = some z ∧ z.seqs = 1 ∧ z.endCount = none ∧
             ∀ q ∈ z.shards, q.shard = m.aux.toNat → q.got = [0] ∧ q.verified = false) ∧
       (s.takes kEND m → x.shards ≠ [] → exec (.installEnd m) s =
         .next (u.setMember { y with endCount := some (field m.payload 0 4), endClk := u.time.clk })) ∧
       (s.takes kCOMMIT m →
         (x.committed = true → exec (.installCommit m) s = .next (u.instMsg kCOMMITTED x.reader x.tag stOK [])) ∧
         (∀ c, x.committed = false → u.entryAt x.entry = some c →
           ((∀ r ∈ x.shards, r.verified = true) → u.vault.powerFail = false → u.vault.quiescent = false → Does (.installCommit m) s fun t =>
             t.vault.member = some { y with committed := true } ∧ t.vault.reserved = [] ∧ t.vault.buffer = [] ∧
             (∃ j ∈ t.vault.mirrorA, j ∈ t.vault.mirrorB ∧ j.what = .commit c.index) ∧
             ∃ n, t.entryAt x.entry = some n ∧ (n.state = 3 ∨ n.state = 4) ∧ (n.state = 3 ↔ n.owed = []) ∧ n.stamp = u.fullStamp ∧
               n.gen = c.gen) ∧
           (((∃ r ∈ x.shards, r.verified = false) ∨ u.vault.powerFail = true) → exec (.installCommit m) s = .next (u.setMember y)))) ∧
       (s.takes kABORT m →
         let v := u.setVault { u.vault with begins := u.vault.begins.filter fun b => b.tag ≠ m.tag.toNat }
         (x.committed = true → exec (.installAbort m) s = .next (v.setMember y)) ∧
         (x.committed = false → Does (.installAbort m) s fun t => t.vault.member = none ∧ t.vault.reserved = [] ∧
           (x.created = false → t.vault.catalogue = u.vault.catalogue) ∧
           ∀ c, x.created = true → u.entryAt x.entry = some c → t.entryAt x.entry = none ∧
             ((c.state = 1 ∨ c.state = 2) → t.reg 0x80028 = min (u.reg 0x80028 + 1) 0xFFFFFFFF)))) ∧
     ((∀ x, u.vault.member = some x → x.tag ≠ m.tag.toNat) →
       (s.takes kDATA m → exec (.installData m) s = .next (u.bump 0x80028)) ∧
       (s.takes kEND m → exec (.installEnd m) s = .next (u.bump 0x80028)) ∧
       (s.takes kREPAIR m → exec (.installRepair m) s = .next (u.bump 0x80028)) ∧
       (s.takes kCOMMIT m → exec (.installCommit m) s = .next (u.bump 0x80028)) ∧
       (s.takes kABORT m → u.vault.begins = [] → exec (.installAbort m) s = .next (u.bump 0x80028))) ∧
     (∀ x, s.vault.member = some x →
       (x.lacks = true → x.checked = false → s.fallsDue (x.endClk + 10000000) = true → Does .reportTimer s fun t =>
         t.time = (s.runTo (x.endClk + 10000000)).time ∧ ∃ z, t.vault.member = some z ∧ z.endCount = none ∧ z.tag = x.tag ∧
           (x.failing = [] → z = { x with endCount := none })) ∧
       ((x.lacks = false ∨ x.checked = true ∨ s.fallsDue (x.endClk + 10000000) = false) → exec .reportTimer s = .next s) ∧
       (x.committed = false → s.fallsDue x.due = true → Does .installInactivityTimeout s fun t =>
         t.vault.member = none ∧ t.vault.reserved = [] ∧ t.time = (s.runTo x.due).time) ∧
       ((x.committed = true ∨ s.fallsDue x.due = false) → exec .installInactivityTimeout s = .next s))) ∧
  (∀ (s : State) (m : Msg) (reads : List Check) (r : Reader), let u := s.ripeInstall
     u.vault.reader = some r → r.image ≠ [] →
     (r.tag = m.tag.toNat →
       (s.takes kACCEPT m → Does (.installAccept m reads) s fun t => ∃ q, t.vault.reader = some q ∧ q.tag = r.tag ∧ q.shards = r.shards ∧
         (∀ p ∈ q.peers, p.module = msgModule m → p.answered = true) ∧
         ((∃ p ∈ r.peers, p.answered = false ∧ p.module ≠ msgModule m) → q.queue = r.queue ∧ t.out = u.out)) ∧
       (s.takes kREFUSE m → (r.ended = true ∨ r.committing = true → exec (.installRefuse m) s = .next u) ∧
         (r.ended = false → r.committing = false → Does (.installRefuse m) s fun t => t.vault = { u.vault with reader := none })) ∧
       (s.takes kCREDIT m → r.queue = [] → Does (.installCredit m reads) s fun t => t.vault.reader =
         some (r.setPeer m fun p => { p with credits := p.credits + field m.payload 0 4 }) ∧ t.out = u.out) ∧
       (s.takes kREPORT m → (r.committing = true → exec (.installReport m reads) s = .next u) ∧
         (r.committing = false → m.status = 0 → m.payload = [] → Does (.installReport m reads) s fun t => ∃ q, t.vault.reader = some q ∧
           (∀ p ∈ q.peers, p.module = msgModule m → p.verified = true) ∧ (q.committing = true ↔ ∀ p ∈ q.peers, p.verified = true)) ∧
         (∀ p, r.committing = false → m.status ≠ 0 → r.peers.find? (fun p => p.module == msgModule m) = some p →
           (∃ n, m.payload = leBytes 2 n ∧ n < 65536 ∧ findKey p.fails n = some 4) →
           Does (.installReport m reads) s fun t => t.vault.reader = none)) ∧
       (s.takes kCOMMITTED m →
         (r.committing = true → (∀ p ∈ r.peers, p.module ≠ msgModule m → p.committed = true) → Does (.installCommitted m) s fun t =>
           t.vault = { u.vault with reader := none }) ∧
         (r.committing = false → exec (.installCommitted m) s = .next (u.setVault { u.vault with
           reader := some (r.setPeer m fun p => { p with committed := true }) })))) ∧
     (r.tag ≠ m.tag.toNat → u.vault.repair = none →
       (s.takes kACCEPT m → exec (.installAccept m reads) s = .next (u.bump 0x80028)) ∧
       (s.takes kREFUSE m → exec (.installRefuse m) s = .next (u.bump 0x80028)) ∧
       (s.takes kCREDIT m → exec (.installCredit m reads) s = .next (u.bump 0x80028)) ∧
       (s.takes kREPORT m → exec (.installReport m reads) s = .next (u.bump 0x80028)) ∧
       (s.takes kCOMMITTED m → exec (.installCommitted m) s = .next (u.bump 0x80028)))) ∧
  (∀ (s : State) (r : Reader), s.vault.reader = some r → r.image ≠ [] →
     (r.silent = true ↔ ∃ p ∈ r.peers, p.answered = false) ∧
     (r.silent = true → s.fallsDue (r.begun + 100000000) = true → Does .acceptWaitTimeout s fun t =>
       t.vault = { s.vault with reader := none } ∧ t.time = (s.runTo (r.begun + 100000000)).time) ∧
     ((r.silent = false ∨ s.fallsDue (r.begun + 100000000) = false) → exec .acceptWaitTimeout s = .next s) ∧
     (r.committing = true → s.fallsDue (r.begun + 10000000) = true → Does .commitResend s fun t =>
       t.time = (s.runTo (r.begun + 10000000)).time ∧ t.vault = { s.vault with reader := some { r with begun := t.time.clk } }) ∧
     ((r.committing = false ∨ s.fallsDue (r.begun + 10000000) = false) → exec .commitResend s = .next s) ∧
     (s.fallsDue r.timeout = true → Does .installReaderTimeout s fun t =>
       t.vault = { s.vault with reader := none } ∧ t.time = (s.runTo r.timeout).time) ∧
     (s.fallsDue r.timeout = false → exec .installReaderTimeout s = .next s))

/-! ### Host commands (13 to 15) -/

/-- The checks of every host command, in their order: a command that is not fetched does nothing, a descriptor that cannot be read puts
its ring in ERROR, and a command with a reserved opcode, one that its sender may not send, that is malformed, that meets a bus error or
that the full ledger holds off ends with its status and no effect of its own. Where the spec leaves a detail open it rests on the model's choices of logs 56, 79 and 121. -/
def Obligations.HostCommandChecks : Prop :=
  ∀ (s : State) (i : Instr) (op : Nat) (c : Cmd) (h : CmdShape), hostShape i = some (op, c, h) →
    let u := s.consumed c
    let j := s.jobOf op c
    let allowed := h.allowed j.origin = true ∧ (h.names = true → 2 ≤ j.origin → (s.inst c.inst.val).owner = j.origin)
    (s.mayFetch c = false → exec i s = .next s) ∧
    (s.mayFetch c = true → c.fetchError = true → Does i s fun t =>
      t.reg 0xC0828 = min (s.reg 0xC0828 + 1) 0xFFFFFFFF ∧ (t.ring c.sq.val).st = 2 ∧ (t.ring c.sq.val).err = 2 ∧
      Only [.regs, .rings, .out] s t) ∧
    (s.mayFetch c = true → c.fetchError = false → c.opcode.isSome = true → exec i s = .next (u.refuse j stINVALID_FIELD)) ∧
    (s.mayFetch c = true → c.fetchError = false → c.opcode = none →
      (¬ allowed → exec i s = .next (u.refuse j stNOT_PERMITTED)) ∧
      (allowed → cmdFormed c h = false → exec i s = .next (u.refuse j stINVALID_FIELD)) ∧
      (allowed → cmdFormed c h = true → c.busError = true → exec i s = .next ((u.bump 0xC0828).complete j stBUS_ERROR [])) ∧
      (allowed → cmdFormed c h = true → c.busError = false → h.change = true → s.ledgerShut = true → fromOutside j.origin = true →
        exec i s = .next ((u.bump 0x70050).complete j stBUSY [])))

/-- Instances: created FREE to CREATED over a committed base image, restarted from TORN_DOWN, released with everything they hold, and
activated by the order of the activation. Where the spec leaves a detail open it rests on the model's choices of logs 39, 40 and 48. -/
def Obligations.InstanceLifecycle : Prop :=
  ∀ (s : State) (j : Job), s.shape →
    let i := j.cmd.inst.val
    let x := s.inst i
    let u := s.consumed j.cmd
    (∀ e, s.runs (.instanceCreate j.cmd) j → 1 ≤ field j.cmd.args 20 1 → field j.cmd.args 20 1 ≤ 9 → argsZero j.cmd.args 21 23 = true →
      s.svc.hbmReady = true → x.state = .free → s.entryOf (field j.cmd.args 0 16) (field j.cmd.args 16 4) = some e → e.state = 3 →
      e.kind = 0 → s.fab.row ≠ 8 → Does (.instanceCreate j.cmd) s fun t =>
        t.inst i = { Inst.reset with state := .created, owner := field j.cmd.args 20 1, entry := some e.index } ∧
        (∀ k, k ≠ i → t.inst k = s.inst k)) ∧
    (s.runs (.instanceCreate j.cmd) j → x.state ≠ .free → Does (.instanceCreate j.cmd) s fun t => t.serve = s.serve ∧ t.vault = s.vault) ∧
    (s.runs (.instanceRestart j.cmd) j → argsZero j.cmd.args 0 44 = true → x.state = .tornDown →
      (∀ g, x.sched.current = some g → g.val.period = s.time.period) → Does (.instanceRestart j.cmd) s fun t =>
        t.inst i = { x with state := if x.hasAbsent then .part else .active, stopped := false, fired := (s.time.tick + 1, 0) } ∧ (∀ k, k ≠ i → t.inst k = s.inst k)) ∧
    (s.runs (.instanceRelease j.cmd) j → argsZero j.cmd.args 0 44 = true → x.seqs = [] → x.queue = [] →
      (∀ r ∈ s.serve.steps, r.inst ≠ i) → Does (.instanceRelease j.cmd) s fun t =>
        t.inst i = Inst.reset ∧ (∀ p ∈ t.mem.pages, p.owner ≠ i) ∧ (∀ c ∈ t.serve.cfgs, c.inst ≠ i) ∧
        (∀ r ∈ t.fab.requests, r.inst ≠ i)) ∧
    (∀ checks e v, s.runs (.activate j.cmd checks) j → argsZero j.cmd.args 0 44 = true → s.svc.hbmReady = true → s.fab.row ≠ 8 →
      x.state = .created → x.entry.bind s.entryAt = some e → s.vault.mapReady = true →
      (u.setInst i { x with state := .activating }).activate i e checks = (.ok (), v) →
      exec (.activate j.cmd checks) s = .next (v.instDone j x stOK))

/-- Loads of a generation: what a well-formed command brings enters the free slot of its table with its effective beat, and waits where
both slots are in use. Where the spec leaves a detail open it rests on the model's choice of log 41. -/
def Obligations.GenerationLoads : Prop :=
  ∀ (s : State) (j : Job),
    let i := j.cmd.inst.val
    let a := j.cmd.args
    let u := s.consumed j.cmd
    let x := u.inst i
    (∀ g loc gen c got v, s.runs (.configLoad j.cmd) j → parseConfig j.cmd.block x.tables = some (g, loc, gen) →
      u.serve.cfgs.find? (fun c => c.inst == i && c.loc == loc) = some c → j.stamp.beat + 2 ≤ field a 0 6 → argsZero a 6 38 = true →
      c.gens.has gen = false → u.allocateAll i ((List.range 24).map fun k => (k, g.ctxPages k, 4)) [] = (.ok got, v) →
      exec (.configLoad j.cmd) s =
        .next (v.startLoad j c.num (.config c.num { g with pages := got.flatten } gen (field a 0 6)) (leBytes 1 c.num))) ∧
    (∀ rs l v gen, s.runs (.tableLoad j.cmd) j → recsOf j.cmd.block = some rs → rs.all schedType = true →
      u.addRecs i x.csBase x.csArea [] rs Loaded.none = some l →
      l.schedule (fun n => match u.serve.cfgs.find? (fun c => c.inst == i && c.loc == n) with | some c => c.num | none => 64) =
        some (v, gen) → j.stamp.beat + 2 ≤ field a 0 6 → argsZero a 6 38 = true → x.sched.has gen = false → x.state ≠ .free →
      x.state ≠ .created → exec (.tableLoad j.cmd) s = .next (u.startLoad j 0 (.sched v gen (field a 0 6)) (leBytes 4 gen))) ∧
    (∀ t gen, s.runs (.routeTableLoad j.cmd) j → parseRoute j.cmd.block = some (t, gen) → j.stamp.beat + 2 ≤ field a 8 6 →
      argsZero a 1 7 = true → argsZero a 14 30 = true → t.fits x.csArea = true → (x.route (field a 0 1)).has gen = false →
      (∀ g, (x.route (field a 0 1)).current = some g → t.revises g.val = true) →
      exec (.routeTableLoad j.cmd) s = .next (u.startLoad j (field a 0 1) (.route (field a 0 1) t gen (field a 8 6)) [])) ∧
    (∀ v gen, s.runs (.automatonLoad j.cmd) j → parseSampler j.cmd.block = some (v, gen) → argsZero a 0 44 = true →
      (∀ g, x.sampler.current = some g → v.sameLayout g.val = true) → v.areasOk x.pageMap x.maxRows = true → x.sampler.has gen = false →
      exec (.automatonLoad j.cmd) s = .next (u.startLoad j 0 (.sampler v gen) [])) ∧
    (∀ b c reads, s.runs (.adapterBind j.cmd reads) j → x.entry.bind u.entryAt = some b → u.entryOf (field a 4 16) (field a 20 4) = some c →
      field a 0 2 < 1024 → argsZero a 2 2 = true → argsZero a 24 20 = true → c.state = 3 → c.kind = 1 → c.baseId = b.imageId →
      c.rank ≤ 128 →
      exec (.adapterBind j.cmd reads) s = .next (u.startLoad j (field a 0 2) (.adapter (field a 0 2) ⟨c.index, []⟩ c.gen reads) [])) ∧
    (s.runs (.adapterUnbind j.cmd) j → field a 0 2 < 1024 → argsZero a 2 42 = true → s.shape → Does (.adapterUnbind j.cmd) s fun t =>
      (t.inst i).adapter (field a 0 2) = (x.adapter (field a 0 2)).unbind s.time.beat) ∧
    (∀ w v gen due, w.what = .sched v gen due → s.shape →
      let k := bits w.object 16 4
      let room := (s.inst k).sched.hasRoom && v.slotTables.all s.canSlot
      (room = true → ((s.load_ w).inst k).sched = (s.inst k).sched.load gen v (s.dueBeat due) ∧
        (s.load_ w).serve.waits = s.serve.waits) ∧
      (room = false → s.load_ w = { s with serve := { s.serve with waits := s.serve.waits ++ [w] } }))

/-- The settings of the host: quotas, ownership, tenants, preferences, an image deleted or installed, and NOP. Where the spec leaves a
detail open it rests on the model's choices of logs 38 and 120. -/
def Obligations.HostSettings : Prop :=
  ∀ (s : State) (j : Job), s.shape →
    let a := j.cmd.args
    let i := j.cmd.inst.val
    let u := s.consumed j.cmd
    (s.runs (.nopCommand j.cmd) j → exec (.nopCommand j.cmd) s = .next (u.complete j stOK [])) ∧
    (s.runs (.poolSet j.cmd) j → field a 12 1 ≤ 1 → argsZero a 13 31 = true →
      ((s.serve.insts.zipIdx.filter fun p => p.2 ≠ i).foldl (fun n p => n + p.1.acct.quota) 0) + field a 0 4 ≤ poolPages →
      field a 0 4 ≤ field a 4 4 → field a 4 4 ≤ poolPages → field a 8 4 ≤ csTiles → (s.inst i).acct.used ≤ field a 4 4 →
      (s.inst i).acct.csUsed ≤ field a 8 4 → Does (.poolSet j.cmd) s fun t =>
        t.inst i = (if (s.inst i).state = .free then s.inst i else { s.inst i with acct := { (s.inst i).acct with
          quota := field a 0 4, limit := field a 4 4, csLimit := field a 8 4, pin := field a 12 1 = 1 } }) ∧
        (∀ k, k ≠ i → t.inst k = s.inst k)) ∧
    (s.runs (.ownSet j.cmd) j → bits (field a 0 8) 58 6 = 0 → bits (field a 8 8) 14 2 = 0 → bits (field a 8 8) 48 16 = 0 →
      argsZero a 16 28 = true →
      let base := bits (field a 0 8) 0 46
      let size := bits (field a 0 8) 46 6
      let unit := bits (field a 0 8) 52 3
      let mode := bits (field a 0 8) 56 2
      let waits := s.behind s.fab.held (unit * 2 ^ 46 + base) (2 ^ size)
      mode ≠ 3 → 16 ≤ size → size ≤ 46 → unit ≤ 5 → base % 2 ^ size = 0 → bit (field a 0 8) 55 = true →
      (waits = true → (∀ o ∈ s.mem.own, o.base = base → o.size = size → o.unit = unit → o.mode ≠ 1) →
        s.ownOverlaps base size unit = false → s.mem.own.length + s.ownWaiting.length < 1024 → Does (.ownSet j.cmd) s fun t =>
          t.mem = s.mem ∧ ∃ h, t.fab = { s.fab with held := s.fab.held ++ [h] }) ∧
      (waits = false → (∀ o ∈ s.mem.own, o.unit = unit → overlaps o.base (2 ^ o.size) base (2 ^ size) = false) →
        s.mem.own.length + s.ownWaiting.length < 1024 →
        Does (.ownSet j.cmd) s fun t => t.mem.cells = s.mem.cells ∧ ∃ k, (∀ o ∈ s.mem.own, o.index ≠ k) ∧
          t.mem.own = s.mem.own ++ [⟨k, base, size, unit, mode, bits (field a 8 8) 0 14, 1⟩]) ∧
      (∀ o, s.mem.own.find? (fun o => o.base == base && o.size == size && o.unit == unit) = some o →
        (o.mode = 1 → Does (.ownSet j.cmd) s fun t => t.mem = s.mem ∧ t.reg 0x30058 = min (s.reg 0x30058 + 1) 0xFFFFFFFF) ∧
        (o.mode ≠ 1 → waits = false → Does (.ownSet j.cmd) s fun t =>
          { o with mode := mode, owner := bits (field a 8 8) 0 14, epoch := (o.epoch + 1) % 2 ^ 32 } ∈ t.mem.own))) ∧
    (s.runs (.tenantSet j.cmd) j → field a 8 2 ≠ 0 → argsZero a 1 3 = true → argsZero a 10 34 = true → Does (.tenantSet j.cmd) s fun t =>
      ∃ x, t.tenant (field a 0 1) = some x ∧ x.set = true ∧ x.next = some (field a 4 4, field a 8 2) ∧
        (∀ y, s.tenant (field a 0 1) = some y → x.used = y.used ∧ x.window = y.window ∧ x.budget = y.budget)) ∧
    (s.runs (.hint j.cmd) j → field a 0 1 < 16 → field a 1 1 ≤ 4 → (field a 2 1 ≤ 11 ∨ field a 2 1 = 0xFF) → field a 8 8 < 2 ^ 48 →
      j.stamp.beat + 2 ≤ field a 8 8 → field a 16 2 ≠ 0 → argsZero a 3 5 = true → argsZero a 18 26 = true → Does (.hint j.cmd) s fun t =>
        t.power = { s.power with hints := t.power.hints } ∧ ∀ d, d < 4 → bit (field a 0 1) d = true →
          ⟨d, if field a 2 1 = 0xFF then 16 + field a 1 1 else field a 2 1, field a 8 8, field a 16 2⟩ ∈ t.power.hints) ∧
    (∀ e, s.runs (.imageDelete j.cmd) j → argsZero a 20 24 = true → s.entryOf (field a 0 16) (field a 16 4) = some e → e.bound = 0 →
      s.entryOpen e = false → Does (.imageDelete j.cmd) s fun t =>
        t.vault.catalogue = s.vault.catalogue.filter fun x => x.index ≠ e.index) ∧
    (∀ image, s.runs (.install j.cmd image) j → argsZero a 26 2 = true → argsZero a 32 12 = true → bits (field a 25 1) 4 4 = 0 →
      1000 ≤ field a 28 4 → field a 28 4 ≤ 3600000 → s.fab.coordValid = true → image ≠ [] →
      let hd := imageHead image
      bit (field a 16 9) (memberBit s.fab.row s.fab.col) = true → s.imageStatus hd false = stOK → field hd 88 8 = field a 8 8 →
      field a 8 8 ≤ image.length → groupIncomplete hd (field a 16 9) = false → s.vault.reader = none → s.vault.repair = none →
      (∀ x, s.vault.member = some x → x.committed = true) →
      Does (.install j.cmd image) s fun t => ∃ r, t.vault = { s.vault with reader := some r, tagNo := s.vault.tagNo + 1 } ∧
        r.image = image ∧ r.peers.length = (maskMembers (field a 16 9)).length ∧ (∀ p ∈ r.peers, p.answered = false) ∧ r.ended = false ∧
        r.committing = false ∧ r.timeout = s.time.clk + field a 28 4 * 1000000)

/-- Requests: a submission joins its instance's queue, a cancellation ends it or marks it, its deadline ends it, and the sampler draws its
tokens. Where the spec leaves a detail open it rests on the model's choice of log 56. -/
def Obligations.RequestCommands : Prop :=
  ∀ (s : State) (j : Job) (inst : Fin 16) (req : Word32), s.shape →
    let a := j.cmd.args
    let i := j.cmd.inst.val
    let u := s.consumed j.cmd
    let x := u.inst i
    (∀ v p prompt b reads, s.runs (.seqSubmit j.cmd reads) j → field a 5 1 < 64 → argsZero a 20 24 = true →
      (u.ring (1024 + field a 5 1)).owner = j.origin → x.state = .active → x.sampler.current = some v → x.budget = some b →
      u.readSubmit x v.val j.cmd = some (p, prompt) → prompt.length + field a 12 4 ≤ b.kvBudget → field a 6 2 = 0xFFFF →
      x.acct.csUsed + promptTiles prompt.length ≤ x.acct.csLimit → Does (.seqSubmit j.cmd reads) s fun t =>
        (t.inst i).queue = x.queue ++ [u.newSeq j p prompt] ∧ (t.inst i).seqs = x.seqs ∧
        (t.inst i).acct.csUsed = x.acct.csUsed + promptTiles prompt.length) ∧
    (∀ q, s.runs (.seqCancel j.cmd) j → argsZero a 4 40 = true →
      (x.queue ++ x.seqs).find? (fun q => q.req == BitVec.ofNat 32 (field a 0 4)) = some q →
      (q.origin ≠ j.origin → exec (.seqCancel j.cmd) s = .next (u.fail j stNOT_PERMITTED)) ∧
      (q.origin = j.origin → q.busy.isSome = true → Does (.seqCancel j.cmd) s fun t =>
        ∀ y ∈ (t.inst i).seqs, y.req = q.req → y.cancel = true) ∧
      (q.origin = j.origin → q.busy = none → exec (.seqCancel j.cmd) s = .next ((u.endSeq i q stCANCELLED).complete j stOK []))) ∧
    (∀ q d, (s.inst inst.val).queue.find? (fun q => q.req == req) = some q → q.deadline = some d →
      (s.fallsDue d = true →
        exec (.admitTimeout inst req) s = .next ((((s.runTo d).endSeq inst.val q stADMIT_TIMEOUT)).bump (rInst inst.val 0x38))) ∧
      (s.fallsDue d = false → exec (.admitTimeout inst req) s = .next s)) ∧
    ((∀ q ∈ (s.inst inst.val).queue, q.req ≠ req) → exec (.admitTimeout inst req) s = .next s) ∧
    (s.sampled inst.val req = none → ∀ k, exec (.samplerPosition inst req k) s = .next s ∧ exec (.draftTokenDraw inst req k) s = .next s) ∧
    (∀ w kept sum nf, s.sampled inst.val req = some w →
      (w.e.prefill = true ∨ w.e.draftEnd = true ∨ w.e.d ≤ w.e.draft.length) → w.e.draft.length = w.e.accepted →
      let pos := if w.e.prefill then w.e.pos + w.e.rows else w.e.pos + (w.e.accepted + 1)
      let row := if w.e.prefill then w.e.row0 + w.e.rows - 1 else w.e.row0 + w.e.accepted
      s.drawRow inst.val w.v w.q w.e w.e.accepted w.v.logitPage row = (.dist kept sum, nf) →
      exec (.samplerPosition inst req (w.e.accepted + 1)) s =
        .next (s.putPart w nf (w.e.last (pick (drawU w.q.par.seed pos 0) kept sum)))) ∧
    (∀ w kept sum nf, s.sampled inst.val req = some w → w.e.draft.length < w.e.d → w.e.draftEnd = false → w.q.par.prob = false →
      s.drawRow inst.val w.v w.q w.e w.e.draft.length w.v.dlogitPage (w.run.draftRow req) = (.dist kept sum, nf) →
      let tok := pick (drawU w.q.par.seed (w.e.pos + (w.e.draft.length + 1)) 3) kept sum
      exec (.draftTokenDraw inst req (w.e.draft.length + 1)) s =
        .next ((s.putPart w nf { w.e with draft := w.e.draft ++ [tok] }).feedDraft inst.val w.v tok))

/-- The emission of a request in a step: a prefix of the drawn tokens, whose last token alone may be a STOP token, end the automaton or
reach MAX_NEW. -/
def Obligations.EmissionCut : Prop :=
  ∀ (v : SamplerRec) (q : Seq) (ts : List Nat), q.par.mask < 2 → q.emitted < q.maxNew →
    let cut := cutEmission v q q.autState q.emitted ts
    cut.1 <+: ts ∧ q.emitted + cut.1.length ≤ q.maxNew ∧
    (∀ x ∈ cut.1.dropLast, x ∉ q.par.stops) ∧
    (cut.2 = 1 ↔ ∃ x, cut.1.getLast? = some x ∧ x ∈ q.par.stops) ∧
    (cut.2 = 2 ↔ q.emitted + cut.1.length = q.maxNew ∧ ∀ x ∈ cut.1, x ∉ q.par.stops) ∧ cut.2 ≠ 3 ∧
    (cut.2 = 0 → cut.1 = ts)

/-! ### The fabric (10 to 12) -/

/-- The ingress checks of every message of the fabric, in their order: a port that is not admitted takes none, a message for another
module is counted as misrouted, one of another partition is counted and raises one event a beat at most, a module not admitted takes none
but the fabric manager's on VC 3, and the fabric manager's kinds come from it alone. Where the spec leaves a detail open it rests on the
model's choice of log 21. -/
def Obligations.IngressChecks : Prop :=
  ∀ (s : State) (i : Instr) (kind : Nat) (m : Msg), messageOf i = some (kind, m) →
    let came := (s.port m.port.val).st = .admitted ∨ s.isOwn m.src = true
    let here := m.mcast = true ∨ (s.fab.coordValid = true ∧ m.dest.toNat / 8 = s.fab.moduleNo)
    let part := m.fm = true ∨ m.part.toNat = s.fab.part
    let admitted := s.fab.admitted = true ∨ (m.fm = true ∧ m.vc = 3)
    (¬ came → exec i s = .next s) ∧ (came → ¬ here → exec i s = .next (s.bump 0x30030)) ∧
    (came → here → ¬ part → Does i s fun t =>
      t.reg 0x30038 = min (s.reg 0x30038 + 1) 0xFFFFFFFF ∧ t.fab = { s.fab with denied := s.time.beat + 1 } ∧
      (s.fab.denied = s.time.beat + 1 → t = s.bump 0x30038) ∧ Only [.regs, .fab, .rings, .out] s t) ∧
    (came → here → part → ¬ admitted → exec i s = .next (s.bump 0x30040)) ∧
    (came → here → part → admitted → fmOnly kind = true → m.fm = false → exec i s = .next (s.bump 0x30040))

/-- Memory requests: one with a wrong field or an access that its address does not allow is answered with the status and has no effect;
one whose route is shut, that reads a tile being filled or that an earlier request to its bytes holds up waits; the others read or write
exactly their bytes and answer OK with what they read, or with the status of a read that recovery could not mend. A store to memory: the bytes stored read as stored, every
other byte as before, and nothing but memory changes. A range is refused as a whole where it crosses out of a populated region: a die's
two kinds of window, the hub and the vault do not adjoin. Atomics: the sum wraps at the operand's width, the exchange writes its second
operand only where the first is in memory, and the maximum of signed operands compares them as signed. Where the spec leaves a detail open
it rests on the model's choices of logs 92, 110 and 112. -/
def Obligations.MemoryRequests : Prop :=
  (∀ (s : State) (m : Msg), requestFormed m = true → s.answerable m →
     let a := msgMpa m
     let n := m.length.toNat
     let stored := fun (t : State) (bs : List Byte) =>
       (∀ (k : Nat) (h : k < bs.length), Memory.read t.mem.cells (a + k) = bs[k]) ∧
       (∀ x, (x < a ∨ a + bs.length ≤ x) → Memory.read t.mem.cells x = Memory.read s.mem.cells x) ∧ Only [.mem, .out] s t
     (∀ i kind write bytes formed, messageOf i = some (kind, m) → memoryRow i = some (write, bytes, formed) → s.takes kind m →
       let st := s.fabricStatus write m.src.toNat a bytes
       (formed = false → exec i s = .next (s.emit (s.answer kind m stINVALID_FIELD []))) ∧
       (formed = true → st ≠ stOK → exec i s = .next ((s.countAccess a st).emit (s.answer kind m st [])))) ∧
     (∀ i kind write bytes reads, (i = .load m reads ∨ i = .store m reads ∨ i = .atomic m reads ∨ i = .bulkPut m reads ∨ i = .bulkGet m reads) →
       messageOf i = some (kind, m) → memoryRow i = some (write, bytes, true) → s.takes kind m →
       s.fabricStatus write m.src.toNat a bytes = stOK →
       let waits := s.behind s.fab.held a bytes || s.hubWaits (!write || merges a bytes) a bytes
       (waits = true → Does i s fun t => t.fab = { s.fab with held := s.fab.held ++ [.memory kind m reads] } ∧ Only [.regs, .fab] s t) ∧
       (∀ k u, waits = false → s.hubRead a (0, 0) (if write then mergeReads a bytes reads else reads) = (some k, u) → Does i s fun t =>
         s.answer kind m (lostStatus a) [] ∈ t.out ∧ t.mem = u.mem) ∧
       (waits = false → write = false → reads = [] → Does i s fun t =>
         t.out = s.out ++ [s.answer kind m stOK ((s.touch a n).load a n)] ∧ t.mem.cells = s.mem.cells ∧ Only [.mem, .out] s t) ∧
       (waits = false → (kind = 2 ∨ kind = 4) → mergeReads a bytes reads = [] → Does i s fun t =>
         t.out = s.out ++ [s.answer kind m stOK []] ∧ stored t m.payload) ∧
       (waits = false → kind = 3 → mergeReads a bytes reads = [] → Does i s fun t =>
         let old := (s.touch a bytes).load a bytes
         t.out = s.out ++ [s.answer 0x03 m stOK old] ∧
         stored t (leBytes bytes (atomicResult (bits m.opt.toNat 0 2) (bits m.opt.toNat 2 3) (leNat old) (field m.payload 0 bytes)
           (field m.payload bytes bytes)))))) ∧
  (∀ (s : State) (a : Nat) (bs : List Byte), ∃ m, s.storeAt a bs = { s with mem := { s.mem with cells := m } } ∧
     (∀ (i : Nat) (h : i < bs.length), Memory.read m (a + i) = bs[i]) ∧
     ∀ x, (x < a ∨ a + bs.length ≤ x) → Memory.read m x = Memory.read s.mem.cells x) ∧
  (∀ (ready : Bool) (a n : Nat), rangeOk ready a n = true → n ≠ 0 ∧ (regionOf ready a).isSome ∧ (regionOf ready (a + n - 1)).isSome) ∧
  (∀ (old x y : Nat), old < 2 ^ 64 → x < 2 ^ 64 →
     (∀ type, type < 4 → atomicResult 0 type old x y = (old + x) % 2 ^ (if type = 1 ∨ type = 3 then 64 else 32)) ∧
     (∀ type, atomicResult 1 type old x y = if old = x then y else old) ∧
     (∀ type, type < 2 → atomicResult 2 type old x y = max old x) ∧
     (∀ type w, (type = 2 ∧ w = 32 ∨ type = 3 ∧ w = 64) → old < 2 ^ w → x < 2 ^ w →
       sgn w (atomicResult 2 type old x y) = max (sgn w old) (sgn w x)))

/-- Remote requests: the owner of a REMOTE region hands it off and nobody else does; a response in time ends its request, one too late or
unknown is counted; a request whose deadline comes is lost and halts its instance; a teardown ends an instance's work; a notice is
discarded. A remote request queue's scan: entry after entry in the order of their numbers, stopping at the first that is not there, and at
a FENCE or HANDOFF while accepted entries are open; a request leaves with a tag of its own and its deadline. Where the spec leaves a
detail open it rests on the model's choices of logs 33 to 36 and 120. -/
def Obligations.RemoteRequests : Prop :=
  (∀ (s : State) (m : Msg), s.shape →
     (requestFormed m = true → m.opt.toNat ≤ 2 → m.aux.toNat < 2 ^ 14 → m.length = 0 → m.payload = [] → s.takes 0x18 m → s.answerable m →
       let r := s.heldRange (.handoff m)
       (s.behind s.fab.held r.1 r.2 = true → exec (.handoff m) s = .next (s.holdReq (.handoff m))) ∧
       (s.behind s.fab.held r.1 r.2 = false → ∀ o, s.ownAt (msgMpa m) = some o → o.mode = 1 → o.owner = m.src.toNat → Does (.handoff m) s fun t =>
         t.mem = { s.mem with own := s.mem.own.filter (fun p => p.index ≠ o.index) ++
           [{ o with mode := m.opt.toNat, owner := m.aux.toNat, epoch := (o.epoch + 1) % 2 ^ 32 }] } ∧
         t.out = s.out ++ [s.answer 0x18 m stOK []] ∧ Only [.mem, .handed, .out] s t) ∧
       (s.behind s.fab.held r.1 r.2 = false → (∀ o, s.ownAt (msgMpa m) = some o → o.mode ≠ 1 ∨ o.owner ≠ m.src.toNat) →
         exec (.handoff m) s = .next (s.notOwner.emit (s.answer 0x18 m stNOT_OWNER [])))) ∧
     (s.takes 0x38 m → exec (.notice m) s = .next s) ∧
     (∀ r, s.takes 0x81 m → s.fab.requests.find? (fun r => r.tag == m.tag.toNat) = some r →
       (r.due ≤ s.time.clk → exec (.response m) s = .next (s.bump 0x30048)) ∧
       (s.time.clk < r.due → exec (.response m) s =
         .next ((s.endRequest r m.status.toNat m.payload).scanQueue r.config r.queue 64))) ∧
     (s.takes 0x81 m → (∀ r ∈ s.fab.requests, r.tag ≠ m.tag.toNat) → Does (.response m) s fun t =>
       t.reg 0x30048 = min (s.reg 0x30048 + 1) 0xFFFFFFFF ∧ t.fab = { s.fab with lost := s.fab.lost.erase m.tag.toNat } ∧
       Only [.regs, .fab] s t) ∧
     (∀ tag : Word32, (∀ r ∈ s.fab.requests, r.tag ≠ tag.toNat) → exec (.fabricDeadline tag) s = .next s) ∧
     (∀ (tag : Word32) (r : Request), s.fab.requests.find? (fun r => r.tag == tag.toNat) = some r → s.fallsDue r.due = false →
       exec (.fabricDeadline tag) s = .next s) ∧
     (∀ (tag : Word32) (r : Request), s.fab.requests.find? (fun r => r.tag == tag.toNat) = some r → r.inst < 16 →
       s.fallsDue r.due = true → Does (.fabricDeadline tag) s fun t =>
         t.time.clk = max s.time.clk r.due ∧ (∀ x ∈ t.fab.requests, x.tag ≠ r.tag) ∧ tag.toNat ∈ t.fab.lost ∧
         t.reg 0x30050 = min (s.reg 0x30050 + 1) 0xFFFFFFFF ∧ (t.inst r.inst).stopped = true ∧
         ∀ q, t.rrq r.config r.queue = some q → q.stopped = true) ∧
     (s.takes 0x32 m → s.answerable m → m.part.toNat ≠ s.fab.part →
       exec (.jobTeardown m) s = .next (s.emit (s.answer 0x32 m stNOT_PERMITTED []))) ∧
     (∀ i : Fin 16, s.takes 0x32 m → s.answerable m → m.part.toNat = s.fab.part → m.aux.toNat = 2 ^ i.val → m.opt.toNat ≤ 1 →
       m.status = 0 → m.offset = 0 → m.payload = [] → ((s.inst i.val).state = .active ∨ (s.inst i.val).state = .halted) →
       Does (.jobTeardown m) s fun t =>
         (t.inst i.val).state = .tornDown ∧ (t.inst i.val).stopped = true ∧ (∀ r ∈ t.fab.requests, r.inst ≠ i.val) ∧
         (∀ r ∈ t.serve.steps, r.inst ≠ i.val) ∧ (∀ k, k ≠ i.val → (t.inst k).state = (s.inst k).state) ∧
         s.answer 0x32 m stOK [] ∈ t.out)) ∧
  (∀ (s : State) (config : Fin 64) (queue : Fin 16),
     (s.scanEntry config.val queue.val = none → exec (.remoteQueueScan config queue) s = .next s) ∧
     (∀ u, s.scanEntry config.val queue.val = some u → u.scanEntry config.val queue.val = none →
       exec (.remoteQueueScan config queue) s = .next u) ∧
     (∀ q, s.rrq config.val queue.val = some q →
       let slot := q.expect % 64
       let e := rrqEntry (s.load (s.ringMpa q + slot * 64) 64)
       let next : Rrq := { q with expect := (q.expect + 1) % 65536 }
       let u := s.setRrq next
       ((q.stopped = true ∨ e.seq ≠ q.expect) → s.scanEntry config.val queue.val = none) ∧
       (q.stopped = false → e.seq = q.expect →
         (e.formed = false → s.scanEntry config.val queue.val = some (u.endEntry next slot stINVALID_FIELD)) ∧
         (e.formed = true → (e.kind = 0xF ∨ e.kind = 0x18) → q.open_ ≠ [] → s.scanEntry config.val queue.val = none) ∧
         (e.formed = true → e.kind = 0xF → q.open_ = [] → s.scanEntry config.val queue.val = some (u.endEntry next slot stOK)) ∧
         (e.formed = true → e.kind ≠ 0xF → (e.kind = 0x18 → q.open_ = []) →
           (u.areaStatus e ≠ stOK → s.scanEntry config.val queue.val =
             some ((u.countAccess (mpaCs e.data) (u.areaStatus e)).endEntry next slot (u.areaStatus e))) ∧
           (u.areaStatus e = stOK → ∃ t : State, s.scanEntry config.val queue.val = some t ∧
             ∃ r : Request, t.fab.requests = s.fab.requests ++ [r] ∧ r.tag = (s.fab.tagNo + 1) % 2 ^ 32 ∧ t.fab.tagNo = r.tag ∧
               r.kind = e.kind ∧ r.node = e.target / 2 ^ 46 ∧ r.slot = slot ∧ r.data = e.data ∧ r.length = e.result ∧
               r.due = s.time.clk + (if e.deadline = 0 then 20 else e.deadline) * 1000 ∧
               t.mem.pendTiles = s.mem.pendTiles ++ r.tiles ∧ t.mem.cells = s.mem.cells)))))

/-- Messages of collectives, once the entries stamped up to their tick have opened their windows: one of no open collective, out of its
window or malformed is counted and has no effect; a contribution enters block by block, the first copy of a block standing; a section with
a wrong header is rejected and counted; a replay request is answered by one replay, in the time between the window's close and the replay
slot's. The times of a collective: a ready contribution is sent once an attempt; at the window's close it succeeds with attempt 0 where
nothing is missing, or one replay begins; at the replay slot's close it succeeds with the replay or fails, and its instance halts. The
reduction of a chunk's blocks goes in rank order by a pairwise tree of FP32 sums, an odd one passing to the next level. Where the spec
leaves a detail open it rests on the model's choices of logs 31, 32 and 116. -/
def Obligations.Collectives : Prop :=
  (∀ (u : State) (m : Msg),
     let s := u.catchUp
     (∀ i kind, (i = .coll m ∨ i = .sectionMsg m) → messageOf i = some (kind, m) → s.takes kind m →
       (s.collFor m = none → exec i u = .next (s.bump (if m.aux.toNat ∈ s.fab.torn then 0x30078 else 0x30060))) ∧
       ∀ r, s.collFor m = some r →
         (attemptOf m = 1 → r.done = some 0 → exec i u = .next s) ∧
         (¬ (attemptOf m = 1 ∧ r.done = some 0) → s.inWindow r (attemptOf m) = false → exec i u = .next (s.collLate r))) ∧
     (∀ r, s.takes 0x10 m → s.collFor m = some r → ¬ (attemptOf m = 1 ∧ r.done = some 0) → s.inWindow r (attemptOf m) = true →
       let d := r.desc
       let rank := m.seq.toNat
       let first := m.offset.toNat / 192
       let sender := d.kind ≤ 2 ∧ rank < d.n ∧ rank ≠ d.rank ∧ nth 0 (s.members d) rank = m.src.toNat / 8 ∧
         m.opt.toNat ≤ (if d.kind = 0 then 1 else 0) ∧ m.offset.toNat % 192 = 0 ∧ m.status = 0 ∧ m.payload.length ≤ 65536
       (∀ bs, sender → splitBlocks (m.payload.length + 1) m.payload = some bs → bs ≠ [] → first + bs.length ≤ d.chunk →
         Does (.coll m) u fun t => ∃ x : CollRun, t.coll r.inst d.index = some x ∧
           (∀ (k : Nat) (h : k < bs.length), x.block rank m.opt.toNat (first + k) = some ((r.block rank m.opt.toNat (first + k)).getD bs[k])) ∧
           (∀ n p k b, r.block n p k = some b → x.block n p k = some b)) ∧
       ((¬ sender ∨ splitBlocks (m.payload.length + 1) m.payload = none) → exec (.coll m) u = .next (s.collLate r))) ∧
     (∀ r, s.takes 0x11 m → s.collFor m = some r → ¬ (attemptOf m = 1 ∧ r.done = some 0) → s.inWindow r (attemptOf m) = true →
       ((r.desc.kind < 3 ∨ m.opt ≠ 0 ∨ m.status ≠ 0) → exec (.sectionMsg m) u = .next (s.rejectSection r m)) ∧
       (3 ≤ r.desc.kind → m.opt = 0 → m.status = 0 → m.seq = 0 →
         (s.headerPasses r m.dest.toNat (m.payload.take 64) = none → exec (.sectionMsg m) u = .next (s.rejectSection r m)) ∧
         ∀ key, s.headerPasses r m.dest.toNat (m.payload.take 64) = some key →
           (r.whole key = true → exec (.sectionMsg m) u = .next (s.setColl (r.setHead m .repeated))) ∧
           (r.whole key = false → m.payload.length ≤ 64 + field m.payload 8 4 * r.desc.rowBytes →
             let y := r.setHead m (.taken key)
             let x : CollRun := { y with got := r.got.filter (fun g => g.sender ≠ key) ++ [⟨key, 0, 0, m.src.toNat, m.payload, 0⟩] }
             exec (.sectionMsg m) u = .next ((s.setColl x).placeSections x))) ∧
       (3 ≤ r.desc.kind → m.opt = 0 → m.status = 0 → m.seq ≠ 0 →
         (findKey r.heads (headKey m) = none → exec (.sectionMsg m) u = .next (s.rejectSection r m)) ∧
         (findKey r.heads (headKey m) = some .rejected → exec (.sectionMsg m) u = .next (s.collLate r)) ∧
         (findKey r.heads (headKey m) = some .repeated → exec (.sectionMsg m) u = .next s) ∧
         ∀ key g, findKey r.heads (headKey m) = some (.taken key) → r.got.find? (fun g => g.sender == key && g.place == 0) = some g →
           (r.parts key ≠ m.seq.toNat → exec (.sectionMsg m) u = .next (s.rejectSection r m)) ∧
           (r.parts key = m.seq.toNat →
             let x : CollRun := { r with got := r.got ++ [{ g with place := m.seq.toNat, bytes := m.payload }] }
             exec (.sectionMsg m) u = .next ((s.setColl x).placeSections x)))) ∧
     (∀ r, (s.rejectSection r m).reg 0x30060 = min (s.reg 0x30060 + 1) 0xFFFFFFFF ∧
       (s.rejectSection r m).reg (rFrame (m.dest.toNat % 8 % 4) 0xB0) = min (s.reg (rFrame (m.dest.toNat % 8 % 4) 0xB0) + 1) 0xFFFFFFFF) ∧
     (∀ (r : CollRun) dest hd key, s.headerPasses r dest hd = some key → ∃ gen t, ∃ x : Expert, r.route = some (gen, t) ∧
       t.experts[bits (field hd 6 2) 0 13]? = some x ∧ hd.length = 64 ∧ crc16 (hd.take 62) = field hd 62 2 ∧ field hd 0 4 = gen ∧
       field hd 16 6 = r.start ∧ field hd 4 2 = t.layer ∧ bits (field hd 6 2) 13 3 < x.nrep ∧ field hd 12 2 < t.sources ∧
       field hd 8 4 ≤ x.cap) ∧
     (s.takes 0x12 m →
       let mine := fun (r : CollRun) => r.desc.index == m.tag.toNat % 65536 &&
         (decide (r.desc.kind > 2) || (decide (m.seq.toNat < r.desc.n) && nth 0 (s.members r.desc) m.seq.toNat == m.src.toNat / 8))
       ((∀ r ∈ s.serve.colls, mine r = false) → exec (.replayReq m) u = .next (s.bump 0x30078)) ∧
       (∀ r, s.serve.colls.find? mine = some r →
         ((s.time.clk < r.close ∨ r.slotClose ≤ s.time.clk ∨ r.failed = true) → exec (.replayReq m) u = .next (s.bump 0x30078)) ∧
         (r.close ≤ s.time.clk → s.time.clk < r.slotClose → r.failed = false →
           (r.attempt = 1 → exec (.replayReq m) u = .next s) ∧
           (r.attempt = 0 → Does (.replayReq m) u fun t => t.reg 0x30068 = min (s.reg 0x30068 + 1) 0xFFFFFFFF ∧
             ∃ x : CollRun, t.coll r.inst r.desc.index = some x ∧ x.attempt = 1))))) ∧
  (∀ (u : State) (inst : Fin 16) (index : BitVec 16), u.shape →
     let s := u.catchUp
     (s.coll inst.val index.toNat = none → ∀ c ∈ [Instr.collectiveSendStart inst index, .collectiveWindowClose inst index,
       .replaySlotClose inst index], exec c u = .next s) ∧
     ∀ r, s.coll inst.val index.toNat = some r →
       ((s.time.clk < r.openAt ∨ r.failed = true) → exec (.collectiveSendStart inst index) u = .next s) ∧
       (r.openAt ≤ s.time.clk → r.failed = false → Does (.collectiveSendStart inst index) u fun t =>
         ∃ x : CollRun, t.coll inst.val index.toNat = some x ∧ x.ready = (r.ready || s.contribReady r) ∧
           (x.ready = true → r.attempt * 2 ∈ x.sent) ∧ (x.ready = false → (r.desc.kind ≠ 0 ∨ r.reduced = []) → x.sent = r.sent)) ∧
       ((r.judged = true ∨ r.failed = true ∨ s.fallsDue r.close = false) → exec (.collectiveWindowClose inst index) u = .next s) ∧
       (r.judged = false → r.failed = false → s.fallsDue r.close = true → Does (.collectiveWindowClose inst index) u fun t =>
         t.time.clk = max s.time.clk r.close ∧ ∃ x : CollRun, t.coll inst.val index.toNat = some x ∧ x.judged = true ∧
         let missing := (s.runTo r.close).missingOf { r with judged := true }
         (missing = [] → x.done = some 0 ∧ t.reg 0x30068 = s.reg 0x30068) ∧
         (missing ≠ [] → x.attempt = 1 ∧ x.done = r.done) ∧
         (missing ≠ [] → r.attempt = 0 → t.reg 0x30068 = min (s.reg 0x30068 + 1) 0xFFFFFFFF)) ∧
       ((r.judged = false ∨ r.failed = true ∨ s.fallsDue r.slotClose = false) → exec (.replaySlotClose inst index) u = .next s) ∧
       (r.judged = true → r.failed = false → s.fallsDue r.slotClose = true → Does (.replaySlotClose inst index) u fun t =>
         t.time.clk = max s.time.clk r.slotClose ∧
         let missing := (s.runTo r.slotClose).missingOf r
         (∀ x ∈ t.serve.colls, x.inst = inst.val → x.desc.index = index.toNat → ∃ y ∈ t.serve.steps, y.id = x.step) ∧
         (r.done.isSome = true → t.serve.insts = s.serve.insts ∧ t.serve.steps = s.serve.steps ∧ t.regs = s.regs ∧ t.out = s.out) ∧
         (r.done = none → missing = [] → (∃ x ∈ s.serve.steps, x.id = r.step) →
           ∃ x : CollRun, t.coll inst.val index.toNat = some x ∧ x.done = some r.attempt) ∧
         (r.done = none → missing ≠ [] → (t.inst inst.val).stopped = true ∧ t.reg 0x30070 = min (s.reg 0x30070 + 1) 0xFFFFFFFF ∧
           ∀ x ∈ t.serve.steps, x.id = r.step → x.fail.isSome = true))) ∧
  (∀ (a b c d e : List Nat),
     let add := fun (x y : List Nat) => (x.zip y).map fun p => f32add p.1 p.2
     collTree 7 [] = [] ∧ collTree 7 [a] = a ∧ collTree 7 [a, b] = add a b ∧ collTree 7 [a, b, c] = add (add a b) c ∧
     collTree 7 [a, b, c, d] = add (add a b) (add c d) ∧ collTree 7 [a, b, c, d, e] = add (add (add a b) (add c d)) e)

/-- A port's link: only an admitted one listens; a good DATA flit in order is taken, one out of order or damaged brings a NAK, a NAK
received resends what is not acknowledged, the seventeenth for one flit and a lost alignment retrain the port and prove it. A flit's header
brings credits and acknowledgements, a word that FEC corrected is counted. Where the spec leaves a detail open it rests on the model's
choices of logs 73 and 119. -/
def Obligations.LinkLayer : Prop :=
  ∀ (s : State) (k : Fin 9) (seq : BitVec 12) (raw : List Byte) (lane : Fin 8), s.shape →
    let p := s.port k.val
    let others := fun (t : State) => ∀ j, j ≠ k.val → t.port j = s.port j
    let ackSeq := (p.expectSeq + 4095) % 4096
    let flit := (seq.toNat + 1) % 4096
    let naks := if 0 < p.naks ∧ p.nakFlit = flit then p.naks + 1 else 1
    (p.st ≠ .admitted → ∀ c ∈ [Instr.linkNakReceive k seq, .ackTimer k, .flitReceive k raw, .fecAlignmentLoss k lane],
      exec c s = .next s) ∧
    (p.st = .admitted →
      (Does (.linkNakReceive k seq) s fun t => t.reg (rPort k.val 0x28) = min (s.reg (rPort k.val 0x28) + 1) 0xFFFFFFFF ∧ others t ∧
        (t.port k.val).replay = acked p.replay seq.toNat ∧
        (naks ≤ 16 → t.port k.val = { p with replay := acked p.replay seq.toNat, naks := naks, nakFlit := flit } ∧
          t.out = s.out ++ (acked p.replay seq.toNat).map (Out.resend k.val) ∧ Only [.fab, .regs, .out] s t) ∧
        (16 < naks → bit s.faults.fencePort k.val = false → (t.port k.val).st = .retrain ∧ ∃ r ∈ t.faults.runs, r.unit = .port k)) ∧
      (Does (.ackTimer k) s fun t => t.port k.val = { p with sinceAck := 0 } ∧ others t ∧
        t.out = s.out ++ [.ack k.val ackSeq false] ∧ Only [.fab, .out] s t) ∧
      (bit s.faults.fencePort k.val = false → Does (.fecAlignmentLoss k lane) s fun t => (t.port k.val).st = .retrain ∧
        (t.port k.val).replay = p.replay ∧ others t ∧ (∃ r ∈ t.faults.runs, r.unit = .port k) ∧ Only [.fab, .faults, .out] s t) ∧
      (readFlit raw = none → (headerFlit raw).ftype = 1 → Does (.flitReceive k raw) s fun t =>
        t.reg (rPort k.val 0x20) = min (s.reg (rPort k.val 0x20) + 1) 0xFFFFFFFF ∧
        t.reg (rPort k.val 0x28) = min (s.reg (rPort k.val 0x28) + 1) 0xFFFFFFFF ∧
        t.port k.val = { p with sinceAck := 0, nakPending := true } ∧ others t ∧ t.out = s.out ++ [.ack k.val ackSeq true]) ∧
      (readFlit raw = none → (headerFlit raw).ftype ≠ 1 → Does (.flitReceive k raw) s fun t =>
        t.reg (rPort k.val 0x20) = min (s.reg (rPort k.val 0x20) + 1) 0xFFFFFFFF ∧
        t.reg (rPort k.val 0x30) = (if (headerFlit raw).ftype = 2 then min (s.reg (rPort k.val 0x30) + 1) 0xFFFFFFFF
          else s.reg (rPort k.val 0x30)) ∧ Only [.regs] s t) ∧
      (∀ f corrected, readFlit raw = some (f, corrected) →
        (Does (.flitReceive k raw) s fun t => others t ∧
          t.reg (rPort k.val 0x18) = (if corrected then min (s.reg (rPort k.val 0x18) + 1) 0xFFFFFFFF else s.reg (rPort k.val 0x18))) ∧
        (f.nak = true → f.ftype = 0 → exec (.flitReceive k raw) s =
          exec (.linkNakReceive k (BitVec.ofNat 12 f.ackSeq)) ((s.bumpIf corrected (rPort k.val 0x18)).headerIn k.val f)) ∧
        (f.nak = false →
          (Does (.flitReceive k raw) s fun t => (t.port k.val).credits = modNth p.credits f.credVc (· + f.credCount) ∧
            (t.port k.val).replay = (if f.ackValid then acked p.replay f.ackSeq else p.replay)) ∧
          (f.ftype = 1 → f.seq = p.expectSeq → Does (.flitReceive k raw) s fun t =>
            (t.port k.val).expectSeq = (p.expectSeq + 1) % 4096 ∧ (t.port k.val).nakPending = false ∧ Only [.regs, .fab, .out] s t) ∧
          (f.ftype = 1 → f.seq ≠ p.expectSeq → Does (.flitReceive k raw) s fun t =>
            (t.port k.val).expectSeq = p.expectSeq ∧ (t.port k.val).nakPending = true ∧
            t.out = s.out ++ (if p.nakPending then [] else [.ack k.val ackSeq true]) ∧ Only [.regs, .fab, .out] s t) ∧
          (f.ftype = 2 → Does (.flitReceive k raw) s fun t =>
            t.reg (rPort k.val 0x30) = (if osListed f.osKind then s.reg (rPort k.val 0x30) else min (s.reg (rPort k.val 0x30) + 1) 0xFFFFFFFF) ∧
            t.out = s.out ∧ Only [.regs, .fab] s t))))

/-- Training and delay measurement: the states of training in their order up to ADMITTED, three failed attempts taking the port down, and
sixteen exchanges whose mean is the link's delay. Where the spec leaves a detail open it rests on the model's choice of log 73. -/
def Obligations.LinkTraining : Prop :=
  ∀ (s : State) (k : Fin 9) (t1 t2 t3 : Nat) (set : TrainSet) (lanes : BitVec 8), s.shape →
    let p := s.port k.val
    let others := fun (t : State) => ∀ j, j ≠ k.val → t.port j = s.port j
    (s.measures k.val = true → p.delayRun = none → Does (.delayMeasurement k) s fun t =>
      t.port k.val = { p with delayRun := some ⟨some s.time.clk, [], 1, s.time.clk⟩ } ∧ others t ∧ t.out = s.out ++ [.delayReq k.val s.time.clk]) ∧
    ((s.measures k.val = false ∨ p.delayRun.isSome = true) → exec (.delayMeasurement k) s = .next s) ∧
    exec (.delayReq k t1) s = .next (if s.measures k.val then s.emit (.delayResp k.val s.time.clk s.time.clk) else s) ∧
    ((p.delayRun = none ∨ ∃ r, p.delayRun = some r ∧ r.t1 = none) → exec (.delayResp k t2 t3) s = .next s) ∧
    (∀ r sent, p.delayRun = some r → r.t1 = some sent →
      let ds : List Int := r.results ++ [((s.time.clk : Int) - (sent : Int)) - ((t3 : Int) - (t2 : Int))]
      Does (.delayResp k t2 t3) s fun t => others t ∧ Only [.fab] s t ∧
        (ds.length < 16 → t.port k.val = { p with delayRun := some ⟨none, ds, 0, r.last⟩ }) ∧
        (16 ≤ ds.length → t.port k.val = { p with linkDelay := ((ds.sum + 16) / 32).toNat % 65536, delayRun := none })) ∧
    (p.delayRun = none → exec (.delayExchange k) s = .next s) ∧
    (∀ r, p.delayRun = some r → s.fallsDue (r.last + 1024) = false → exec (.delayExchange k) s = .next s) ∧
    (∀ r, p.delayRun = some r → s.fallsDue (r.last + 1024) = true →
      let now := (s.runTo (r.last + 1024)).time.clk
      (r.attempts < 64 → Does (.delayExchange k) s fun t => t.time.clk = now ∧
        t.port k.val = { p with delayRun := some { r with t1 := some now, attempts := r.attempts + 1, last := now } } ∧ others t ∧
        t.out = s.out ++ [.delayReq k.val now]) ∧
      (64 ≤ r.attempts → bit s.faults.fencePort k.val = false → Does (.delayExchange k) s fun t =>
        (t.port k.val).st = .retrain ∧ others t)) ∧
    (p.st = .detect → Does (.train k set) s fun t => t.port k.val = { p with trainSeen := true } ∧ others t ∧ Only [.fab] s t) ∧
    ((p.st = .align ∨ p.st = .retrain) → Does (.train k set) s fun t => (t.port k.val).st = p.st ∧
      (t.port k.val).trainSeen = decide (set.number.toNat = k.val) ∧ (t.port k.val).miscabled = decide (set.number.toNat ≠ k.val) ∧
      (set.number.toNat ≠ k.val → (t.port k.val).credits = p.credits) ∧ others t ∧ Only [.fab] s t) ∧
    (s.svc.refOk = false → exec (.trainingStateExit k) s = .next s) ∧
    (s.svc.refOk = true →
      (p.st = .detect → p.trainSeen = true → Does (.trainingStateExit k) s fun t => (t.port k.val).st = .equalize ∧ others t) ∧
      (p.st = .equalize → Does (.trainingStateExit k) s fun t => (t.port k.val).st = .align ∧ (t.port k.val).laneFail = 0 ∧ others t ∧
        t.out = s.out ++ [.train k.val s.fab.moduleNo PortSt.align.code]) ∧
      (p.st = .align → p.trainSeen = true → Does (.trainingStateExit k) s fun t => (t.port k.val).st = .delay ∧
        (t.port k.val).delayRun = some ⟨some s.time.clk, [], 1, s.time.clk⟩ ∧ others t) ∧
      (p.st = .delay → p.delayRun = none → Does (.trainingStateExit k) s fun t => (t.port k.val).st = .admitted ∧
        (t.port k.val).replay = [] ∧ (t.port k.val).expectSeq = 0 ∧ (t.port k.val).tries = 0 ∧ others t) ∧
      (p.st = .retrain → (p.proving = true ∨ p.trainSeen = false) → exec (.trainingStateExit k) s = .next s) ∧
      (p.st = .retrain → p.proving = false → p.trainSeen = true → p.measured = false → Does (.trainingStateExit k) s fun t =>
        t.port k.val = { p with measured := true, delayRun := some ⟨some s.time.clk, [], 1, s.time.clk⟩ } ∧ others t) ∧
      (p.st = .retrain → p.proving = false → p.trainSeen = true → p.measured = true → p.delayRun = none →
        Does (.trainingStateExit k) s fun t =>
          t.port k.val = { p with proving := true } ∧ others t ∧ t.out = s.out ++ p.replay.map (Out.resend k.val))) ∧
    ((p.st = .detect ∨ p.st = .equalize ∨ p.st = .align ∨ p.st = .delay) →
      (p.tries + 1 < 3 → Does (.trainingBoundExpiry k lanes) s fun t => (t.port k.val).st = .detect ∧
        (t.port k.val).tries = p.tries + 1 ∧ others t) ∧
      (2 ≤ p.tries → p.fallback = true → p.rate = false → p.fellBack = false → Does (.trainingBoundExpiry k lanes) s fun t =>
        (t.port k.val).st = .detect ∧ (t.port k.val).fellBack = true ∧ (t.port k.val).tries = 0 ∧ others t) ∧
      (2 ≤ p.tries → (p.fallback = false ∨ p.rate = true ∨ p.fellBack = true) → Does (.trainingBoundExpiry k lanes) s fun t =>
        (t.port k.val).st = .down ∧ (t.port k.val).replay = [] ∧ others t ∧
        t.reg (rPort k.val 0x38) = min (s.reg (rPort k.val 0x38) + 1) 0xFFFFFFFF)) ∧
    (p.st = .retrain → p.proving = false → p.equalizing = false → Does (.trainingBoundExpiry k lanes) s fun t =>
      t.port k.val = { p with equalizing := true, measured := false, trainSeen := false, delayRun := none } ∧ others t) ∧
    (p.st = .retrain → p.proving = true → exec (.trainingBoundExpiry k lanes) s = .next s) ∧
    (p.st = .retrain → p.proving = false → p.equalizing = true → Does (.trainingBoundExpiry k lanes) s fun t =>
      (t.port k.val).st = .down ∧ bit t.faults.fencePort k.val = true ∧ others t)

/-- An arbiter's decision: a free one grants a waiting requester of the highest class, from its pointer on; a locked transfer keeps its
grant, and one of a lower class is preempted and counted. At a Thaxa port slot traffic waits only inside a slot, a locked sequence starts
only where it ends before the next OPEN, no flit starts that would end after it, and slot traffic past its CLOSE gives the port up. Where
the spec leaves a detail open it rests on the model's choice of log 116. -/
def Obligations.ArbiterDecisions : Prop :=
  ∀ (s : State) (kind : ArbKind) (index : Fin 768) (ws : List ArbReq) (sub : Fin 7),
    let n := s.arbNode kind index.val
    let cls := fun (r : ArbReq) => s.arbClass kind r.index.val
    let granted := fun (t : State) => (t.arbNode kind index.val).holder
    let point := s.time.tick * 7 + sub.val
    let phase := s.slotPhase index.val point
    let decides := fun (done : Bool) => exec (.arbiterDecision kind index ws done sub) s
    let yields := fun (done : Bool) (P : State → Prop) => ∃ t, decides done = .next t ∧ P t
    (arbCount kind ≤ index.val → ∀ done, decides done = .next s) ∧
    (index.val < arbCount kind → (kind = .thaxa → phase ≠ .closing) →
      (∀ r ∈ ws, s.arbMayWait kind index.val point r = true ∧ (kind = .thaxa → s.mayBegin index.val point r = true)) →
      (∀ done, (n.holder = none ∨ done = true) →
        (ws = [] → yields done fun t => granted t = none) ∧
        (ws ≠ [] → yields done fun t => ∃ g ∈ ws, granted t = some g ∧ (∀ r ∈ ws, cls r ≤ cls g) ∧
          (∀ r ∈ ws, cls r = cls g → r.index.val = nth 0 n.ptrs (cls g) % arbRequesters kind → g.index = r.index) ∧
          Only [.arb, .fab, .regs] s t)) ∧
      ∀ h, n.holder = some h → (kind = .thaxa → h.index.val = 0 → phase = .inside) →
        (n.locked h = true → yields false fun t => granted t = some h ∧ Only [.arb, .fab] s t) ∧
        ((∀ r ∈ ws, cls r ≤ cls h) → yields false fun t => granted t = some h ∧ Only [.arb, .fab] s t) ∧
        (∀ r ∈ ws, n.locked h = false → r.index ≠ h.index → cls h < cls r → yields false fun t =>
          t.reg (0x50048 + 8 * arbNo kind) = min (s.reg (0x50048 + 8 * arbNo kind) + 1) 0xFFFFFFFF ∧
          ∃ g ∈ ws, granted t = some g ∧ cls h < cls g ∧ ∀ r ∈ ws, r.index ≠ h.index → cls r ≤ cls g)) ∧
    (kind = .thaxa → index.val < 9 → phase = .closing →
      ((n.holder = none ∨ ∃ h, n.holder = some h ∧ n.locked h = false) → yields false fun t => granted t = none ∧ t.fab = s.fab) ∧
      (∀ h, n.holder = some h → n.locked h = false → yields false fun t =>
        t.reg 0x50048 = min (s.reg 0x50048 + 1) 0xFFFFFFFF ∧ h ∈ (t.arbNode kind index.val).waiting) ∧
      (∀ h, n.holder = some h → n.locked h = true → decides false = .next s)) ∧
    (kind = .thaxa → index.val < 9 → phase = .outside → (∀ r ∈ ws, r.index.val = 0) → ∀ h, n.holder = some h → h.index.val = 0 →
      yields false fun t => granted t = none ∧ t.fab = { s.fab with slotMisses := s.fab.slotMisses + 1 }) ∧
    (∀ r : ArbReq, kind = .thaxa → r.index.val = 0 → phase ≠ .inside → s.arbMayWait kind index.val point r = false) ∧
    (∀ (r : ArbReq) o, arbLocked .thaxa r = true → s.nextOpen index.val point = some o → s.mayBegin index.val point r = true →
      point + r.declared * s.flitTime index.val ≤ o)

/-! ### Doorbells, interrupts, resets and DMA (15, 19) -/

/-- Doorbells: one that reaches no ACTIVE ring of its function is counted and discarded; a submission ring takes the new tail and a
produced ring the new head, which frees its entries; a value past the ring puts it in ERROR. Interrupts: a moderation timer sends the
ring's vector, an unmasked vector sends what is pending, a function in D3hot sends nothing and its channels stop, and in D0 what it held
goes out. A function level reset takes the function's rings, channels and requests, that of the PF those of every function, and PERST# is
a reset of the PF; in a phase that does not answer nothing happens. Where the spec leaves a detail open it rests on the model's choices of
logs 67, 78 and 93. -/
def Obligations.HostInterface : Prop :=
  (∀ (s : State) (d : Bell),
     let r := d.page.val
     let x := s.ring r
     let v := bits d.value.toNat 0 16
     let reads := d.offset = 0 ∧ x.owner = d.fn.code ∧ x.st = 1
     let freed := (v + x.size - x.head) % x.size
     let others := fun (t : State) => ∀ k, k ≠ r → t.ring k = s.ring k
     (1136 ≤ r → exec (.sqDoorbell d) s = .next (s.bump 0xC0818) ∧ exec (.completionHeadDoorbell d) s = .next (s.bump 0xC0818)) ∧
     (r < 512 →
       (¬ reads → exec (.sqDoorbell d) s = .next (s.bump 0xC0818)) ∧
       (reads → v < x.size → Does (.sqDoorbell d) s fun t => others t ∧ Only [.rings] s t ∧
         t.ring r = { x with tail := v, bells := if v = x.tail then x.bells else x.bells ++ [(v, s.now, s.time.clk)] }) ∧
       (reads → x.size ≤ v → Does (.sqDoorbell d) s fun t => (t.ring r).st = 2 ∧ (t.ring r).err = 1 ∧ (t.ring r).tail = x.tail ∧
         Only [.regs, .rings, .out] s t)) ∧
     (512 ≤ r → r < 1104 →
       (¬ reads → exec (.completionHeadDoorbell d) s = .next (s.bump 0xC0818)) ∧
       (reads → x.size ≤ v → Does (.completionHeadDoorbell d) s fun t => (t.ring r).st = 2 ∧ (t.ring r).err = 1) ∧
       (reads → v < x.size → x.used < freed → Does (.completionHeadDoorbell d) s fun t => (t.ring r).st = 2 ∧ (t.ring r).err = 3) ∧
       (reads → v < x.size → freed ≤ x.used → (∀ h ∈ s.serve.tqHold, h.1 + 1024 ≠ r) → Does (.completionHeadDoorbell d) s fun t =>
         t.ring r = { x with head := v, used := x.used - freed } ∧ others t ∧ Only [.rings] s t))) ∧
  (∀ (s : State) (ring : Fin 1104) (fn : Fin 9) (vector : Fin 1024), s.shape →
     let f := s.func fn.val
     let others := fun (t : State) => ∀ k, k ≠ fn.val → t.func k = s.func k
     ((s.ring ring.val).timer = none → exec (.irqTimer ring) s = .next s) ∧
     (∀ due, (s.ring ring.val).timer = some due → s.fallsDue due = false → exec (.irqTimer ring) s = .next s) ∧
     (∀ due, (s.ring ring.val).timer = some due → s.fallsDue due = true →
       let x := s.ring ring.val
       Does (.irqTimer ring) s fun t => t.time.clk = max s.time.clk due ∧ t.ring ring.val = { x with timer := none, unsig := 0 } ∧
         (∀ k, k ≠ ring.val → t.ring k = s.ring k) ∧ (bit x.irq 11 = false → t.out = s.out) ∧
         (bit x.irq 11 = true → bits x.irq 0 11 < 128 → (s.func (x.owner - 1)).d3hot = false →
           bits x.irq 0 11 ∉ (s.func (x.owner - 1)).masked → t.out = s.out ++ [.msix (x.owner - 1) (bits x.irq 0 11)])) ∧
     (Does (.msixVectorUnmask fn vector) s fun t => vector.val ∉ (t.func fn.val).masked ∧ others t ∧ Only [.rings, .out] s t ∧
       (vector.val ∈ f.pendVec → f.d3hot = false → t.out = s.out ++ [.msix fn.val vector.val] ∧ vector.val ∉ (t.func fn.val).pendVec) ∧
       ((vector.val ∉ f.pendVec ∨ f.d3hot = true) → t.out = s.out ∧ (t.func fn.val).pendVec = f.pendVec)) ∧
     (Does (.d3hotEntry fn) s fun t => (t.func fn.val).d3hot = true ∧ others t ∧ t.out = s.out ∧
       ∀ k, k < 32 →
         ((s.chan k).owner = fn.val + 1 → ((s.chan k).st = .fetch ∨ (s.chan k).st = .waiting) → (t.chan k).st = .stopped) ∧
         ((s.chan k).owner = fn.val + 1 → ((s.chan k).st = .run ∨ (s.chan k).st = .writeback) →
           t.chan k = { s.chan k with stopPending := true }) ∧
         ((s.chan k).owner ≠ fn.val + 1 → t.chan k = s.chan k)) ∧
     (Does (.d0Return fn) s fun t => (t.func fn.val).d3hot = false ∧ (∀ q ∈ t.host.cqHold, (t.ring q.sq).owner ≠ fn.val + 1) ∧
       (∀ v ∈ f.pendVec, v ∉ f.masked → Out.msix fn.val v ∈ t.out) ∧ Only [.serve, .rings, .out] s t)) ∧
  (∀ (s : State) (fn : Fin 9), s.shape →
     exec .perst s = exec (.functionLevelReset 0) s ∧ (s.answers = false → exec (.functionLevelReset fn) s = .next s) ∧
     (s.answers = true → Does (.functionLevelReset fn) s fun t =>
       ∀ o, (o = fn.val + 1 ∨ (fn = 0 ∧ 1 ≤ o ∧ o ≤ 9)) →
         (∀ x ∈ t.host.rings, x.owner = o → x.enable = false ∧ x.st = 0) ∧
         (∀ c ∈ t.host.chans, c.owner = o → c.st = .idle ∨ c.st = .error ∨ c.st = .stopped) ∧
         ∀ i, i < 16 → ∀ q ∈ (t.inst i).queue ++ (t.inst i).seqs, q.origin ≠ o))

/-- DMA: a waiting channel's doorbell reads its descriptor again; a copy moves exactly its bytes and writes its descriptor back, stays in
RUN while its access cannot act yet, and ends at the first tile whose check fails for good; a bus error on a read puts every channel in
ERROR and latches its kind and address. Where the spec leaves a detail open it rests on the model's choices of logs 92 and 121. -/
def Obligations.DmaCommands : Prop :=
  ∀ (s : State) (bell : Bell) (chan : Fin 32) (hostData : List Byte) (fetched : Word512), s.shape →
    let x := s.chan chan.val
    let d := descOf fetched
    (bell.page.val = 1104 + chan.val → (bell.offset ≠ 0 ∨ x.owner ≠ bell.fn.code) →
      exec (.dmaDoorbell bell fetched) s = .next (s.bump 0xC0818)) ∧
    (bell.page.val = 1104 + chan.val → bell.offset = 0 → x.owner = bell.fn.code →
      (x.st = .waiting → Does (.dmaDoorbell bell fetched) s fun t =>
        (d.own = false → t.chan chan.val = x) ∧ (d.own = true → d.ok = true → t.chan chan.val = { x with st := .run, desc := some fetched }) ∧
        (d.own = true → d.ok = false → (t.chan chan.val).st = .stopped ∧ (t.chan chan.val).status = stINVALID_FIELD) ∧
        (∀ k, k ≠ chan.val → t.chan k = s.chan k) ∧ Only [.chans, .rings, .out] s t) ∧
      (x.st ≠ .waiting → x.st ≠ .fetch → exec (.dmaDoorbell bell fetched) s = .next s)) ∧
    (∀ w reads, x.st = .run → x.desc = some w → s.dmaStatus x.owner (descOf w) = stOK →
      let e := descOf w
      let needs := e.out || merges e.dst e.len
      (s.hubWaits needs e.mpa e.len = true → Does (.dmaCopyDone chan hostData reads fetched) s fun t =>
        t.chan chan.val = { x with waited := x.waited || (needs && s.rangeFilling e.mpa e.len) } ∧
        (∀ k, k ≠ chan.val → t.chan k = s.chan k) ∧ Only [.regs, .chans] s t) ∧
      (∀ n u, s.hubWaits needs e.mpa e.len = false →
        s.hubRead e.mpa (0, 0) (if e.out then reads else mergeReads e.mpa e.len reads) = (some n, u) →
        Does (.dmaCopyDone chan hostData reads fetched) s fun t =>
          (t.chan chan.val).st = .stopped ∧ (t.chan chan.val).status = lostStatus e.mpa ∧ (t.chan chan.val).head = e.next)) ∧
    (∀ w, x.st = .run → x.desc = some w → s.dmaStatus x.owner (descOf w) = stOK → (descOf w).last = true → x.stopPending = false →
      let e := descOf w
      s.hubWaits (e.out || merges e.dst e.len) e.mpa e.len = false →
      Does (.dmaCopyDone chan hostData [] fetched) s fun t =>
        (t.chan chan.val).st = .idle ∧ (t.chan chan.val).head = e.next ∧ (t.chan chan.val).status = stOK ∧
        (t.chan chan.val).done = min (x.done + 1) 0xFFFFFFFF ∧ (∀ k, k ≠ chan.val → t.chan k = s.chan k) ∧
        Out.host (x.head.toNat + 63) [0] ∈ t.out ∧
        (e.out = true → Out.host e.dst ((s.touch e.src e.len).load e.src e.len) ∈ t.out ∧ t.mem.cells = s.mem.cells) ∧
        (e.out = false →
          (∀ (k : Nat) (h : k < (fit e.len hostData).length), Memory.read t.mem.cells (e.dst + k) = (fit e.len hostData)[k]) ∧
          ∀ y, (y < e.dst ∨ e.dst + e.len ≤ y) → Memory.read t.mem.cells y = Memory.read s.mem.cells y)) ∧
    (∀ w reads, x.st = .run → x.desc = some w → s.dmaStatus x.owner (descOf w) ≠ stOK →
      Does (.dmaCopyDone chan hostData reads fetched) s fun t =>
      (t.chan chan.val).st = .stopped ∧ (t.chan chan.val).status = s.dmaStatus x.owner (descOf w) ∧ t.mem.cells = s.mem.cells) ∧
    (x.st ≠ .run → x.st ≠ .fetch → ∀ check, exec (.dmaCopyDone chan hostData check fetched) s = .next s) ∧
    (∀ (kind : Fin 5) (addr : Word64), Does (.dmaBusError kind addr) s fun t =>
      t.reg 0xC0810 = min (s.reg 0xC0810 + 1) 0xFFFFFFFF ∧ t.host.busError = true ∧ t.host.errKind = kind.val + 1 ∧
      t.host.errAddr = addr ∧ ∀ k, k < 32 → (t.chan k).st = .error ∧ (t.chan k).desc = none)

/-! ### Power, proving, bring-up (16, 17, 19) -/

/-- The decision of a beat, taken once in it while the hub runs, at tick DEADLINE or at the present one where that has passed: the
operating points to come never exceed what each die wants, their predicted input is within the budget unless every die is already at OP0,
the budget is the cap as it stood at DEADLINE, with the steelyard at most its allocation, and the status bits say which of it failed. Where
the spec leaves a detail open it rests on the model's choices of logs 69 and 71. -/
def Obligations.PowerDecision : Prop :=
  ∀ s : State,
    let due := bits (s.reg 0x40028) 16 21
    let u := s.toTick due
    let want := u.wantAt (s.time.beat + 1)
    let budget := if bit (s.reg 0x40028) 0 then min (u.capAt due) u.allocation.1 else u.capAt due
    ((s.hubRuns = false ∨ s.power.decided = s.time.beat + 1) → exec .powerDecision s = .next s) ∧
    (s.hubRuns = true → s.power.decided ≠ s.time.beat + 1 → Does .powerDecision s fun t =>
      t.time.tick = max s.time.tick due ∧ t.power.decided = s.time.beat + 1 ∧ t.power.budget = budget ∧ t.power.op = s.power.op ∧
      ∃ y : List Nat, y.length = 4 ∧ t.power.pend = (if y = s.power.op then none else some y) ∧
        (∀ d, d < 4 → nth 0 y d ≤ nth 0 want d ∧ nth 0 want d ≤ s.ceiling d) ∧
        (s.predict y ≤ (budget : Rat) ∨ ∀ d, d < 4 → nth 0 y d = 0) ∧
        (t.power.capUnatt = true ↔ (∀ d, d < 4 → nth 0 y d = 0) ∧ (budget : Rat) < s.predict y) ∧
        (t.power.constrained = true ↔ ∃ d, d < 4 ∧ nth 0 y d < nth 0 want d))

/-- Power events: a lease that ends falls back, a detector's trip slows its die's clock until it clears, the input's thresholds halt the
module or begin and end the low-input response, a temperature of 105 °C halts it, the comparator's trip removes the supplies, and a
steelyard set counts once, in its beat and before the deadline. Where the spec leaves a detail open it rests on the model's choices of
logs 69 and 75. -/
def Obligations.PowerEvents : Prop :=
  ∀ (s : State) (die : Fin 4) (x : InputSample) (boot : StartUp) (z : TempSample) (k : Fin 9) (set : SteelSet),
    let p := s.power
    let temps := [z.fd0, z.fd1, z.fd2, z.fd3, z.hub, z.hbm]
    (p.lease = none → exec .leaseExpiry s = .next s) ∧
    (∀ due, p.lease = some due → s.fallsDue due = false → exec .leaseExpiry s = .next s) ∧
    (∀ due, p.lease = some due → s.fallsDue due = true → Does .leaseExpiry s fun t => t.time.clk = max s.time.clk due ∧
      t.power = { ((s.runTo due).noteCap).power with lease := none, fallback := true }) ∧
    (Does (.droopTrip die) s fun t => t.reg 0x40070 = min (s.reg 0x40070 + 1) 0xFFFFFFFF ∧ Only [.regs, .power] s t ∧
      t.power = { p with droopTrips := modNth p.droopTrips die.val (· + 1), droopLow := setNth p.droopLow die.val true,
                         cur := { p.cur with droop := min (p.cur.droop + 1) 0xFFFF } }) ∧
    exec (.droopRecovery die) s = .next { s with power := { p with droopLow := setNth p.droopLow die.val false } } ∧
    (nth none p.droopCeil die.val = none → exec (.droopCeilingLift die) s = .next s) ∧
    (∀ c, nth none p.droopCeil die.val = some c → s.time.beat < c.2 → exec (.droopCeilingLift die) s = .next s) ∧
    (∀ c, nth none p.droopCeil die.val = some c → c.2 ≤ s.time.beat → Does (.droopCeilingLift die) s fun t =>
      t.power = { p with droopCeil := setNth p.droopCeil die.val none } ∧ Only [.power, .regs, .rings, .handed, .out] s t) ∧
    ((p.lowInput = false ∨ p.lowClear = none ∨ ∃ c, p.lowClear = some c ∧ s.fallsDue (c + 1000000) = false) →
      exec .lowInputClear s = .next s) ∧
    (∀ c, p.lowInput = true → p.lowClear = some c → s.fallsDue (c + 1000000) = true → Does .lowInputClear s fun t => t.power.lowInput = false ∧
      t.power.alert = t.power.alarmed ∧ t.time.clk = max s.time.clk (c + 1000000) ∧ t.power.op = p.op) ∧
    (s.hubRuns = true → x.vin < 2800 → Does (.inputSample x boot) s fun t => t.haltedBy 3) ∧
    (s.hubRuns = true → 4100 < x.vin → Does (.inputSample x boot) s fun t => t.haltedBy 4) ∧
    (s.hubRuns = true → 2800 ≤ x.vin → x.vin < 3200 → p.lowInput = false → Does (.inputSample x boot) s fun t =>
      t.power.lowInput = true ∧ t.power.alert = true ∧ ∀ d, d < 4 → nth 0 t.power.op d = min (nth 0 p.op d) (t.ceiling d)) ∧
    (s.hubRuns = true → 3200 ≤ x.vin → x.vin ≤ 4100 → Does (.inputSample x boot) s fun t =>
      t.power.sum.n = p.sum.n + 1 ∧ t.power.sum.input = p.sum.input + x.input ∧ t.power.lowInput = p.lowInput ∧ t.power.op = p.op ∧
      t.power.lowClear = (if 3300 ≤ x.vin then some (p.lowClear.getD s.time.clk) else none) ∧ Only [.power, .svc] s t) ∧
    (s.hubRuns = false → s.svc.phase ≠ .off → Does (.inputSample x boot) s fun t =>
      t.svc.vinOk = decide (3000 ≤ x.vin ∧ x.vin ≤ 4000) ∧ Only [.svc] s t) ∧
    (s.svc.phase = .off → s.svc.mainEn = true → s.svc.refOk = true → 3000 ≤ x.vin → x.vin ≤ 4000 →
      Does (.inputSample x boot) s fun t => s.booted t) ∧
    (s.hubRuns = false → exec (.sensorRead z) s = .next s) ∧
    (s.hubRuns = true → (∃ v ∈ temps, 105 ≤ v) → Does (.sensorRead z) s fun t => t.haltedBy 5) ∧
    (s.hubRuns = true → (∀ v ∈ temps, v < 105) → Does (.sensorRead z) s fun t => t.power.tj = temps ∧ t.svc.phase = s.svc.phase) ∧
    ((s.hubRuns = true ∨ s.svc.phase = .supplies) → Does .hardwareTrip s fun t => t.haltedBy 6) ∧
    (s.hubRuns = false → s.svc.phase ≠ .supplies → s.svc.phase ≠ .standby → exec .hardwareTrip s = .next s) ∧
    (((s.port k.val).st ≠ .admitted ∨ bit (s.reg 0x40028) 0 = false) → exec (.steelyardSetReceive k set) s = .next s) ∧
    ((s.port k.val).st = .admitted → bit (s.reg 0x40028) 0 = true →
      let fits := set.checkOk = true ∧ set.group.toNat = bits (s.reg 0x40028) 1 14 ∧ set.beat.toNat + 1 = s.time.beat
      let twice := ∃ y ∈ p.sets, y.module = set.module ∧ y.beat = set.beat
      (¬ fits → exec (.steelyardSetReceive k set) s = .next (s.bump 0x40080)) ∧
      (fits → twice → exec (.steelyardSetReceive k set) s = .next s) ∧
      (fits → ¬ twice → bits (s.reg 0x40028) 16 21 ≤ s.time.tick → exec (.steelyardSetReceive k set) s = .next (s.bump 0x40080)) ∧
      (fits → ¬ twice → s.time.tick < bits (s.reg 0x40028) 16 21 → exec (.steelyardSetReceive k set) s =
        .next { s with power := { p with sets := p.sets.filter (fun y => y.module ≠ set.module) ++ [set] } }))

/-- Proving runs: a queued run starts when its unit is free; a run that fails fences its unit, one that passes counts a transient and
leaves; an SRAM run out of time is a failure; routine proving takes a free bead of its frame once a period, while fewer than four of its
beads are proving; more than sixteen replays of one bridge unit are a bridge error. Where the spec leaves a detail open it rests on the
model's choices of logs 63 and 106. -/
def Obligations.ProvingRuns : Prop :=
  ∀ (s : State) (u : ProveUnit) (pass : Bool) (rows : Nat) (die : Fin 4) (bridge : Fin 8) (same : Bool), s.shape →
    ((s.mayStart u = false ∨ (∃ r ∈ s.faults.runs, r.unit = u ∧ r.started.isSome = true) ∨ ∀ r ∈ s.faults.runs, r.unit ≠ u) →
      exec (.provingRunStart u) s = .next s) ∧
    (∀ r, s.mayStart u = true → (∀ r ∈ s.faults.runs, r.unit = u → r.started = none) →
      s.faults.runs.find? (fun r => r.unit == u) = some r → Does (.provingRunStart u) s fun t =>
        t.faults = { s.faults with runs := s.faults.runs.map (fun x =>
          if x = r then { r with started := some s.time.clk, beat := s.time.beat } else x) } ∧ Only [.faults] s t) ∧
    ((∀ r ∈ s.faults.runs, r.unit = u → r.started = none) →
      exec (.provingRunTimeout u) s = .next s ∧ (s.fab.held = [] → exec (.provingRunEnd u pass rows) s = .next s)) ∧
    (∀ r, s.fab.held = [] → s.faults.runs.find? (fun r => r.unit == u && r.started.isSome) = some r →
      (r.run = 1 → r.more = true → Does (.provingRunEnd u true rows) s fun t =>
        t.faults = { s.faults with runs := s.faults.runs.map (fun x => if x = r then { r with run := 2 } else x) }) ∧
      (¬ (r.run = 1 ∧ r.more = true) → r.repeated = false → r.routine = false → Does (.provingRunEnd u true rows) s fun t =>
        r ∉ t.faults.runs ∧ t.reg 0x60040 = min (s.reg 0x60040 + 1) 0xFFFFFFFF ∧ t.reg 0x60060 = min (s.reg 0x60060 + 1) 0xFFFFFFFF ∧
        (u, s.time.beat / 1048576, s.transients u + 1) ∈ t.faults.transients ∧ t.faults.status = s.faults.status) ∧
      (rows = 0 → Does (.provingRunEnd u false rows) s fun t =>
        r ∉ t.faults.runs ∧ t.isFenced u = true ∧ t.reg 0x60048 = min (s.reg 0x60048 + 1) 0xFFFFFFFF) ∧
      (∀ (k : Fin 24) (c : Fin 32), u = .hbmChannel k c → 0 < rows → s.spareRows k.val c.val + rows ≤ 32 →
        Does (.provingRunEnd u false rows) s fun t => r ∉ t.faults.runs ∧ t.spareRows k.val c.val = s.spareRows k.val c.val + rows ∧
          t.faults.status = s.faults.status) ∧
      (∀ k : Fin 9, u = .port k → Does (.provingRunEnd u false rows) s fun t => (t.port k.val).laneFail = rows % 256)) ∧
    (∀ r, s.faults.runs.find? (fun r => r.unit == u && r.started.isSome && r.run == 3) = some r →
      (s.time.beat < r.beat + 65536 → exec (.provingRunTimeout u) s = .next s) ∧
      (r.beat + 65536 ≤ s.time.beat → Does (.provingRunTimeout u) s fun t => r ∉ t.faults.runs ∧ t.isFenced u = true ∧
        t.reg 0x60050 = min (s.reg 0x60050 + 1) 0xFFFFFFFF)) ∧
    ((bit (s.reg 0x60010) 0 = false ∨ s.routineDue die = false) → exec (.routineProving die) s = .next s) ∧
    (bit (s.reg 0x60010) 0 = true → s.routineDue die = true →
      let begun := putKey s.faults.routineAt die.val s.time.beat
      ((s.routinePick die = none ∨ 4 ≤ (s.provingBeads die).length) → Does (.routineProving die) s fun t =>
        t.faults = { s.faults with routineAt := begun } ∧ Only [.faults] s t) ∧
      (∀ v, s.routinePick die = some v → (s.provingBeads die).length < 4 → Does (.routineProving die) s fun t =>
        Only [.faults] s t ∧ s.isFenced v = false ∧ (∀ r ∈ s.faults.runs, r.unit ≠ v) ∧
        ∃ r : Run, t.faults = { s.faults with runs := s.faults.runs ++ [r], routineAt := begun } ∧ r.unit = v ∧ r.run = 2 ∧
          r.routine = true ∧ r.started = some s.time.clk)) ∧
    (let n := if same then (findKey s.fab.bridgeRuns bridge.val).getD 0 + 1 else 1
     Does (.bridgeUnitReplay bridge same) s fun t =>
        findKey t.fab.bridgeReplays bridge.val = some (min ((findKey s.fab.bridgeReplays bridge.val).getD 0 + 1) 0xFFFFFFFF) ∧
        findKey t.fab.bridgeRuns bridge.val = some (if n ≤ 16 then n else 0) ∧ (n ≤ 16 → Only [.fab] s t) ∧
        (16 < n → s.isFenced (.bridge bridge) = false → ∃ r ∈ t.faults.runs, r.unit = .bridge bridge))

/-- SVC_CTRL: STANDBY keeps HBM4 alone under its supply with the marker in the island, or returns where the pages do not suffice; RESUME
and RESET boot afresh with their cause; PREPARE_REMOVE ends with the supplies removed. Where the spec leaves a detail open it rests on the
model's choices of logs 25, 26 and 75. -/
def Obligations.ServiceCommands : Prop :=
  ∀ (s : State) (w : RegWr) (checks : List Check) (boot : StartUp),
    let asked := fun (on bitNo : Nat) => s.accepts (rowAttempt w 0xB0010 on 0) ∧
      svcBit (s.valueOf (rowAttempt w 0xB0010 on 0)) = some bitNo
    (asked 1 0 → Does (.standby w) s fun t =>
      (t.svc.phase = .standby ∧ t.hubOff ∧ t.svc.mark.isSome = true ∧ t.svc.markBad = false ∧
        t.svc.supplies = [true, false, false, false]) ∨
      (t.svc.phase = .setupLocked ∧ Out.alert 0x2D ∈ t.out)) ∧
    (asked 2 1 → Does (.resume w checks boot) s fun t => s.booted t ∧ t.svc.cause = 1 ∧ t.svc.mark = none) ∧
    (asked 4 2 → Does (.prepareRemove w) s fun t => t.svc.phase = .removeReady ∧ t.svc.cause = 8 ∧ (s.hubRuns = true → t.hubOff)) ∧
    (asked 8 3 → Does (.svcReset w boot) s fun t => t.svc.cause = 2 ∧
      (s.svc.mainEn = true → s.mayPowerUp = true → s.booted t) ∧
      (¬ (s.svc.mainEn = true ∧ s.mayPowerUp = true) → t.svc.phase = .off ∧ t.hubOff))

/-- The pins and supplies: MAIN_EN starts and halts the module, a lost supply or reference has the effect its rule gives it, an expired
bound of bring-up is told, and RECOVERY boots an image that it accepts. Where the spec leaves a detail open it rests on the model's
choices of logs 24 and 73 to 75. -/
def Obligations.PinsAndSupplies : Prop :=
  ∀ (s : State) (boot : StartUp) (untrained : List (Fin 24 × Fin 32)) (image : List Byte) (bound : Fin 10), s.shape →
    let ph := s.svc.phase
    let ready := s.svc.island = true ∧ s.mayPowerUp = true
    let rest := ph = .off ∨ ((ph = .halted ∨ ph = .removeReady) ∧ s.svc.mainEn = false)
    exec .vstbyApplied s = .next { s with svc := { s.svc with vstby := true, island := true } } ∧
    exec .ref100Return s = .next { s with svc := { s.svc with refOk := true } } ∧
    (rest → ready → Does (.mainEnAssert boot) s fun t => s.booted t ∧ t.svc.mainEn = true) ∧
    (rest → ¬ ready → Does (.mainEnAssert boot) s fun t => t.svc = { s.svc with mainEn := true, phase := .off, held := t.svc.held } ∧
      Only [.svc, .phase, .platform, .out] s t) ∧
    (¬ rest → exec (.mainEnAssert boot) s = .next { s with svc := { s.svc with mainEn := true } }) ∧
    ((s.hubRuns = true ∨ ph = .supplies) →
      (Does .mainEnDeassert s fun t => t.haltedBy 7 ∧ t.svc.mainEn = false) ∧ Does .presentSenseLoss s fun t => t.haltedBy 3) ∧
    (s.hubRuns = false → ph ≠ .supplies → exec .presentSenseLoss s = .next s ∧
      (ph ≠ .standby → exec .mainEnDeassert s = .next { s with svc := { s.svc with mainEn := false } })) ∧
    (ph = .standby → ∀ c ∈ [Instr.vhbmLoss, .mainEnDeassert, .hardwareTrip], Does c s fun t =>
      t.svc.phase = .off ∧ t.svc.markBad = true ∧ t.svc.mark = none ∧ t.hubOff ∧
      t.svc.cause = (if c = .mainEnDeassert then 7 else s.svc.cause)) ∧
    (ph ≠ .standby → exec .vhbmLoss s = .next s) ∧
    (Does .inputLoss s fun t => t.svc = { Service.reset with refOk := s.svc.refOk, mainEn := s.svc.mainEn } ∧ t.hubOff ∧ t.sec.tid = 0 ∧
      t.sec.receiver = none) ∧
    (s.hubRuns = false → exec .refLoss s = .next { s with svc := { s.svc with refOk := false } }) ∧
    (s.hubRuns = true → Does .refLoss s fun t => t.svc.refOk = false ∧ t.fab.admitted = false ∧ t.time.st = .unlocked ∧
      ∀ k, k < 9 → (s.port k).st = .admitted → bit s.faults.fencePort k = false → (t.port k).st = .retrain) ∧
    (Does (.bringUpBoundExpiry bound) s fun t => Out.alert 0x2D ∈ t.out ∧ Only [.regs, .rings, .out] s t) ∧
    (ph ≠ .recovery → exec (.recoveryImageReceived image untrained) s = .next s) ∧
    (ph = .recovery → s.fwOk image = true → Does (.recoveryImageReceived image untrained) s fun t =>
      t.svc.phase = .setupLocked ∧ t.svc.locked = true ∧ t.svc.hbmReady = true ∧ t.vault.image = some image ∧ t.sec.recovery = false) ∧
    (ph = .recovery → s.fwOk image = false → Does (.recoveryImageReceived image untrained) s fun t =>
      t.svc.phase = .recovery ∧ t.vault = s.vault ∧ Only [.handed, .platform, .out] s t)

/-- Memory requests, accepted writes of the arbitration, ledger and power blocks, the security reads, the publisher keys and a firmware
update complete, each with its own effect, in every state and for every operands that meet the conditions named: those of a request that is
delivered, allowed and need not wait, of a write that passes every check, of a module that answers. Where the spec leaves a detail open it
rests on the model's choices of logs 57, 72, 92 and 112. -/
def Obligations.OwnEffects : Prop :=
  (∀ (s : State) (m : Msg), s.answerable m →
     let a := msgMpa m
     let ready := fun (kind : Nat) (write : Bool) (n : Nat) => s.takes kind m ∧ memFormed kind m = true ∧
       s.fabricStatus write m.src.toNat a n = stOK ∧ s.behind s.fab.held a n = false ∧ s.hubWaits (!write || merges a n) a n = false
     let n := m.length.toNat
     let w := memBytes 3 m
     let written := fun (t : State) (bs : List Byte) =>
       ∀ (k : Nat) (h : k < bs.length), Memory.read t.mem.cells (a + k) = bs[k]
     (ready 1 false n → ∃ t, exec (.load m []) s = .next t ∧ t.out = s.out ++ [s.answer 0x01 m stOK ((s.touch a n).load a n)]) ∧
     (ready 2 true n → ∃ t, exec (.store m []) s = .next t ∧ t.out = s.out ++ [s.answer 0x02 m stOK []] ∧ written t m.payload) ∧
     (ready 3 true w → ∃ t, exec (.atomic m []) s = .next t ∧ t.out = s.out ++ [s.answer 0x03 m stOK ((s.touch a w).load a w)] ∧
       written t (leBytes w (atomicResult (bits m.opt.toNat 0 2) (bits m.opt.toNat 2 3) (leNat ((s.touch a w).load a w))
         (field m.payload 0 w) (field m.payload w w)))) ∧
     (ready 4 true n → ∃ t, exec (.bulkPut m []) s = .next t ∧ t.out = s.out ++ [s.answer 0x04 m stOK []] ∧ written t m.payload) ∧
     (ready 5 false n → ∃ t, exec (.bulkGet m []) s = .next t ∧ t.out = s.out ++ [s.answer 0x05 m stOK ((s.touch a n).load a n)])) ∧
  (∀ (s : State) (w : RegWr),
     let sets := fun (off v : Nat) => s.accepts (rowAttempt w off v 0) ∧ bit (s.valueOf (rowAttempt w off v 0)) 0 = true
     (sets 0x50020 1 → ∃ t, exec (.arbCommit w) s = .next t ∧
       t.arb.pend = some (s.arb.shadow, s.time.clk + 128, w.origin.code)) ∧
     (∀ set due origin, s.arb.pend = some (set, due, origin) → s.fallsDue due = true →
       ∃ t, exec .arbSetActivation s = .next t ∧ t.arb.active = set ∧ t.arb.pend = none) ∧
     (s.accepts (rowAttempt w 0x40000 0 0) → ∃ t, exec (.cap w) s = .next t ∧
       t.power.capWatts = bits (s.valueOf (rowAttempt w 0x40000 0 0)) 0 16 ∧ t.power.capValid = true) ∧
     (sets 0x40010 1 → ∃ t, exec (.capRenew w) s = .next t ∧ t.power.lease = some (s.time.clk + s.reg 0x40008 * 1000000)) ∧
     (s.accepts (rowAttempt w 0x40028 0 0) → ∃ t, exec (.steelyardCfg w) s = .next t ∧
       bit (t.reg 0x40028) 0 = bit (s.valueOf (rowAttempt w 0x40028 0 0)) 0) ∧
     (s.accepts (rowAttempt w 0x70008 0 0) → ∃ t, exec (.ledgerAck w) s = .next t ∧
       t.ledger.ack = bits (s.valueOf (rowAttempt w 0x70008 0 0)) 0 48) ∧
     (s.accepts (rowAttempt w 0x70010 0 0) → ∃ t, exec (.ledgerCfg w) s = .next t ∧
       t.ledger.mirrorEn = bit (s.valueOf (rowAttempt w 0x70010 0 0)) 0) ∧
     (sets 0x70048 1 → ∃ t, exec (.fwSvnCommit w) s = .next t ∧ t.sec.fusedSvn = max s.sec.fusedSvn s.sec.svn)) ∧
  (∀ (s : State) (via : Via) (seq : BitVec 48) (c : Ckpt), s.answers = true → (viaOrigin via = 1 ∨ viaOrigin via = 10) →
     (∃ t, exec (.identityRead via) s = .next t ∧ t.out = s.out ++ [.reply via stOK endorsementRecord]) ∧
     (∃ t, exec (.ledgerRead via seq) s = .next t ∧ t.out = s.out ++ [.reply via stOK
       (((s.ledger.ring.filter fun r => seq.toNat ≤ r.seq).reverse.take 64).flatMap LedgerRec.bytes)]) ∧
     (s.ledger.store.find? (fun c => c.record.seq == seq.toNat) = some c →
       ∃ t, exec (.ckptRead via seq) s = .next t ∧ t.out = s.out ++ [.reply via stOK c.slot])) ∧
  (∀ (s : State) (index : Fin 64) (sigSet : BitVec 8) (key bytes : List Byte) (length offset : Word32), s.answers = true →
     s.ledgerShut = false →
     (sigLength sigSet.toNat ≠ 0 → key.length = 68 → beNat (key.take 4) = sigOid sigSet.toNat →
       ∃ t, exec (.pubkeySet .i3c index sigSet key) s = .next t ∧ findKey t.sec.keys index.val = some ⟨sigSet.toNat, key, false⟩) ∧
     (∀ k, findKey s.sec.keys index.val = some k →
       ∃ t, exec (.pubkeyRevoke .i3c index) s = .next t ∧ findKey t.sec.keys index.val = some { k with revoked := true }) ∧
     (8192 ≤ length.toNat → length.toNat ≤ 0x1001000 → length.toNat % 4096 = 0 →
       ∃ t, exec (.fwUpdateBegin .i3c length) s = .next t ∧ t.sec.update = some ⟨length.toNat, []⟩) ∧
     (∀ u, s.sec.update = some u → offset.toNat + bytes.length ≤ u.length →
       ∃ t, exec (.fwUpdateData .i3c offset bytes) s = .next t ∧
         t.sec.update = some { u with bytes := u.bytes ++ [(offset.toNat, bytes)] }) ∧
     (∀ u, s.sec.update = some u → s.fwOk u.image = true → s.vault.buffer.length + 1 < 1024 →
       ∃ t, exec (.fwUpdateEnd .i3c) s = .next t ∧ t.sec.update = none ∧ t.vault.nextImage = some u.image))
end

