-- ==== Sys2Proof/Laws/Memory.lean ====
section
/-! SUPPORT. The one memory: every operation on it keeps the canonical form; what a byte reads as after a write or a clearing. -/
set_option Elab.async false
namespace Sys2Proof.Machine

theorem Memory.filter_wf (m : List Host.Cell) (p : Host.Cell → Bool) (h : Memory.wf m) : Memory.wf (m.filter p) :=
  ⟨h.1.filter p, fun c hc => h.2 c (List.mem_filter.1 hc).1⟩

/-- Cells moved up or down by one distance keep the form, between the ends of the range moved likewise. -/
theorem Memory.moved_form (m : List Host.Cell) (lo hi : Nat) (f : Nat → Nat) (h : Memory.wf m)
    (hf : ∀ x y, lo ≤ x → x < y → y < hi → f x < f y) :
    (Memory.moved m lo hi f).Pairwise (fun x y => x.1 < y.1) ∧
      ∀ c ∈ Memory.moved m lo hi f, c.2 ≠ Memory.default ∧ ∃ x, lo ≤ x ∧ x < hi ∧ c.1 = f x := by
  have hm : ∀ {c}, c ∈ m.filter (fun c => lo ≤ c.1 && c.1 < hi) → c ∈ m ∧ lo ≤ c.1 ∧ c.1 < hi := by
    intro c hc
    have := List.mem_filter.1 hc
    simpa using this
  refine ⟨List.pairwise_map.2 ((h.1.filter _).imp_of_mem fun {a b} ha hb hab => ?_), fun c hc => ?_⟩
  · exact hf _ _ (hm ha).2.1 hab (hm hb).2.2
  · obtain ⟨d, hd, rfl⟩ := List.mem_map.1 hc
    exact ⟨h.2 d (hm hd).1, d.1, (hm hd).2.1, (hm hd).2.2, rfl⟩

/-- Four runs of cells, each in its form and each below the next, are in the form together. -/
theorem Memory.runs_wf {a b c d : List Host.Cell} {x y z : Nat}
    (ha : Memory.wf a ∧ ∀ q ∈ a, q.1 < x) (hb : Memory.wf b ∧ ∀ q ∈ b, x ≤ q.1 ∧ q.1 < y)
    (hc : Memory.wf c ∧ ∀ q ∈ c, y ≤ q.1 ∧ q.1 < z) (hd : Memory.wf d ∧ ∀ q ∈ d, z ≤ q.1) (hxy : x ≤ y) (hyz : y ≤ z) :
    Memory.wf (a ++ b ++ c ++ d) := by
  constructor
  · refine List.pairwise_append.2 ⟨List.pairwise_append.2 ⟨List.pairwise_append.2 ⟨ha.1.1, hb.1.1, ?_⟩, hc.1.1, ?_⟩, hd.1.1, ?_⟩
    · intro p hp q hq
      exact Nat.lt_of_lt_of_le (ha.2 p hp) (hb.2 q hq).1
    · intro p hp q hq
      have := (hc.2 q hq).1
      rcases List.mem_append.1 hp with hp | hp
      · have := ha.2 p hp; omega
      · have := (hb.2 p hp).2; omega
    · intro p hp q hq
      have := hd.2 q hq
      rcases List.mem_append.1 hp with hp | hp
      · rcases List.mem_append.1 hp with hp | hp
        · have := ha.2 p hp; omega
        · have := (hb.2 p hp).2; omega
      · have := (hc.2 p hp).2; omega
  · intro q hq
    rcases List.mem_append.1 hq with hq | hq
    · rcases List.mem_append.1 hq with hq | hq
      · rcases List.mem_append.1 hq with hq | hq
        · exact ha.1.2 q hq
        · exact hb.1.2 q hq
      · exact hc.1.2 q hq
    · exact hd.1.2 q hq

/-- A remap moves the bytes of whole rods and keeps the form. -/
theorem Memory.remapped_wf (m : List Host.Cell) (die p : Nat) (hp : p < 32) (h : Memory.wf m) : Memory.wf (Memory.remapped m die p) := by
  have e1 : (p + 1) * rodBytes = p * rodBytes + rodBytes := Nat.succ_mul ..
  have e2 : (32 - p) * rodBytes = 32 * rodBytes - p * rodBytes := Nat.sub_mul ..
  have e3 : p * rodBytes ≤ 31 * rodBytes := Nat.mul_le_mul_right _ (by omega)
  have m1 := Memory.moved_form m (die * 2 ^ 46 + (p + 1) * rodBytes) (die * 2 ^ 46 + 33 * rodBytes) (· - rodBytes) h
    (fun x y hx hxy _ => by omega)
  have m2 := Memory.moved_form m (die * 2 ^ 46 + p * rodBytes) (die * 2 ^ 46 + (p + 1) * rodBytes) (· + (32 - p) * rodBytes) h
    (fun x y hx hxy _ => by omega)
  refine Memory.runs_wf (x := die * 2 ^ 46 + p * rodBytes) (y := die * 2 ^ 46 + 32 * rodBytes) (z := die * 2 ^ 46 + 33 * rodBytes)
    ⟨Memory.filter_wf m _ h, fun q hq => ?_⟩ ⟨⟨m1.1, fun q hq => (m1.2 q hq).1⟩, fun q hq => ?_⟩
    ⟨⟨m2.1, fun q hq => (m2.2 q hq).1⟩, fun q hq => ?_⟩ ⟨Memory.filter_wf m _ h, fun q hq => ?_⟩ (by omega) (by omega)
  · have := (List.mem_filter.1 hq).2; simpa using this
  · obtain ⟨_, x, hx, hy, e⟩ := m1.2 q hq; rw [e]; omega
  · obtain ⟨_, x, hx, hy, e⟩ := m2.2 q hq; rw [e]; omega
  · have := (List.mem_filter.1 hq).2; simpa using this

theorem Memory.unmapped_wf (m : List Host.Cell) (die p : Nat) (hp : p < 32) (h : Memory.wf m) : Memory.wf (Memory.unmapped m die p) := by
  have e1 : (p + 1) * rodBytes = p * rodBytes + rodBytes := Nat.succ_mul ..
  have e2 : (32 - p) * rodBytes = 32 * rodBytes - p * rodBytes := Nat.sub_mul ..
  have e3 : p * rodBytes ≤ 31 * rodBytes := Nat.mul_le_mul_right _ (by omega)
  have m1 := Memory.moved_form m (die * 2 ^ 46 + 32 * rodBytes) (die * 2 ^ 46 + 33 * rodBytes) (· - (32 - p) * rodBytes) h
    (fun x y hx hxy _ => by omega)
  have m2 := Memory.moved_form m (die * 2 ^ 46 + p * rodBytes) (die * 2 ^ 46 + 32 * rodBytes) (· + rodBytes) h
    (fun x y hx hxy _ => by omega)
  refine Memory.runs_wf (x := die * 2 ^ 46 + p * rodBytes) (y := die * 2 ^ 46 + (p + 1) * rodBytes) (z := die * 2 ^ 46 + 33 * rodBytes)
    ⟨Memory.filter_wf m _ h, fun q hq => ?_⟩ ⟨⟨m1.1, fun q hq => (m1.2 q hq).1⟩, fun q hq => ?_⟩
    ⟨⟨m2.1, fun q hq => (m2.2 q hq).1⟩, fun q hq => ?_⟩ ⟨Memory.filter_wf m _ h, fun q hq => ?_⟩ (by omega) (by omega)
  · have := (List.mem_filter.1 hq).2; simpa using this
  · obtain ⟨_, x, hx, hy, e⟩ := m1.2 q hq; rw [e]; omega
  · obtain ⟨_, x, hx, hy, e⟩ := m2.2 q hq; rw [e]; omega
  · have := (List.mem_filter.1 hq).2; simpa using this

/-- Where the cells of bytes laid at `a` lie, and that none reads as an unlisted byte. -/
theorem Memory.cellsAt_mem (a : Nat) (bs : List Byte) (c : Host.Cell) (h : c ∈ Memory.cellsAt a bs) :
    a ≤ c.1 ∧ c.1 < a + bs.length ∧ c.2 ≠ 0 := by
  induction bs generalizing a with
  | nil => cases h
  | cons b bs ih =>
    unfold Memory.cellsAt at h
    split at h
    · have ⟨h1, h2, h3⟩ := ih (a + 1) h; simp only [List.length_cons]; exact ⟨by omega, by omega, h3⟩
    · next hb =>
      rcases List.mem_cons.1 h with rfl | h
      · simp only [List.length_cons]; exact ⟨Nat.le_refl _, by omega, hb⟩
      · have ⟨h1, h2, h3⟩ := ih (a + 1) h; simp only [List.length_cons]; exact ⟨by omega, by omega, h3⟩

theorem Memory.cellsAt_sorted (a : Nat) (bs : List Byte) : (Memory.cellsAt a bs).Pairwise (fun x y => x.1 < y.1) := by
  induction bs generalizing a with
  | nil => exact List.Pairwise.nil
  | cons b bs ih =>
    unfold Memory.cellsAt
    split
    · exact ih (a + 1)
    · refine List.Pairwise.cons (fun c hc => ?_) (ih (a + 1))
      have := Memory.cellsAt_mem _ _ _ hc
      simp only; omega

theorem Memory.write_wf (m : List Host.Cell) (a : Nat) (bs : List Byte) (h : Memory.wf m) : Memory.wf (Memory.write m a bs) := by
  have hm : ∀ {p : Host.Cell → Bool} {c}, c ∈ m.filter p → c ∈ m ∧ p c = true := fun hc => List.mem_filter.1 hc
  constructor
  · refine List.pairwise_append.2 ⟨h.1.filter _, List.pairwise_append.2 ⟨Memory.cellsAt_sorted a bs, h.1.filter _, ?_⟩, ?_⟩
    · intro x hx y hy
      have := Memory.cellsAt_mem _ _ _ hx
      have hy := (hm hy).2; simp only [decide_eq_true_eq] at hy; omega
    · intro x hx y hy
      have hx := (hm hx).2; simp only [decide_eq_true_eq] at hx
      rcases List.mem_append.1 hy with hy | hy
      · have := Memory.cellsAt_mem _ _ _ hy; omega
      · have hy := (hm hy).2; simp only [decide_eq_true_eq] at hy; omega
  · intro c hc
    rcases List.mem_append.1 hc with hc | hc
    · exact h.2 c (hm hc).1
    · rcases List.mem_append.1 hc with hc | hc
      · exact (Memory.cellsAt_mem _ _ _ hc).2.2
      · exact h.2 c (hm hc).1

theorem Memory.clear_wf (m : List Host.Cell) (a n : Nat) (h : Memory.wf m) : Memory.wf (Memory.clear m a n) := by
  have hm : ∀ {p : Host.Cell → Bool} {c}, c ∈ m.filter p → c ∈ m ∧ p c = true := fun hc => List.mem_filter.1 hc
  constructor
  · refine List.pairwise_append.2 ⟨h.1.filter _, h.1.filter _, ?_⟩
    intro x hx y hy
    have hx := (hm hx).2; have hy := (hm hy).2
    simp only [decide_eq_true_eq] at hx hy; omega
  · intro c hc
    rcases List.mem_append.1 hc with hc | hc <;> exact h.2 c (hm hc).1

/-- A list with no cell at an address reads as an unlisted byte there. -/
theorem Memory.read_none (m : List Host.Cell) (x : Nat) (h : ∀ c ∈ m, c.1 ≠ x) : Memory.read m x = Memory.default := by
  unfold Memory.read
  rw [List.find?_eq_none.2 (fun c hc => by simpa using h c hc)]

/-- Reading skips cells at other addresses in front. -/
theorem Memory.read_append (l r : List Host.Cell) (x : Nat) (h : ∀ c ∈ l, c.1 ≠ x) : Memory.read (l ++ r) x = Memory.read r x := by
  unfold Memory.read
  rw [List.find?_append, List.find?_eq_none.2 (fun c hc => by simpa using h c hc), Option.none_or]

theorem Memory.read_append_right (l r : List Host.Cell) (x : Nat) (h : ∀ c ∈ r, c.1 ≠ x) :
    Memory.read (l ++ r) x = Memory.read l x := by
  unfold Memory.read
  rw [List.find?_append]
  cases hl : l.find? (fun c => c.1 == x) with
  | some c => rfl
  | none => rw [List.find?_eq_none.2 (fun c hc => by simpa using h c hc)]; rfl

/-- A filter that keeps every cell at an address leaves what is read there. -/
theorem Memory.read_filter (m : List Host.Cell) (p : Host.Cell → Bool) (x : Nat) (h : ∀ c ∈ m, c.1 = x → p c = true) :
    Memory.read (m.filter p) x = Memory.read m x := by
  unfold Memory.read
  rw [List.find?_filter]
  congr 1
  refine List.find?_congr fun c hc => ?_
  by_cases e : c.1 = x
  · simp [h c hc e, e]
  · simp [e]

/-- The bytes laid at `a` read as themselves. -/
theorem Memory.read_cellsAt (a : Nat) (bs : List Byte) (i : Nat) (h : i < bs.length) :
    Memory.read (Memory.cellsAt a bs) (a + i) = bs[i] := by
  induction bs generalizing a i with
  | nil => simp at h
  | cons b bs ih =>
    cases i with
    | zero =>
      unfold Memory.cellsAt
      split
      · next hb =>
        subst hb
        exact Memory.read_none _ _ fun c hc => by have := Memory.cellsAt_mem _ _ _ hc; omega
      · simp [Memory.read]
    | succ i =>
      have h' : i < bs.length := by simpa using h
      have e : a + (i + 1) = a + 1 + i := by omega
      unfold Memory.cellsAt
      split
      · rw [e]; exact ih (a + 1) i h'
      · have := ih (a + 1) i h'
        rw [e]
        unfold Memory.read at this ⊢
        rw [List.find?_cons]
        have hne : (a == a + 1 + i) = false := by simp; omega
        simp only [hne, List.getElem_cons_succ]
        exact this

/-- A byte inside what was written reads as written. -/
theorem Memory.read_write_in (m : List Host.Cell) (a i : Nat) (bs : List Byte) (h : i < bs.length) :
    Memory.read (Memory.write m a bs) (a + i) = bs[i] := by
  unfold Memory.write
  rw [Memory.read_append _ _ _ (fun c hc => by have := (List.mem_filter.1 hc).2; simp at this; omega),
    Memory.read_append_right _ _ _ (fun c hc => by have := (List.mem_filter.1 hc).2; simp at this; omega),
    Memory.read_cellsAt]

/-- A byte outside what was written reads as before. -/
theorem Memory.read_write_out (m : List Host.Cell) (a x : Nat) (bs : List Byte) (h : x < a ∨ a + bs.length ≤ x) :
    Memory.read (Memory.write m a bs) x = Memory.read m x := by
  unfold Memory.write
  rcases h with h | h
  · rw [Memory.read_append_right _ _ _ (fun c hc => ?_),
      Memory.read_filter _ _ _ fun c _ e => by simp; omega]
    rcases List.mem_append.1 hc with hc | hc
    · have := Memory.cellsAt_mem _ _ _ hc; omega
    · have := (List.mem_filter.1 hc).2; simp at this; omega
  · rw [Memory.read_append _ _ _ (fun c hc => by have := (List.mem_filter.1 hc).2; simp at this; omega),
      Memory.read_append _ _ _ (fun c hc => by have := Memory.cellsAt_mem _ _ _ hc; omega),
      Memory.read_filter _ _ _ fun c _ e => by simp; omega]

/-- A byte outside what was cleared reads as before. -/
theorem Memory.read_clear_out (m : List Host.Cell) (a n x : Nat) (h : x < a ∨ a + n ≤ x) :
    Memory.read (Memory.clear m a n) x = Memory.read m x := by
  unfold Memory.clear
  rcases h with h | h
  · rw [Memory.read_append_right _ _ _ (fun c hc => by have := (List.mem_filter.1 hc).2; simp at this; omega),
      Memory.read_filter _ _ _ fun c _ e => by simp; omega]
  · rw [Memory.read_append _ _ _ (fun c hc => by have := (List.mem_filter.1 hc).2; simp at this; omega),
      Memory.read_filter _ _ _ fun c _ e => by simp; omega]

/-- A cleared byte reads as an unlisted one. -/
theorem Memory.read_clear_in (m : List Host.Cell) (a n x : Nat) (h : a ≤ x ∧ x < a + n) :
    Memory.read (Memory.clear m a n) x = Memory.default := by
  refine Memory.read_none _ _ fun c hc => ?_
  rcases List.mem_append.1 hc with hc | hc <;> · have := (List.mem_filter.1 hc).2; simp at this; omega

end Sys2Proof.Machine
end

