-- ==== Sys2Proof/Laws/Kept.lean ====
section
/-! SUPPORT. `Kept ps s t`: what a command that may change the parts `ps` keeps on the way from `s` to `t`: every other part, the queue,
the canonical form of memory, the counters of one-way cells (R470, R475), what has left the module, and the number of instances, ports,
channels and functions. It is reflexive and transitive; each operation has one lemma, which names the parts it may change. -/
set_option Elab.async false
namespace Sys2Proof.Machine

/-- What `t` keeps of `s` where only the parts `ps` may change. -/
structure Kept (ps : List Part) (s t : State) : Prop where
  mem     : Memory.wf s.mem.cells → Memory.wf t.mem.cells
  svn     : s.sec.fusedSvn ≤ t.sec.fusedSvn
  blocks  : s.sec.blocks ≤ t.sec.blocks
  pending : t.pending = s.pending
  out     : s.out <+: t.out
  shape   : s.shape → t.shape
  same    : ∀ p, p ∉ ps → s.agree t p

theorem Kept.only {ps : List Part} {s t : State} (h : Kept ps s t) : Only ps s t := ⟨h.pending, h.same⟩

theorem Kept.refl {ps : List Part} (s : State) : Kept ps s s :=
  ⟨id, Nat.le_refl _, Nat.le_refl _, rfl, List.prefix_refl _, id, fun p _ => by cases p <;> rfl⟩

theorem State.agree_trans {s t u : State} {p : Part} (a : s.agree t p) (b : t.agree u p) : s.agree u p := by
  cases p <;> exact Eq.trans b a

/-- A step from `x` to `t` after what led to `x`. -/
theorem Kept.andThen {ps qs : List Part} {s x t : State} (b : Kept qs x t) (a : Kept ps s x)
    (hq : qs ⊆ ps := by first | with_reducible exact List.Subset.refl _ | decide | (refine List.Subset.trans ?_ (by assumption); decide)) :
    Kept ps s t :=
  ⟨b.mem ∘ a.mem, a.svn.trans b.svn, a.blocks.trans b.blocks, b.pending.trans a.pending, a.out.trans b.out, b.shape ∘ a.shape,
    fun p h => State.agree_trans (a.same p h) (b.same p fun h' => h (hq h'))⟩

/-- The same within one list of parts. -/
theorem Kept.on {ps : List Part} {s x t : State} (b : Kept ps x t) (a : Kept ps s x) : Kept ps s t := b.andThen a (List.Subset.refl _)

/-- More parts may change. -/
theorem Kept.mono {ps qs : List Part} {s t : State} (h : Kept ps s t) (hq : ps ⊆ qs) : Kept qs s t := h.andThen (Kept.refl s) hq

/-- A field of a memory system as built. -/
theorem MemSys.cells_mk {a b c d e f g h i j k l} : (MemSys.mk a b c d e f g h i j k l).cells = a := rfl

/-- A record update that changes listed parts only and leaves the kept ones alone. -/
theorem Kept.upd {ps : List Part} {s x : State} {time regs arr mem serve vault fab arb host power faults ledger sec svc free}
    (h : Kept ps s x)
    (hm : mem.cells = x.mem.cells := by first | with_reducible rfl | exact MemSys.cells_mk)
    (hs : x.sec.fusedSvn ≤ sec.fusedSvn := by first | exact Nat.le_refl _ | exact Nat.le_max_left _ _)
    (hb : x.sec.blocks ≤ sec.blocks := by first | exact Nat.le_refl _ | exact Nat.le_succ _)
    (hi : serve.insts.length = x.serve.insts.length := by first | with_reducible rfl | simp [setNth, modNth])
    (hp : fab.ports.length = x.fab.ports.length := by first | with_reducible rfl | simp [setNth, modNth])
    (hc : host.chans.length = x.host.chans.length := by first | with_reducible rfl | simp [setNth, modNth])
    (hf : host.funcs.length = x.host.funcs.length := by first | with_reducible rfl | simp [setNth, modNth])
    (h1 : time = x.time ∨ Part.time ∈ ps := by first | with_reducible exact .inl rfl | exact .inr (by decide))
    (h2 : regs = x.regs ∨ Part.regs ∈ ps := by first | with_reducible exact .inl rfl | exact .inr (by decide))
    (h3 : arr = x.arr ∨ Part.arr ∈ ps := by first | with_reducible exact .inl rfl | exact .inr (by decide))
    (h4 : mem = x.mem ∨ Part.mem ∈ ps := by first | with_reducible exact .inl rfl | exact .inr (by decide))
    (h5 : serve = x.serve ∨ Part.serve ∈ ps := by first | with_reducible exact .inl rfl | exact .inr (by decide))
    (h6 : vault = x.vault ∨ Part.vault ∈ ps := by first | with_reducible exact .inl rfl | exact .inr (by decide))
    (h7 : fab = x.fab ∨ Part.fab ∈ ps := by first | with_reducible exact .inl rfl | exact .inr (by decide))
    (h8 : arb = x.arb ∨ Part.arb ∈ ps := by first | with_reducible exact .inl rfl | exact .inr (by decide))
    (h9 : { host with rings := [], funcs := [], cqHold := [] } = { x.host with rings := [], funcs := [], cqHold := [] } ∨ Part.chans ∈ ps := by first | with_reducible exact .inl rfl | exact .inr (by decide))
    (h10 : (host.rings, host.funcs, host.cqHold) = (x.host.rings, x.host.funcs, x.host.cqHold) ∨ Part.rings ∈ ps := by first | with_reducible exact .inl rfl | exact .inr (by decide))
    (h11 : power = x.power ∨ Part.power ∈ ps := by first | with_reducible exact .inl rfl | exact .inr (by decide))
    (h12 : faults = x.faults ∨ Part.faults ∈ ps := by first | with_reducible exact .inl rfl | exact .inr (by decide))
    (h13 : { ledger with held := [] } = { x.ledger with held := [] } ∨ Part.ledger ∈ ps := by first | with_reducible exact .inl rfl | exact .inr (by decide))
    (h14 : (ledger.held, svc.held) = (x.ledger.held, x.svc.held) ∨ Part.handed ∈ ps := by first | with_reducible exact .inl rfl | exact .inr (by decide))
    (h15 : { sec with events := [] } = { x.sec with events := [] } ∨ Part.sec ∈ ps := by first | with_reducible exact .inl rfl | exact .inr (by decide))
    (h16 : sec.events = x.sec.events ∨ Part.platform ∈ ps := by first | with_reducible exact .inl rfl | exact .inr (by decide))
    (h17 : { svc with held := [], phase := .off } = { x.svc with held := [], phase := .off } ∨ Part.svc ∈ ps := by first | with_reducible exact .inl rfl | exact .inr (by decide))
    (h18 : svc.phase = x.svc.phase ∨ Part.phase ∈ ps := by first | with_reducible exact .inl rfl | exact .inr (by decide))
    (h19 : free = x.free ∨ Part.free ∈ ps := by first | with_reducible exact .inl rfl | exact .inr (by decide)) :
    Kept ps s ⟨time, regs, arr, mem, serve, vault, fab, arb, host, power, faults, ledger, sec, svc, x.out, free, x.pending⟩ where
  mem w := by simpa only [hm] using h.mem w
  svn := h.svn.trans hs
  blocks := h.blocks.trans hb
  pending := h.pending
  out := h.out
  shape w := by
    have := h.shape w
    simp only [State.shape] at this ⊢
    rw [hi, hp, hc, hf]
    exact this
  same p hn := by
    refine State.agree_trans (h.same p hn) ?_
    cases p
    case out => rfl
    all_goals
      simp only [State.agree]
      first
        | exact Or.resolve_right h1 hn
        | exact Or.resolve_right h2 hn
        | exact Or.resolve_right h3 hn
        | exact Or.resolve_right h4 hn
        | exact Or.resolve_right h5 hn
        | exact Or.resolve_right h6 hn
        | exact Or.resolve_right h7 hn
        | exact Or.resolve_right h8 hn
        | exact Or.resolve_right h9 hn
        | exact Or.resolve_right h10 hn
        | exact Or.resolve_right h11 hn
        | exact Or.resolve_right h12 hn
        | exact Or.resolve_right h13 hn
        | exact Or.resolve_right h14 hn
        | exact Or.resolve_right h15 hn
        | exact Or.resolve_right h16 hn
        | exact Or.resolve_right h17 hn
        | exact Or.resolve_right h18 hn
        | exact Or.resolve_right h19 hn

/-- A choice keeps what both ways keep. -/
theorem Kept.ite {ps : List Part} {s a b : State} {c : Prop} [Decidable c] (ha : Kept ps s a) (hb : Kept ps s b) :
    Kept ps s (if c then a else b) := by
  split <;> assumption

theorem Kept.ite_fst {ps : List Part} {β : Type} {s : State} {a b : State × β} {c : Prop} [Decidable c] (ha : Kept ps s a.1)
    (hb : Kept ps s b.1) : Kept ps s (if c then a else b).1 := by
  split <;> assumption

/-- A fold keeps what each of its steps keeps. -/
theorem Kept.foldl {ps : List Part} {α : Type} {s x : State} (f : State → α → State) (l : List α) (h : Kept ps s x)
    (hf : ∀ y a, Kept ps y (f y a)) : Kept ps s (l.foldl f x) := by
  induction l generalizing x with
  | nil => exact h
  | cons a l ih => exact ih ((hf x a).andThen h (List.Subset.refl _))

/-- A fold over a state and something beside it. -/
theorem Kept.foldl_fst {ps : List Part} {α β : Type} {s : State} (f : State × β → α → State × β) (l : List α) (x : State × β)
    (h : Kept ps s x.1) (hf : ∀ y a, Kept ps y.1 (f y a).1) : Kept ps s (l.foldl f x).1 := by
  induction l generalizing x with
  | nil => exact h
  | cons a l ih => exact ih (f x a) ((hf x a).andThen h (List.Subset.refl _))

/-- A fold over something and a state beside it. -/
theorem Kept.foldl_snd {ps : List Part} {α β : Type} {s : State} (f : β × State → α → β × State) (l : List α) (x : β × State)
    (h : Kept ps s x.2) (hf : ∀ y a, Kept ps y.2 (f y a).2) : Kept ps s (l.foldl f x).2 := by
  induction l generalizing x with
  | nil => exact h
  | cons a l ih => exact ih (f x a) ((hf x a).andThen h (List.Subset.refl _))

/-- The same of an outcome, and of an answer that may be absent. -/
def KeptR (ps : List Part) (s : State) : Res → Prop
  | .next t => Kept ps s t
  | _ => True

def KeptO (ps : List Part) (s : State) : Option State → Prop
  | some t => Kept ps s t
  | none => True

def KeptO2 {α : Type} (ps : List Part) (s : State) : Option (α × State) → Prop
  | some t => Kept ps s t.2
  | none => True

/-- What a match has named is what was matched. -/
theorem Kept.of_fst {ps : List Part} {β : Type} {s t : State} {p : State × β} {b : β} (e : p = (t, b)) (h : Kept ps s p.1) :
    Kept ps s t := by
  rw [e] at h; exact h
theorem Kept.of_snd {ps : List Part} {α : Type} {s t : State} {p : α × State} {a : α} (e : p = (a, t)) (h : Kept ps s p.2) :
    Kept ps s t := by
  rw [e] at h; exact h
theorem Kept.of_snd2 {ps : List Part} {α β : Type} {s t : State} {p : α × β × State} {a : α} {b : β} (e : p = (a, b, t))
    (h : Kept ps s p.2.2) : Kept ps s t := by
  rw [e] at h; exact h
theorem Kept.of_some {ps : List Part} {s t : State} {p : Option State} (e : p = some t) (h : KeptO ps s p) : Kept ps s t := by
  rw [e] at h; exact h
theorem Kept.of_some2 {ps : List Part} {α : Type} {s t : State} {p : Option (α × State)} {a : α} (e : p = some (a, t))
    (h : KeptO2 ps s p) : Kept ps s t := by
  rw [e] at h; exact h

theorem KeptO.andThen {ps qs : List Part} {s x : State} {o : Option State} (b : KeptO qs x o) (a : Kept ps s x)
    (hq : qs ⊆ ps := by first | with_reducible exact List.Subset.refl _ | decide | (refine List.Subset.trans ?_ (by assumption); decide)) : KeptO ps s o := by
  cases o with
  | none => trivial
  | some t => exact Kept.andThen b a hq
theorem KeptO2.andThen {ps qs : List Part} {α : Type} {s x : State} {o : Option (α × State)} (b : KeptO2 qs x o) (a : Kept ps s x)
    (hq : qs ⊆ ps := by first | with_reducible exact List.Subset.refl _ | decide | (refine List.Subset.trans ?_ (by assumption); decide)) : KeptO2 ps s o := by
  cases o with
  | none => trivial
  | some t => exact Kept.andThen b a hq

theorem KeptR.next {ps : List Part} {s t : State} (h : Kept ps s t) : KeptR ps s (.next t) := h
theorem KeptO.some {ps : List Part} {s t : State} (h : Kept ps s t) : KeptO ps s (.some t) := h
theorem KeptO.none {ps : List Part} {s : State} : KeptO ps s .none := trivial
theorem KeptO2.some {ps : List Part} {α : Type} {s : State} {t : α × State} (h : Kept ps s t.2) : KeptO2 ps s (.some t) := h
theorem KeptO2.none {ps : List Part} {α : Type} {s : State} : KeptO2 (α := α) ps s .none := trivial

end Sys2Proof.Machine
end

