-- ==== Sys2Proof/Laws/Kept1.lean ====
section
/-! SUPPORT. What the operations and the commands of Machine/Ops.lean, Machine/RegMap.lean, Machine/Tables.lean, Machine/Arb.lean, Machine/Time.lean, Machine/Ledger.lean, Machine/Sensors.lean, Machine/Faults.lean keep (Laws/Kept.lean). -/
set_option Elab.async false

namespace Sys2Proof.Machine

/-! ### Ops -/

theorem State.setReg_kept {x : State} {a1} {a2} : Kept [.regs] x (State.setReg x a1 a2) := by
  unfold State.setReg
  refine Kept.upd ?_
  exact Kept.refl _

theorem State.bumpBy_kept {x : State} {a1} {a2} : Kept [.regs] x (State.bumpBy x a1 a2) := by
  unfold State.bumpBy
  refine Kept.andThen State.setReg_kept ?_
  exact Kept.refl _

theorem State.bump_kept {x : State} {a1} : Kept [.regs] x (State.bump x a1) := by
  unfold State.bump
  refine Kept.andThen State.bumpBy_kept ?_
  exact Kept.refl _

theorem State.bumpIf_kept {x : State} {a1} {a2} : Kept [.regs] x (State.bumpIf x a1 a2) := by
  unfold State.bumpIf
  refine Kept.ite ?_ ?_
  · refine Kept.andThen State.bump_kept ?_
    exact Kept.refl _
  · exact Kept.refl _

theorem State.runTo_kept {x : State} {a1} : Kept [.time] x (State.runTo x a1) := by
  unfold State.runTo
  refine Kept.ite ?_ ?_
  · exact Kept.refl _
  · refine Kept.upd ?_
    exact Kept.refl _

theorem State.toTick_kept {x : State} {a1} : Kept [.time] x (State.toTick x a1) := by
  unfold State.toTick
  refine Kept.ite ?_ ?_
  · exact Kept.refl _
  · refine Kept.upd ?_
    exact Kept.refl _

theorem State.atTimer_kept {x : State} {a1} {a2} {P : List Part}
    (h2 : ∀ y, Kept P y (a2 y))
    (hq : [.time] ⊆ P := by first | with_reducible exact List.Subset.refl _ | decide | (refine List.Subset.trans ?_ (by assumption); decide)) : Kept P x (State.atTimer x a1 a2) := by
  unfold State.atTimer
  refine Kept.ite ?_ ?_
  · refine Kept.andThen (h2 ..) ?_
    refine Kept.andThen State.runTo_kept ?_
    exact Kept.refl _
  · exact Kept.refl _

theorem State.firesFrom_kept {x : State} {a1} : Kept [.serve] x (State.firesFrom x a1) := by
  unfold State.firesFrom
  refine Kept.upd ?_
  exact Kept.refl _

theorem State.fresh_kept {x : State} : Kept [.free] x (State.fresh x).2 := by
  unfold State.fresh
  dsimp only
  refine Kept.upd ?_
  exact Kept.refl _

theorem State.freshBytes_kept {x : State} {n} : Kept [.free] x (State.freshBytes n x).2 := by
  induction n generalizing x with
  | zero => exact Kept.refl _
  | succ n ih => exact Kept.on ih State.fresh_kept

theorem State.emit_kept {x : State} {o} : Kept [.out] x (x.emit o) :=
  ⟨id, Nat.le_refl _, Nat.le_refl _, rfl, List.prefix_append _ _, id,
    fun p hp => by cases p <;> first | rfl | exact absurd (by decide) hp⟩

theorem State.emits_kept {x : State} {os} : Kept [.out] x (x.emits os) :=
  ⟨id, Nat.le_refl _, Nat.le_refl _, rfl, List.prefix_append _ _, id,
    fun p hp => by cases p <;> first | rfl | exact absurd (by decide) hp⟩

theorem State.alert_kept {x : State} {a1} : Kept [.out] x (State.alert x a1) := by
  unfold State.alert
  refine Kept.andThen State.emit_kept ?_
  exact Kept.refl _

theorem State.setRing_kept {x : State} {a1} : Kept [.rings] x (State.setRing x a1) := by
  unfold State.setRing
  dsimp only
  refine Kept.upd ?_
  exact Kept.refl _

theorem State.msix_kept {x : State} {a1} {a2} : Kept [.rings, .out] x (State.msix x a1 a2) := by
  unfold State.msix
  dsimp only
  refine Kept.ite ?_ ?_
  · exact Kept.refl _
  · refine Kept.ite ?_ ?_
    · refine Kept.upd ?_
      exact Kept.refl _
    · refine Kept.andThen State.emit_kept ?_
      exact Kept.refl _

theorem State.produce_kept {x : State} {a1} : Kept [.rings, .out] x (State.produce x a1) := by
  unfold State.produce
  dsimp only
  refine Kept.ite ?_ ?_
  · refine Kept.ite ?_ ?_
    · refine Kept.andThen State.msix_kept ?_
      refine Kept.andThen State.setRing_kept ?_
      exact Kept.refl _
    · refine Kept.andThen State.setRing_kept ?_
      exact Kept.refl _
  · refine Kept.andThen State.setRing_kept ?_
    exact Kept.refl _

theorem State.cqWrite_kept {x : State} {a1} : Kept [.rings, .out] x (State.cqWrite x a1) := by
  unfold State.cqWrite
  dsimp only
  refine Kept.ite ?_ ?_
  · refine Kept.upd ?_
    exact Kept.refl _
  · refine Kept.ite ?_ ?_
    · refine Kept.andThen State.produce_kept ?_
      refine Kept.andThen State.emit_kept ?_
      refine Kept.andThen State.setRing_kept ?_
      exact Kept.refl _
    · refine Kept.andThen State.setRing_kept ?_
      exact Kept.refl _

theorem State.tqWrite_kept {x : State} {a1} {a2} : Kept [.serve, .rings, .out] x (State.tqWrite x a1 a2) := by
  unfold State.tqWrite
  dsimp only
  refine Kept.ite ?_ ?_
  · refine Kept.andThen State.produce_kept ?_
    refine Kept.andThen State.emit_kept ?_
    exact Kept.refl _
  · refine Kept.upd ?_
    exact Kept.refl _

theorem State.eqOne_kept {x : State} {a1} {a2} : Kept [.regs, .rings, .out] x (State.eqOne x a1 a2) := by
  unfold State.eqOne
  dsimp only
  refine Kept.ite ?_ ?_
  · refine Kept.foldl_fst _ _ _ ?_ ?_
    · dsimp only
      refine Kept.andThen State.setRing_kept ?_
      exact Kept.refl _
    · intro _ _
      dsimp only
      refine Kept.andThen State.produce_kept ?_
      refine Kept.andThen State.emit_kept ?_
      exact Kept.refl _
  · refine Kept.andThen State.bump_kept ?_
    refine Kept.andThen State.setRing_kept ?_
    exact Kept.refl _

theorem State.raiseTo_kept {x : State} {a1} {a2} : Kept [.regs, .rings, .out] x (State.raiseTo x a1 a2) := by
  unfold State.raiseTo
  split
  · exact Kept.refl _
  · split
    · refine Kept.andThen State.bump_kept ?_
      exact Kept.refl _
    · refine Kept.foldl _ _ ?_ ?_
      · exact Kept.refl _
      · intro _ _
        refine Kept.andThen State.eqOne_kept ?_
        exact Kept.refl _

theorem State.event_kept {x : State} {a1} {a2} {a3} {a4} : Kept [.regs, .rings, .out] x (State.event x a1 a2 a3 a4) := by
  unfold State.event
  refine Kept.andThen State.raiseTo_kept ?_
  exact Kept.refl _

theorem State.setInst_kept {x : State} {a1} {a2} : Kept [.serve] x (State.setInst x a1 a2) := by
  unfold State.setInst
  refine Kept.upd ?_
  exact Kept.refl _

theorem State.instEvent_kept {x : State} {a1} {a2} {a3} {a4} {a5} {a6} : Kept [.regs, .rings, .out] x (State.instEvent x a1 a2 a3 a4 a5 a6) := by
  unfold State.instEvent
  refine Kept.andThen State.raiseTo_kept ?_
  exact Kept.refl _

theorem State.ownEvent_kept {x : State} {a1} {a2} {a3} : Kept [.regs, .rings, .out] x (State.ownEvent x a1 a2 a3) := by
  unfold State.ownEvent
  refine Kept.andThen State.raiseTo_kept ?_
  exact Kept.refl _

theorem State.handCq_kept {x : State} {a1} {a2} {a3} {a4} {a5} {a6} : Kept [.handed] x (State.handCq x a1 a2 a3 a4 a5 a6) := by
  unfold State.handCq
  dsimp only
  refine Kept.ite ?_ ?_
  · refine Kept.upd ?_
    exact Kept.refl _
  · refine Kept.upd ?_
    exact Kept.refl _

theorem State.hand_kept {x : State} {a1} {a2} {a3} {a4} : Kept [.handed] x (State.hand x a1 a2 a3 a4) := by
  unfold State.hand
  refine Kept.andThen State.handCq_kept ?_
  exact Kept.refl _

theorem State.storeAt_kept {x : State} {a bs} : Kept [.mem] x (x.storeAt a bs) :=
  ⟨Memory.write_wf _ a bs, Nat.le_refl _, Nat.le_refl _, rfl, List.prefix_refl _, id,
    fun p hp => by cases p <;> first | rfl | exact absurd (by decide) hp⟩

theorem State.zeroAt_kept {x : State} {a n} : Kept [.mem] x (x.zeroAt a n) :=
  ⟨Memory.clear_wf _ a n, Nat.le_refl _, Nat.le_refl _, rfl, List.prefix_refl _, id,
    fun p hp => by cases p <;> first | rfl | exact absurd (by decide) hp⟩

theorem State.setMem_kept {x : State} {m} (hm : m.cells = x.mem.cells := by first | exact MemSys.cells_mk | rfl) :
    Kept [.mem] x (x.setMem m) :=
  Kept.upd (Kept.refl _) hm

theorem State.addressError_kept {x : State} {a1} : Kept [.regs] x (State.addressError x a1) := by
  unfold State.addressError
  dsimp only
  refine Kept.ite ?_ ?_
  · refine Kept.andThen State.bump_kept ?_
    exact Kept.refl _
  · refine Kept.ite ?_ ?_
    · refine Kept.andThen State.bump_kept ?_
      exact Kept.refl _
    · refine Kept.andThen State.bump_kept ?_
      exact Kept.refl _

theorem State.touch_kept {x : State} {a1} {a2} : Kept [.mem] x (State.touch x a1 a2) := by
  unfold State.touch
  dsimp only
  split
  · refine Kept.upd ?_
    exact Kept.refl _
  · exact Kept.refl _

/-! ### RegMap -/

theorem State.setPort_kept {x : State} {a1} {a2} : Kept [.fab] x (State.setPort x a1 a2) := by
  unfold State.setPort
  refine Kept.upd ?_
  exact Kept.refl _

theorem State.setChan_kept {x : State} {a1} {a2} : Kept [.chans] x (State.setChan x a1 a2) := by
  unfold State.setChan
  refine Kept.upd ?_
  exact Kept.refl _

/-! ### Tables -/

theorem State.setSlotTab_kept {x : State} {a1} {a2} : Kept [.fab] x (State.setSlotTab x a1 a2) := by
  unfold State.setSlotTab
  refine Kept.upd ?_
  exact Kept.refl _

theorem State.loadSlot_kept {x : State} {a1} {a2} : Kept [.fab] x (State.loadSlot x a1 a2) := by
  unfold State.loadSlot
  refine Kept.ite ?_ ?_
  · exact Kept.refl _
  · refine Kept.andThen State.setSlotTab_kept ?_
    exact Kept.refl _

/-! ### Arb -/

theorem State.setArbNode_kept {x : State} {a1} : Kept [.arb] x (State.setArbNode x a1) := by
  unfold State.setArbNode
  refine Kept.upd ?_
  exact Kept.refl _

theorem State.arbGrant_kept {x : State} {a1} {a2} : Kept [.regs, .arb] x (State.arbGrant x a1 a2) := by
  unfold State.arbGrant
  refine Kept.ite ?_ ?_
  · refine Kept.andThen State.setArbNode_kept ?_
    exact Kept.refl _
  · dsimp only
    split
    · refine Kept.andThen State.setArbNode_kept ?_
      exact Kept.refl _
    · refine Kept.andThen State.setArbNode_kept ?_
      refine Kept.andThen State.bumpIf_kept ?_
      exact Kept.refl _

theorem State.arbDecide_kept {x : State} {a1} {a2} {a3} {a4} : Kept [.regs, .arb] x (State.arbDecide x a1 a2 a3 a4) := by
  unfold State.arbDecide
  dsimp only
  split
  · refine Kept.andThen State.arbGrant_kept ?_
    exact Kept.refl _
  · refine Kept.ite ?_ ?_
    · refine Kept.andThen State.setArbNode_kept ?_
      exact Kept.refl _
    · refine Kept.andThen State.arbGrant_kept ?_
      refine Kept.andThen State.bump_kept ?_
      exact Kept.refl _

theorem State.arbFlit_kept {x : State} {a1} : Kept [.fab, .arb] x (State.arbFlit x a1) := by
  unfold State.arbFlit
  dsimp only
  split
  · exact Kept.refl _
  · refine Kept.ite ?_ ?_
    · exact Kept.refl _
    · refine Kept.andThen State.setPort_kept ?_
      refine Kept.andThen State.setArbNode_kept ?_
      exact Kept.refl _

theorem State.arbClose_kept {x : State} {a1} {a2} {a3} : Kept [.regs, .arb] x (State.arbClose x a1 a2 a3) := by
  unfold State.arbClose
  dsimp only
  split
  · refine Kept.andThen State.setArbNode_kept ?_
    exact Kept.refl _
  · refine Kept.ite ?_ ?_
    · refine Kept.andThen State.setArbNode_kept ?_
      exact Kept.refl _
    · refine Kept.ite ?_ ?_
      · exact Kept.refl _
      · refine Kept.andThen State.setArbNode_kept ?_
        refine Kept.andThen State.bump_kept ?_
        exact Kept.refl _

theorem State.slotMissed_kept {x : State} {a1} {a2} : Kept [.fab, .arb] x (State.slotMissed x a1 a2) := by
  unfold State.slotMissed
  dsimp only
  split
  · refine Kept.ite ?_ ?_
    · exact Kept.refl _
    · refine Kept.andThen State.setArbNode_kept ?_
      refine Kept.upd ?_
      exact Kept.refl _
  · exact Kept.refl _

theorem State.arbPort_kept {x : State} {a1} {a2} {a3} {a4} : Kept [.regs, .fab, .arb] x (State.arbPort x a1 a2 a3 a4) := by
  unfold State.arbPort
  dsimp only
  split
  · refine Kept.andThen State.arbClose_kept ?_
    exact Kept.refl _
  · refine Kept.andThen State.arbFlit_kept ?_
    refine Kept.andThen State.arbDecide_kept ?_
    exact Kept.refl _
  · refine Kept.andThen State.arbFlit_kept ?_
    refine Kept.andThen State.arbDecide_kept ?_
    refine Kept.andThen State.slotMissed_kept ?_
    exact Kept.refl _

theorem execArbiterDecision_kept {x : State} {a0} {a1} {a2} {a3} {a4} : KeptR [.regs, .fab, .arb] x (execArbiterDecision a0 a1 a2 a3 x a4) := by
  unfold execArbiterDecision
  dsimp only
  split
  · refine KeptR.next ?_
    exact Kept.refl _
  · split
    · refine KeptR.next ?_
      refine Kept.andThen State.arbPort_kept ?_
      exact Kept.refl _
    · refine KeptR.next ?_
      refine Kept.andThen State.arbDecide_kept ?_
      exact Kept.refl _

theorem State.writeArbShadow_kept {x : State} {a1} {a2} : Kept [.arb] x (State.writeArbShadow x a1 a2) := by
  unfold State.writeArbShadow
  dsimp only
  refine Kept.upd ?_
  exact Kept.refl _

theorem State.writeArbCommit_kept {x : State} {a1} : Kept [.arb] x (State.writeArbCommit x a1) := by
  unfold State.writeArbCommit
  refine Kept.upd ?_
  exact Kept.refl _

theorem State.arbActivate_kept {x : State} : Kept [.time, .arb, .handed] x (State.arbActivate x) := by
  unfold State.arbActivate
  dsimp only
  split
  · exact Kept.refl _
  · refine Kept.on (State.atTimer_kept ?_) ?_
    · intro _
      refine Kept.andThen State.hand_kept ?_
      refine Kept.upd ?_
      exact Kept.refl _
    · exact Kept.refl _

theorem execArbSetActivation_kept {x : State} : KeptR [.time, .arb, .handed] x (execArbSetActivation x) := by
  unfold execArbSetActivation
  refine KeptR.next ?_
  refine Kept.andThen State.arbActivate_kept ?_
  exact Kept.refl _

/-! ### Time -/

theorem State.setTime_kept {x : State} {a1} : Kept [.time] x (State.setTime x a1) := by
  unfold State.setTime
  refine Kept.upd ?_
  exact Kept.refl _

theorem State.failSteps_kept {x : State} {a1} {a2} : Kept [.serve] x (State.failSteps x a1 a2) := by
  unfold State.failSteps
  dsimp only
  refine Kept.upd ?_
  exact Kept.refl _

theorem State.timeRecord_kept {x : State} {a1} : Kept [.handed] x (State.timeRecord x a1) := by
  unfold State.timeRecord
  refine Kept.andThen State.hand_kept ?_
  exact Kept.refl _

theorem State.stopSlots_kept {x : State} : Kept [.fab] x (State.stopSlots x) := by
  unfold State.stopSlots
  refine Kept.upd ?_
  exact Kept.refl _

theorem State.lockLoss_kept {x : State} {a1} : Kept [.time, .regs, .serve, .fab, .rings, .handed, .out] x (State.lockLoss x a1) := by
  unfold State.lockLoss
  dsimp only
  refine Kept.andThen State.setTime_kept ?_
  refine Kept.andThen State.alert_kept ?_
  refine Kept.andThen State.event_kept ?_
  refine Kept.andThen State.timeRecord_kept ?_
  refine Kept.andThen State.failSteps_kept ?_
  refine Kept.andThen State.bump_kept ?_
  refine Kept.andThen State.stopSlots_kept ?_
  exact Kept.refl _

theorem State.masterConflict_kept {x : State} : Kept [.time, .regs, .serve, .fab, .rings, .handed, .out] x (State.masterConflict x) := by
  unfold State.masterConflict
  dsimp only
  refine Kept.ite ?_ ?_
  · refine Kept.andThen State.alert_kept ?_
    refine Kept.andThen State.bump_kept ?_
    exact Kept.refl _
  · refine Kept.andThen State.lockLoss_kept ?_
    refine Kept.andThen State.alert_kept ?_
    refine Kept.andThen State.bump_kept ?_
    exact Kept.refl _

theorem State.noteMarker_kept {x : State} {a1} : Kept [.time] x (State.noteMarker x a1) := by
  unfold State.noteMarker
  dsimp only
  refine Kept.ite ?_ ?_
  · exact Kept.refl _
  · refine Kept.andThen State.setTime_kept ?_
    exact Kept.refl _

theorem State.acquire_kept {x : State} {a1} {a2} : Kept [.time] x (State.acquire x a1 a2) := by
  unfold State.acquire
  dsimp only
  refine Kept.andThen State.setTime_kept ?_
  exact Kept.refl _

theorem State.markerIn_kept {x : State} {a1} {a2} : Kept [.time, .regs, .serve, .fab, .rings, .handed, .out] x (State.markerIn x a1 a2) := by
  unfold State.markerIn
  refine Kept.ite ?_ ?_
  · exact Kept.refl _
  · refine Kept.ite ?_ ?_
    · refine Kept.andThen State.bump_kept ?_
      exact Kept.refl _
    · refine Kept.ite ?_ ?_
      · refine Kept.andThen State.masterConflict_kept ?_
        exact Kept.refl _
      · dsimp only
        refine Kept.ite ?_ ?_
        · refine Kept.andThen State.noteMarker_kept ?_
          exact Kept.refl _
        · refine Kept.ite ?_ ?_
          · refine Kept.andThen State.acquire_kept ?_
            refine Kept.andThen State.noteMarker_kept ?_
            exact Kept.refl _
          · split
            · refine Kept.andThen State.setTime_kept ?_
              refine Kept.andThen State.bump_kept ?_
              refine Kept.andThen State.noteMarker_kept ?_
              exact Kept.refl _
            · refine Kept.andThen State.setTime_kept ?_
              refine Kept.andThen State.noteMarker_kept ?_
              exact Kept.refl _

theorem execMarkerAccept_kept {x : State} {a0} {a1} : KeptR [.time, .regs, .serve, .fab, .rings, .handed, .out] x (execMarkerAccept a0 a1 x) := by
  unfold execMarkerAccept
  refine KeptR.next ?_
  refine Kept.andThen State.markerIn_kept ?_
  exact Kept.refl _

theorem State.newPeriod_kept {x : State} {a1} {a2} : Kept [.time, .regs, .serve, .handed] x (State.newPeriod x a1 a2) := by
  unfold State.newPeriod
  dsimp only
  refine Kept.andThen State.timeRecord_kept ?_
  refine Kept.ite ?_ ?_
  · refine Kept.andThen State.setReg_kept ?_
    refine Kept.andThen State.failSteps_kept ?_
    refine Kept.andThen State.setTime_kept ?_
    exact Kept.refl _
  · refine Kept.andThen State.failSteps_kept ?_
    refine Kept.andThen State.setTime_kept ?_
    exact Kept.refl _

theorem State.useMarker_kept {x : State} {a1} : Kept [.time, .regs, .serve, .fab, .rings, .handed, .out] x (State.useMarker x a1) := by
  unfold State.useMarker
  dsimp only
  refine Kept.ite ?_ ?_
  · refine Kept.andThen State.lockLoss_kept ?_
    refine Kept.andThen State.setTime_kept ?_
    refine Kept.ite ?_ ?_
    · refine Kept.andThen State.firesFrom_kept ?_
      exact Kept.refl _
    · exact Kept.refl _
  · refine Kept.ite ?_ ?_
    · refine Kept.andThen State.lockLoss_kept ?_
      refine Kept.andThen State.setTime_kept ?_
      refine Kept.ite ?_ ?_
      · refine Kept.andThen State.firesFrom_kept ?_
        exact Kept.refl _
      · exact Kept.refl _
    · refine Kept.ite ?_ ?_
      · refine Kept.ite ?_ ?_
        · refine Kept.andThen State.lockLoss_kept ?_
          refine Kept.andThen State.setTime_kept ?_
          refine Kept.ite ?_ ?_
          · refine Kept.andThen State.firesFrom_kept ?_
            exact Kept.refl _
          · exact Kept.refl _
        · refine Kept.andThen State.setTime_kept ?_
          refine Kept.andThen State.newPeriod_kept ?_
          refine Kept.andThen State.setTime_kept ?_
          refine Kept.ite ?_ ?_
          · refine Kept.andThen State.firesFrom_kept ?_
            exact Kept.refl _
          · exact Kept.refl _
      · refine Kept.ite ?_ ?_
        · refine Kept.andThen State.timeRecord_kept ?_
          refine Kept.andThen State.setTime_kept ?_
          refine Kept.andThen State.setTime_kept ?_
          refine Kept.ite ?_ ?_
          · refine Kept.andThen State.firesFrom_kept ?_
            exact Kept.refl _
          · exact Kept.refl _
        · refine Kept.andThen State.setTime_kept ?_
          refine Kept.ite ?_ ?_
          · refine Kept.andThen State.firesFrom_kept ?_
            exact Kept.refl _
          · exact Kept.refl _

theorem State.noMarker_kept {x : State} : Kept [.time, .regs, .serve, .fab, .rings, .handed, .out] x (State.noMarker x) := by
  unfold State.noMarker
  dsimp only
  refine Kept.ite ?_ ?_
  · refine Kept.andThen State.lockLoss_kept ?_
    exact Kept.refl _
  · refine Kept.ite ?_ ?_
    · refine Kept.andThen State.setTime_kept ?_
      exact Kept.refl _
    · refine Kept.ite ?_ ?_
      · refine Kept.andThen State.lockLoss_kept ?_
        exact Kept.refl _
      · refine Kept.andThen State.setTime_kept ?_
        exact Kept.refl _

theorem State.markerDecide_kept {x : State} : Kept [.time, .regs, .serve, .fab, .rings, .handed, .out] x (State.markerDecide x) := by
  unfold State.markerDecide
  refine Kept.ite ?_ ?_
  · exact Kept.refl _
  · dsimp only
    split
    · refine Kept.andThen State.useMarker_kept ?_
      refine Kept.andThen State.setTime_kept ?_
      refine Kept.andThen State.toTick_kept ?_
      exact Kept.refl _
    · refine Kept.andThen State.noMarker_kept ?_
      refine Kept.andThen State.setTime_kept ?_
      refine Kept.andThen State.toTick_kept ?_
      exact Kept.refl _

theorem execMarkerDecision_kept {x : State} : KeptR [.time, .regs, .serve, .fab, .rings, .handed, .out] x (execMarkerDecision x) := by
  unfold execMarkerDecision
  refine KeptR.next ?_
  refine Kept.andThen State.markerDecide_kept ?_
  exact Kept.refl _

theorem State.sendMarkers_kept {x : State} : Kept [.out] x (State.sendMarkers x) := by
  unfold State.sendMarkers
  refine Kept.andThen State.emits_kept ?_
  exact Kept.refl _

theorem State.startMaster_kept {x : State} : Kept [.time, .regs, .serve, .fab, .rings, .handed, .out] x (State.startMaster x) := by
  unfold State.startMaster
  dsimp only
  split
  · exact Kept.refl _
  · refine Kept.on (State.atTimer_kept ?_) ?_
    · intro _
      refine Kept.ite ?_ ?_
      · refine Kept.andThen State.lockLoss_kept ?_
        refine Kept.andThen State.setTime_kept ?_
        exact Kept.refl _
      · refine Kept.andThen State.sendMarkers_kept ?_
        refine Kept.andThen State.firesFrom_kept ?_
        refine Kept.andThen State.setTime_kept ?_
        refine Kept.andThen State.setTime_kept ?_
        exact Kept.refl _
    · exact Kept.refl _

theorem execMasterStart_kept {x : State} : KeptR [.time, .regs, .serve, .fab, .rings, .handed, .out] x (execMasterStart x) := by
  unfold execMasterStart
  refine KeptR.next ?_
  refine Kept.andThen State.startMaster_kept ?_
  exact Kept.refl _

theorem State.latchTime_kept {x : State} {a1} : Kept [.time] x (State.latchTime x a1) := by
  unfold State.latchTime
  refine Kept.andThen State.setTime_kept ?_
  exact Kept.refl _

theorem State.readTimeBeat_kept {x : State} {a1} : Kept [.time, .out] x (State.readTimeBeat x a1) := by
  unfold State.readTimeBeat
  refine Kept.ite ?_ ?_
  · refine Kept.andThen State.emit_kept ?_
    refine Kept.andThen State.latchTime_kept ?_
    exact Kept.refl _
  · refine Kept.andThen State.emit_kept ?_
    exact Kept.refl _

theorem execTimeBeatRead_kept {x : State} {a0} : KeptR [.time, .out] x (execTimeBeatRead a0 x) := by
  unfold execTimeBeatRead
  refine KeptR.next ?_
  refine Kept.andThen State.readTimeBeat_kept ?_
  exact Kept.refl _

theorem State.writeRole_kept {x : State} {a1} : Kept [.time, .regs, .serve, .fab, .rings, .handed, .out] x (State.writeRole x a1) := by
  unfold State.writeRole
  dsimp only
  refine Kept.ite ?_ ?_
  · refine Kept.andThen State.setTime_kept ?_
    refine Kept.ite ?_ ?_
    · refine Kept.andThen State.lockLoss_kept ?_
      refine Kept.andThen State.setTime_kept ?_
      exact Kept.refl _
    · refine Kept.andThen State.setTime_kept ?_
      exact Kept.refl _
  · refine Kept.ite ?_ ?_
    · refine Kept.andThen State.setTime_kept ?_
      refine Kept.andThen State.setTime_kept ?_
      exact Kept.refl _
    · refine Kept.andThen State.setTime_kept ?_
      refine Kept.andThen State.setTime_kept ?_
      exact Kept.refl _

theorem State.writePeriod_kept {x : State} {a1} : Kept [.time, .regs] x (State.writePeriod x a1) := by
  unfold State.writePeriod
  dsimp only
  refine Kept.andThen State.setTime_kept ?_
  refine Kept.andThen State.setReg_kept ?_
  exact Kept.refl _

theorem State.writeTakeover_kept {x : State} {a1} : Kept [.time] x (State.writeTakeover x a1) := by
  unfold State.writeTakeover
  refine Kept.andThen State.setTime_kept ?_
  exact Kept.refl _

theorem State.handover_kept {x : State} : Kept [.time, .handed] x (State.handover x) := by
  unfold State.handover
  dsimp only
  split
  · exact Kept.refl _
  · refine Kept.ite ?_ ?_
    · exact Kept.refl _
    · refine Kept.ite ?_ ?_
      · refine Kept.andThen State.timeRecord_kept ?_
        refine Kept.andThen State.setTime_kept ?_
        exact Kept.refl _
      · refine Kept.andThen State.timeRecord_kept ?_
        refine Kept.andThen State.setTime_kept ?_
        exact Kept.refl _

theorem State.refLost_kept {x : State} : Kept [.time, .regs, .serve, .fab, .rings, .handed, .out] x (State.refLost x) := by
  unfold State.refLost
  refine Kept.ite ?_ ?_
  · exact Kept.refl _
  · refine Kept.andThen State.lockLoss_kept ?_
    exact Kept.refl _

/-! ### Ledger -/

theorem State.setLedger_kept {x : State} {a1} : Kept [.ledger, .handed] x (State.setLedger x a1) := by
  unfold State.setLedger
  refine Kept.upd ?_
  exact Kept.refl _

theorem State.regRecord_kept {x : State} {a1} {a2} {a3} {a4} : Kept [.handed] x (State.regRecord x a1 a2 a3 a4) := by
  unfold State.regRecord
  refine Kept.andThen State.hand_kept ?_
  exact Kept.refl _

theorem State.ledgerFill_kept {x : State} : Kept [.ledger, .out] x (State.ledgerFill x) := by
  unfold State.ledgerFill
  dsimp only
  refine Kept.ite ?_ ?_
  · refine Kept.andThen State.alert_kept ?_
    refine Kept.upd ?_
    exact Kept.refl _
  · refine Kept.upd ?_
    exact Kept.refl _

theorem State.place_kept {x : State} {a1} : Kept [.regs, .rings, .ledger, .out] x (State.place x a1) := by
  unfold State.place
  dsimp only
  refine Kept.andThen State.raiseTo_kept ?_
  refine Kept.ite ?_ ?_
  · refine Kept.andThen State.emit_kept ?_
    refine Kept.andThen State.ledgerFill_kept ?_
    refine Kept.upd ?_
    refine Kept.andThen State.bumpIf_kept ?_
    exact Kept.refl _
  · refine Kept.andThen State.ledgerFill_kept ?_
    refine Kept.upd ?_
    refine Kept.andThen State.bumpIf_kept ?_
    exact Kept.refl _

theorem State.append_kept {x : State} {a1} {a2} : Kept [.regs, .rings, .ledger, .out] x (State.append x a1 a2) := by
  unfold State.append
  dsimp only
  refine Kept.upd ?_
  refine Kept.andThen State.place_kept ?_
  exact Kept.refl _

theorem State.setVault_kept {x : State} {a1} : Kept [.vault] x (State.setVault x a1) := by
  unfold State.setVault
  refine Kept.upd ?_
  exact Kept.refl _

theorem State.flushJournal_kept {x : State} : Kept [.vault] x (State.flushJournal x) := by
  unfold State.flushJournal
  dsimp only
  refine Kept.ite ?_ ?_
  · exact Kept.refl _
  · refine Kept.andThen State.setVault_kept ?_
    exact Kept.refl _

theorem State.journal_kept {x : State} {a1} : Kept [.vault] x (State.journal x a1) := by
  unfold State.journal
  dsimp only
  refine Kept.ite ?_ ?_
  · refine Kept.andThen State.flushJournal_kept ?_
    refine Kept.andThen State.setVault_kept ?_
    exact Kept.refl _
  · refine Kept.andThen State.setVault_kept ?_
    exact Kept.refl _

theorem State.reserveLeaves_kept {x : State} : Kept [.handed, .sec] x (State.reserveLeaves x) := by
  unfold State.reserveLeaves
  dsimp only
  refine Kept.ite ?_ ?_
  · refine Kept.upd ?_
    exact Kept.refl _
  · refine Kept.andThen State.hand_kept ?_
    refine Kept.upd ?_
    exact Kept.refl _

theorem State.takeLeaf_kept {x : State} : Kept [.handed, .sec] x (State.takeLeaf x).2 := by
  unfold State.takeLeaf
  dsimp only
  split
  · split
    · exact Kept.refl _
    · dsimp only
      refine Kept.upd ?_
      exact Kept.refl _
  · split
    · dsimp only
      refine Kept.andThen State.reserveLeaves_kept ?_
      exact Kept.refl _
    · dsimp only
      refine Kept.upd ?_
      refine Kept.andThen State.reserveLeaves_kept ?_
      exact Kept.refl _

theorem State.checkpoint_kept {x : State} : Kept [.handed, .sec] x (State.checkpoint x) := by
  unfold State.checkpoint
  refine Kept.ite ?_ ?_
  · exact Kept.refl _
  · dsimp only
    refine Kept.andThen State.hand_kept ?_
    refine Kept.andThen State.takeLeaf_kept ?_
    exact Kept.refl _

theorem State.placeCkpt_kept {x : State} {a1} : Kept [.regs, .rings, .ledger, .out] x (State.placeCkpt x a1) := by
  unfold State.placeCkpt
  dsimp only
  refine Kept.upd ?_
  refine Kept.andThen State.place_kept ?_
  exact Kept.refl _

theorem State.appendHeld_kept {x : State} {a1} : Kept [.regs, .rings, .ledger, .handed, .sec, .out] x (State.appendHeld x a1) := by
  unfold State.appendHeld
  refine Kept.ite ?_ ?_
  · refine Kept.andThen State.placeCkpt_kept ?_
    exact Kept.refl _
  · dsimp only
    refine Kept.ite ?_ ?_
    · refine Kept.andThen State.checkpoint_kept ?_
      split
      · refine Kept.andThen State.cqWrite_kept ?_
        refine Kept.andThen State.append_kept ?_
        exact Kept.refl _
      · refine Kept.andThen State.append_kept ?_
        exact Kept.refl _
    · split
      · refine Kept.andThen State.cqWrite_kept ?_
        refine Kept.andThen State.append_kept ?_
        exact Kept.refl _
      · refine Kept.andThen State.append_kept ?_
        exact Kept.refl _

theorem State.appendNext_kept {x : State} : Kept [.time, .regs, .rings, .ledger, .handed, .sec, .out] x (State.appendNext x) := by
  unfold State.appendNext
  dsimp only
  split
  · exact Kept.refl _
  · refine Kept.ite ?_ ?_
    · refine Kept.on (State.atTimer_kept ?_) ?_
      · intro _
        refine Kept.andThen State.appendHeld_kept ?_
        refine Kept.upd ?_
        exact Kept.refl _
      · exact Kept.refl _
    · exact Kept.refl _

theorem execLedgerAppend_kept {x : State} : KeptR [.time, .regs, .rings, .ledger, .handed, .sec, .out] x (execLedgerAppend x) := by
  unfold execLedgerAppend
  refine KeptR.next ?_
  refine Kept.andThen State.appendNext_kept ?_
  exact Kept.refl _

theorem State.appendOnce_kept {x : State} : Kept [.regs, .rings, .ledger, .handed, .sec, .out] x (State.appendOnce x) := by
  unfold State.appendOnce
  dsimp only
  refine Kept.foldl _ _ ?_ ?_
  · refine Kept.upd ?_
    exact Kept.refl _
  · intro _ _
    refine Kept.andThen State.appendHeld_kept ?_
    exact Kept.refl _

theorem State.appendAll_kept {x : State} : Kept [.regs, .rings, .ledger, .handed, .sec, .out] x (State.appendAll x) := by
  unfold State.appendAll
  refine Kept.andThen State.appendOnce_kept ?_
  refine Kept.andThen State.appendOnce_kept ?_
  exact Kept.refl _

theorem State.lastCheckpoint_kept {x : State} : Kept [.regs, .rings, .ledger, .handed, .sec, .out] x (State.lastCheckpoint x) := by
  unfold State.lastCheckpoint
  refine Kept.andThen State.appendOnce_kept ?_
  refine Kept.andThen State.checkpoint_kept ?_
  refine Kept.andThen State.appendAll_kept ?_
  exact Kept.refl _

theorem State.ckptTimer_kept {x : State} : Kept [.time, .handed, .sec] x (State.ckptTimer x) := by
  unfold State.ckptTimer
  refine Kept.ite ?_ ?_
  · refine Kept.on (State.atTimer_kept ?_) ?_
    · intro _
      refine Kept.andThen State.checkpoint_kept ?_
      exact Kept.refl _
    · exact Kept.refl _
  · exact Kept.refl _

theorem execCheckpointTimer_kept {x : State} : KeptR [.time, .handed, .sec] x (execCheckpointTimer x) := by
  unfold execCheckpointTimer
  refine KeptR.next ?_
  refine Kept.andThen State.ckptTimer_kept ?_
  exact Kept.refl _

theorem State.ckptSigned_kept {x : State} : Kept [.regs, .mem, .vault, .ledger, .out] x (State.ckptSigned x) := by
  unfold State.ckptSigned
  dsimp only
  split
  · exact Kept.refl _
  · refine Kept.andThen State.journal_kept ?_
    refine Kept.upd ?_
    refine Kept.andThen State.emit_kept ?_
    refine Kept.upd ?_
    refine Kept.andThen State.storeAt_kept ?_
    refine Kept.andThen State.bump_kept ?_
    exact Kept.refl _

theorem execCheckpointSigned_kept {x : State} : KeptR [.regs, .mem, .vault, .ledger, .out] x (execCheckpointSigned x) := by
  unfold execCheckpointSigned
  refine KeptR.next ?_
  refine Kept.andThen State.ckptSigned_kept ?_
  exact Kept.refl _

theorem State.writeAck_kept {x : State} {a1} : Kept [.ledger, .out] x (State.writeAck x a1) := by
  unfold State.writeAck
  dsimp only
  refine Kept.andThen State.ledgerFill_kept ?_
  refine Kept.ite ?_ ?_
  · refine Kept.upd ?_
    refine Kept.upd ?_
    exact Kept.refl _
  · refine Kept.upd ?_
    exact Kept.refl _

theorem State.writeLedgerCfg_kept {x : State} {a1} : Kept [.ledger, .out] x (State.writeLedgerCfg x a1) := by
  unfold State.writeLedgerCfg
  refine Kept.ite ?_ ?_
  · refine Kept.upd ?_
    exact Kept.refl _
  · refine Kept.ite ?_ ?_
    · exact Kept.refl _
    · dsimp only
      refine Kept.andThen State.ledgerFill_kept ?_
      refine Kept.andThen State.emits_kept ?_
      refine Kept.upd ?_
      refine Kept.upd ?_
      exact Kept.refl _

theorem State.writeSvnCommit_kept {x : State} {o v} : Kept [.handed, .sec] x (x.writeSvnCommit o v) := by
  unfold State.writeSvnCommit
  split
  · refine Kept.andThen State.hand_kept ?_
    exact Kept.upd (Kept.refl _) rfl (Nat.le_max_left _ _)
  · exact Kept.refl _

/-! ### Sensors -/

theorem State.platformEvent_kept {x : State} {a1} {a2} : Kept [.platform, .out] x (State.platformEvent x a1 a2) := by
  unfold State.platformEvent
  dsimp only
  split
  · refine Kept.andThen State.emit_kept ?_
    refine Kept.upd ?_
    exact Kept.refl _
  · exact Kept.refl _

theorem State.sensorEvents_kept {x : State} {a1} : Kept [.platform, .out] x (State.sensorEvents x a1) := by
  unfold State.sensorEvents
  refine Kept.foldl _ _ ?_ ?_
  · exact Kept.refl _
  · intro _ _
    refine Kept.ite ?_ ?_
    · exact Kept.refl _
    · refine Kept.andThen State.platformEvent_kept ?_
      exact Kept.refl _

theorem State.watched_kept {x : State} {a1} {P : List Part}
    (h1 : ∀ y, Kept P y (a1 y))
    (hq : [.platform, .out] ⊆ P := by first | with_reducible exact List.Subset.refl _ | decide | (refine List.Subset.trans ?_ (by assumption); decide)) : Kept P x (State.watched x a1) := by
  unfold State.watched
  refine Kept.andThen State.sensorEvents_kept ?_
  refine Kept.andThen (h1 ..) ?_
  exact Kept.refl _

theorem State.rangeEvents_kept {x : State} {a1} {a2} : Kept [.platform, .out] x (State.rangeEvents x a1 a2) := by
  unfold State.rangeEvents
  refine Kept.foldl _ _ ?_ ?_
  · exact Kept.refl _
  · intro _ _
    dsimp only
    refine Kept.ite ?_ ?_
    · exact Kept.refl _
    · refine Kept.andThen State.platformEvent_kept ?_
      exact Kept.refl _

/-! ### Faults -/

theorem State.setFaults_kept {x : State} {a1} : Kept [.faults] x (State.setFaults x a1) := by
  unfold State.setFaults
  refine Kept.upd ?_
  exact Kept.refl _

theorem State.remapRod_kept {x : State} {d p} : Kept [.arr, .mem] x (x.remapRod d p) := by
  unfold State.remapRod
  split
  · exact Kept.refl _
  · next hp =>
    exact ⟨Memory.remapped_wf _ d p (by omega), Nat.le_refl _, Nat.le_refl _, rfl, List.prefix_refl _, id,
      fun q hq => by cases q <;> first | rfl | exact absurd (by decide) hq⟩

theorem State.unmapRod_kept {x : State} {d p} : Kept [.arr, .mem] x (x.unmapRod d p) := by
  unfold State.unmapRod
  split
  · exact Kept.refl _
  · next hp =>
    exact ⟨Memory.unmapped_wf _ d p (by omega), Nat.le_refl _, Nat.le_refl _, rfl, List.prefix_refl _, id,
      fun q hq => by cases q <;> first | rfl | exact absurd (by decide) hq⟩

theorem State.dropConfig_kept {x : State} {a1} : Kept [.arr, .serve] x (State.dropConfig x a1) := by
  unfold State.dropConfig
  dsimp only
  refine Kept.upd ?_
  exact Kept.refl _

theorem State.failConfig_kept {x : State} {a1} {a2} : Kept [.serve] x (State.failConfig x a1 a2) := by
  unfold State.failConfig
  refine Kept.andThen State.failSteps_kept ?_
  exact Kept.refl _

theorem State.proveEvent_kept {x : State} {a1} {a2} {a3} : Kept [.regs, .rings, .out] x (State.proveEvent x a1 a2 a3) := by
  unfold State.proveEvent
  dsimp only
  refine Kept.andThen State.event_kept ?_
  exact Kept.refl _

theorem State.routeChange_kept {x : State} {a1} {a2} : Kept [.fab] x (State.routeChange x a1 a2) := by
  unfold State.routeChange
  dsimp only
  refine Kept.upd ?_
  exact Kept.refl _

theorem State.detect_kept {x : State} {a1} {a2} {a3} {a4} {a5} : Kept [.fab, .faults] x (State.detect x a1 a2 a3 a4 a5) := by
  unfold State.detect
  refine Kept.ite ?_ ?_
  · exact Kept.refl _
  · refine Kept.ite ?_ ?_
    · refine Kept.andThen State.setFaults_kept ?_
      exact Kept.refl _
    · dsimp only
      split
      · refine Kept.ite ?_ ?_
        · refine Kept.andThen State.routeChange_kept ?_
          refine Kept.andThen State.setFaults_kept ?_
          exact Kept.refl _
        · refine Kept.andThen State.setFaults_kept ?_
          exact Kept.refl _
      · refine Kept.andThen State.setFaults_kept ?_
        exact Kept.refl _

theorem State.detectBead_kept {x : State} {a1} {a2} {a3} {a4} : Kept [.fab, .faults] x (State.detectBead x a1 a2 a3 a4) := by
  unfold State.detectBead
  refine Kept.andThen State.detect_kept ?_
  exact Kept.refl _

theorem State.suspect_kept {x : State} {a1} : Kept [.fab, .faults] x (State.suspect x a1) := by
  unfold State.suspect
  split
  · refine Kept.andThen State.detectBead_kept ?_
    exact Kept.refl _
  · refine Kept.andThen State.detect_kept ?_
    exact Kept.refl _
  · refine Kept.andThen State.detect_kept ?_
    exact Kept.refl _
  · refine Kept.andThen State.detect_kept ?_
    exact Kept.refl _
  · exact Kept.refl _

theorem State.corrected_kept {x : State} {a1} {a2} : Kept [.fab, .faults] x (State.corrected x a1 a2) := by
  unfold State.corrected
  dsimp only
  refine Kept.ite ?_ ?_
  · split
    · refine Kept.andThen State.detect_kept ?_
      refine Kept.andThen State.setFaults_kept ?_
      exact Kept.refl _
    · refine Kept.andThen State.detect_kept ?_
      refine Kept.andThen State.setFaults_kept ?_
      exact Kept.refl _
    · refine Kept.andThen State.detect_kept ?_
      refine Kept.andThen State.setFaults_kept ?_
      exact Kept.refl _
  · refine Kept.andThen State.setFaults_kept ?_
    exact Kept.refl _

theorem State.correctedAt_kept {x : State} {a1} : Kept [.regs, .fab, .faults] x (State.correctedAt x a1) := by
  unfold State.correctedAt
  split
  · refine Kept.andThen State.corrected_kept ?_
    refine Kept.andThen State.bump_kept ?_
    exact Kept.refl _
  · refine Kept.andThen State.corrected_kept ?_
    exact Kept.refl _
  · refine Kept.andThen State.corrected_kept ?_
    exact Kept.refl _
  · refine Kept.andThen State.corrected_kept ?_
    exact Kept.refl _
  · exact Kept.refl _

theorem State.correctedWords_kept {x : State} {a1} {a2} : Kept [.regs, .fab, .faults] x (State.correctedWords x a1 a2) := by
  unfold State.correctedWords
  refine Kept.ite ?_ ?_
  · refine Kept.andThen State.bumpBy_kept ?_
    exact Kept.refl _
  · refine Kept.foldl _ _ ?_ ?_
    · exact Kept.refl _
    · intro _ _
      refine Kept.andThen State.correctedAt_kept ?_
      exact Kept.refl _

theorem State.fenceEvent_kept {x : State} {a1} {a2} {a3} : Kept [.regs, .rings, .out] x (State.fenceEvent x a1 a2 a3) := by
  unfold State.fenceEvent
  refine Kept.andThen State.event_kept ?_
  exact Kept.refl _

theorem State.degrade_kept {x : State} {a1} {a2} : Kept [.regs, .rings, .faults, .handed, .out] x (State.degrade x a1 a2) := by
  unfold State.degrade
  dsimp only
  refine Kept.ite ?_ ?_
  · exact Kept.refl _
  · refine Kept.andThen State.alert_kept ?_
    refine Kept.andThen State.event_kept ?_
    refine Kept.andThen State.hand_kept ?_
    refine Kept.andThen State.setFaults_kept ?_
    exact Kept.refl _

theorem State.storeMap_kept {x : State} {a1} {a2} : Kept [.vault] x (State.storeMap x a1 a2) := by
  unfold State.storeMap
  refine Kept.upd ?_
  exact Kept.refl _

theorem State.storeRods_kept {x : State} {a1} {a2} : Kept [.vault] x (State.storeRods x a1 a2) := by
  unfold State.storeRods
  refine Kept.upd ?_
  exact Kept.refl _

theorem State.setDead_kept {x : State} {a1} : Kept [.vault, .faults] x (State.setDead x a1) := by
  unfold State.setDead
  refine Kept.upd ?_
  exact Kept.refl _

theorem State.fenceMap_kept {x : State} {a1} {a2} {a3} {a4} {a5} {a6} {a7} {a8} {a9} : Kept [.regs, .vault, .rings, .faults, .handed, .out] x (State.fenceMap x a1 a2 a3 a4 a5 a6 a7 a8 a9) := by
  unfold State.fenceMap
  dsimp only
  split
  · refine Kept.andThen State.degrade_kept ?_
    refine Kept.andThen State.event_kept ?_
    refine Kept.andThen State.storeMap_kept ?_
    refine Kept.andThen State.hand_kept ?_
    exact Kept.refl _
  · refine Kept.andThen State.event_kept ?_
    refine Kept.andThen State.storeMap_kept ?_
    refine Kept.andThen State.hand_kept ?_
    exact Kept.refl _

theorem State.fenceBridge_kept {x : State} {a1} : Kept [.regs, .vault, .fab, .rings, .faults, .handed, .out] x (State.fenceBridge x a1) := by
  unfold State.fenceBridge
  dsimp only
  refine Kept.andThen State.fenceMap_kept ?_
  refine Kept.ite ?_ ?_
  · refine Kept.andThen State.routeChange_kept ?_
    refine Kept.andThen State.setFaults_kept ?_
    exact Kept.refl _
  · refine Kept.andThen State.setFaults_kept ?_
    exact Kept.refl _

theorem State.fencePort_kept {x : State} {a1} : Kept [.regs, .vault, .fab, .rings, .faults, .handed, .out] x (State.fencePort x a1) := by
  unfold State.fencePort
  dsimp only
  refine Kept.andThen State.fenceMap_kept ?_
  refine Kept.andThen State.setPort_kept ?_
  refine Kept.andThen State.setFaults_kept ?_
  exact Kept.refl _

theorem State.fenceChannel_kept {x : State} {a1} {a2} : Kept [.regs, .vault, .rings, .faults, .handed, .out] x (State.fenceChannel x a1 a2) := by
  unfold State.fenceChannel
  dsimp only
  refine Kept.andThen State.fenceMap_kept ?_
  refine Kept.andThen State.setFaults_kept ?_
  exact Kept.refl _

theorem State.fenceStaging_kept {x : State} {a1} {a2} : Kept [.regs, .vault, .rings, .faults, .handed, .out] x (State.fenceStaging x a1 a2) := by
  unfold State.fenceStaging
  dsimp only
  refine Kept.andThen State.fenceMap_kept ?_
  refine Kept.andThen State.setFaults_kept ?_
  exact Kept.refl _

theorem State.fenceCsBank_kept {x : State} {a1} : Kept [.regs, .vault, .rings, .faults, .handed, .out] x (State.fenceCsBank x a1) := by
  unfold State.fenceCsBank
  dsimp only
  refine Kept.andThen State.fenceMap_kept ?_
  refine Kept.andThen State.setFaults_kept ?_
  exact Kept.refl _

theorem State.abandon_kept {x : State} {a1} : Kept [.regs, .rings, .faults, .out] x (State.abandon x a1) := by
  unfold State.abandon
  dsimp only
  refine Kept.andThen State.proveEvent_kept ?_
  refine Kept.andThen State.bump_kept ?_
  refine Kept.andThen State.setFaults_kept ?_
  exact Kept.refl _

theorem State.abandonAll_kept {x : State} : Kept [.regs, .rings, .faults, .out] x (State.abandonAll x) := by
  unfold State.abandonAll
  refine Kept.foldl _ _ ?_ ?_
  · exact Kept.refl _
  · intro _ _
    refine Kept.andThen State.abandon_kept ?_
    exact Kept.refl _

theorem State.fenceRod_kept {x : State} {a1} {a2} : Kept [.regs, .arr, .serve, .vault, .rings, .faults, .handed, .out] x (State.fenceRod x a1 a2) := by
  unfold State.fenceRod
  dsimp only
  refine Kept.ite ?_ ?_
  · refine Kept.andThen State.degrade_kept ?_
    refine Kept.andThen State.event_kept ?_
    refine Kept.ite ?_ ?_
    · refine Kept.andThen State.setDead_kept ?_
      refine Kept.andThen State.storeRods_kept ?_
      refine Kept.andThen State.hand_kept ?_
      refine Kept.andThen State.setReg_kept ?_
      refine Kept.foldl _ _ ?_ ?_
      · refine Kept.foldl _ _ ?_ ?_
        · exact Kept.refl _
        · intro _ _
          refine Kept.andThen State.dropConfig_kept ?_
          refine Kept.andThen State.failConfig_kept ?_
          exact Kept.refl _
      · intro _ _
        refine Kept.andThen State.abandon_kept ?_
        exact Kept.refl _
    · refine Kept.ite ?_ ?_
      · refine Kept.andThen State.storeRods_kept ?_
        refine Kept.andThen State.hand_kept ?_
        refine Kept.andThen State.setReg_kept ?_
        refine Kept.foldl _ _ ?_ ?_
        · refine Kept.foldl _ _ ?_ ?_
          · exact Kept.refl _
          · intro _ _
            refine Kept.andThen State.dropConfig_kept ?_
            refine Kept.andThen State.failConfig_kept ?_
            exact Kept.refl _
        · intro _ _
          refine Kept.andThen State.abandon_kept ?_
          exact Kept.refl _
      · refine Kept.andThen State.setFaults_kept ?_
        refine Kept.andThen State.storeRods_kept ?_
        refine Kept.andThen State.hand_kept ?_
        refine Kept.andThen State.setReg_kept ?_
        refine Kept.foldl _ _ ?_ ?_
        · refine Kept.foldl _ _ ?_ ?_
          · exact Kept.refl _
          · intro _ _
            refine Kept.andThen State.dropConfig_kept ?_
            refine Kept.andThen State.failConfig_kept ?_
            exact Kept.refl _
        · intro _ _
          refine Kept.andThen State.abandon_kept ?_
          exact Kept.refl _
  · refine Kept.andThen State.event_kept ?_
    refine Kept.ite ?_ ?_
    · refine Kept.andThen State.setDead_kept ?_
      refine Kept.andThen State.storeRods_kept ?_
      refine Kept.andThen State.hand_kept ?_
      refine Kept.andThen State.setReg_kept ?_
      refine Kept.foldl _ _ ?_ ?_
      · refine Kept.foldl _ _ ?_ ?_
        · exact Kept.refl _
        · intro _ _
          refine Kept.andThen State.dropConfig_kept ?_
          refine Kept.andThen State.failConfig_kept ?_
          exact Kept.refl _
      · intro _ _
        refine Kept.andThen State.abandon_kept ?_
        exact Kept.refl _
    · refine Kept.ite ?_ ?_
      · refine Kept.andThen State.storeRods_kept ?_
        refine Kept.andThen State.hand_kept ?_
        refine Kept.andThen State.setReg_kept ?_
        refine Kept.foldl _ _ ?_ ?_
        · refine Kept.foldl _ _ ?_ ?_
          · exact Kept.refl _
          · intro _ _
            refine Kept.andThen State.dropConfig_kept ?_
            refine Kept.andThen State.failConfig_kept ?_
            exact Kept.refl _
        · intro _ _
          refine Kept.andThen State.abandon_kept ?_
          exact Kept.refl _
      · refine Kept.andThen State.setFaults_kept ?_
        refine Kept.andThen State.storeRods_kept ?_
        refine Kept.andThen State.hand_kept ?_
        refine Kept.andThen State.setReg_kept ?_
        refine Kept.foldl _ _ ?_ ?_
        · refine Kept.foldl _ _ ?_ ?_
          · exact Kept.refl _
          · intro _ _
            refine Kept.andThen State.dropConfig_kept ?_
            refine Kept.andThen State.failConfig_kept ?_
            exact Kept.refl _
        · intro _ _
          refine Kept.andThen State.abandon_kept ?_
          exact Kept.refl _

theorem State.fence_kept {x : State} {a1} : Kept [.regs, .arr, .serve, .vault, .fab, .rings, .faults, .handed, .out] x (State.fence x a1) := by
  unfold State.fence
  split
  · refine Kept.andThen State.fenceRod_kept ?_
    exact Kept.refl _
  · refine Kept.andThen State.fenceCsBank_kept ?_
    exact Kept.refl _
  · refine Kept.andThen State.fenceStaging_kept ?_
    exact Kept.refl _
  · refine Kept.andThen State.fenceChannel_kept ?_
    exact Kept.refl _
  · refine Kept.andThen State.fenceBridge_kept ?_
    exact Kept.refl _
  · refine Kept.andThen State.fencePort_kept ?_
    exact Kept.refl _

theorem State.startRun_kept {x : State} {a1} : Kept [.faults] x (State.startRun x a1) := by
  unfold State.startRun
  refine Kept.ite ?_ ?_
  · dsimp only
    split
    · exact Kept.refl _
    · refine Kept.andThen State.setFaults_kept ?_
      exact Kept.refl _
  · exact Kept.refl _

theorem execProvingRunStart_kept {x : State} {a0} : KeptR [.faults] x (execProvingRunStart a0 x) := by
  unfold execProvingRunStart
  refine KeptR.next ?_
  refine Kept.andThen State.startRun_kept ?_
  exact Kept.refl _

theorem State.countTransient_kept {x : State} {a1} : Kept [.regs, .faults] x (State.countTransient x a1) := by
  unfold State.countTransient
  dsimp only
  refine Kept.andThen State.setFaults_kept ?_
  refine Kept.andThen State.bump_kept ?_
  exact Kept.refl _

theorem State.closeRun_kept {x : State} {a1} : Kept [.arr, .mem, .faults] x (State.closeRun x a1) := by
  unfold State.closeRun
  dsimp only
  split
  · refine Kept.ite ?_ ?_
    · split
      · refine Kept.upd ?_
        refine Kept.andThen State.zeroAt_kept ?_
        refine Kept.andThen State.setFaults_kept ?_
        refine Kept.andThen State.setFaults_kept ?_
        exact Kept.refl _
      · refine Kept.upd ?_
        refine Kept.andThen State.zeroAt_kept ?_
        refine Kept.andThen State.setFaults_kept ?_
        refine Kept.andThen State.setFaults_kept ?_
        exact Kept.refl _
    · refine Kept.andThen State.setFaults_kept ?_
      refine Kept.andThen State.setFaults_kept ?_
      exact Kept.refl _
  · refine Kept.andThen State.setFaults_kept ?_
    exact Kept.refl _

theorem State.admitPort_kept {x : State} {a1} : Kept [.fab] x (State.admitPort x a1) := by
  unfold State.admitPort
  dsimp only
  refine Kept.andThen State.setPort_kept ?_
  exact Kept.refl _

theorem State.afterPass_kept {x : State} {a1} : Kept [.fab] x (State.afterPass x a1) := by
  unfold State.afterPass
  split
  · refine Kept.ite ?_ ?_
    · refine Kept.andThen State.routeChange_kept ?_
      exact Kept.refl _
    · exact Kept.refl _
  · refine Kept.andThen State.admitPort_kept ?_
    exact Kept.refl _
  · exact Kept.refl _

theorem State.repairRows_kept {x : State} {a1} {a2} {a3} : Kept [.regs, .faults, .handed] x (State.repairRows x a1 a2 a3) := by
  unfold State.repairRows
  dsimp only
  refine Kept.foldl _ _ ?_ ?_
  · refine Kept.andThen State.bumpBy_kept ?_
    refine Kept.andThen State.setFaults_kept ?_
    exact Kept.refl _
  · intro _ _
    refine Kept.andThen State.hand_kept ?_
    exact Kept.refl _

theorem State.classify_kept {x : State} {a1} {a2} {a3} : Kept [.regs, .arr, .mem, .serve, .vault, .fab, .rings, .faults, .handed, .out] x (State.classify x a1 a2 a3) := by
  unfold State.classify
  dsimp only
  split
  · refine Kept.ite ?_ ?_
    · refine Kept.andThen State.proveEvent_kept ?_
      refine Kept.ite ?_ ?_
      · refine Kept.andThen State.repairRows_kept ?_
        refine Kept.andThen State.closeRun_kept ?_
        refine Kept.andThen State.bump_kept ?_
        exact Kept.refl _
      · refine Kept.andThen State.closeRun_kept ?_
        refine Kept.andThen State.bump_kept ?_
        exact Kept.refl _
    · refine Kept.ite ?_ ?_
      · refine Kept.andThen State.fence_kept ?_
        refine Kept.andThen State.proveEvent_kept ?_
        refine Kept.ite ?_ ?_
        · refine Kept.andThen State.repairRows_kept ?_
          refine Kept.andThen State.closeRun_kept ?_
          refine Kept.andThen State.bump_kept ?_
          exact Kept.refl _
        · refine Kept.andThen State.closeRun_kept ?_
          refine Kept.andThen State.bump_kept ?_
          exact Kept.refl _
      · refine Kept.ite ?_ ?_
        · refine Kept.andThen State.proveEvent_kept ?_
          refine Kept.andThen State.countTransient_kept ?_
          refine Kept.ite ?_ ?_
          · refine Kept.andThen State.repairRows_kept ?_
            refine Kept.andThen State.closeRun_kept ?_
            refine Kept.andThen State.bump_kept ?_
            exact Kept.refl _
          · refine Kept.andThen State.closeRun_kept ?_
            refine Kept.andThen State.bump_kept ?_
            exact Kept.refl _
        · refine Kept.andThen State.fence_kept ?_
          refine Kept.andThen State.proveEvent_kept ?_
          refine Kept.ite ?_ ?_
          · refine Kept.andThen State.repairRows_kept ?_
            refine Kept.andThen State.closeRun_kept ?_
            refine Kept.andThen State.bump_kept ?_
            exact Kept.refl _
          · refine Kept.andThen State.closeRun_kept ?_
            refine Kept.andThen State.bump_kept ?_
            exact Kept.refl _
  · refine Kept.ite ?_ ?_
    · refine Kept.andThen State.fence_kept ?_
      refine Kept.andThen State.proveEvent_kept ?_
      refine Kept.andThen State.closeRun_kept ?_
      refine Kept.andThen State.bump_kept ?_
      exact Kept.refl _
    · refine Kept.ite ?_ ?_
      · refine Kept.andThen State.fence_kept ?_
        refine Kept.andThen State.proveEvent_kept ?_
        refine Kept.andThen State.closeRun_kept ?_
        refine Kept.andThen State.bump_kept ?_
        exact Kept.refl _
      · refine Kept.ite ?_ ?_
        · refine Kept.andThen State.proveEvent_kept ?_
          refine Kept.andThen State.closeRun_kept ?_
          refine Kept.andThen State.bump_kept ?_
          exact Kept.refl _
        · refine Kept.andThen State.proveEvent_kept ?_
          refine Kept.andThen State.afterPass_kept ?_
          refine Kept.andThen State.countTransient_kept ?_
          refine Kept.andThen State.closeRun_kept ?_
          refine Kept.andThen State.bump_kept ?_
          exact Kept.refl _

theorem State.endRun_kept {x : State} {a1} {a2} {a3} : Kept [.regs, .arr, .mem, .serve, .vault, .fab, .rings, .faults, .handed, .out] x (State.endRun x a1 a2 a3) := by
  unfold State.endRun
  dsimp only
  split
  · exact Kept.refl _
  · refine Kept.ite ?_ ?_
    · refine Kept.andThen State.setFaults_kept ?_
      exact Kept.refl _
    · refine Kept.andThen State.classify_kept ?_
      split
      · refine Kept.ite ?_ ?_
        · exact Kept.refl _
        · refine Kept.andThen State.setPort_kept ?_
          exact Kept.refl _
      · exact Kept.refl _

theorem State.runTimeout_kept {x : State} {a1} : Kept [.regs, .arr, .serve, .vault, .fab, .rings, .faults, .handed, .out] x (State.runTimeout x a1) := by
  unfold State.runTimeout
  dsimp only
  split
  · exact Kept.refl _
  · refine Kept.ite ?_ ?_
    · refine Kept.andThen State.fence_kept ?_
      refine Kept.andThen State.proveEvent_kept ?_
      refine Kept.andThen State.bump_kept ?_
      refine Kept.andThen State.setFaults_kept ?_
      exact Kept.refl _
    · exact Kept.refl _

theorem execProvingRunTimeout_kept {x : State} {a0} : KeptR [.regs, .arr, .serve, .vault, .fab, .rings, .faults, .handed, .platform, .out] x (execProvingRunTimeout a0 x) := by
  unfold execProvingRunTimeout
  refine KeptR.next ?_
  refine Kept.on (State.watched_kept ?_) ?_
  · intro _
    refine Kept.andThen State.runTimeout_kept ?_
    exact Kept.refl _
  · exact Kept.refl _

theorem State.routine_kept {x : State} {a1} : Kept [.faults] x (State.routine x a1) := by
  unfold State.routine
  refine Kept.ite ?_ ?_
  · exact Kept.refl _
  · dsimp only
    split
    · refine Kept.andThen State.setFaults_kept ?_
      exact Kept.refl _
    · refine Kept.andThen State.setFaults_kept ?_
      refine Kept.andThen State.setFaults_kept ?_
      exact Kept.refl _

theorem execRoutineProving_kept {x : State} {a0} : KeptR [.faults] x (execRoutineProving a0 x) := by
  unfold execRoutineProving
  refine KeptR.next ?_
  refine Kept.andThen State.routine_kept ?_
  exact Kept.refl _

theorem State.linkError_kept {x : State} {a1} : Kept [.fab, .faults, .out] x (State.linkError x a1) := by
  unfold State.linkError
  refine Kept.ite ?_ ?_
  · exact Kept.refl _
  · dsimp only
    refine Kept.andThen State.detect_kept ?_
    refine Kept.andThen State.emit_kept ?_
    refine Kept.andThen State.setPort_kept ?_
    exact Kept.refl _

theorem State.writeProveRequest_kept {x : State} {a1} : Kept [.fab, .faults, .out] x (State.writeProveRequest x a1) := by
  unfold State.writeProveRequest
  split
  · exact Kept.refl _
  · refine Kept.ite ?_ ?_
    · refine Kept.andThen State.linkError_kept ?_
      exact Kept.refl _
    · refine Kept.andThen State.detect_kept ?_
      exact Kept.refl _
  · refine Kept.andThen State.detect_kept ?_
    exact Kept.refl _

theorem State.writeFaultClear_kept {x : State} {a1} : Kept [.vault, .fab, .faults] x (State.writeFaultClear x a1) := by
  unfold State.writeFaultClear
  refine Kept.ite ?_ ?_
  · exact Kept.refl _
  · dsimp only
    refine Kept.foldl _ _ ?_ ?_
    · refine Kept.upd ?_
      refine Kept.andThen State.setFaults_kept ?_
      exact Kept.refl _
    · intro _ _
      refine Kept.andThen State.routeChange_kept ?_
      exact Kept.refl _

theorem State.writeFenceClear_kept {x : State} {a1} {a2} : Kept [.regs, .arr, .mem, .vault, .faults] x (State.writeFenceClear x a1 a2) := by
  unfold State.writeFenceClear
  refine Kept.ite ?_ ?_
  · exact Kept.refl _
  · dsimp only
    refine Kept.andThen State.setFaults_kept ?_
    refine Kept.andThen State.setDead_kept ?_
    refine Kept.andThen State.storeRods_kept ?_
    refine Kept.andThen State.setReg_kept ?_
    refine Kept.ite ?_ ?_
    · refine Kept.andThen State.unmapRod_kept ?_
      exact Kept.refl _
    · exact Kept.refl _

theorem State.writePortFenceClear_kept {x : State} {a1} {a2} : Kept [.vault, .faults] x (State.writePortFenceClear x a1 a2) := by
  unfold State.writePortFenceClear
  refine Kept.ite ?_ ?_
  · exact Kept.refl _
  · dsimp only
    refine Kept.andThen State.storeMap_kept ?_
    refine Kept.andThen State.setFaults_kept ?_
    exact Kept.refl _

theorem State.bridgeReplay_kept {x : State} {a1} {a2} : Kept [.fab, .faults] x (State.bridgeReplay x a1 a2) := by
  unfold State.bridgeReplay
  dsimp only
  refine Kept.ite ?_ ?_
  · refine Kept.andThen State.detect_kept ?_
    refine Kept.upd ?_
    exact Kept.refl _
  · refine Kept.upd ?_
    exact Kept.refl _

theorem execBridgeUnitReplay_kept {x : State} {a0} {a1} : KeptR [.fab, .faults] x (execBridgeUnitReplay a0 a1 x) := by
  unfold execBridgeUnitReplay
  refine KeptR.next ?_
  refine Kept.andThen State.bridgeReplay_kept ?_
  exact Kept.refl _

end Sys2Proof.Machine
end

