-- ==== Sys2Proof/Laws/Kept2.lean ====
section
/-! SUPPORT. What the operations and the commands of Machine/Thaxa.lean, Machine/Service.lean keep (Laws/Kept.lean). -/
set_option Elab.async false

namespace Sys2Proof.Machine

/-! ### Thaxa -/

theorem State.setFab_kept {x : State} {f} (hp : f.ports.length = x.fab.ports.length := by first | with_reducible rfl | simp [setNth, modNth]) :
    Kept [.fab] x (x.setFab f) :=
  Kept.upd (Kept.refl _) rfl (Nat.le_refl _) (Nat.le_refl _) rfl hp

theorem State.sendOn_kept {x : State} {a1} {a2} {a3} {a4} : Kept [.regs, .out] x (State.sendOn x a1 a2 a3 a4) := by
  unfold State.sendOn
  refine Kept.ite ?_ ?_
  · exact Kept.refl _
  · dsimp only
    refine Kept.ite ?_ ?_
    · refine Kept.andThen State.emit_kept ?_
      exact Kept.refl _
    · refine Kept.andThen State.bump_kept ?_
      exact Kept.refl _

theorem State.sendLocal_kept {x : State} {a1} {a2} : Kept [.out] x (State.sendLocal x a1 a2) := by
  unfold State.sendLocal
  refine Kept.andThen State.emit_kept ?_
  exact Kept.refl _

theorem State.sendTo_kept {x : State} {a1} {a2} : Kept [.regs, .out] x (State.sendTo x a1 a2) := by
  unfold State.sendTo
  refine Kept.ite ?_ ?_
  · refine Kept.andThen State.sendLocal_kept ?_
    exact Kept.refl _
  · refine Kept.andThen State.sendOn_kept ?_
    exact Kept.refl _

theorem State.sendControl_kept {x : State} {a1} {a2} {a3} : Kept [.regs, .out] x (State.sendControl x a1 a2 a3) := by
  unfold State.sendControl
  refine Kept.ite ?_ ?_
  · refine Kept.andThen State.sendLocal_kept ?_
    exact Kept.refl _
  · refine Kept.andThen State.sendOn_kept ?_
    exact Kept.refl _

theorem State.respond_kept {x : State} {a1} {a2} {a3} {a4} : Kept [.regs, .out] x (State.respond x a1 a2 a3 a4) := by
  unfold State.respond
  dsimp only
  refine Kept.ite ?_ ?_
  · refine Kept.andThen State.sendLocal_kept ?_
    exact Kept.refl _
  · refine Kept.andThen State.sendOn_kept ?_
    exact Kept.refl _

theorem State.notice_kept {x : State} {a1} {a2} {a3} {a4} : Kept [.regs, .out] x (State.notice x a1 a2 a3 a4) := by
  unfold State.notice
  refine Kept.andThen State.sendControl_kept ?_
  exact Kept.refl _

theorem State.partitionDeny_kept {x : State} {a1} : Kept [.regs, .fab, .rings, .out] x (State.partitionDeny x a1) := by
  unfold State.partitionDeny
  dsimp only
  refine Kept.ite ?_ ?_
  · refine Kept.andThen State.bump_kept ?_
    exact Kept.refl _
  · refine Kept.andThen State.alert_kept ?_
    refine Kept.andThen State.event_kept ?_
    refine Kept.andThen State.setFab_kept ?_
    refine Kept.andThen State.bump_kept ?_
    exact Kept.refl _

theorem State.deliver_kept {x : State} {a1} {a2} {a3} {P : List Part}
    (h3 : ∀ y, Kept P y (a3 y))
    (hq : [.regs, .fab, .rings, .out] ⊆ P := by first | with_reducible exact List.Subset.refl _ | decide | (refine List.Subset.trans ?_ (by assumption); decide)) : Kept P x (State.deliver x a1 a2 a3) := by
  unfold State.deliver
  refine Kept.ite ?_ ?_
  · exact Kept.refl _
  · refine Kept.ite ?_ ?_
    · refine Kept.andThen State.bump_kept ?_
      exact Kept.refl _
    · refine Kept.ite ?_ ?_
      · refine Kept.andThen State.partitionDeny_kept ?_
        exact Kept.refl _
      · refine Kept.ite ?_ ?_
        · refine Kept.andThen State.bump_kept ?_
          exact Kept.refl _
        · refine Kept.ite ?_ ?_
          · refine Kept.andThen State.bump_kept ?_
            exact Kept.refl _
          · refine Kept.andThen (h3 ..) ?_
            exact Kept.refl _

theorem State.resendAll_kept {x : State} {a1} : Kept [.out] x (State.resendAll x a1) := by
  unfold State.resendAll
  refine Kept.andThen State.emits_kept ?_
  exact Kept.refl _

theorem State.nakIn_kept {x : State} {a1} {a2} : Kept [.regs, .fab, .faults, .out] x (State.nakIn x a1 a2) := by
  unfold State.nakIn
  dsimp only
  refine Kept.ite ?_ ?_
  · exact Kept.refl _
  · refine Kept.ite ?_ ?_
    · refine Kept.andThen State.linkError_kept ?_
      refine Kept.andThen State.setPort_kept ?_
      refine Kept.andThen State.bump_kept ?_
      exact Kept.refl _
    · refine Kept.andThen State.resendAll_kept ?_
      refine Kept.andThen State.setPort_kept ?_
      refine Kept.andThen State.bump_kept ?_
      exact Kept.refl _

theorem execLinkNakReceive_kept {x : State} {a0} {a1} : KeptR [.regs, .fab, .faults, .out] x (execLinkNakReceive a0 a1 x) := by
  unfold execLinkNakReceive
  refine KeptR.next ?_
  refine Kept.andThen State.nakIn_kept ?_
  exact Kept.refl _

theorem State.sendAck_kept {x : State} {a1} {a2} : Kept [.regs, .fab, .out] x (State.sendAck x a1 a2) := by
  unfold State.sendAck
  dsimp only
  refine Kept.andThen State.emit_kept ?_
  refine Kept.andThen State.bumpIf_kept ?_
  refine Kept.andThen State.setPort_kept ?_
  exact Kept.refl _

theorem State.ackDue_kept {x : State} {a1} : Kept [.regs, .fab, .out] x (State.ackDue x a1) := by
  unfold State.ackDue
  refine Kept.ite ?_ ?_
  · refine Kept.andThen State.sendAck_kept ?_
    exact Kept.refl _
  · exact Kept.refl _

theorem execAckTimer_kept {x : State} {a0} : KeptR [.regs, .fab, .out] x (execAckTimer a0 x) := by
  unfold execAckTimer
  refine KeptR.next ?_
  refine Kept.andThen State.ackDue_kept ?_
  exact Kept.refl _

theorem State.headerIn_kept {x : State} {a1} {a2} : Kept [.fab] x (State.headerIn x a1 a2) := by
  unfold State.headerIn
  dsimp only
  refine Kept.andThen State.setPort_kept ?_
  exact Kept.refl _

theorem State.returnCredits_kept {x : State} {a1} {a2} {a3} : Kept [.fab, .out] x (State.returnCredits x a1 a2 a3) := by
  unfold State.returnCredits
  dsimp only
  refine Kept.andThen State.emit_kept ?_
  refine Kept.andThen State.setPort_kept ?_
  exact Kept.refl _

theorem State.dataIn_kept {x : State} {a1} {a2} : Kept [.regs, .fab, .out] x (State.dataIn x a1 a2) := by
  unfold State.dataIn
  dsimp only
  refine Kept.ite ?_ ?_
  · refine Kept.andThen State.sendAck_kept ?_
    refine Kept.ite ?_ ?_
    · refine Kept.andThen State.returnCredits_kept ?_
      refine Kept.andThen State.setPort_kept ?_
      refine Kept.ite ?_ ?_
      · refine Kept.andThen State.bump_kept ?_
        refine Kept.andThen State.returnCredits_kept ?_
        exact Kept.refl _
      · exact Kept.refl _
    · refine Kept.andThen State.setPort_kept ?_
      refine Kept.ite ?_ ?_
      · refine Kept.andThen State.bump_kept ?_
        refine Kept.andThen State.returnCredits_kept ?_
        exact Kept.refl _
      · exact Kept.refl _
  · refine Kept.ite ?_ ?_
    · refine Kept.andThen State.returnCredits_kept ?_
      refine Kept.andThen State.setPort_kept ?_
      refine Kept.ite ?_ ?_
      · refine Kept.andThen State.bump_kept ?_
        refine Kept.andThen State.returnCredits_kept ?_
        exact Kept.refl _
      · exact Kept.refl _
    · refine Kept.andThen State.setPort_kept ?_
      refine Kept.ite ?_ ?_
      · refine Kept.andThen State.bump_kept ?_
        refine Kept.andThen State.returnCredits_kept ?_
        exact Kept.refl _
      · exact Kept.refl _

theorem State.flitGood_kept {x : State} {a1} {a2} {a3} : Kept [.regs, .fab, .faults, .out] x (State.flitGood x a1 a2 a3) := by
  unfold State.flitGood
  dsimp only
  refine Kept.ite ?_ ?_
  · refine Kept.ite ?_ ?_
    · refine Kept.andThen State.dataIn_kept ?_
      refine Kept.ite ?_ ?_
      · refine Kept.andThen State.nakIn_kept ?_
        refine Kept.andThen State.headerIn_kept ?_
        refine Kept.andThen State.bumpIf_kept ?_
        exact Kept.refl _
      · refine Kept.andThen State.headerIn_kept ?_
        refine Kept.andThen State.bumpIf_kept ?_
        exact Kept.refl _
    · refine Kept.ite ?_ ?_
      · refine Kept.ite ?_ ?_
        · refine Kept.andThen State.nakIn_kept ?_
          refine Kept.andThen State.headerIn_kept ?_
          refine Kept.andThen State.bumpIf_kept ?_
          exact Kept.refl _
        · refine Kept.andThen State.headerIn_kept ?_
          refine Kept.andThen State.bumpIf_kept ?_
          exact Kept.refl _
      · refine Kept.andThen State.sendAck_kept ?_
        refine Kept.ite ?_ ?_
        · refine Kept.andThen State.nakIn_kept ?_
          refine Kept.andThen State.headerIn_kept ?_
          refine Kept.andThen State.bumpIf_kept ?_
          exact Kept.refl _
        · refine Kept.andThen State.headerIn_kept ?_
          refine Kept.andThen State.bumpIf_kept ?_
          exact Kept.refl _
  · refine Kept.andThen State.bumpIf_kept ?_
    refine Kept.ite ?_ ?_
    · refine Kept.andThen State.nakIn_kept ?_
      refine Kept.andThen State.headerIn_kept ?_
      refine Kept.andThen State.bumpIf_kept ?_
      exact Kept.refl _
    · refine Kept.andThen State.headerIn_kept ?_
      refine Kept.andThen State.bumpIf_kept ?_
      exact Kept.refl _

theorem State.flitBad_kept {x : State} {a1} {a2} : Kept [.regs, .fab, .out] x (State.flitBad x a1 a2) := by
  unfold State.flitBad
  dsimp only
  refine Kept.ite ?_ ?_
  · refine Kept.andThen State.sendAck_kept ?_
    refine Kept.andThen State.bump_kept ?_
    exact Kept.refl _
  · refine Kept.andThen State.bumpIf_kept ?_
    refine Kept.andThen State.bump_kept ?_
    exact Kept.refl _

theorem State.flitIn_kept {x : State} {a1} {a2} : Kept [.regs, .fab, .faults, .out] x (State.flitIn x a1 a2) := by
  unfold State.flitIn
  refine Kept.ite ?_ ?_
  · exact Kept.refl _
  · split
    · refine Kept.andThen State.flitGood_kept ?_
      exact Kept.refl _
    · refine Kept.andThen State.flitBad_kept ?_
      exact Kept.refl _

theorem execFlitReceive_kept {x : State} {a0} {a1} : KeptR [.regs, .fab, .faults, .out] x (execFlitReceive a0 a1 x) := by
  unfold execFlitReceive
  refine KeptR.next ?_
  refine Kept.andThen State.flitIn_kept ?_
  exact Kept.refl _

theorem State.alignLost_kept {x : State} {a1} : Kept [.fab, .faults, .out] x (State.alignLost x a1) := by
  unfold State.alignLost
  refine Kept.ite ?_ ?_
  · refine Kept.andThen State.linkError_kept ?_
    exact Kept.refl _
  · exact Kept.refl _

theorem execFecAlignmentLoss_kept {x : State} {a0} {a1} : KeptR [.fab, .faults, .out] x (execFecAlignmentLoss a0 a1 x) := by
  unfold execFecAlignmentLoss
  dsimp only
  refine KeptR.next ?_
  refine Kept.andThen State.alignLost_kept ?_
  exact Kept.refl _

theorem State.askDelay_kept {x : State} {a1} {a2} : Kept [.fab, .out] x (State.askDelay x a1 a2) := by
  unfold State.askDelay
  dsimp only
  refine Kept.andThen State.emit_kept ?_
  refine Kept.andThen State.setPort_kept ?_
  exact Kept.refl _

theorem State.measure_kept {x : State} {a1} : Kept [.fab, .out] x (State.measure x a1) := by
  unfold State.measure
  refine Kept.ite ?_ ?_
  · refine Kept.andThen State.askDelay_kept ?_
    exact Kept.refl _
  · exact Kept.refl _

theorem execDelayMeasurement_kept {x : State} {a0} : KeptR [.fab, .out] x (execDelayMeasurement a0 x) := by
  unfold execDelayMeasurement
  refine KeptR.next ?_
  refine Kept.andThen State.measure_kept ?_
  exact Kept.refl _

theorem State.exchange_kept {x : State} {a1} : Kept [.time, .fab, .faults, .out] x (State.exchange x a1) := by
  unfold State.exchange
  split
  · exact Kept.refl _
  · refine Kept.on (State.atTimer_kept ?_) ?_
    · intro _
      refine Kept.ite ?_ ?_
      · refine Kept.andThen State.linkError_kept ?_
        exact Kept.refl _
      · refine Kept.andThen State.askDelay_kept ?_
        exact Kept.refl _
    · exact Kept.refl _

theorem execDelayExchange_kept {x : State} {a0} : KeptR [.time, .fab, .faults, .out] x (execDelayExchange a0 x) := by
  unfold execDelayExchange
  refine KeptR.next ?_
  refine Kept.andThen State.exchange_kept ?_
  exact Kept.refl _

theorem State.answerDelay_kept {x : State} {a1} {a2} : Kept [.out] x (State.answerDelay x a1 a2) := by
  unfold State.answerDelay
  dsimp only
  refine Kept.ite ?_ ?_
  · refine Kept.andThen State.emit_kept ?_
    exact Kept.refl _
  · exact Kept.refl _

theorem execDelayReq_kept {x : State} {a0} {a1} : KeptR [.out] x (execDelayReq a0 a1 x) := by
  unfold execDelayReq
  refine KeptR.next ?_
  refine Kept.andThen State.answerDelay_kept ?_
  exact Kept.refl _

theorem State.delayIn_kept {x : State} {a1} {a2} {a3} : Kept [.fab] x (State.delayIn x a1 a2 a3) := by
  unfold State.delayIn
  dsimp only
  split
  · exact Kept.refl _
  · split
    · exact Kept.refl _
    · refine Kept.ite ?_ ?_
      · refine Kept.andThen State.setPort_kept ?_
        exact Kept.refl _
      · refine Kept.andThen State.setPort_kept ?_
        exact Kept.refl _

theorem execDelayResp_kept {x : State} {a0} {a1} {a2} : KeptR [.fab] x (execDelayResp a0 a1 a2 x) := by
  unfold execDelayResp
  refine KeptR.next ?_
  refine Kept.andThen State.delayIn_kept ?_
  exact Kept.refl _

theorem State.sendTrain_kept {x : State} {a1} : Kept [.out] x (State.sendTrain x a1) := by
  unfold State.sendTrain
  refine Kept.andThen State.emit_kept ?_
  exact Kept.refl _

theorem State.detectPort_kept {x : State} {a1} {a2} : Kept [.fab, .out] x (State.detectPort x a1 a2) := by
  unfold State.detectPort
  refine Kept.andThen State.sendTrain_kept ?_
  refine Kept.andThen State.setPort_kept ?_
  exact Kept.refl _

theorem State.trainIn_kept {x : State} {a1} {a2} : Kept [.fab] x (State.trainIn x a1 a2) := by
  unfold State.trainIn
  dsimp only
  split
  · refine Kept.andThen State.setPort_kept ?_
    exact Kept.refl _
  · refine Kept.andThen State.setPort_kept ?_
    exact Kept.refl _
  · refine Kept.andThen State.setPort_kept ?_
    exact Kept.refl _
  · exact Kept.refl _

theorem execTrain_kept {x : State} {a0} {a1} : KeptR [.fab] x (execTrain a0 a1 x) := by
  unfold execTrain
  refine KeptR.next ?_
  refine Kept.andThen State.trainIn_kept ?_
  exact Kept.refl _

theorem State.trainExit_kept {x : State} {a1} : Kept [.fab, .out] x (State.trainExit x a1) := by
  unfold State.trainExit
  dsimp only
  refine Kept.ite ?_ ?_
  · exact Kept.refl _
  · split
    · refine Kept.ite ?_ ?_
      · refine Kept.andThen State.setPort_kept ?_
        exact Kept.refl _
      · exact Kept.refl _
    · refine Kept.andThen State.sendTrain_kept ?_
      refine Kept.andThen State.setPort_kept ?_
      exact Kept.refl _
    · refine Kept.ite ?_ ?_
      · refine Kept.andThen State.measure_kept ?_
        refine Kept.andThen State.setPort_kept ?_
        exact Kept.refl _
      · exact Kept.refl _
    · refine Kept.ite ?_ ?_
      · exact Kept.refl _
      · refine Kept.andThen State.setPort_kept ?_
        exact Kept.refl _
    · refine Kept.ite ?_ ?_
      · exact Kept.refl _
      · refine Kept.ite ?_ ?_
        · refine Kept.andThen State.measure_kept ?_
          refine Kept.andThen State.setPort_kept ?_
          exact Kept.refl _
        · refine Kept.ite ?_ ?_
          · exact Kept.refl _
          · refine Kept.andThen State.resendAll_kept ?_
            refine Kept.andThen State.setPort_kept ?_
            exact Kept.refl _
    · exact Kept.refl _

theorem execTrainingStateExit_kept {x : State} {a0} : KeptR [.fab, .out] x (execTrainingStateExit a0 x) := by
  unfold execTrainingStateExit
  refine KeptR.next ?_
  refine Kept.andThen State.trainExit_kept ?_
  exact Kept.refl _

theorem State.trainFailed_kept {x : State} {a1} {a2} : Kept [.regs, .fab, .rings, .out] x (State.trainFailed x a1 a2) := by
  unfold State.trainFailed
  dsimp only
  refine Kept.ite ?_ ?_
  · refine Kept.andThen State.detectPort_kept ?_
    exact Kept.refl _
  · refine Kept.andThen State.alert_kept ?_
    refine Kept.andThen State.event_kept ?_
    refine Kept.andThen State.bumpIf_kept ?_
    refine Kept.andThen State.setPort_kept ?_
    exact Kept.refl _

theorem State.dropPortRun_kept {x : State} {a1} : Kept [.regs, .rings, .faults, .out] x (State.dropPortRun x a1) := by
  unfold State.dropPortRun
  split
  · refine Kept.andThen State.abandon_kept ?_
    exact Kept.refl _
  · exact Kept.refl _

theorem State.boundExpired_kept {x : State} {a1} {a2} : Kept [.regs, .vault, .fab, .rings, .faults, .handed, .out] x (State.boundExpired x a1 a2) := by
  unfold State.boundExpired
  dsimp only
  split
  · refine Kept.ite ?_ ?_
    · refine Kept.andThen State.trainFailed_kept ?_
      refine Kept.andThen State.setPort_kept ?_
      refine Kept.andThen State.bumpIf_kept ?_
      exact Kept.refl _
    · refine Kept.andThen State.detectPort_kept ?_
      refine Kept.andThen State.setPort_kept ?_
      refine Kept.andThen State.bumpIf_kept ?_
      exact Kept.refl _
  · refine Kept.ite ?_ ?_
    · refine Kept.andThen State.trainFailed_kept ?_
      refine Kept.andThen State.setPort_kept ?_
      refine Kept.andThen State.bumpIf_kept ?_
      exact Kept.refl _
    · refine Kept.andThen State.detectPort_kept ?_
      refine Kept.andThen State.setPort_kept ?_
      refine Kept.andThen State.bumpIf_kept ?_
      exact Kept.refl _
  · refine Kept.ite ?_ ?_
    · refine Kept.andThen State.trainFailed_kept ?_
      refine Kept.andThen State.setPort_kept ?_
      refine Kept.andThen State.bumpIf_kept ?_
      exact Kept.refl _
    · refine Kept.andThen State.detectPort_kept ?_
      refine Kept.andThen State.setPort_kept ?_
      refine Kept.andThen State.bumpIf_kept ?_
      exact Kept.refl _
  · refine Kept.ite ?_ ?_
    · refine Kept.andThen State.trainFailed_kept ?_
      refine Kept.andThen State.setPort_kept ?_
      refine Kept.andThen State.bumpIf_kept ?_
      exact Kept.refl _
    · refine Kept.andThen State.detectPort_kept ?_
      refine Kept.andThen State.setPort_kept ?_
      refine Kept.andThen State.bumpIf_kept ?_
      exact Kept.refl _
  · refine Kept.ite ?_ ?_
    · exact Kept.refl _
    · refine Kept.ite ?_ ?_
      · refine Kept.andThen State.setPort_kept ?_
        exact Kept.refl _
      · refine Kept.andThen State.fencePort_kept ?_
        refine Kept.andThen State.dropPortRun_kept ?_
        refine Kept.andThen State.setPort_kept ?_
        exact Kept.refl _
  · exact Kept.refl _

theorem execTrainingBoundExpiry_kept {x : State} {a0} {a1} : KeptR [.regs, .vault, .fab, .rings, .faults, .handed, .platform, .out] x (execTrainingBoundExpiry a0 a1 x) := by
  unfold execTrainingBoundExpiry
  refine KeptR.next ?_
  refine Kept.on (State.watched_kept ?_) ?_
  · intro _
    refine Kept.andThen State.boundExpired_kept ?_
    exact Kept.refl _
  · exact Kept.refl _

theorem State.writePortCfg_kept {x : State} {a1} {a2} : Kept [.fab, .out] x (State.writePortCfg x a1 a2) := by
  unfold State.writePortCfg
  dsimp only
  refine Kept.ite ?_ ?_
  · refine Kept.andThen State.setPort_kept ?_
    exact Kept.refl _
  · refine Kept.ite ?_ ?_
    · refine Kept.andThen State.setPort_kept ?_
      exact Kept.refl _
    · refine Kept.ite ?_ ?_
      · refine Kept.andThen State.detectPort_kept ?_
        exact Kept.refl _
      · refine Kept.andThen State.setPort_kept ?_
        exact Kept.refl _

theorem State.writeCoord_kept {x : State} {a1} : Kept [.fab] x (State.writeCoord x a1) := by
  unfold State.writeCoord
  refine Kept.andThen State.setFab_kept ?_
  exact Kept.refl _

theorem State.writeAdmit_kept {x : State} {a1} : Kept [.serve, .fab] x (State.writeAdmit x a1) := by
  unfold State.writeAdmit
  dsimp only
  refine Kept.ite ?_ ?_
  · refine Kept.andThen State.failSteps_kept ?_
    refine Kept.andThen State.setFab_kept ?_
    exact Kept.refl _
  · refine Kept.ite ?_ ?_
    · refine Kept.andThen State.firesFrom_kept ?_
      refine Kept.andThen State.setFab_kept ?_
      exact Kept.refl _
    · refine Kept.andThen State.setFab_kept ?_
      exact Kept.refl _

theorem State.writeThaxaCommit_kept {x : State} {a1} : Kept [.fab] x (State.writeThaxaCommit x a1) := by
  unfold State.writeThaxaCommit
  refine Kept.ite ?_ ?_
  · refine Kept.andThen State.setFab_kept ?_
    exact Kept.refl _
  · exact Kept.refl _

theorem State.dropQueued_kept {x : State} {a1} : Kept [.regs, .arb] x (State.dropQueued x a1) := by
  unfold State.dropQueued
  dsimp only
  refine Kept.andThen State.bumpBy_kept ?_
  refine Kept.upd ?_
  exact Kept.refl _

theorem State.applySpare_kept {x : State} : Kept [.regs, .fab, .arb, .handed] x (State.applySpare x) := by
  unfold State.applySpare
  dsimp only
  split
  · refine Kept.ite ?_ ?_
    · exact Kept.refl _
    · refine Kept.andThen State.regRecord_kept ?_
      refine Kept.andThen State.setFab_kept ?_
      refine Kept.ite ?_ ?_
      · refine Kept.andThen State.dropQueued_kept ?_
        refine Kept.ite ?_ ?_
        · exact Kept.refl _
        · refine Kept.ite ?_ ?_
          · refine Kept.andThen State.dropQueued_kept ?_
            exact Kept.refl _
          · exact Kept.refl _
      · refine Kept.ite ?_ ?_
        · exact Kept.refl _
        · refine Kept.ite ?_ ?_
          · refine Kept.andThen State.dropQueued_kept ?_
            exact Kept.refl _
          · exact Kept.refl _
  · exact Kept.refl _

/-! ### Service -/

theorem State.journalDue_kept {x : State} : Kept [.time, .vault] x (State.journalDue x) := by
  unfold State.journalDue
  split
  · exact Kept.refl _
  · refine Kept.on (State.atTimer_kept ?_) ?_
    · intro _
      refine Kept.andThen State.flushJournal_kept ?_
      exact Kept.refl _
    · exact Kept.refl _

theorem execJournalFlushTimer_kept {x : State} : KeptR [.time, .vault] x (execJournalFlushTimer x) := by
  unfold execJournalFlushTimer
  refine KeptR.next ?_
  refine Kept.andThen State.journalDue_kept ?_
  exact Kept.refl _

theorem State.programmed_kept {x : State} {a1} : Kept [.vault] x (State.programmed x a1) := by
  unfold State.programmed
  dsimp only
  refine Kept.ite ?_ ?_
  · refine Kept.andThen State.journal_kept ?_
    refine Kept.andThen State.setVault_kept ?_
    exact Kept.refl _
  · refine Kept.andThen State.setVault_kept ?_
    exact Kept.refl _

theorem State.quiesce_kept {x : State} : Kept [.vault] x (State.quiesce x) := by
  unfold State.quiesce
  dsimp only
  refine Kept.andThen State.setVault_kept ?_
  refine Kept.andThen State.flushJournal_kept ?_
  refine Kept.foldl _ _ ?_ ?_
  · refine Kept.andThen State.setVault_kept ?_
    exact Kept.refl _
  · intro _ _
    refine Kept.andThen State.programmed_kept ?_
    exact Kept.refl _

theorem execPowerFail_kept {x : State} : KeptR [.vault] x (execPowerFail x) := by
  unfold execPowerFail
  refine KeptR.next ?_
  refine Kept.ite ?_ ?_
  · refine Kept.andThen State.quiesce_kept ?_
    exact Kept.refl _
  · exact Kept.refl _

theorem State.supplyLess_kept {x : State} {k} : Kept [.time, .regs, .arr, .mem, .serve, .vault, .fab, .arb, .chans, .rings, .power, .faults, .ledger, .handed, .sec, .svc] x (x.supplyLess k) :=
  ⟨Memory.filter_wf _ _, Nat.le_refl _, Nat.le_refl _, rfl, List.prefix_refl _,
    fun _ => ⟨List.length_replicate, List.length_replicate, by simp [State.supplyLess, State.reset, HostIf.reset],
      by simp [State.supplyLess, State.reset, HostIf.reset]⟩,
    fun p hp => by cases p <;> first | rfl | exact absurd (by decide) hp⟩

theorem State.setPhase_kept {x : State} {a1} : Kept [.phase] x (State.setPhase x a1) := by
  unfold State.setPhase
  refine Kept.upd ?_
  exact Kept.refl _

theorem State.clearAdmit_kept {x : State} : Kept [.serve, .fab, .handed] x (State.clearAdmit x) := by
  unfold State.clearAdmit
  refine Kept.ite ?_ ?_
  · refine Kept.andThen State.regRecord_kept ?_
    refine Kept.andThen State.writeAdmit_kept ?_
    exact Kept.refl _
  · exact Kept.refl _

theorem State.dropOps_kept {x : State} : Kept [.power] x (State.dropOps x) := by
  unfold State.dropOps
  refine Kept.upd ?_
  exact Kept.refl _

theorem State.latchCause_kept {x : State} {a1} : Kept [.svc] x (State.latchCause x a1) := by
  unfold State.latchCause
  refine Kept.upd ?_
  exact Kept.refl _

theorem State.orderlyHalt_kept {x : State} {a1} : Kept [.time, .regs, .arr, .mem, .serve, .vault, .fab, .arb, .chans, .rings, .power, .faults, .ledger, .handed, .sec, .svc, .phase, .out] x (State.orderlyHalt x a1) := by
  unfold State.orderlyHalt
  refine Kept.ite ?_ ?_
  · dsimp only
    refine Kept.andThen State.setPhase_kept ?_
    refine Kept.andThen State.latchCause_kept ?_
    refine Kept.andThen State.supplyLess_kept ?_
    refine Kept.andThen State.appendAll_kept ?_
    refine Kept.andThen State.alert_kept ?_
    refine Kept.andThen State.event_kept ?_
    refine Kept.andThen State.regRecord_kept ?_
    refine Kept.ite ?_ ?_
    · refine Kept.andThen State.quiesce_kept ?_
      refine Kept.andThen State.abandonAll_kept ?_
      refine Kept.andThen State.failSteps_kept ?_
      refine Kept.andThen State.clearAdmit_kept ?_
      refine Kept.andThen State.dropOps_kept ?_
      exact Kept.refl _
    · refine Kept.andThen State.abandonAll_kept ?_
      refine Kept.andThen State.failSteps_kept ?_
      refine Kept.andThen State.clearAdmit_kept ?_
      refine Kept.andThen State.dropOps_kept ?_
      exact Kept.refl _
  · refine Kept.ite ?_ ?_
    · refine Kept.andThen State.setPhase_kept ?_
      refine Kept.andThen State.latchCause_kept ?_
      refine Kept.andThen State.supplyLess_kept ?_
      exact Kept.refl _
    · exact Kept.refl _

theorem State.fwRecord_kept {x : State} {a1} {a2} {a3} : Kept [.handed] x (State.fwRecord x a1 a2 a3) := by
  unfold State.fwRecord
  refine Kept.andThen State.hand_kept ?_
  exact Kept.refl _

theorem State.openRing_kept {x : State} {b} : Kept [.regs, .rings, .ledger, .handed, .out] x (x.openRing b) :=
  have h {y : State} {l} : Kept [.regs, .rings, .ledger, .handed, .out] y (y.setLedger l) := Kept.upd (Kept.refl _)
  Kept.on h (Kept.on (State.append_kept.mono (by decide)) h)

theorem Kept.svcHeld {x : State} {l} : Kept [.handed] x { x with svc := { x.svc with held := l } } := Kept.upd (Kept.refl _)

theorem State.startLedger_kept {x : State} {ok dg} : Kept [.time, .regs, .rings, .ledger, .handed, .out] x (x.startLedger ok dg) :=
  Kept.foldl _ _ (Kept.on (Kept.svcHeld.mono (by decide)) (State.openRing_kept.mono (by decide)))
    fun _ _ => Kept.on (State.append_kept.mono (by decide)) (State.runTo_kept.mono (by decide))

theorem State.freeExtent_kept {x : State} {a1} : Kept [.vault] x (State.freeExtent x a1) := by
  unfold State.freeExtent
  refine Kept.foldl _ _ ?_ ?_
  · exact Kept.refl _
  · intro _ _
    refine Kept.andThen State.journal_kept ?_
    exact Kept.refl _

theorem State.discardInstall_kept {x : State} : Kept [.regs] x (State.discardInstall x) := by
  unfold State.discardInstall
  refine Kept.andThen State.bump_kept ?_
  exact Kept.refl _

theorem State.discardEntry_kept {x : State} {a1} : Kept [.regs, .vault, .handed] x (State.discardEntry x a1) := by
  unfold State.discardEntry
  dsimp only
  refine Kept.andThen State.hand_kept ?_
  refine Kept.andThen State.setVault_kept ?_
  refine Kept.andThen State.freeExtent_kept ?_
  refine Kept.andThen State.discardInstall_kept ?_
  exact Kept.refl _

theorem State.replayJournal_kept {x : State} {a1} : Kept [.regs, .vault] x (State.replayJournal x a1) := by
  unfold State.replayJournal
  dsimp only
  refine Kept.andThen State.bumpBy_kept ?_
  refine Kept.andThen State.setVault_kept ?_
  exact Kept.refl _

theorem State.rebuildMap_kept {x : State} {a1} : Kept [.regs, .vault, .handed] x (State.rebuildMap x a1) := by
  unfold State.rebuildMap
  dsimp only
  refine Kept.andThen State.flushJournal_kept ?_
  refine Kept.foldl _ _ ?_ ?_
  · refine Kept.andThen State.setVault_kept ?_
    refine Kept.andThen State.replayJournal_kept ?_
    exact Kept.refl _
  · intro _ _
    refine Kept.andThen State.discardEntry_kept ?_
    exact Kept.refl _

theorem State.setRodMap_kept {x : State} {a1} {a2} : Kept [.regs, .arr, .mem] x (State.setRodMap x a1 a2) := by
  unfold State.setRodMap
  dsimp only
  refine Kept.ite ?_ ?_
  · refine Kept.andThen State.setReg_kept ?_
    exact Kept.refl _
  · refine Kept.andThen State.setReg_kept ?_
    refine Kept.ite ?_ ?_
    · refine Kept.andThen State.remapRod_kept ?_
      refine Kept.ite ?_ ?_
      · refine Kept.andThen State.unmapRod_kept ?_
        exact Kept.refl _
      · exact Kept.refl _
    · refine Kept.ite ?_ ?_
      · refine Kept.andThen State.unmapRod_kept ?_
        exact Kept.refl _
      · exact Kept.refl _

theorem State.setLk_kept {x : State} {a1} {a2} : Kept [.regs, .arr, .mem, .faults] x (State.setLk x a1 a2) := by
  unfold State.setLk
  refine Kept.ite ?_ ?_
  · refine Kept.andThen State.setFaults_kept ?_
    exact Kept.refl _
  · refine Kept.ite ?_ ?_
    · refine Kept.andThen State.setFaults_kept ?_
      exact Kept.refl _
    · refine Kept.ite ?_ ?_
      · refine Kept.andThen State.setFaults_kept ?_
        exact Kept.refl _
      · refine Kept.ite ?_ ?_
        · refine Kept.andThen State.setFaults_kept ?_
          exact Kept.refl _
        · refine Kept.andThen State.setRodMap_kept ?_
          exact Kept.refl _

theorem State.bootWrite_kept {x : State} {a1} {a2} : Kept [.time, .regs, .arr, .mem, .faults, .handed] x (State.bootWrite x a1 a2) := by
  unfold State.bootWrite
  dsimp only
  refine Kept.andThen State.regRecord_kept ?_
  refine Kept.andThen State.setLk_kept ?_
  refine Kept.andThen State.runTo_kept ?_
  exact Kept.refl _

theorem State.degradeFromFences_kept {x : State} : Kept [.regs, .rings, .faults, .handed, .out] x (State.degradeFromFences x) := by
  unfold State.degradeFromFences
  dsimp only
  refine Kept.ite ?_ ?_
  · refine Kept.andThen State.degrade_kept ?_
    refine Kept.ite ?_ ?_
    · refine Kept.andThen State.degrade_kept ?_
      split
      · refine Kept.andThen State.degrade_kept ?_
        refine Kept.ite ?_ ?_
        · refine Kept.andThen State.degrade_kept ?_
          split
          · refine Kept.andThen State.degrade_kept ?_
            refine Kept.foldl _ _ ?_ ?_
            · exact Kept.refl _
            · intro _ _
              refine Kept.ite ?_ ?_
              · refine Kept.andThen State.degrade_kept ?_
                exact Kept.refl _
              · exact Kept.refl _
          · refine Kept.foldl _ _ ?_ ?_
            · exact Kept.refl _
            · intro _ _
              refine Kept.ite ?_ ?_
              · refine Kept.andThen State.degrade_kept ?_
                exact Kept.refl _
              · exact Kept.refl _
        · split
          · refine Kept.andThen State.degrade_kept ?_
            refine Kept.foldl _ _ ?_ ?_
            · exact Kept.refl _
            · intro _ _
              refine Kept.ite ?_ ?_
              · refine Kept.andThen State.degrade_kept ?_
                exact Kept.refl _
              · exact Kept.refl _
          · refine Kept.foldl _ _ ?_ ?_
            · exact Kept.refl _
            · intro _ _
              refine Kept.ite ?_ ?_
              · refine Kept.andThen State.degrade_kept ?_
                exact Kept.refl _
              · exact Kept.refl _
      · refine Kept.ite ?_ ?_
        · refine Kept.andThen State.degrade_kept ?_
          split
          · refine Kept.andThen State.degrade_kept ?_
            refine Kept.foldl _ _ ?_ ?_
            · exact Kept.refl _
            · intro _ _
              refine Kept.ite ?_ ?_
              · refine Kept.andThen State.degrade_kept ?_
                exact Kept.refl _
              · exact Kept.refl _
          · refine Kept.foldl _ _ ?_ ?_
            · exact Kept.refl _
            · intro _ _
              refine Kept.ite ?_ ?_
              · refine Kept.andThen State.degrade_kept ?_
                exact Kept.refl _
              · exact Kept.refl _
        · split
          · refine Kept.andThen State.degrade_kept ?_
            refine Kept.foldl _ _ ?_ ?_
            · exact Kept.refl _
            · intro _ _
              refine Kept.ite ?_ ?_
              · refine Kept.andThen State.degrade_kept ?_
                exact Kept.refl _
              · exact Kept.refl _
          · refine Kept.foldl _ _ ?_ ?_
            · exact Kept.refl _
            · intro _ _
              refine Kept.ite ?_ ?_
              · refine Kept.andThen State.degrade_kept ?_
                exact Kept.refl _
              · exact Kept.refl _
    · split
      · refine Kept.andThen State.degrade_kept ?_
        refine Kept.ite ?_ ?_
        · refine Kept.andThen State.degrade_kept ?_
          split
          · refine Kept.andThen State.degrade_kept ?_
            refine Kept.foldl _ _ ?_ ?_
            · exact Kept.refl _
            · intro _ _
              refine Kept.ite ?_ ?_
              · refine Kept.andThen State.degrade_kept ?_
                exact Kept.refl _
              · exact Kept.refl _
          · refine Kept.foldl _ _ ?_ ?_
            · exact Kept.refl _
            · intro _ _
              refine Kept.ite ?_ ?_
              · refine Kept.andThen State.degrade_kept ?_
                exact Kept.refl _
              · exact Kept.refl _
        · split
          · refine Kept.andThen State.degrade_kept ?_
            refine Kept.foldl _ _ ?_ ?_
            · exact Kept.refl _
            · intro _ _
              refine Kept.ite ?_ ?_
              · refine Kept.andThen State.degrade_kept ?_
                exact Kept.refl _
              · exact Kept.refl _
          · refine Kept.foldl _ _ ?_ ?_
            · exact Kept.refl _
            · intro _ _
              refine Kept.ite ?_ ?_
              · refine Kept.andThen State.degrade_kept ?_
                exact Kept.refl _
              · exact Kept.refl _
      · refine Kept.ite ?_ ?_
        · refine Kept.andThen State.degrade_kept ?_
          split
          · refine Kept.andThen State.degrade_kept ?_
            refine Kept.foldl _ _ ?_ ?_
            · exact Kept.refl _
            · intro _ _
              refine Kept.ite ?_ ?_
              · refine Kept.andThen State.degrade_kept ?_
                exact Kept.refl _
              · exact Kept.refl _
          · refine Kept.foldl _ _ ?_ ?_
            · exact Kept.refl _
            · intro _ _
              refine Kept.ite ?_ ?_
              · refine Kept.andThen State.degrade_kept ?_
                exact Kept.refl _
              · exact Kept.refl _
        · split
          · refine Kept.andThen State.degrade_kept ?_
            refine Kept.foldl _ _ ?_ ?_
            · exact Kept.refl _
            · intro _ _
              refine Kept.ite ?_ ?_
              · refine Kept.andThen State.degrade_kept ?_
                exact Kept.refl _
              · exact Kept.refl _
          · refine Kept.foldl _ _ ?_ ?_
            · exact Kept.refl _
            · intro _ _
              refine Kept.ite ?_ ?_
              · refine Kept.andThen State.degrade_kept ?_
                exact Kept.refl _
              · exact Kept.refl _
  · refine Kept.ite ?_ ?_
    · refine Kept.andThen State.degrade_kept ?_
      split
      · refine Kept.andThen State.degrade_kept ?_
        refine Kept.ite ?_ ?_
        · refine Kept.andThen State.degrade_kept ?_
          split
          · refine Kept.andThen State.degrade_kept ?_
            refine Kept.foldl _ _ ?_ ?_
            · exact Kept.refl _
            · intro _ _
              refine Kept.ite ?_ ?_
              · refine Kept.andThen State.degrade_kept ?_
                exact Kept.refl _
              · exact Kept.refl _
          · refine Kept.foldl _ _ ?_ ?_
            · exact Kept.refl _
            · intro _ _
              refine Kept.ite ?_ ?_
              · refine Kept.andThen State.degrade_kept ?_
                exact Kept.refl _
              · exact Kept.refl _
        · split
          · refine Kept.andThen State.degrade_kept ?_
            refine Kept.foldl _ _ ?_ ?_
            · exact Kept.refl _
            · intro _ _
              refine Kept.ite ?_ ?_
              · refine Kept.andThen State.degrade_kept ?_
                exact Kept.refl _
              · exact Kept.refl _
          · refine Kept.foldl _ _ ?_ ?_
            · exact Kept.refl _
            · intro _ _
              refine Kept.ite ?_ ?_
              · refine Kept.andThen State.degrade_kept ?_
                exact Kept.refl _
              · exact Kept.refl _
      · refine Kept.ite ?_ ?_
        · refine Kept.andThen State.degrade_kept ?_
          split
          · refine Kept.andThen State.degrade_kept ?_
            refine Kept.foldl _ _ ?_ ?_
            · exact Kept.refl _
            · intro _ _
              refine Kept.ite ?_ ?_
              · refine Kept.andThen State.degrade_kept ?_
                exact Kept.refl _
              · exact Kept.refl _
          · refine Kept.foldl _ _ ?_ ?_
            · exact Kept.refl _
            · intro _ _
              refine Kept.ite ?_ ?_
              · refine Kept.andThen State.degrade_kept ?_
                exact Kept.refl _
              · exact Kept.refl _
        · split
          · refine Kept.andThen State.degrade_kept ?_
            refine Kept.foldl _ _ ?_ ?_
            · exact Kept.refl _
            · intro _ _
              refine Kept.ite ?_ ?_
              · refine Kept.andThen State.degrade_kept ?_
                exact Kept.refl _
              · exact Kept.refl _
          · refine Kept.foldl _ _ ?_ ?_
            · exact Kept.refl _
            · intro _ _
              refine Kept.ite ?_ ?_
              · refine Kept.andThen State.degrade_kept ?_
                exact Kept.refl _
              · exact Kept.refl _
    · split
      · refine Kept.andThen State.degrade_kept ?_
        refine Kept.ite ?_ ?_
        · refine Kept.andThen State.degrade_kept ?_
          split
          · refine Kept.andThen State.degrade_kept ?_
            refine Kept.foldl _ _ ?_ ?_
            · exact Kept.refl _
            · intro _ _
              refine Kept.ite ?_ ?_
              · refine Kept.andThen State.degrade_kept ?_
                exact Kept.refl _
              · exact Kept.refl _
          · refine Kept.foldl _ _ ?_ ?_
            · exact Kept.refl _
            · intro _ _
              refine Kept.ite ?_ ?_
              · refine Kept.andThen State.degrade_kept ?_
                exact Kept.refl _
              · exact Kept.refl _
        · split
          · refine Kept.andThen State.degrade_kept ?_
            refine Kept.foldl _ _ ?_ ?_
            · exact Kept.refl _
            · intro _ _
              refine Kept.ite ?_ ?_
              · refine Kept.andThen State.degrade_kept ?_
                exact Kept.refl _
              · exact Kept.refl _
          · refine Kept.foldl _ _ ?_ ?_
            · exact Kept.refl _
            · intro _ _
              refine Kept.ite ?_ ?_
              · refine Kept.andThen State.degrade_kept ?_
                exact Kept.refl _
              · exact Kept.refl _
      · refine Kept.ite ?_ ?_
        · refine Kept.andThen State.degrade_kept ?_
          split
          · refine Kept.andThen State.degrade_kept ?_
            refine Kept.foldl _ _ ?_ ?_
            · exact Kept.refl _
            · intro _ _
              refine Kept.ite ?_ ?_
              · refine Kept.andThen State.degrade_kept ?_
                exact Kept.refl _
              · exact Kept.refl _
          · refine Kept.foldl _ _ ?_ ?_
            · exact Kept.refl _
            · intro _ _
              refine Kept.ite ?_ ?_
              · refine Kept.andThen State.degrade_kept ?_
                exact Kept.refl _
              · exact Kept.refl _
        · split
          · refine Kept.andThen State.degrade_kept ?_
            refine Kept.foldl _ _ ?_ ?_
            · exact Kept.refl _
            · intro _ _
              refine Kept.ite ?_ ?_
              · refine Kept.andThen State.degrade_kept ?_
                exact Kept.refl _
              · exact Kept.refl _
          · refine Kept.foldl _ _ ?_ ?_
            · exact Kept.refl _
            · intro _ _
              refine Kept.ite ?_ ?_
              · refine Kept.andThen State.degrade_kept ?_
                exact Kept.refl _
              · exact Kept.refl _

theorem State.setLock_kept {x : State} {a1} : Kept [.handed, .svc, .phase] x (State.setLock x a1) := by
  unfold State.setLock
  dsimp only
  refine Kept.andThen State.regRecord_kept ?_
  refine Kept.ite ?_ ?_
  · refine Kept.andThen State.setPhase_kept ?_
    refine Kept.upd ?_
    exact Kept.refl _
  · refine Kept.upd ?_
    exact Kept.refl _

theorem State.firmware_kept {x : State} {im} : Kept [.time, .regs, .arr, .mem, .fab, .rings, .faults, .handed, .sec, .svc, .phase, .out] x (x.firmware im) := by
  unfold State.firmware
  extract_lets _ s1 s2 s3 _ s4 _ s5
  have h1 : Kept [.time, .regs, .arr, .mem, .fab, .rings, .faults, .handed, .sec, .svc, .phase, .out] x s1 := Kept.upd (Kept.refl _)
  have h2 : Kept [.time, .regs, .arr, .mem, .fab, .rings, .faults, .handed, .sec, .svc, .phase, .out] x s2 := State.reserveLeaves_kept.andThen h1
  have h3 : Kept [.time, .regs, .arr, .mem, .fab, .rings, .faults, .handed, .sec, .svc, .phase, .out] x s3 := Kept.foldl _ _ h2 fun y a => State.bootWrite_kept.mono (by decide)
  clear_value s3
  have h4 : Kept [.time, .regs, .arr, .mem, .fab, .rings, .faults, .handed, .sec, .svc, .phase, .out] x s4 := State.setFaults_kept.andThen h3
  clear_value s4
  have h5 : Kept [.time, .regs, .arr, .mem, .fab, .rings, .faults, .handed, .sec, .svc, .phase, .out] x s5 := Kept.andThen (State.setFab_kept) h4
  clear_value s5
  exact State.setLock_kept.andThen (State.degradeFromFences_kept.andThen h5)

theorem State.trainHbm_kept {x : State} {a1} : Kept [.regs, .vault, .rings, .faults, .handed, .svc, .out] x (State.trainHbm x a1) := by
  unfold State.trainHbm
  dsimp only
  refine Kept.upd ?_
  refine Kept.foldl _ _ ?_ ?_
  · exact Kept.refl _
  · intro _ _
    refine Kept.ite ?_ ?_
    · exact Kept.refl _
    · refine Kept.andThen State.fenceChannel_kept ?_
      exact Kept.refl _

theorem State.bootImage_kept {x : State} {a1} {a2} {a3} : Kept [.time, .regs, .arr, .mem, .vault, .fab, .rings, .faults, .handed, .sec, .svc, .phase, .out] x (State.bootImage x a1 a2 a3) := by
  unfold State.bootImage
  dsimp only
  split
  · refine Kept.ite ?_ ?_
    · refine Kept.ite ?_ ?_
      · refine Kept.andThen State.trainHbm_kept ?_
        refine Kept.andThen State.firmware_kept ?_
        refine Kept.andThen State.setPhase_kept ?_
        refine Kept.andThen State.fwRecord_kept ?_
        exact Kept.refl _
      · refine Kept.andThen State.firmware_kept ?_
        refine Kept.andThen State.setPhase_kept ?_
        refine Kept.andThen State.fwRecord_kept ?_
        exact Kept.refl _
    · refine Kept.andThen State.emit_kept ?_
      refine Kept.upd ?_
      refine Kept.andThen State.setPhase_kept ?_
      refine Kept.andThen State.fwRecord_kept ?_
      refine Kept.andThen State.fwRecord_kept ?_
      exact Kept.refl _
  · refine Kept.andThen State.emit_kept ?_
    refine Kept.upd ?_
    refine Kept.andThen State.setPhase_kept ?_
    refine Kept.andThen State.fwRecord_kept ?_
    exact Kept.refl _

theorem State.start_kept {x : State} {a1} : Kept [.time, .regs, .arr, .mem, .vault, .fab, .rings, .faults, .ledger, .handed, .sec, .svc, .phase, .out] x (State.start x a1) := by
  unfold State.start
  dsimp only
  refine Kept.andThen State.bootImage_kept ?_
  refine Kept.andThen State.rebuildMap_kept ?_
  refine Kept.andThen State.startLedger_kept ?_
  refine Kept.andThen State.setPhase_kept ?_
  refine Kept.upd ?_
  exact Kept.refl _

theorem State.applyVstby_kept {x : State} : Kept [.svc] x (State.applyVstby x) := by
  unfold State.applyVstby
  refine Kept.upd ?_
  exact Kept.refl _

theorem execVstbyApplied_kept {x : State} : KeptR [.svc] x (execVstbyApplied x) := by
  unfold execVstbyApplied
  refine KeptR.next ?_
  refine Kept.andThen State.applyVstby_kept ?_
  exact Kept.refl _

theorem State.mainOn_kept {x : State} {a1} : Kept [.time, .regs, .arr, .mem, .vault, .fab, .rings, .faults, .ledger, .handed, .sec, .svc, .phase, .out] x (State.mainOn x a1) := by
  unfold State.mainOn
  dsimp only
  refine Kept.ite ?_ ?_
  · refine Kept.andThen State.start_kept ?_
    refine Kept.upd ?_
    exact Kept.refl _
  · refine Kept.ite ?_ ?_
    · refine Kept.andThen State.setPhase_kept ?_
      refine Kept.upd ?_
      exact Kept.refl _
    · refine Kept.upd ?_
      exact Kept.refl _

theorem execMainEnAssert_kept {x : State} {a0} : KeptR [.time, .regs, .arr, .mem, .vault, .fab, .rings, .faults, .ledger, .handed, .sec, .platform, .svc, .phase, .out] x (execMainEnAssert a0 x) := by
  unfold execMainEnAssert
  refine KeptR.next ?_
  refine Kept.on (State.watched_kept ?_) ?_
  · intro _
    refine Kept.andThen State.mainOn_kept ?_
    exact Kept.refl _
  · exact Kept.refl _

theorem State.loseVhbm_kept {x : State} : Kept [.time, .regs, .arr, .mem, .serve, .vault, .fab, .arb, .chans, .rings, .power, .faults, .ledger, .handed, .sec, .svc, .phase] x (State.loseVhbm x) := by
  unfold State.loseVhbm
  refine Kept.ite ?_ ?_
  · dsimp only
    refine Kept.upd ?_
    refine Kept.andThen State.setPhase_kept ?_
    refine Kept.andThen State.supplyLess_kept ?_
    exact Kept.refl _
  · exact Kept.refl _

theorem execVhbmLoss_kept {x : State} : KeptR [.time, .regs, .arr, .mem, .serve, .vault, .fab, .arb, .chans, .rings, .power, .faults, .ledger, .handed, .sec, .platform, .svc, .phase, .out] x (execVhbmLoss x) := by
  unfold execVhbmLoss
  refine KeptR.next ?_
  refine Kept.on (State.watched_kept ?_) ?_
  · intro _
    refine Kept.andThen State.loseVhbm_kept ?_
    exact Kept.refl _
  · exact Kept.refl _

theorem State.mainOff_kept {x : State} : Kept [.time, .regs, .arr, .mem, .serve, .vault, .fab, .arb, .chans, .rings, .power, .faults, .ledger, .handed, .sec, .svc, .phase, .out] x (State.mainOff x) := by
  unfold State.mainOff
  dsimp only
  split
  · refine Kept.andThen State.orderlyHalt_kept ?_
    refine Kept.upd ?_
    exact Kept.refl _
  · refine Kept.andThen State.orderlyHalt_kept ?_
    refine Kept.upd ?_
    exact Kept.refl _
  · refine Kept.andThen State.orderlyHalt_kept ?_
    refine Kept.upd ?_
    exact Kept.refl _
  · refine Kept.andThen State.orderlyHalt_kept ?_
    refine Kept.upd ?_
    exact Kept.refl _
  · refine Kept.andThen State.orderlyHalt_kept ?_
    refine Kept.upd ?_
    exact Kept.refl _
  · refine Kept.andThen State.latchCause_kept ?_
    refine Kept.andThen State.loseVhbm_kept ?_
    refine Kept.upd ?_
    exact Kept.refl _
  · refine Kept.upd ?_
    exact Kept.refl _

theorem execMainEnDeassert_kept {x : State} : KeptR [.time, .regs, .arr, .mem, .serve, .vault, .fab, .arb, .chans, .rings, .power, .faults, .ledger, .handed, .sec, .platform, .svc, .phase, .out] x (execMainEnDeassert x) := by
  unfold execMainEnDeassert
  refine KeptR.next ?_
  refine Kept.on (State.watched_kept ?_) ?_
  · intro _
    refine Kept.andThen State.mainOff_kept ?_
    exact Kept.refl _
  · exact Kept.refl _

theorem execPresentSenseLoss_kept {x : State} : KeptR [.time, .regs, .arr, .mem, .serve, .vault, .fab, .arb, .chans, .rings, .power, .faults, .ledger, .handed, .sec, .platform, .svc, .phase, .out] x (execPresentSenseLoss x) := by
  unfold execPresentSenseLoss
  refine KeptR.next ?_
  refine Kept.on (State.watched_kept ?_) ?_
  · intro _
    refine Kept.andThen State.orderlyHalt_kept ?_
    exact Kept.refl _
  · exact Kept.refl _

theorem State.loseInputs_kept {x : State} : Kept [.time, .regs, .arr, .mem, .serve, .vault, .fab, .arb, .chans, .rings, .power, .faults, .ledger, .handed, .sec, .platform, .svc, .phase, .out] x (State.loseInputs x) := by
  unfold State.loseInputs
  dsimp only
  refine Kept.upd ?_
  refine Kept.andThen State.supplyLess_kept ?_
  refine Kept.andThen State.orderlyHalt_kept ?_
  exact Kept.refl _

theorem execInputLoss_kept {x : State} : KeptR [.time, .regs, .arr, .mem, .serve, .vault, .fab, .arb, .chans, .rings, .power, .faults, .ledger, .handed, .sec, .platform, .svc, .phase, .out] x (execInputLoss x) := by
  unfold execInputLoss
  refine KeptR.next ?_
  refine Kept.on (State.watched_kept ?_) ?_
  · intro _
    refine Kept.andThen State.loseInputs_kept ?_
    exact Kept.refl _
  · exact Kept.refl _

theorem State.loseRef_kept {x : State} : Kept [.time, .regs, .serve, .fab, .rings, .faults, .handed, .svc, .out] x (State.loseRef x) := by
  unfold State.loseRef
  dsimp only
  refine Kept.ite ?_ ?_
  · refine Kept.foldl _ _ ?_ ?_
    · refine Kept.andThen State.clearAdmit_kept ?_
      refine Kept.andThen State.refLost_kept ?_
      refine Kept.upd ?_
      exact Kept.refl _
    · intro _ _
      refine Kept.ite ?_ ?_
      · refine Kept.andThen State.linkError_kept ?_
        exact Kept.refl _
      · exact Kept.refl _
  · refine Kept.upd ?_
    exact Kept.refl _

theorem execRefLoss_kept {x : State} : KeptR [.time, .regs, .serve, .fab, .rings, .faults, .handed, .platform, .svc, .out] x (execRefLoss x) := by
  unfold execRefLoss
  refine KeptR.next ?_
  refine Kept.on (State.watched_kept ?_) ?_
  · intro _
    refine Kept.andThen State.loseRef_kept ?_
    exact Kept.refl _
  · exact Kept.refl _

theorem execRef100Return_kept {x : State} : KeptR [.svc] x (execRef100Return x) := by
  unfold execRef100Return
  refine KeptR.next ?_
  refine Kept.upd ?_
  exact Kept.refl _

theorem State.serviceEvent_kept {x : State} {a1} {a2} : Kept [.regs, .rings, .out] x (State.serviceEvent x a1 a2) := by
  unfold State.serviceEvent
  refine Kept.andThen State.alert_kept ?_
  refine Kept.andThen State.event_kept ?_
  exact Kept.refl _

theorem execBringUpBoundExpiry_kept {x : State} {a0} : KeptR [.regs, .rings, .out] x (execBringUpBoundExpiry a0 x) := by
  unfold execBringUpBoundExpiry
  dsimp only
  refine KeptR.next ?_
  refine Kept.andThen State.serviceEvent_kept ?_
  exact Kept.refl _

theorem State.recoverImage_kept {x : State} {a1} {a2} : Kept [.time, .regs, .arr, .mem, .vault, .fab, .rings, .faults, .handed, .sec, .svc, .phase, .out] x (State.recoverImage x a1 a2) := by
  unfold State.recoverImage
  refine Kept.ite ?_ ?_
  · exact Kept.refl _
  · refine Kept.ite ?_ ?_
    · dsimp only
      refine Kept.andThen State.bootImage_kept ?_
      refine Kept.upd ?_
      refine Kept.andThen State.setVault_kept ?_
      exact Kept.refl _
    · refine Kept.andThen State.fwRecord_kept ?_
      exact Kept.refl _

theorem execRecoveryImageReceived_kept {x : State} {a0} {a1} : KeptR [.time, .regs, .arr, .mem, .vault, .fab, .rings, .faults, .handed, .sec, .platform, .svc, .phase, .out] x (execRecoveryImageReceived a0 a1 x) := by
  unfold execRecoveryImageReceived
  refine KeptR.next ?_
  refine Kept.on (State.watched_kept ?_) ?_
  · intro _
    refine Kept.andThen State.recoverImage_kept ?_
    exact Kept.refl _
  · exact Kept.refl _

theorem State.resetModule_kept {x : State} {a1} : Kept [.time, .regs, .arr, .mem, .serve, .vault, .fab, .arb, .chans, .rings, .power, .faults, .ledger, .handed, .sec, .svc, .phase, .out] x (State.resetModule x a1) := by
  unfold State.resetModule
  dsimp only
  refine Kept.ite ?_ ?_
  · refine Kept.andThen State.start_kept ?_
    refine Kept.andThen State.setPhase_kept ?_
    refine Kept.andThen State.latchCause_kept ?_
    refine Kept.andThen State.supplyLess_kept ?_
    refine Kept.andThen State.orderlyHalt_kept ?_
    exact Kept.refl _
  · refine Kept.andThen State.setPhase_kept ?_
    refine Kept.andThen State.latchCause_kept ?_
    refine Kept.andThen State.supplyLess_kept ?_
    refine Kept.andThen State.orderlyHalt_kept ?_
    exact Kept.refl _

end Sys2Proof.Machine
end

