-- ==== Sys2Proof/Laws/Kept3.lean ====
section
/-! SUPPORT. What the operations and the commands of Machine/Security.lean, Machine/Beads.lean, Machine/Recover.lean, Machine/Blocks.lean, Machine/Matrix.lean keep (Laws/Kept.lean). -/
set_option Elab.async false

namespace Sys2Proof.Machine

/-! ### Security -/

theorem State.setSec_kept {x : State} {c} (hs : x.sec.fusedSvn ≤ c.fusedSvn := by exact Nat.le_refl _)
    (hb : x.sec.blocks ≤ c.blocks := by exact Nat.le_refl _) : Kept [.sec, .platform] x (x.setSec c) :=
  Kept.upd (Kept.refl _) rfl hs hb

theorem State.changing_kept {x : State} {a1} {a2} {P : List Part}
    (h2 : ∀ y, Kept P y (a2 y).2.2)
    (hq : [.regs] ⊆ P := by first | with_reducible exact List.Subset.refl _ | decide | (refine List.Subset.trans ?_ (by assumption); decide)) : Kept P x (State.changing x a1 a2).2.2 := by
  unfold State.changing
  split
  · dsimp only
    refine Kept.andThen State.bump_kept ?_
    exact Kept.refl _
  · refine Kept.andThen (h2 ..) ?_
    exact Kept.refl _

theorem State.allowedTo_kept {x : State} {a1} {a2} {a3} {P : List Part}
    (h3 : ∀ y, Kept P y (a3 y).2.2)
    (hq : [] ⊆ P := by first | with_reducible exact List.Subset.refl _ | decide | (refine List.Subset.trans ?_ (by assumption); decide)) : Kept P x (State.allowedTo x a1 a2 a3).2.2 := by
  unfold State.allowedTo
  split
  · refine Kept.andThen (h3 ..) ?_
    exact Kept.refl _
  · exact Kept.refl _

theorem State.identity_kept {x : State} {a1} : Kept [] x (State.identity x a1).2.2 := by
  unfold State.identity
  refine Kept.on (State.allowedTo_kept ?_) ?_
  · intro _
    exact Kept.refl _
  · exact Kept.refl _

theorem State.readLedger_kept {x : State} {a1} {a2} : Kept [] x (State.readLedger x a1 a2).2.2 := by
  unfold State.readLedger
  refine Kept.on (State.allowedTo_kept ?_) ?_
  · intro _
    exact Kept.refl _
  · exact Kept.refl _

theorem State.readCkpt_kept {x : State} {a1} {a2} : Kept [] x (State.readCkpt x a1 a2).2.2 := by
  unfold State.readCkpt
  refine Kept.on (State.allowedTo_kept ?_) ?_
  · intro _
    split
    · exact Kept.refl _
    · exact Kept.refl _
  · exact Kept.refl _

theorem State.setKey_kept {x : State} {a1} {a2} {a3} {a4} : Kept [.regs, .handed, .sec] x (State.setKey x a1 a2 a3 a4).2.2 := by
  unfold State.setKey
  refine Kept.on (State.allowedTo_kept ?_) ?_
  · intro _
    split
    · exact Kept.refl _
    · refine Kept.on (State.changing_kept ?_) ?_
      · intro _
        dsimp only
        refine Kept.andThen State.hand_kept ?_
        refine Kept.upd ?_
        exact Kept.refl _
      · exact Kept.refl _
  · exact Kept.refl _

theorem State.revokeKey_kept {x : State} {a1} {a2} : Kept [.regs, .handed, .sec] x (State.revokeKey x a1 a2).2.2 := by
  unfold State.revokeKey
  refine Kept.on (State.allowedTo_kept ?_) ?_
  · intro _
    dsimp only
    split
    · exact Kept.refl _
    · refine Kept.on (State.changing_kept ?_) ?_
      · intro _
        dsimp only
        refine Kept.andThen State.hand_kept ?_
        refine Kept.upd ?_
        exact Kept.refl _
      · exact Kept.refl _
  · exact Kept.refl _

theorem State.beginUpdate_kept {x : State} {a1} {a2} : Kept [.regs, .sec] x (State.beginUpdate x a1 a2).2.2 := by
  unfold State.beginUpdate
  refine Kept.on (State.allowedTo_kept ?_) ?_
  · intro _
    split
    · exact Kept.refl _
    · refine Kept.on (State.changing_kept ?_) ?_
      · intro _
        dsimp only
        refine Kept.upd ?_
        exact Kept.refl _
      · exact Kept.refl _
  · exact Kept.refl _

theorem State.dataUpdate_kept {x : State} {a1} {a2} {a3} : Kept [.sec] x (State.dataUpdate x a1 a2 a3).2.2 := by
  unfold State.dataUpdate
  refine Kept.on (State.allowedTo_kept ?_) ?_
  · intro _
    dsimp only
    split
    · exact Kept.refl _
    · split
      · exact Kept.refl _
      · dsimp only
        refine Kept.upd ?_
        exact Kept.refl _
  · exact Kept.refl _

theorem State.endUpdate_kept {x : State} {a1} : Kept [.regs, .vault, .handed, .sec] x (State.endUpdate x a1).2.2 := by
  unfold State.endUpdate
  refine Kept.on (State.allowedTo_kept ?_) ?_
  · intro _
    dsimp only
    split
    · exact Kept.refl _
    · refine Kept.on (State.changing_kept ?_) ?_
      · intro _
        split
        · dsimp only
          refine Kept.andThen State.hand_kept ?_
          refine Kept.andThen State.journal_kept ?_
          refine Kept.andThen State.setVault_kept ?_
          refine Kept.upd ?_
          exact Kept.refl _
        · dsimp only
          refine Kept.andThen State.hand_kept ?_
          refine Kept.upd ?_
          exact Kept.refl _
      · exact Kept.refl _
  · exact Kept.refl _

theorem State.message_kept {x : State} {a1} {a2} {P : List Part}
    (h2 : ∀ y, Kept P y (a2 y).2.2)
    (hq : [.out] ⊆ P := by first | with_reducible exact List.Subset.refl _ | decide | (refine List.Subset.trans ?_ (by assumption); decide)) : Kept P x (State.message x a1 a2) := by
  unfold State.message
  refine Kept.ite ?_ ?_
  · dsimp only
    refine Kept.andThen State.emit_kept ?_
    refine Kept.andThen (h2 ..) ?_
    exact Kept.refl _
  · exact Kept.refl _

theorem execIdentityRead_kept {x : State} {a0} : KeptR [.out] x (execIdentityRead a0 x) := by
  unfold execIdentityRead
  refine KeptR.next ?_
  refine Kept.on (State.message_kept ?_) ?_
  · intro _
    refine Kept.andThen State.identity_kept ?_
    exact Kept.refl _
  · exact Kept.refl _

theorem execLedgerRead_kept {x : State} {a0} {a1} : KeptR [.out] x (execLedgerRead a0 a1 x) := by
  unfold execLedgerRead
  refine KeptR.next ?_
  refine Kept.on (State.message_kept ?_) ?_
  · intro _
    refine Kept.andThen State.readLedger_kept ?_
    exact Kept.refl _
  · exact Kept.refl _

theorem execCkptRead_kept {x : State} {a0} {a1} : KeptR [.out] x (execCkptRead a0 a1 x) := by
  unfold execCkptRead
  refine KeptR.next ?_
  refine Kept.on (State.message_kept ?_) ?_
  · intro _
    refine Kept.andThen State.readCkpt_kept ?_
    exact Kept.refl _
  · exact Kept.refl _

theorem execPubkeySet_kept {x : State} {a0} {a1} {a2} {a3} : KeptR [.regs, .handed, .sec, .out] x (execPubkeySet a0 a1 a2 a3 x) := by
  unfold execPubkeySet
  refine KeptR.next ?_
  refine Kept.on (State.message_kept ?_) ?_
  · intro _
    refine Kept.andThen State.setKey_kept ?_
    exact Kept.refl _
  · exact Kept.refl _

theorem execPubkeyRevoke_kept {x : State} {a0} {a1} : KeptR [.regs, .handed, .sec, .out] x (execPubkeyRevoke a0 a1 x) := by
  unfold execPubkeyRevoke
  refine KeptR.next ?_
  refine Kept.on (State.message_kept ?_) ?_
  · intro _
    refine Kept.andThen State.revokeKey_kept ?_
    exact Kept.refl _
  · exact Kept.refl _

theorem execFwUpdateBegin_kept {x : State} {a0} {a1} : KeptR [.regs, .sec, .out] x (execFwUpdateBegin a0 a1 x) := by
  unfold execFwUpdateBegin
  refine KeptR.next ?_
  refine Kept.on (State.message_kept ?_) ?_
  · intro _
    refine Kept.andThen State.beginUpdate_kept ?_
    exact Kept.refl _
  · exact Kept.refl _

theorem execFwUpdateData_kept {x : State} {a0} {a1} {a2} : KeptR [.sec, .out] x (execFwUpdateData a0 a1 a2 x) := by
  unfold execFwUpdateData
  refine KeptR.next ?_
  refine Kept.on (State.message_kept ?_) ?_
  · intro _
    refine Kept.andThen State.dataUpdate_kept ?_
    exact Kept.refl _
  · exact Kept.refl _

theorem execFwUpdateEnd_kept {x : State} {a0} : KeptR [.regs, .vault, .handed, .sec, .out] x (execFwUpdateEnd a0 x) := by
  unfold execFwUpdateEnd
  refine KeptR.next ?_
  refine Kept.on (State.message_kept ?_) ?_
  · intro _
    refine Kept.andThen State.endUpdate_kept ?_
    exact Kept.refl _
  · exact Kept.refl _

theorem State.pldm_kept {x : State} {a1} {a2} {P : List Part}
    (h2 : ∀ y, Kept P y (a2 y).2.2)
    (hq : [.out] ⊆ P := by first | with_reducible exact List.Subset.refl _ | decide | (refine List.Subset.trans ?_ (by assumption); decide)) : Kept P x (State.pldm x a1 a2) := by
  unfold State.pldm
  refine Kept.ite ?_ ?_
  · dsimp only
    refine Kept.andThen State.emit_kept ?_
    refine Kept.andThen (h2 ..) ?_
    exact Kept.refl _
  · exact Kept.refl _

theorem execSetTid_kept {x : State} {a0} {a1} : KeptR [.sec, .out] x (execSetTid a0 a1 x) := by
  unfold execSetTid
  refine KeptR.next ?_
  refine Kept.on (State.pldm_kept ?_) ?_
  · intro _
    split
    · exact Kept.refl _
    · dsimp only
      refine Kept.upd ?_
      exact Kept.refl _
  · exact Kept.refl _

theorem execGetTid_kept {x : State} {a0} : KeptR [.out] x (execGetTid a0 x) := by
  unfold execGetTid
  refine KeptR.next ?_
  refine Kept.on (State.pldm_kept ?_) ?_
  · intro _
    exact Kept.refl _
  · exact Kept.refl _

theorem execGetPldmVersion_kept {x : State} {a0} {a1} : KeptR [.out] x (execGetPldmVersion a0 a1 x) := by
  unfold execGetPldmVersion
  refine KeptR.next ?_
  refine Kept.on (State.pldm_kept ?_) ?_
  · intro _
    split
    · exact Kept.refl _
    · split
      · exact Kept.refl _
      · exact Kept.refl _
  · exact Kept.refl _

theorem execGetPldmTypes_kept {x : State} {a0} : KeptR [.out] x (execGetPldmTypes a0 x) := by
  unfold execGetPldmTypes
  refine KeptR.next ?_
  refine Kept.on (State.pldm_kept ?_) ?_
  · intro _
    exact Kept.refl _
  · exact Kept.refl _

theorem execGetPldmCommands_kept {x : State} {a0} {a1} : KeptR [.out] x (execGetPldmCommands a0 a1 x) := by
  unfold execGetPldmCommands
  refine KeptR.next ?_
  refine Kept.on (State.pldm_kept ?_) ?_
  · intro _
    split
    · exact Kept.refl _
    · exact Kept.refl _
  · exact Kept.refl _

theorem execSetEventReceiver_kept {x : State} {a0} {a1} : KeptR [.sec, .out] x (execSetEventReceiver a0 a1 x) := by
  unfold execSetEventReceiver
  refine KeptR.next ?_
  refine Kept.on (State.pldm_kept ?_) ?_
  · intro _
    dsimp only
    refine Kept.upd ?_
    exact Kept.refl _
  · exact Kept.refl _

theorem execGetPdrRepositoryInfo_kept {x : State} {a0} : KeptR [.out] x (execGetPdrRepositoryInfo a0 x) := by
  unfold execGetPdrRepositoryInfo
  refine KeptR.next ?_
  refine Kept.on (State.pldm_kept ?_) ?_
  · intro _
    exact Kept.refl _
  · exact Kept.refl _

theorem execGetPdr_kept {x : State} {a0} {a1} : KeptR [.out] x (execGetPdr a0 a1 x) := by
  unfold execGetPdr
  refine KeptR.next ?_
  refine Kept.on (State.pldm_kept ?_) ?_
  · intro _
    dsimp only
    split
    · exact Kept.refl _
    · exact Kept.refl _
  · exact Kept.refl _

theorem execGetSensorReading_kept {x : State} {a0} {a1} : KeptR [.out] x (execGetSensorReading a0 a1 x) := by
  unfold execGetSensorReading
  refine KeptR.next ?_
  refine Kept.on (State.pldm_kept ?_) ?_
  · intro _
    dsimp only
    split
    · exact Kept.refl _
    · split
      · exact Kept.refl _
      · exact Kept.refl _
  · exact Kept.refl _

theorem execGetStateSensorReadings_kept {x : State} {a0} {a1} : KeptR [.out] x (execGetStateSensorReadings a0 a1 x) := by
  unfold execGetStateSensorReadings
  refine KeptR.next ?_
  refine Kept.on (State.pldm_kept ?_) ?_
  · intro _
    dsimp only
    split
    · exact Kept.refl _
    · split
      · exact Kept.refl _
      · exact Kept.refl _
  · exact Kept.refl _

theorem State.resendEvent_kept {x : State} {a1} : Kept [.time, .platform, .out] x (State.resendEvent x a1) := by
  unfold State.resendEvent
  dsimp only
  split
  · refine Kept.ite ?_ ?_
    · refine Kept.on (State.atTimer_kept ?_) ?_
      · intro _
        refine Kept.andThen State.emit_kept ?_
        refine Kept.upd ?_
        exact Kept.refl _
      · exact Kept.refl _
    · refine Kept.andThen State.emit_kept ?_
      refine Kept.upd ?_
      exact Kept.refl _
  · exact Kept.refl _

theorem execPldmEventResend_kept {x : State} {a0} : KeptR [.time, .platform, .out] x (execPldmEventResend x a0) := by
  unfold execPldmEventResend
  refine KeptR.next ?_
  refine Kept.andThen State.resendEvent_kept ?_
  exact Kept.refl _

theorem State.setSpdm_kept {x : State} {v c} : Kept [.sec, .platform] x (x.setSpdm v c) := by
  unfold State.setSpdm
  split
  · exact Kept.upd (Kept.refl _)
  · exact Kept.upd (Kept.refl _)

theorem State.spdmReply_kept {x : State} {a1} {a2} {a3} : Kept [.out] x (State.spdmReply x a1 a2 a3) := by
  unfold State.spdmReply
  refine Kept.andThen State.emit_kept ?_
  exact Kept.refl _

theorem State.spdmError_kept {x : State} {a1} {a2} : Kept [.regs, .out] x (State.spdmError x a1 a2) := by
  unfold State.spdmError
  refine Kept.andThen State.spdmReply_kept ?_
  refine Kept.andThen State.bump_kept ?_
  exact Kept.refl _

theorem State.spdmDo_kept {x : State} {a1} {a2} {a3} {P : List Part}
    (h3 : ∀ y, Kept P y (a3 y))
    (hq : [.regs, .out] ⊆ P := by first | with_reducible exact List.Subset.refl _ | decide | (refine List.Subset.trans ?_ (by assumption); decide)) : Kept P x (State.spdmDo x a1 a2 a3) := by
  unfold State.spdmDo
  dsimp only
  refine Kept.ite ?_ ?_
  · exact Kept.refl _
  · refine Kept.ite ?_ ?_
    · refine Kept.andThen (h3 ..) ?_
      exact Kept.refl _
    · refine Kept.andThen State.spdmError_kept ?_
      exact Kept.refl _

theorem execGetVersion_kept {x : State} {a0} : KeptR [.regs, .sec, .platform, .out] x (execGetVersion a0 x) := by
  unfold execGetVersion
  refine KeptR.next ?_
  refine Kept.on (State.spdmDo_kept ?_) ?_
  · intro _
    refine Kept.andThen State.spdmReply_kept ?_
    refine Kept.andThen State.setSpdm_kept ?_
    exact Kept.refl _
  · exact Kept.refl _

theorem execGetCapabilities_kept {x : State} {a0} : KeptR [.regs, .sec, .platform, .out] x (execGetCapabilities a0 x) := by
  unfold execGetCapabilities
  refine KeptR.next ?_
  refine Kept.on (State.spdmDo_kept ?_) ?_
  · intro _
    refine Kept.andThen State.spdmReply_kept ?_
    refine Kept.andThen State.setSpdm_kept ?_
    exact Kept.refl _
  · exact Kept.refl _

theorem execNegotiateAlgorithms_kept {x : State} {a0} : KeptR [.regs, .sec, .platform, .out] x (execNegotiateAlgorithms a0 x) := by
  unfold execNegotiateAlgorithms
  refine KeptR.next ?_
  refine Kept.on (State.spdmDo_kept ?_) ?_
  · intro _
    refine Kept.andThen State.spdmReply_kept ?_
    refine Kept.andThen State.setSpdm_kept ?_
    exact Kept.refl _
  · exact Kept.refl _

theorem State.sendSigned_kept {x : State} {a1} {a2} {a3} : Kept [.regs, .handed, .sec, .platform, .out] x (State.sendSigned x a1 a2 a3) := by
  unfold State.sendSigned
  dsimp only
  split
  · refine Kept.andThen State.spdmError_kept ?_
    refine Kept.of_snd (by assumption) ?_
    refine Kept.andThen State.takeLeaf_kept ?_
    exact Kept.refl _
  · refine Kept.andThen State.spdmError_kept ?_
    refine Kept.andThen State.setSpdm_kept ?_
    refine Kept.of_snd (by assumption) ?_
    refine Kept.andThen State.takeLeaf_kept ?_
    exact Kept.refl _

theorem State.sign_kept {x : State} {a1} {a2} {a3} : Kept [.regs, .handed, .sec, .platform, .out] x (State.sign x a1 a2 a3) := by
  unfold State.sign
  refine Kept.ite ?_ ?_
  · refine Kept.andThen State.sendSigned_kept ?_
    exact Kept.refl _
  · refine Kept.andThen State.spdmError_kept ?_
    refine Kept.upd ?_
    exact Kept.refl _

theorem execChallenge_kept {x : State} {a0} {a1} : KeptR [.regs, .handed, .sec, .platform, .out] x (execChallenge a0 a1 x) := by
  unfold execChallenge
  refine KeptR.next ?_
  refine Kept.on (State.spdmDo_kept ?_) ?_
  · intro _
    refine Kept.andThen State.sign_kept ?_
    exact Kept.refl _
  · exact Kept.refl _

theorem execGetMeasurements_kept {x : State} {a0} {a1} {a2} {a3} : KeptR [.regs, .handed, .sec, .platform, .out] x (execGetMeasurements a0 a1 a2 a3 x) := by
  unfold execGetMeasurements
  refine KeptR.next ?_
  refine Kept.on (State.spdmDo_kept ?_) ?_
  · intro _
    split
    · refine Kept.andThen State.spdmError_kept ?_
      exact Kept.refl _
    · refine Kept.ite ?_ ?_
      · refine Kept.andThen State.sign_kept ?_
        exact Kept.refl _
      · refine Kept.andThen State.spdmReply_kept ?_
        exact Kept.refl _
  · exact Kept.refl _

theorem execChunkGet_kept {x : State} {a0} {a1} : KeptR [.regs, .sec, .platform, .out] x (execChunkGet a0 a1 x) := by
  unfold execChunkGet
  refine KeptR.next ?_
  refine Kept.on (State.spdmDo_kept ?_) ?_
  · intro _
    dsimp only
    refine Kept.ite ?_ ?_
    · refine Kept.andThen State.spdmError_kept ?_
      exact Kept.refl _
    · refine Kept.andThen State.spdmReply_kept ?_
      refine Kept.andThen State.setSpdm_kept ?_
      exact Kept.refl _
  · exact Kept.refl _

theorem execRespondIfReady_kept {x : State} {a0} {a1} : KeptR [.regs, .handed, .sec, .platform, .out] x (execRespondIfReady a0 a1 x) := by
  unfold execRespondIfReady
  dsimp only
  refine KeptR.next ?_
  refine Kept.on (State.spdmDo_kept ?_) ?_
  · intro _
    split
    · refine Kept.andThen State.spdmError_kept ?_
      exact Kept.refl _
    · refine Kept.ite ?_ ?_
      · refine Kept.andThen State.sendSigned_kept ?_
        refine Kept.upd ?_
        exact Kept.refl _
      · refine Kept.andThen State.spdmError_kept ?_
        exact Kept.refl _
  · exact Kept.refl _

theorem State.vendor_kept {x : State} {a1} {a2} {a3} : Kept [.regs, .vault, .handed, .sec] x (State.vendor x a1 a2 a3).2.2 := by
  unfold State.vendor
  split
  · refine Kept.andThen State.identity_kept ?_
    exact Kept.refl _
  · split
    · refine Kept.andThen State.readLedger_kept ?_
      exact Kept.refl _
    · split
      · refine Kept.andThen State.readCkpt_kept ?_
        exact Kept.refl _
      · split
        · split
          · refine Kept.andThen State.setKey_kept ?_
            exact Kept.refl _
          · exact Kept.refl _
        · split
          · split
            · refine Kept.andThen State.revokeKey_kept ?_
              exact Kept.refl _
            · exact Kept.refl _
          · split
            · refine Kept.andThen State.beginUpdate_kept ?_
              exact Kept.refl _
            · split
              · refine Kept.andThen State.dataUpdate_kept ?_
                exact Kept.refl _
              · split
                · refine Kept.andThen State.endUpdate_kept ?_
                  exact Kept.refl _
                · exact Kept.refl _

theorem execVendorDefinedRequest_kept {x : State} {a0} {a1} {a2} : KeptR [.regs, .vault, .handed, .sec, .out] x (execVendorDefinedRequest a0 a1 a2 x) := by
  unfold execVendorDefinedRequest
  refine KeptR.next ?_
  refine Kept.on (State.spdmDo_kept ?_) ?_
  · intro _
    dsimp only
    refine Kept.andThen State.spdmReply_kept ?_
    refine Kept.andThen State.vendor_kept ?_
    exact Kept.refl _
  · exact Kept.refl _

/-! ### Beads -/

theorem State.setBead_kept {x : State} {a1} : Kept [.arr] x (State.setBead x a1) := by
  unfold State.setBead
  dsimp only
  refine Kept.upd ?_
  exact Kept.refl _

theorem State.setCtx_kept {x : State} {a1} : Kept [.arr] x (State.setCtx x a1) := by
  unfold State.setCtx
  refine Kept.upd ?_
  exact Kept.refl _

theorem State.setCfg_kept {x : State} {a1} : Kept [.serve] x (State.setCfg x a1) := by
  unfold State.setCfg
  refine Kept.upd ?_
  exact Kept.refl _

theorem State.onStep_kept {x : State} {a1} {a2} : Kept [.serve] x (State.onStep x a1 a2) := by
  unfold State.onStep
  refine Kept.upd ?_
  exact Kept.refl _

theorem State.onCtxStep_kept {x : State} {a1} {a2} : Kept [.serve] x (State.onCtxStep x a1 a2) := by
  unfold State.onCtxStep
  split
  · refine Kept.andThen State.onStep_kept ?_
    exact Kept.refl _
  · exact Kept.refl _

theorem State.noteReplay_kept {x : State} {a1} : Kept [.serve] x (State.noteReplay x a1) := by
  unfold State.noteReplay
  refine Kept.andThen State.onCtxStep_kept ?_
  exact Kept.refl _

theorem State.noteNumeric_kept {x : State} {a1} {a2} : Kept [.serve] x (State.noteNumeric x a1 a2) := by
  unfold State.noteNumeric
  refine Kept.andThen State.onCtxStep_kept ?_
  exact Kept.refl _

theorem State.faultReq_kept {x : State} {a1} {a2} {a3} : Kept [.serve] x (State.faultReq x a1 a2 a3) := by
  unfold State.faultReq
  refine Kept.andThen State.onCtxStep_kept ?_
  exact Kept.refl _

theorem State.stepFault_kept {x : State} {a1} {a2} {a3} : Kept [.regs, .rings, .out] x (State.stepFault x a1 a2 a3) := by
  unfold State.stepFault
  dsimp only
  refine Kept.andThen State.instEvent_kept ?_
  exact Kept.refl _

theorem State.dirtyTiles_kept {x : State} {a1} {a2} {a3} : Kept [.arr] x (State.dirtyTiles x a1 a2 a3) := by
  unfold State.dirtyTiles
  refine Kept.ite ?_ ?_
  · exact Kept.refl _
  · dsimp only
    refine Kept.andThen State.setBead_kept ?_
    exact Kept.refl _

theorem State.tileWrite_kept {x : State} {a1} {a2} {a3} : Kept [.arr, .mem] x (State.tileWrite x a1 a2 a3) := by
  unfold State.tileWrite
  dsimp only
  refine Kept.ite ?_ ?_
  · refine Kept.andThen State.dirtyTiles_kept ?_
    refine Kept.andThen State.storeAt_kept ?_
    refine Kept.andThen State.dirtyTiles_kept ?_
    refine Kept.andThen State.storeAt_kept ?_
    exact Kept.refl _
  · refine Kept.andThen State.dirtyTiles_kept ?_
    refine Kept.andThen State.storeAt_kept ?_
    exact Kept.refl _

theorem State.writeMpa_kept {x : State} {a1} {a2} : Kept [.arr, .mem] x (State.writeMpa x a1 a2) := by
  unfold State.writeMpa
  split
  · refine Kept.andThen State.tileWrite_kept ?_
    exact Kept.refl _
  · refine Kept.andThen State.touch_kept ?_
    refine Kept.andThen State.storeAt_kept ?_
    exact Kept.refl _

theorem State.countWait_kept {x : State} {a1} : Kept [.regs] x (State.countWait x a1) := by
  unfold State.countWait
  refine Kept.andThen State.bumpIf_kept ?_
  exact Kept.refl _

theorem State.issueReads_kept {x : State} {a1} : Kept [.regs, .arr, .mem] x (State.issueReads x a1) := by
  unfold State.issueReads
  dsimp only
  refine Kept.foldl _ _ ?_ ?_
  · refine Kept.upd ?_
    exact Kept.refl _
  · intro _ _
    refine Kept.andThen State.countWait_kept ?_
    exact Kept.refl _

theorem State.edgeMoved_kept {x : State} {a1} {a2} : Kept [.arr] x (State.edgeMoved x a1 a2) := by
  unfold State.edgeMoved
  dsimp only
  refine Kept.upd ?_
  exact Kept.refl _

theorem State.fly_kept {x : State} {a1} {a2} {a3} : Kept [.arr] x (State.fly x a1 a2 a3) := by
  unfold State.fly
  dsimp only
  refine Kept.upd ?_
  exact Kept.refl _

theorem State.drainEdge_kept {x : State} {a1} {a2} : Kept [.arr] x (State.drainEdge x a1 a2) := by
  unfold State.drainEdge
  dsimp only
  split
  · exact Kept.refl _
  · refine Kept.ite ?_ ?_
    · exact Kept.refl _
    · refine Kept.andThen State.edgeMoved_kept ?_
      refine Kept.andThen State.edgeMoved_kept ?_
      refine Kept.andThen State.fly_kept ?_
      refine Kept.andThen State.setCtx_kept ?_
      exact Kept.refl _

theorem State.sendEdge_kept {x : State} {a1} {a2} {a3} {a4} : Kept [.arr] x (State.sendEdge x a1 a2 a3 a4) := by
  unfold State.sendEdge
  dsimp only
  split
  · exact Kept.refl _
  · refine Kept.andThen State.drainEdge_kept ?_
    refine Kept.andThen State.setCtx_kept ?_
    exact Kept.refl _

theorem State.returnCredit_kept {x : State} {a1} {a2} : Kept [.arr] x (State.returnCredit x a1 a2) := by
  unfold State.returnCredit
  dsimp only
  refine Kept.foldl _ _ ?_ ?_
  · refine Kept.andThen State.edgeMoved_kept ?_
    refine Kept.upd ?_
    exact Kept.refl _
  · intro _ _
    refine Kept.andThen State.drainEdge_kept ?_
    exact Kept.refl _

theorem State.dequeue_kept {x : State} {a1} {a2} {a3} : Kept [.arr] x (State.dequeue x a1 a2 a3).2 := by
  unfold State.dequeue
  dsimp only
  split
  · exact Kept.refl _
  · dsimp only
    refine Kept.andThen State.returnCredit_kept ?_
    refine Kept.andThen State.setCtx_kept ?_
    exact Kept.refl _

theorem State.dequeueAll_kept {x : State} {c} {l} : Kept [.arr] x (x.dequeueAll c l).2 := by
  induction l generalizing x with
  | nil => exact Kept.refl _
  | cons a l ih => exact Kept.on ih State.dequeue_kept

theorem State.advance_kept {x : State} {a1} {a2} {a3} : Kept [.regs, .arr, .serve] x (State.advance x a1 a2 a3) := by
  unfold State.advance
  dsimp only
  split
  · exact Kept.refl _
  · refine Kept.ite ?_ ?_
    · refine Kept.andThen State.setCtx_kept ?_
      refine Kept.ite ?_ ?_
      · refine Kept.andThen State.onCtxStep_kept ?_
        refine Kept.andThen State.bump_kept ?_
        exact Kept.refl _
      · exact Kept.refl _
    · refine Kept.andThen State.setCtx_kept ?_
      refine Kept.ite ?_ ?_
      · refine Kept.andThen State.onCtxStep_kept ?_
        refine Kept.andThen State.bump_kept ?_
        exact Kept.refl _
      · exact Kept.refl _

theorem State.action_kept {x : State} {a1} {a2} {a3} {a4} {P : List Part}
    (h3 : ∀ y b1 b2, Kept P y (a3 y b1 b2).2)
    (h4 : ∀ y b1 b2 b3, Kept P y (a4 y b1 b2 b3).1)
    (hq : [.regs, .arr, .serve] ⊆ P := by first | with_reducible exact List.Subset.refl _ | decide | (refine List.Subset.trans ?_ (by assumption); decide)) : Kept P x (State.action x a1 a2 a3 a4) := by
  unfold State.action
  dsimp only
  split
  · exact Kept.refl _
  · split
    · exact Kept.refl _
    · refine Kept.ite ?_ ?_
      · exact Kept.refl _
      · split
        · refine Kept.of_snd (by assumption) ?_
          refine Kept.andThen (h3 ..) ?_
          exact Kept.refl _
        · refine Kept.andThen State.advance_kept ?_
          refine Kept.foldl _ _ ?_ ?_
          · refine Kept.andThen (h4 ..) ?_
            refine Kept.andThen State.dequeueAll_kept ?_
            refine Kept.of_snd (by assumption) ?_
            refine Kept.andThen (h3 ..) ?_
            exact Kept.refl _
          · intro _ _
            refine Kept.andThen State.sendEdge_kept ?_
            exact Kept.refl _

theorem readsOnly_kept {x : State} {a0} {a2} {a3} : Kept [] x (readsOnly a0 x a2 a3).2 := by
  unfold readsOnly
  exact Kept.refl _

theorem execNop_kept {x : State} {a0} : KeptR [.regs, .arr, .serve] x (execNop a0 x) := by
  unfold execNop
  refine KeptR.next ?_
  refine Kept.on (State.action_kept ?_ ?_) ?_
  · intro _ _ _
    exact Kept.refl _
  · intro _ _ _ _
    exact Kept.refl _
  · exact Kept.refl _

theorem execCounter_kept {x : State} {a0} : KeptR [.regs, .arr, .serve] x (execCounter a0 x) := by
  unfold execCounter
  refine KeptR.next ?_
  refine Kept.on (State.action_kept ?_ ?_) ?_
  · intro _ _ _
    exact Kept.refl _
  · intro _ _ _ _
    exact Kept.refl _
  · exact Kept.refl _

theorem execWait_kept {x : State} {a0} : KeptR [.regs, .arr, .serve] x (execWait a0 x) := by
  unfold execWait
  refine KeptR.next ?_
  refine Kept.on (State.action_kept ?_ ?_) ?_
  · intro _ _ _
    split
    · exact Kept.refl _
    · dsimp only
      split
      · dsimp only
        refine Kept.andThen State.setCtx_kept ?_
        exact Kept.refl _
      · dsimp only
        refine Kept.andThen State.setCtx_kept ?_
        exact Kept.refl _
  · intro _ _ _ _
    exact Kept.refl _
  · exact Kept.refl _

theorem State.switch_kept {x : State} {a1} : Kept [.arr] x (State.switch x a1) := by
  unfold State.switch
  dsimp only
  split
  · refine Kept.andThen State.setBead_kept ?_
    refine Kept.andThen State.setCtx_kept ?_
    split
    · refine Kept.andThen State.setCtx_kept ?_
      exact Kept.refl _
    · exact Kept.refl _
  · exact Kept.refl _

theorem execContextSwitch_kept {x : State} {a0} : KeptR [.arr] x (execContextSwitch a0 x) := by
  unfold execContextSwitch
  refine KeptR.next ?_
  refine Kept.andThen State.switch_kept ?_
  exact Kept.refl _

theorem State.release_kept {x : State} {a1} {a2} {a3} : Kept [.arr] x (State.release x a1 a2 a3) := by
  unfold State.release
  dsimp only
  split
  · exact Kept.refl _
  · split
    · refine Kept.ite ?_ ?_
      · refine Kept.andThen State.setCtx_kept ?_
        exact Kept.refl _
      · exact Kept.refl _
    · refine Kept.andThen State.setCtx_kept ?_
      refine Kept.andThen State.setBead_kept ?_
      exact Kept.refl _

theorem State.routerError_kept {x : State} {a1} {a2} {a3} : Kept [.regs, .serve, .fab, .faults] x (State.routerError x a1 a2 a3) := by
  unfold State.routerError
  dsimp only
  split
  · refine Kept.andThen State.detectBead_kept ?_
    refine Kept.andThen State.detectBead_kept ?_
    split
    · refine Kept.andThen State.failConfig_kept ?_
      refine Kept.andThen State.bump_kept ?_
      exact Kept.refl _
    · refine Kept.andThen State.bump_kept ?_
      exact Kept.refl _
  · refine Kept.andThen State.detectBead_kept ?_
    split
    · refine Kept.andThen State.failConfig_kept ?_
      refine Kept.andThen State.bump_kept ?_
      exact Kept.refl _
    · refine Kept.andThen State.bump_kept ?_
      exact Kept.refl _

theorem State.place__kept {x : State} {a1} {a2} {a3} {a4} : Kept [.regs, .arr, .mem] x (State.place_ x a1 a2 a3 a4) := by
  unfold State.place_
  dsimp only
  refine Kept.ite ?_ ?_
  · refine Kept.andThen State.setCtx_kept ?_
    exact Kept.refl _
  · refine Kept.andThen State.bump_kept ?_
    refine Kept.andThen State.tileWrite_kept ?_
    refine Kept.andThen State.tileWrite_kept ?_
    refine Kept.andThen State.setCtx_kept ?_
    exact Kept.refl _

theorem State.spillRead_kept {x : State} {a1} {a2} {a3} : Kept [.regs, .arr, .serve, .fab, .faults] x (State.spillRead x a1 a2 a3) := by
  unfold State.spillRead
  dsimp only
  refine Kept.ite ?_ ?_
  · exact Kept.refl _
  · split
    · exact Kept.refl _
    · refine Kept.andThen State.correctedWords_kept ?_
      exact Kept.refl _
    · refine Kept.andThen State.routerError_kept ?_
      refine Kept.andThen State.edgeMoved_kept ?_
      refine Kept.andThen State.setCtx_kept ?_
      exact Kept.refl _

theorem State.arrive_kept {x : State} {a1} {a2} : Kept [.regs, .arr, .mem, .serve, .fab, .faults] x (State.arrive x a1 a2) := by
  unfold State.arrive
  dsimp only
  split
  · exact Kept.refl _
  · split
    · exact Kept.refl _
    · refine Kept.ite ?_ ?_
      · exact Kept.refl _
      · split
        · refine Kept.andThen State.routerError_kept ?_
          refine Kept.andThen State.edgeMoved_kept ?_
          refine Kept.upd ?_
          exact Kept.refl _
        · refine Kept.ite ?_ ?_
          · exact Kept.refl _
          · split
            · refine Kept.foldl _ _ ?_ ?_
              · refine Kept.andThen State.bumpBy_kept ?_
                refine Kept.andThen State.edgeMoved_kept ?_
                refine Kept.andThen State.place__kept ?_
                refine Kept.upd ?_
                exact Kept.refl _
              · intro _ _
                refine Kept.andThen State.corrected_kept ?_
                exact Kept.refl _
            · refine Kept.andThen State.edgeMoved_kept ?_
              refine Kept.andThen State.place__kept ?_
              refine Kept.upd ?_
              exact Kept.refl _

theorem execEntryArrival_kept {x : State} {a0} {a1} {a2} : KeptR [.regs, .arr, .mem, .serve, .fab, .faults] x (execEntryArrival a0 a1 a2 x) := by
  unfold execEntryArrival
  refine KeptR.next ?_
  split
  · refine Kept.ite ?_ ?_
    · refine Kept.andThen State.spillRead_kept ?_
      exact Kept.refl _
    · refine Kept.andThen State.arrive_kept ?_
      exact Kept.refl _
  · exact Kept.refl _

theorem State.steerFault_kept {x : State} {a1} {a2} : Kept [.regs, .arr, .serve, .fab, .faults] x (State.steerFault x a1 a2) := by
  unfold State.steerFault
  dsimp only
  refine Kept.andThen State.detectBead_kept ?_
  refine Kept.andThen State.failConfig_kept ?_
  refine Kept.andThen State.bump_kept ?_
  refine Kept.andThen State.setCtx_kept ?_
  exact Kept.refl _

theorem State.steerPair_kept {x : State} {a1} {a2} {a3} : Kept [.regs, .arr, .serve, .fab, .faults] x (State.steerPair x a1 a2 a3) := by
  unfold State.steerPair
  dsimp only
  split
  · refine Kept.ite ?_ ?_
    · refine Kept.andThen State.steerFault_kept ?_
      exact Kept.refl _
    · refine Kept.ite ?_ ?_
      · exact Kept.refl _
      · refine Kept.foldl _ _ ?_ ?_
        · refine Kept.andThen State.dequeue_kept ?_
          refine Kept.andThen State.dequeue_kept ?_
          exact Kept.refl _
        · intro _ _
          split
          · exact Kept.refl _
          · refine Kept.andThen State.edgeMoved_kept ?_
            refine Kept.andThen State.fly_kept ?_
            refine Kept.andThen State.setCtx_kept ?_
            exact Kept.refl _
  · exact Kept.refl _

theorem State.steer_kept {x : State} {a1} {a2} {a3} {a4} {P : List Part}
    (h4 : ∀ b0 b1 b2, Kept P x (a4 b0 b1 b2))
    (hq : [] ⊆ P := by first | with_reducible exact List.Subset.refl _ | decide | (refine List.Subset.trans ?_ (by assumption); decide)) : Kept P x (State.steer x a1 a2 a3 a4) := by
  unfold State.steer
  dsimp only
  split
  · exact Kept.refl _
  · refine Kept.ite ?_ ?_
    · exact Kept.refl _
    · split
      · exact Kept.refl _
      · refine Kept.andThen (h4 ..) ?_
        exact Kept.refl _

theorem execSteeringSwitchFire_kept {x : State} {a0} {a1} : KeptR [.regs, .arr, .serve, .fab, .faults] x (execSteeringSwitchFire a0 a1 x) := by
  unfold execSteeringSwitchFire
  refine KeptR.next ?_
  refine Kept.on (State.steer_kept ?_) ?_
  · intro _ _ _
    dsimp only
    refine Kept.andThen State.steerPair_kept ?_
    exact Kept.refl _
  · exact Kept.refl _

theorem execSteeringMergeFire_kept {x : State} {a0} {a1} : KeptR [.regs, .arr, .serve, .fab, .faults] x (execSteeringMergeFire a0 a1 x) := by
  unfold execSteeringMergeFire
  refine KeptR.next ?_
  refine Kept.on (State.steer_kept ?_) ?_
  · intro _ _ _
    refine Kept.ite ?_ ?_
    · refine Kept.andThen State.steerFault_kept ?_
      exact Kept.refl _
    · refine Kept.andThen State.steerPair_kept ?_
      exact Kept.refl _
  · exact Kept.refl _

theorem State.deadlock_kept {x : State} {a1} {a2} : Kept [.regs, .arr, .serve, .fab, .rings, .faults, .out] x (State.deadlock x a1 a2) := by
  unfold State.deadlock
  refine Kept.ite ?_ ?_
  · exact Kept.refl _
  · dsimp only
    split
    · exact Kept.refl _
    · split
      · refine Kept.andThen State.detectBead_kept ?_
        refine Kept.andThen State.dropConfig_kept ?_
        refine Kept.andThen State.stepFault_kept ?_
        refine Kept.andThen State.failConfig_kept ?_
        refine Kept.andThen State.bump_kept ?_
        exact Kept.refl _
      · refine Kept.andThen State.setCfg_kept ?_
        refine Kept.andThen State.detectBead_kept ?_
        refine Kept.andThen State.dropConfig_kept ?_
        refine Kept.andThen State.stepFault_kept ?_
        refine Kept.andThen State.failConfig_kept ?_
        refine Kept.andThen State.bump_kept ?_
        exact Kept.refl _

theorem execSpatialDeadlock_kept {x : State} {a0} {a1} : KeptR [.regs, .arr, .serve, .fab, .rings, .faults, .platform, .out] x (execSpatialDeadlock a0 a1 x) := by
  unfold execSpatialDeadlock
  refine KeptR.next ?_
  refine Kept.on (State.watched_kept ?_) ?_
  · intro _
    refine Kept.andThen State.deadlock_kept ?_
    exact Kept.refl _
  · exact Kept.refl _

theorem State.remap_kept {x : State} {a1} : Kept [.regs, .arr, .mem, .vault, .faults, .handed] x (State.remap x a1) := by
  unfold State.remap
  dsimp only
  split
  · exact Kept.refl _
  · refine Kept.ite ?_ ?_
    · exact Kept.refl _
    · refine Kept.andThen State.setFaults_kept ?_
      refine Kept.andThen State.storeRods_kept ?_
      refine Kept.andThen State.hand_kept ?_
      refine Kept.andThen State.setReg_kept ?_
      refine Kept.andThen State.remapRod_kept ?_
      exact Kept.refl _

/-! ### Recover -/

theorem State.notOwner_kept {x : State} : Kept [.regs] x (State.notOwner x) := by
  unfold State.notOwner
  refine Kept.andThen State.bump_kept ?_
  exact Kept.refl _

theorem State.countAccess_kept {x : State} {a1} {a2} : Kept [.regs] x (State.countAccess x a1 a2) := by
  unfold State.countAccess
  refine Kept.ite ?_ ?_
  · refine Kept.andThen State.addressError_kept ?_
    exact Kept.refl _
  · refine Kept.ite ?_ ?_
    · refine Kept.andThen State.notOwner_kept ?_
      exact Kept.refl _
    · exact Kept.refl _

theorem State.accessFault_kept {x : State} {a1} {a2} {a3} : Kept [.regs, .serve] x (State.accessFault x a1 a2 a3) := by
  unfold State.accessFault
  dsimp only
  split
  · refine Kept.andThen State.failConfig_kept ?_
    refine Kept.andThen State.countAccess_kept ?_
    exact Kept.refl _
  · refine Kept.andThen State.countAccess_kept ?_
    exact Kept.refl _

theorem State.setEntry_kept {x : State} {a1} : Kept [.vault] x (State.setEntry x a1) := by
  unfold State.setEntry
  refine Kept.andThen State.setVault_kept ?_
  exact Kept.refl _

theorem State.vaultFailed_kept {x : State} {a1} : Kept [.regs] x (State.vaultFailed x a1) := by
  unfold State.vaultFailed
  refine Kept.andThen State.bump_kept ?_
  refine Kept.andThen State.bumpIf_kept ?_
  exact Kept.refl _

theorem State.shardFault_kept {x : State} {a1} : Kept [.regs, .vault, .rings, .handed, .out] x (State.shardFault x a1) := by
  unfold State.shardFault
  dsimp only
  split
  · exact Kept.refl _
  · refine Kept.ite ?_ ?_
    · exact Kept.refl _
    · refine Kept.andThen State.alert_kept ?_
      refine Kept.andThen State.event_kept ?_
      refine Kept.andThen State.hand_kept ?_
      refine Kept.andThen State.setEntry_kept ?_
      refine Kept.andThen State.bump_kept ?_
      exact Kept.refl _

theorem State.setAttempts_kept {x : State} {a1} {a2} {a3} : Kept [.mem] x (State.setAttempts x a1 a2 a3) := by
  unfold State.setAttempts
  dsimp only
  refine Kept.andThen State.setMem_kept ?_
  exact Kept.refl _

theorem State.dropAttempts_kept {x : State} {a1} : Kept [.mem] x (State.dropAttempts x a1) := by
  unfold State.dropAttempts
  refine Kept.andThen State.setMem_kept ?_
  exact Kept.refl _

theorem State.mismatch_kept {x : State} {a1} {a2} : Kept [.regs, .fab, .faults] x (State.mismatch x a1 a2) := by
  unfold State.mismatch
  refine Kept.andThen State.suspect_kept ?_
  refine Kept.andThen State.bumpIf_kept ?_
  exact Kept.refl _

theorem State.kvLost_kept {x : State} {a1} : Kept [.serve] x (State.kvLost x a1) := by
  unfold State.kvLost
  dsimp only
  split
  · refine Kept.upd ?_
    exact Kept.refl _
  · exact Kept.refl _

theorem State.judgeRead_kept {x : State} {a1} {a2} {a3} {a4} {a5} : Kept [.regs, .mem, .vault, .fab, .rings, .faults, .handed, .out] x (State.judgeRead x a1 a2 a3 a4 a5).2.2 := by
  unfold State.judgeRead
  split
  · dsimp only
    split
    · exact Kept.refl _
    · dsimp only
      refine Kept.andThen State.correctedWords_kept ?_
      exact Kept.refl _
    · split
      · dsimp only
        refine Kept.andThen State.vaultFailed_kept ?_
        exact Kept.refl _
      · dsimp only
        refine Kept.andThen State.shardFault_kept ?_
        refine Kept.andThen State.vaultFailed_kept ?_
        exact Kept.refl _
  · split
    · dsimp only
      split
      · exact Kept.refl _
      · split
        · dsimp only
          refine Kept.andThen State.vaultFailed_kept ?_
          exact Kept.refl _
        · dsimp only
          refine Kept.andThen State.shardFault_kept ?_
          refine Kept.andThen State.vaultFailed_kept ?_
          exact Kept.refl _
      · dsimp only
        refine Kept.andThen State.storeAt_kept ?_
        split
        · refine Kept.andThen State.correctedWords_kept ?_
          exact Kept.refl _
        · exact Kept.refl _
    · dsimp only
      split
      · exact Kept.refl _
      · dsimp only
        refine Kept.andThen State.correctedWords_kept ?_
        exact Kept.refl _
      · split
        · dsimp only
          refine Kept.andThen State.mismatch_kept ?_
          exact Kept.refl _
        · split
          · dsimp only
            refine Kept.andThen State.mismatch_kept ?_
            exact Kept.refl _
          · dsimp only
            refine Kept.andThen State.mismatch_kept ?_
            exact Kept.refl _

theorem State.readTile_kept {x : State} {a1} {a2} {a3} {a4} {a5} {a6} : Kept [.regs, .mem, .vault, .fab, .rings, .faults, .handed, .out] x (State.readTile x a1 a2 a3 a4 a5 a6).2.2 := by
  unfold State.readTile
  dsimp only
  split
  · split
    · dsimp only
      refine Kept.ite ?_ ?_
      · refine Kept.andThen State.vaultFailed_kept ?_
        exact Kept.refl _
      · refine Kept.andThen State.mismatch_kept ?_
        exact Kept.refl _
    · dsimp only
      refine Kept.andThen State.setAttempts_kept ?_
      refine Kept.andThen State.judgeRead_kept ?_
      exact Kept.refl _
  · split
    · exact Kept.refl _
    · dsimp only
      refine Kept.andThen State.setAttempts_kept ?_
      refine Kept.andThen State.judgeRead_kept ?_
      exact Kept.refl _

theorem State.readPages_kept {x : State} {p l r} : Kept [.regs, .fab, .faults] x (x.readPages p l r).2.2 := by
  induction r generalizing x l with
  | nil => cases l <;> exact Kept.refl _
  | cons c r ih =>
    cases c with
    | ok => exact Kept.refl _
    | corrected k n => exact State.correctedWords_kept.mono (by decide)
    | failed k code =>
      unfold State.readPages
      dsimp only
      split
      · exact State.vaultFailed_kept.mono (by decide)
      · exact Kept.on ih (State.vaultFailed_kept.mono (by decide))

theorem State.readVault_kept {x : State} {a1} {a2} : Kept [.regs, .vault, .fab, .rings, .faults, .handed, .out] x (State.readVault x a1 a2).2.2 := by
  unfold State.readVault
  split
  · exact Kept.refl _
  · split
    · dsimp only
      refine Kept.andThen State.shardFault_kept ?_
      refine Kept.andThen State.vaultFailed_kept ?_
      refine Kept.andThen State.vaultFailed_kept ?_
      exact Kept.refl _
    · split
      · dsimp only
        refine Kept.andThen State.shardFault_kept ?_
        refine Kept.of_snd2 (by assumption) ?_
        refine Kept.andThen State.readPages_kept ?_
        exact Kept.refl _
      · dsimp only
        refine Kept.of_snd2 (by assumption) ?_
        refine Kept.andThen State.readPages_kept ?_
        exact Kept.refl _

theorem State.hubRead_kept {x : State} {a t r} : Kept [.regs, .mem, .serve, .vault, .fab, .rings, .faults, .handed, .out] x (x.hubRead a t r).2 := by
  induction r generalizing x t with
  | nil => exact Kept.refl _
  | cons c r ih =>
    unfold State.hubRead
    dsimp only
    split
    · exact Kept.of_snd2 (by assumption) (State.judgeRead_kept.mono (by decide))
    · exact Kept.on ih (Kept.of_snd2 (by assumption) (State.judgeRead_kept.mono (by decide)))
    · refine Kept.on ?_ (Kept.of_snd2 (by assumption) (State.judgeRead_kept.mono (by decide)))
      exact Kept.ite (State.kvLost_kept.mono (by decide)) (Kept.refl _)

theorem State.holdReq_kept {x : State} {a1} : Kept [.fab] x (State.holdReq x a1) := by
  unfold State.holdReq
  refine Kept.upd ?_
  exact Kept.refl _

/-! ### Blocks -/

theorem State.countNum_kept {x : State} {a1} {a2} {a3} : Kept [.arr] x (State.countNum x a1 a2 a3) := by
  unfold State.countNum
  dsimp only
  refine Kept.upd ?_
  exact Kept.refl _

theorem State.watchEvent_kept {x : State} {a1} {a2} : Kept [.regs, .arr, .serve] x (State.watchEvent x a1 a2) := by
  unfold State.watchEvent
  dsimp only
  refine Kept.ite ?_ ?_
  · refine Kept.andThen State.noteNumeric_kept ?_
    refine Kept.andThen State.countNum_kept ?_
    refine Kept.andThen State.bump_kept ?_
    exact Kept.refl _
  · refine Kept.andThen State.countNum_kept ?_
    refine Kept.andThen State.bump_kept ?_
    exact Kept.refl _

theorem State.secondTrip_kept {x : State} {a1} {a2} {a3} {a4} {a5} : Kept [.regs, .arr, .serve] x (State.secondTrip x a1 a2 a3 a4 a5).1 := by
  unfold State.secondTrip
  dsimp only
  split
  · dsimp only
    refine Kept.andThen State.watchEvent_kept ?_
    exact Kept.refl _
  · split
    · dsimp only
      refine Kept.andThen State.watchEvent_kept ?_
      refine Kept.andThen State.setCtx_kept ?_
      exact Kept.refl _
    · dsimp only
      refine Kept.andThen State.watchEvent_kept ?_
      exact Kept.refl _

theorem State.verdict_kept {x : State} {a1} {a2} {a3} : Kept [.regs, .arr, .serve] x (State.verdict x a1 a2 a3).1 := by
  unfold State.verdict
  dsimp only
  split
  · exact Kept.refl _
  · split
    · split
      · split
        · dsimp only
          refine Kept.andThen State.watchEvent_kept ?_
          refine Kept.andThen State.setCtx_kept ?_
          exact Kept.refl _
        · refine Kept.andThen State.secondTrip_kept ?_
          refine Kept.andThen State.watchEvent_kept ?_
          refine Kept.andThen State.setCtx_kept ?_
          exact Kept.refl _
      · dsimp only
        refine Kept.andThen State.watchEvent_kept ?_
        exact Kept.refl _
    · refine Kept.andThen State.secondTrip_kept ?_
      exact Kept.refl _

theorem State.nonFinite_kept {x : State} {a1} {a2} {a3} : Kept [.regs, .arr, .serve] x (State.nonFinite x a1 a2 a3) := by
  unfold State.nonFinite
  refine Kept.ite ?_ ?_
  · exact Kept.refl _
  · dsimp only
    refine Kept.andThen State.faultReq_kept ?_
    refine Kept.andThen State.noteNumeric_kept ?_
    refine Kept.andThen State.countNum_kept ?_
    refine Kept.andThen State.bumpBy_kept ?_
    exact Kept.refl _

theorem State.emitBlock_kept {x : State} {a1} {a2} {a3} {a4} : Kept [.regs, .arr, .serve] x (State.emitBlock x a1 a2 a3 a4).1 := by
  unfold State.emitBlock
  dsimp only
  refine Kept.andThen State.nonFinite_kept ?_
  refine Kept.andThen State.verdict_kept ?_
  exact Kept.refl _

theorem State.emitBlocks_kept {x : State} {c o l ws} : Kept [.regs, .arr, .serve] x (x.emitBlocks c o l ws).1 := by
  induction l generalizing x ws with
  | nil => exact Kept.refl _
  | cons a l ih => exact Kept.on ih State.emitBlock_kept

theorem State.writeBlock_kept {x : State} {a1} {a2} {a3} {a4} {a5} : Kept [.arr, .mem] x (State.writeBlock x a1 a2 a3 a4 a5) := by
  unfold State.writeBlock
  refine Kept.ite ?_ ?_
  · refine Kept.andThen State.tileWrite_kept ?_
    exact Kept.refl _
  · dsimp only
    refine Kept.andThen State.tileWrite_kept ?_
    refine Kept.andThen State.tileWrite_kept ?_
    exact Kept.refl _

theorem State.writeBlocks_kept {x : State} {b r i k l} : Kept [.arr, .mem] x (x.writeBlocks b r i k l) := by
  induction l generalizing x i k with
  | nil => exact Kept.refl _
  | cons a l ih => exact Kept.on ih State.writeBlock_kept

theorem State.takeDrain_kept {x : State} {a1} {a2} : Kept [.arr] x (State.takeDrain x a1 a2) := by
  unfold State.takeDrain
  refine Kept.ite ?_ ?_
  · dsimp only
    refine Kept.andThen State.setBead_kept ?_
    exact Kept.refl _
  · exact Kept.refl _

theorem State.refetchTile_kept {x : State} {a1} {a2} : Kept [.regs, .arr, .mem] x (State.refetchTile x a1 a2) := by
  unfold State.refetchTile
  dsimp only
  split
  · refine Kept.ite ?_ ?_
    · exact Kept.refl _
    · refine Kept.andThen State.issueReads_kept ?_
      refine Kept.andThen State.setBead_kept ?_
      exact Kept.refl _
  · split
    · refine Kept.andThen State.storeAt_kept ?_
      exact Kept.refl _
    · exact Kept.refl _

theorem State.wordFault_kept {x : State} {a1} {a2} : Kept [.regs, .arr, .mem, .serve, .fab, .faults] x (State.wordFault x a1 a2) := by
  unfold State.wordFault
  dsimp only
  split
  · refine Kept.ite ?_ ?_
    · refine Kept.andThen State.refetchTile_kept ?_
      refine Kept.andThen State.setAttempts_kept ?_
      refine Kept.andThen State.mismatch_kept ?_
      exact Kept.refl _
    · refine Kept.ite ?_ ?_
      · refine Kept.andThen State.refetchTile_kept ?_
        refine Kept.andThen State.setAttempts_kept ?_
        refine Kept.andThen State.mismatch_kept ?_
        exact Kept.refl _
      · refine Kept.ite ?_ ?_
        · refine Kept.andThen State.kvLost_kept ?_
          refine Kept.andThen State.mismatch_kept ?_
          exact Kept.refl _
        · refine Kept.andThen State.failConfig_kept ?_
          refine Kept.andThen State.mismatch_kept ?_
          exact Kept.refl _
  · refine Kept.ite ?_ ?_
    · refine Kept.andThen State.failConfig_kept ?_
      refine Kept.andThen State.mismatch_kept ?_
      exact Kept.refl _
    · refine Kept.ite ?_ ?_
      · refine Kept.andThen State.refetchTile_kept ?_
        refine Kept.andThen State.setAttempts_kept ?_
        refine Kept.andThen State.mismatch_kept ?_
        exact Kept.refl _
      · refine Kept.andThen State.noteReplay_kept ?_
        refine Kept.andThen State.setAttempts_kept ?_
        refine Kept.andThen State.mismatch_kept ?_
        exact Kept.refl _

theorem wordPre_kept {x : State} {a0} {a1} {a3} {a4} {P : List Part}
    (h1 : ∀ y b1 b2, Kept P y (a1 y b1 b2).2)
    (hq : [.regs, .arr, .mem, .serve, .fab, .faults] ⊆ P := by first | with_reducible exact List.Subset.refl _ | decide | (refine List.Subset.trans ?_ (by assumption); decide)) : Kept P x (wordPre a0 a1 x a3 a4).2 := by
  unfold wordPre
  split
  · dsimp only
    refine Kept.of_snd (by assumption) ?_
    refine Kept.andThen (h1 ..) ?_
    exact Kept.refl _
  · split
    · dsimp only
      refine Kept.of_snd (by assumption) ?_
      refine Kept.andThen (h1 ..) ?_
      exact Kept.refl _
    · dsimp only
      refine Kept.andThen State.correctedWords_kept ?_
      refine Kept.of_snd (by assumption) ?_
      refine Kept.andThen (h1 ..) ?_
      exact Kept.refl _
    · dsimp only
      refine Kept.andThen State.wordFault_kept ?_
      refine Kept.of_snd (by assumption) ?_
      refine Kept.andThen (h1 ..) ?_
      exact Kept.refl _

theorem State.replayStage_kept {x : State} {a1} {a2} {a3} : Kept [.regs, .arr, .mem, .serve, .free] x (State.replayStage x a1 a2 a3) := by
  unfold State.replayStage
  dsimp only
  split
  · refine Kept.ite ?_ ?_
    · refine Kept.andThen State.tileWrite_kept ?_
      refine Kept.andThen State.freshBytes_kept ?_
      exact Kept.refl _
    · refine Kept.andThen State.writeBlock_kept ?_
      refine Kept.andThen State.verdict_kept ?_
      exact Kept.refl _
  · refine Kept.andThen State.tileWrite_kept ?_
    refine Kept.andThen State.freshBytes_kept ?_
    exact Kept.refl _

theorem State.badBlock_kept {x : State} {a1} {a2} : Kept [.regs, .arr, .mem, .serve, .fab, .rings, .faults, .out, .free] x (State.badBlock x a1 a2).2 := by
  unfold State.badBlock
  dsimp only
  split
  · split
    · split
      · dsimp only
        refine Kept.andThen State.detectBead_kept ?_
        refine Kept.andThen State.stepFault_kept ?_
        refine Kept.andThen State.failConfig_kept ?_
        refine Kept.andThen State.noteReplay_kept ?_
        refine Kept.andThen State.detectBead_kept ?_
        refine Kept.andThen State.bump_kept ?_
        refine Kept.andThen State.bumpIf_kept ?_
        exact Kept.refl _
      · dsimp only
        refine Kept.andThen State.setBead_kept ?_
        refine Kept.ite ?_ ?_
        · refine Kept.foldl _ _ ?_ ?_
          · refine Kept.andThen State.noteReplay_kept ?_
            refine Kept.andThen State.detectBead_kept ?_
            refine Kept.andThen State.bump_kept ?_
            refine Kept.andThen State.bumpIf_kept ?_
            exact Kept.refl _
          · intro _ _
            refine Kept.andThen State.refetchTile_kept ?_
            exact Kept.refl _
        · refine Kept.ite ?_ ?_
          · refine Kept.andThen State.noteReplay_kept ?_
            refine Kept.andThen State.detectBead_kept ?_
            refine Kept.andThen State.bump_kept ?_
            refine Kept.andThen State.bumpIf_kept ?_
            exact Kept.refl _
          · refine Kept.andThen State.replayStage_kept ?_
            refine Kept.andThen State.noteReplay_kept ?_
            refine Kept.andThen State.detectBead_kept ?_
            refine Kept.andThen State.bump_kept ?_
            refine Kept.andThen State.bumpIf_kept ?_
            exact Kept.refl _
    · split
      · dsimp only
        refine Kept.andThen State.detectBead_kept ?_
        refine Kept.andThen State.stepFault_kept ?_
        refine Kept.andThen State.failConfig_kept ?_
        refine Kept.andThen State.noteReplay_kept ?_
        refine Kept.andThen State.bump_kept ?_
        refine Kept.andThen State.bumpIf_kept ?_
        exact Kept.refl _
      · dsimp only
        refine Kept.andThen State.setBead_kept ?_
        refine Kept.ite ?_ ?_
        · refine Kept.foldl _ _ ?_ ?_
          · refine Kept.andThen State.noteReplay_kept ?_
            refine Kept.andThen State.bump_kept ?_
            refine Kept.andThen State.bumpIf_kept ?_
            exact Kept.refl _
          · intro _ _
            refine Kept.andThen State.refetchTile_kept ?_
            exact Kept.refl _
        · refine Kept.ite ?_ ?_
          · refine Kept.andThen State.noteReplay_kept ?_
            refine Kept.andThen State.bump_kept ?_
            refine Kept.andThen State.bumpIf_kept ?_
            exact Kept.refl _
          · refine Kept.andThen State.replayStage_kept ?_
            refine Kept.andThen State.noteReplay_kept ?_
            refine Kept.andThen State.bump_kept ?_
            refine Kept.andThen State.bumpIf_kept ?_
            exact Kept.refl _
  · split
    · dsimp only
      refine Kept.andThen State.detectBead_kept ?_
      refine Kept.andThen State.stepFault_kept ?_
      refine Kept.andThen State.failConfig_kept ?_
      refine Kept.andThen State.noteReplay_kept ?_
      refine Kept.andThen State.bump_kept ?_
      refine Kept.andThen State.bumpIf_kept ?_
      exact Kept.refl _
    · dsimp only
      refine Kept.andThen State.setBead_kept ?_
      refine Kept.ite ?_ ?_
      · refine Kept.foldl _ _ ?_ ?_
        · refine Kept.andThen State.noteReplay_kept ?_
          refine Kept.andThen State.bump_kept ?_
          refine Kept.andThen State.bumpIf_kept ?_
          exact Kept.refl _
        · intro _ _
          refine Kept.andThen State.refetchTile_kept ?_
          exact Kept.refl _
      · refine Kept.ite ?_ ?_
        · refine Kept.andThen State.noteReplay_kept ?_
          refine Kept.andThen State.bump_kept ?_
          refine Kept.andThen State.bumpIf_kept ?_
          exact Kept.refl _
        · refine Kept.andThen State.replayStage_kept ?_
          refine Kept.andThen State.noteReplay_kept ?_
          refine Kept.andThen State.bump_kept ?_
          refine Kept.andThen State.bumpIf_kept ?_
          exact Kept.refl _
  · split
    · dsimp only
      refine Kept.andThen State.detectBead_kept ?_
      refine Kept.andThen State.stepFault_kept ?_
      refine Kept.andThen State.failConfig_kept ?_
      refine Kept.andThen State.noteReplay_kept ?_
      refine Kept.andThen State.bump_kept ?_
      refine Kept.andThen State.bump_kept ?_
      refine Kept.andThen State.bumpIf_kept ?_
      exact Kept.refl _
    · dsimp only
      refine Kept.andThen State.setBead_kept ?_
      refine Kept.ite ?_ ?_
      · refine Kept.foldl _ _ ?_ ?_
        · refine Kept.andThen State.noteReplay_kept ?_
          refine Kept.andThen State.bump_kept ?_
          refine Kept.andThen State.bump_kept ?_
          refine Kept.andThen State.bumpIf_kept ?_
          exact Kept.refl _
        · intro _ _
          refine Kept.andThen State.refetchTile_kept ?_
          exact Kept.refl _
      · refine Kept.ite ?_ ?_
        · refine Kept.andThen State.noteReplay_kept ?_
          refine Kept.andThen State.bump_kept ?_
          refine Kept.andThen State.bump_kept ?_
          refine Kept.andThen State.bumpIf_kept ?_
          exact Kept.refl _
        · refine Kept.andThen State.replayStage_kept ?_
          refine Kept.andThen State.noteReplay_kept ?_
          refine Kept.andThen State.bump_kept ?_
          refine Kept.andThen State.bump_kept ?_
          refine Kept.andThen State.bumpIf_kept ?_
          exact Kept.refl _

/-! ### Matrix -/

theorem State.drain_kept {x : State} {a1} {a2} {a3} : Kept [.arr, .mem] x (State.drain x a1 a2 a3) := by
  unfold State.drain
  dsimp only
  refine Kept.ite ?_ ?_
  · refine Kept.andThen State.setBead_kept ?_
    exact Kept.refl _
  · refine Kept.ite ?_ ?_
    · refine Kept.andThen State.tileWrite_kept ?_
      exact Kept.refl _
    · refine Kept.andThen State.tileWrite_kept ?_
      exact Kept.refl _

theorem State.accumulateMat_kept {x : State} {a1} {a2} {a3} {a4} {a5} : Kept [.arr] x (State.accumulateMat x a1 a2 a3 a4 a5) := by
  unfold State.accumulateMat
  dsimp only
  refine Kept.andThen State.setBead_kept ?_
  exact Kept.refl _

theorem State.matRun_kept {x : State} {a1} {a2} : Kept [.regs, .arr, .mem, .serve, .fab, .rings, .faults, .out] x (State.matRun x a1 a2) := by
  unfold State.matRun
  dsimp only
  refine Kept.ite ?_ ?_
  · refine Kept.andThen State.detectBead_kept ?_
    refine Kept.andThen State.stepFault_kept ?_
    refine Kept.andThen State.failConfig_kept ?_
    refine Kept.upd ?_
    exact Kept.refl _
  · split
    · exact Kept.refl _
    · refine Kept.ite ?_ ?_
      · refine Kept.andThen State.drain_kept ?_
        refine Kept.andThen State.accumulateMat_kept ?_
        exact Kept.refl _
      · refine Kept.andThen State.accumulateMat_kept ?_
        exact Kept.refl _

theorem State.matPre_kept {x : State} {a1} {a2} : Kept [.regs, .arr, .mem, .serve, .fab, .rings, .faults, .out, .free] x (State.matPre x a1 a2).2 := by
  unfold State.matPre
  dsimp only
  split
  · exact Kept.refl _
  · split
    · exact Kept.refl _
    · split
      · exact Kept.refl _
      · dsimp only
        refine Kept.andThen State.badBlock_kept ?_
        exact Kept.refl _

theorem execMatrix_kept {x : State} {a0} {a1} : KeptR [.regs, .arr, .mem, .serve, .fab, .rings, .faults, .platform, .out, .free] x (execMatrix a0 x a1) := by
  unfold execMatrix
  refine KeptR.next ?_
  refine Kept.on (State.watched_kept ?_) ?_
  · intro _
    refine Kept.on (State.action_kept ?_ ?_) ?_
    · intro _ _ _
      refine Kept.on (wordPre_kept ?_) ?_
      · intro _ _ _
        refine Kept.andThen State.matPre_kept ?_
        exact Kept.refl _
      · exact Kept.refl _
    · intro _ _ _ _
      dsimp only
      refine Kept.andThen State.matRun_kept ?_
      exact Kept.refl _
    · exact Kept.refl _
  · exact Kept.refl _

end Sys2Proof.Machine
end

