-- ==== Sys2Proof/Laws/Kept4.lean ====
section
/-! SUPPORT. What the operations and the commands of Machine/Tiles.lean, Machine/Power.lean, Machine/Host.lean keep (Laws/Kept.lean). -/
set_option Elab.async false

namespace Sys2Proof.Machine

/-! ### Tiles -/

theorem State.startFill_kept {x : State} {a1} {a2} : Kept [.regs, .arr, .mem, .serve] x (State.startFill x a1 a2) := by
  unfold State.startFill
  dsimp only
  refine Kept.ite ?_ ?_
  · refine Kept.andThen State.accessFault_kept ?_
    exact Kept.refl _
  · refine Kept.andThen State.issueReads_kept ?_
    refine Kept.andThen State.setBead_kept ?_
    exact Kept.refl _

theorem execFill_kept {x : State} {a0} {a1} : KeptR [.regs, .arr, .mem, .serve, .fab, .faults, .platform, .out] x (execFill a0 x a1) := by
  unfold execFill
  refine KeptR.next ?_
  refine Kept.on (State.watched_kept ?_) ?_
  · intro _
    refine Kept.on (State.action_kept ?_ ?_) ?_
    · intro _ _ _
      refine Kept.on (wordPre_kept ?_) ?_
      · intro _ _ _
        refine Kept.andThen readsOnly_kept ?_
        exact Kept.refl _
      · exact Kept.refl _
    · intro _ _ _ _
      dsimp only
      refine Kept.andThen State.startFill_kept ?_
      exact Kept.refl _
    · exact Kept.refl _
  · exact Kept.refl _

theorem State.endFill_kept {x : State} {a1} {a2} : Kept [.regs, .arr, .mem] x (State.endFill x a1 a2) := by
  unfold State.endFill
  dsimp only
  refine Kept.andThen State.issueReads_kept ?_
  refine Kept.andThen State.setBead_kept ?_
  exact Kept.refl _

theorem State.land_kept {x : State} {a1} {a2} : Kept [.regs, .arr, .mem] x (State.land x a1 a2) := by
  unfold State.land
  dsimp only
  refine Kept.andThen State.setBead_kept ?_
  refine Kept.andThen State.endFill_kept ?_
  refine Kept.andThen State.touch_kept ?_
  refine Kept.andThen State.storeAt_kept ?_
  refine Kept.andThen State.bumpIf_kept ?_
  exact Kept.refl _

theorem State.fillFails_kept {x : State} {a1} {a2} {a3} : Kept [.regs, .arr, .mem, .serve] x (State.fillFails x a1 a2 a3) := by
  unfold State.fillFails
  refine Kept.andThen State.accessFault_kept ?_
  refine Kept.andThen State.endFill_kept ?_
  exact Kept.refl _

theorem State.verifyFill_kept {x : State} {a1} {a2} {a3} : Kept [.regs, .arr, .mem, .serve, .vault, .fab, .rings, .faults, .handed, .out] x (State.verifyFill x a1 a2 a3) := by
  unfold State.verifyFill
  dsimp only
  split
  · refine Kept.andThen State.land_kept ?_
    refine Kept.of_snd2 (by assumption) ?_
    refine Kept.andThen State.readTile_kept ?_
    exact Kept.refl _
  · split
    · refine Kept.ite ?_ ?_
      · refine Kept.andThen State.noteReplay_kept ?_
        refine Kept.andThen State.setBead_kept ?_
        refine Kept.of_snd2 (by assumption) ?_
        refine Kept.andThen State.readTile_kept ?_
        exact Kept.refl _
      · refine Kept.andThen State.setBead_kept ?_
        refine Kept.of_snd2 (by assumption) ?_
        refine Kept.andThen State.readTile_kept ?_
        exact Kept.refl _
    · refine Kept.andThen State.setBead_kept ?_
      refine Kept.of_snd2 (by assumption) ?_
      refine Kept.andThen State.readTile_kept ?_
      exact Kept.refl _
  · refine Kept.ite ?_ ?_
    · refine Kept.andThen State.fillFails_kept ?_
      refine Kept.of_snd2 (by assumption) ?_
      refine Kept.andThen State.readTile_kept ?_
      exact Kept.refl _
    · refine Kept.ite ?_ ?_
      · refine Kept.andThen State.endFill_kept ?_
        refine Kept.andThen State.kvLost_kept ?_
        refine Kept.of_snd2 (by assumption) ?_
        refine Kept.andThen State.readTile_kept ?_
        exact Kept.refl _
      · refine Kept.andThen State.fillFails_kept ?_
        refine Kept.of_snd2 (by assumption) ?_
        refine Kept.andThen State.readTile_kept ?_
        exact Kept.refl _

theorem State.landTile_kept {x : State} {a1} {a2} {a3} : Kept [.regs, .arr, .mem, .serve, .vault, .fab, .rings, .faults, .handed, .out] x (State.landTile x a1 a2 a3) := by
  unfold State.landTile
  dsimp only
  split
  · refine Kept.andThen State.issueReads_kept ?_
    exact Kept.refl _
  · refine Kept.ite ?_ ?_
    · refine Kept.andThen State.issueReads_kept ?_
      exact Kept.refl _
    · refine Kept.ite ?_ ?_
      · refine Kept.andThen State.fillFails_kept ?_
        refine Kept.andThen State.issueReads_kept ?_
        exact Kept.refl _
      · refine Kept.ite ?_ ?_
        · refine Kept.andThen State.fillFails_kept ?_
          refine Kept.andThen State.issueReads_kept ?_
          exact Kept.refl _
        · refine Kept.andThen State.verifyFill_kept ?_
          refine Kept.andThen State.issueReads_kept ?_
          exact Kept.refl _

theorem execTileLanding_kept {x : State} {a0} {a1} {a2} : KeptR [.regs, .arr, .mem, .serve, .vault, .fab, .rings, .faults, .handed, .platform, .out] x (execTileLanding a0 a1 a2 x) := by
  unfold execTileLanding
  refine KeptR.next ?_
  refine Kept.on (State.watched_kept ?_) ?_
  · intro _
    refine Kept.andThen State.landTile_kept ?_
    exact Kept.refl _
  · exact Kept.refl _

theorem State.sendTile_kept {x : State} {a1} {a2} {a3} : Kept [.arr, .mem] x (State.sendTile x a1 a2 a3) := by
  unfold State.sendTile
  refine Kept.ite ?_ ?_
  · exact Kept.refl _
  · dsimp only
    refine Kept.andThen State.setBead_kept ?_
    split
    · refine Kept.andThen State.setMem_kept ?_
      refine Kept.andThen State.writeMpa_kept ?_
      exact Kept.refl _
    · refine Kept.andThen State.writeMpa_kept ?_
      exact Kept.refl _

theorem State.sendTiles_kept {x : State} {a1} {a2} : Kept [.regs, .arr, .mem, .serve] x (State.sendTiles x a1 a2) := by
  unfold State.sendTiles
  dsimp only
  refine Kept.ite ?_ ?_
  · exact Kept.refl _
  · refine Kept.ite ?_ ?_
    · refine Kept.andThen State.accessFault_kept ?_
      exact Kept.refl _
    · refine Kept.foldl _ _ ?_ ?_
      · exact Kept.refl _
      · intro _ _
        refine Kept.andThen State.sendTile_kept ?_
        exact Kept.refl _

theorem State.writebackPre_kept {x : State} {a1} {a2} : Kept [] x (State.writebackPre x a1 a2).2 := by
  unfold State.writebackPre
  dsimp only
  split
  · exact Kept.refl _
  · split
    · split
      · exact Kept.refl _
      · exact Kept.refl _
    · split
      · exact Kept.refl _
      · exact Kept.refl _

theorem execWriteback_kept {x : State} {a0} {a1} : KeptR [.regs, .arr, .mem, .serve, .fab, .faults, .platform, .out] x (execWriteback a0 x a1) := by
  unfold execWriteback
  refine KeptR.next ?_
  refine Kept.on (State.watched_kept ?_) ?_
  · intro _
    refine Kept.on (State.action_kept ?_ ?_) ?_
    · intro _ _ _
      refine Kept.on (wordPre_kept ?_) ?_
      · intro _ _ _
        refine Kept.andThen State.writebackPre_kept ?_
        exact Kept.refl _
      · exact Kept.refl _
    · intro _ _ _ _
      dsimp only
      refine Kept.andThen State.sendTiles_kept ?_
      exact Kept.refl _
    · exact Kept.refl _
  · exact Kept.refl _

theorem State.asIssued_kept {x : State} {r} : Kept [.mem] x (x.asIssued r) :=
  ⟨fun w => by
    show Memory.wf (r.old.foldl _ x.mem.cells)
    generalize x.mem.cells = m at w
    induction r.old generalizing m with
    | nil => exact w
    | cons a l ih => exact ih _ (Memory.write_wf _ _ _ w),
    Nat.le_refl _, Nat.le_refl _, rfl, List.prefix_refl _, id,
    fun p hp => by cases p <;> first | rfl | exact absurd (by decide) hp⟩

theorem State.gatherResult_kept {x : State} {a1} {a2} {a3} : Kept [.regs, .arr, .mem] x (State.gatherResult x a1 a2 a3) := by
  unfold State.gatherResult
  dsimp only
  refine Kept.andThen State.issueReads_kept ?_
  refine Kept.andThen State.tileWrite_kept ?_
  refine Kept.andThen State.setMem_kept ?_
  exact Kept.refl _

theorem State.gatherFails_kept {x : State} {a1} : Kept [.regs, .arr, .mem, .serve] x (State.gatherFails x a1) := by
  unfold State.gatherFails
  dsimp only
  split
  · refine Kept.andThen State.failConfig_kept ?_
    refine Kept.andThen State.gatherResult_kept ?_
    exact Kept.refl _
  · refine Kept.andThen State.gatherResult_kept ?_
    exact Kept.refl _

theorem State.gatherWrites_kept {x : State} {a1} : Kept [.regs, .arr, .mem] x (State.gatherWrites x a1) := by
  unfold State.gatherWrites
  dsimp only
  refine Kept.andThen State.gatherResult_kept ?_
  refine Kept.foldl _ _ ?_ ?_
  · refine Kept.andThen State.setMem_kept ?_
    refine Kept.andThen State.bumpBy_kept ?_
    refine Kept.andThen State.storeAt_kept ?_
    exact Kept.refl _
  · intro _ _
    refine Kept.andThen State.touch_kept ?_
    exact Kept.refl _

theorem State.verifyGather_kept {x : State} {a1} {a2} : Kept [.regs, .arr, .mem, .serve, .vault, .fab, .rings, .faults, .handed, .out] x (State.verifyGather x a1 a2) := by
  unfold State.verifyGather
  dsimp only
  split
  · refine Kept.andThen State.gatherWrites_kept ?_
    refine Kept.of_snd2 (by assumption) ?_
    refine Kept.andThen State.readTile_kept ?_
    exact Kept.refl _
  · refine Kept.andThen State.setMem_kept ?_
    refine Kept.of_snd2 (by assumption) ?_
    refine Kept.andThen State.readTile_kept ?_
    exact Kept.refl _
  · refine Kept.andThen State.gatherFails_kept ?_
    refine Kept.of_snd2 (by assumption) ?_
    refine Kept.andThen State.readTile_kept ?_
    exact Kept.refl _

theorem State.gatherDone_kept {x : State} {a1} {a2} : Kept [.regs, .arr, .mem, .serve, .vault, .fab, .rings, .faults, .handed, .out] x (State.gatherDone x a1 a2) := by
  unfold State.gatherDone
  dsimp only
  split
  · exact Kept.refl _
  · refine Kept.ite ?_ ?_
    · exact Kept.refl _
    · refine Kept.ite ?_ ?_
      · refine Kept.andThen State.gatherResult_kept ?_
        refine Kept.andThen State.bumpIf_kept ?_
        exact Kept.refl _
      · refine Kept.ite ?_ ?_
        · refine Kept.andThen State.gatherFails_kept ?_
          exact Kept.refl _
        · refine Kept.andThen State.verifyGather_kept ?_
          exact Kept.refl _

theorem State.startGather_kept {x : State} {a1} {a2} : Kept [.regs, .arr, .mem] x (State.startGather x a1 a2) := by
  unfold State.startGather
  dsimp only
  refine Kept.ite ?_ ?_
  · refine Kept.andThen State.setMem_kept ?_
    refine Kept.andThen State.bumpIf_kept ?_
    exact Kept.refl _
  · refine Kept.andThen State.gatherResult_kept ?_
    exact Kept.refl _

theorem execGather_kept {x : State} {a0} {a1} : KeptR [.regs, .arr, .mem, .serve, .fab, .faults, .platform, .out] x (execGather a0 x a1) := by
  unfold execGather
  refine KeptR.next ?_
  refine Kept.on (State.watched_kept ?_) ?_
  · intro _
    refine Kept.on (State.action_kept ?_ ?_) ?_
    · intro _ _ _
      refine Kept.on (wordPre_kept ?_) ?_
      · intro _ _ _
        refine Kept.andThen readsOnly_kept ?_
        exact Kept.refl _
      · exact Kept.refl _
    · intro _ _ _ _
      dsimp only
      refine Kept.andThen State.startGather_kept ?_
      exact Kept.refl _
    · exact Kept.refl _
  · exact Kept.refl _

theorem State.evict_kept {x : State} {a1} : Kept [.mem, .serve] x (State.evict x a1) := by
  unfold State.evict
  dsimp only
  refine Kept.andThen State.setMem_kept ?_
  refine Kept.andThen State.setInst_kept ?_
  exact Kept.refl _

theorem State.evictFor_kept {x : State} {i k n got} : Kept [.mem, .serve] x (x.evictFor i k n got).2 := by
  induction n generalizing x got with
  | zero => exact Kept.refl _
  | succ n ih =>
    unfold State.evictFor
    dsimp only
    split
    · exact Kept.refl _
    · exact Kept.on ih State.evict_kept

theorem State.allocate_kept {x : State} {a1} {a2} {a3} {a4} : Kept [.mem, .serve] x (State.allocate x a1 a2 a3 a4).2 := by
  unfold State.allocate
  dsimp only
  split
  · exact Kept.refl _
  · split
    · dsimp only
      refine Kept.of_snd (by assumption) ?_
      refine Kept.andThen State.evictFor_kept ?_
      exact Kept.refl _
    · dsimp only
      refine Kept.andThen State.setMem_kept ?_
      refine Kept.andThen State.setInst_kept ?_
      refine Kept.foldl _ _ ?_ ?_
      · refine Kept.of_snd (by assumption) ?_
        refine Kept.andThen State.evictFor_kept ?_
        exact Kept.refl _
      · intro _ _
        refine Kept.andThen State.zeroAt_kept ?_
        exact Kept.refl _

theorem State.freePoolPages_kept {x : State} {a1} {a2} : Kept [.mem, .serve] x (State.freePoolPages x a1 a2) := by
  unfold State.freePoolPages
  dsimp only
  refine Kept.andThen State.setMem_kept ?_
  refine Kept.andThen State.setInst_kept ?_
  exact Kept.refl _

theorem State.allocateAll_kept {x : State} {i l got} : Kept [.mem, .serve] x (x.allocateAll i l got).2 := by
  induction l generalizing x got with
  | nil => exact Kept.refl _
  | cons a l ih =>
    obtain ⟨k, n, cls⟩ := a
    unfold State.allocateAll
    split
    · exact ih
    · split
      · exact State.freePoolPages_kept.andThen (Kept.of_snd (by assumption) (State.allocate_kept.mono (by decide)))
      · exact ih.on (Kept.of_snd (by assumption) (State.allocate_kept.mono (by decide)))

theorem State.poolRecords_kept {x : State} : Kept [.mem, .handed] x (State.poolRecords x) := by
  unfold State.poolRecords
  dsimp only
  refine Kept.andThen State.setMem_kept ?_
  refine Kept.foldl _ _ ?_ ?_
  · exact Kept.refl _
  · intro _ _
    refine Kept.andThen State.hand_kept ?_
    exact Kept.refl _

theorem State.markFilling_kept {x : State} {a1} {a2} : Kept [.arr, .mem] x (State.markFilling x a1 a2) := by
  unfold State.markFilling
  dsimp only
  split
  · exact Kept.refl _
  · refine Kept.upd ?_
    exact Kept.refl _

theorem State.startList_kept {x : State} {a1} {a2} {a3} : Kept [.regs, .arr, .mem] x (State.startList x a1 a2 a3) := by
  unfold State.startList
  dsimp only
  split
  · exact Kept.refl _
  · refine Kept.ite ?_ ?_
    · refine Kept.andThen State.bump_kept ?_
      refine Kept.andThen State.setMem_kept ?_
      exact Kept.refl _
    · refine Kept.andThen State.markFilling_kept ?_
      refine Kept.andThen State.setMem_kept ?_
      exact Kept.refl _

theorem State.endList_kept {x : State} {a1} : Kept [.arr, .mem] x (State.endList x a1) := by
  unfold State.endList
  dsimp only
  split
  · refine Kept.andThen State.setMem_kept ?_
    exact Kept.refl _
  · refine Kept.andThen State.markFilling_kept ?_
    refine Kept.andThen State.setMem_kept ?_
    refine Kept.andThen State.setMem_kept ?_
    exact Kept.refl _

theorem State.stepList_kept {x : State} {a1} {a2} {a3} : Kept [.arr, .mem] x (State.stepList x a1 a2 a3) := by
  unfold State.stepList
  dsimp only
  refine Kept.ite ?_ ?_
  · refine Kept.andThen State.endList_kept ?_
    refine Kept.andThen State.setMem_kept ?_
    exact Kept.refl _
  · refine Kept.ite ?_ ?_
    · refine Kept.andThen State.markFilling_kept ?_
      refine Kept.andThen State.setMem_kept ?_
      exact Kept.refl _
    · refine Kept.andThen State.setMem_kept ?_
      exact Kept.refl _

theorem State.landed_kept {x : State} {a1} {a2} : Kept [.mem] x (State.landed x a1 a2) := by
  unfold State.landed
  refine Kept.andThen State.setMem_kept ?_
  exact Kept.refl _

theorem State.listRead_kept {x : State} {r e l a t c} : Kept [.regs, .arr, .mem, .serve, .vault, .fab, .rings, .faults, .handed, .out] x (x.listRead r e l a t c) := by
  unfold State.listRead
  extract_lets k cls ended lost
  have he : ∀ y, Kept [.regs, .arr, .mem, .serve, .vault, .fab, .rings, .faults, .handed, .out] y (ended y) := fun y =>
    State.stepList_kept.andThen (State.landed_kept.andThen (State.setAttempts_kept.mono (by decide)))
  have hl : ∀ y, Kept [.regs, .arr, .mem, .serve, .vault, .fab, .rings, .faults, .handed, .out] y (lost y) := fun y =>
    Kept.on (he _) (Kept.ite (State.kvLost_kept.mono (by decide)) (State.failSteps_kept.mono (by decide)))
  have hr : ∀ (d n : Nat) p, Kept [.regs, .arr, .mem, .serve, .vault, .fab, .rings, .faults, .handed, .out] x (x.readTile d a cls n p c).2.2 := fun d n p => State.readTile_kept.mono (by decide)
  clear_value k cls ended lost
  split
  · exact hl _
  · split
    · next e => exact Kept.on (he _) (State.storeAt_kept.andThen (Kept.of_snd2 e (hr _ _ _)))
    · next e =>
      refine Kept.on ?_ (Kept.of_snd2 e (hr _ _ _))
      dsimp only
      exact Kept.ite (Kept.upd (Kept.refl _)) (Kept.refl _)
    · next e => exact Kept.on (hl _) (Kept.of_snd2 e (hr _ _ _))

theorem State.landPrefetch_kept {x : State} {a1} {a2} {a3} : Kept [.regs, .arr, .mem, .serve, .vault, .fab, .rings, .faults, .handed, .out] x (State.landPrefetch x a1 a2 a3) := by
  unfold State.landPrefetch
  split
  · exact Kept.refl _
  · split
    · exact Kept.refl _
    · refine Kept.andThen State.listRead_kept ?_
      exact Kept.refl _

theorem State.fillBy_kept {x : State} {a1} {a2} : Kept [.time, .regs, .mem, .rings, .out] x (State.fillBy x a1 a2) := by
  unfold State.fillBy
  dsimp only
  split
  · exact Kept.refl _
  · refine Kept.ite ?_ ?_
    · exact Kept.refl _
    · refine Kept.andThen State.instEvent_kept ?_
      refine Kept.andThen State.bump_kept ?_
      refine Kept.andThen State.setMem_kept ?_
      refine Kept.andThen State.toTick_kept ?_
      exact Kept.refl _

theorem execPrefetchFillBy_kept {x : State} {a0} {a1} : KeptR [.time, .regs, .mem, .rings, .out] x (execPrefetchFillBy a0 a1 x) := by
  unfold execPrefetchFillBy
  refine KeptR.next ?_
  refine Kept.andThen State.fillBy_kept ?_
  exact Kept.refl _

/-! ### Power -/

theorem State.setPower_kept {x : State} {a1} : Kept [.power] x (State.setPower x a1) := by
  unfold State.setPower
  refine Kept.upd ?_
  exact Kept.refl _

theorem State.alertCheck_kept {x : State} : Kept [.regs, .rings, .power, .out] x (State.alertCheck x) := by
  unfold State.alertCheck
  dsimp only
  refine Kept.ite ?_ ?_
  · exact Kept.refl _
  · refine Kept.ite ?_ ?_
    · refine Kept.andThen State.event_kept ?_
      refine Kept.andThen State.alert_kept ?_
      refine Kept.andThen State.emit_kept ?_
      refine Kept.andThen State.setPower_kept ?_
      exact Kept.refl _
    · refine Kept.andThen State.emit_kept ?_
      refine Kept.andThen State.setPower_kept ?_
      exact Kept.refl _

theorem State.powerRecord_kept {x : State} {a1} : Kept [.handed] x (State.powerRecord x a1) := by
  unfold State.powerRecord
  refine Kept.andThen State.regRecord_kept ?_
  exact Kept.refl _

theorem State.applyOps_kept {x : State} {a1} : Kept [.regs, .power] x (State.applyOps x a1) := by
  unfold State.applyOps
  dsimp only
  refine Kept.andThen State.setPower_kept ?_
  refine Kept.andThen State.bumpBy_kept ?_
  exact Kept.refl _

theorem State.holdCeilings_kept {x : State} : Kept [.regs, .power] x (State.holdCeilings x) := by
  unfold State.holdCeilings
  refine Kept.andThen State.applyOps_kept ?_
  exact Kept.refl _

theorem State.opPrefFire_kept {x : State} {a1} : Kept [.power] x (State.opPrefFire x a1) := by
  unfold State.opPrefFire
  dsimp only
  refine Kept.andThen State.setPower_kept ?_
  exact Kept.refl _

theorem State.keepSet_kept {x : State} {a1} : Kept [.power] x (State.keepSet x a1) := by
  unfold State.keepSet
  refine Kept.andThen State.setPower_kept ?_
  exact Kept.refl _

theorem State.sendSteel_kept {x : State} : Kept [.power, .out] x (State.sendSteel x) := by
  unfold State.sendSteel
  dsimp only
  refine Kept.ite ?_ ?_
  · refine Kept.andThen State.emits_kept ?_
    refine Kept.andThen State.keepSet_kept ?_
    refine Kept.andThen State.setPower_kept ?_
    exact Kept.refl _
  · refine Kept.andThen State.setPower_kept ?_
    exact Kept.refl _

theorem State.steelIn_kept {x : State} {a1} {a2} : Kept [.regs, .power] x (State.steelIn x a1 a2) := by
  unfold State.steelIn
  refine Kept.ite ?_ ?_
  · exact Kept.refl _
  · refine Kept.ite ?_ ?_
    · refine Kept.andThen State.bump_kept ?_
      exact Kept.refl _
    · refine Kept.ite ?_ ?_
      · exact Kept.refl _
      · refine Kept.ite ?_ ?_
        · refine Kept.andThen State.bump_kept ?_
          exact Kept.refl _
        · refine Kept.andThen State.keepSet_kept ?_
          exact Kept.refl _

theorem execSteelyardSetReceive_kept {x : State} {a0} {a1} : KeptR [.regs, .power] x (execSteelyardSetReceive a0 a1 x) := by
  unfold execSteelyardSetReceive
  refine KeptR.next ?_
  refine Kept.andThen State.steelIn_kept ?_
  exact Kept.refl _

theorem State.decide_kept {x : State} : Kept [.time, .regs, .rings, .power, .handed, .out] x (State.decide x) := by
  unfold State.decide
  dsimp only
  refine Kept.andThen State.alertCheck_kept ?_
  refine Kept.ite ?_ ?_
  · refine Kept.andThen State.setPower_kept ?_
    refine Kept.andThen State.toTick_kept ?_
    exact Kept.refl _
  · refine Kept.andThen State.powerRecord_kept ?_
    refine Kept.andThen State.setPower_kept ?_
    refine Kept.andThen State.toTick_kept ?_
    exact Kept.refl _

theorem State.decideOnce_kept {x : State} : Kept [.time, .regs, .rings, .power, .handed, .out] x (State.decideOnce x) := by
  unfold State.decideOnce
  refine Kept.ite ?_ ?_
  · exact Kept.refl _
  · refine Kept.andThen State.decide_kept ?_
    exact Kept.refl _

theorem execPowerDecision_kept {x : State} : KeptR [.time, .regs, .rings, .power, .handed, .platform, .out] x (execPowerDecision x) := by
  unfold execPowerDecision
  refine KeptR.next ?_
  refine Kept.on (State.watched_kept ?_) ?_
  · intro _
    refine Kept.andThen State.decideOnce_kept ?_
    exact Kept.refl _
  · exact Kept.refl _

theorem State.applyPending_kept {x : State} : Kept [.regs, .power] x (State.applyPending x) := by
  unfold State.applyPending
  dsimp only
  split
  · exact Kept.refl _
  · refine Kept.ite ?_ ?_
    · refine Kept.andThen State.setPower_kept ?_
      refine Kept.andThen State.bumpIf_kept ?_
      exact Kept.refl _
    · refine Kept.andThen State.applyOps_kept ?_
      refine Kept.andThen State.setPower_kept ?_
      exact Kept.refl _

theorem State.lowInputOn_kept {x : State} : Kept [.regs, .rings, .power, .handed, .out] x (State.lowInputOn x) := by
  unfold State.lowInputOn
  refine Kept.ite ?_ ?_
  · exact Kept.refl _
  · dsimp only
    refine Kept.andThen State.alertCheck_kept ?_
    refine Kept.andThen State.powerRecord_kept ?_
    refine Kept.andThen State.holdCeilings_kept ?_
    refine Kept.andThen State.setPower_kept ?_
    exact Kept.refl _

theorem State.measureInput_kept {x : State} {a1} : Kept [.power] x (State.measureInput x a1) := by
  unfold State.measureInput
  dsimp only
  refine Kept.andThen State.setPower_kept ?_
  exact Kept.refl _

theorem State.sampleInput_kept {x : State} {a1} {a2} : Kept [.time, .regs, .arr, .mem, .serve, .vault, .fab, .arb, .chans, .rings, .power, .faults, .ledger, .handed, .sec, .svc, .phase, .out] x (State.sampleInput x a1 a2) := by
  unfold State.sampleInput
  dsimp only
  refine Kept.ite ?_ ?_
  · refine Kept.ite ?_ ?_
    · refine Kept.andThen State.start_kept ?_
      refine Kept.upd ?_
      exact Kept.refl _
    · refine Kept.upd ?_
      exact Kept.refl _
  · refine Kept.ite ?_ ?_
    · refine Kept.ite ?_ ?_
      · refine Kept.andThen State.orderlyHalt_kept ?_
        refine Kept.andThen State.measureInput_kept ?_
        refine Kept.upd ?_
        exact Kept.refl _
      · refine Kept.ite ?_ ?_
        · refine Kept.andThen State.orderlyHalt_kept ?_
          refine Kept.andThen State.measureInput_kept ?_
          refine Kept.upd ?_
          exact Kept.refl _
        · refine Kept.ite ?_ ?_
          · refine Kept.andThen State.lowInputOn_kept ?_
            refine Kept.andThen State.setPower_kept ?_
            refine Kept.andThen State.measureInput_kept ?_
            refine Kept.upd ?_
            exact Kept.refl _
          · refine Kept.andThen State.setPower_kept ?_
            refine Kept.andThen State.measureInput_kept ?_
            refine Kept.upd ?_
            exact Kept.refl _
    · refine Kept.upd ?_
      exact Kept.refl _

theorem execInputSample_kept {x : State} {a0} {a1} : KeptR [.time, .regs, .arr, .mem, .serve, .vault, .fab, .arb, .chans, .rings, .power, .faults, .ledger, .handed, .sec, .platform, .svc, .phase, .out] x (execInputSample a0 x a1) := by
  unfold execInputSample
  refine KeptR.next ?_
  refine Kept.on (State.watched_kept ?_) ?_
  · intro _
    refine Kept.andThen State.sampleInput_kept ?_
    exact Kept.refl _
  · exact Kept.refl _

theorem State.lowInputOff_kept {x : State} : Kept [.time, .regs, .rings, .power, .handed, .out] x (State.lowInputOff x) := by
  unfold State.lowInputOff
  dsimp only
  split
  · exact Kept.refl _
  · refine Kept.ite ?_ ?_
    · exact Kept.refl _
    · refine Kept.on (State.atTimer_kept ?_) ?_
      · intro _
        refine Kept.andThen State.alertCheck_kept ?_
        refine Kept.andThen State.powerRecord_kept ?_
        refine Kept.andThen State.setPower_kept ?_
        exact Kept.refl _
      · exact Kept.refl _

theorem execLowInputClear_kept {x : State} : KeptR [.time, .regs, .rings, .power, .handed, .platform, .out] x (execLowInputClear x) := by
  unfold execLowInputClear
  refine KeptR.next ?_
  refine Kept.on (State.watched_kept ?_) ?_
  · intro _
    refine Kept.andThen State.lowInputOff_kept ?_
    exact Kept.refl _
  · exact Kept.refl _

theorem State.thermalEvent_kept {x : State} {a1} {a2} {a3} {a4} : Kept [.regs, .rings, .out] x (State.thermalEvent x a1 a2 a3 a4) := by
  unfold State.thermalEvent
  refine Kept.andThen State.event_kept ?_
  exact Kept.refl _

theorem State.coolantCheck_kept {x : State} {a1} : Kept [.regs, .rings, .power, .handed, .out] x (State.coolantCheck x a1) := by
  unfold State.coolantCheck
  dsimp only
  split
  · exact Kept.refl _
  · refine Kept.ite ?_ ?_
    · refine Kept.ite ?_ ?_
      · refine Kept.andThen State.alertCheck_kept ?_
        refine Kept.andThen State.thermalEvent_kept ?_
        refine Kept.andThen State.powerRecord_kept ?_
        refine Kept.andThen State.setPower_kept ?_
        exact Kept.refl _
      · exact Kept.refl _
    · refine Kept.ite ?_ ?_
      · refine Kept.ite ?_ ?_
        · refine Kept.andThen State.alertCheck_kept ?_
          refine Kept.andThen State.powerRecord_kept ?_
          refine Kept.andThen State.setPower_kept ?_
          exact Kept.refl _
        · refine Kept.andThen State.setPower_kept ?_
          exact Kept.refl _
      · refine Kept.andThen State.setPower_kept ?_
        exact Kept.refl _

theorem State.readSensors_kept {x : State} {a1} : Kept [.time, .regs, .arr, .mem, .serve, .vault, .fab, .arb, .chans, .rings, .power, .faults, .ledger, .handed, .sec, .svc, .phase, .out] x (State.readSensors x a1) := by
  unfold State.readSensors
  refine Kept.ite ?_ ?_
  · exact Kept.refl _
  · dsimp only
    refine Kept.ite ?_ ?_
    · refine Kept.andThen State.orderlyHalt_kept ?_
      refine Kept.andThen State.setPower_kept ?_
      exact Kept.refl _
    · refine Kept.andThen State.coolantCheck_kept ?_
      refine Kept.andThen State.setPower_kept ?_
      exact Kept.refl _

theorem execSensorRead_kept {x : State} {a0} : KeptR [.time, .regs, .arr, .mem, .serve, .vault, .fab, .arb, .chans, .rings, .power, .faults, .ledger, .handed, .sec, .platform, .svc, .phase, .out] x (execSensorRead a0 x) := by
  unfold execSensorRead
  refine KeptR.next ?_
  refine Kept.on (State.watched_kept ?_) ?_
  · intro _
    refine Kept.andThen State.readSensors_kept ?_
    exact Kept.refl _
  · exact Kept.refl _

theorem State.trip_kept {x : State} : Kept [.time, .regs, .arr, .mem, .serve, .vault, .fab, .arb, .chans, .rings, .power, .faults, .ledger, .handed, .sec, .svc, .phase] x (State.trip x) := by
  unfold State.trip
  refine Kept.ite ?_ ?_
  · dsimp only
    refine Kept.andThen State.setPhase_kept ?_
    refine Kept.andThen State.latchCause_kept ?_
    refine Kept.andThen State.supplyLess_kept ?_
    refine Kept.ite ?_ ?_
    · refine Kept.andThen State.quiesce_kept ?_
      exact Kept.refl _
    · exact Kept.refl _
  · refine Kept.ite ?_ ?_
    · refine Kept.andThen State.loseVhbm_kept ?_
      exact Kept.refl _
    · exact Kept.refl _

theorem execHardwareTrip_kept {x : State} : KeptR [.time, .regs, .arr, .mem, .serve, .vault, .fab, .arb, .chans, .rings, .power, .faults, .ledger, .handed, .sec, .platform, .svc, .phase, .out] x (execHardwareTrip x) := by
  unfold execHardwareTrip
  refine KeptR.next ?_
  refine Kept.on (State.watched_kept ?_) ?_
  · intro _
    refine Kept.andThen State.trip_kept ?_
    exact Kept.refl _
  · exact Kept.refl _

theorem State.thermalStep_kept {x : State} : Kept [.regs, .rings, .power, .out] x (State.thermalStep x) := by
  unfold State.thermalStep
  dsimp only
  refine Kept.andThen State.holdCeilings_kept ?_
  refine Kept.andThen State.setPower_kept ?_
  refine Kept.andThen State.bumpBy_kept ?_
  refine Kept.foldl _ _ ?_ ?_
  · exact Kept.refl _
  · intro _ _
    refine Kept.andThen State.thermalEvent_kept ?_
    exact Kept.refl _

theorem State.droop_kept {x : State} {a1} : Kept [.regs, .power] x (State.droop x a1) := by
  unfold State.droop
  dsimp only
  refine Kept.andThen State.setPower_kept ?_
  refine Kept.andThen State.bump_kept ?_
  exact Kept.refl _

theorem execDroopTrip_kept {x : State} {a0} : KeptR [.regs, .power] x (execDroopTrip a0 x) := by
  unfold execDroopTrip
  refine KeptR.next ?_
  refine Kept.andThen State.droop_kept ?_
  exact Kept.refl _

theorem State.droopEnd_kept {x : State} {a1} : Kept [.power] x (State.droopEnd x a1) := by
  unfold State.droopEnd
  refine Kept.andThen State.setPower_kept ?_
  exact Kept.refl _

theorem execDroopRecovery_kept {x : State} {a0} : KeptR [.power] x (execDroopRecovery a0 x) := by
  unfold execDroopRecovery
  refine KeptR.next ?_
  refine Kept.andThen State.droopEnd_kept ?_
  exact Kept.refl _

theorem State.droopCeiling_kept {x : State} {a1} {a2} {a3} : Kept [.regs, .rings, .power, .handed, .out] x (State.droopCeiling x a1 a2 a3) := by
  unfold State.droopCeiling
  dsimp only
  refine Kept.andThen State.event_kept ?_
  refine Kept.andThen State.powerRecord_kept ?_
  refine Kept.andThen State.setPower_kept ?_
  exact Kept.refl _

theorem State.droopStep_kept {x : State} : Kept [.regs, .rings, .power, .handed, .out] x (State.droopStep x) := by
  unfold State.droopStep
  dsimp only
  refine Kept.andThen State.holdCeilings_kept ?_
  refine Kept.andThen State.setPower_kept ?_
  refine Kept.foldl _ _ ?_ ?_
  · exact Kept.refl _
  · intro _ _
    refine Kept.ite ?_ ?_
    · refine Kept.andThen State.droopCeiling_kept ?_
      exact Kept.refl _
    · exact Kept.refl _

theorem State.droopLift_kept {x : State} {a1} : Kept [.regs, .rings, .power, .handed, .out] x (State.droopLift x a1) := by
  unfold State.droopLift
  split
  · refine Kept.ite ?_ ?_
    · refine Kept.andThen State.droopCeiling_kept ?_
      exact Kept.refl _
    · exact Kept.refl _
  · exact Kept.refl _

theorem execDroopCeilingLift_kept {x : State} {a0} : KeptR [.regs, .rings, .power, .handed, .out] x (execDroopCeilingLift a0 x) := by
  unfold execDroopCeilingLift
  refine KeptR.next ?_
  refine Kept.andThen State.droopLift_kept ?_
  exact Kept.refl _

theorem State.noteCap_kept {x : State} : Kept [.power] x (State.noteCap x) := by
  unfold State.noteCap
  dsimp only
  refine Kept.ite ?_ ?_
  · exact Kept.refl _
  · refine Kept.andThen State.setPower_kept ?_
    exact Kept.refl _

theorem State.startLease_kept {x : State} : Kept [.power] x (State.startLease x) := by
  unfold State.startLease
  refine Kept.andThen State.setPower_kept ?_
  exact Kept.refl _

theorem State.leaseEnds_kept {x : State} : Kept [.time, .regs, .rings, .power, .handed, .out] x (State.leaseEnds x) := by
  unfold State.leaseEnds
  dsimp only
  split
  · exact Kept.refl _
  · refine Kept.on (State.atTimer_kept ?_) ?_
    · intro _
      refine Kept.andThen State.event_kept ?_
      refine Kept.andThen State.powerRecord_kept ?_
      refine Kept.andThen State.setPower_kept ?_
      refine Kept.andThen State.noteCap_kept ?_
      exact Kept.refl _
    · exact Kept.refl _

theorem State.ripeLease_kept {x : State} : Kept [.time, .regs, .rings, .power, .handed, .out] x (State.ripeLease x) := by
  unfold State.ripeLease
  split
  · refine Kept.ite ?_ ?_
    · refine Kept.andThen State.leaseEnds_kept ?_
      exact Kept.refl _
    · exact Kept.refl _
  · exact Kept.refl _

theorem State.writeCap_kept {x : State} {a1} : Kept [.time, .regs, .rings, .power, .handed, .out] x (State.writeCap x a1) := by
  unfold State.writeCap
  dsimp only
  refine Kept.andThen State.startLease_kept ?_
  refine Kept.andThen State.setPower_kept ?_
  refine Kept.andThen State.noteCap_kept ?_
  refine Kept.andThen State.ripeLease_kept ?_
  exact Kept.refl _

theorem State.writeRenew_kept {x : State} {a1} : Kept [.time, .regs, .rings, .power, .handed, .out] x (State.writeRenew x a1) := by
  unfold State.writeRenew
  refine Kept.ite ?_ ?_
  · refine Kept.andThen State.startLease_kept ?_
    refine Kept.andThen State.ripeLease_kept ?_
    exact Kept.refl _
  · exact Kept.refl _

theorem execLeaseExpiry_kept {x : State} : KeptR [.time, .regs, .rings, .power, .handed, .out] x (execLeaseExpiry x) := by
  unfold execLeaseExpiry
  refine KeptR.next ?_
  refine Kept.andThen State.leaseEnds_kept ?_
  exact Kept.refl _

theorem State.writeSteelCfg_kept {x : State} {a1} : Kept [.regs] x (State.writeSteelCfg x a1) := by
  unfold State.writeSteelCfg
  dsimp only
  refine Kept.andThen State.setReg_kept ?_
  exact Kept.refl _

theorem State.closeMeas_kept {x : State} : Kept [.power, .platform, .out] x (State.closeMeas x) := by
  unfold State.closeMeas
  dsimp only
  refine Kept.andThen State.rangeEvents_kept ?_
  refine Kept.andThen State.setPower_kept ?_
  exact Kept.refl _

/-! ### Host -/

theorem State.ringError_kept {x : State} {a1} {a2} : Kept [.regs, .rings, .out] x (State.ringError x a1 a2) := by
  unfold State.ringError
  dsimp only
  refine Kept.andThen State.ownEvent_kept ?_
  refine Kept.andThen State.setRing_kept ?_
  exact Kept.refl _

theorem State.complete_kept {x : State} {a1} {a2} {a3} : Kept [.rings, .out] x (State.complete x a1 a2 a3) := by
  unfold State.complete
  refine Kept.andThen State.cqWrite_kept ?_
  exact Kept.refl _

theorem State.refuse_kept {x : State} {a1} {a2} : Kept [.rings, .handed, .out] x (State.refuse x a1 a2) := by
  unfold State.refuse
  dsimp only
  refine Kept.ite ?_ ?_
  · refine Kept.andThen State.cqWrite_kept ?_
    exact Kept.refl _
  · refine Kept.andThen State.handCq_kept ?_
    exact Kept.refl _

theorem State.fail_kept {x : State} {a1} {a2} : Kept [.rings, .handed, .out] x (State.fail x a1 a2) := by
  unfold State.fail
  refine Kept.ite ?_ ?_
  · refine Kept.andThen State.refuse_kept ?_
    exact Kept.refl _
  · refine Kept.andThen State.complete_kept ?_
    exact Kept.refl _

theorem State.accept_kept {x : State} {a1} {a2} {a3} {a4} {a5} : Kept [.handed] x (State.accept x a1 a2 a3 a4 a5) := by
  unfold State.accept
  refine Kept.andThen State.handCq_kept ?_
  exact Kept.refl _

theorem State.consumed_kept {x : State} {a1} : Kept [.rings] x (State.consumed x a1) := by
  unfold State.consumed
  dsimp only
  refine Kept.andThen State.setRing_kept ?_
  exact Kept.refl _

theorem State.command_kept {x : State} {a1} {a2} {a3} {a4} {P : List Part}
    (h4 : ∀ y b1, Kept P y (a4 y b1))
    (hq : [.regs, .rings, .handed, .out] ⊆ P := by first | with_reducible exact List.Subset.refl _ | decide | (refine List.Subset.trans ?_ (by assumption); decide)) : Kept P x (State.command x a1 a2 a3 a4) := by
  unfold State.command
  refine Kept.ite ?_ ?_
  · exact Kept.refl _
  · refine Kept.ite ?_ ?_
    · refine Kept.andThen State.ringError_kept ?_
      refine Kept.andThen State.bump_kept ?_
      exact Kept.refl _
    · dsimp only
      refine Kept.ite ?_ ?_
      · refine Kept.andThen State.refuse_kept ?_
        refine Kept.andThen State.consumed_kept ?_
        exact Kept.refl _
      · refine Kept.ite ?_ ?_
        · refine Kept.andThen State.refuse_kept ?_
          refine Kept.andThen State.consumed_kept ?_
          exact Kept.refl _
        · refine Kept.ite ?_ ?_
          · refine Kept.andThen State.refuse_kept ?_
            refine Kept.andThen State.consumed_kept ?_
            exact Kept.refl _
          · refine Kept.ite ?_ ?_
            · refine Kept.andThen State.complete_kept ?_
              refine Kept.andThen State.bump_kept ?_
              refine Kept.andThen State.consumed_kept ?_
              exact Kept.refl _
            · refine Kept.ite ?_ ?_
              · refine Kept.andThen State.complete_kept ?_
                refine Kept.andThen State.bump_kept ?_
                refine Kept.andThen State.consumed_kept ?_
                exact Kept.refl _
              · refine Kept.andThen (h4 ..) ?_
                refine Kept.andThen State.consumed_kept ?_
                exact Kept.refl _

theorem execNopCommand_kept {x : State} {a0} : KeptR [.regs, .rings, .handed, .out] x (execNopCommand a0 x) := by
  unfold execNopCommand
  refine KeptR.next ?_
  refine Kept.on (State.command_kept ?_) ?_
  · intro _ _
    refine Kept.andThen State.complete_kept ?_
    exact Kept.refl _
  · exact Kept.refl _

theorem State.hintCommand_kept {x : State} {a1} : Kept [.rings, .power, .handed, .out] x (State.hintCommand x a1) := by
  unfold State.hintCommand
  dsimp only
  refine Kept.ite ?_ ?_
  · refine Kept.andThen State.fail_kept ?_
    exact Kept.refl _
  · refine Kept.andThen State.accept_kept ?_
    refine Kept.andThen State.setPower_kept ?_
    exact Kept.refl _

theorem execHint_kept {x : State} {a0} : KeptR [.regs, .rings, .power, .handed, .out] x (execHint a0 x) := by
  unfold execHint
  refine KeptR.next ?_
  refine Kept.on (State.command_kept ?_) ?_
  · intro _ _
    refine Kept.andThen State.hintCommand_kept ?_
    exact Kept.refl _
  · exact Kept.refl _

theorem State.discardBell_kept {x : State} : Kept [.regs] x (State.discardBell x) := by
  unfold State.discardBell
  refine Kept.andThen State.bump_kept ?_
  exact Kept.refl _

theorem State.drainTq_kept {x : State} {n tq} : Kept [.serve, .rings, .out] x (x.drainTq n tq) := by
  induction n generalizing x with
  | zero => exact Kept.refl _
  | succ n ih =>
    unfold State.drainTq
    split
    · exact Kept.refl _
    · dsimp only
      split
      · refine Kept.on ih ?_
        refine Kept.andThen State.produce_kept ?_
        refine Kept.andThen State.emit_kept ?_
        exact Kept.upd (Kept.refl _)
      · exact Kept.refl _

theorem State.sqBell_kept {x : State} {a1} : Kept [.regs, .rings, .out] x (State.sqBell x a1) := by
  unfold State.sqBell
  refine Kept.ite ?_ ?_
  · refine Kept.andThen State.discardBell_kept ?_
    exact Kept.refl _
  · dsimp only
    refine Kept.ite ?_ ?_
    · refine Kept.andThen State.ringError_kept ?_
      exact Kept.refl _
    · refine Kept.andThen State.setRing_kept ?_
      exact Kept.refl _

theorem execSqDoorbell_kept {x : State} {a0} : KeptR [.regs, .rings, .out] x (execSqDoorbell a0 x) := by
  unfold execSqDoorbell
  refine KeptR.next ?_
  refine Kept.ite ?_ ?_
  · refine Kept.andThen State.sqBell_kept ?_
    exact Kept.refl _
  · refine Kept.ite ?_ ?_
    · refine Kept.andThen State.discardBell_kept ?_
      exact Kept.refl _
    · exact Kept.refl _

theorem State.headBell_kept {x : State} {a1} : Kept [.regs, .serve, .rings, .out] x (State.headBell x a1) := by
  unfold State.headBell
  refine Kept.ite ?_ ?_
  · refine Kept.andThen State.discardBell_kept ?_
    exact Kept.refl _
  · dsimp only
    refine Kept.ite ?_ ?_
    · refine Kept.andThen State.ringError_kept ?_
      exact Kept.refl _
    · refine Kept.ite ?_ ?_
      · refine Kept.andThen State.ringError_kept ?_
        exact Kept.refl _
      · refine Kept.ite ?_ ?_
        · refine Kept.andThen State.drainTq_kept ?_
          refine Kept.andThen State.setRing_kept ?_
          exact Kept.refl _
        · refine Kept.andThen State.setRing_kept ?_
          exact Kept.refl _

theorem execCompletionHeadDoorbell_kept {x : State} {a0} : KeptR [.regs, .serve, .rings, .out] x (execCompletionHeadDoorbell a0 x) := by
  unfold execCompletionHeadDoorbell
  refine KeptR.next ?_
  refine Kept.ite ?_ ?_
  · refine Kept.andThen State.headBell_kept ?_
    exact Kept.refl _
  · refine Kept.ite ?_ ?_
    · refine Kept.andThen State.discardBell_kept ?_
      exact Kept.refl _
    · exact Kept.refl _

theorem State.irqDue_kept {x : State} {a1} : Kept [.time, .rings, .out] x (State.irqDue x a1) := by
  unfold State.irqDue
  dsimp only
  split
  · exact Kept.refl _
  · refine Kept.on (State.atTimer_kept ?_) ?_
    · intro _
      refine Kept.ite ?_ ?_
      · refine Kept.andThen State.msix_kept ?_
        refine Kept.andThen State.setRing_kept ?_
        exact Kept.refl _
      · refine Kept.andThen State.setRing_kept ?_
        exact Kept.refl _
    · exact Kept.refl _

theorem execIrqTimer_kept {x : State} {a0} : KeptR [.time, .rings, .out] x (execIrqTimer a0 x) := by
  unfold execIrqTimer
  refine KeptR.next ?_
  refine Kept.andThen State.irqDue_kept ?_
  exact Kept.refl _

theorem State.setFunc_kept {x : State} {a1} {a2} : Kept [.rings] x (State.setFunc x a1 a2) := by
  unfold State.setFunc
  refine Kept.upd ?_
  exact Kept.refl _

theorem State.unmask_kept {x : State} {a1} {a2} : Kept [.rings, .out] x (State.unmask x a1 a2) := by
  unfold State.unmask
  dsimp only
  refine Kept.ite ?_ ?_
  · refine Kept.andThen State.emit_kept ?_
    refine Kept.andThen State.setFunc_kept ?_
    exact Kept.refl _
  · refine Kept.andThen State.setFunc_kept ?_
    exact Kept.refl _

theorem execMsixVectorUnmask_kept {x : State} {a0} {a1} : KeptR [.rings, .out] x (execMsixVectorUnmask a0 a1 x) := by
  unfold execMsixVectorUnmask
  refine KeptR.next ?_
  refine Kept.andThen State.unmask_kept ?_
  exact Kept.refl _

theorem State.writeRingCfg_kept {x : State} {a1} {a2} : Kept [.rings] x (State.writeRingCfg x a1 a2) := by
  unfold State.writeRingCfg
  dsimp only
  refine Kept.ite ?_ ?_
  · refine Kept.ite ?_ ?_
    · refine Kept.andThen State.setRing_kept ?_
      exact Kept.refl _
    · refine Kept.andThen State.setRing_kept ?_
      exact Kept.refl _
  · refine Kept.andThen State.setRing_kept ?_
    exact Kept.refl _

theorem State.sleep_kept {x : State} {a1} : Kept [.chans, .rings] x (State.sleep x a1) := by
  unfold State.sleep
  dsimp only
  refine Kept.upd ?_
  refine Kept.andThen State.setFunc_kept ?_
  exact Kept.refl _

theorem execD3hotEntry_kept {x : State} {a0} : KeptR [.chans, .rings] x (execD3hotEntry a0 x) := by
  unfold execD3hotEntry
  refine KeptR.next ?_
  refine Kept.andThen State.sleep_kept ?_
  exact Kept.refl _

theorem State.wake_kept {x : State} {a1} : Kept [.serve, .rings, .out] x (State.wake x a1) := by
  unfold State.wake
  dsimp only
  refine Kept.andThen State.emits_kept ?_
  refine Kept.foldl _ _ ?_ ?_
  · refine Kept.foldl _ _ ?_ ?_
    · refine Kept.upd ?_
      refine Kept.andThen State.setFunc_kept ?_
      exact Kept.refl _
    · intro _ _
      refine Kept.andThen State.cqWrite_kept ?_
      exact Kept.refl _
  · intro _ _
    refine Kept.ite ?_ ?_
    · refine Kept.andThen State.drainTq_kept ?_
      exact Kept.refl _
    · exact Kept.refl _

theorem execD0Return_kept {x : State} {a0} : KeptR [.serve, .rings, .out] x (execD0Return a0 x) := by
  unfold execD0Return
  refine KeptR.next ?_
  refine Kept.andThen State.wake_kept ?_
  exact Kept.refl _

end Sys2Proof.Machine
end

