-- ==== Sys2Proof/Laws/Kept5.lean ====
section
/-! SUPPORT. What the operations and the commands of Machine/Install.lean, Machine/Encode.lean, Machine/Vector.lean, Machine/Experts.lean keep (Laws/Kept.lean). -/
set_option Elab.async false

namespace Sys2Proof.Machine

/-! ### Install -/

theorem State.instMsg_kept {x : State} {a1} {a2} {a3} {a4} {a5} : Kept [.regs, .out] x (State.instMsg x a1 a2 a3 a4 a5) := by
  unfold State.instMsg
  refine Kept.andThen State.sendControl_kept ?_
  exact Kept.refl _

theorem State.instAll_kept {x : State} {a1} {a2} {a3} : Kept [.regs, .out] x (State.instAll x a1 a2 a3) := by
  unfold State.instAll
  refine Kept.andThen State.sendControl_kept ?_
  exact Kept.refl _

theorem State.entryState_kept {x : State} {a1} {a2} {a3} {a4} : Kept [.vault, .handed] x (State.entryState x a1 a2 a3 a4) := by
  unfold State.entryState
  refine Kept.andThen State.hand_kept ?_
  refine Kept.andThen State.setEntry_kept ?_
  exact Kept.refl _

theorem State.removeEntry_kept {x : State} {a1} {a2} {a3} : Kept [.regs, .vault, .handed] x (State.removeEntry x a1 a2 a3) := by
  unfold State.removeEntry
  dsimp only
  refine Kept.andThen State.hand_kept ?_
  refine Kept.andThen State.setVault_kept ?_
  refine Kept.andThen State.freeExtent_kept ?_
  refine Kept.andThen State.bumpIf_kept ?_
  exact Kept.refl _

theorem State.startPrograms_kept {x : State} {l} : Kept [.vault] x (x.startPrograms l) := by
  induction l generalizing x with
  | nil => exact Kept.refl _
  | cons a l ih =>
    unfold State.startPrograms
    refine Kept.on ih ?_
    split
    · exact Kept.refl _
    · exact State.setVault_kept

theorem State.openMember_kept {x : State} {a1} {a2} {a3} {a4} {a5} {a6} {a7} : Kept [.regs, .vault, .out] x (State.openMember x a1 a2 a3 a4 a5 a6 a7) := by
  unfold State.openMember
  dsimp only
  refine Kept.andThen State.instMsg_kept ?_
  refine Kept.andThen State.instMsg_kept ?_
  refine Kept.andThen State.setVault_kept ?_
  exact Kept.refl _

theorem State.takeBegin_kept {x : State} {a1} : Kept [.vault] x (State.takeBegin x a1).2 := by
  unfold State.takeBegin
  dsimp only
  split
  · split
    · split
      · dsimp only
        refine Kept.andThen State.setVault_kept ?_
        exact Kept.refl _
      · dsimp only
        refine Kept.andThen State.setVault_kept ?_
        exact Kept.refl _
    · split
      · dsimp only
        refine Kept.andThen State.setVault_kept ?_
        exact Kept.refl _
      · dsimp only
        refine Kept.andThen State.setVault_kept ?_
        exact Kept.refl _
  · split
    · split
      · dsimp only
        refine Kept.andThen State.setVault_kept ?_
        exact Kept.refl _
      · dsimp only
        refine Kept.andThen State.setVault_kept ?_
        exact Kept.refl _
    · split
      · dsimp only
        refine Kept.andThen State.setVault_kept ?_
        exact Kept.refl _
      · dsimp only
        refine Kept.andThen State.setVault_kept ?_
        exact Kept.refl _

theorem State.beginInstall_kept {x : State} {a1} {a2} : Kept [.regs, .vault, .handed, .out] x (State.beginInstall x a1 a2) := by
  unfold State.beginInstall
  dsimp only
  refine Kept.ite ?_ ?_
  · refine Kept.andThen State.instMsg_kept ?_
    exact Kept.refl _
  · refine Kept.ite ?_ ?_
    · refine Kept.andThen State.instMsg_kept ?_
      exact Kept.refl _
    · split
      · refine Kept.andThen State.instMsg_kept ?_
        exact Kept.refl _
      · refine Kept.ite ?_ ?_
        · refine Kept.andThen State.instMsg_kept ?_
          exact Kept.refl _
        · refine Kept.andThen State.openMember_kept ?_
          refine Kept.andThen State.hand_kept ?_
          refine Kept.andThen State.setVault_kept ?_
          exact Kept.refl _

theorem State.beginRepair_kept {x : State} {a1} {a2} : Kept [.regs, .vault, .handed, .out] x (State.beginRepair x a1 a2) := by
  unfold State.beginRepair
  dsimp only
  refine Kept.ite ?_ ?_
  · refine Kept.andThen State.instMsg_kept ?_
    exact Kept.refl _
  · refine Kept.ite ?_ ?_
    · refine Kept.andThen State.instMsg_kept ?_
      exact Kept.refl _
    · refine Kept.ite ?_ ?_
      · refine Kept.andThen State.instMsg_kept ?_
        exact Kept.refl _
      · split
        · refine Kept.ite ?_ ?_
          · refine Kept.andThen State.instMsg_kept ?_
            exact Kept.refl _
          · refine Kept.ite ?_ ?_
            · refine Kept.andThen State.openMember_kept ?_
              refine Kept.andThen State.setEntry_kept ?_
              exact Kept.refl _
            · refine Kept.andThen State.instMsg_kept ?_
              exact Kept.refl _
        · split
          · refine Kept.andThen State.instMsg_kept ?_
            exact Kept.refl _
          · refine Kept.andThen State.openMember_kept ?_
            refine Kept.andThen State.hand_kept ?_
            refine Kept.andThen State.setVault_kept ?_
            exact Kept.refl _

theorem State.setMember_kept {x : State} {a1} : Kept [.vault] x (State.setMember x a1) := by
  unfold State.setMember
  refine Kept.andThen State.setVault_kept ?_
  exact Kept.refl _

theorem State.verifyShard_kept {x : State} {a1} {a2} {a3} : Kept [.regs, .fab, .faults] x (State.verifyShard x a1 a2 a3).2 := by
  unfold State.verifyShard
  dsimp only
  refine Kept.andThen State.bumpBy_kept ?_
  refine Kept.andThen State.readPages_kept ?_
  exact Kept.refl _

theorem State.freshShards_kept {x : State} {a1} {a2} : Kept [.regs, .vault, .out] x (State.freshShards x a1 a2) := by
  unfold State.freshShards
  dsimp only
  refine Kept.ite ?_ ?_
  · refine Kept.andThen State.setMember_kept ?_
    refine Kept.andThen State.setVault_kept ?_
    exact Kept.refl _
  · refine Kept.andThen State.instMsg_kept ?_
    refine Kept.andThen State.setMember_kept ?_
    refine Kept.andThen State.setVault_kept ?_
    exact Kept.refl _

theorem State.takePiece_kept {x : State} {a1} {a2} {a3} {a4} : Kept [.mem, .vault] x (State.takePiece x a1 a2 a3 a4) := by
  unfold State.takePiece
  dsimp only
  split
  · refine Kept.ite ?_ ?_
    · refine Kept.andThen State.setMember_kept ?_
      exact Kept.refl _
    · refine Kept.andThen State.startPrograms_kept ?_
      refine Kept.andThen State.setVault_kept ?_
      refine Kept.andThen State.storeAt_kept ?_
      refine Kept.andThen State.setMember_kept ?_
      exact Kept.refl _
  · refine Kept.andThen State.setMember_kept ?_
    exact Kept.refl _

theorem State.report_kept {x : State} {a1} : Kept [.regs, .vault, .handed, .out] x (State.report x a1) := by
  unfold State.report
  dsimp only
  refine Kept.andThen State.instMsg_kept ?_
  split
  · refine Kept.ite ?_ ?_
    · refine Kept.andThen State.entryState_kept ?_
      refine Kept.andThen State.freshShards_kept ?_
      exact Kept.refl _
    · refine Kept.andThen State.freshShards_kept ?_
      exact Kept.refl _
  · refine Kept.andThen State.freshShards_kept ?_
    exact Kept.refl _

theorem State.shardProgrammed_kept {x : State} {a1} {a2} {a3} : Kept [.regs, .vault, .fab, .faults, .handed, .out] x (State.shardProgrammed x a1 a2 a3) := by
  unfold State.shardProgrammed
  dsimp only
  split
  · refine Kept.ite ?_ ?_
    · refine Kept.andThen State.report_kept ?_
      refine Kept.andThen State.setMember_kept ?_
      split
      · refine Kept.andThen State.verifyShard_kept ?_
        exact Kept.refl _
      · exact Kept.refl _
    · refine Kept.andThen State.setMember_kept ?_
      split
      · refine Kept.andThen State.verifyShard_kept ?_
        exact Kept.refl _
      · exact Kept.refl _
  · exact Kept.refl _

theorem State.programDone_kept {x : State} {a1} {a2} : Kept [.regs, .vault, .fab, .faults, .handed, .out] x (State.programDone x a1 a2) := by
  unfold State.programDone
  dsimp only
  split
  · exact Kept.refl _
  · split
    · refine Kept.andThen State.startPrograms_kept ?_
      refine Kept.andThen State.programmed_kept ?_
      exact Kept.refl _
    · refine Kept.ite ?_ ?_
      · refine Kept.andThen State.startPrograms_kept ?_
        refine Kept.andThen State.programmed_kept ?_
        exact Kept.refl _
      · refine Kept.ite ?_ ?_
        · refine Kept.andThen State.shardProgrammed_kept ?_
          refine Kept.andThen State.instMsg_kept ?_
          refine Kept.andThen State.startPrograms_kept ?_
          refine Kept.andThen State.programmed_kept ?_
          exact Kept.refl _
        · refine Kept.andThen State.instMsg_kept ?_
          refine Kept.andThen State.startPrograms_kept ?_
          refine Kept.andThen State.programmed_kept ?_
          exact Kept.refl _

theorem execPageProgramDone_kept {x : State} {a0} {a1} : KeptR [.regs, .vault, .fab, .faults, .handed, .out] x (execPageProgramDone a0 x a1) := by
  unfold execPageProgramDone
  refine KeptR.next ?_
  refine Kept.andThen State.programDone_kept ?_
  exact Kept.refl _

theorem State.memberEnd_kept {x : State} {a1} {a2} : Kept [.regs, .vault, .handed, .out] x (State.memberEnd x a1 a2) := by
  unfold State.memberEnd
  dsimp only
  refine Kept.ite ?_ ?_
  · refine Kept.andThen State.report_kept ?_
    exact Kept.refl _
  · refine Kept.andThen State.setMember_kept ?_
    exact Kept.refl _

theorem State.reportDue_kept {x : State} {a1} : Kept [.regs, .vault, .handed, .out] x (State.reportDue x a1) := by
  unfold State.reportDue
  refine Kept.ite ?_ ?_
  · refine Kept.andThen State.setMember_kept ?_
    exact Kept.refl _
  · refine Kept.andThen State.report_kept ?_
    exact Kept.refl _

theorem execReportTimer_kept {x : State} : KeptR [.time, .regs, .vault, .handed, .out] x (execReportTimer x) := by
  unfold execReportTimer
  refine KeptR.next ?_
  split
  · refine Kept.ite ?_ ?_
    · refine Kept.on (State.atTimer_kept ?_) ?_
      · intro _
        refine Kept.andThen State.reportDue_kept ?_
        exact Kept.refl _
      · exact Kept.refl _
    · exact Kept.refl _
  · exact Kept.refl _

theorem State.memberRepair_kept {x : State} {a1} {a2} {a3} {a4} : Kept [.regs, .mem, .vault, .out] x (State.memberRepair x a1 a2 a3 a4) := by
  unfold State.memberRepair
  refine Kept.ite ?_ ?_
  · dsimp only
    split
    · refine Kept.andThen State.takePiece_kept ?_
      refine Kept.andThen State.freshShards_kept ?_
      refine Kept.andThen State.bump_kept ?_
      exact Kept.refl _
    · refine Kept.andThen State.freshShards_kept ?_
      refine Kept.andThen State.bump_kept ?_
      exact Kept.refl _
  · refine Kept.andThen State.takePiece_kept ?_
    exact Kept.refl _

theorem State.commit_kept {x : State} {a1} : Kept [.regs, .vault, .handed, .out] x (State.commit x a1) := by
  unfold State.commit
  refine Kept.ite ?_ ?_
  · refine Kept.andThen State.instMsg_kept ?_
    exact Kept.refl _
  · dsimp only
    split
    · exact Kept.refl _
    · refine Kept.ite ?_ ?_
      · refine Kept.andThen State.setMember_kept ?_
        exact Kept.refl _
      · refine Kept.andThen State.instMsg_kept ?_
        refine Kept.andThen State.setVault_kept ?_
        refine Kept.andThen State.hand_kept ?_
        refine Kept.andThen State.setEntry_kept ?_
        refine Kept.andThen State.flushJournal_kept ?_
        refine Kept.andThen State.journal_kept ?_
        refine Kept.foldl _ _ ?_ ?_
        · exact Kept.refl _
        · intro _ _
          refine Kept.andThen State.journal_kept ?_
          exact Kept.refl _

theorem State.closeMember_kept {x : State} {a1} : Kept [.vault] x (State.closeMember x a1) := by
  unfold State.closeMember
  dsimp only
  refine Kept.foldl _ _ ?_ ?_
  · refine Kept.andThen State.setVault_kept ?_
    exact Kept.refl _
  · intro _ _
    refine Kept.andThen State.journal_kept ?_
    exact Kept.refl _

theorem State.abandonMember_kept {x : State} {a1} : Kept [.regs, .vault, .handed] x (State.abandonMember x a1) := by
  unfold State.abandonMember
  refine Kept.ite ?_ ?_
  · refine Kept.andThen State.setMember_kept ?_
    exact Kept.refl _
  · dsimp only
    split
    · refine Kept.ite ?_ ?_
      · refine Kept.andThen State.removeEntry_kept ?_
        refine Kept.andThen State.closeMember_kept ?_
        exact Kept.refl _
      · refine Kept.andThen State.hand_kept ?_
        refine Kept.andThen State.closeMember_kept ?_
        exact Kept.refl _
    · refine Kept.andThen State.closeMember_kept ?_
      exact Kept.refl _

theorem execInstallInactivityTimeout_kept {x : State} : KeptR [.time, .regs, .vault, .handed] x (execInstallInactivityTimeout x) := by
  unfold execInstallInactivityTimeout
  refine KeptR.next ?_
  split
  · refine Kept.ite ?_ ?_
    · exact Kept.refl _
    · refine Kept.on (State.atTimer_kept ?_) ?_
      · intro _
        refine Kept.andThen State.abandonMember_kept ?_
        exact Kept.refl _
      · exact Kept.refl _
  · exact Kept.refl _

theorem State.sendPiece_kept {x : State} {a1} {a2} {a3} {a4} : Kept [.regs, .out] x (State.sendPiece x a1 a2 a3 a4) := by
  unfold State.sendPiece
  dsimp only
  split
  · refine Kept.ite ?_ ?_
    · refine Kept.andThen State.instAll_kept ?_
      refine Kept.andThen State.instAll_kept ?_
      exact Kept.refl _
    · refine Kept.andThen State.instAll_kept ?_
      exact Kept.refl _
  · refine Kept.ite ?_ ?_
    · refine Kept.andThen State.instMsg_kept ?_
      refine Kept.andThen State.sendControl_kept ?_
      exact Kept.refl _
    · refine Kept.andThen State.sendControl_kept ?_
      exact Kept.refl _

theorem State.pump_kept {x : State} {r l c} : Kept [.regs, .vault, .fab, .rings, .faults, .handed, .out] x (x.pump r l c).1 := by
  induction l generalizing x r c with
  | nil => exact Kept.refl _
  | cons q l ih =>
    have hr : ∀ (p : Prop) [Decidable p] a, Kept [.regs, .vault, .fab, .rings, .faults, .handed, .out] x (if p then x.readVault a c else (true, c, x)).2.2 := fun p _ a => by
      split
      · exact State.readVault_kept.mono (by decide)
      · exact Kept.refl _
    rw [State.pump]
    split
    · exact ih
    · next h _ =>
      extract_lets who
      clear_value who
      split
      · exact Kept.refl _
      · split
        · next e => exact Kept.of_snd2 e (hr _ _)
        · next e => exact Kept.on ih (State.sendPiece_kept.andThen (Kept.of_snd2 e (hr _ _)))

theorem State.rowRepaired_kept {x : State} {a1} : Kept [.vault] x (State.rowRepaired x a1) := by
  unfold State.rowRepaired
  split
  · refine Kept.ite ?_ ?_
    · refine Kept.andThen State.setEntry_kept ?_
      exact Kept.refl _
    · exact Kept.refl _
  · exact Kept.refl _

theorem State.finishReader_kept {x : State} {a1} {a2} {a3} : Kept [.vault, .handed] x (State.finishReader x a1 a2 a3) := by
  unfold State.finishReader
  refine Kept.ite ?_ ?_
  · refine Kept.andThen State.setVault_kept ?_
    refine Kept.andThen State.rowRepaired_kept ?_
    exact Kept.refl _
  · dsimp only
    refine Kept.andThen State.handCq_kept ?_
    refine Kept.andThen State.setVault_kept ?_
    exact Kept.refl _

theorem State.abortReader_kept {x : State} {a1} {a2} {a3} : Kept [.regs, .vault, .handed, .out] x (State.abortReader x a1 a2 a3) := by
  unfold State.abortReader
  dsimp only
  refine Kept.andThen State.finishReader_kept ?_
  refine Kept.ite ?_ ?_
  · refine Kept.foldl _ _ ?_ ?_
    · exact Kept.refl _
    · intro _ _
      refine Kept.andThen State.instMsg_kept ?_
      exact Kept.refl _
  · refine Kept.andThen State.instAll_kept ?_
    exact Kept.refl _

theorem State.sendBegin_kept {x : State} {a1} {a2} {a3} {a4} {a5} : Kept [.regs, .out] x (State.sendBegin x a1 a2 a3 a4 a5) := by
  unfold State.sendBegin
  dsimp only
  refine Kept.foldl _ _ ?_ ?_
  · exact Kept.refl _
  · intro _ _
    refine Kept.ite ?_ ?_
    · refine Kept.foldl _ _ ?_ ?_
      · exact Kept.refl _
      · intro _ _
        refine Kept.andThen State.sendControl_kept ?_
        exact Kept.refl _
    · refine Kept.andThen State.instAll_kept ?_
      exact Kept.refl _

theorem State.install_kept {x : State} {a1} {a2} : Kept [.regs, .vault, .rings, .handed, .out] x (State.install x a1 a2) := by
  unfold State.install
  dsimp only
  refine Kept.ite ?_ ?_
  · refine Kept.andThen State.fail_kept ?_
    exact Kept.refl _
  · refine Kept.ite ?_ ?_
    · refine Kept.andThen State.fail_kept ?_
      exact Kept.refl _
    · refine Kept.ite ?_ ?_
      · refine Kept.andThen State.complete_kept ?_
        refine Kept.andThen State.bump_kept ?_
        exact Kept.refl _
      · refine Kept.ite ?_ ?_
        · refine Kept.andThen State.fail_kept ?_
          exact Kept.refl _
        · refine Kept.ite ?_ ?_
          · refine Kept.andThen State.fail_kept ?_
            exact Kept.refl _
          · refine Kept.ite ?_ ?_
            · refine Kept.andThen State.fail_kept ?_
              exact Kept.refl _
            · refine Kept.ite ?_ ?_
              · refine Kept.andThen State.fail_kept ?_
                exact Kept.refl _
              · refine Kept.andThen State.sendBegin_kept ?_
                refine Kept.andThen State.hand_kept ?_
                refine Kept.andThen State.setVault_kept ?_
                exact Kept.refl _

theorem execInstall_kept {x : State} {a0} {a1} : KeptR [.regs, .vault, .rings, .handed, .out] x (execInstall a0 a1 x) := by
  unfold execInstall
  refine KeptR.next ?_
  refine Kept.on (State.command_kept ?_) ?_
  · intro _ _
    refine Kept.andThen State.install_kept ?_
    exact Kept.refl _
  · exact Kept.refl _

theorem State.acceptWait_kept {x : State} {a1} : Kept [.regs, .vault, .handed, .out] x (State.acceptWait x a1) := by
  unfold State.acceptWait
  refine Kept.andThen State.abortReader_kept ?_
  exact Kept.refl _

theorem execAcceptWaitTimeout_kept {x : State} : KeptR [.time, .regs, .vault, .handed, .out] x (execAcceptWaitTimeout x) := by
  unfold execAcceptWaitTimeout
  refine KeptR.next ?_
  split
  · refine Kept.ite ?_ ?_
    · refine Kept.on (State.atTimer_kept ?_) ?_
      · intro _
        refine Kept.andThen State.acceptWait_kept ?_
        exact Kept.refl _
      · exact Kept.refl _
    · exact Kept.refl _
  · refine Kept.ite ?_ ?_
    · refine Kept.on (State.atTimer_kept ?_) ?_
      · intro _
        refine Kept.andThen State.acceptWait_kept ?_
        exact Kept.refl _
      · exact Kept.refl _
    · exact Kept.refl _
  · exact Kept.refl _

theorem State.readerEnds_kept {x : State} {a1} : Kept [.regs, .vault, .handed, .out] x (State.readerEnds x a1) := by
  unfold State.readerEnds
  refine Kept.ite ?_ ?_
  · refine Kept.andThen State.finishReader_kept ?_
    exact Kept.refl _
  · refine Kept.andThen State.abortReader_kept ?_
    exact Kept.refl _

theorem State.readerTimeout_kept {x : State} {a1} : Kept [.time, .regs, .vault, .handed, .out] x (State.readerTimeout x a1) := by
  unfold State.readerTimeout
  refine Kept.on (State.atTimer_kept ?_) ?_
  · intro _
    refine Kept.andThen State.readerEnds_kept ?_
    exact Kept.refl _
  · exact Kept.refl _

theorem execInstallReaderTimeout_kept {x : State} : KeptR [.time, .regs, .vault, .handed, .out] x (execInstallReaderTimeout x) := by
  unfold execInstallReaderTimeout
  refine KeptR.next ?_
  split
  · refine Kept.andThen State.readerTimeout_kept ?_
    exact Kept.refl _
  · refine Kept.andThen State.readerTimeout_kept ?_
    exact Kept.refl _
  · exact Kept.refl _

theorem State.ripeReader_kept {x : State} {a1} : Kept [.regs, .vault, .handed, .out] x (State.ripeReader x a1) := by
  unfold State.ripeReader
  split
  · exact Kept.refl _
  · refine Kept.ite ?_ ?_
    · refine Kept.andThen State.readerEnds_kept ?_
      exact Kept.refl _
    · refine Kept.ite ?_ ?_
      · refine Kept.andThen State.acceptWait_kept ?_
        exact Kept.refl _
      · exact Kept.refl _

theorem State.ripeInstall_kept {x : State} : Kept [.regs, .vault, .handed, .out] x (State.ripeInstall x) := by
  unfold State.ripeInstall
  dsimp only
  refine Kept.andThen State.ripeReader_kept ?_
  refine Kept.andThen State.ripeReader_kept ?_
  split
  · refine Kept.ite ?_ ?_
    · refine Kept.andThen State.abandonMember_kept ?_
      exact Kept.refl _
    · refine Kept.ite ?_ ?_
      · refine Kept.andThen State.reportDue_kept ?_
        exact Kept.refl _
      · exact Kept.refl _
  · exact Kept.refl _

theorem State.instDeliver_kept {x : State} {a1} {a2} {a3} {P : List Part}
    (h3 : ∀ y, Kept P y (a3 y))
    (hq : [.regs, .vault, .fab, .rings, .handed, .out] ⊆ P := by first | with_reducible exact List.Subset.refl _ | decide | (refine List.Subset.trans ?_ (by assumption); decide)) : Kept P x (State.instDeliver x a1 a2 a3) := by
  unfold State.instDeliver
  refine Kept.on (State.deliver_kept ?_) ?_
  · intro _
    refine Kept.andThen (h3 ..) ?_
    refine Kept.andThen State.ripeInstall_kept ?_
    exact Kept.refl _
  · exact Kept.refl _

theorem State.asMember_kept {x : State} {a1} {a2} {P : List Part}
    (h2 : ∀ y b1, Kept P y (a2 y b1))
    (hq : [.regs] ⊆ P := by first | with_reducible exact List.Subset.refl _ | decide | (refine List.Subset.trans ?_ (by assumption); decide)) : Kept P x (State.asMember x a1 a2) := by
  unfold State.asMember
  split
  · refine Kept.ite ?_ ?_
    · refine Kept.andThen (h2 ..) ?_
      exact Kept.refl _
    · refine Kept.andThen State.discardInstall_kept ?_
      exact Kept.refl _
  · refine Kept.andThen State.discardInstall_kept ?_
    exact Kept.refl _

theorem execInstallBegin_kept {x : State} {a0} : KeptR [.regs, .vault, .fab, .rings, .handed, .out] x (execInstallBegin a0 x) := by
  unfold execInstallBegin
  refine KeptR.next ?_
  refine Kept.on (State.instDeliver_kept ?_) ?_
  · intro _
    dsimp only
    split
    · refine Kept.of_snd (by assumption) ?_
      refine Kept.andThen State.takeBegin_kept ?_
      exact Kept.refl _
    · refine Kept.ite ?_ ?_
      · refine Kept.andThen State.beginRepair_kept ?_
        refine Kept.of_snd (by assumption) ?_
        refine Kept.andThen State.takeBegin_kept ?_
        exact Kept.refl _
      · refine Kept.ite ?_ ?_
        · refine Kept.andThen State.beginInstall_kept ?_
          refine Kept.of_snd (by assumption) ?_
          refine Kept.andThen State.takeBegin_kept ?_
          exact Kept.refl _
        · refine Kept.of_snd (by assumption) ?_
          refine Kept.andThen State.takeBegin_kept ?_
          exact Kept.refl _
  · exact Kept.refl _

theorem execInstallData_kept {x : State} {a0} : KeptR [.regs, .mem, .vault, .fab, .rings, .handed, .out] x (execInstallData a0 x) := by
  unfold execInstallData
  refine KeptR.next ?_
  refine Kept.on (State.instDeliver_kept ?_) ?_
  · intro _
    refine Kept.on (State.asMember_kept ?_) ?_
    · intro _ _
      refine Kept.andThen State.takePiece_kept ?_
      exact Kept.refl _
    · exact Kept.refl _
  · exact Kept.refl _

theorem execInstallEnd_kept {x : State} {a0} : KeptR [.regs, .vault, .fab, .rings, .handed, .out] x (execInstallEnd a0 x) := by
  unfold execInstallEnd
  refine KeptR.next ?_
  refine Kept.on (State.instDeliver_kept ?_) ?_
  · intro _
    refine Kept.on (State.asMember_kept ?_) ?_
    · intro _ _
      refine Kept.andThen State.memberEnd_kept ?_
      exact Kept.refl _
    · exact Kept.refl _
  · exact Kept.refl _

theorem execInstallRepair_kept {x : State} {a0} : KeptR [.regs, .mem, .vault, .fab, .rings, .handed, .out] x (execInstallRepair a0 x) := by
  unfold execInstallRepair
  refine KeptR.next ?_
  refine Kept.on (State.instDeliver_kept ?_) ?_
  · intro _
    refine Kept.on (State.asMember_kept ?_) ?_
    · intro _ _
      refine Kept.andThen State.memberRepair_kept ?_
      exact Kept.refl _
    · exact Kept.refl _
  · exact Kept.refl _

theorem execInstallCommit_kept {x : State} {a0} : KeptR [.regs, .vault, .fab, .rings, .handed, .out] x (execInstallCommit a0 x) := by
  unfold execInstallCommit
  refine KeptR.next ?_
  refine Kept.on (State.instDeliver_kept ?_) ?_
  · intro _
    refine Kept.on (State.asMember_kept ?_) ?_
    · intro _ _
      refine Kept.andThen State.commit_kept ?_
      exact Kept.refl _
    · exact Kept.refl _
  · exact Kept.refl _

theorem execInstallAbort_kept {x : State} {a0} : KeptR [.regs, .vault, .fab, .rings, .handed, .out] x (execInstallAbort a0 x) := by
  unfold execInstallAbort
  refine KeptR.next ?_
  refine Kept.on (State.instDeliver_kept ?_) ?_
  · intro _
    refine Kept.on (State.asMember_kept ?_) ?_
    · intro _ _
      refine Kept.andThen State.abandonMember_kept ?_
      exact Kept.refl _
    · refine Kept.andThen State.setVault_kept ?_
      exact Kept.refl _
  · exact Kept.refl _

theorem State.asReader_kept {x : State} {m} {act : State → Reader → (State → Option Reader → State) → State} {P : List Part}
    (ha : ∀ y r put, (∀ z q, Kept P z (put z q)) → Kept P y (act y r put))
    (hq : [.regs, .vault] ⊆ P := by first | with_reducible exact List.Subset.refl _ | decide | (refine List.Subset.trans ?_ (by assumption); decide)) : Kept P x (x.asReader m act) := by
  have hv : [.vault] ⊆ P := List.Subset.trans (by decide) hq
  have h1 : ∀ z (q : Option Reader), Kept P z (z.setVault { z.vault with reader := q }) := fun z q => State.setVault_kept.mono hv
  have h2 : ∀ z (q : Option Reader), Kept P z (z.setVault { z.vault with repair := q }) := fun z q => State.setVault_kept.mono hv
  have hd : Kept P x x.discardInstall := State.discardInstall_kept.mono (List.Subset.trans (by decide) hq)
  unfold State.asReader
  dsimp only
  split
  · split
    · exact ha _ _ _ h1
    · split
      · split
        · exact ha _ _ _ h2
        · exact hd
      · exact hd
  · split
    · exact ha _ _ _ h2
    · exact hd
  · exact hd

theorem State.stream_kept {x : State} {r q c} {put : State → Option Reader → State} {P : List Part} (hput : ∀ y o, Kept P y (put y o))
    (hq : [.regs, .vault, .fab, .rings, .faults, .handed, .out] ⊆ P := by first | with_reducible exact List.Subset.refl _ | decide | (refine List.Subset.trans ?_ (by assumption); decide)) : Kept P x (x.stream r q c put) := by
  have hp : Kept P x (x.pump r q c).1 := State.pump_kept.mono (List.Subset.trans (by decide) hq)
  unfold State.stream
  split
  · next e => exact Kept.on (hput _ _) (Kept.of_fst e hp)
  · next e => exact Kept.on (State.abortReader_kept.mono (List.Subset.trans (by decide) hq)) (Kept.of_fst e hp)

theorem execInstallAccept_kept {x : State} {m c} : KeptR [.regs, .vault, .fab, .rings, .faults, .handed, .out] x (execInstallAccept m x c) := by
  refine KeptR.next (State.instDeliver_kept (fun y => State.asReader_kept (P := [.regs, .vault, .fab, .rings, .faults, .handed, .out]) (fun z r put hput => ?_)))
  dsimp only
  split
  · exact State.stream_kept hput
  · exact hput _ _

theorem execInstallRefuse_kept {x : State} {a0} : KeptR [.regs, .vault, .fab, .rings, .handed, .out] x (execInstallRefuse a0 x) := by
  unfold execInstallRefuse
  refine KeptR.next ?_
  refine Kept.on (State.instDeliver_kept ?_) ?_
  · intro _
    refine Kept.on (State.asReader_kept ?_) ?_
    · intro _ _ _ _
      refine Kept.ite ?_ ?_
      · exact Kept.refl _
      · refine Kept.andThen State.abortReader_kept ?_
        exact Kept.refl _
    · exact Kept.refl _
  · exact Kept.refl _

theorem execInstallCredit_kept {x : State} {m c} : KeptR [.regs, .vault, .fab, .rings, .faults, .handed, .out] x (execInstallCredit m x c) := by
  refine KeptR.next (State.instDeliver_kept (fun y => State.asReader_kept (P := [.regs, .vault, .fab, .rings, .faults, .handed, .out]) (fun z r put hput => ?_)))
  exact State.stream_kept hput

theorem State.sendCommit_kept {x : State} {a1} : Kept [.regs, .out] x (State.sendCommit x a1) := by
  unfold State.sendCommit
  refine Kept.foldl _ _ ?_ ?_
  · exact Kept.refl _
  · intro _ _
    refine Kept.andThen State.instMsg_kept ?_
    exact Kept.refl _

theorem State.takeReport_kept {x : State} {a1} {a2} {a3} {a4} {P : List Part}
    (h4 : ∀ y b1, Kept P y (a4 y b1))
    (hq : [.regs, .vault, .fab, .rings, .faults, .handed, .out] ⊆ P := by first | with_reducible exact List.Subset.refl _ | decide | (refine List.Subset.trans ?_ (by assumption); decide)) : Kept P x (State.takeReport x a1 a2 a3 a4) := by
  unfold State.takeReport
  dsimp only
  refine Kept.ite ?_ ?_
  · exact Kept.refl _
  · refine Kept.ite ?_ ?_
    · refine Kept.ite ?_ ?_
      · refine Kept.andThen (h4 ..) ?_
        refine Kept.ite ?_ ?_
        · refine Kept.andThen State.sendCommit_kept ?_
          exact Kept.refl _
        · refine Kept.andThen State.instAll_kept ?_
          exact Kept.refl _
      · refine Kept.andThen (h4 ..) ?_
        exact Kept.refl _
    · split
      · exact Kept.refl _
      · refine Kept.ite ?_ ?_
        · refine Kept.andThen State.abortReader_kept ?_
          exact Kept.refl _
        · refine Kept.on (State.stream_kept ?_) ?_
          · intro _ _
            refine Kept.andThen (h4 ..) ?_
            exact Kept.refl _
          · exact Kept.refl _

theorem execInstallReport_kept {x : State} {m c} : KeptR [.regs, .vault, .fab, .rings, .faults, .handed, .out] x (execInstallReport m x c) := by
  refine KeptR.next (State.instDeliver_kept (fun y => State.asReader_kept (P := [.regs, .vault, .fab, .rings, .faults, .handed, .out]) (fun z r put hput => ?_)))
  exact State.takeReport_kept hput

theorem State.resendCommit_kept {x : State} {a1} {a2} {P : List Part}
    (h2 : ∀ y b1, Kept P y (a2 y b1))
    (hq : [.time, .regs, .out] ⊆ P := by first | with_reducible exact List.Subset.refl _ | decide | (refine List.Subset.trans ?_ (by assumption); decide)) : Kept P x (State.resendCommit x a1 a2) := by
  unfold State.resendCommit
  refine Kept.ite ?_ ?_
  · exact Kept.refl _
  · refine Kept.on (State.atTimer_kept ?_) ?_
    · intro _
      refine Kept.andThen (h2 ..) ?_
      refine Kept.andThen State.sendCommit_kept ?_
      exact Kept.refl _
    · exact Kept.refl _

theorem execCommitResend_kept {x : State} : KeptR [.time, .regs, .vault, .out] x (execCommitResend x) := by
  unfold execCommitResend
  refine KeptR.next ?_
  dsimp only
  split
  · refine Kept.on (State.resendCommit_kept ?_) ?_
    · intro _ _
      refine Kept.andThen State.setVault_kept ?_
      exact Kept.refl _
    · exact Kept.refl _
  · refine Kept.on (State.resendCommit_kept ?_) ?_
    · intro _ _
      refine Kept.andThen State.setVault_kept ?_
      exact Kept.refl _
    · exact Kept.refl _
  · exact Kept.refl _

theorem execInstallCommitted_kept {x : State} {m} : KeptR [.regs, .vault, .fab, .rings, .handed, .out] x (execInstallCommitted m x) := by
  refine KeptR.next (State.instDeliver_kept (fun y => State.asReader_kept (P := [.regs, .vault, .fab, .rings, .handed, .out]) (fun z r put hput => ?_)))
  dsimp only
  split
  · exact State.finishReader_kept.mono (by decide)
  · exact hput _ _

theorem State.deleteImage_kept {x : State} {a1} : Kept [.vault, .rings, .handed, .out] x (State.deleteImage x a1) := by
  unfold State.deleteImage
  dsimp only
  refine Kept.ite ?_ ?_
  · refine Kept.andThen State.fail_kept ?_
    exact Kept.refl _
  · split
    · refine Kept.andThen State.fail_kept ?_
      exact Kept.refl _
    · refine Kept.ite ?_ ?_
      · refine Kept.andThen State.fail_kept ?_
        exact Kept.refl _
      · refine Kept.andThen State.accept_kept ?_
        refine Kept.andThen State.setVault_kept ?_
        refine Kept.andThen State.freeExtent_kept ?_
        exact Kept.refl _

theorem execImageDelete_kept {x : State} {a0} : KeptR [.regs, .vault, .rings, .handed, .out] x (execImageDelete a0 x) := by
  unfold execImageDelete
  refine KeptR.next ?_
  refine Kept.on (State.command_kept ?_) ?_
  · intro _ _
    refine Kept.andThen State.deleteImage_kept ?_
    exact Kept.refl _
  · exact Kept.refl _

theorem State.repairShards_kept {x : State} {a1} : Kept [.regs, .vault, .out] x (State.repairShards x a1) := by
  unfold State.repairShards
  dsimp only
  split
  · refine Kept.andThen State.respond_kept ?_
    exact Kept.refl _
  · refine Kept.ite ?_ ?_
    · refine Kept.andThen State.respond_kept ?_
      exact Kept.refl _
    · refine Kept.ite ?_ ?_
      · refine Kept.andThen State.respond_kept ?_
        exact Kept.refl _
      · refine Kept.andThen State.respond_kept ?_
        refine Kept.andThen State.sendBegin_kept ?_
        refine Kept.andThen State.setVault_kept ?_
        exact Kept.refl _

theorem execShardRepair_kept {x : State} {a0} : KeptR [.regs, .vault, .fab, .rings, .out] x (execShardRepair a0 x) := by
  unfold execShardRepair
  refine KeptR.next ?_
  refine Kept.on (State.deliver_kept ?_) ?_
  · intro _
    refine Kept.andThen State.repairShards_kept ?_
    exact Kept.refl _
  · exact Kept.refl _

theorem State.settleMember_kept {x : State} {a1} {a2} : Kept [.vault] x (State.settleMember x a1 a2) := by
  unfold State.settleMember
  dsimp only
  split
  · refine Kept.ite ?_ ?_
    · exact Kept.refl _
    · refine Kept.ite ?_ ?_
      · refine Kept.andThen State.setVault_kept ?_
        exact Kept.refl _
      · refine Kept.andThen State.closeMember_kept ?_
        exact Kept.refl _
  · exact Kept.refl _

theorem State.syncEntry_kept {x : State} {a1} {a2} : Kept [.regs, .vault, .handed] x (State.syncEntry x a1 a2) := by
  unfold State.syncEntry
  dsimp only
  split
  · refine Kept.ite ?_ ?_
    · refine Kept.andThen State.removeEntry_kept ?_
      refine Kept.andThen State.settleMember_kept ?_
      exact Kept.refl _
    · exact Kept.refl _
  · refine Kept.ite ?_ ?_
    · refine Kept.ite ?_ ?_
      · refine Kept.andThen State.entryState_kept ?_
        refine Kept.andThen State.settleMember_kept ?_
        exact Kept.refl _
      · refine Kept.andThen State.removeEntry_kept ?_
        refine Kept.andThen State.settleMember_kept ?_
        exact Kept.refl _
    · refine Kept.ite ?_ ?_
      · refine Kept.ite ?_ ?_
        · exact Kept.refl _
        · refine Kept.ite ?_ ?_
          · refine Kept.andThen State.setEntry_kept ?_
            exact Kept.refl _
          · refine Kept.andThen State.entryState_kept ?_
            refine Kept.andThen State.setEntry_kept ?_
            exact Kept.refl _
      · exact Kept.refl _

theorem State.syncAbsent_kept {x : State} {a1} : Kept [.vault, .handed] x (State.syncAbsent x a1) := by
  unfold State.syncAbsent
  refine Kept.ite ?_ ?_
  · exact Kept.refl _
  · dsimp only
    split
    · exact Kept.refl _
    · refine Kept.andThen State.hand_kept ?_
      refine Kept.andThen State.setVault_kept ?_
      exact Kept.refl _

theorem State.sync_kept {x : State} {a1} : Kept [.regs, .vault, .handed] x (State.sync x a1) := by
  unfold State.sync
  refine Kept.foldl _ _ ?_ ?_
  · refine Kept.foldl _ _ ?_ ?_
    · exact Kept.refl _
    · intro _ _
      refine Kept.andThen State.syncEntry_kept ?_
      exact Kept.refl _
  · intro _ _
    refine Kept.andThen State.syncAbsent_kept ?_
    exact Kept.refl _

theorem execCatalogueSync_kept {x : State} {a0} {a1} : KeptR [.regs, .vault, .fab, .rings, .handed, .out] x (execCatalogueSync a0 a1 x) := by
  unfold execCatalogueSync
  refine KeptR.next ?_
  refine Kept.on (State.deliver_kept ?_) ?_
  · intro _
    refine Kept.andThen State.respond_kept ?_
    refine Kept.andThen State.sync_kept ?_
    exact Kept.refl _
  · exact Kept.refl _

theorem State.busErrorInstall_kept {x : State} : Kept [.regs, .vault, .handed, .out] x (State.busErrorInstall x) := by
  unfold State.busErrorInstall
  split
  · refine Kept.ite ?_ ?_
    · exact Kept.refl _
    · refine Kept.andThen State.abortReader_kept ?_
      exact Kept.refl _
  · exact Kept.refl _

/-! ### Encode -/

theorem State.runEmit_kept {x : State} {a1} {a2} {a3} : Kept [.regs, .arr, .mem, .serve] x (State.runEmit x a1 a2 a3).1 := by
  unfold State.runEmit
  dsimp only
  split
  · dsimp only
    refine Kept.ite ?_ ?_
    · refine Kept.andThen State.takeDrain_kept ?_
      refine Kept.andThen State.emitBlocks_kept ?_
      exact Kept.refl _
    · refine Kept.andThen State.emitBlocks_kept ?_
      exact Kept.refl _
  · dsimp only
    refine Kept.andThen State.writeBlocks_kept ?_
    refine Kept.ite ?_ ?_
    · refine Kept.andThen State.takeDrain_kept ?_
      refine Kept.andThen State.emitBlocks_kept ?_
      exact Kept.refl _
    · refine Kept.andThen State.emitBlocks_kept ?_
      exact Kept.refl _

theorem execEmit_kept {x : State} {a0} {a1} {a2} : KeptR [.regs, .arr, .mem, .serve, .fab, .faults, .platform, .out] x (execEmit a0 a1 x a2) := by
  unfold execEmit
  refine KeptR.next ?_
  refine Kept.on (State.watched_kept ?_) ?_
  · intro _
    refine Kept.on (State.action_kept ?_ ?_) ?_
    · intro _ _ _
      refine Kept.on (wordPre_kept ?_) ?_
      · intro _ _ _
        refine Kept.andThen readsOnly_kept ?_
        exact Kept.refl _
      · exact Kept.refl _
    · intro _ _ _ _
      refine Kept.andThen State.runEmit_kept ?_
      exact Kept.refl _
    · exact Kept.refl _
  · exact Kept.refl _

theorem State.handRecord_kept {x : State} {a1} {a2} : Kept [.regs, .arr] x (State.handRecord x a1 a2).2 := by
  unfold State.handRecord
  dsimp only
  split
  · exact Kept.refl _
  · split
    · dsimp only
      refine Kept.andThen State.setBead_kept ?_
      exact Kept.refl _
    · dsimp only
      refine Kept.andThen State.bump_kept ?_
      exact Kept.refl _
    · exact Kept.refl _

theorem State.badRecord_kept {x : State} {a1} {a2} {a3} {a4} : Kept [.regs, .arr, .mem, .serve, .fab, .rings, .faults, .out, .free] x (State.badRecord x a1 a2 a3 a4).2 := by
  unfold State.badRecord
  refine Kept.andThen State.badBlock_kept ?_
  exact Kept.refl _

theorem State.buildPre_kept {x : State} {a1} {a2} : Kept [.regs, .arr, .mem, .serve, .fab, .rings, .faults, .out, .free] x (State.buildPre x a1 a2).2 := by
  unfold State.buildPre
  dsimp only
  split
  · exact Kept.refl _
  · split
    · split
      · exact Kept.refl _
      · split
        · dsimp only
          refine Kept.of_snd (by assumption) ?_
          refine Kept.andThen State.handRecord_kept ?_
          exact Kept.refl _
        · dsimp only
          refine Kept.andThen State.badRecord_kept ?_
          exact Kept.refl _
        · dsimp only
          refine Kept.of_snd (by assumption) ?_
          refine Kept.andThen State.handRecord_kept ?_
          exact Kept.refl _
    · exact Kept.refl _

theorem State.runBuild_kept {x : State} {a1} {a2} : Kept [.regs, .arr] x (State.runBuild x a1 a2).1 := by
  unfold State.runBuild
  dsimp only
  split
  · dsimp only
    refine Kept.andThen State.bump_kept ?_
    exact Kept.refl _
  · split
    · dsimp only
      refine Kept.andThen State.setCtx_kept ?_
      exact Kept.refl _
    · dsimp only
      refine Kept.andThen State.bump_kept ?_
      refine Kept.andThen State.setCtx_kept ?_
      exact Kept.refl _

theorem execBuild_kept {x : State} {a0} {a1} : KeptR [.regs, .arr, .mem, .serve, .fab, .rings, .faults, .platform, .out, .free] x (execBuild a0 x a1) := by
  unfold execBuild
  refine KeptR.next ?_
  refine Kept.on (State.watched_kept ?_) ?_
  · intro _
    refine Kept.on (State.action_kept ?_ ?_) ?_
    · intro _ _ _
      refine Kept.on (wordPre_kept ?_) ?_
      · intro _ _ _
        refine Kept.andThen State.buildPre_kept ?_
        exact Kept.refl _
      · exact Kept.refl _
    · intro _ _ _ _
      refine Kept.andThen State.runBuild_kept ?_
      exact Kept.refl _
    · exact Kept.refl _
  · exact Kept.refl _

theorem State.tryRecord_kept {x : State} {a1} {a2} {a3} : Kept [.regs, .arr, .mem, .serve, .fab, .rings, .faults, .out, .free] x (State.tryRecord x a1 a2 a3) := by
  unfold State.tryRecord
  split
  · refine Kept.andThen State.badRecord_kept ?_
    refine Kept.of_snd (by assumption) ?_
    refine Kept.andThen State.handRecord_kept ?_
    exact Kept.refl _
  · refine Kept.of_snd (by assumption) ?_
    refine Kept.andThen State.handRecord_kept ?_
    exact Kept.refl _

theorem State.recordIn_kept {x : State} {a1} {a2} {a3} : Kept [.regs, .arr, .mem, .serve, .fab, .rings, .faults, .out, .free] x (State.recordIn x a1 a2 a3) := by
  unfold State.recordIn
  split
  · exact Kept.refl _
  · refine Kept.andThen State.tryRecord_kept ?_
    exact Kept.refl _

theorem execDictionaryRecordLoad_kept {x : State} {a0} {a1} {a2} : KeptR [.regs, .arr, .mem, .serve, .fab, .rings, .faults, .platform, .out, .free] x (execDictionaryRecordLoad a0 a1 a2 x) := by
  unfold execDictionaryRecordLoad
  refine KeptR.next ?_
  refine Kept.on (State.watched_kept ?_) ?_
  · intro _
    refine Kept.andThen State.recordIn_kept ?_
    exact Kept.refl _
  · exact Kept.refl _

theorem State.handEdge_kept {x : State} {a1} {a2} {a3} : KeptO [.regs, .arr, .mem, .serve, .fab, .rings, .faults, .out, .free] x (State.handEdge x a1 a2 a3) := by
  unfold State.handEdge
  split
  · exact KeptO.none
  · refine KeptO.some ?_
    refine Kept.of_snd (by assumption) ?_
    refine Kept.andThen State.handRecord_kept ?_
    exact Kept.refl _
  · split
    · split
      · exact KeptO.none
      · refine KeptO.some ?_
        refine Kept.of_snd (by assumption) ?_
        refine Kept.andThen State.handRecord_kept ?_
        refine Kept.of_snd (by assumption) ?_
        refine Kept.andThen State.badRecord_kept ?_
        refine Kept.of_snd (by assumption) ?_
        refine Kept.andThen State.handRecord_kept ?_
        exact Kept.refl _
      · refine KeptO.some ?_
        refine Kept.andThen State.badRecord_kept ?_
        refine Kept.of_snd (by assumption) ?_
        refine Kept.andThen State.handRecord_kept ?_
        refine Kept.of_snd (by assumption) ?_
        refine Kept.andThen State.badRecord_kept ?_
        refine Kept.of_snd (by assumption) ?_
        refine Kept.andThen State.handRecord_kept ?_
        exact Kept.refl _
    · refine KeptO.some ?_
      refine Kept.of_snd (by assumption) ?_
      refine Kept.andThen State.badRecord_kept ?_
      refine Kept.of_snd (by assumption) ?_
      refine Kept.andThen State.handRecord_kept ?_
      exact Kept.refl _

theorem State.handAll_kept {x : State} {c l} : KeptO [.regs, .arr, .mem, .serve, .fab, .rings, .faults, .out, .free] x (x.handAll c l) := by
  induction l generalizing x with
  | nil => exact KeptO.some (Kept.refl _)
  | cons u l ih =>
    unfold State.handAll
    have h : KeptO [.regs, .arr, .mem, .serve, .fab, .rings, .faults, .out, .free] x (x.handEdge c u.1 u.2) := State.handEdge_kept
    cases e : x.handEdge c u.1 u.2 with
    | none => exact KeptO.none
    | some y => exact KeptO.andThen ih (Kept.of_some e h) (List.Subset.refl _)

theorem State.copyPre_kept {x : State} {a1} {a2} : Kept [.regs, .arr, .mem, .serve, .fab, .rings, .faults, .out, .free] x (State.copyPre x a1 a2).2 := by
  unfold State.copyPre
  dsimp only
  split
  · exact Kept.refl _
  · split
    · exact Kept.refl _
    · split
      · dsimp only
        refine Kept.andThen State.bump_kept ?_
        exact Kept.refl _
      · dsimp only
        refine Kept.of_some (by assumption) ?_
        refine KeptO.andThen State.handAll_kept ?_
        exact Kept.refl _

theorem State.copyIn_kept {x : State} {a1} {a2} {a3} : Kept [.arr, .mem] x (State.copyIn x a1 a2 a3) := by
  unfold State.copyIn
  refine Kept.andThen State.tileWrite_kept ?_
  exact Kept.refl _

theorem Placing.foldl_kept {α : Type} {ps : List Part} {x : State} (f : Placing → α → Placing) (l : List α) (p : Placing) (h : Kept ps x p.s)
    (hf : ∀ q a, Kept ps q.s (f q a).s) : Kept ps x (l.foldl f p).s := by
  induction l generalizing p with
  | nil => exact h
  | cons a l ih => exact ih (f p a) (Kept.on (hf p a) h)

theorem Placing.foldl_kept_fst {α β : Type} {ps : List Part} (f : Placing × β → α → Placing × β) (l : List α) (p : Placing × β)
    (hf : ∀ q a, Kept ps q.1.s (f q a).1.s) : Kept ps p.1.s (l.foldl f p).1.s := by
  induction l generalizing p with
  | nil => exact Kept.refl _
  | cons a l ih => exact Kept.on (ih (f p a)) (hf p a)

theorem Placing.edge_kept {p : Placing} {i r e g} : Kept [.arr, .mem] p.s (p.edge i r e g).s := by
  unfold Placing.edge
  split
  · exact Kept.refl _
  · dsimp only
    refine State.setCtx_kept.andThen ?_
    refine Placing.foldl_kept_fst _ _ (_, _) fun q a => ?_
    split
    · exact Kept.refl _
    · exact State.writeBlocks_kept.mono (by decide)

theorem State.copyBlocks_kept {x : State} {c a o g} : Kept [.arr, .mem] x (x.copyBlocks c a o g) :=
  Placing.foldl_kept _ _ _ (Kept.refl _) fun _ _ => Placing.edge_kept

theorem State.runCopy_kept {x : State} {a1} {a2} {a3} : Kept [.arr, .mem] x (State.runCopy x a1 a2 a3).1 := by
  unfold State.runCopy
  dsimp only
  split
  · dsimp only
    refine Kept.ite ?_ ?_
    · refine Kept.andThen State.copyBlocks_kept ?_
      exact Kept.refl _
    · refine Kept.andThen State.copyIn_kept ?_
      exact Kept.refl _
  · exact Kept.refl _

theorem execCopy_kept {x : State} {a0} {a1} : KeptR [.regs, .arr, .mem, .serve, .fab, .rings, .faults, .platform, .out, .free] x (execCopy a0 x a1) := by
  unfold execCopy
  refine KeptR.next ?_
  refine Kept.on (State.watched_kept ?_) ?_
  · intro _
    refine Kept.on (State.action_kept ?_ ?_) ?_
    · intro _ _ _
      refine Kept.on (wordPre_kept ?_) ?_
      · intro _ _ _
        refine Kept.andThen State.copyPre_kept ?_
        exact Kept.refl _
      · exact Kept.refl _
    · intro _ _ _ _
      refine Kept.andThen State.runCopy_kept ?_
      exact Kept.refl _
    · exact Kept.refl _
  · exact Kept.refl _

/-! ### Vector -/

theorem execVector_kept {x : State} {a0} {a1} : KeptR [.regs, .arr, .mem, .serve, .fab, .faults, .platform, .out] x (execVector a0 x a1) := by
  unfold execVector
  refine KeptR.next ?_
  refine Kept.on (State.watched_kept ?_) ?_
  · intro _
    refine Kept.on (State.action_kept ?_ ?_) ?_
    · intro _ _ _
      refine Kept.on (wordPre_kept ?_) ?_
      · intro _ _ _
        refine Kept.andThen readsOnly_kept ?_
        exact Kept.refl _
      · exact Kept.refl _
    · intro _ _ _ _
      dsimp only
      refine Kept.andThen State.tileWrite_kept ?_
      exact Kept.refl _
    · exact Kept.refl _
  · exact Kept.refl _

/-! ### Experts -/

theorem State.runSelect_kept {x : State} {a1} {a2} : Kept [.arr, .mem] x (State.runSelect x a1 a2) := by
  unfold State.runSelect
  dsimp only
  split
  · exact Kept.refl _
  · refine Kept.foldl _ _ ?_ ?_
    · exact Kept.refl _
    · intro _ _
      refine Kept.andThen State.tileWrite_kept ?_
      exact Kept.refl _

theorem execSelect_kept {x : State} {a0} {a1} : KeptR [.regs, .arr, .mem, .serve, .fab, .faults, .platform, .out] x (execSelect a0 x a1) := by
  unfold execSelect
  refine KeptR.next ?_
  refine Kept.on (State.watched_kept ?_) ?_
  · intro _
    refine Kept.on (State.action_kept ?_ ?_) ?_
    · intro _ _ _
      refine Kept.on (wordPre_kept ?_) ?_
      · intro _ _ _
        refine Kept.andThen readsOnly_kept ?_
        exact Kept.refl _
      · exact Kept.refl _
    · intro _ _ _ _
      dsimp only
      refine Kept.andThen State.runSelect_kept ?_
      exact Kept.refl _
    · exact Kept.refl _
  · exact Kept.refl _

theorem State.addLoads_kept {x : State} {a1} {a2} {a3} : Kept [.mem] x (State.addLoads x a1 a2 a3) := by
  unfold State.addLoads
  dsimp only
  refine Kept.foldl _ _ ?_ ?_
  · exact Kept.refl _
  · intro _ _
    refine Kept.ite ?_ ?_
    · exact Kept.refl _
    · refine Kept.andThen State.storeAt_kept ?_
      exact Kept.refl _

theorem State.mergeLoads_kept {x : State} {a1} {a2} {a3} {a4} : Kept [.regs, .mem, .serve, .vault, .fab, .rings, .faults, .handed, .out] x (State.mergeLoads x a1 a2 a3 a4) := by
  unfold State.mergeLoads
  dsimp only
  split
  · refine Kept.andThen State.addLoads_kept ?_
    refine Kept.of_snd (by assumption) ?_
    refine Kept.andThen State.hubRead_kept ?_
    exact Kept.refl _
  · refine Kept.andThen State.failConfig_kept ?_
    refine Kept.of_snd (by assumption) ?_
    refine Kept.andThen State.hubRead_kept ?_
    exact Kept.refl _

theorem State.runDispatch_kept {x : State} {a1} {a2} {a3} : Kept [.regs, .arr, .mem, .serve, .vault, .fab, .rings, .faults, .handed, .out] x (State.runDispatch x a1 a2 a3) := by
  unfold State.runDispatch
  dsimp only
  split
  · exact Kept.refl _
  · split
    · refine Kept.andThen State.setCtx_kept ?_
      refine Kept.andThen State.onCtxStep_kept ?_
      refine Kept.andThen State.bumpBy_kept ?_
      refine Kept.andThen State.mergeLoads_kept ?_
      refine Kept.andThen State.tileWrite_kept ?_
      refine Kept.andThen State.tileWrite_kept ?_
      exact Kept.refl _
    · refine Kept.andThen State.onCtxStep_kept ?_
      refine Kept.andThen State.bumpBy_kept ?_
      refine Kept.andThen State.mergeLoads_kept ?_
      refine Kept.andThen State.tileWrite_kept ?_
      refine Kept.andThen State.tileWrite_kept ?_
      exact Kept.refl _

theorem execDispatch_kept {x : State} {a0} {a1} {a2} : KeptR [.regs, .arr, .mem, .serve, .vault, .fab, .rings, .faults, .handed, .platform, .out] x (execDispatch a0 x a1 a2) := by
  unfold execDispatch
  refine KeptR.next ?_
  refine Kept.on (State.watched_kept ?_) ?_
  · intro _
    refine Kept.on (State.action_kept ?_ ?_) ?_
    · intro _ _ _
      refine Kept.on (wordPre_kept ?_) ?_
      · intro _ _ _
        refine Kept.andThen readsOnly_kept ?_
        exact Kept.refl _
      · exact Kept.refl _
    · intro _ _ _ _
      dsimp only
      refine Kept.andThen State.runDispatch_kept ?_
      exact Kept.refl _
    · exact Kept.refl _
  · exact Kept.refl _

theorem State.runCombine_kept {x : State} {a1} {a2} : Kept [.arr, .mem] x (State.runCombine x a1 a2) := by
  unfold State.runCombine
  dsimp only
  split
  · exact Kept.refl _
  · refine Kept.andThen State.tileWrite_kept ?_
    exact Kept.refl _

theorem execCombine_kept {x : State} {a0} {a1} : KeptR [.regs, .arr, .mem, .serve, .fab, .faults, .platform, .out] x (execCombine a0 x a1) := by
  unfold execCombine
  refine KeptR.next ?_
  refine Kept.on (State.watched_kept ?_) ?_
  · intro _
    refine Kept.on (State.action_kept ?_ ?_) ?_
    · intro _ _ _
      refine Kept.on (wordPre_kept ?_) ?_
      · intro _ _ _
        refine Kept.andThen readsOnly_kept ?_
        exact Kept.refl _
      · exact Kept.refl _
    · intro _ _ _ _
      dsimp only
      refine Kept.andThen State.runCombine_kept ?_
      exact Kept.refl _
    · exact Kept.refl _
  · exact Kept.refl _

end Sys2Proof.Machine
end

