-- ==== Sys2Proof/Laws/Kept6.lean ====
section
/-! SUPPORT. What the operations and the commands of Machine/Swap.lean, Machine/Instances.lean keep (Laws/Kept.lean). -/
set_option Elab.async false

namespace Sys2Proof.Machine

/-! ### Swap -/

theorem State.mapCfgCtxs_kept {x : State} {a1} {a2} : Kept [.arr, .serve] x (State.mapCfgCtxs x a1 a2) := by
  unfold State.mapCfgCtxs
  dsimp only
  refine Kept.upd ?_
  exact Kept.refl _

theorem State.invalidate_kept {x : State} {a1} : Kept [.arr] x (State.invalidate x a1) := by
  unfold State.invalidate
  dsimp only
  refine Kept.upd ?_
  exact Kept.refl _

theorem State.evictCfg_kept {x : State} {a1} {a2} : Kept [.regs, .arr, .serve, .fab, .faults] x (State.evictCfg x a1 a2) := by
  unfold State.evictCfg
  dsimp only
  split
  · exact Kept.refl _
  · refine Kept.andThen State.bump_kept ?_
    refine Kept.andThen State.setCfg_kept ?_
    refine Kept.andThen State.invalidate_kept ?_
    refine Kept.ite ?_ ?_
    · refine Kept.foldl _ _ ?_ ?_
      · exact Kept.refl _
      · intro _ _
        refine Kept.andThen State.detectBead_kept ?_
        exact Kept.refl _
    · refine Kept.andThen State.failConfig_kept ?_
      refine Kept.foldl _ _ ?_ ?_
      · exact Kept.refl _
      · intro _ _
        refine Kept.andThen State.detectBead_kept ?_
        exact Kept.refl _

theorem State.makeRoom_kept {x : State} {c g l n} : KeptO [.regs, .arr, .serve, .fab, .faults] x (x.makeRoom c g l n) := by
  induction n generalizing x with
  | zero => exact KeptO.none
  | succ n ih =>
    unfold State.makeRoom
    dsimp only
    split
    · exact KeptO.some (Kept.refl _)
    · split
      · exact KeptO.none
      · split
        · exact KeptO.none
        · exact KeptO.andThen ih State.evictCfg_kept (List.Subset.refl _)

theorem State.beginRestore_kept {x : State} {l n} : Kept [.regs, .arr, .serve, .fab, .faults] x (State.beginRestore l x n) := by
  unfold State.beginRestore
  split
  · exact Kept.refl _
  · split
    · exact Kept.refl _
    · split
      · exact State.setCfg_kept.andThen (State.failConfig_kept.mono (by decide))
      · split
        · exact Kept.refl _
        · split
          · exact Kept.refl _
          · next e => exact State.setCfg_kept.andThen (Kept.of_some e (State.makeRoom_kept (c := _)))

theorem State.clearProving_kept {x : State} {a1} : Kept [.regs, .arr, .serve, .fab, .faults] x (State.clearProving x a1) := by
  unfold State.clearProving
  dsimp only
  refine Kept.foldl _ _ ?_ ?_
  · exact Kept.refl _
  · intro _ _
    refine Kept.ite ?_ ?_
    · refine Kept.andThen State.evictCfg_kept ?_
      exact Kept.refl _
    · exact Kept.refl _

theorem State.swap_kept {x : State} {a1} : Kept [.regs, .arr, .serve, .fab, .faults] x (State.swap x a1) := by
  unfold State.swap
  dsimp only
  refine Kept.foldl _ _ ?_ ?_
  · refine Kept.andThen State.clearProving_kept ?_
    exact Kept.refl _
  · intro _ _
    refine Kept.andThen State.beginRestore_kept ?_
    exact Kept.refl _

theorem execSwapDecision_kept {x : State} {a0} : KeptR [.regs, .arr, .serve, .fab, .faults] x (execSwapDecision x a0) := by
  unfold execSwapDecision
  refine KeptR.next ?_
  refine Kept.andThen State.swap_kept ?_
  exact Kept.refl _

theorem State.resolve_kept {x : State} {a1} {a2} {a3} {a4} : Kept [.mem] x (State.resolve x a1 a2 a3 a4) := by
  unfold State.resolve
  refine Kept.foldl _ _ ?_ ?_
  · exact Kept.refl _
  · intro _ _
    dsimp only
    refine Kept.ite ?_ ?_
    · split
      · refine Kept.andThen State.storeAt_kept ?_
        exact Kept.refl _
      · exact Kept.refl _
    · exact Kept.refl _

theorem State.putTile_kept {x : State} {a1} : Kept [.mem] x (State.putTile x a1) := by
  unfold State.putTile
  refine Kept.andThen State.storeAt_kept ?_
  exact Kept.refl _

theorem State.putDir_kept {x : State} {a1} : Kept [.arr] x (State.putDir x a1) := by
  unfold State.putDir
  dsimp only
  refine Kept.andThen State.setBead_kept ?_
  exact Kept.refl _

theorem State.placeOn_kept {x : State} {a1} {a2} {a3} : Kept [.arr, .serve] x (State.placeOn x a1 a2 a3) := by
  unfold State.placeOn
  dsimp only
  split
  · exact Kept.refl _
  · refine Kept.ite ?_ ?_
    · refine Kept.andThen State.fly_kept ?_
      exact Kept.refl _
    · refine Kept.andThen State.setCfg_kept ?_
      exact Kept.refl _

theorem State.applyReleases_kept {x : State} {a1} {a2} : Kept [.arr] x (State.applyReleases x a1 a2) := by
  unfold State.applyReleases
  refine Kept.foldl _ _ ?_ ?_
  · exact Kept.refl _
  · intro _ _
    split
    · refine Kept.andThen State.release_kept ?_
      exact Kept.refl _
    · exact Kept.refl _

theorem State.finishRestore_kept {x : State} {a1} {a2} : Kept [.regs, .arr, .mem, .serve] x (State.finishRestore x a1 a2) := by
  unfold State.finishRestore
  dsimp only
  refine Kept.andThen State.bump_kept ?_
  refine Kept.andThen State.applyReleases_kept ?_
  refine Kept.foldl _ _ ?_ ?_
  · refine Kept.andThen State.setCfg_kept ?_
    refine Kept.upd ?_
    refine Kept.foldl _ _ ?_ ?_
    · refine Kept.foldl _ _ ?_ ?_
      · refine Kept.foldl _ _ ?_ ?_
        · refine Kept.foldl _ _ ?_ ?_
          · exact Kept.refl _
          · intro _ _
            refine Kept.andThen State.putTile_kept ?_
            exact Kept.refl _
        · intro _ _
          refine Kept.andThen State.resolve_kept ?_
          exact Kept.refl _
      · intro _ _
        refine Kept.andThen State.putDir_kept ?_
        exact Kept.refl _
    · intro _ _
      refine Kept.andThen State.setBead_kept ?_
      exact Kept.refl _
  · intro _ _
    refine Kept.andThen State.fly_kept ?_
    exact Kept.refl _

theorem State.restoreFault_kept {x : State} {a1} {a2} {a3} : Kept [.regs, .serve, .fab, .faults] x (State.restoreFault x a1 a2 a3) := by
  unfold State.restoreFault
  dsimp only
  refine Kept.ite ?_ ?_
  · refine Kept.andThen State.setCfg_kept ?_
    refine Kept.andThen State.mismatch_kept ?_
    exact Kept.refl _
  · refine Kept.andThen State.failConfig_kept ?_
    refine Kept.andThen State.setCfg_kept ?_
    refine Kept.andThen State.mismatch_kept ?_
    exact Kept.refl _

theorem State.restoreDone_kept {x : State} {a1} {a2} : Kept [.regs, .arr, .mem, .serve, .fab, .faults] x (State.restoreDone x a1 a2) := by
  unfold State.restoreDone
  split
  · exact Kept.refl _
  · split
    · exact Kept.refl _
    · refine Kept.ite ?_ ?_
      · exact Kept.refl _
      · split
        · refine Kept.andThen State.restoreFault_kept ?_
          exact Kept.refl _
        · refine Kept.andThen State.finishRestore_kept ?_
          refine Kept.andThen State.correctedWords_kept ?_
          exact Kept.refl _
        · refine Kept.andThen State.finishRestore_kept ?_
          exact Kept.refl _

theorem State.remapFrame_kept {x : State} {a1} {a2} : Kept [.regs, .arr, .mem, .serve, .vault, .fab, .faults, .handed] x (State.remapFrame x a1 a2) := by
  unfold State.remapFrame
  dsimp only
  split
  · exact Kept.refl _
  · refine Kept.ite ?_ ?_
    · refine Kept.andThen State.remap_kept ?_
      refine Kept.foldl _ _ ?_ ?_
      · exact Kept.refl _
      · intro _ _
        refine Kept.ite ?_ ?_
        · refine Kept.andThen State.evictCfg_kept ?_
          exact Kept.refl _
        · exact Kept.refl _
    · refine Kept.foldl _ _ ?_ ?_
      · exact Kept.refl _
      · intro _ _
        refine Kept.ite ?_ ?_
        · refine Kept.andThen State.evictCfg_kept ?_
          exact Kept.refl _
        · exact Kept.refl _

theorem execRodRemap_kept {x : State} {a0} {a1} : KeptR [.regs, .arr, .mem, .serve, .vault, .fab, .faults, .handed] x (execRodRemap a0 x a1) := by
  unfold execRodRemap
  refine KeptR.next ?_
  refine Kept.andThen State.remapFrame_kept ?_
  exact Kept.refl _

theorem State.setGens_kept {x : State} {a1} {a2} : Kept [.arr, .mem, .serve] x (State.setGens x a1 a2) := by
  unfold State.setGens
  dsimp only
  split
  · exact Kept.refl _
  · refine Kept.foldl _ _ ?_ ?_
    · refine Kept.andThen State.setCfg_kept ?_
      exact Kept.refl _
    · intro _ _
      refine Kept.ite ?_ ?_
      · split
        · refine Kept.andThen State.setCfg_kept ?_
          refine Kept.andThen State.invalidate_kept ?_
          refine Kept.andThen State.freePoolPages_kept ?_
          exact Kept.refl _
        · refine Kept.andThen State.freePoolPages_kept ?_
          exact Kept.refl _
      · refine Kept.andThen State.freePoolPages_kept ?_
        exact Kept.refl _

theorem State.dropConfigRefs_kept {x : State} {a1} : Kept [.arr, .mem, .serve] x (State.dropConfigRefs x a1) := by
  unfold State.dropConfigRefs
  refine Kept.foldl _ _ ?_ ?_
  · exact Kept.refl _
  · intro _ _
    refine Kept.andThen State.setGens_kept ?_
    exact Kept.refl _

/-! ### Instances -/

theorem State.instDone_kept {x : State} {a1} {a2} {a3} : Kept [.handed] x (State.instDone x a1 a2 a3) := by
  unfold State.instDone
  dsimp only
  refine Kept.andThen State.handCq_kept ?_
  exact Kept.refl _

theorem State.genRecord_kept {x : State} {a1} {a2} {a3} {a4} {a5} : Kept [.handed] x (State.genRecord x a1 a2 a3 a4 a5) := by
  unfold State.genRecord
  refine Kept.ite ?_ ?_
  · exact Kept.refl _
  · refine Kept.andThen State.hand_kept ?_
    exact Kept.refl _

theorem State.latePlacement_kept {x : State} {a1} {a2} {a3} : Kept [.regs, .rings, .out] x (State.latePlacement x a1 a2 a3) := by
  unfold State.latePlacement
  dsimp only
  refine Kept.andThen State.instEvent_kept ?_
  refine Kept.foldl _ _ ?_ ?_
  · exact Kept.refl _
  · intro _ _
    refine Kept.andThen State.bump_kept ?_
    exact Kept.refl _

theorem State.bind_kept {x : State} {a1} {a2} : Kept [.vault] x (State.bind x a1 a2) := by
  unfold State.bind
  split
  · refine Kept.andThen State.setEntry_kept ?_
    exact Kept.refl _
  · exact Kept.refl _

theorem State.dropAdapter_kept {x : State} {a1} {a2} : Kept [.mem, .serve, .vault] x (State.dropAdapter x a1 a2) := by
  unfold State.dropAdapter
  dsimp only
  refine Kept.andThen State.bind_kept ?_
  refine Kept.andThen State.freePoolPages_kept ?_
  refine Kept.andThen State.setInst_kept ?_
  exact Kept.refl _

theorem State.setAdapter_kept {x : State} {a1} {a2} {a3} : Kept [.mem, .serve, .vault] x (State.setAdapter x a1 a2 a3) := by
  unfold State.setAdapter
  dsimp only
  refine Kept.foldl _ _ ?_ ?_
  · refine Kept.andThen State.setInst_kept ?_
    exact Kept.refl _
  · intro _ _
    refine Kept.andThen State.dropAdapter_kept ?_
    exact Kept.refl _

theorem State.placePage_kept {x : State} {a1} {a2} {a3} {a4} {a5} {a6} : Kept [.mem, .serve] x (State.placePage x a1 a2 a3 a4 a5 a6) := by
  unfold State.placePage
  dsimp only
  split
  · refine Kept.andThen State.storeAt_kept ?_
    refine Kept.andThen State.setInst_kept ?_
    exact Kept.refl _
  · refine Kept.andThen State.setInst_kept ?_
    exact Kept.refl _

theorem State.loadAdapter_kept {x : State} {a1} {a2} {a3} : Kept [.regs, .mem, .serve, .vault, .fab, .rings, .faults, .handed, .out] x (State.loadAdapter x a1 a2 a3).2 := by
  unfold State.loadAdapter
  dsimp only
  split
  · dsimp only
    refine Kept.of_snd (by assumption) ?_
    refine Kept.andThen State.allocateAll_kept ?_
    exact Kept.refl _
  · split
    · dsimp only
      refine Kept.andThen State.freePoolPages_kept ?_
      refine Kept.of_snd2 (by assumption) ?_
      refine Kept.andThen State.readVault_kept ?_
      refine Kept.of_snd (by assumption) ?_
      refine Kept.andThen State.allocateAll_kept ?_
      exact Kept.refl _
    · dsimp only
      refine Kept.foldl_fst _ _ _ ?_ ?_
      · dsimp only
        refine Kept.of_snd2 (by assumption) ?_
        refine Kept.andThen State.readVault_kept ?_
        refine Kept.of_snd (by assumption) ?_
        refine Kept.andThen State.allocateAll_kept ?_
        exact Kept.refl _
      · intro _ _
        refine Kept.foldl_fst _ _ _ ?_ ?_
        · exact Kept.refl _
        · intro _ _
          dsimp only
          refine Kept.andThen State.placePage_kept ?_
          exact Kept.refl _

theorem State.loadDone_kept {x : State} {a1} : Kept [.handed] x (State.loadDone x a1) := by
  unfold State.loadDone
  refine Kept.andThen State.handCq_kept ?_
  exact Kept.refl _

theorem State.placeLoad_kept {x : State} {a1} : KeptO [.regs, .arr, .mem, .serve, .vault, .fab, .rings, .faults, .handed, .out] x (State.placeLoad x a1) := by
  unfold State.placeLoad
  dsimp only
  split
  · split
    · exact KeptO.none
    · refine KeptO.some ?_
      refine Kept.andThen State.loadDone_kept ?_
      refine Kept.foldl _ _ ?_ ?_
      · refine Kept.andThen State.setInst_kept ?_
        exact Kept.refl _
      · intro _ _
        refine Kept.andThen State.loadSlot_kept ?_
        exact Kept.refl _
  · split
    · exact KeptO.none
    · refine KeptO.some ?_
      refine Kept.andThen State.loadDone_kept ?_
      refine Kept.andThen State.setInst_kept ?_
      exact Kept.refl _
  · split
    · exact KeptO.none
    · refine KeptO.some ?_
      refine Kept.andThen State.genRecord_kept ?_
      refine Kept.andThen State.loadDone_kept ?_
      refine Kept.andThen State.setInst_kept ?_
      exact Kept.refl _
  · split
    · refine KeptO.some ?_
      refine Kept.andThen State.loadDone_kept ?_
      exact Kept.refl _
    · split
      · exact KeptO.none
      · refine KeptO.some ?_
        refine Kept.andThen State.loadDone_kept ?_
        refine Kept.andThen State.setGens_kept ?_
        exact Kept.refl _
  · split
    · exact KeptO.none
    · split
      · refine KeptO.some ?_
        refine Kept.andThen State.loadDone_kept ?_
        exact Kept.refl _
      · split
        · refine KeptO.some ?_
          split
          · refine Kept.andThen State.cqWrite_kept ?_
            refine Kept.of_snd (by assumption) ?_
            refine Kept.andThen State.loadAdapter_kept ?_
            exact Kept.refl _
          · refine Kept.of_snd (by assumption) ?_
            refine Kept.andThen State.loadAdapter_kept ?_
            exact Kept.refl _
        · refine KeptO.some ?_
          refine Kept.andThen State.genRecord_kept ?_
          refine Kept.andThen State.loadDone_kept ?_
          refine Kept.andThen State.setAdapter_kept ?_
          refine Kept.andThen State.bind_kept ?_
          refine Kept.of_snd (by assumption) ?_
          refine Kept.andThen State.loadAdapter_kept ?_
          exact Kept.refl _
  · split
    · refine KeptO.some ?_
      refine Kept.andThen State.loadSlot_kept ?_
      exact Kept.refl _
    · exact KeptO.none

theorem State.load__kept {x : State} {a1} : Kept [.regs, .arr, .mem, .serve, .vault, .fab, .rings, .faults, .handed, .out] x (State.load_ x a1) := by
  unfold State.load_
  dsimp only
  split
  · refine Kept.of_some (by assumption) ?_
    refine KeptO.andThen State.placeLoad_kept ?_
    exact Kept.refl _
  · refine Kept.upd ?_
    split
    · refine Kept.andThen State.bump_kept ?_
      exact Kept.refl _
    · exact Kept.refl _

theorem State.retryLoads_kept {x : State} : Kept [.regs, .arr, .mem, .serve, .vault, .fab, .rings, .faults, .handed, .out] x (State.retryLoads x) := by
  unfold State.retryLoads
  refine Kept.foldl _ _ ?_ ?_
  · exact Kept.refl _
  · intro _ _
    dsimp only
    split
    · refine Kept.upd ?_
      refine Kept.of_some (by assumption) ?_
      refine KeptO.andThen State.placeLoad_kept ?_
      exact Kept.refl _
    · exact Kept.refl _

theorem State.createInst_kept {x : State} {a1} : Kept [.serve, .vault, .rings, .handed, .out] x (State.createInst x a1) := by
  unfold State.createInst
  dsimp only
  refine Kept.ite ?_ ?_
  · refine Kept.andThen State.fail_kept ?_
    exact Kept.refl _
  · refine Kept.ite ?_ ?_
    · refine Kept.andThen State.fail_kept ?_
      exact Kept.refl _
    · refine Kept.ite ?_ ?_
      · refine Kept.andThen State.fail_kept ?_
        exact Kept.refl _
      · split
        · refine Kept.andThen State.fail_kept ?_
          exact Kept.refl _
        · refine Kept.ite ?_ ?_
          · refine Kept.andThen State.fail_kept ?_
            exact Kept.refl _
          · refine Kept.ite ?_ ?_
            · refine Kept.andThen State.fail_kept ?_
              exact Kept.refl _
            · refine Kept.ite ?_ ?_
              · refine Kept.andThen State.fail_kept ?_
                exact Kept.refl _
              · refine Kept.andThen State.instDone_kept ?_
                refine Kept.andThen State.setInst_kept ?_
                refine Kept.andThen State.bind_kept ?_
                exact Kept.refl _

theorem execInstanceCreate_kept {x : State} {a0} : KeptR [.regs, .serve, .vault, .rings, .handed, .out] x (execInstanceCreate a0 x) := by
  unfold execInstanceCreate
  refine KeptR.next ?_
  refine Kept.on (State.command_kept ?_) ?_
  · intro _ _
    refine Kept.andThen State.createInst_kept ?_
    exact Kept.refl _
  · exact Kept.refl _

theorem State.restartInst_kept {x : State} {a1} : Kept [.serve, .rings, .handed, .out] x (State.restartInst x a1) := by
  unfold State.restartInst
  dsimp only
  refine Kept.ite ?_ ?_
  · refine Kept.andThen State.fail_kept ?_
    exact Kept.refl _
  · refine Kept.ite ?_ ?_
    · refine Kept.andThen State.fail_kept ?_
      exact Kept.refl _
    · refine Kept.ite ?_ ?_
      · refine Kept.andThen State.fail_kept ?_
        exact Kept.refl _
      · refine Kept.andThen State.instDone_kept ?_
        refine Kept.andThen State.setInst_kept ?_
        exact Kept.refl _

theorem execInstanceRestart_kept {x : State} {a0} : KeptR [.regs, .serve, .rings, .handed, .out] x (execInstanceRestart a0 x) := by
  unfold execInstanceRestart
  refine KeptR.next ?_
  refine Kept.on (State.command_kept ?_) ?_
  · intro _ _
    refine Kept.andThen State.restartInst_kept ?_
    exact Kept.refl _
  · exact Kept.refl _

theorem State.endRecord_kept {x : State} {a1} {a2} {a3} : Kept [.serve, .rings, .out] x (State.endRecord x a1 a2 a3) := by
  unfold State.endRecord
  refine Kept.andThen State.tqWrite_kept ?_
  exact Kept.refl _

theorem State.abandonRequests_kept {x : State} {a1} : Kept [.mem, .fab] x (State.abandonRequests x a1) := by
  unfold State.abandonRequests
  dsimp only
  refine Kept.andThen State.setFab_kept ?_
  refine Kept.andThen State.setMem_kept ?_
  exact Kept.refl _

theorem State.freeInst_kept {x : State} {a1} : Kept [.arr, .mem, .serve, .vault, .fab] x (State.freeInst x a1) := by
  unfold State.freeInst
  dsimp only
  refine Kept.andThen State.abandonRequests_kept ?_
  refine Kept.upd ?_
  refine Kept.andThen State.setMem_kept ?_
  split
  · refine Kept.andThen State.bind_kept ?_
    refine Kept.foldl _ _ ?_ ?_
    · refine Kept.foldl _ _ ?_ ?_
      · exact Kept.refl _
      · intro _ _
        refine Kept.andThen State.invalidate_kept ?_
        exact Kept.refl _
    · intro _ _
      refine Kept.andThen State.bind_kept ?_
      exact Kept.refl _
  · refine Kept.foldl _ _ ?_ ?_
    · refine Kept.foldl _ _ ?_ ?_
      · exact Kept.refl _
      · intro _ _
        refine Kept.andThen State.invalidate_kept ?_
        exact Kept.refl _
    · intro _ _
      refine Kept.andThen State.bind_kept ?_
      exact Kept.refl _

theorem State.releaseInst_kept {x : State} {a1} : Kept [.arr, .mem, .serve, .vault, .fab, .rings, .handed, .out] x (State.releaseInst x a1) := by
  unfold State.releaseInst
  dsimp only
  refine Kept.ite ?_ ?_
  · refine Kept.andThen State.fail_kept ?_
    exact Kept.refl _
  · refine Kept.ite ?_ ?_
    · refine Kept.andThen State.fail_kept ?_
      exact Kept.refl _
    · refine Kept.andThen State.instDone_kept ?_
      refine Kept.andThen State.setInst_kept ?_
      refine Kept.andThen State.freeInst_kept ?_
      refine Kept.foldl _ _ ?_ ?_
      · exact Kept.refl _
      · intro _ _
        refine Kept.andThen State.endRecord_kept ?_
        exact Kept.refl _

theorem execInstanceRelease_kept {x : State} {a0} : KeptR [.regs, .arr, .mem, .serve, .vault, .fab, .rings, .handed, .out] x (execInstanceRelease a0 x) := by
  unfold execInstanceRelease
  refine KeptR.next ?_
  refine Kept.on (State.command_kept ?_) ?_
  · intro _ _
    refine Kept.andThen State.releaseInst_kept ?_
    exact Kept.refl _
  · exact Kept.refl _

theorem State.copyRow_kept {x : State} {a1} {a2} {a3} {a4} : Kept [.mem, .serve] x (State.copyRow x a1 a2 a3 a4) := by
  unfold State.copyRow
  refine Kept.foldl _ _ ?_ ?_
  · exact Kept.refl _
  · intro _ _
    dsimp only
    refine Kept.ite ?_ ?_
    · refine Kept.andThen State.placePage_kept ?_
      exact Kept.refl _
    · refine Kept.andThen State.setInst_kept ?_
      refine Kept.andThen State.placePage_kept ?_
      exact Kept.refl _

theorem State.enterSlot_kept {x : State} {a1} : Kept [.regs, .arr, .mem, .serve, .vault, .fab, .rings, .faults, .handed, .out] x (State.enterSlot x a1) := by
  unfold State.enterSlot
  dsimp only
  refine Kept.ite ?_ ?_
  · exact Kept.refl _
  · refine Kept.ite ?_ ?_
    · refine Kept.andThen State.setSlotTab_kept ?_
      exact Kept.refl _
    · refine Kept.andThen State.load__kept ?_
      exact Kept.refl _

theorem State.enterTables_kept {x : State} {a1} {a2} {a3} {a4} : Kept [.regs, .arr, .mem, .serve, .vault, .fab, .rings, .faults, .handed, .out] x (State.enterTables x a1 a2 a3 a4) := by
  unfold State.enterTables
  dsimp only
  refine Kept.foldl _ _ ?_ ?_
  · refine Kept.andThen State.setInst_kept ?_
    refine Kept.upd ?_
    exact Kept.refl _
  · intro _ _
    refine Kept.andThen State.enterSlot_kept ?_
    exact Kept.refl _

theorem State.enterRows_kept {x : State} {a1} {a2} {a3} {a4} {a5} : Kept [.regs, .arr, .mem, .serve, .vault, .fab, .rings, .faults, .handed, .out] x (State.enterRows x a1 a2 a3 a4 a5).2 := by
  unfold State.enterRows
  dsimp only
  split
  · dsimp only
    refine Kept.foldl _ _ ?_ ?_
    · exact Kept.refl _
    · intro _ _
      split
      · refine Kept.andThen State.copyRow_kept ?_
        exact Kept.refl _
      · exact Kept.refl _
  · split
    · split
      · split
        · dsimp only
          refine Kept.foldl _ _ ?_ ?_
          · exact Kept.refl _
          · intro _ _
            split
            · refine Kept.andThen State.copyRow_kept ?_
              exact Kept.refl _
            · exact Kept.refl _
        · dsimp only
          refine Kept.andThen State.enterTables_kept ?_
          refine Kept.foldl _ _ ?_ ?_
          · exact Kept.refl _
          · intro _ _
            split
            · refine Kept.andThen State.copyRow_kept ?_
              exact Kept.refl _
            · exact Kept.refl _
      · split
        · dsimp only
          refine Kept.foldl _ _ ?_ ?_
          · exact Kept.refl _
          · intro _ _
            split
            · refine Kept.andThen State.copyRow_kept ?_
              exact Kept.refl _
            · exact Kept.refl _
        · dsimp only
          refine Kept.andThen State.enterTables_kept ?_
          refine Kept.foldl _ _ ?_ ?_
          · exact Kept.refl _
          · intro _ _
            split
            · refine Kept.andThen State.copyRow_kept ?_
              exact Kept.refl _
            · exact Kept.refl _
    · split
      · dsimp only
        refine Kept.foldl _ _ ?_ ?_
        · exact Kept.refl _
        · intro _ _
          split
          · refine Kept.andThen State.copyRow_kept ?_
            exact Kept.refl _
          · exact Kept.refl _
      · dsimp only
        refine Kept.andThen State.enterTables_kept ?_
        refine Kept.foldl _ _ ?_ ?_
        · exact Kept.refl _
        · intro _ _
          split
          · refine Kept.andThen State.copyRow_kept ?_
            exact Kept.refl _
          · exact Kept.refl _

theorem State.takeRows_kept {x : State} {a1} {a2} {a3} {a4} {a5} : Kept [.regs, .arr, .mem, .serve, .vault, .fab, .rings, .faults, .handed, .out] x (State.takeRows x a1 a2 a3 a4 a5).2 := by
  unfold State.takeRows
  dsimp only
  split
  · exact Kept.refl _
  · split
    · split
      · exact Kept.refl _
      · split
        · dsimp only
          refine Kept.of_snd (by assumption) ?_
          refine Kept.andThen State.allocateAll_kept ?_
          exact Kept.refl _
        · split
          · dsimp only
            refine Kept.of_snd (by assumption) ?_
            refine Kept.andThen State.allocateAll_kept ?_
            exact Kept.refl _
          · split
            · dsimp only
              refine Kept.of_snd2 (by assumption) ?_
              refine Kept.andThen State.readVault_kept ?_
              refine Kept.andThen State.zeroAt_kept ?_
              refine Kept.andThen State.setInst_kept ?_
              refine Kept.of_snd (by assumption) ?_
              refine Kept.andThen State.allocateAll_kept ?_
              exact Kept.refl _
            · refine Kept.andThen State.enterRows_kept ?_
              refine Kept.of_snd2 (by assumption) ?_
              refine Kept.andThen State.readVault_kept ?_
              refine Kept.andThen State.zeroAt_kept ?_
              refine Kept.andThen State.setInst_kept ?_
              refine Kept.of_snd (by assumption) ?_
              refine Kept.andThen State.allocateAll_kept ?_
              exact Kept.refl _
    · split
      · exact Kept.refl _
      · split
        · dsimp only
          refine Kept.of_snd (by assumption) ?_
          refine Kept.andThen State.allocateAll_kept ?_
          exact Kept.refl _
        · split
          · dsimp only
            refine Kept.of_snd (by assumption) ?_
            refine Kept.andThen State.allocateAll_kept ?_
            exact Kept.refl _
          · split
            · dsimp only
              refine Kept.of_snd2 (by assumption) ?_
              refine Kept.andThen State.readVault_kept ?_
              refine Kept.andThen State.zeroAt_kept ?_
              refine Kept.andThen State.setInst_kept ?_
              refine Kept.of_snd (by assumption) ?_
              refine Kept.andThen State.allocateAll_kept ?_
              exact Kept.refl _
            · refine Kept.andThen State.enterRows_kept ?_
              refine Kept.of_snd2 (by assumption) ?_
              refine Kept.andThen State.readVault_kept ?_
              refine Kept.andThen State.zeroAt_kept ?_
              refine Kept.andThen State.setInst_kept ?_
              refine Kept.of_snd (by assumption) ?_
              refine Kept.andThen State.allocateAll_kept ?_
              exact Kept.refl _

theorem State.activate_kept {x : State} {a1} {a2} {a3} : Kept [.regs, .arr, .mem, .serve, .vault, .fab, .rings, .faults, .handed, .out] x (State.activate x a1 a2 a3).2 := by
  unfold State.activate
  split
  · exact Kept.refl _
  · split
    · dsimp only
      refine Kept.of_snd2 (by assumption) ?_
      refine Kept.andThen State.readVault_kept ?_
      exact Kept.refl _
    · split
      · dsimp only
        refine Kept.of_snd2 (by assumption) ?_
        refine Kept.andThen State.readVault_kept ?_
        exact Kept.refl _
      · split
        · dsimp only
          refine Kept.of_snd2 (by assumption) ?_
          refine Kept.andThen State.readVault_kept ?_
          exact Kept.refl _
        · split
          · dsimp only
            refine Kept.of_snd2 (by assumption) ?_
            refine Kept.andThen State.readVault_kept ?_
            exact Kept.refl _
          · split
            · dsimp only
              refine Kept.of_snd2 (by assumption) ?_
              refine Kept.andThen State.readVault_kept ?_
              refine Kept.of_snd2 (by assumption) ?_
              refine Kept.andThen State.readVault_kept ?_
              exact Kept.refl _
            · split
              · dsimp only
                refine Kept.of_snd2 (by assumption) ?_
                refine Kept.andThen State.readVault_kept ?_
                refine Kept.of_snd2 (by assumption) ?_
                refine Kept.andThen State.readVault_kept ?_
                exact Kept.refl _
              · refine Kept.andThen State.takeRows_kept ?_
                refine Kept.of_snd2 (by assumption) ?_
                refine Kept.andThen State.readVault_kept ?_
                refine Kept.of_snd2 (by assumption) ?_
                refine Kept.andThen State.readVault_kept ?_
                exact Kept.refl _

theorem State.undoActivation_kept {x : State} {a1} {a2} : Kept [.mem, .serve] x (State.undoActivation x a1 a2) := by
  unfold State.undoActivation
  dsimp only
  refine Kept.andThen State.setInst_kept ?_
  refine Kept.andThen State.freePoolPages_kept ?_
  exact Kept.refl _

theorem State.refillInst_kept {x : State} {a1} {a2} : Kept [.regs, .mem, .serve, .vault, .fab, .rings, .faults, .handed, .out] x (State.refillInst x a1 a2).2 := by
  unfold State.refillInst
  dsimp only
  split
  · dsimp only
    refine Kept.andThen State.setInst_kept ?_
    refine Kept.of_snd2 (by assumption) ?_
    refine Kept.andThen State.readVault_kept ?_
    refine Kept.andThen State.setInst_kept ?_
    exact Kept.refl _
  · split
    · dsimp only
      refine Kept.andThen State.setInst_kept ?_
      refine Kept.of_snd (by assumption) ?_
      refine Kept.andThen State.allocateAll_kept ?_
      refine Kept.of_snd2 (by assumption) ?_
      refine Kept.andThen State.readVault_kept ?_
      refine Kept.andThen State.setInst_kept ?_
      exact Kept.refl _
    · dsimp only
      refine Kept.andThen State.setInst_kept ?_
      refine Kept.foldl _ _ ?_ ?_
      · refine Kept.of_snd (by assumption) ?_
        refine Kept.andThen State.allocateAll_kept ?_
        refine Kept.of_snd2 (by assumption) ?_
        refine Kept.andThen State.readVault_kept ?_
        refine Kept.andThen State.setInst_kept ?_
        exact Kept.refl _
      · intro _ _
        split
        · exact Kept.refl _
        · split
          · refine Kept.andThen State.storeAt_kept ?_
            refine Kept.andThen State.setInst_kept ?_
            exact Kept.refl _
          · refine Kept.andThen State.setInst_kept ?_
            exact Kept.refl _

theorem State.activateCmd_kept {x : State} {a1} {a2} : Kept [.regs, .arr, .mem, .serve, .vault, .fab, .rings, .faults, .handed, .out] x (State.activateCmd x a1 a2) := by
  unfold State.activateCmd
  dsimp only
  refine Kept.ite ?_ ?_
  · refine Kept.andThen State.fail_kept ?_
    exact Kept.refl _
  · refine Kept.ite ?_ ?_
    · refine Kept.andThen State.fail_kept ?_
      exact Kept.refl _
    · refine Kept.ite ?_ ?_
      · refine Kept.andThen State.fail_kept ?_
        exact Kept.refl _
      · refine Kept.ite ?_ ?_
        · split
          · refine Kept.andThen State.instDone_kept ?_
            refine Kept.of_snd (by assumption) ?_
            refine Kept.andThen State.refillInst_kept ?_
            exact Kept.refl _
          · refine Kept.andThen State.instDone_kept ?_
            refine Kept.of_snd (by assumption) ?_
            refine Kept.andThen State.refillInst_kept ?_
            exact Kept.refl _
        · split
          · refine Kept.ite ?_ ?_
            · refine Kept.andThen State.fail_kept ?_
              exact Kept.refl _
            · split
              · refine Kept.andThen State.instDone_kept ?_
                refine Kept.of_snd (by assumption) ?_
                refine Kept.andThen State.activate_kept ?_
                refine Kept.andThen State.setInst_kept ?_
                exact Kept.refl _
              · refine Kept.ite ?_ ?_
                · refine Kept.andThen State.fail_kept ?_
                  refine Kept.andThen State.undoActivation_kept ?_
                  refine Kept.of_snd (by assumption) ?_
                  refine Kept.andThen State.activate_kept ?_
                  refine Kept.andThen State.setInst_kept ?_
                  exact Kept.refl _
                · refine Kept.andThen State.instDone_kept ?_
                  refine Kept.andThen State.undoActivation_kept ?_
                  refine Kept.of_snd (by assumption) ?_
                  refine Kept.andThen State.activate_kept ?_
                  refine Kept.andThen State.setInst_kept ?_
                  exact Kept.refl _
          · refine Kept.andThen State.fail_kept ?_
            exact Kept.refl _

theorem execActivate_kept {x : State} {a0} {a1} : KeptR [.regs, .arr, .mem, .serve, .vault, .fab, .rings, .faults, .handed, .out] x (execActivate a0 a1 x) := by
  unfold execActivate
  refine KeptR.next ?_
  refine Kept.on (State.command_kept ?_) ?_
  · intro _ _
    refine Kept.andThen State.activateCmd_kept ?_
    exact Kept.refl _
  · exact Kept.refl _

theorem State.startLoad_kept {x : State} {a1} {a2} {a3} {a4} : Kept [.regs, .arr, .mem, .serve, .vault, .fab, .rings, .faults, .handed, .out] x (State.startLoad x a1 a2 a3 a4) := by
  unfold State.startLoad
  refine Kept.andThen State.load__kept ?_
  exact Kept.refl _

theorem State.configLoad_kept {x : State} {a1} : Kept [.regs, .arr, .mem, .serve, .vault, .fab, .rings, .faults, .handed, .out] x (State.configLoad x a1) := by
  unfold State.configLoad
  dsimp only
  split
  · refine Kept.andThen State.fail_kept ?_
    exact Kept.refl _
  · split
    · refine Kept.andThen State.fail_kept ?_
      exact Kept.refl _
    · refine Kept.ite ?_ ?_
      · refine Kept.andThen State.fail_kept ?_
        exact Kept.refl _
      · split
        · refine Kept.andThen State.fail_kept ?_
          refine Kept.of_snd (by assumption) ?_
          refine Kept.andThen State.allocateAll_kept ?_
          exact Kept.refl _
        · refine Kept.andThen State.startLoad_kept ?_
          refine Kept.of_snd (by assumption) ?_
          refine Kept.andThen State.allocateAll_kept ?_
          exact Kept.refl _

theorem execConfigLoad_kept {x : State} {a0} : KeptR [.regs, .arr, .mem, .serve, .vault, .fab, .rings, .faults, .handed, .out] x (execConfigLoad a0 x) := by
  unfold execConfigLoad
  refine KeptR.next ?_
  refine Kept.on (State.command_kept ?_) ?_
  · intro _ _
    refine Kept.andThen State.configLoad_kept ?_
    exact Kept.refl _
  · exact Kept.refl _

theorem State.tableLoad_kept {x : State} {a1} : Kept [.regs, .arr, .mem, .serve, .vault, .fab, .rings, .faults, .handed, .out] x (State.tableLoad x a1) := by
  unfold State.tableLoad
  dsimp only
  split
  · refine Kept.andThen State.fail_kept ?_
    exact Kept.refl _
  · refine Kept.ite ?_ ?_
    · refine Kept.andThen State.fail_kept ?_
      exact Kept.refl _
    · refine Kept.andThen State.startLoad_kept ?_
      exact Kept.refl _

theorem execTableLoad_kept {x : State} {a0} : KeptR [.regs, .arr, .mem, .serve, .vault, .fab, .rings, .faults, .handed, .out] x (execTableLoad a0 x) := by
  unfold execTableLoad
  refine KeptR.next ?_
  refine Kept.on (State.command_kept ?_) ?_
  · intro _ _
    refine Kept.andThen State.tableLoad_kept ?_
    exact Kept.refl _
  · exact Kept.refl _

theorem State.routeLoad_kept {x : State} {a1} : Kept [.regs, .arr, .mem, .serve, .vault, .fab, .rings, .faults, .handed, .out] x (State.routeLoad x a1) := by
  unfold State.routeLoad
  dsimp only
  split
  · refine Kept.andThen State.fail_kept ?_
    exact Kept.refl _
  · refine Kept.ite ?_ ?_
    · refine Kept.andThen State.fail_kept ?_
      exact Kept.refl _
    · refine Kept.andThen State.startLoad_kept ?_
      exact Kept.refl _

theorem execRouteTableLoad_kept {x : State} {a0} : KeptR [.regs, .arr, .mem, .serve, .vault, .fab, .rings, .faults, .handed, .out] x (execRouteTableLoad a0 x) := by
  unfold execRouteTableLoad
  refine KeptR.next ?_
  refine Kept.on (State.command_kept ?_) ?_
  · intro _ _
    refine Kept.andThen State.routeLoad_kept ?_
    exact Kept.refl _
  · exact Kept.refl _

theorem State.automatonLoad_kept {x : State} {a1} : Kept [.regs, .arr, .mem, .serve, .vault, .fab, .rings, .faults, .handed, .out] x (State.automatonLoad x a1) := by
  unfold State.automatonLoad
  dsimp only
  split
  · refine Kept.andThen State.fail_kept ?_
    exact Kept.refl _
  · refine Kept.ite ?_ ?_
    · refine Kept.andThen State.fail_kept ?_
      exact Kept.refl _
    · refine Kept.andThen State.startLoad_kept ?_
      exact Kept.refl _

theorem execAutomatonLoad_kept {x : State} {a0} : KeptR [.regs, .arr, .mem, .serve, .vault, .fab, .rings, .faults, .handed, .out] x (execAutomatonLoad a0 x) := by
  unfold execAutomatonLoad
  refine KeptR.next ?_
  refine Kept.on (State.command_kept ?_) ?_
  · intro _ _
    refine Kept.andThen State.automatonLoad_kept ?_
    exact Kept.refl _
  · exact Kept.refl _

theorem State.adapterBind_kept {x : State} {a1} {a2} : Kept [.regs, .arr, .mem, .serve, .vault, .fab, .rings, .faults, .handed, .out] x (State.adapterBind x a1 a2) := by
  unfold State.adapterBind
  dsimp only
  split
  · refine Kept.ite ?_ ?_
    · refine Kept.andThen State.fail_kept ?_
      exact Kept.refl _
    · refine Kept.andThen State.startLoad_kept ?_
      exact Kept.refl _
  · refine Kept.andThen State.fail_kept ?_
    exact Kept.refl _

theorem execAdapterBind_kept {x : State} {a0} {a1} : KeptR [.regs, .arr, .mem, .serve, .vault, .fab, .rings, .faults, .handed, .out] x (execAdapterBind a0 x a1) := by
  unfold execAdapterBind
  refine KeptR.next ?_
  refine Kept.on (State.command_kept ?_) ?_
  · intro _ _
    refine Kept.andThen State.adapterBind_kept ?_
    exact Kept.refl _
  · exact Kept.refl _

theorem State.adapterUnbind_kept {x : State} {a1} : Kept [.mem, .serve, .vault, .rings, .handed, .out] x (State.adapterUnbind x a1) := by
  unfold State.adapterUnbind
  dsimp only
  refine Kept.ite ?_ ?_
  · refine Kept.andThen State.fail_kept ?_
    exact Kept.refl _
  · refine Kept.andThen State.genRecord_kept ?_
    refine Kept.andThen State.accept_kept ?_
    refine Kept.andThen State.setAdapter_kept ?_
    exact Kept.refl _

theorem execAdapterUnbind_kept {x : State} {a0} : KeptR [.regs, .mem, .serve, .vault, .rings, .handed, .out] x (execAdapterUnbind a0 x) := by
  unfold execAdapterUnbind
  refine KeptR.next ?_
  refine Kept.on (State.command_kept ?_) ?_
  · intro _ _
    refine Kept.andThen State.adapterUnbind_kept ?_
    exact Kept.refl _
  · exact Kept.refl _

theorem State.poolSet_kept {x : State} {a1} : Kept [.serve, .rings, .handed, .out] x (State.poolSet x a1) := by
  unfold State.poolSet
  dsimp only
  refine Kept.ite ?_ ?_
  · refine Kept.andThen State.fail_kept ?_
    exact Kept.refl _
  · refine Kept.andThen State.accept_kept ?_
    refine Kept.andThen State.setInst_kept ?_
    exact Kept.refl _

theorem execPoolSet_kept {x : State} {a0} : KeptR [.regs, .serve, .rings, .handed, .out] x (execPoolSet a0 x) := by
  unfold execPoolSet
  refine KeptR.next ?_
  refine Kept.on (State.command_kept ?_) ?_
  · intro _ _
    refine Kept.andThen State.poolSet_kept ?_
    exact Kept.refl _
  · exact Kept.refl _

theorem State.setOwn_kept {x : State} {a1} {a2} {a3} {a4} {a5} : Kept [.mem, .handed] x (State.setOwn x a1 a2 a3 a4 a5) := by
  unfold State.setOwn
  dsimp only
  refine Kept.andThen State.handCq_kept ?_
  refine Kept.andThen State.setMem_kept ?_
  exact Kept.refl _

theorem State.applyOwn_kept {x : State} {a1} {a2} {a3} {a4} : Kept [.mem, .handed] x (State.applyOwn x a1 a2 a3 a4) := by
  unfold State.applyOwn
  dsimp only
  split
  · refine Kept.andThen State.setOwn_kept ?_
    exact Kept.refl _
  · refine Kept.andThen State.setOwn_kept ?_
    exact Kept.refl _
  · refine Kept.andThen State.handCq_kept ?_
    refine Kept.andThen State.setMem_kept ?_
    exact Kept.refl _

theorem State.changeOwn_kept {x : State} {a1} {a2} {a3} {a4} : Kept [.mem, .fab, .handed] x (State.changeOwn x a1 a2 a3 a4) := by
  unfold State.changeOwn
  refine Kept.ite ?_ ?_
  · refine Kept.andThen State.holdReq_kept ?_
    exact Kept.refl _
  · refine Kept.andThen State.applyOwn_kept ?_
    exact Kept.refl _

theorem State.ownSetCmd_kept {x : State} {a1} : Kept [.regs, .mem, .fab, .rings, .handed, .out] x (State.ownSetCmd x a1) := by
  unfold State.ownSetCmd
  dsimp only
  refine Kept.ite ?_ ?_
  · refine Kept.andThen State.fail_kept ?_
    exact Kept.refl _
  · split
    · refine Kept.ite ?_ ?_
      · refine Kept.andThen State.fail_kept ?_
        refine Kept.andThen State.notOwner_kept ?_
        exact Kept.refl _
      · refine Kept.ite ?_ ?_
        · refine Kept.ite ?_ ?_
          · refine Kept.andThen State.fail_kept ?_
            exact Kept.refl _
          · refine Kept.andThen State.changeOwn_kept ?_
            exact Kept.refl _
        · refine Kept.andThen State.changeOwn_kept ?_
          exact Kept.refl _
    · refine Kept.ite ?_ ?_
      · refine Kept.andThen State.fail_kept ?_
        exact Kept.refl _
      · refine Kept.ite ?_ ?_
        · refine Kept.andThen State.fail_kept ?_
          exact Kept.refl _
        · refine Kept.andThen State.changeOwn_kept ?_
          exact Kept.refl _

theorem execOwnSet_kept {x : State} {a0} : KeptR [.regs, .mem, .fab, .rings, .handed, .out] x (execOwnSet a0 x) := by
  unfold execOwnSet
  refine KeptR.next ?_
  refine Kept.on (State.command_kept ?_) ?_
  · intro _ _
    refine Kept.andThen State.ownSetCmd_kept ?_
    exact Kept.refl _
  · exact Kept.refl _

theorem State.setTenant_kept {x : State} {a1} : Kept [.serve] x (State.setTenant x a1) := by
  unfold State.setTenant
  refine Kept.upd ?_
  exact Kept.refl _

theorem State.tenantSet_kept {x : State} {a1} : Kept [.serve, .rings, .handed, .out] x (State.tenantSet x a1) := by
  unfold State.tenantSet
  dsimp only
  refine Kept.ite ?_ ?_
  · refine Kept.andThen State.fail_kept ?_
    exact Kept.refl _
  · refine Kept.andThen State.accept_kept ?_
    split
    · refine Kept.andThen State.setTenant_kept ?_
      split
      · exact Kept.refl _
      · refine Kept.upd ?_
        exact Kept.refl _
    · split
      · exact Kept.refl _
      · refine Kept.upd ?_
        exact Kept.refl _

theorem execTenantSet_kept {x : State} {a0} : KeptR [.regs, .serve, .rings, .handed, .out] x (execTenantSet a0 x) := by
  unfold execTenantSet
  refine KeptR.next ?_
  refine Kept.on (State.command_kept ?_) ?_
  · intro _ _
    refine Kept.andThen State.tenantSet_kept ?_
    exact Kept.refl _
  · exact Kept.refl _

end Sys2Proof.Machine
end

