-- ==== Sys2Proof/Laws/Kept7.lean ====
section
/-! SUPPORT. What the operations and the commands of Machine/Serve.lean, Machine/Sampler.lean, Machine/Dma.lean, Machine/Fabric.lean keep (Laws/Kept.lean). -/
set_option Elab.async false

namespace Sys2Proof.Machine

/-! ### Serve -/

theorem State.submit_kept {x : State} {a1} {a2} : Kept [.regs, .mem, .serve, .vault, .fab, .rings, .faults, .handed, .out] x (State.submit x a1 a2) := by
  unfold State.submit
  dsimp only
  refine Kept.ite ?_ ?_
  · refine Kept.andThen State.fail_kept ?_
    exact Kept.refl _
  · refine Kept.ite ?_ ?_
    · refine Kept.andThen State.fail_kept ?_
      exact Kept.refl _
    · split
      · split
        · refine Kept.andThen State.fail_kept ?_
          exact Kept.refl _
        · refine Kept.ite ?_ ?_
          · refine Kept.andThen State.fail_kept ?_
            exact Kept.refl _
          · refine Kept.ite ?_ ?_
            · refine Kept.andThen State.fail_kept ?_
              exact Kept.refl _
            · refine Kept.ite ?_ ?_
              · refine Kept.andThen State.fail_kept ?_
                exact Kept.refl _
              · refine Kept.andThen State.complete_kept ?_
                refine Kept.ite ?_ ?_
                · refine Kept.andThen State.refillInst_kept ?_
                  refine Kept.andThen State.setInst_kept ?_
                  exact Kept.refl _
                · refine Kept.andThen State.setInst_kept ?_
                  exact Kept.refl _
      · split
        · refine Kept.andThen State.fail_kept ?_
          exact Kept.refl _
        · refine Kept.ite ?_ ?_
          · refine Kept.andThen State.fail_kept ?_
            exact Kept.refl _
          · refine Kept.ite ?_ ?_
            · refine Kept.andThen State.fail_kept ?_
              exact Kept.refl _
            · refine Kept.ite ?_ ?_
              · refine Kept.andThen State.fail_kept ?_
                exact Kept.refl _
              · refine Kept.andThen State.complete_kept ?_
                refine Kept.ite ?_ ?_
                · refine Kept.andThen State.refillInst_kept ?_
                  refine Kept.andThen State.setInst_kept ?_
                  exact Kept.refl _
                · refine Kept.andThen State.setInst_kept ?_
                  exact Kept.refl _
      · split
        · refine Kept.andThen State.fail_kept ?_
          exact Kept.refl _
        · refine Kept.ite ?_ ?_
          · refine Kept.andThen State.fail_kept ?_
            exact Kept.refl _
          · refine Kept.ite ?_ ?_
            · refine Kept.andThen State.fail_kept ?_
              exact Kept.refl _
            · refine Kept.ite ?_ ?_
              · refine Kept.andThen State.fail_kept ?_
                exact Kept.refl _
              · refine Kept.andThen State.complete_kept ?_
                refine Kept.ite ?_ ?_
                · refine Kept.andThen State.refillInst_kept ?_
                  refine Kept.andThen State.setInst_kept ?_
                  exact Kept.refl _
                · refine Kept.andThen State.setInst_kept ?_
                  exact Kept.refl _
      · refine Kept.andThen State.fail_kept ?_
        exact Kept.refl _

theorem execSeqSubmit_kept {x : State} {a0} {a1} : KeptR [.regs, .mem, .serve, .vault, .fab, .rings, .faults, .handed, .out] x (execSeqSubmit a0 x a1) := by
  unfold execSeqSubmit
  refine KeptR.next ?_
  refine Kept.on (State.command_kept ?_) ?_
  · intro _ _
    refine Kept.andThen State.submit_kept ?_
    exact Kept.refl _
  · exact Kept.refl _

theorem State.dropSeq_kept {x : State} {a1} {a2} : Kept [.mem, .serve, .vault] x (State.dropSeq x a1 a2) := by
  unfold State.dropSeq
  dsimp only
  split
  · refine Kept.andThen State.setAdapter_kept ?_
    refine Kept.andThen State.freePoolPages_kept ?_
    refine Kept.andThen State.setInst_kept ?_
    exact Kept.refl _
  · refine Kept.andThen State.freePoolPages_kept ?_
    refine Kept.andThen State.setInst_kept ?_
    exact Kept.refl _

theorem State.endSeq_kept {x : State} {a1} {a2} {a3} : Kept [.regs, .arr, .mem, .serve, .vault, .fab, .rings, .faults, .handed, .out] x (State.endSeq x a1 a2 a3) := by
  unfold State.endSeq
  refine Kept.andThen State.retryLoads_kept ?_
  refine Kept.andThen State.endRecord_kept ?_
  refine Kept.andThen State.dropSeq_kept ?_
  exact Kept.refl _

theorem State.timeoutSeq_kept {x : State} {a1} {a2} : Kept [.regs, .arr, .mem, .serve, .vault, .fab, .rings, .faults, .handed, .out] x (State.timeoutSeq x a1 a2) := by
  unfold State.timeoutSeq
  refine Kept.andThen State.bump_kept ?_
  refine Kept.andThen State.endSeq_kept ?_
  exact Kept.refl _

theorem State.admitTimeout_kept {x : State} {a1} {a2} : Kept [.time, .regs, .arr, .mem, .serve, .vault, .fab, .rings, .faults, .handed, .out] x (State.admitTimeout x a1 a2) := by
  unfold State.admitTimeout
  split
  · exact Kept.refl _
  · split
    · refine Kept.on (State.atTimer_kept ?_) ?_
      · intro _
        refine Kept.andThen State.timeoutSeq_kept ?_
        exact Kept.refl _
      · exact Kept.refl _
    · exact Kept.refl _

theorem execAdmitTimeout_kept {x : State} {a0} {a1} : KeptR [.time, .regs, .arr, .mem, .serve, .vault, .fab, .rings, .faults, .handed, .out] x (execAdmitTimeout a0 a1 x) := by
  unfold execAdmitTimeout
  refine KeptR.next ?_
  refine Kept.andThen State.admitTimeout_kept ?_
  exact Kept.refl _

theorem State.cancel_kept {x : State} {a1} : Kept [.regs, .arr, .mem, .serve, .vault, .fab, .rings, .faults, .handed, .out] x (State.cancel x a1) := by
  unfold State.cancel
  dsimp only
  refine Kept.ite ?_ ?_
  · refine Kept.andThen State.fail_kept ?_
    exact Kept.refl _
  · split
    · refine Kept.andThen State.fail_kept ?_
      exact Kept.refl _
    · refine Kept.ite ?_ ?_
      · refine Kept.andThen State.fail_kept ?_
        exact Kept.refl _
      · refine Kept.ite ?_ ?_
        · refine Kept.andThen State.complete_kept ?_
          refine Kept.andThen State.setInst_kept ?_
          exact Kept.refl _
        · refine Kept.andThen State.complete_kept ?_
          refine Kept.andThen State.endSeq_kept ?_
          exact Kept.refl _

theorem execSeqCancel_kept {x : State} {a0} : KeptR [.regs, .arr, .mem, .serve, .vault, .fab, .rings, .faults, .handed, .out] x (execSeqCancel a0 x) := by
  unfold execSeqCancel
  refine KeptR.next ?_
  refine Kept.on (State.command_kept ?_) ?_
  · intro _ _
    refine Kept.andThen State.cancel_kept ?_
    exact Kept.refl _
  · exact Kept.refl _

theorem State.onTenant_kept {x : State} {a1} {a2} : Kept [.serve] x (State.onTenant x a1 a2) := by
  unfold State.onTenant
  split
  · refine Kept.andThen State.setTenant_kept ?_
    exact Kept.refl _
  · exact Kept.refl _

theorem State.charge_kept {x : State} {a1} {a2} : Kept [.serve] x (State.charge x a1 a2) := by
  unfold State.charge
  dsimp only
  refine Kept.andThen State.onTenant_kept ?_
  exact Kept.refl _

theorem State.rollTenants_kept {x : State} : Kept [.serve] x (State.rollTenants x) := by
  unfold State.rollTenants
  dsimp only
  refine Kept.upd ?_
  exact Kept.refl _

theorem State.admitSeq_kept {x : State} {a1} {a2} {a3} {a4} {a5} {a6} : Kept [.serve] x (State.admitSeq x a1 a2 a3 a4 a5 a6) := by
  unfold State.admitSeq
  dsimp only
  refine Kept.andThen State.setInst_kept ?_
  exact Kept.refl _

theorem State.admitOne_kept {x : State} {a1} {a2} : Kept [.regs, .arr, .mem, .serve, .vault, .fab, .rings, .faults, .handed, .out] x (State.admitOne x a1 a2).1 := by
  unfold State.admitOne
  dsimp only
  split
  · split
    · dsimp only
      refine Kept.andThen State.timeoutSeq_kept ?_
      exact Kept.refl _
    · split
      · exact Kept.refl _
      · split
        · split
          · exact Kept.refl _
          · split
            · split
              · dsimp only
                refine Kept.andThen State.endSeq_kept ?_
                exact Kept.refl _
              · split
                · dsimp only
                  refine Kept.of_snd (by assumption) ?_
                  refine Kept.andThen State.allocateAll_kept ?_
                  exact Kept.refl _
                · split
                  · dsimp only
                    refine Kept.andThen State.freePoolPages_kept ?_
                    refine Kept.of_snd (by assumption) ?_
                    refine Kept.andThen State.allocateAll_kept ?_
                    exact Kept.refl _
                  · dsimp only
                    refine Kept.andThen State.admitSeq_kept ?_
                    refine Kept.of_snd (by assumption) ?_
                    refine Kept.andThen State.allocateAll_kept ?_
                    exact Kept.refl _
            · split
              · dsimp only
                refine Kept.andThen State.endSeq_kept ?_
                exact Kept.refl _
              · split
                · dsimp only
                  refine Kept.of_snd (by assumption) ?_
                  refine Kept.andThen State.allocateAll_kept ?_
                  exact Kept.refl _
                · split
                  · dsimp only
                    refine Kept.andThen State.freePoolPages_kept ?_
                    refine Kept.of_snd (by assumption) ?_
                    refine Kept.andThen State.allocateAll_kept ?_
                    exact Kept.refl _
                  · dsimp only
                    refine Kept.andThen State.admitSeq_kept ?_
                    refine Kept.of_snd (by assumption) ?_
                    refine Kept.andThen State.allocateAll_kept ?_
                    exact Kept.refl _
        · exact Kept.refl _
  · split
    · dsimp only
      refine Kept.andThen State.timeoutSeq_kept ?_
      exact Kept.refl _
    · split
      · exact Kept.refl _
      · split
        · split
          · exact Kept.refl _
          · split
            · split
              · dsimp only
                refine Kept.andThen State.endSeq_kept ?_
                exact Kept.refl _
              · split
                · dsimp only
                  refine Kept.of_snd (by assumption) ?_
                  refine Kept.andThen State.allocateAll_kept ?_
                  exact Kept.refl _
                · split
                  · dsimp only
                    refine Kept.andThen State.freePoolPages_kept ?_
                    refine Kept.of_snd (by assumption) ?_
                    refine Kept.andThen State.allocateAll_kept ?_
                    exact Kept.refl _
                  · dsimp only
                    refine Kept.andThen State.admitSeq_kept ?_
                    refine Kept.of_snd (by assumption) ?_
                    refine Kept.andThen State.allocateAll_kept ?_
                    exact Kept.refl _
            · split
              · dsimp only
                refine Kept.andThen State.endSeq_kept ?_
                exact Kept.refl _
              · split
                · dsimp only
                  refine Kept.of_snd (by assumption) ?_
                  refine Kept.andThen State.allocateAll_kept ?_
                  exact Kept.refl _
                · split
                  · dsimp only
                    refine Kept.andThen State.freePoolPages_kept ?_
                    refine Kept.of_snd (by assumption) ?_
                    refine Kept.andThen State.allocateAll_kept ?_
                    exact Kept.refl _
                  · dsimp only
                    refine Kept.andThen State.admitSeq_kept ?_
                    refine Kept.of_snd (by assumption) ?_
                    refine Kept.andThen State.allocateAll_kept ?_
                    exact Kept.refl _
        · exact Kept.refl _

theorem State.admitAll_kept {x : State} {i l} : Kept [.regs, .arr, .mem, .serve, .vault, .fab, .rings, .faults, .handed, .out] x (x.admitAll i l) := by
  induction l generalizing x with
  | nil => exact Kept.refl _
  | cons a l ih =>
    unfold State.admitAll
    split
    · exact Kept.on ih (Kept.of_fst (by assumption) State.admitOne_kept)
    · exact Kept.of_fst (by assumption) State.admitOne_kept

theorem State.admission_kept {x : State} : Kept [.regs, .arr, .mem, .serve, .vault, .fab, .rings, .faults, .handed, .out] x (State.admission x) := by
  unfold State.admission
  refine Kept.foldl _ _ ?_ ?_
  · exact Kept.refl _
  · intro _ _
    refine Kept.andThen State.admitAll_kept ?_
    exact Kept.refl _

theorem Comp.take__kept {k : Comp} {q n d p} : Kept [.serve] k.s (k.take_ q n d p).s := State.onTenant_kept

theorem Comp.holdOut_kept {k : Comp} {q} : Kept [.serve] k.s (k.holdOut q).s := State.onTenant_kept

theorem Comp.decode_kept {k : Comp} {b d q} : Kept [.serve] k.s (k.decode b d q).s := by
  unfold Comp.decode
  dsimp only
  split
  · exact Kept.refl _
  · split
    · exact Comp.holdOut_kept
    · exact Comp.take__kept

theorem Comp.prompt_kept {k : Comp} {b q} : Kept [.serve] k.s (k.prompt b q).s := by
  unfold Comp.prompt
  dsimp only
  split
  · exact Kept.refl _
  · split
    · exact Comp.holdOut_kept
    · exact Comp.take__kept

theorem Comp.foldl_kept {α : Type} {ps : List Part} (f : Comp → α → Comp) (l : List α) (k : Comp) (hf : ∀ j a, Kept ps j.s (f j a).s) :
    Kept ps k.s (l.foldl f k).s := by
  induction l generalizing k with
  | nil => exact Kept.refl _
  | cons a l ih => exact Kept.on (ih _) (hf _ _)

theorem State.compose_kept {x : State} {i} : Kept [.serve] x (x.compose i).s := by
  unfold State.compose
  dsimp only
  split
  · refine Kept.on (Comp.foldl_kept _ _ ⟨_, _, _, _, _, _⟩ fun j a => Comp.prompt_kept) ?_
    exact Comp.foldl_kept _ _ ⟨x, _, _, _, _, _⟩ fun j a => Comp.decode_kept
  · exact Kept.refl _

theorem State.startStep_kept {x : State} {i g p} : Kept [.regs, .arr, .mem, .serve, .fab] x (x.startStep i g p) := by
  have hc : Kept [.regs, .arr, .mem, .serve, .fab] x (x.compose (x.inst i)).s := State.compose_kept.mono (by decide)
  unfold State.startStep
  extract_lets y k s0 id beat routes cfgs slots off r reqs rows s1 s2 _ s3 s4 targets
  have h0 : Kept [.regs, .arr, .mem, .serve, .fab] x s0 := hc
  have h1 : Kept [.regs, .arr, .mem, .serve, .fab] x s1 := State.storeAt_kept.andThen h0
  have h2 : Kept [.regs, .arr, .mem, .serve, .fab] x s2 := State.bumpBy_kept.andThen (State.setInst_kept.andThen h1)
  clear_value s2
  have h3 : Kept [.regs, .arr, .mem, .serve, .fab] x s3 := Kept.on (Kept.upd (Kept.refl s2)) h2
  clear_value s3
  have h4 : Kept [.regs, .arr, .mem, .serve, .fab] x s4 := Kept.foldl _ _ h3 fun z a => State.setSlotTab_kept.mono (by decide)
  clear_value s4
  exact Kept.foldl _ _ h4 fun z a => State.placeOn_kept.mono (by decide)

theorem State.startSteps_kept {x : State} : Kept [.regs, .arr, .mem, .serve, .fab] x (State.startSteps x) := by
  unfold State.startSteps
  refine Kept.foldl _ _ ?_ ?_
  · exact Kept.refl _
  · intro _ _
    split
    · refine Kept.foldl _ _ ?_ ?_
      · exact Kept.refl _
      · intro _ _
        refine Kept.andThen State.startStep_kept ?_
        exact Kept.refl _
    · exact Kept.refl _

theorem State.putSeq_kept {x : State} {a1} {a2} : Kept [.serve] x (State.putSeq x a1 a2) := by
  unfold State.putSeq
  dsimp only
  refine Kept.andThen State.setInst_kept ?_
  exact Kept.refl _

theorem State.settleOk_kept {x : State} {a1} {a2} {a3} {a4} : Kept [.regs, .mem, .serve, .vault, .rings, .out] x (State.settleOk x a1 a2 a3 a4) := by
  unfold State.settleOk
  dsimp only
  split
  · refine Kept.andThen State.putSeq_kept ?_
    exact Kept.refl _
  · split
    · refine Kept.andThen State.tqWrite_kept ?_
      refine Kept.andThen State.dropSeq_kept ?_
      refine Kept.andThen State.bumpIf_kept ?_
      refine Kept.andThen State.bumpIf_kept ?_
      refine Kept.andThen State.putSeq_kept ?_
      refine Kept.andThen State.setInst_kept ?_
      refine Kept.andThen State.bumpBy_kept ?_
      refine Kept.andThen State.bumpBy_kept ?_
      refine Kept.andThen State.bumpBy_kept ?_
      refine Kept.andThen State.charge_kept ?_
      exact Kept.refl _
    · refine Kept.ite ?_ ?_
      · refine Kept.andThen State.putSeq_kept ?_
        refine Kept.andThen State.setInst_kept ?_
        refine Kept.andThen State.bumpBy_kept ?_
        refine Kept.andThen State.bumpBy_kept ?_
        refine Kept.andThen State.bumpBy_kept ?_
        refine Kept.andThen State.charge_kept ?_
        exact Kept.refl _
      · refine Kept.ite ?_ ?_
        · refine Kept.andThen State.tqWrite_kept ?_
          refine Kept.andThen State.putSeq_kept ?_
          refine Kept.andThen State.setInst_kept ?_
          refine Kept.andThen State.bumpBy_kept ?_
          refine Kept.andThen State.bumpBy_kept ?_
          refine Kept.andThen State.bumpBy_kept ?_
          refine Kept.andThen State.charge_kept ?_
          exact Kept.refl _
        · refine Kept.andThen State.dropSeq_kept ?_
          refine Kept.andThen State.bumpIf_kept ?_
          refine Kept.andThen State.tqWrite_kept ?_
          refine Kept.andThen State.putSeq_kept ?_
          refine Kept.andThen State.setInst_kept ?_
          refine Kept.andThen State.bumpBy_kept ?_
          refine Kept.andThen State.bumpBy_kept ?_
          refine Kept.andThen State.bumpBy_kept ?_
          refine Kept.andThen State.charge_kept ?_
          exact Kept.refl _

theorem State.settleSeq_kept {x : State} {a1} {a2} : Kept [.regs, .mem, .serve, .vault, .rings, .out] x (State.settleSeq x a1 a2) := by
  unfold State.settleSeq
  dsimp only
  split
  · refine Kept.andThen State.charge_kept ?_
    exact Kept.refl _
  · split
    · refine Kept.ite ?_ ?_
      · refine Kept.andThen State.tqWrite_kept ?_
        refine Kept.andThen State.dropSeq_kept ?_
        refine Kept.andThen State.charge_kept ?_
        exact Kept.refl _
      · refine Kept.andThen State.settleOk_kept ?_
        exact Kept.refl _
    · refine Kept.ite ?_ ?_
      · refine Kept.andThen State.charge_kept ?_
        exact Kept.refl _
      · refine Kept.ite ?_ ?_
        · refine Kept.andThen State.tqWrite_kept ?_
          refine Kept.andThen State.dropSeq_kept ?_
          refine Kept.andThen State.charge_kept ?_
          exact Kept.refl _
        · refine Kept.ite ?_ ?_
          · refine Kept.andThen State.tqWrite_kept ?_
            refine Kept.andThen State.dropSeq_kept ?_
            refine Kept.andThen State.charge_kept ?_
            exact Kept.refl _
          · refine Kept.ite ?_ ?_
            · refine Kept.andThen State.tqWrite_kept ?_
              refine Kept.andThen State.dropSeq_kept ?_
              refine Kept.andThen State.charge_kept ?_
              exact Kept.refl _
            · refine Kept.ite ?_ ?_
              · refine Kept.andThen State.tqWrite_kept ?_
                refine Kept.andThen State.dropSeq_kept ?_
                refine Kept.andThen State.charge_kept ?_
                refine Kept.andThen State.bump_kept ?_
                exact Kept.refl _
              · refine Kept.ite ?_ ?_
                · refine Kept.andThen State.tqWrite_kept ?_
                  refine Kept.andThen State.dropSeq_kept ?_
                  refine Kept.andThen State.charge_kept ?_
                  refine Kept.andThen State.bump_kept ?_
                  exact Kept.refl _
                · refine Kept.andThen State.putSeq_kept ?_
                  refine Kept.andThen State.charge_kept ?_
                  refine Kept.andThen State.bump_kept ?_
                  exact Kept.refl _

theorem State.dropStep_kept {x : State} {a1} : Kept [.regs, .arr, .mem, .serve, .vault, .fab, .rings, .faults, .handed, .out] x (State.dropStep x a1) := by
  unfold State.dropStep
  dsimp only
  refine Kept.andThen State.retryLoads_kept ?_
  refine Kept.andThen State.dropAttempts_kept ?_
  refine Kept.upd ?_
  refine Kept.foldl _ _ ?_ ?_
  · refine Kept.andThen State.dropConfigRefs_kept ?_
    refine Kept.andThen State.setInst_kept ?_
    exact Kept.refl _
  · intro _ _
    refine Kept.andThen State.setSlotTab_kept ?_
    exact Kept.refl _

theorem State.noteSlack_kept {x : State} {a1} : Kept [.power] x (State.noteSlack x a1) := by
  unfold State.noteSlack
  refine Kept.upd ?_
  exact Kept.refl _

theorem State.finishStep_kept {x : State} {a1} : Kept [.regs, .arr, .mem, .serve, .vault, .fab, .rings, .power, .faults, .handed, .out] x (State.finishStep x a1) := by
  unfold State.finishStep
  refine Kept.andThen State.dropStep_kept ?_
  refine Kept.foldl _ _ ?_ ?_
  · refine Kept.andThen State.noteSlack_kept ?_
    exact Kept.refl _
  · intro _ _
    refine Kept.andThen State.settleSeq_kept ?_
    exact Kept.refl _

theorem State.completeStep_kept {x : State} {a1} {a2} : Kept [.regs, .arr, .mem, .serve, .vault, .fab, .rings, .power, .faults, .handed, .out] x (State.completeStep x a1 a2) := by
  unfold State.completeStep
  split
  · refine Kept.ite ?_ ?_
    · refine Kept.andThen State.finishStep_kept ?_
      exact Kept.refl _
    · exact Kept.refl _
  · exact Kept.refl _

theorem execStepCompletion_kept {x : State} {a0} {a1} : KeptR [.regs, .arr, .mem, .serve, .vault, .fab, .rings, .power, .faults, .handed, .out] x (execStepCompletion a0 a1 x) := by
  unfold execStepCompletion
  refine KeptR.next ?_
  refine Kept.andThen State.completeStep_kept ?_
  exact Kept.refl _

theorem State.clearGates_kept {x : State} {a1} : Kept [.arr, .serve] x (State.clearGates x a1) := by
  unfold State.clearGates
  refine Kept.foldl _ _ ?_ ?_
  · exact Kept.refl _
  · intro _ _
    refine Kept.andThen State.mapCfgCtxs_kept ?_
    exact Kept.refl _

/-! ### Sampler -/

theorem State.putPart_kept {x : State} {a1} {a2} {a3} : Kept [.regs, .serve] x (State.putPart x a1 a2 a3) := by
  unfold State.putPart
  dsimp only
  refine Kept.andThen State.onStep_kept ?_
  refine Kept.andThen State.bumpIf_kept ?_
  exact Kept.refl _

theorem State.feedDraft_kept {x : State} {a1} {a2} {a3} : Kept [.arr, .serve] x (State.feedDraft x a1 a2 a3) := by
  unfold State.feedDraft
  refine Kept.foldl _ _ ?_ ?_
  · exact Kept.refl _
  · intro _ _
    refine Kept.andThen State.placeOn_kept ?_
    exact Kept.refl _

theorem State.draftDraw_kept {x : State} {a1} {a2} {a3} : Kept [.regs, .arr, .serve] x (State.draftDraw x a1 a2 a3) := by
  unfold State.draftDraw
  dsimp only
  split
  · exact Kept.refl _
  · refine Kept.ite ?_ ?_
    · exact Kept.refl _
    · refine Kept.ite ?_ ?_
      · refine Kept.andThen State.feedDraft_kept ?_
        exact Kept.refl _
      · refine Kept.ite ?_ ?_
        · exact Kept.refl _
        · split
          · refine Kept.andThen State.feedDraft_kept ?_
            refine Kept.andThen State.putPart_kept ?_
            exact Kept.refl _
          · refine Kept.andThen State.feedDraft_kept ?_
            refine Kept.andThen State.putPart_kept ?_
            exact Kept.refl _

theorem execDraftTokenDraw_kept {x : State} {a0} {a1} {a2} : KeptR [.regs, .arr, .serve] x (execDraftTokenDraw a0 a1 a2 x) := by
  unfold execDraftTokenDraw
  refine KeptR.next ?_
  refine Kept.andThen State.draftDraw_kept ?_
  exact Kept.refl _

theorem State.mainDraw_kept {x : State} {a1} {a2} {a3} : Kept [.regs, .serve] x (State.mainDraw x a1 a2 a3) := by
  unfold State.mainDraw
  dsimp only
  split
  · exact Kept.refl _
  · refine Kept.ite ?_ ?_
    · exact Kept.refl _
    · refine Kept.andThen State.putPart_kept ?_
      exact Kept.refl _

theorem execSamplerPosition_kept {x : State} {a0} {a1} {a2} : KeptR [.regs, .serve] x (execSamplerPosition a0 a1 a2 x) := by
  unfold execSamplerPosition
  refine KeptR.next ?_
  refine Kept.andThen State.mainDraw_kept ?_
  exact Kept.refl _

/-! ### Dma -/

theorem State.writeback_kept {x : State} {a1} {a2} {a3} {a4} : Kept [.chans, .rings, .out] x (State.writeback x a1 a2 a3 a4) := by
  unfold State.writeback
  dsimp only
  refine Kept.ite ?_ ?_
  · refine Kept.andThen State.msix_kept ?_
    refine Kept.andThen State.emits_kept ?_
    refine Kept.andThen State.setChan_kept ?_
    exact Kept.refl _
  · refine Kept.andThen State.emits_kept ?_
    refine Kept.andThen State.setChan_kept ?_
    exact Kept.refl _

theorem State.fetchDesc_kept {x : State} {a1} {a2} : Kept [.chans, .rings, .out] x (State.fetchDesc x a1 a2) := by
  unfold State.fetchDesc
  dsimp only
  refine Kept.ite ?_ ?_
  · exact Kept.refl _
  · refine Kept.ite ?_ ?_
    · refine Kept.andThen State.setChan_kept ?_
      exact Kept.refl _
    · refine Kept.ite ?_ ?_
      · refine Kept.andThen State.writeback_kept ?_
        exact Kept.refl _
      · refine Kept.andThen State.setChan_kept ?_
        exact Kept.refl _

theorem State.moveBytes_kept {x : State} {a1} {a2} {a3} : Kept [.arr, .mem, .out] x (State.moveBytes x a1 a2 a3) := by
  unfold State.moveBytes
  refine Kept.ite ?_ ?_
  · exact Kept.refl _
  · refine Kept.ite ?_ ?_
    · refine Kept.andThen State.emit_kept ?_
      refine Kept.andThen State.touch_kept ?_
      exact Kept.refl _
    · refine Kept.andThen State.writeMpa_kept ?_
      exact Kept.refl _

theorem State.runCopyDesc_kept {x : State} {a1} {a2} {a3} {a4} : Kept [.regs, .arr, .mem, .serve, .vault, .fab, .chans, .rings, .faults, .handed, .out] x (State.runCopyDesc x a1 a2 a3 a4) := by
  unfold State.runCopyDesc
  split
  · refine Kept.andThen State.writeback_kept ?_
    refine Kept.andThen State.moveBytes_kept ?_
    refine Kept.of_snd (by assumption) ?_
    refine Kept.andThen State.hubRead_kept ?_
    exact Kept.refl _
  · refine Kept.andThen State.writeback_kept ?_
    refine Kept.andThen State.moveBytes_kept ?_
    refine Kept.of_snd (by assumption) ?_
    refine Kept.andThen State.hubRead_kept ?_
    exact Kept.refl _

theorem State.copyDone_kept {x : State} {a1} {a2} {a3} {a4} : Kept [.regs, .arr, .mem, .serve, .vault, .fab, .chans, .rings, .faults, .handed, .out] x (State.copyDone x a1 a2 a3 a4) := by
  unfold State.copyDone
  dsimp only
  split
  · refine Kept.andThen State.fetchDesc_kept ?_
    exact Kept.refl _
  · refine Kept.ite ?_ ?_
    · refine Kept.andThen State.fetchDesc_kept ?_
      refine Kept.andThen State.writeback_kept ?_
      refine Kept.andThen State.countAccess_kept ?_
      exact Kept.refl _
    · refine Kept.ite ?_ ?_
      · refine Kept.andThen State.setChan_kept ?_
        refine Kept.andThen State.bumpIf_kept ?_
        exact Kept.refl _
      · refine Kept.andThen State.fetchDesc_kept ?_
        refine Kept.andThen State.runCopyDesc_kept ?_
        exact Kept.refl _
  · exact Kept.refl _

theorem execDmaCopyDone_kept {x : State} {a0} {a1} {a2} {a3} : KeptR [.regs, .arr, .mem, .serve, .vault, .fab, .chans, .rings, .faults, .handed, .platform, .out] x (execDmaCopyDone a0 a1 a2 a3 x) := by
  unfold execDmaCopyDone
  refine KeptR.next ?_
  refine Kept.on (State.watched_kept ?_) ?_
  · intro _
    refine Kept.andThen State.copyDone_kept ?_
    exact Kept.refl _
  · exact Kept.refl _

theorem State.dmaBell_kept {x : State} {a1} {a2} : Kept [.regs, .chans, .rings, .out] x (State.dmaBell x a1 a2) := by
  unfold State.dmaBell
  dsimp only
  refine Kept.ite ?_ ?_
  · refine Kept.andThen State.discardBell_kept ?_
    exact Kept.refl _
  · refine Kept.ite ?_ ?_
    · refine Kept.andThen State.fetchDesc_kept ?_
      refine Kept.andThen State.setChan_kept ?_
      exact Kept.refl _
    · refine Kept.andThen State.fetchDesc_kept ?_
      exact Kept.refl _

theorem execDmaDoorbell_kept {x : State} {a0} {a1} : KeptR [.regs, .chans, .rings, .out] x (execDmaDoorbell a0 a1 x) := by
  unfold execDmaDoorbell
  refine KeptR.next ?_
  refine Kept.ite ?_ ?_
  · refine Kept.andThen State.dmaBell_kept ?_
    exact Kept.refl _
  · refine Kept.ite ?_ ?_
    · refine Kept.andThen State.discardBell_kept ?_
      exact Kept.refl _
    · exact Kept.refl _

theorem State.writeChanCtrl_kept {x : State} {a1} {a2} : Kept [.chans] x (State.writeChanCtrl x a1 a2) := by
  unfold State.writeChanCtrl
  dsimp only
  refine Kept.ite ?_ ?_
  · refine Kept.ite ?_ ?_
    · refine Kept.andThen State.setChan_kept ?_
      exact Kept.refl _
    · exact Kept.refl _
  · refine Kept.ite ?_ ?_
    · refine Kept.andThen State.setChan_kept ?_
      exact Kept.refl _
    · exact Kept.refl _

theorem State.writeDmaError_kept {x : State} {a1} : Kept [.chans] x (State.writeDmaError x a1) := by
  unfold State.writeDmaError
  refine Kept.ite ?_ ?_
  · exact Kept.refl _
  · dsimp only
    refine Kept.upd ?_
    exact Kept.refl _

theorem State.cutCopy_kept {x : State} {a1} : Kept [.arr, .mem, .free] x (State.cutCopy x a1) := by
  unfold State.cutCopy
  dsimp only
  split
  · refine Kept.ite ?_ ?_
    · exact Kept.refl _
    · refine Kept.ite ?_ ?_
      · refine Kept.andThen State.freshBytes_kept ?_
        refine Kept.andThen State.fresh_kept ?_
        exact Kept.refl _
      · refine Kept.andThen State.writeMpa_kept ?_
        refine Kept.andThen State.freshBytes_kept ?_
        refine Kept.andThen State.fresh_kept ?_
        exact Kept.refl _
  · exact Kept.refl _

theorem State.busErrorOn_kept {x : State} {a1} {a2} : Kept [.regs, .arr, .mem, .chans, .rings, .out, .free] x (State.busErrorOn x a1 a2) := by
  unfold State.busErrorOn
  dsimp only
  refine Kept.andThen State.raiseTo_kept ?_
  refine Kept.upd ?_
  refine Kept.andThen State.bump_kept ?_
  refine Kept.foldl _ _ ?_ ?_
  · exact Kept.refl _
  · intro _ _
    refine Kept.andThen State.cutCopy_kept ?_
    exact Kept.refl _

/-! ### Fabric -/

theorem State.memAct_kept {x : State} {a1} {a2} : Kept [.arr, .mem] x (State.memAct x a1 a2).1 := by
  unfold State.memAct
  dsimp only
  split
  · dsimp only
    refine Kept.andThen State.writeMpa_kept ?_
    exact Kept.refl _
  · split
    · dsimp only
      refine Kept.andThen State.writeMpa_kept ?_
      exact Kept.refl _
    · exact Kept.refl _

theorem State.serveMem_kept {x : State} {a1} {a2} {a3} : Kept [.regs, .arr, .mem, .serve, .vault, .fab, .rings, .faults, .handed, .out] x (State.serveMem x a1 a2 a3) := by
  unfold State.serveMem
  dsimp only
  split
  · refine Kept.andThen State.respond_kept ?_
    refine Kept.of_snd (by assumption) ?_
    refine Kept.andThen State.hubRead_kept ?_
    exact Kept.refl _
  · refine Kept.andThen State.respond_kept ?_
    refine Kept.andThen State.memAct_kept ?_
    refine Kept.andThen State.touch_kept ?_
    refine Kept.of_snd (by assumption) ?_
    refine Kept.andThen State.hubRead_kept ?_
    exact Kept.refl _

theorem State.memoryOp_kept {x : State} {a1} {a2} {a3} : Kept [.regs, .arr, .mem, .serve, .vault, .fab, .rings, .faults, .handed, .out] x (State.memoryOp x a1 a2 a3) := by
  unfold State.memoryOp
  dsimp only
  refine Kept.ite ?_ ?_
  · refine Kept.andThen State.respond_kept ?_
    exact Kept.refl _
  · refine Kept.ite ?_ ?_
    · refine Kept.andThen State.respond_kept ?_
      refine Kept.andThen State.countAccess_kept ?_
      exact Kept.refl _
    · refine Kept.ite ?_ ?_
      · refine Kept.andThen State.holdReq_kept ?_
        refine Kept.andThen State.bumpIf_kept ?_
        exact Kept.refl _
      · refine Kept.andThen State.serveMem_kept ?_
        exact Kept.refl _

theorem execLoad_kept {x : State} {a0} {a1} : KeptR [.regs, .arr, .mem, .serve, .vault, .fab, .rings, .faults, .handed, .platform, .out] x (execLoad a0 a1 x) := by
  unfold execLoad
  refine KeptR.next ?_
  refine Kept.on (State.watched_kept ?_) ?_
  · intro _
    refine Kept.on (State.deliver_kept ?_) ?_
    · intro _
      refine Kept.andThen State.memoryOp_kept ?_
      exact Kept.refl _
    · exact Kept.refl _
  · exact Kept.refl _

theorem execStore_kept {x : State} {a0} {a1} : KeptR [.regs, .arr, .mem, .serve, .vault, .fab, .rings, .faults, .handed, .platform, .out] x (execStore a0 a1 x) := by
  unfold execStore
  refine KeptR.next ?_
  refine Kept.on (State.watched_kept ?_) ?_
  · intro _
    refine Kept.on (State.deliver_kept ?_) ?_
    · intro _
      refine Kept.andThen State.memoryOp_kept ?_
      exact Kept.refl _
    · exact Kept.refl _
  · exact Kept.refl _

theorem execAtomic_kept {x : State} {a0} {a1} : KeptR [.regs, .arr, .mem, .serve, .vault, .fab, .rings, .faults, .handed, .platform, .out] x (execAtomic a0 a1 x) := by
  unfold execAtomic
  refine KeptR.next ?_
  refine Kept.on (State.watched_kept ?_) ?_
  · intro _
    refine Kept.on (State.deliver_kept ?_) ?_
    · intro _
      refine Kept.andThen State.memoryOp_kept ?_
      exact Kept.refl _
    · exact Kept.refl _
  · exact Kept.refl _

theorem execBulkPut_kept {x : State} {a0} {a1} : KeptR [.regs, .arr, .mem, .serve, .vault, .fab, .rings, .faults, .handed, .platform, .out] x (execBulkPut a0 a1 x) := by
  unfold execBulkPut
  refine KeptR.next ?_
  refine Kept.on (State.watched_kept ?_) ?_
  · intro _
    refine Kept.on (State.deliver_kept ?_) ?_
    · intro _
      refine Kept.andThen State.memoryOp_kept ?_
      exact Kept.refl _
    · exact Kept.refl _
  · exact Kept.refl _

theorem execBulkGet_kept {x : State} {a0} {a1} : KeptR [.regs, .arr, .mem, .serve, .vault, .fab, .rings, .faults, .handed, .platform, .out] x (execBulkGet a0 a1 x) := by
  unfold execBulkGet
  refine KeptR.next ?_
  refine Kept.on (State.watched_kept ?_) ?_
  · intro _
    refine Kept.on (State.deliver_kept ?_) ?_
    · intro _
      refine Kept.andThen State.memoryOp_kept ?_
      exact Kept.refl _
    · exact Kept.refl _
  · exact Kept.refl _

theorem State.handoffNow_kept {x : State} {a1} : Kept [.regs, .mem, .handed, .out] x (State.handoffNow x a1) := by
  unfold State.handoffNow
  dsimp only
  split
  · refine Kept.ite ?_ ?_
    · refine Kept.andThen State.respond_kept ?_
      refine Kept.andThen State.setOwn_kept ?_
      exact Kept.refl _
    · refine Kept.andThen State.respond_kept ?_
      refine Kept.andThen State.notOwner_kept ?_
      exact Kept.refl _
  · refine Kept.andThen State.respond_kept ?_
    refine Kept.andThen State.notOwner_kept ?_
    exact Kept.refl _

theorem State.handoffIn_kept {x : State} {a1} : Kept [.regs, .mem, .fab, .handed, .out] x (State.handoffIn x a1) := by
  unfold State.handoffIn
  refine Kept.ite ?_ ?_
  · refine Kept.andThen State.respond_kept ?_
    exact Kept.refl _
  · dsimp only
    refine Kept.ite ?_ ?_
    · refine Kept.andThen State.holdReq_kept ?_
      exact Kept.refl _
    · refine Kept.andThen State.handoffNow_kept ?_
      exact Kept.refl _

theorem execHandoff_kept {x : State} {a0} : KeptR [.regs, .mem, .fab, .rings, .handed, .out] x (execHandoff a0 x) := by
  unfold execHandoff
  refine KeptR.next ?_
  refine Kept.on (State.deliver_kept ?_) ?_
  · intro _
    refine Kept.andThen State.handoffIn_kept ?_
    exact Kept.refl _
  · exact Kept.refl _

theorem State.actHeld_kept {x : State} {a1} : Kept [.regs, .arr, .mem, .serve, .vault, .fab, .rings, .faults, .handed, .out] x (State.actHeld x a1) := by
  unfold State.actHeld
  split
  · refine Kept.andThen State.serveMem_kept ?_
    exact Kept.refl _
  · refine Kept.andThen State.handoffNow_kept ?_
    exact Kept.refl _
  · refine Kept.andThen State.applyOwn_kept ?_
    exact Kept.refl _

theorem State.retryHeld_kept {x : State} : Kept [.regs, .arr, .mem, .serve, .vault, .fab, .rings, .faults, .handed, .out] x (State.retryHeld x) := by
  unfold State.retryHeld
  refine Kept.foldl _ _ ?_ ?_
  · refine Kept.upd ?_
    exact Kept.refl _
  · intro _ _
    dsimp only
    refine Kept.ite ?_ ?_
    · refine Kept.andThen State.holdReq_kept ?_
      exact Kept.refl _
    · refine Kept.andThen State.actHeld_kept ?_
      exact Kept.refl _

theorem State.routesOpen_kept {x : State} : Kept [.regs, .arr, .mem, .serve, .vault, .fab, .rings, .faults, .handed, .out] x (State.routesOpen x) := by
  unfold State.routesOpen
  refine Kept.andThen State.retryHeld_kept ?_
  refine Kept.foldl _ _ ?_ ?_
  · exact Kept.refl _
  · intro _ _
    refine Kept.andThen State.issueReads_kept ?_
    exact Kept.refl _

theorem execPrefetchTileLand_kept {x : State} {a0} {a1} {a2} : KeptR [.regs, .arr, .mem, .serve, .vault, .fab, .rings, .faults, .handed, .platform, .out] x (execPrefetchTileLand a0 a1 a2 x) := by
  unfold execPrefetchTileLand
  refine KeptR.next ?_
  refine Kept.on (State.watched_kept ?_) ?_
  · intro _
    refine Kept.andThen State.retryHeld_kept ?_
    refine Kept.andThen State.landPrefetch_kept ?_
    exact Kept.refl _
  · exact Kept.refl _

theorem execGatherComplete_kept {x : State} {a0} {a1} : KeptR [.regs, .arr, .mem, .serve, .vault, .fab, .rings, .faults, .handed, .platform, .out] x (execGatherComplete a0 a1 x) := by
  unfold execGatherComplete
  refine KeptR.next ?_
  refine Kept.on (State.watched_kept ?_) ?_
  · intro _
    refine Kept.andThen State.retryHeld_kept ?_
    refine Kept.andThen State.gatherDone_kept ?_
    exact Kept.refl _
  · exact Kept.refl _

theorem execProvingRunEnd_kept {x : State} {a0} {a1} {a2} : KeptR [.regs, .arr, .mem, .serve, .vault, .fab, .rings, .faults, .handed, .platform, .out] x (execProvingRunEnd a0 a1 a2 x) := by
  unfold execProvingRunEnd
  refine KeptR.next ?_
  refine Kept.on (State.watched_kept ?_) ?_
  · intro _
    refine Kept.andThen State.retryHeld_kept ?_
    refine Kept.andThen State.endRun_kept ?_
    exact Kept.refl _
  · exact Kept.refl _

theorem execNotice_kept {x : State} {m} : KeptR [.regs, .fab, .rings, .out] x (execNotice m x) :=
  State.deliver_kept fun _ => Kept.refl _

theorem State.setRrq_kept {x : State} {a1} : Kept [.serve] x (State.setRrq x a1) := by
  unfold State.setRrq
  dsimp only
  refine Kept.andThen State.setInst_kept ?_
  exact Kept.refl _

theorem State.endEntry_kept {x : State} {a1} {a2} {a3} : Kept [.mem] x (State.endEntry x a1 a2 a3) := by
  unfold State.endEntry
  refine Kept.andThen State.storeAt_kept ?_
  exact Kept.refl _

theorem State.issue_kept {x : State} {a1} {a2} {a3} : Kept [.regs, .mem, .serve, .fab, .out] x (State.issue x a1 a2 a3) := by
  unfold State.issue
  dsimp only
  refine Kept.andThen State.sendTo_kept ?_
  refine Kept.andThen State.setRrq_kept ?_
  refine Kept.andThen State.setMem_kept ?_
  refine Kept.andThen State.setFab_kept ?_
  exact Kept.refl _

theorem State.scanEntry_kept {x : State} {a1} {a2} : KeptO [.regs, .mem, .serve, .fab, .out] x (State.scanEntry x a1 a2) := by
  unfold State.scanEntry
  dsimp only
  split
  · exact KeptO.none
  · split
    · exact KeptO.none
    · split
      · exact KeptO.none
      · split
        · refine KeptO.some ?_
          refine Kept.andThen State.endEntry_kept ?_
          refine Kept.andThen State.setRrq_kept ?_
          exact Kept.refl _
        · split
          · refine KeptO.some ?_
            refine Kept.andThen State.endEntry_kept ?_
            refine Kept.andThen State.setRrq_kept ?_
            exact Kept.refl _
          · split
            · refine KeptO.some ?_
              refine Kept.andThen State.endEntry_kept ?_
              refine Kept.andThen State.countAccess_kept ?_
              refine Kept.andThen State.setRrq_kept ?_
              exact Kept.refl _
            · refine KeptO.some ?_
              refine Kept.andThen State.issue_kept ?_
              refine Kept.andThen State.setRrq_kept ?_
              exact Kept.refl _

theorem State.scanQueue_kept {x : State} {c q n} : Kept [.regs, .mem, .serve, .fab, .out] x (x.scanQueue c q n) := by
  induction n generalizing x with
  | zero => exact Kept.refl _
  | succ n ih =>
    unfold State.scanQueue
    split
    · exact Kept.on ih (Kept.of_some (by assumption) State.scanEntry_kept)
    · exact Kept.refl _

theorem execRemoteQueueScan_kept {x : State} {a0} {a1} : KeptR [.regs, .mem, .serve, .fab, .out] x (execRemoteQueueScan a0 a1 x) := by
  unfold execRemoteQueueScan
  refine KeptR.next ?_
  refine Kept.andThen State.scanQueue_kept ?_
  exact Kept.refl _

theorem State.endRequest_kept {x : State} {a1} {a2} {a3} : Kept [.mem, .serve, .fab] x (State.endRequest x a1 a2 a3) := by
  unfold State.endRequest
  dsimp only
  refine Kept.andThen State.setMem_kept ?_
  split
  · refine Kept.andThen State.endEntry_kept ?_
    refine Kept.andThen State.setRrq_kept ?_
    refine Kept.ite ?_ ?_
    · refine Kept.andThen State.storeAt_kept ?_
      refine Kept.andThen State.setFab_kept ?_
      exact Kept.refl _
    · refine Kept.andThen State.setFab_kept ?_
      exact Kept.refl _
  · refine Kept.ite ?_ ?_
    · refine Kept.andThen State.storeAt_kept ?_
      refine Kept.andThen State.setFab_kept ?_
      exact Kept.refl _
    · refine Kept.andThen State.setFab_kept ?_
      exact Kept.refl _

theorem State.responseIn_kept {x : State} {a1} : Kept [.regs, .mem, .serve, .fab, .out] x (State.responseIn x a1) := by
  unfold State.responseIn
  dsimp only
  split
  · refine Kept.ite ?_ ?_
    · refine Kept.andThen State.bump_kept ?_
      exact Kept.refl _
    · refine Kept.andThen State.scanQueue_kept ?_
      refine Kept.andThen State.endRequest_kept ?_
      exact Kept.refl _
  · refine Kept.ite ?_ ?_
    · refine Kept.andThen State.bump_kept ?_
      refine Kept.andThen State.setFab_kept ?_
      exact Kept.refl _
    · refine Kept.andThen State.bump_kept ?_
      exact Kept.refl _

theorem execResponse_kept {x : State} {a0} : KeptR [.regs, .mem, .serve, .fab, .rings, .out] x (execResponse a0 x) := by
  unfold execResponse
  refine KeptR.next ?_
  refine Kept.on (State.deliver_kept ?_) ?_
  · intro _
    refine Kept.andThen State.responseIn_kept ?_
    exact Kept.refl _
  · exact Kept.refl _

theorem State.dropPendingFills_kept {x : State} {a1} : Kept [.arr] x (State.dropPendingFills x a1) := by
  unfold State.dropPendingFills
  dsimp only
  refine Kept.upd ?_
  exact Kept.refl _

theorem State.haltInst_kept {x : State} {a1} : Kept [.serve] x (State.haltInst x a1) := by
  unfold State.haltInst
  dsimp only
  refine Kept.andThen State.setInst_kept ?_
  exact Kept.refl _

theorem State.deadlineOf_kept {x : State} {a1} : Kept [.time, .regs, .arr, .mem, .serve, .fab, .rings, .out] x (State.deadlineOf x a1) := by
  unfold State.deadlineOf
  dsimp only
  split
  · exact Kept.refl _
  · refine Kept.on (State.atTimer_kept ?_) ?_
    · intro _
      refine Kept.andThen State.notice_kept ?_
      refine Kept.andThen State.instEvent_kept ?_
      refine Kept.andThen State.haltInst_kept ?_
      split
      · refine Kept.ite ?_ ?_
        · refine Kept.andThen State.failSteps_kept ?_
          split
          · refine Kept.andThen State.setRrq_kept ?_
            refine Kept.andThen State.setFab_kept ?_
            refine Kept.andThen State.bump_kept ?_
            refine Kept.andThen State.endRequest_kept ?_
            refine Kept.andThen State.dropPendingFills_kept ?_
            exact Kept.refl _
          · refine Kept.andThen State.setFab_kept ?_
            refine Kept.andThen State.bump_kept ?_
            refine Kept.andThen State.endRequest_kept ?_
            refine Kept.andThen State.dropPendingFills_kept ?_
            exact Kept.refl _
        · refine Kept.andThen State.instEvent_kept ?_
          refine Kept.andThen State.failSteps_kept ?_
          split
          · refine Kept.andThen State.setRrq_kept ?_
            refine Kept.andThen State.setFab_kept ?_
            refine Kept.andThen State.bump_kept ?_
            refine Kept.andThen State.endRequest_kept ?_
            refine Kept.andThen State.dropPendingFills_kept ?_
            exact Kept.refl _
          · refine Kept.andThen State.setFab_kept ?_
            refine Kept.andThen State.bump_kept ?_
            refine Kept.andThen State.endRequest_kept ?_
            refine Kept.andThen State.dropPendingFills_kept ?_
            exact Kept.refl _
      · split
        · refine Kept.andThen State.setRrq_kept ?_
          refine Kept.andThen State.setFab_kept ?_
          refine Kept.andThen State.bump_kept ?_
          refine Kept.andThen State.endRequest_kept ?_
          refine Kept.andThen State.dropPendingFills_kept ?_
          exact Kept.refl _
        · refine Kept.andThen State.setFab_kept ?_
          refine Kept.andThen State.bump_kept ?_
          refine Kept.andThen State.endRequest_kept ?_
          refine Kept.andThen State.dropPendingFills_kept ?_
          exact Kept.refl _
    · exact Kept.refl _

theorem execFabricDeadline_kept {x : State} {a0} : KeptR [.time, .regs, .arr, .mem, .serve, .fab, .rings, .out] x (execFabricDeadline a0 x) := by
  unfold execFabricDeadline
  refine KeptR.next ?_
  refine Kept.andThen State.deadlineOf_kept ?_
  exact Kept.refl _

theorem State.tearInst_kept {x : State} {a1} : Kept [.regs, .arr, .mem, .serve, .vault, .fab, .rings, .faults, .handed, .out] x (State.tearInst x a1) := by
  unfold State.tearInst
  dsimp only
  refine Kept.ite ?_ ?_
  · exact Kept.refl _
  · refine Kept.andThen State.setInst_kept ?_
    refine Kept.foldl _ _ ?_ ?_
    · refine Kept.andThen State.abandonRequests_kept ?_
      refine Kept.andThen State.setFab_kept ?_
      refine Kept.upd ?_
      refine Kept.foldl _ _ ?_ ?_
      · refine Kept.foldl _ _ ?_ ?_
        · refine Kept.foldl _ _ ?_ ?_
          · exact Kept.refl _
          · intro _ _
            refine Kept.andThen State.dropStep_kept ?_
            refine Kept.foldl _ _ ?_ ?_
            · exact Kept.refl _
            · intro _ _
              refine Kept.andThen State.charge_kept ?_
              exact Kept.refl _
        · intro _ _
          refine Kept.andThen State.endSeq_kept ?_
          exact Kept.refl _
      · intro _ _
        split
        · refine Kept.andThen State.cqWrite_kept ?_
          exact Kept.refl _
        · exact Kept.refl _
    · intro _ _
      refine Kept.andThen State.dropConfig_kept ?_
      exact Kept.refl _

theorem State.resetOwnership_kept {x : State} : Kept [.mem] x (State.resetOwnership x) := by
  unfold State.resetOwnership
  refine Kept.andThen State.setMem_kept ?_
  exact Kept.refl _

theorem State.teardown_kept {x : State} {a1} : Kept [.regs, .arr, .mem, .serve, .vault, .fab, .rings, .faults, .handed, .out] x (State.teardown x a1) := by
  unfold State.teardown
  dsimp only
  refine Kept.ite ?_ ?_
  · refine Kept.andThen State.respond_kept ?_
    exact Kept.refl _
  · refine Kept.ite ?_ ?_
    · refine Kept.andThen State.respond_kept ?_
      exact Kept.refl _
    · refine Kept.andThen State.notice_kept ?_
      refine Kept.andThen State.respond_kept ?_
      refine Kept.andThen State.retryLoads_kept ?_
      refine Kept.andThen State.hand_kept ?_
      refine Kept.ite ?_ ?_
      · refine Kept.andThen State.resetOwnership_kept ?_
        refine Kept.foldl _ _ ?_ ?_
        · exact Kept.refl _
        · intro _ _
          refine Kept.andThen State.tearInst_kept ?_
          exact Kept.refl _
      · refine Kept.foldl _ _ ?_ ?_
        · exact Kept.refl _
        · intro _ _
          refine Kept.andThen State.tearInst_kept ?_
          exact Kept.refl _

theorem execJobTeardown_kept {x : State} {a0} : KeptR [.regs, .arr, .mem, .serve, .vault, .fab, .rings, .faults, .handed, .out] x (execJobTeardown a0 x) := by
  unfold execJobTeardown
  refine KeptR.next ?_
  refine Kept.on (State.deliver_kept ?_) ?_
  · intro _
    refine Kept.andThen State.teardown_kept ?_
    exact Kept.refl _
  · exact Kept.refl _

end Sys2Proof.Machine
end

