-- ==== Sys2Proof/Laws/Kept8.lean ====
section
/-! SUPPORT. What the operations and the commands of Machine/Colls.lean, Machine/Standby.lean, Machine/RegWrite.lean keep (Laws/Kept.lean). -/
set_option Elab.async false

namespace Sys2Proof.Machine

/-! ### Colls -/

theorem State.hubNumbers_kept {x : State} {a1} {a2} : Kept [.arr] x (State.hubNumbers x a1 a2) := by
  unfold State.hubNumbers
  dsimp only
  refine Kept.upd ?_
  exact Kept.refl _

theorem State.setColl_kept {x : State} {a1} : Kept [.serve] x (State.setColl x a1) := by
  unfold State.setColl
  refine Kept.upd ?_
  exact Kept.refl _

theorem State.onColl_kept {x : State} {a1} {a2} {a3} : Kept [.serve] x (State.onColl x a1 a2 a3) := by
  unfold State.onColl
  split
  · refine Kept.andThen State.setColl_kept ?_
    exact Kept.refl _
  · exact Kept.refl _

theorem State.putSlot_kept {x : State} {a1} {a2} {a3} : Kept [.mem] x (State.putSlot x a1 a2 a3) := by
  unfold State.putSlot
  refine Kept.andThen State.storeAt_kept ?_
  exact Kept.refl _

theorem State.drainSlots_kept {x : State} {a1} : Kept [.regs, .fab, .out] x (State.drainSlots x a1) := by
  unfold State.drainSlots
  refine Kept.ite ?_ ?_
  · exact Kept.refl _
  · dsimp only
    refine Kept.foldl _ _ ?_ ?_
    · refine Kept.andThen State.setFab_kept ?_
      exact Kept.refl _
    · intro _ _
      refine Kept.andThen State.sendOn_kept ?_
      exact Kept.refl _

theorem State.holdSlots_kept {x : State} : Kept [.fab] x (State.holdSlots x) := by
  unfold State.holdSlots
  refine Kept.andThen State.setFab_kept ?_
  exact Kept.refl _

theorem State.sendSlot_kept {x : State} {a1} {a2} {a3} {a4} {a5} {a6} : Kept [.regs, .fab, .out] x (State.sendSlot x a1 a2 a3 a4 a5 a6) := by
  unfold State.sendSlot
  refine Kept.ite ?_ ?_
  · exact Kept.refl _
  · dsimp only
    refine Kept.andThen State.drainSlots_kept ?_
    refine Kept.andThen State.setFab_kept ?_
    exact Kept.refl _

theorem State.collOut_kept {x : State} {a1} {a2} {a3} : Kept [.regs, .fab, .out] x (State.collOut x a1 a2 a3) := by
  unfold State.collOut
  dsimp only
  refine Kept.ite ?_ ?_
  · refine Kept.andThen State.sendTo_kept ?_
    exact Kept.refl _
  · split
    · refine Kept.andThen State.sendSlot_kept ?_
      exact Kept.refl _
    · exact Kept.refl _

theorem State.sendChunk_kept {x : State} {a1} {a2} {a3} {a4} {a5} : Kept [.regs, .fab, .out] x (State.sendChunk x a1 a2 a3 a4 a5) := by
  unfold State.sendChunk
  refine Kept.foldl _ _ ?_ ?_
  · exact Kept.refl _
  · intro _ _
    refine Kept.andThen State.collOut_kept ?_
    exact Kept.refl _

theorem State.sendSection_kept {x : State} {a1} {a2} : Kept [.regs, .fab, .out] x (State.sendSection x a1 a2) := by
  unfold State.sendSection
  dsimp only
  refine Kept.foldl _ _ ?_ ?_
  · exact Kept.refl _
  · intro _ _
    refine Kept.andThen State.collOut_kept ?_
    exact Kept.refl _

theorem State.sendContribution_kept {x : State} {a1} : Kept [.regs, .fab, .out] x (State.sendContribution x a1) := by
  unfold State.sendContribution
  dsimp only
  refine Kept.ite ?_ ?_
  · refine Kept.foldl _ _ ?_ ?_
    · exact Kept.refl _
    · intro _ _
      refine Kept.andThen State.sendSection_kept ?_
      exact Kept.refl _
  · refine Kept.ite ?_ ?_
    · refine Kept.foldl _ _ ?_ ?_
      · exact Kept.refl _
      · intro _ _
        refine Kept.andThen State.sendSection_kept ?_
        exact Kept.refl _
    · refine Kept.foldl _ _ ?_ ?_
      · exact Kept.refl _
      · intro _ _
        refine Kept.andThen State.sendChunk_kept ?_
        exact Kept.refl _

theorem State.reduceOwn_kept {x : State} {a1} : Kept [.arr, .mem] x (State.reduceOwn x a1).1 := by
  unfold State.reduceOwn
  dsimp only
  split
  · exact Kept.refl _
  · dsimp only
    refine Kept.andThen State.hubNumbers_kept ?_
    refine Kept.foldl _ _ ?_ ?_
    · exact Kept.refl _
    · intro _ _
      refine Kept.andThen State.putSlot_kept ?_
      exact Kept.refl _

theorem State.pushColl_kept {x : State} {a1} : Kept [.regs, .arr, .mem, .serve, .fab, .out] x (State.pushColl x a1) := by
  unfold State.pushColl
  dsimp only
  refine Kept.andThen State.setColl_kept ?_
  refine Kept.ite ?_ ?_
  · refine Kept.foldl _ _ ?_ ?_
    · refine Kept.ite ?_ ?_
      · refine Kept.andThen State.sendContribution_kept ?_
        refine Kept.andThen State.reduceOwn_kept ?_
        exact Kept.refl _
      · refine Kept.andThen State.reduceOwn_kept ?_
        exact Kept.refl _
    · intro _ _
      refine Kept.andThen State.sendChunk_kept ?_
      exact Kept.refl _
  · refine Kept.ite ?_ ?_
    · refine Kept.andThen State.sendContribution_kept ?_
      refine Kept.andThen State.reduceOwn_kept ?_
      exact Kept.refl _
    · refine Kept.andThen State.reduceOwn_kept ?_
      exact Kept.refl _

theorem State.startSending_kept {x : State} {a1} {a2} : Kept [.regs, .arr, .mem, .serve, .fab, .out] x (State.startSending x a1 a2) := by
  unfold State.startSending
  split
  · exact Kept.refl _
  · refine Kept.ite ?_ ?_
    · exact Kept.refl _
    · refine Kept.andThen State.pushColl_kept ?_
      exact Kept.refl _

theorem State.collLate_kept {x : State} {a1} : Kept [.regs, .serve] x (State.collLate x a1) := by
  unfold State.collLate
  refine Kept.andThen State.onStep_kept ?_
  refine Kept.andThen State.bump_kept ?_
  exact Kept.refl _

theorem State.collNone_kept {x : State} {a1} : Kept [.regs] x (State.collNone x a1) := by
  unfold State.collNone
  refine Kept.ite ?_ ?_
  · refine Kept.andThen State.bump_kept ?_
    exact Kept.refl _
  · refine Kept.andThen State.bump_kept ?_
    exact Kept.refl _

theorem State.collIn_kept {x : State} {a1} {a2} {P : List Part}
    (h2 : ∀ y b1, Kept P y (a2 y b1))
    (hq : [.regs, .serve] ⊆ P := by first | with_reducible exact List.Subset.refl _ | decide | (refine List.Subset.trans ?_ (by assumption); decide)) : Kept P x (State.collIn x a1 a2) := by
  unfold State.collIn
  split
  · refine Kept.andThen State.collNone_kept ?_
    exact Kept.refl _
  · refine Kept.ite ?_ ?_
    · exact Kept.refl _
    · refine Kept.ite ?_ ?_
      · refine Kept.andThen State.collLate_kept ?_
        exact Kept.refl _
      · refine Kept.andThen (h2 ..) ?_
        exact Kept.refl _

theorem State.takeColl_kept {x : State} {a1} {a2} : Kept [.regs, .arr, .mem, .serve, .fab, .out] x (State.takeColl x a1 a2) := by
  unfold State.takeColl
  dsimp only
  refine Kept.ite ?_ ?_
  · refine Kept.andThen State.collLate_kept ?_
    exact Kept.refl _
  · refine Kept.andThen State.pushColl_kept ?_
    refine Kept.andThen State.setColl_kept ?_
    exact Kept.refl _

theorem State.rejectSection_kept {x : State} {a1} {a2} : Kept [.regs, .serve] x (State.rejectSection x a1 a2) := by
  unfold State.rejectSection
  refine Kept.andThen State.collLate_kept ?_
  refine Kept.andThen State.bump_kept ?_
  refine Kept.andThen State.setColl_kept ?_
  exact Kept.refl _

theorem State.placeRows_kept {x : State} {a1} {a2} {a3} {a4} {a5} : Kept [.arr, .mem] x (State.placeRows x a1 a2 a3 a4 a5) := by
  unfold State.placeRows
  dsimp only
  refine Kept.andThen State.tileWrite_kept ?_
  exact Kept.refl _

theorem State.wakeCfg_kept {x : State} {a1} : Kept [.serve] x (State.wakeCfg x a1) := by
  unfold State.wakeCfg
  refine Kept.ite ?_ ?_
  · refine Kept.andThen State.setCfg_kept ?_
    exact Kept.refl _
  · exact Kept.refl _

theorem State.returnRows_kept {x : State} {a1} {a2} {a3} {a4} : Kept [.arr, .mem, .serve] x (State.returnRows x a1 a2 a3 a4).1 := by
  unfold State.returnRows
  dsimp only
  split
  · split
    · dsimp only
      refine Kept.andThen State.wakeCfg_kept ?_
      exact Kept.refl _
    · dsimp only
      refine Kept.foldl _ _ ?_ ?_
      · exact Kept.refl _
      · intro _ _
        split
        · refine Kept.andThen State.tileWrite_kept ?_
          exact Kept.refl _
        · exact Kept.refl _
  · exact Kept.refl _

theorem State.placeOne_kept {x : State} {a1} {a2} {a3} {a4} : Kept [.arr, .mem, .serve] x (State.placeOne x a1 a2 a3 a4).1 := by
  unfold State.placeOne
  dsimp only
  split
  · exact Kept.refl _
  · split
    · exact Kept.refl _
    · split
      · dsimp only
        refine Kept.andThen State.wakeCfg_kept ?_
        exact Kept.refl _
      · split
        · split
          · dsimp only
            refine Kept.andThen State.placeOn_kept ?_
            refine Kept.andThen State.placeRows_kept ?_
            exact Kept.refl _
          · dsimp only
            refine Kept.andThen State.placeRows_kept ?_
            exact Kept.refl _
        · split
          · dsimp only
            refine Kept.andThen State.placeOn_kept ?_
            exact Kept.refl _
          · exact Kept.refl _

theorem State.placeSections_kept {x : State} {a1} : Kept [.arr, .mem, .serve] x (State.placeSections x a1) := by
  unfold State.placeSections
  dsimp only
  split
  · exact Kept.refl _
  · refine Kept.ite ?_ ?_
    · refine Kept.andThen State.setColl_kept ?_
      refine Kept.foldl_fst _ _ _ ?_ ?_
      · exact Kept.refl _
      · intro _ _
        refine Kept.foldl_fst _ _ _ ?_ ?_
        · exact Kept.refl _
        · intro _ _
          refine Kept.andThen State.placeOne_kept ?_
          exact Kept.refl _
    · refine Kept.ite ?_ ?_
      · refine Kept.andThen State.setColl_kept ?_
        refine Kept.foldl_fst _ _ _ ?_ ?_
        · exact Kept.refl _
        · intro _ _
          refine Kept.andThen State.returnRows_kept ?_
          exact Kept.refl _
      · exact Kept.refl _

theorem State.takePart_kept {x : State} {a1} {a2} : Kept [.regs, .arr, .mem, .serve] x (State.takePart x a1 a2) := by
  unfold State.takePart
  dsimp only
  split
  · refine Kept.andThen State.rejectSection_kept ?_
    exact Kept.refl _
  · refine Kept.andThen State.collLate_kept ?_
    exact Kept.refl _
  · exact Kept.refl _
  · split
    · refine Kept.andThen State.rejectSection_kept ?_
      exact Kept.refl _
    · refine Kept.ite ?_ ?_
      · refine Kept.andThen State.rejectSection_kept ?_
        exact Kept.refl _
      · refine Kept.andThen State.placeSections_kept ?_
        refine Kept.andThen State.setColl_kept ?_
        exact Kept.refl _

theorem State.takeSection_kept {x : State} {a1} {a2} : Kept [.regs, .arr, .mem, .serve] x (State.takeSection x a1 a2) := by
  unfold State.takeSection
  refine Kept.ite ?_ ?_
  · refine Kept.andThen State.rejectSection_kept ?_
    exact Kept.refl _
  · refine Kept.ite ?_ ?_
    · refine Kept.andThen State.takePart_kept ?_
      exact Kept.refl _
    · dsimp only
      split
      · refine Kept.andThen State.rejectSection_kept ?_
        exact Kept.refl _
      · refine Kept.ite ?_ ?_
        · refine Kept.andThen State.setColl_kept ?_
          exact Kept.refl _
        · refine Kept.ite ?_ ?_
          · refine Kept.andThen State.rejectSection_kept ?_
            exact Kept.refl _
          · refine Kept.andThen State.placeSections_kept ?_
            refine Kept.andThen State.setColl_kept ?_
            exact Kept.refl _

theorem execContextRestoreDone_kept {x : State} {a0} {a1} : KeptR [.regs, .arr, .mem, .serve, .fab, .faults] x (execContextRestoreDone a0 a1 x) := by
  unfold execContextRestoreDone
  dsimp only
  refine KeptR.next ?_
  refine Kept.foldl _ _ ?_ ?_
  · refine Kept.andThen State.restoreDone_kept ?_
    exact Kept.refl _
  · intro _ _
    refine Kept.andThen State.placeSections_kept ?_
    exact Kept.refl _

theorem State.succeedColl_kept {x : State} {a1} : Kept [.arr, .mem, .serve] x (State.succeedColl x a1) := by
  unfold State.succeedColl
  dsimp only
  refine Kept.foldl _ _ ?_ ?_
  · refine Kept.andThen State.setColl_kept ?_
    refine Kept.ite ?_ ?_
    · refine Kept.foldl _ _ ?_ ?_
      · exact Kept.refl _
      · intro _ _
        refine Kept.foldl _ _ ?_ ?_
        · exact Kept.refl _
        · intro _ _
          refine Kept.andThen State.putSlot_kept ?_
          exact Kept.refl _
    · refine Kept.ite ?_ ?_
      · refine Kept.foldl _ _ ?_ ?_
        · exact Kept.refl _
        · intro _ _
          refine Kept.foldl _ _ ?_ ?_
          · exact Kept.refl _
          · intro _ _
            refine Kept.andThen State.putSlot_kept ?_
            exact Kept.refl _
      · exact Kept.refl _
  · intro _ _
    refine Kept.andThen State.placeOn_kept ?_
    exact Kept.refl _

theorem State.startReplay_kept {x : State} {a1} : Kept [.regs, .arr, .mem, .serve, .fab, .out] x (State.startReplay x a1) := by
  unfold State.startReplay
  refine Kept.ite ?_ ?_
  · exact Kept.refl _
  · dsimp only
    refine Kept.andThen State.pushColl_kept ?_
    refine Kept.andThen State.setColl_kept ?_
    refine Kept.andThen State.onStep_kept ?_
    refine Kept.andThen State.bump_kept ?_
    exact Kept.refl _

theorem State.failColl_kept {x : State} {a1} {a2} : Kept [.regs, .arr, .serve, .rings, .out] x (State.failColl x a1 a2) := by
  unfold State.failColl
  dsimp only
  refine Kept.andThen State.notice_kept ?_
  refine Kept.andThen State.bump_kept ?_
  refine Kept.andThen State.instEvent_kept ?_
  refine Kept.andThen State.haltInst_kept ?_
  refine Kept.foldl _ _ ?_ ?_
  · refine Kept.andThen State.failSteps_kept ?_
    refine Kept.andThen State.setColl_kept ?_
    exact Kept.refl _
  · intro _ _
    refine Kept.andThen State.dropConfig_kept ?_
    exact Kept.refl _

theorem State.closeWindow_kept {x : State} {a1} {a2} : Kept [.time, .regs, .arr, .mem, .serve, .fab, .out] x (State.closeWindow x a1 a2) := by
  unfold State.closeWindow
  dsimp only
  split
  · exact Kept.refl _
  · refine Kept.ite ?_ ?_
    · exact Kept.refl _
    · refine Kept.on (State.atTimer_kept ?_) ?_
      · intro _
        refine Kept.ite ?_ ?_
        · refine Kept.andThen State.onColl_kept ?_
          refine Kept.andThen State.succeedColl_kept ?_
          refine Kept.andThen State.setColl_kept ?_
          exact Kept.refl _
        · refine Kept.andThen State.startReplay_kept ?_
          refine Kept.foldl _ _ ?_ ?_
          · refine Kept.andThen State.setColl_kept ?_
            exact Kept.refl _
          · intro _ _
            refine Kept.andThen State.sendTo_kept ?_
            exact Kept.refl _
      · exact Kept.refl _

theorem State.takeReplayReq_kept {x : State} {a1} : Kept [.regs, .arr, .mem, .serve, .fab, .out] x (State.takeReplayReq x a1) := by
  unfold State.takeReplayReq
  dsimp only
  split
  · refine Kept.ite ?_ ?_
    · refine Kept.andThen State.startReplay_kept ?_
      exact Kept.refl _
    · refine Kept.andThen State.bump_kept ?_
      exact Kept.refl _
  · refine Kept.andThen State.bump_kept ?_
    exact Kept.refl _

theorem State.closeReplay_kept {x : State} {a1} {a2} : Kept [.time, .regs, .arr, .mem, .serve, .rings, .out] x (State.closeReplay x a1 a2) := by
  unfold State.closeReplay
  dsimp only
  split
  · exact Kept.refl _
  · refine Kept.ite ?_ ?_
    · exact Kept.refl _
    · refine Kept.on (State.atTimer_kept ?_) ?_
      · intro _
        refine Kept.upd ?_
        refine Kept.ite ?_ ?_
        · exact Kept.refl _
        · refine Kept.ite ?_ ?_
          · refine Kept.andThen State.succeedColl_kept ?_
            exact Kept.refl _
          · refine Kept.andThen State.failColl_kept ?_
            exact Kept.refl _
      · exact Kept.refl _

/-! ### Standby -/

theorem State.savePages_kept {x : State} {a1} : Kept [.mem, .serve] x (State.savePages x a1).2 := by
  unfold State.savePages
  dsimp only
  refine Kept.foldl_snd _ _ _ ?_ ?_
  · exact Kept.refl _
  · intro _ _
    split
    · exact Kept.refl _
    · split
      · dsimp only
        refine Kept.of_snd (by assumption) ?_
        refine Kept.andThen State.allocate_kept ?_
        exact Kept.refl _
      · dsimp only
        refine Kept.of_snd (by assumption) ?_
        refine Kept.andThen State.allocate_kept ?_
        exact Kept.refl _

theorem State.allSavePages_kept {x : State} {l got} : Kept [.mem, .serve] x (x.allSavePages l got).2 := by
  induction l generalizing x got with
  | nil => exact Kept.refl _
  | cons i l ih =>
    have e : x.allSavePages (i :: l) got = (match (x.savePages i).1 with
      | some ps => (x.savePages i).2.allSavePages l (got ++ [(i, ps)])
      | none => (none, got.foldl (fun s g => s.freePoolPages g.1 g.2) (x.savePages i).2)) := by
      delta State.allSavePages
      rfl
    have hp : Kept [.mem, .serve] x (x.savePages i).2 := State.savePages_kept.mono (by decide)
    rw [e]
    split
    · exact Kept.on ih hp
    · exact Kept.foldl _ _ hp fun y a => State.freePoolPages_kept.mono (by decide)

theorem State.signAll_kept {x : State} : Kept [.regs, .mem, .vault, .ledger, .out] x (State.signAll x) := by
  unfold State.signAll
  refine Kept.foldl _ _ ?_ ?_
  · exact Kept.refl _
  · intro _ _
    refine Kept.andThen State.ckptSigned_kept ?_
    exact Kept.refl _

theorem State.enterStandby_kept {x : State} : Kept [.time, .regs, .arr, .mem, .serve, .vault, .fab, .arb, .chans, .rings, .power, .faults, .ledger, .handed, .sec, .svc, .phase, .out] x (State.enterStandby x) := by
  unfold State.enterStandby
  dsimp only
  split
  · refine Kept.andThen State.serviceEvent_kept ?_
    refine Kept.andThen State.setPhase_kept ?_
    refine Kept.of_snd (by assumption) ?_
    refine Kept.andThen State.allSavePages_kept ?_
    refine Kept.foldl _ _ ?_ ?_
    · refine Kept.andThen State.abandonAll_kept ?_
      refine Kept.andThen State.setPhase_kept ?_
      exact Kept.refl _
    · intro _ _
      refine Kept.andThen State.evictCfg_kept ?_
      exact Kept.refl _
  · refine Kept.upd ?_
    refine Kept.andThen State.setPhase_kept ?_
    refine Kept.andThen State.supplyLess_kept ?_
    refine Kept.andThen State.flushJournal_kept ?_
    refine Kept.andThen State.signAll_kept ?_
    refine Kept.andThen State.lastCheckpoint_kept ?_
    refine Kept.of_snd (by assumption) ?_
    refine Kept.andThen State.allSavePages_kept ?_
    refine Kept.foldl _ _ ?_ ?_
    · refine Kept.andThen State.abandonAll_kept ?_
      refine Kept.andThen State.setPhase_kept ?_
      exact Kept.refl _
    · intro _ _
      refine Kept.andThen State.evictCfg_kept ?_
      exact Kept.refl _

theorem State.sweepPage_kept {x : State} {a1} {a2} : Kept [.mem, .serve] x (State.sweepPage x a1 a2) := by
  unfold State.sweepPage
  dsimp only
  refine Kept.ite ?_ ?_
  · refine Kept.andThen State.zeroAt_kept ?_
    exact Kept.refl _
  · refine Kept.andThen State.freePoolPages_kept ?_
    split
    · refine Kept.andThen State.setInst_kept ?_
      exact Kept.refl _
    · exact Kept.refl _

theorem State.restoreInst_kept {x : State} {a1} {a2} : Kept [.mem, .serve, .vault, .handed] x (State.restoreInst x a1 a2) := by
  unfold State.restoreInst
  dsimp only
  refine Kept.andThen State.hand_kept ?_
  refine Kept.andThen State.setInst_kept ?_
  refine Kept.andThen State.freePoolPages_kept ?_
  refine Kept.foldl _ _ ?_ ?_
  · refine Kept.foldl _ _ ?_ ?_
    · split
      · refine Kept.andThen State.bind_kept ?_
        refine Kept.upd ?_
        refine Kept.andThen State.storeAt_kept ?_
        refine Kept.andThen State.setInst_kept ?_
        exact Kept.refl _
      · refine Kept.upd ?_
        refine Kept.andThen State.storeAt_kept ?_
        refine Kept.andThen State.setInst_kept ?_
        exact Kept.refl _
    · intro _ _
      refine Kept.andThen State.bind_kept ?_
      exact Kept.refl _
  · intro _ _
    refine Kept.andThen State.sweepPage_kept ?_
    exact Kept.refl _

theorem State.restoreAll_kept {x : State} {a1} {a2} : Kept [.mem, .serve, .vault, .handed] x (State.restoreAll x a1 a2) := by
  unfold State.restoreAll
  dsimp only
  split
  · refine Kept.ite ?_ ?_
    · refine Kept.andThen State.setMem_kept ?_
      refine Kept.upd ?_
      refine Kept.foldl _ _ ?_ ?_
      · exact Kept.refl _
      · intro _ _
        refine Kept.ite ?_ ?_
        · refine Kept.andThen State.restoreInst_kept ?_
          exact Kept.refl _
        · refine Kept.andThen State.setMem_kept ?_
          exact Kept.refl _
    · refine Kept.foldl _ _ ?_ ?_
      · exact Kept.refl _
      · intro _ _
        refine Kept.ite ?_ ?_
        · refine Kept.andThen State.restoreInst_kept ?_
          exact Kept.refl _
        · refine Kept.andThen State.setMem_kept ?_
          exact Kept.refl _
  · refine Kept.foldl _ _ ?_ ?_
    · exact Kept.refl _
    · intro _ _
      refine Kept.ite ?_ ?_
      · refine Kept.andThen State.restoreInst_kept ?_
        exact Kept.refl _
      · refine Kept.andThen State.setMem_kept ?_
        exact Kept.refl _

theorem State.discardRetained_kept {x : State} : Kept [.regs, .mem, .rings, .svc, .out] x (State.discardRetained x) := by
  unfold State.discardRetained
  dsimp only
  refine Kept.andThen State.serviceEvent_kept ?_
  refine Kept.upd ?_
  refine Kept.andThen State.setMem_kept ?_
  exact Kept.refl _

theorem State.resumeModule_kept {x : State} {a1} {a2} : Kept [.time, .regs, .arr, .mem, .serve, .vault, .fab, .rings, .faults, .ledger, .handed, .sec, .svc, .phase, .out] x (State.resumeModule x a1 a2) := by
  unfold State.resumeModule
  dsimp only
  refine Kept.ite ?_ ?_
  · refine Kept.andThen State.setMem_kept ?_
    refine Kept.andThen State.start_kept ?_
    refine Kept.andThen State.latchCause_kept ?_
    exact Kept.refl _
  · split
    · refine Kept.andThen State.serviceEvent_kept ?_
      refine Kept.upd ?_
      refine Kept.andThen State.restoreAll_kept ?_
      refine Kept.andThen State.start_kept ?_
      refine Kept.andThen State.latchCause_kept ?_
      exact Kept.refl _
    · refine Kept.andThen State.discardRetained_kept ?_
      refine Kept.andThen State.start_kept ?_
      refine Kept.andThen State.latchCause_kept ?_
      exact Kept.refl _

theorem State.removeModule_kept {x : State} : Kept [.time, .regs, .arr, .mem, .serve, .vault, .fab, .arb, .chans, .rings, .power, .faults, .ledger, .handed, .sec, .svc, .phase, .out] x (State.removeModule x) := by
  unfold State.removeModule
  refine Kept.ite ?_ ?_
  · dsimp only
    refine Kept.andThen State.setPhase_kept ?_
    refine Kept.andThen State.latchCause_kept ?_
    refine Kept.andThen State.supplyLess_kept ?_
    refine Kept.andThen State.emits_kept ?_
    refine Kept.andThen State.flushJournal_kept ?_
    refine Kept.andThen State.signAll_kept ?_
    refine Kept.andThen State.lastCheckpoint_kept ?_
    refine Kept.andThen State.flushJournal_kept ?_
    refine Kept.foldl _ _ ?_ ?_
    · refine Kept.andThen State.abandonAll_kept ?_
      exact Kept.refl _
    · intro _ _
      refine Kept.andThen State.programmed_kept ?_
      exact Kept.refl _
  · refine Kept.andThen State.setPhase_kept ?_
    refine Kept.andThen State.latchCause_kept ?_
    exact Kept.refl _

theorem State.dropOrigin_kept {x : State} {a1} : Kept [.mem, .serve, .vault] x (State.dropOrigin x a1) := by
  unfold State.dropOrigin
  refine Kept.foldl _ _ ?_ ?_
  · exact Kept.refl _
  · intro _ _
    refine Kept.foldl _ _ ?_ ?_
    · exact Kept.refl _
    · intro _ _
      refine Kept.andThen State.dropSeq_kept ?_
      exact Kept.refl _

theorem State.resetFn_kept {x : State} {a1} : Kept [.regs, .arr, .mem, .serve, .vault, .fab, .chans, .rings, .faults, .handed, .out] x (State.resetFn x a1) := by
  unfold State.resetFn
  dsimp only
  refine Kept.andThen State.retryLoads_kept ?_
  refine Kept.andThen State.dropOrigin_kept ?_
  refine Kept.upd ?_
  exact Kept.refl _

theorem State.levelReset_kept {x : State} {a1} : Kept [.regs, .arr, .mem, .serve, .vault, .fab, .chans, .rings, .faults, .handed, .out] x (State.levelReset x a1) := by
  unfold State.levelReset
  dsimp only
  refine Kept.andThen State.hand_kept ?_
  refine Kept.ite ?_ ?_
  · refine Kept.foldl _ _ ?_ ?_
    · exact Kept.refl _
    · intro _ _
      refine Kept.andThen State.resetFn_kept ?_
      exact Kept.refl _
  · refine Kept.andThen State.resetFn_kept ?_
    exact Kept.refl _

theorem execFunctionLevelReset_kept {x : State} {a0} : KeptR [.regs, .arr, .mem, .serve, .vault, .fab, .chans, .rings, .faults, .handed, .out] x (execFunctionLevelReset a0 x) := by
  unfold execFunctionLevelReset
  refine KeptR.next ?_
  refine Kept.ite ?_ ?_
  · refine Kept.andThen State.levelReset_kept ?_
    exact Kept.refl _
  · exact Kept.refl _

theorem execPerst_kept {x : State} : KeptR [.regs, .arr, .mem, .serve, .vault, .fab, .chans, .rings, .faults, .handed, .out] x (execPerst x) := by
  unfold execPerst
  refine KeptR.next ?_
  refine Kept.ite ?_ ?_
  · refine Kept.andThen State.levelReset_kept ?_
    exact Kept.refl _
  · exact Kept.refl _

theorem execDmaBusError_kept {x : State} {a0} {a1} : KeptR [.regs, .arr, .mem, .vault, .chans, .rings, .handed, .out, .free] x (execDmaBusError a0 a1 x) := by
  unfold execDmaBusError
  refine KeptR.next ?_
  refine Kept.andThen State.busErrorInstall_kept ?_
  refine Kept.andThen State.busErrorOn_kept ?_
  exact Kept.refl _

/-! ### RegWrite -/

theorem State.refuseWrite_kept {x : State} {a1} {a2} : Kept [.regs, .handed, .svc] x (State.refuseWrite x a1 a2) := by
  unfold State.refuseWrite
  dsimp only
  refine Kept.ite ?_ ?_
  · refine Kept.ite ?_ ?_
    · refine Kept.andThen State.bump_kept ?_
      refine Kept.andThen State.setReg_kept ?_
      refine Kept.andThen State.setReg_kept ?_
      exact Kept.refl _
    · refine Kept.ite ?_ ?_
      · refine Kept.andThen State.bump_kept ?_
        refine Kept.andThen State.setReg_kept ?_
        refine Kept.andThen State.setReg_kept ?_
        exact Kept.refl _
      · refine Kept.andThen State.handCq_kept ?_
        refine Kept.andThen State.bump_kept ?_
        refine Kept.andThen State.setReg_kept ?_
        refine Kept.andThen State.setReg_kept ?_
        exact Kept.refl _
  · refine Kept.upd ?_
    exact Kept.refl _

theorem State.svcEffect_kept {x : State} {a1} {a2} : Kept [.time, .regs, .arr, .mem, .serve, .vault, .fab, .arb, .chans, .rings, .power, .faults, .ledger, .handed, .sec, .svc, .phase, .out] x (State.svcEffect x a1 a2) := by
  unfold State.svcEffect
  split
  · refine Kept.andThen State.enterStandby_kept ?_
    exact Kept.refl _
  · refine Kept.andThen State.resumeModule_kept ?_
    exact Kept.refl _
  · refine Kept.andThen State.removeModule_kept ?_
    exact Kept.refl _
  · refine Kept.andThen State.resetModule_kept ?_
    exact Kept.refl _
  · exact Kept.refl _

theorem State.keepBits_kept {x : State} {a1} {a2} {a3} : Kept [.regs] x (State.keepBits x a1 a2 a3) := by
  unfold State.keepBits
  refine Kept.andThen State.setReg_kept ?_
  exact Kept.refl _

theorem State.ringEffect_kept {x : State} {a1} {a2} {a3} : Kept [.rings] x (State.ringEffect x a1 a2 a3) := by
  unfold State.ringEffect
  dsimp only
  refine Kept.ite ?_ ?_
  · refine Kept.andThen State.setRing_kept ?_
    exact Kept.refl _
  · refine Kept.ite ?_ ?_
    · refine Kept.andThen State.setRing_kept ?_
      exact Kept.refl _
    · refine Kept.ite ?_ ?_
      · refine Kept.andThen State.writeRingCfg_kept ?_
        exact Kept.refl _
      · refine Kept.ite ?_ ?_
        · refine Kept.andThen State.setRing_kept ?_
          exact Kept.refl _
        · refine Kept.andThen State.setRing_kept ?_
          exact Kept.refl _

theorem State.chanEffect_kept {x : State} {a1} {a2} {a3} {a4} : Kept [.chans, .rings, .out] x (State.chanEffect x a1 a2 a3 a4) := by
  unfold State.chanEffect
  dsimp only
  refine Kept.ite ?_ ?_
  · refine Kept.andThen State.setChan_kept ?_
    exact Kept.refl _
  · refine Kept.ite ?_ ?_
    · refine Kept.andThen State.setChan_kept ?_
      exact Kept.refl _
    · refine Kept.ite ?_ ?_
      · split
        · refine Kept.ite ?_ ?_
          · refine Kept.andThen State.fetchDesc_kept ?_
            refine Kept.andThen State.writeChanCtrl_kept ?_
            exact Kept.refl _
          · refine Kept.andThen State.writeChanCtrl_kept ?_
            exact Kept.refl _
        · refine Kept.andThen State.writeChanCtrl_kept ?_
          exact Kept.refl _
      · refine Kept.andThen State.setChan_kept ?_
        exact Kept.refl _

theorem State.timeEffect_kept {x : State} {a1} {a2} : Kept [.time, .regs, .serve, .fab, .rings, .handed, .out] x (State.timeEffect x a1 a2) := by
  unfold State.timeEffect
  refine Kept.ite ?_ ?_
  · refine Kept.andThen State.writeRole_kept ?_
    exact Kept.refl _
  · refine Kept.ite ?_ ?_
    · refine Kept.andThen State.keepBits_kept ?_
      exact Kept.refl _
    · refine Kept.ite ?_ ?_
      · refine Kept.andThen State.keepBits_kept ?_
        exact Kept.refl _
      · refine Kept.ite ?_ ?_
        · refine Kept.andThen State.writePeriod_kept ?_
          exact Kept.refl _
        · refine Kept.andThen State.writeTakeover_kept ?_
          exact Kept.refl _

theorem State.thaxaEffect_kept {x : State} {a1} {a2} : Kept [.serve, .vault, .fab, .faults, .out] x (State.thaxaEffect x a1 a2) := by
  unfold State.thaxaEffect
  refine Kept.ite ?_ ?_
  · refine Kept.andThen State.writeCoord_kept ?_
    exact Kept.refl _
  · refine Kept.ite ?_ ?_
    · refine Kept.andThen State.writeAdmit_kept ?_
      exact Kept.refl _
    · refine Kept.ite ?_ ?_
      · refine Kept.andThen State.setFab_kept ?_
        exact Kept.refl _
      · refine Kept.ite ?_ ?_
        · refine Kept.andThen State.setFab_kept ?_
          exact Kept.refl _
        · refine Kept.ite ?_ ?_
          · refine Kept.andThen State.writeThaxaCommit_kept ?_
            exact Kept.refl _
          · refine Kept.ite ?_ ?_
            · refine Kept.andThen State.writePortCfg_kept ?_
              exact Kept.refl _
            · refine Kept.andThen State.writePortFenceClear_kept ?_
              exact Kept.refl _

theorem State.powerEffect_kept {x : State} {a1} {a2} : Kept [.time, .regs, .rings, .power, .handed, .out] x (State.powerEffect x a1 a2) := by
  unfold State.powerEffect
  refine Kept.ite ?_ ?_
  · refine Kept.andThen State.writeCap_kept ?_
    exact Kept.refl _
  · refine Kept.ite ?_ ?_
    · refine Kept.andThen State.keepBits_kept ?_
      exact Kept.refl _
    · refine Kept.ite ?_ ?_
      · refine Kept.andThen State.writeRenew_kept ?_
        exact Kept.refl _
      · refine Kept.ite ?_ ?_
        · refine Kept.andThen State.keepBits_kept ?_
          exact Kept.refl _
        · refine Kept.ite ?_ ?_
          · refine Kept.andThen State.keepBits_kept ?_
            exact Kept.refl _
          · refine Kept.ite ?_ ?_
            · refine Kept.andThen State.writeSteelCfg_kept ?_
              exact Kept.refl _
            · refine Kept.ite ?_ ?_
              · refine Kept.andThen State.keepBits_kept ?_
                exact Kept.refl _
              · refine Kept.ite ?_ ?_
                · refine Kept.andThen State.keepBits_kept ?_
                  exact Kept.refl _
                · refine Kept.andThen State.keepBits_kept ?_
                  exact Kept.refl _

theorem State.regEffect_kept {x : State} {a1} {a2} {a3} {a4} : Kept [.time, .regs, .arr, .mem, .serve, .vault, .fab, .arb, .chans, .rings, .power, .faults, .ledger, .handed, .sec, .svc, .phase, .out] x (State.regEffect x a1 a2 a3 a4) := by
  unfold State.regEffect
  dsimp only
  refine Kept.ite ?_ ?_
  · refine Kept.ite ?_ ?_
    · refine Kept.ite ?_ ?_
      · refine Kept.andThen State.setLock_kept ?_
        exact Kept.refl _
      · exact Kept.refl _
    · refine Kept.ite ?_ ?_
      · refine Kept.ite ?_ ?_
        · refine Kept.andThen State.setReg_kept ?_
          exact Kept.refl _
        · exact Kept.refl _
      · refine Kept.andThen State.setLk_kept ?_
        exact Kept.refl _
  · refine Kept.ite ?_ ?_
    · refine Kept.andThen State.timeEffect_kept ?_
      exact Kept.refl _
    · refine Kept.ite ?_ ?_
      · refine Kept.andThen State.thaxaEffect_kept ?_
        exact Kept.refl _
      · refine Kept.ite ?_ ?_
        · refine Kept.andThen State.powerEffect_kept ?_
          exact Kept.refl _
        · refine Kept.ite ?_ ?_
          · refine Kept.ite ?_ ?_
            · refine Kept.andThen State.writeArbShadow_kept ?_
              exact Kept.refl _
            · refine Kept.ite ?_ ?_
              · refine Kept.andThen State.writeArbCommit_kept ?_
                exact Kept.refl _
              · exact Kept.refl _
          · refine Kept.ite ?_ ?_
            · refine Kept.ite ?_ ?_
              · refine Kept.andThen State.routesOpen_kept ?_
                refine Kept.andThen State.writeFaultClear_kept ?_
                exact Kept.refl _
              · refine Kept.ite ?_ ?_
                · refine Kept.andThen State.keepBits_kept ?_
                  exact Kept.refl _
                · refine Kept.andThen State.writeProveRequest_kept ?_
                  exact Kept.refl _
            · refine Kept.ite ?_ ?_
              · refine Kept.ite ?_ ?_
                · refine Kept.andThen State.writeAck_kept ?_
                  exact Kept.refl _
                · refine Kept.ite ?_ ?_
                  · refine Kept.andThen State.writeLedgerCfg_kept ?_
                    exact Kept.refl _
                  · refine Kept.andThen State.writeSvnCommit_kept ?_
                    exact Kept.refl _
              · refine Kept.ite ?_ ?_
                · refine Kept.andThen State.svcEffect_kept ?_
                  exact Kept.refl _
                · refine Kept.ite ?_ ?_
                  · refine Kept.ite ?_ ?_
                    · refine Kept.andThen State.chanEffect_kept ?_
                      exact Kept.refl _
                    · refine Kept.andThen State.writeDmaError_kept ?_
                      exact Kept.refl _
                  · refine Kept.ite ?_ ?_
                    · refine Kept.ite ?_ ?_
                      · refine Kept.andThen State.setLk_kept ?_
                        exact Kept.refl _
                      · refine Kept.andThen State.writeFenceClear_kept ?_
                        exact Kept.refl _
                    · refine Kept.andThen State.ringEffect_kept ?_
                      exact Kept.refl _

theorem State.recordWrite_kept {x : State} {a1} {a2} {a3} {a4} {a5} {a6} : Kept [.handed] x (State.recordWrite x a1 a2 a3 a4 a5 a6) := by
  unfold State.recordWrite
  refine Kept.ite ?_ ?_
  · exact Kept.refl _
  · refine Kept.ite ?_ ?_
    · refine Kept.andThen State.hand_kept ?_
      exact Kept.refl _
    · refine Kept.ite ?_ ?_
      · refine Kept.andThen State.hand_kept ?_
        exact Kept.refl _
      · refine Kept.andThen State.regRecord_kept ?_
        exact Kept.refl _

theorem State.acceptWrite_kept {x : State} {a1} {a2} {a3} : Kept [.time, .regs, .arr, .mem, .serve, .vault, .fab, .arb, .chans, .rings, .power, .faults, .ledger, .handed, .sec, .svc, .phase, .out] x (State.acceptWrite x a1 a2 a3) := by
  unfold State.acceptWrite
  dsimp only
  refine Kept.andThen State.regEffect_kept ?_
  refine Kept.andThen State.recordWrite_kept ?_
  exact Kept.refl _

theorem State.judge_kept {x : State} {a1} {a2} : Kept [.time, .regs, .arr, .mem, .serve, .vault, .fab, .arb, .chans, .rings, .power, .faults, .ledger, .handed, .sec, .svc, .phase, .out] x (State.judge x a1 a2) := by
  unfold State.judge
  split
  · refine Kept.andThen State.acceptWrite_kept ?_
    exact Kept.refl _
  · refine Kept.andThen State.refuseWrite_kept ?_
    exact Kept.refl _

theorem State.write_kept {x : State} {a1} {a2} : Kept [.time, .regs, .arr, .mem, .serve, .vault, .fab, .arb, .chans, .rings, .power, .faults, .ledger, .handed, .sec, .svc, .phase, .out] x (State.write x a1 a2) := by
  unfold State.write
  refine Kept.ite ?_ ?_
  · exact Kept.refl _
  · refine Kept.ite ?_ ?_
    · refine Kept.andThen State.refuseWrite_kept ?_
      exact Kept.refl _
    · refine Kept.andThen State.judge_kept ?_
      exact Kept.refl _

theorem State.rowWrite_kept {x : State} {a1} {a2} {a3} : Kept [.time, .regs, .arr, .mem, .serve, .vault, .fab, .arb, .chans, .rings, .power, .faults, .ledger, .handed, .sec, .platform, .svc, .phase, .out] x (State.rowWrite x a1 a2 a3) := by
  unfold State.rowWrite
  refine Kept.on (State.watched_kept ?_) ?_
  · intro _
    refine Kept.andThen State.write_kept ?_
    exact Kept.refl _
  · exact Kept.refl _

theorem execBeatRole_kept {x : State} {a0} : KeptR [.time, .regs, .arr, .mem, .serve, .vault, .fab, .arb, .chans, .rings, .power, .faults, .ledger, .handed, .sec, .platform, .svc, .phase, .out] x (execBeatRole a0 x) := by
  unfold execBeatRole
  refine KeptR.next ?_
  refine Kept.andThen State.rowWrite_kept ?_
  exact Kept.refl _

theorem execBeatPeriod_kept {x : State} {a0} : KeptR [.time, .regs, .arr, .mem, .serve, .vault, .fab, .arb, .chans, .rings, .power, .faults, .ledger, .handed, .sec, .platform, .svc, .phase, .out] x (execBeatPeriod a0 x) := by
  unfold execBeatPeriod
  refine KeptR.next ?_
  refine Kept.andThen State.rowWrite_kept ?_
  exact Kept.refl _

theorem State.takeover_kept {x : State} {a1} {a2} {a3} : Kept [.time, .regs, .arr, .mem, .serve, .vault, .fab, .arb, .chans, .rings, .power, .faults, .ledger, .handed, .sec, .platform, .svc, .phase, .out] x (State.takeover x a1 a2 a3) := by
  unfold State.takeover
  refine Kept.on (State.watched_kept ?_) ?_
  · intro _
    refine Kept.andThen State.write_kept ?_
    exact Kept.refl _
  · exact Kept.refl _

theorem execTakeoverMaster_kept {x : State} {a0} {a1} : KeptR [.time, .regs, .arr, .mem, .serve, .vault, .fab, .arb, .chans, .rings, .power, .faults, .ledger, .handed, .sec, .platform, .svc, .phase, .out] x (execTakeoverMaster a0 a1 x) := by
  unfold execTakeoverMaster
  refine KeptR.next ?_
  refine Kept.andThen State.takeover_kept ?_
  exact Kept.refl _

theorem execTakeoverRelinquish_kept {x : State} {a0} {a1} : KeptR [.time, .regs, .arr, .mem, .serve, .vault, .fab, .arb, .chans, .rings, .power, .faults, .ledger, .handed, .sec, .platform, .svc, .phase, .out] x (execTakeoverRelinquish a0 a1 x) := by
  unfold execTakeoverRelinquish
  refine KeptR.next ?_
  refine Kept.andThen State.takeover_kept ?_
  exact Kept.refl _

theorem execPortCfg_kept {x : State} {a0} {a1} : KeptR [.time, .regs, .arr, .mem, .serve, .vault, .fab, .arb, .chans, .rings, .power, .faults, .ledger, .handed, .sec, .platform, .svc, .phase, .out] x (execPortCfg a0 a1 x) := by
  unfold execPortCfg
  refine KeptR.next ?_
  refine Kept.andThen State.rowWrite_kept ?_
  exact Kept.refl _

theorem execCoord_kept {x : State} {a0} : KeptR [.time, .regs, .arr, .mem, .serve, .vault, .fab, .arb, .chans, .rings, .power, .faults, .ledger, .handed, .sec, .platform, .svc, .phase, .out] x (execCoord a0 x) := by
  unfold execCoord
  refine KeptR.next ?_
  refine Kept.andThen State.rowWrite_kept ?_
  exact Kept.refl _

theorem execFabricAdmit_kept {x : State} {a0} : KeptR [.time, .regs, .arr, .mem, .serve, .vault, .fab, .arb, .chans, .rings, .power, .faults, .ledger, .handed, .sec, .platform, .svc, .phase, .out] x (execFabricAdmit a0 x) := by
  unfold execFabricAdmit
  refine KeptR.next ?_
  refine Kept.andThen State.rowWrite_kept ?_
  exact Kept.refl _

theorem execThaxaCommit_kept {x : State} {a0} : KeptR [.time, .regs, .arr, .mem, .serve, .vault, .fab, .arb, .chans, .rings, .power, .faults, .ledger, .handed, .sec, .platform, .svc, .phase, .out] x (execThaxaCommit a0 x) := by
  unfold execThaxaCommit
  refine KeptR.next ?_
  refine Kept.andThen State.rowWrite_kept ?_
  exact Kept.refl _

theorem execPortFenceClear_kept {x : State} {a0} {a1} : KeptR [.time, .regs, .arr, .mem, .serve, .vault, .fab, .arb, .chans, .rings, .power, .faults, .ledger, .handed, .sec, .platform, .svc, .phase, .out] x (execPortFenceClear a0 a1 x) := by
  unfold execPortFenceClear
  refine KeptR.next ?_
  refine Kept.andThen State.rowWrite_kept ?_
  exact Kept.refl _

theorem execArbCommit_kept {x : State} {a0} : KeptR [.time, .regs, .arr, .mem, .serve, .vault, .fab, .arb, .chans, .rings, .power, .faults, .ledger, .handed, .sec, .platform, .svc, .phase, .out] x (execArbCommit a0 x) := by
  unfold execArbCommit
  refine KeptR.next ?_
  refine Kept.andThen State.rowWrite_kept ?_
  exact Kept.refl _

theorem execRingEnable_kept {x : State} {a0} {a1} : KeptR [.time, .regs, .arr, .mem, .serve, .vault, .fab, .arb, .chans, .rings, .power, .faults, .ledger, .handed, .sec, .platform, .svc, .phase, .out] x (execRingEnable a0 a1 x) := by
  unfold execRingEnable
  refine KeptR.next ?_
  refine Kept.andThen State.rowWrite_kept ?_
  exact Kept.refl _

theorem execRingDisable_kept {x : State} {a0} {a1} : KeptR [.time, .regs, .arr, .mem, .serve, .vault, .fab, .arb, .chans, .rings, .power, .faults, .ledger, .handed, .sec, .platform, .svc, .phase, .out] x (execRingDisable a0 a1 x) := by
  unfold execRingDisable
  refine KeptR.next ?_
  refine Kept.on (State.watched_kept ?_) ?_
  · intro _
    refine Kept.andThen State.write_kept ?_
    exact Kept.refl _
  · exact Kept.refl _

theorem execChanStart_kept {x : State} {a0} {a1} {a2} : KeptR [.time, .regs, .arr, .mem, .serve, .vault, .fab, .arb, .chans, .rings, .power, .faults, .ledger, .handed, .sec, .platform, .svc, .phase, .out] x (execChanStart a0 a1 a2 x) := by
  unfold execChanStart
  refine KeptR.next ?_
  refine Kept.on (State.watched_kept ?_) ?_
  · intro _
    refine Kept.andThen State.write_kept ?_
    exact Kept.refl _
  · exact Kept.refl _

theorem execChanStop_kept {x : State} {a0} {a1} : KeptR [.time, .regs, .arr, .mem, .serve, .vault, .fab, .arb, .chans, .rings, .power, .faults, .ledger, .handed, .sec, .platform, .svc, .phase, .out] x (execChanStop a0 a1 x) := by
  unfold execChanStop
  refine KeptR.next ?_
  refine Kept.andThen State.rowWrite_kept ?_
  exact Kept.refl _

theorem execBusErrorClear_kept {x : State} {a0} : KeptR [.time, .regs, .arr, .mem, .serve, .vault, .fab, .arb, .chans, .rings, .power, .faults, .ledger, .handed, .sec, .platform, .svc, .phase, .out] x (execBusErrorClear a0 x) := by
  unfold execBusErrorClear
  refine KeptR.next ?_
  refine Kept.andThen State.rowWrite_kept ?_
  exact Kept.refl _

theorem execCap_kept {x : State} {a0} : KeptR [.time, .regs, .arr, .mem, .serve, .vault, .fab, .arb, .chans, .rings, .power, .faults, .ledger, .handed, .sec, .platform, .svc, .phase, .out] x (execCap a0 x) := by
  unfold execCap
  refine KeptR.next ?_
  refine Kept.andThen State.rowWrite_kept ?_
  exact Kept.refl _

theorem execCapRenew_kept {x : State} {a0} : KeptR [.time, .regs, .arr, .mem, .serve, .vault, .fab, .arb, .chans, .rings, .power, .faults, .ledger, .handed, .sec, .platform, .svc, .phase, .out] x (execCapRenew a0 x) := by
  unfold execCapRenew
  refine KeptR.next ?_
  refine Kept.andThen State.rowWrite_kept ?_
  exact Kept.refl _

theorem execSteelyardCfg_kept {x : State} {a0} : KeptR [.time, .regs, .arr, .mem, .serve, .vault, .fab, .arb, .chans, .rings, .power, .faults, .ledger, .handed, .sec, .platform, .svc, .phase, .out] x (execSteelyardCfg a0 x) := by
  unfold execSteelyardCfg
  refine KeptR.next ?_
  refine Kept.andThen State.rowWrite_kept ?_
  exact Kept.refl _

theorem execProveRequest_kept {x : State} {a0} : KeptR [.time, .regs, .arr, .mem, .serve, .vault, .fab, .arb, .chans, .rings, .power, .faults, .ledger, .handed, .sec, .platform, .svc, .phase, .out] x (execProveRequest a0 x) := by
  unfold execProveRequest
  refine KeptR.next ?_
  refine Kept.andThen State.rowWrite_kept ?_
  exact Kept.refl _

theorem execFaultClear_kept {x : State} {a0} : KeptR [.time, .regs, .arr, .mem, .serve, .vault, .fab, .arb, .chans, .rings, .power, .faults, .ledger, .handed, .sec, .platform, .svc, .phase, .out] x (execFaultClear a0 x) := by
  unfold execFaultClear
  refine KeptR.next ?_
  refine Kept.andThen State.rowWrite_kept ?_
  exact Kept.refl _

theorem execFenceClear_kept {x : State} {a0} {a1} : KeptR [.time, .regs, .arr, .mem, .serve, .vault, .fab, .arb, .chans, .rings, .power, .faults, .ledger, .handed, .sec, .platform, .svc, .phase, .out] x (execFenceClear a0 a1 x) := by
  unfold execFenceClear
  refine KeptR.next ?_
  refine Kept.andThen State.rowWrite_kept ?_
  exact Kept.refl _

theorem execLedgerAck_kept {x : State} {a0} : KeptR [.time, .regs, .arr, .mem, .serve, .vault, .fab, .arb, .chans, .rings, .power, .faults, .ledger, .handed, .sec, .platform, .svc, .phase, .out] x (execLedgerAck a0 x) := by
  unfold execLedgerAck
  refine KeptR.next ?_
  refine Kept.andThen State.rowWrite_kept ?_
  exact Kept.refl _

theorem execLedgerCfg_kept {x : State} {a0} : KeptR [.time, .regs, .arr, .mem, .serve, .vault, .fab, .arb, .chans, .rings, .power, .faults, .ledger, .handed, .sec, .platform, .svc, .phase, .out] x (execLedgerCfg a0 x) := by
  unfold execLedgerCfg
  refine KeptR.next ?_
  refine Kept.andThen State.rowWrite_kept ?_
  exact Kept.refl _

theorem execFwSvnCommit_kept {x : State} {a0} : KeptR [.time, .regs, .arr, .mem, .serve, .vault, .fab, .arb, .chans, .rings, .power, .faults, .ledger, .handed, .sec, .platform, .svc, .phase, .out] x (execFwSvnCommit a0 x) := by
  unfold execFwSvnCommit
  refine KeptR.next ?_
  refine Kept.andThen State.rowWrite_kept ?_
  exact Kept.refl _

theorem execSetupLock_kept {x : State} {a0} : KeptR [.time, .regs, .arr, .mem, .serve, .vault, .fab, .arb, .chans, .rings, .power, .faults, .ledger, .handed, .sec, .platform, .svc, .phase, .out] x (execSetupLock a0 x) := by
  unfold execSetupLock
  refine KeptR.next ?_
  refine Kept.andThen State.rowWrite_kept ?_
  exact Kept.refl _

theorem execRegisterWrite_kept {x : State} {a0} {a1} {a2} {a3} : KeptR [.time, .regs, .arr, .mem, .serve, .vault, .fab, .arb, .chans, .rings, .power, .faults, .ledger, .handed, .sec, .platform, .svc, .phase, .out] x (execRegisterWrite a0 a1 a2 a3 x) := by
  unfold execRegisterWrite
  refine KeptR.next ?_
  refine Kept.on (State.watched_kept ?_) ?_
  · intro _
    refine Kept.andThen State.write_kept ?_
    exact Kept.refl _
  · exact Kept.refl _

theorem execStandby_kept {x : State} {a0} : KeptR [.time, .regs, .arr, .mem, .serve, .vault, .fab, .arb, .chans, .rings, .power, .faults, .ledger, .handed, .sec, .platform, .svc, .phase, .out] x (execStandby a0 x) := by
  unfold execStandby
  refine KeptR.next ?_
  refine Kept.andThen State.rowWrite_kept ?_
  exact Kept.refl _

theorem execResume_kept {x : State} {a0} {a1} {a2} : KeptR [.time, .regs, .arr, .mem, .serve, .vault, .fab, .arb, .chans, .rings, .power, .faults, .ledger, .handed, .sec, .platform, .svc, .phase, .out] x (execResume a0 a1 a2 x) := by
  unfold execResume
  refine KeptR.next ?_
  refine Kept.on (State.watched_kept ?_) ?_
  · intro _
    refine Kept.andThen State.write_kept ?_
    exact Kept.refl _
  · exact Kept.refl _

theorem execPrepareRemove_kept {x : State} {a0} : KeptR [.time, .regs, .arr, .mem, .serve, .vault, .fab, .arb, .chans, .rings, .power, .faults, .ledger, .handed, .sec, .platform, .svc, .phase, .out] x (execPrepareRemove a0 x) := by
  unfold execPrepareRemove
  refine KeptR.next ?_
  refine Kept.andThen State.rowWrite_kept ?_
  exact Kept.refl _

theorem execSvcReset_kept {x : State} {a0} {a1} : KeptR [.time, .regs, .arr, .mem, .serve, .vault, .fab, .arb, .chans, .rings, .power, .faults, .ledger, .handed, .sec, .platform, .svc, .phase, .out] x (execSvcReset a0 a1 x) := by
  unfold execSvcReset
  refine KeptR.next ?_
  refine Kept.on (State.watched_kept ?_) ?_
  · intro _
    refine Kept.andThen State.write_kept ?_
    exact Kept.refl _
  · exact Kept.refl _

theorem State.readOn_kept {x : State} {a1} {a2} {a3} {a4} : Kept [.time] x (State.readOn x a1 a2 a3 a4).1 := by
  unfold State.readOn
  dsimp only
  refine Kept.ite ?_ ?_
  · refine Kept.andThen State.latchTime_kept ?_
    exact Kept.refl _
  · exact Kept.refl _

theorem execRegAddr_kept {x : State} {a0} {a1} : KeptR [.svc] x (execRegAddr a0 a1 x) := by
  unfold execRegAddr
  refine KeptR.next ?_
  refine Kept.ite ?_ ?_
  · refine Kept.upd ?_
    exact Kept.refl _
  · exact Kept.refl _

theorem State.cccRead_kept {x : State} : Kept [.time, .out] x (State.cccRead x) := by
  unfold State.cccRead
  dsimp only
  split
  · refine Kept.ite ?_ ?_
    · refine Kept.andThen State.emit_kept ?_
      refine Kept.andThen State.readOn_kept ?_
      exact Kept.refl _
    · exact Kept.refl _
  · exact Kept.refl _

theorem execRegRead_kept {x : State} : KeptR [.time, .out] x (execRegRead x) := by
  unfold execRegRead
  refine KeptR.next ?_
  refine Kept.andThen State.cccRead_kept ?_
  exact Kept.refl _

theorem State.fmWrite_kept {x : State} {a1} : Kept [.time, .regs, .arr, .mem, .serve, .vault, .fab, .arb, .chans, .rings, .power, .faults, .ledger, .handed, .sec, .svc, .phase, .out] x (State.fmWrite x a1) := by
  unfold State.fmWrite
  dsimp only
  refine Kept.andThen State.respond_kept ?_
  refine Kept.andThen State.write_kept ?_
  exact Kept.refl _

theorem execFmWrite_kept {x : State} {a0} : KeptR [.time, .regs, .arr, .mem, .serve, .vault, .fab, .arb, .chans, .rings, .power, .faults, .ledger, .handed, .sec, .platform, .svc, .phase, .out] x (execFmWrite a0 x) := by
  unfold execFmWrite
  refine KeptR.next ?_
  refine Kept.on (State.watched_kept ?_) ?_
  · intro _
    refine Kept.on (State.deliver_kept ?_) ?_
    · intro _
      refine Kept.ite ?_ ?_
      · refine Kept.andThen State.fmWrite_kept ?_
        exact Kept.refl _
      · exact Kept.refl _
    · exact Kept.refl _
  · exact Kept.refl _

theorem State.fmRead_kept {x : State} {a1} : Kept [.time, .regs, .out] x (State.fmRead x a1) := by
  unfold State.fmRead
  dsimp only
  refine Kept.ite ?_ ?_
  · refine Kept.andThen State.respond_kept ?_
    exact Kept.refl _
  · refine Kept.ite ?_ ?_
    · refine Kept.andThen State.respond_kept ?_
      exact Kept.refl _
    · refine Kept.andThen State.respond_kept ?_
      refine Kept.andThen State.readOn_kept ?_
      exact Kept.refl _

theorem execFmRead_kept {x : State} {a0} : KeptR [.time, .regs, .fab, .rings, .out] x (execFmRead a0 x) := by
  unfold execFmRead
  refine KeptR.next ?_
  refine Kept.on (State.deliver_kept ?_) ?_
  · intro _
    refine Kept.ite ?_ ?_
    · refine Kept.andThen State.fmRead_kept ?_
      exact Kept.refl _
    · exact Kept.refl _
  · exact Kept.refl _

end Sys2Proof.Machine
end

