-- ==== Sys2Proof/Laws/Kept9.lean ====
section
/-! SUPPORT. What the operations and the commands of Machine/Boundary.lean, Machine/Arrival.lean keep (Laws/Kept.lean). -/
set_option Elab.async false

namespace Sys2Proof.Machine

/-! ### Boundary -/

theorem State.markFired_kept {x : State} {a1} {a2} : Kept [.serve] x (State.markFired x a1 a2) := by
  unfold State.markFired
  dsimp only
  refine Kept.andThen State.setInst_kept ?_
  exact Kept.refl _

theorem State.entryDone_kept {x : State} {a1} : Kept [.serve] x (State.entryDone x a1) := by
  unfold State.entryDone
  refine Kept.andThen State.onStep_kept ?_
  exact Kept.refl _

theorem State.gateOf_kept {x : State} {a1} {a2} {a3} {a4} {a5} : Kept [.arr, .serve] x (State.gateOf x a1 a2 a3 a4 a5) := by
  unfold State.gateOf
  dsimp only
  split
  · exact Kept.refl _
  · refine Kept.ite ?_ ?_
    · split
      · refine Kept.andThen State.release_kept ?_
        exact Kept.refl _
      · exact Kept.refl _
    · refine Kept.andThen State.setCfg_kept ?_
      exact Kept.refl _

theorem State.layerStart_kept {x : State} {a1} {a2} : Kept [.arr, .serve] x (State.layerStart x a1 a2) := by
  unfold State.layerStart
  dsimp only
  split
  · exact Kept.refl _
  · refine Kept.ite ?_ ?_
    · refine Kept.andThen State.entryDone_kept ?_
      exact Kept.refl _
    · refine Kept.foldl _ _ ?_ ?_
      · refine Kept.andThen State.entryDone_kept ?_
        exact Kept.refl _
      · intro _ _
        refine Kept.andThen State.gateOf_kept ?_
        exact Kept.refl _

theorem State.selectSlots_kept {x : State} {a1} : Kept [.fab] x (State.selectSlots x a1) := by
  unfold State.selectSlots
  dsimp only
  refine Kept.foldl _ _ ?_ ?_
  · exact Kept.refl _
  · intro _ _
    refine Kept.ite ?_ ?_
    · refine Kept.andThen State.setSlotTab_kept ?_
      exact Kept.refl _
    · exact Kept.refl _

theorem State.lockBegin_kept {x : State} {a1} {a2} : Kept [.time] x (State.lockBegin x a1 a2) := by
  unfold State.lockBegin
  refine Kept.andThen State.setTime_kept ?_
  exact Kept.refl _

theorem State.openColl_kept {x : State} {a1} {a2} {a3} {a4} : Kept [.serve] x (State.openColl x a1 a2 a3 a4) := by
  unfold State.openColl
  dsimp only
  split
  · exact Kept.refl _
  · refine Kept.upd ?_
    exact Kept.refl _

theorem State.collWindow_kept {x : State} {a1} {a2} : Kept [.serve] x (State.collWindow x a1 a2) := by
  unfold State.collWindow
  split
  · refine Kept.andThen State.openColl_kept ?_
    refine Kept.andThen State.entryDone_kept ?_
    exact Kept.refl _
  · exact Kept.refl _

theorem State.replaySlot_kept {x : State} {a1} {a2} : Kept [.serve] x (State.replaySlot x a1 a2) := by
  unfold State.replaySlot
  refine Kept.andThen State.onColl_kept ?_
  exact Kept.refl _

theorem State.linkFrame_kept {x : State} : Kept [.free] x (State.linkFrame x).2 := by
  unfold State.linkFrame
  refine Kept.foldl_snd _ _ _ ?_ ?_
  · exact Kept.refl _
  · intro _ _
    dsimp only
    refine Kept.andThen State.fresh_kept ?_
    exact Kept.refl _

theorem State.telemetry_kept {x : State} {a1} : Kept [.out, .free] x (State.telemetry x a1) := by
  unfold State.telemetry
  dsimp only
  refine Kept.ite ?_ ?_
  · refine Kept.andThen State.emits_kept ?_
    exact Kept.refl _
  · refine Kept.ite ?_ ?_
    · refine Kept.andThen State.emits_kept ?_
      exact Kept.refl _
    · refine Kept.ite ?_ ?_
      · refine Kept.andThen State.emits_kept ?_
        exact Kept.refl _
      · refine Kept.ite ?_ ?_
        · refine Kept.andThen State.emits_kept ?_
          exact Kept.refl _
        · refine Kept.andThen State.emits_kept ?_
          refine Kept.andThen State.linkFrame_kept ?_
          exact Kept.refl _

theorem State.stepEnd_kept {x : State} {a1} {a2} : Kept [.regs, .arr, .mem, .serve, .vault, .fab, .rings, .power, .faults, .handed, .out] x (State.stepEnd x a1 a2) := by
  unfold State.stepEnd
  dsimp only
  split
  · refine Kept.andThen State.clearGates_kept ?_
    exact Kept.refl _
  · refine Kept.ite ?_ ?_
    · refine Kept.andThen State.clearGates_kept ?_
      refine Kept.andThen State.finishStep_kept ?_
      exact Kept.refl _
    · refine Kept.ite ?_ ?_
      · refine Kept.andThen State.onStep_kept ?_
        refine Kept.andThen State.clearGates_kept ?_
        exact Kept.refl _
      · refine Kept.andThen State.instEvent_kept ?_
        refine Kept.upd ?_
        refine Kept.andThen State.onStep_kept ?_
        refine Kept.andThen State.clearGates_kept ?_
        exact Kept.refl _

theorem State.entryAct_kept {x : State} {a1} {a2} : Kept [.time, .regs, .arr, .mem, .serve, .vault, .fab, .rings, .power, .faults, .handed, .out, .free] x (State.entryAct x a1 a2) := by
  unfold State.entryAct
  split
  · refine Kept.andThen State.layerStart_kept ?_
    exact Kept.refl _
  · split
    · refine Kept.andThen State.startList_kept ?_
      exact Kept.refl _
    · exact Kept.refl _
  · refine Kept.andThen State.selectSlots_kept ?_
    exact Kept.refl _
  · refine Kept.andThen State.opPrefFire_kept ?_
    exact Kept.refl _
  · refine Kept.andThen State.lockBegin_kept ?_
    exact Kept.refl _
  · refine Kept.andThen State.collWindow_kept ?_
    exact Kept.refl _
  · refine Kept.andThen State.replaySlot_kept ?_
    exact Kept.refl _
  · refine Kept.andThen State.telemetry_kept ?_
    exact Kept.refl _
  · refine Kept.andThen State.stepEnd_kept ?_
    exact Kept.refl _
  · exact Kept.refl _

theorem State.fireEntry_kept {x : State} {a1} {a2} : Kept [.time, .regs, .arr, .mem, .serve, .vault, .fab, .rings, .power, .faults, .handed, .out, .free] x (State.fireEntry x a1 a2) := by
  unfold State.fireEntry
  refine Kept.andThen State.entryAct_kept ?_
  refine Kept.andThen State.markFired_kept ?_
  refine Kept.andThen State.toTick_kept ?_
  exact Kept.refl _

theorem State.fireAll_kept {x : State} {a1} : Kept [.time, .regs, .arr, .mem, .serve, .vault, .fab, .rings, .power, .faults, .handed, .out, .free] x (State.fireAll x a1) := by
  unfold State.fireAll
  refine Kept.foldl _ _ ?_ ?_
  · exact Kept.refl _
  · intro _ _
    refine Kept.ite ?_ ?_
    · refine Kept.andThen State.fireEntry_kept ?_
      exact Kept.refl _
    · exact Kept.refl _

theorem State.catchUp_kept {x : State} : Kept [.time, .regs, .arr, .mem, .serve, .vault, .fab, .rings, .power, .faults, .handed, .out, .free] x (State.catchUp x) := by
  unfold State.catchUp
  refine Kept.andThen State.drainSlots_kept ?_
  refine Kept.andThen State.fireAll_kept ?_
  exact Kept.refl _

theorem State.fireRow_kept {x : State} {a1} {a2} {a3} : Kept [.time, .regs, .arr, .mem, .serve, .vault, .fab, .rings, .power, .faults, .handed, .out, .free] x (State.fireRow x a1 a2 a3) := by
  unfold State.fireRow
  dsimp only
  split
  · exact Kept.refl _
  · refine Kept.andThen State.fireEntry_kept ?_
    refine Kept.andThen State.fireAll_kept ?_
    exact Kept.refl _

theorem execLayerStart_kept {x : State} {a0} {a1} : KeptR [.time, .regs, .arr, .mem, .serve, .vault, .fab, .rings, .power, .faults, .handed, .out, .free] x (execLayerStart a0 a1 x) := by
  unfold execLayerStart
  refine KeptR.next ?_
  refine Kept.andThen State.fireRow_kept ?_
  exact Kept.refl _

theorem execPrefetch_kept {x : State} {a0} {a1} : KeptR [.time, .regs, .arr, .mem, .serve, .vault, .fab, .rings, .power, .faults, .handed, .out, .free] x (execPrefetch a0 a1 x) := by
  unfold execPrefetch
  refine KeptR.next ?_
  refine Kept.andThen State.fireRow_kept ?_
  exact Kept.refl _

theorem execSlotSelect_kept {x : State} {a0} {a1} : KeptR [.time, .regs, .arr, .mem, .serve, .vault, .fab, .rings, .power, .faults, .handed, .out, .free] x (execSlotSelect a0 a1 x) := by
  unfold execSlotSelect
  refine KeptR.next ?_
  refine Kept.andThen State.fireRow_kept ?_
  exact Kept.refl _

theorem execOpPref_kept {x : State} {a0} {a1} : KeptR [.time, .regs, .arr, .mem, .serve, .vault, .fab, .rings, .power, .faults, .handed, .out, .free] x (execOpPref a0 a1 x) := by
  unfold execOpPref
  refine KeptR.next ?_
  refine Kept.andThen State.fireRow_kept ?_
  exact Kept.refl _

theorem execLockBegin_kept {x : State} {a0} {a1} : KeptR [.time, .regs, .arr, .mem, .serve, .vault, .fab, .rings, .power, .faults, .handed, .out, .free] x (execLockBegin a0 a1 x) := by
  unfold execLockBegin
  refine KeptR.next ?_
  refine Kept.andThen State.fireRow_kept ?_
  exact Kept.refl _

theorem execCollectiveWindow_kept {x : State} {a0} {a1} : KeptR [.time, .regs, .arr, .mem, .serve, .vault, .fab, .rings, .power, .faults, .handed, .out, .free] x (execCollectiveWindow a0 a1 x) := by
  unfold execCollectiveWindow
  refine KeptR.next ?_
  refine Kept.andThen State.fireRow_kept ?_
  exact Kept.refl _

theorem execReplaySlot_kept {x : State} {a0} {a1} : KeptR [.time, .regs, .arr, .mem, .serve, .vault, .fab, .rings, .power, .faults, .handed, .out, .free] x (execReplaySlot a0 a1 x) := by
  unfold execReplaySlot
  refine KeptR.next ?_
  refine Kept.andThen State.fireRow_kept ?_
  exact Kept.refl _

theorem execTelemetry_kept {x : State} {a0} {a1} : KeptR [.time, .regs, .arr, .mem, .serve, .vault, .fab, .rings, .power, .faults, .handed, .out, .free] x (execTelemetry a0 a1 x) := by
  unfold execTelemetry
  refine KeptR.next ?_
  refine Kept.andThen State.fireRow_kept ?_
  exact Kept.refl _

theorem execStepEnd_kept {x : State} {a0} {a1} : KeptR [.time, .regs, .arr, .mem, .serve, .vault, .fab, .rings, .power, .faults, .handed, .out, .free] x (execStepEnd a0 a1 x) := by
  unfold execStepEnd
  refine KeptR.next ?_
  refine Kept.andThen State.fireRow_kept ?_
  exact Kept.refl _

theorem State.nextBeat_kept {x : State} : Kept [.time] x (State.nextBeat x) := by
  unfold State.nextBeat
  dsimp only
  refine Kept.andThen State.setTime_kept ?_
  exact Kept.refl _

theorem State.numberingEnd_kept {x : State} {a1} : Kept [.time, .regs, .serve, .fab, .rings, .handed, .out] x (State.numberingEnd x a1) := by
  unfold State.numberingEnd
  refine Kept.ite ?_ ?_
  · refine Kept.andThen State.lockLoss_kept ?_
    exact Kept.refl _
  · exact Kept.refl _

theorem State.periodTurn_kept {x : State} : Kept [.time, .regs, .serve, .handed] x (State.periodTurn x) := by
  unfold State.periodTurn
  split
  · refine Kept.ite ?_ ?_
    · refine Kept.andThen State.newPeriod_kept ?_
      exact Kept.refl _
    · exact Kept.refl _
  · exact Kept.refl _

theorem State.beginMarker_kept {x : State} : Kept [.out] x (State.beginMarker x) := by
  unfold State.beginMarker
  refine Kept.ite ?_ ?_
  · refine Kept.andThen State.sendMarkers_kept ?_
    exact Kept.refl _
  · exact Kept.refl _

theorem State.numericTurn_kept {x : State} : Kept [.arr, .handed] x (State.numericTurn x) := by
  unfold State.numericTurn
  dsimp only
  refine Kept.ite ?_ ?_
  · refine Kept.andThen State.hand_kept ?_
    refine Kept.upd ?_
    exact Kept.refl _
  · refine Kept.upd ?_
    exact Kept.refl _

theorem State.routeTurned_kept {x : State} {a1} {a2} {a3} {a4} {a5} : Kept [.regs, .rings, .handed, .out] x (State.routeTurned x a1 a2 a3 a4 a5) := by
  unfold State.routeTurned
  dsimp only
  split
  · refine Kept.ite ?_ ?_
    · refine Kept.andThen State.latePlacement_kept ?_
      refine Kept.andThen State.genRecord_kept ?_
      exact Kept.refl _
    · refine Kept.andThen State.genRecord_kept ?_
      exact Kept.refl _
  · refine Kept.andThen State.genRecord_kept ?_
    exact Kept.refl _

theorem State.turnInst_kept {x : State} {a1} : Kept [.regs, .serve, .rings, .handed, .out] x (State.turnInst x a1) := by
  unfold State.turnInst
  dsimp only
  refine Kept.foldl _ _ ?_ ?_
  · refine Kept.andThen State.genRecord_kept ?_
    refine Kept.andThen State.setInst_kept ?_
    exact Kept.refl _
  · intro _ _
    refine Kept.andThen State.routeTurned_kept ?_
    exact Kept.refl _

theorem State.turnCfg_kept {x : State} {a1} : Kept [.arr, .mem, .serve, .handed] x (State.turnCfg x a1) := by
  unfold State.turnCfg
  dsimp only
  refine Kept.ite ?_ ?_
  · refine Kept.andThen State.genRecord_kept ?_
    refine Kept.andThen State.setGens_kept ?_
    exact Kept.refl _
  · split
    · refine Kept.andThen State.setInst_kept ?_
      refine Kept.andThen State.genRecord_kept ?_
      refine Kept.andThen State.setGens_kept ?_
      exact Kept.refl _
    · refine Kept.andThen State.genRecord_kept ?_
      refine Kept.andThen State.setGens_kept ?_
      exact Kept.refl _

theorem State.turnSlots_kept {x : State} : Kept [.fab] x (State.turnSlots x) := by
  unfold State.turnSlots
  dsimp only
  refine Kept.foldl _ _ ?_ ?_
  · refine Kept.andThen State.setFab_kept ?_
    exact Kept.refl _
  · intro _ _
    refine Kept.andThen State.selectSlots_kept ?_
    exact Kept.refl _

theorem State.tablesTurn_kept {x : State} : Kept [.regs, .arr, .mem, .serve, .vault, .fab, .rings, .faults, .handed, .out] x (State.tablesTurn x) := by
  unfold State.tablesTurn
  dsimp only
  refine Kept.andThen State.retryLoads_kept ?_
  refine Kept.andThen State.turnSlots_kept ?_
  refine Kept.foldl _ _ ?_ ?_
  · refine Kept.foldl _ _ ?_ ?_
    · exact Kept.refl _
    · intro _ _
      refine Kept.andThen State.turnInst_kept ?_
      exact Kept.refl _
  · intro _ _
    refine Kept.andThen State.turnCfg_kept ?_
    exact Kept.refl _

theorem State.newEntries_kept {x : State} : Kept [.serve] x (State.newEntries x) := by
  unfold State.newEntries
  refine Kept.upd ?_
  exact Kept.refl _

theorem State.routesTurn_kept {x : State} : Kept [.fab, .handed] x (State.routesTurn x) := by
  unfold State.routesTurn
  dsimp only
  refine Kept.foldl _ _ ?_ ?_
  · refine Kept.andThen State.setFab_kept ?_
    exact Kept.refl _
  · intro _ _
    refine Kept.andThen State.hand_kept ?_
    refine Kept.andThen State.setFab_kept ?_
    exact Kept.refl _

theorem State.clearBanks_kept {x : State} : Kept [.mem] x (State.clearBanks x) := by
  unfold State.clearBanks
  refine Kept.foldl _ _ ?_ ?_
  · exact Kept.refl _
  · intro _ _
    split
    · refine Kept.andThen State.zeroAt_kept ?_
      exact Kept.refl _
    · exact Kept.refl _

theorem State.endBeat_kept {x : State} : Kept [.time, .regs, .arr, .mem, .serve, .vault, .fab, .rings, .power, .faults, .handed, .platform, .out, .free] x x.endBeat := by
  unfold State.endBeat
  extract_lets u gens _ v
  have hu : Kept [.time, .regs, .arr, .mem, .serve, .vault, .fab, .rings, .power, .faults, .handed, .platform, .out, .free] x u := State.holdSlots_kept.andThen (State.drainSlots_kept.andThen (State.fireAll_kept.mono (by decide)))
  clear_value u gens
  have hv : Kept [.time, .regs, .arr, .mem, .serve, .vault, .fab, .rings, .power, .faults, .handed, .platform, .out, .free] x v := Kept.on (Kept.upd (Kept.refl u)) hu
  clear_value v
  refine State.droopStep_kept.andThen ?_
  refine State.poolRecords_kept.andThen ?_
  refine State.numericTurn_kept.andThen ?_
  refine State.closeMeas_kept.andThen ?_
  refine State.newEntries_kept.andThen ?_
  refine State.numberingEnd_kept.andThen ?_
  exact State.nextBeat_kept.andThen hv

theorem State.turn_kept {x : State} : Kept [.time, .regs, .arr, .mem, .serve, .vault, .fab, .arb, .rings, .power, .faults, .handed, .out] x (State.turn x) := by
  unfold State.turn
  refine Kept.andThen State.routesOpen_kept ?_
  refine Kept.andThen State.routesTurn_kept ?_
  refine Kept.andThen State.applySpare_kept ?_
  refine Kept.andThen State.thermalStep_kept ?_
  refine Kept.andThen State.applyPending_kept ?_
  refine Kept.andThen State.tablesTurn_kept ?_
  refine Kept.andThen State.rollTenants_kept ?_
  refine Kept.andThen State.beginMarker_kept ?_
  refine Kept.andThen State.periodTurn_kept ?_
  refine Kept.andThen State.handover_kept ?_
  exact Kept.refl _

theorem State.beginBeat_kept {x : State} : Kept [.time, .regs, .arr, .mem, .serve, .vault, .fab, .rings, .power, .faults, .handed, .out, .free] x (State.beginBeat x) := by
  unfold State.beginBeat
  dsimp only
  refine Kept.andThen State.catchUp_kept ?_
  refine Kept.andThen State.setTime_kept ?_
  refine Kept.andThen State.swap_kept ?_
  refine Kept.andThen State.sendSteel_kept ?_
  refine Kept.andThen State.admission_kept ?_
  refine Kept.andThen State.startSteps_kept ?_
  refine Kept.andThen State.clearBanks_kept ?_
  exact Kept.refl _

theorem State.boundary_kept {x : State} : Kept [.time, .regs, .arr, .mem, .serve, .vault, .fab, .arb, .rings, .power, .faults, .handed, .platform, .out, .free] x (State.boundary x) := by
  unfold State.boundary
  refine Kept.ite ?_ ?_
  · refine Kept.andThen State.beginBeat_kept ?_
    refine Kept.andThen State.turn_kept ?_
    refine Kept.andThen State.endBeat_kept ?_
    exact Kept.refl _
  · exact Kept.refl _

theorem execBeatBoundary_kept {x : State} : KeptR [.time, .regs, .arr, .mem, .serve, .vault, .fab, .arb, .rings, .power, .faults, .handed, .platform, .out, .free] x (execBeatBoundary x) := by
  unfold execBeatBoundary
  refine KeptR.next ?_
  refine Kept.on (State.watched_kept ?_) ?_
  · intro _
    refine Kept.andThen State.boundary_kept ?_
    exact Kept.refl _
  · exact Kept.refl _

theorem State.idle_kept {x : State} : Kept [.time, .regs, .arr, .mem, .serve, .vault, .fab, .arb, .rings, .power, .faults, .handed, .platform, .out, .free] x (State.idle x) := by
  unfold State.idle
  dsimp only
  refine Kept.ite ?_ ?_
  · exact Kept.refl _
  · refine Kept.ite ?_ ?_
    · refine Kept.andThen State.setTime_kept ?_
      exact Kept.refl _
    · refine Kept.ite ?_ ?_
      · refine Kept.andThen State.catchUp_kept ?_
        refine Kept.andThen State.setTime_kept ?_
        exact Kept.refl _
      · refine Kept.on (State.watched_kept ?_) ?_
        · intro _
          refine Kept.andThen State.boundary_kept ?_
          exact Kept.refl _
        · exact Kept.refl _

theorem State.slew_kept {x : State} : Kept [.time, .regs, .arr, .mem, .serve, .vault, .fab, .arb, .rings, .power, .faults, .handed, .platform, .out, .free] x (State.slew x) := by
  unfold State.slew
  refine Kept.ite ?_ ?_
  · exact Kept.refl _
  · dsimp only
    refine Kept.andThen State.idle_kept ?_
    refine Kept.ite ?_ ?_
    · refine Kept.andThen State.catchUp_kept ?_
      refine Kept.andThen State.setTime_kept ?_
      refine Kept.ite ?_ ?_
      · exact Kept.refl _
      · refine Kept.on (State.watched_kept ?_) ?_
        · intro _
          refine Kept.andThen State.boundary_kept ?_
          exact Kept.refl _
        · exact Kept.refl _
    · refine Kept.ite ?_ ?_
      · exact Kept.refl _
      · refine Kept.on (State.watched_kept ?_) ?_
        · intro _
          refine Kept.andThen State.boundary_kept ?_
          exact Kept.refl _
        · exact Kept.refl _

theorem execSlewTick_kept {x : State} : KeptR [.time, .regs, .arr, .mem, .serve, .vault, .fab, .arb, .rings, .power, .faults, .handed, .platform, .out, .free] x (execSlewTick x) := by
  unfold execSlewTick
  refine KeptR.next ?_
  refine Kept.andThen State.slew_kept ?_
  exact Kept.refl _

/-! ### Arrival -/

theorem State.present_kept {x : State} {l} : Only [] x { x.present l with pending := x.pending } :=
  ⟨rfl, fun p _ => by cases p <;> rfl⟩

theorem execColl_kept {x : State} {a0} : KeptR [.time, .regs, .arr, .mem, .serve, .vault, .fab, .rings, .power, .faults, .handed, .out, .free] x (execColl a0 x) := by
  unfold execColl
  refine KeptR.next ?_
  refine Kept.on (State.deliver_kept ?_) ?_
  · intro _
    refine Kept.on (State.collIn_kept ?_) ?_
    · intro _ _
      refine Kept.andThen State.takeColl_kept ?_
      exact Kept.refl _
    · exact Kept.refl _
  · refine Kept.andThen State.catchUp_kept ?_
    exact Kept.refl _

theorem execSectionMsg_kept {x : State} {a0} : KeptR [.time, .regs, .arr, .mem, .serve, .vault, .fab, .rings, .power, .faults, .handed, .out, .free] x (execSectionMsg a0 x) := by
  unfold execSectionMsg
  refine KeptR.next ?_
  refine Kept.on (State.deliver_kept ?_) ?_
  · intro _
    refine Kept.on (State.collIn_kept ?_) ?_
    · intro _ _
      refine Kept.andThen State.takeSection_kept ?_
      exact Kept.refl _
    · exact Kept.refl _
  · refine Kept.andThen State.catchUp_kept ?_
    exact Kept.refl _

theorem execReplayReq_kept {x : State} {a0} : KeptR [.time, .regs, .arr, .mem, .serve, .vault, .fab, .rings, .power, .faults, .handed, .out, .free] x (execReplayReq a0 x) := by
  unfold execReplayReq
  refine KeptR.next ?_
  refine Kept.on (State.deliver_kept ?_) ?_
  · intro _
    refine Kept.andThen State.takeReplayReq_kept ?_
    exact Kept.refl _
  · refine Kept.andThen State.catchUp_kept ?_
    exact Kept.refl _

theorem execCollectiveSendStart_kept {x : State} {a0} {a1} : KeptR [.time, .regs, .arr, .mem, .serve, .vault, .fab, .rings, .power, .faults, .handed, .out, .free] x (execCollectiveSendStart a0 a1 x) := by
  unfold execCollectiveSendStart
  refine KeptR.next ?_
  refine Kept.andThen State.startSending_kept ?_
  refine Kept.andThen State.catchUp_kept ?_
  exact Kept.refl _

theorem execCollectiveWindowClose_kept {x : State} {a0} {a1} : KeptR [.time, .regs, .arr, .mem, .serve, .vault, .fab, .rings, .power, .faults, .handed, .out, .free] x (execCollectiveWindowClose a0 a1 x) := by
  unfold execCollectiveWindowClose
  refine KeptR.next ?_
  refine Kept.andThen State.closeWindow_kept ?_
  refine Kept.andThen State.catchUp_kept ?_
  exact Kept.refl _

theorem execReplaySlotClose_kept {x : State} {a0} {a1} : KeptR [.time, .regs, .arr, .mem, .serve, .vault, .fab, .rings, .power, .faults, .handed, .out, .free] x (execReplaySlotClose a0 a1 x) := by
  unfold execReplaySlotClose
  refine KeptR.next ?_
  refine Kept.andThen State.closeReplay_kept ?_
  refine Kept.andThen State.catchUp_kept ?_
  exact Kept.refl _

end Sys2Proof.Machine
end

