-- ==== Sys2Proof/Laws/State.lean ====
section
/-! SUPPORT. The fields of a state after each plain update: one lemma for each field. -/
set_option Elab.async false
namespace Sys2Proof.Machine

/-- `s` with other records held. -/
def State.holding (s : State) (l v : List Held) : State :=
  { s with ledger := { s.ledger with held := l }, svc := { s.svc with held := v } }

/-- `s` with other platform events and other things sent. -/
def State.telling (s : State) (e : List (Nat × Nat × Nat)) (o : List Out) : State := { s with sec := { s.sec with events := e }, out := o }

section
variable (s : State) (o v : Nat)
@[simp] theorem State.setReg_time : (s.setReg o v).time = s.time := rfl
@[simp] theorem State.setReg_regs : (s.setReg o v).regs = putKey s.regs o v := rfl
@[simp] theorem State.setReg_arr : (s.setReg o v).arr = s.arr := rfl
@[simp] theorem State.setReg_mem : (s.setReg o v).mem = s.mem := rfl
@[simp] theorem State.setReg_serve : (s.setReg o v).serve = s.serve := rfl
@[simp] theorem State.setReg_vault : (s.setReg o v).vault = s.vault := rfl
@[simp] theorem State.setReg_fab : (s.setReg o v).fab = s.fab := rfl
@[simp] theorem State.setReg_arb : (s.setReg o v).arb = s.arb := rfl
@[simp] theorem State.setReg_host : (s.setReg o v).host = s.host := rfl
@[simp] theorem State.setReg_power : (s.setReg o v).power = s.power := rfl
@[simp] theorem State.setReg_faults : (s.setReg o v).faults = s.faults := rfl
@[simp] theorem State.setReg_ledger : (s.setReg o v).ledger = s.ledger := rfl
@[simp] theorem State.setReg_sec : (s.setReg o v).sec = s.sec := rfl
@[simp] theorem State.setReg_svc : (s.setReg o v).svc = s.svc := rfl
@[simp] theorem State.setReg_out : (s.setReg o v).out = s.out := rfl
@[simp] theorem State.setReg_free : (s.setReg o v).free = s.free := rfl
@[simp] theorem State.setReg_pending : (s.setReg o v).pending = s.pending := rfl
end

section
variable (s : State) (x : TimeUnit)
@[simp] theorem State.setTime_time : (s.setTime x).time = x := rfl
@[simp] theorem State.setTime_regs : (s.setTime x).regs = s.regs := rfl
@[simp] theorem State.setTime_arr : (s.setTime x).arr = s.arr := rfl
@[simp] theorem State.setTime_mem : (s.setTime x).mem = s.mem := rfl
@[simp] theorem State.setTime_serve : (s.setTime x).serve = s.serve := rfl
@[simp] theorem State.setTime_vault : (s.setTime x).vault = s.vault := rfl
@[simp] theorem State.setTime_fab : (s.setTime x).fab = s.fab := rfl
@[simp] theorem State.setTime_arb : (s.setTime x).arb = s.arb := rfl
@[simp] theorem State.setTime_host : (s.setTime x).host = s.host := rfl
@[simp] theorem State.setTime_power : (s.setTime x).power = s.power := rfl
@[simp] theorem State.setTime_faults : (s.setTime x).faults = s.faults := rfl
@[simp] theorem State.setTime_ledger : (s.setTime x).ledger = s.ledger := rfl
@[simp] theorem State.setTime_sec : (s.setTime x).sec = s.sec := rfl
@[simp] theorem State.setTime_svc : (s.setTime x).svc = s.svc := rfl
@[simp] theorem State.setTime_out : (s.setTime x).out = s.out := rfl
@[simp] theorem State.setTime_free : (s.setTime x).free = s.free := rfl
@[simp] theorem State.setTime_pending : (s.setTime x).pending = s.pending := rfl
end

section
variable (s : State) (x : Ring)
@[simp] theorem State.setRing_time : (s.setRing x).time = s.time := rfl
@[simp] theorem State.setRing_regs : (s.setRing x).regs = s.regs := rfl
@[simp] theorem State.setRing_arr : (s.setRing x).arr = s.arr := rfl
@[simp] theorem State.setRing_mem : (s.setRing x).mem = s.mem := rfl
@[simp] theorem State.setRing_serve : (s.setRing x).serve = s.serve := rfl
@[simp] theorem State.setRing_vault : (s.setRing x).vault = s.vault := rfl
@[simp] theorem State.setRing_fab : (s.setRing x).fab = s.fab := rfl
@[simp] theorem State.setRing_arb : (s.setRing x).arb = s.arb := rfl
@[simp] theorem State.setRing_power : (s.setRing x).power = s.power := rfl
@[simp] theorem State.setRing_faults : (s.setRing x).faults = s.faults := rfl
@[simp] theorem State.setRing_ledger : (s.setRing x).ledger = s.ledger := rfl
@[simp] theorem State.setRing_sec : (s.setRing x).sec = s.sec := rfl
@[simp] theorem State.setRing_svc : (s.setRing x).svc = s.svc := rfl
@[simp] theorem State.setRing_out : (s.setRing x).out = s.out := rfl
@[simp] theorem State.setRing_free : (s.setRing x).free = s.free := rfl
@[simp] theorem State.setRing_pending : (s.setRing x).pending = s.pending := rfl
end

section
variable (s : State) (f : Nat) (x : Func)
@[simp] theorem State.setFunc_time : (s.setFunc f x).time = s.time := rfl
@[simp] theorem State.setFunc_regs : (s.setFunc f x).regs = s.regs := rfl
@[simp] theorem State.setFunc_arr : (s.setFunc f x).arr = s.arr := rfl
@[simp] theorem State.setFunc_mem : (s.setFunc f x).mem = s.mem := rfl
@[simp] theorem State.setFunc_serve : (s.setFunc f x).serve = s.serve := rfl
@[simp] theorem State.setFunc_vault : (s.setFunc f x).vault = s.vault := rfl
@[simp] theorem State.setFunc_fab : (s.setFunc f x).fab = s.fab := rfl
@[simp] theorem State.setFunc_arb : (s.setFunc f x).arb = s.arb := rfl
@[simp] theorem State.setFunc_host : (s.setFunc f x).host = { s.host with funcs := setNth s.host.funcs f x } := rfl
@[simp] theorem State.setFunc_power : (s.setFunc f x).power = s.power := rfl
@[simp] theorem State.setFunc_faults : (s.setFunc f x).faults = s.faults := rfl
@[simp] theorem State.setFunc_ledger : (s.setFunc f x).ledger = s.ledger := rfl
@[simp] theorem State.setFunc_sec : (s.setFunc f x).sec = s.sec := rfl
@[simp] theorem State.setFunc_svc : (s.setFunc f x).svc = s.svc := rfl
@[simp] theorem State.setFunc_out : (s.setFunc f x).out = s.out := rfl
@[simp] theorem State.setFunc_free : (s.setFunc f x).free = s.free := rfl
@[simp] theorem State.setFunc_pending : (s.setFunc f x).pending = s.pending := rfl
end

section
variable (s : State) (c : Nat) (x : Chan)
@[simp] theorem State.setChan_time : (s.setChan c x).time = s.time := rfl
@[simp] theorem State.setChan_regs : (s.setChan c x).regs = s.regs := rfl
@[simp] theorem State.setChan_arr : (s.setChan c x).arr = s.arr := rfl
@[simp] theorem State.setChan_mem : (s.setChan c x).mem = s.mem := rfl
@[simp] theorem State.setChan_serve : (s.setChan c x).serve = s.serve := rfl
@[simp] theorem State.setChan_vault : (s.setChan c x).vault = s.vault := rfl
@[simp] theorem State.setChan_fab : (s.setChan c x).fab = s.fab := rfl
@[simp] theorem State.setChan_arb : (s.setChan c x).arb = s.arb := rfl
@[simp] theorem State.setChan_host : (s.setChan c x).host = { s.host with chans := setNth s.host.chans c x } := rfl
@[simp] theorem State.setChan_power : (s.setChan c x).power = s.power := rfl
@[simp] theorem State.setChan_faults : (s.setChan c x).faults = s.faults := rfl
@[simp] theorem State.setChan_ledger : (s.setChan c x).ledger = s.ledger := rfl
@[simp] theorem State.setChan_sec : (s.setChan c x).sec = s.sec := rfl
@[simp] theorem State.setChan_svc : (s.setChan c x).svc = s.svc := rfl
@[simp] theorem State.setChan_out : (s.setChan c x).out = s.out := rfl
@[simp] theorem State.setChan_free : (s.setChan c x).free = s.free := rfl
@[simp] theorem State.setChan_pending : (s.setChan c x).pending = s.pending := rfl
end

section
variable (s : State) (i : Nat) (x : Inst)
@[simp] theorem State.setInst_time : (s.setInst i x).time = s.time := rfl
@[simp] theorem State.setInst_regs : (s.setInst i x).regs = s.regs := rfl
@[simp] theorem State.setInst_arr : (s.setInst i x).arr = s.arr := rfl
@[simp] theorem State.setInst_mem : (s.setInst i x).mem = s.mem := rfl
@[simp] theorem State.setInst_serve : (s.setInst i x).serve = { s.serve with insts := setNth s.serve.insts i x } := rfl
@[simp] theorem State.setInst_vault : (s.setInst i x).vault = s.vault := rfl
@[simp] theorem State.setInst_fab : (s.setInst i x).fab = s.fab := rfl
@[simp] theorem State.setInst_arb : (s.setInst i x).arb = s.arb := rfl
@[simp] theorem State.setInst_host : (s.setInst i x).host = s.host := rfl
@[simp] theorem State.setInst_power : (s.setInst i x).power = s.power := rfl
@[simp] theorem State.setInst_faults : (s.setInst i x).faults = s.faults := rfl
@[simp] theorem State.setInst_ledger : (s.setInst i x).ledger = s.ledger := rfl
@[simp] theorem State.setInst_sec : (s.setInst i x).sec = s.sec := rfl
@[simp] theorem State.setInst_svc : (s.setInst i x).svc = s.svc := rfl
@[simp] theorem State.setInst_out : (s.setInst i x).out = s.out := rfl
@[simp] theorem State.setInst_free : (s.setInst i x).free = s.free := rfl
@[simp] theorem State.setInst_pending : (s.setInst i x).pending = s.pending := rfl
end

section
variable (s : State) (k : Nat) (x : Port)
@[simp] theorem State.setPort_time : (s.setPort k x).time = s.time := rfl
@[simp] theorem State.setPort_regs : (s.setPort k x).regs = s.regs := rfl
@[simp] theorem State.setPort_arr : (s.setPort k x).arr = s.arr := rfl
@[simp] theorem State.setPort_mem : (s.setPort k x).mem = s.mem := rfl
@[simp] theorem State.setPort_serve : (s.setPort k x).serve = s.serve := rfl
@[simp] theorem State.setPort_vault : (s.setPort k x).vault = s.vault := rfl
@[simp] theorem State.setPort_fab : (s.setPort k x).fab = { s.fab with ports := setNth s.fab.ports k x } := rfl
@[simp] theorem State.setPort_arb : (s.setPort k x).arb = s.arb := rfl
@[simp] theorem State.setPort_host : (s.setPort k x).host = s.host := rfl
@[simp] theorem State.setPort_power : (s.setPort k x).power = s.power := rfl
@[simp] theorem State.setPort_faults : (s.setPort k x).faults = s.faults := rfl
@[simp] theorem State.setPort_ledger : (s.setPort k x).ledger = s.ledger := rfl
@[simp] theorem State.setPort_sec : (s.setPort k x).sec = s.sec := rfl
@[simp] theorem State.setPort_svc : (s.setPort k x).svc = s.svc := rfl
@[simp] theorem State.setPort_out : (s.setPort k x).out = s.out := rfl
@[simp] theorem State.setPort_free : (s.setPort k x).free = s.free := rfl
@[simp] theorem State.setPort_pending : (s.setPort k x).pending = s.pending := rfl
end

section
variable (s : State) (x : Fabric)
@[simp] theorem State.setFab_time : (s.setFab x).time = s.time := rfl
@[simp] theorem State.setFab_regs : (s.setFab x).regs = s.regs := rfl
@[simp] theorem State.setFab_arr : (s.setFab x).arr = s.arr := rfl
@[simp] theorem State.setFab_mem : (s.setFab x).mem = s.mem := rfl
@[simp] theorem State.setFab_serve : (s.setFab x).serve = s.serve := rfl
@[simp] theorem State.setFab_vault : (s.setFab x).vault = s.vault := rfl
@[simp] theorem State.setFab_fab : (s.setFab x).fab = x := rfl
@[simp] theorem State.setFab_arb : (s.setFab x).arb = s.arb := rfl
@[simp] theorem State.setFab_host : (s.setFab x).host = s.host := rfl
@[simp] theorem State.setFab_power : (s.setFab x).power = s.power := rfl
@[simp] theorem State.setFab_faults : (s.setFab x).faults = s.faults := rfl
@[simp] theorem State.setFab_ledger : (s.setFab x).ledger = s.ledger := rfl
@[simp] theorem State.setFab_sec : (s.setFab x).sec = s.sec := rfl
@[simp] theorem State.setFab_svc : (s.setFab x).svc = s.svc := rfl
@[simp] theorem State.setFab_out : (s.setFab x).out = s.out := rfl
@[simp] theorem State.setFab_free : (s.setFab x).free = s.free := rfl
@[simp] theorem State.setFab_pending : (s.setFab x).pending = s.pending := rfl
end

section
variable (s : State) (x : MemSys)
@[simp] theorem State.setMem_time : (s.setMem x).time = s.time := rfl
@[simp] theorem State.setMem_regs : (s.setMem x).regs = s.regs := rfl
@[simp] theorem State.setMem_arr : (s.setMem x).arr = s.arr := rfl
@[simp] theorem State.setMem_mem : (s.setMem x).mem = x := rfl
@[simp] theorem State.setMem_serve : (s.setMem x).serve = s.serve := rfl
@[simp] theorem State.setMem_vault : (s.setMem x).vault = s.vault := rfl
@[simp] theorem State.setMem_fab : (s.setMem x).fab = s.fab := rfl
@[simp] theorem State.setMem_arb : (s.setMem x).arb = s.arb := rfl
@[simp] theorem State.setMem_host : (s.setMem x).host = s.host := rfl
@[simp] theorem State.setMem_power : (s.setMem x).power = s.power := rfl
@[simp] theorem State.setMem_faults : (s.setMem x).faults = s.faults := rfl
@[simp] theorem State.setMem_ledger : (s.setMem x).ledger = s.ledger := rfl
@[simp] theorem State.setMem_sec : (s.setMem x).sec = s.sec := rfl
@[simp] theorem State.setMem_svc : (s.setMem x).svc = s.svc := rfl
@[simp] theorem State.setMem_out : (s.setMem x).out = s.out := rfl
@[simp] theorem State.setMem_free : (s.setMem x).free = s.free := rfl
@[simp] theorem State.setMem_pending : (s.setMem x).pending = s.pending := rfl
end

section
variable (s : State) (x : Vault)
@[simp] theorem State.setVault_time : (s.setVault x).time = s.time := rfl
@[simp] theorem State.setVault_regs : (s.setVault x).regs = s.regs := rfl
@[simp] theorem State.setVault_arr : (s.setVault x).arr = s.arr := rfl
@[simp] theorem State.setVault_mem : (s.setVault x).mem = s.mem := rfl
@[simp] theorem State.setVault_serve : (s.setVault x).serve = s.serve := rfl
@[simp] theorem State.setVault_vault : (s.setVault x).vault = x := rfl
@[simp] theorem State.setVault_fab : (s.setVault x).fab = s.fab := rfl
@[simp] theorem State.setVault_arb : (s.setVault x).arb = s.arb := rfl
@[simp] theorem State.setVault_host : (s.setVault x).host = s.host := rfl
@[simp] theorem State.setVault_power : (s.setVault x).power = s.power := rfl
@[simp] theorem State.setVault_faults : (s.setVault x).faults = s.faults := rfl
@[simp] theorem State.setVault_ledger : (s.setVault x).ledger = s.ledger := rfl
@[simp] theorem State.setVault_sec : (s.setVault x).sec = s.sec := rfl
@[simp] theorem State.setVault_svc : (s.setVault x).svc = s.svc := rfl
@[simp] theorem State.setVault_out : (s.setVault x).out = s.out := rfl
@[simp] theorem State.setVault_free : (s.setVault x).free = s.free := rfl
@[simp] theorem State.setVault_pending : (s.setVault x).pending = s.pending := rfl
end

section
variable (s : State) (x : Power)
@[simp] theorem State.setPower_time : (s.setPower x).time = s.time := rfl
@[simp] theorem State.setPower_regs : (s.setPower x).regs = s.regs := rfl
@[simp] theorem State.setPower_arr : (s.setPower x).arr = s.arr := rfl
@[simp] theorem State.setPower_mem : (s.setPower x).mem = s.mem := rfl
@[simp] theorem State.setPower_serve : (s.setPower x).serve = s.serve := rfl
@[simp] theorem State.setPower_vault : (s.setPower x).vault = s.vault := rfl
@[simp] theorem State.setPower_fab : (s.setPower x).fab = s.fab := rfl
@[simp] theorem State.setPower_arb : (s.setPower x).arb = s.arb := rfl
@[simp] theorem State.setPower_host : (s.setPower x).host = s.host := rfl
@[simp] theorem State.setPower_power : (s.setPower x).power = x := rfl
@[simp] theorem State.setPower_faults : (s.setPower x).faults = s.faults := rfl
@[simp] theorem State.setPower_ledger : (s.setPower x).ledger = s.ledger := rfl
@[simp] theorem State.setPower_sec : (s.setPower x).sec = s.sec := rfl
@[simp] theorem State.setPower_svc : (s.setPower x).svc = s.svc := rfl
@[simp] theorem State.setPower_out : (s.setPower x).out = s.out := rfl
@[simp] theorem State.setPower_free : (s.setPower x).free = s.free := rfl
@[simp] theorem State.setPower_pending : (s.setPower x).pending = s.pending := rfl
end

section
variable (s : State) (x : Faults)
@[simp] theorem State.setFaults_time : (s.setFaults x).time = s.time := rfl
@[simp] theorem State.setFaults_regs : (s.setFaults x).regs = s.regs := rfl
@[simp] theorem State.setFaults_arr : (s.setFaults x).arr = s.arr := rfl
@[simp] theorem State.setFaults_mem : (s.setFaults x).mem = s.mem := rfl
@[simp] theorem State.setFaults_serve : (s.setFaults x).serve = s.serve := rfl
@[simp] theorem State.setFaults_vault : (s.setFaults x).vault = s.vault := rfl
@[simp] theorem State.setFaults_fab : (s.setFaults x).fab = s.fab := rfl
@[simp] theorem State.setFaults_arb : (s.setFaults x).arb = s.arb := rfl
@[simp] theorem State.setFaults_host : (s.setFaults x).host = s.host := rfl
@[simp] theorem State.setFaults_power : (s.setFaults x).power = s.power := rfl
@[simp] theorem State.setFaults_faults : (s.setFaults x).faults = x := rfl
@[simp] theorem State.setFaults_ledger : (s.setFaults x).ledger = s.ledger := rfl
@[simp] theorem State.setFaults_sec : (s.setFaults x).sec = s.sec := rfl
@[simp] theorem State.setFaults_svc : (s.setFaults x).svc = s.svc := rfl
@[simp] theorem State.setFaults_out : (s.setFaults x).out = s.out := rfl
@[simp] theorem State.setFaults_free : (s.setFaults x).free = s.free := rfl
@[simp] theorem State.setFaults_pending : (s.setFaults x).pending = s.pending := rfl
end

section
variable (s : State) (x : Ledger)
@[simp] theorem State.setLedger_time : (s.setLedger x).time = s.time := rfl
@[simp] theorem State.setLedger_regs : (s.setLedger x).regs = s.regs := rfl
@[simp] theorem State.setLedger_arr : (s.setLedger x).arr = s.arr := rfl
@[simp] theorem State.setLedger_mem : (s.setLedger x).mem = s.mem := rfl
@[simp] theorem State.setLedger_serve : (s.setLedger x).serve = s.serve := rfl
@[simp] theorem State.setLedger_vault : (s.setLedger x).vault = s.vault := rfl
@[simp] theorem State.setLedger_fab : (s.setLedger x).fab = s.fab := rfl
@[simp] theorem State.setLedger_arb : (s.setLedger x).arb = s.arb := rfl
@[simp] theorem State.setLedger_host : (s.setLedger x).host = s.host := rfl
@[simp] theorem State.setLedger_power : (s.setLedger x).power = s.power := rfl
@[simp] theorem State.setLedger_faults : (s.setLedger x).faults = s.faults := rfl
@[simp] theorem State.setLedger_ledger : (s.setLedger x).ledger = x := rfl
@[simp] theorem State.setLedger_sec : (s.setLedger x).sec = s.sec := rfl
@[simp] theorem State.setLedger_svc : (s.setLedger x).svc = s.svc := rfl
@[simp] theorem State.setLedger_out : (s.setLedger x).out = s.out := rfl
@[simp] theorem State.setLedger_free : (s.setLedger x).free = s.free := rfl
@[simp] theorem State.setLedger_pending : (s.setLedger x).pending = s.pending := rfl
end

section
variable (s : State) (x : Security)
@[simp] theorem State.setSec_time : (s.setSec x).time = s.time := rfl
@[simp] theorem State.setSec_regs : (s.setSec x).regs = s.regs := rfl
@[simp] theorem State.setSec_arr : (s.setSec x).arr = s.arr := rfl
@[simp] theorem State.setSec_mem : (s.setSec x).mem = s.mem := rfl
@[simp] theorem State.setSec_serve : (s.setSec x).serve = s.serve := rfl
@[simp] theorem State.setSec_vault : (s.setSec x).vault = s.vault := rfl
@[simp] theorem State.setSec_fab : (s.setSec x).fab = s.fab := rfl
@[simp] theorem State.setSec_arb : (s.setSec x).arb = s.arb := rfl
@[simp] theorem State.setSec_host : (s.setSec x).host = s.host := rfl
@[simp] theorem State.setSec_power : (s.setSec x).power = s.power := rfl
@[simp] theorem State.setSec_faults : (s.setSec x).faults = s.faults := rfl
@[simp] theorem State.setSec_ledger : (s.setSec x).ledger = s.ledger := rfl
@[simp] theorem State.setSec_sec : (s.setSec x).sec = x := rfl
@[simp] theorem State.setSec_svc : (s.setSec x).svc = s.svc := rfl
@[simp] theorem State.setSec_out : (s.setSec x).out = s.out := rfl
@[simp] theorem State.setSec_free : (s.setSec x).free = s.free := rfl
@[simp] theorem State.setSec_pending : (s.setSec x).pending = s.pending := rfl
end

section
variable (s : State) (x : Phase)
@[simp] theorem State.setPhase_time : (s.setPhase x).time = s.time := rfl
@[simp] theorem State.setPhase_regs : (s.setPhase x).regs = s.regs := rfl
@[simp] theorem State.setPhase_arr : (s.setPhase x).arr = s.arr := rfl
@[simp] theorem State.setPhase_mem : (s.setPhase x).mem = s.mem := rfl
@[simp] theorem State.setPhase_serve : (s.setPhase x).serve = s.serve := rfl
@[simp] theorem State.setPhase_vault : (s.setPhase x).vault = s.vault := rfl
@[simp] theorem State.setPhase_fab : (s.setPhase x).fab = s.fab := rfl
@[simp] theorem State.setPhase_arb : (s.setPhase x).arb = s.arb := rfl
@[simp] theorem State.setPhase_host : (s.setPhase x).host = s.host := rfl
@[simp] theorem State.setPhase_power : (s.setPhase x).power = s.power := rfl
@[simp] theorem State.setPhase_faults : (s.setPhase x).faults = s.faults := rfl
@[simp] theorem State.setPhase_ledger : (s.setPhase x).ledger = s.ledger := rfl
@[simp] theorem State.setPhase_sec : (s.setPhase x).sec = s.sec := rfl
@[simp] theorem State.setPhase_svc : (s.setPhase x).svc = { s.svc with phase := x } := rfl
@[simp] theorem State.setPhase_out : (s.setPhase x).out = s.out := rfl
@[simp] theorem State.setPhase_free : (s.setPhase x).free = s.free := rfl
@[simp] theorem State.setPhase_pending : (s.setPhase x).pending = s.pending := rfl
end

section
variable (s : State) (n : Nat)
@[simp] theorem State.latchCause_time : (s.latchCause n).time = s.time := rfl
@[simp] theorem State.latchCause_regs : (s.latchCause n).regs = s.regs := rfl
@[simp] theorem State.latchCause_arr : (s.latchCause n).arr = s.arr := rfl
@[simp] theorem State.latchCause_mem : (s.latchCause n).mem = s.mem := rfl
@[simp] theorem State.latchCause_serve : (s.latchCause n).serve = s.serve := rfl
@[simp] theorem State.latchCause_vault : (s.latchCause n).vault = s.vault := rfl
@[simp] theorem State.latchCause_fab : (s.latchCause n).fab = s.fab := rfl
@[simp] theorem State.latchCause_arb : (s.latchCause n).arb = s.arb := rfl
@[simp] theorem State.latchCause_host : (s.latchCause n).host = s.host := rfl
@[simp] theorem State.latchCause_power : (s.latchCause n).power = s.power := rfl
@[simp] theorem State.latchCause_faults : (s.latchCause n).faults = s.faults := rfl
@[simp] theorem State.latchCause_ledger : (s.latchCause n).ledger = s.ledger := rfl
@[simp] theorem State.latchCause_sec : (s.latchCause n).sec = s.sec := rfl
@[simp] theorem State.latchCause_svc : (s.latchCause n).svc = { s.svc with cause := n } := rfl
@[simp] theorem State.latchCause_out : (s.latchCause n).out = s.out := rfl
@[simp] theorem State.latchCause_free : (s.latchCause n).free = s.free := rfl
@[simp] theorem State.latchCause_pending : (s.latchCause n).pending = s.pending := rfl
end

section
variable (s : State) (x : Out)
@[simp] theorem State.emit_time : (s.emit x).time = s.time := rfl
@[simp] theorem State.emit_regs : (s.emit x).regs = s.regs := rfl
@[simp] theorem State.emit_arr : (s.emit x).arr = s.arr := rfl
@[simp] theorem State.emit_mem : (s.emit x).mem = s.mem := rfl
@[simp] theorem State.emit_serve : (s.emit x).serve = s.serve := rfl
@[simp] theorem State.emit_vault : (s.emit x).vault = s.vault := rfl
@[simp] theorem State.emit_fab : (s.emit x).fab = s.fab := rfl
@[simp] theorem State.emit_arb : (s.emit x).arb = s.arb := rfl
@[simp] theorem State.emit_host : (s.emit x).host = s.host := rfl
@[simp] theorem State.emit_power : (s.emit x).power = s.power := rfl
@[simp] theorem State.emit_faults : (s.emit x).faults = s.faults := rfl
@[simp] theorem State.emit_ledger : (s.emit x).ledger = s.ledger := rfl
@[simp] theorem State.emit_sec : (s.emit x).sec = s.sec := rfl
@[simp] theorem State.emit_svc : (s.emit x).svc = s.svc := rfl
@[simp] theorem State.emit_out : (s.emit x).out = s.out ++ [x] := rfl
@[simp] theorem State.emit_free : (s.emit x).free = s.free := rfl
@[simp] theorem State.emit_pending : (s.emit x).pending = s.pending := rfl
end

section
variable (s : State) (l : List Out)
@[simp] theorem State.emits_time : (s.emits l).time = s.time := rfl
@[simp] theorem State.emits_regs : (s.emits l).regs = s.regs := rfl
@[simp] theorem State.emits_arr : (s.emits l).arr = s.arr := rfl
@[simp] theorem State.emits_mem : (s.emits l).mem = s.mem := rfl
@[simp] theorem State.emits_serve : (s.emits l).serve = s.serve := rfl
@[simp] theorem State.emits_vault : (s.emits l).vault = s.vault := rfl
@[simp] theorem State.emits_fab : (s.emits l).fab = s.fab := rfl
@[simp] theorem State.emits_arb : (s.emits l).arb = s.arb := rfl
@[simp] theorem State.emits_host : (s.emits l).host = s.host := rfl
@[simp] theorem State.emits_power : (s.emits l).power = s.power := rfl
@[simp] theorem State.emits_faults : (s.emits l).faults = s.faults := rfl
@[simp] theorem State.emits_ledger : (s.emits l).ledger = s.ledger := rfl
@[simp] theorem State.emits_sec : (s.emits l).sec = s.sec := rfl
@[simp] theorem State.emits_svc : (s.emits l).svc = s.svc := rfl
@[simp] theorem State.emits_out : (s.emits l).out = s.out ++ l := rfl
@[simp] theorem State.emits_free : (s.emits l).free = s.free := rfl
@[simp] theorem State.emits_pending : (s.emits l).pending = s.pending := rfl
end

section
variable (s : State) (a : Nat) (l : List Byte)
@[simp] theorem State.storeAt_time : (s.storeAt a l).time = s.time := rfl
@[simp] theorem State.storeAt_regs : (s.storeAt a l).regs = s.regs := rfl
@[simp] theorem State.storeAt_arr : (s.storeAt a l).arr = s.arr := rfl
@[simp] theorem State.storeAt_mem : (s.storeAt a l).mem =
    { s.mem with cells := Memory.write s.mem.cells a l, checks := s.checksOf (Memory.write s.mem.cells a l) a l.length } := rfl
@[simp] theorem State.storeAt_serve : (s.storeAt a l).serve = s.serve := rfl
@[simp] theorem State.storeAt_vault : (s.storeAt a l).vault = s.vault := rfl
@[simp] theorem State.storeAt_fab : (s.storeAt a l).fab = s.fab := rfl
@[simp] theorem State.storeAt_arb : (s.storeAt a l).arb = s.arb := rfl
@[simp] theorem State.storeAt_host : (s.storeAt a l).host = s.host := rfl
@[simp] theorem State.storeAt_power : (s.storeAt a l).power = s.power := rfl
@[simp] theorem State.storeAt_faults : (s.storeAt a l).faults = s.faults := rfl
@[simp] theorem State.storeAt_ledger : (s.storeAt a l).ledger = s.ledger := rfl
@[simp] theorem State.storeAt_sec : (s.storeAt a l).sec = s.sec := rfl
@[simp] theorem State.storeAt_svc : (s.storeAt a l).svc = s.svc := rfl
@[simp] theorem State.storeAt_out : (s.storeAt a l).out = s.out := rfl
@[simp] theorem State.storeAt_free : (s.storeAt a l).free = s.free := rfl
@[simp] theorem State.storeAt_pending : (s.storeAt a l).pending = s.pending := rfl
end

section
variable (s : State) (a n : Nat)
@[simp] theorem State.zeroAt_time : (s.zeroAt a n).time = s.time := rfl
@[simp] theorem State.zeroAt_regs : (s.zeroAt a n).regs = s.regs := rfl
@[simp] theorem State.zeroAt_arr : (s.zeroAt a n).arr = s.arr := rfl
@[simp] theorem State.zeroAt_mem : (s.zeroAt a n).mem =
    { s.mem with cells := Memory.clear s.mem.cells a n, checks := s.mem.checks.filter fun c => !(a ≤ c.1 && c.1 < a + n) } := rfl
@[simp] theorem State.zeroAt_serve : (s.zeroAt a n).serve = s.serve := rfl
@[simp] theorem State.zeroAt_vault : (s.zeroAt a n).vault = s.vault := rfl
@[simp] theorem State.zeroAt_fab : (s.zeroAt a n).fab = s.fab := rfl
@[simp] theorem State.zeroAt_arb : (s.zeroAt a n).arb = s.arb := rfl
@[simp] theorem State.zeroAt_host : (s.zeroAt a n).host = s.host := rfl
@[simp] theorem State.zeroAt_power : (s.zeroAt a n).power = s.power := rfl
@[simp] theorem State.zeroAt_faults : (s.zeroAt a n).faults = s.faults := rfl
@[simp] theorem State.zeroAt_ledger : (s.zeroAt a n).ledger = s.ledger := rfl
@[simp] theorem State.zeroAt_sec : (s.zeroAt a n).sec = s.sec := rfl
@[simp] theorem State.zeroAt_svc : (s.zeroAt a n).svc = s.svc := rfl
@[simp] theorem State.zeroAt_out : (s.zeroAt a n).out = s.out := rfl
@[simp] theorem State.zeroAt_free : (s.zeroAt a n).free = s.free := rfl
@[simp] theorem State.zeroAt_pending : (s.zeroAt a n).pending = s.pending := rfl
end

section
variable (s : State) (x : Bead)
@[simp] theorem State.setBead_time : (s.setBead x).time = s.time := rfl
@[simp] theorem State.setBead_regs : (s.setBead x).regs = s.regs := rfl
@[simp] theorem State.setBead_mem : (s.setBead x).mem = s.mem := rfl
@[simp] theorem State.setBead_serve : (s.setBead x).serve = s.serve := rfl
@[simp] theorem State.setBead_vault : (s.setBead x).vault = s.vault := rfl
@[simp] theorem State.setBead_fab : (s.setBead x).fab = s.fab := rfl
@[simp] theorem State.setBead_arb : (s.setBead x).arb = s.arb := rfl
@[simp] theorem State.setBead_host : (s.setBead x).host = s.host := rfl
@[simp] theorem State.setBead_power : (s.setBead x).power = s.power := rfl
@[simp] theorem State.setBead_faults : (s.setBead x).faults = s.faults := rfl
@[simp] theorem State.setBead_ledger : (s.setBead x).ledger = s.ledger := rfl
@[simp] theorem State.setBead_sec : (s.setBead x).sec = s.sec := rfl
@[simp] theorem State.setBead_svc : (s.setBead x).svc = s.svc := rfl
@[simp] theorem State.setBead_out : (s.setBead x).out = s.out := rfl
@[simp] theorem State.setBead_free : (s.setBead x).free = s.free := rfl
@[simp] theorem State.setBead_pending : (s.setBead x).pending = s.pending := rfl
end

section
variable (s : State) (c : Context)
@[simp] theorem State.setCtx_time : (s.setCtx c).time = s.time := rfl
@[simp] theorem State.setCtx_regs : (s.setCtx c).regs = s.regs := rfl
@[simp] theorem State.setCtx_mem : (s.setCtx c).mem = s.mem := rfl
@[simp] theorem State.setCtx_serve : (s.setCtx c).serve = s.serve := rfl
@[simp] theorem State.setCtx_vault : (s.setCtx c).vault = s.vault := rfl
@[simp] theorem State.setCtx_fab : (s.setCtx c).fab = s.fab := rfl
@[simp] theorem State.setCtx_arb : (s.setCtx c).arb = s.arb := rfl
@[simp] theorem State.setCtx_host : (s.setCtx c).host = s.host := rfl
@[simp] theorem State.setCtx_power : (s.setCtx c).power = s.power := rfl
@[simp] theorem State.setCtx_faults : (s.setCtx c).faults = s.faults := rfl
@[simp] theorem State.setCtx_ledger : (s.setCtx c).ledger = s.ledger := rfl
@[simp] theorem State.setCtx_sec : (s.setCtx c).sec = s.sec := rfl
@[simp] theorem State.setCtx_svc : (s.setCtx c).svc = s.svc := rfl
@[simp] theorem State.setCtx_out : (s.setCtx c).out = s.out := rfl
@[simp] theorem State.setCtx_free : (s.setCtx c).free = s.free := rfl
@[simp] theorem State.setCtx_pending : (s.setCtx c).pending = s.pending := rfl
end

section
variable (s : State) (n : ArbNode)
@[simp] theorem State.setArbNode_time : (s.setArbNode n).time = s.time := rfl
@[simp] theorem State.setArbNode_regs : (s.setArbNode n).regs = s.regs := rfl
@[simp] theorem State.setArbNode_arr : (s.setArbNode n).arr = s.arr := rfl
@[simp] theorem State.setArbNode_mem : (s.setArbNode n).mem = s.mem := rfl
@[simp] theorem State.setArbNode_serve : (s.setArbNode n).serve = s.serve := rfl
@[simp] theorem State.setArbNode_vault : (s.setArbNode n).vault = s.vault := rfl
@[simp] theorem State.setArbNode_fab : (s.setArbNode n).fab = s.fab := rfl
@[simp] theorem State.setArbNode_host : (s.setArbNode n).host = s.host := rfl
@[simp] theorem State.setArbNode_power : (s.setArbNode n).power = s.power := rfl
@[simp] theorem State.setArbNode_faults : (s.setArbNode n).faults = s.faults := rfl
@[simp] theorem State.setArbNode_ledger : (s.setArbNode n).ledger = s.ledger := rfl
@[simp] theorem State.setArbNode_sec : (s.setArbNode n).sec = s.sec := rfl
@[simp] theorem State.setArbNode_svc : (s.setArbNode n).svc = s.svc := rfl
@[simp] theorem State.setArbNode_out : (s.setArbNode n).out = s.out := rfl
@[simp] theorem State.setArbNode_free : (s.setArbNode n).free = s.free := rfl
@[simp] theorem State.setArbNode_pending : (s.setArbNode n).pending = s.pending := rfl
end

section
variable (s : State) (l v : List Held)
@[simp] theorem State.holding_time : (s.holding l v).time = s.time := rfl
@[simp] theorem State.holding_regs : (s.holding l v).regs = s.regs := rfl
@[simp] theorem State.holding_arr : (s.holding l v).arr = s.arr := rfl
@[simp] theorem State.holding_mem : (s.holding l v).mem = s.mem := rfl
@[simp] theorem State.holding_serve : (s.holding l v).serve = s.serve := rfl
@[simp] theorem State.holding_vault : (s.holding l v).vault = s.vault := rfl
@[simp] theorem State.holding_fab : (s.holding l v).fab = s.fab := rfl
@[simp] theorem State.holding_arb : (s.holding l v).arb = s.arb := rfl
@[simp] theorem State.holding_host : (s.holding l v).host = s.host := rfl
@[simp] theorem State.holding_power : (s.holding l v).power = s.power := rfl
@[simp] theorem State.holding_faults : (s.holding l v).faults = s.faults := rfl
@[simp] theorem State.holding_ledger : (s.holding l v).ledger = { s.ledger with held := l } := rfl
@[simp] theorem State.holding_sec : (s.holding l v).sec = s.sec := rfl
@[simp] theorem State.holding_svc : (s.holding l v).svc = { s.svc with held := v } := rfl
@[simp] theorem State.holding_out : (s.holding l v).out = s.out := rfl
@[simp] theorem State.holding_free : (s.holding l v).free = s.free := rfl
@[simp] theorem State.holding_pending : (s.holding l v).pending = s.pending := rfl
end

section
variable (s : State) (e : List (Nat × Nat × Nat)) (o : List Out)
@[simp] theorem State.telling_time : (s.telling e o).time = s.time := rfl
@[simp] theorem State.telling_regs : (s.telling e o).regs = s.regs := rfl
@[simp] theorem State.telling_arr : (s.telling e o).arr = s.arr := rfl
@[simp] theorem State.telling_mem : (s.telling e o).mem = s.mem := rfl
@[simp] theorem State.telling_serve : (s.telling e o).serve = s.serve := rfl
@[simp] theorem State.telling_vault : (s.telling e o).vault = s.vault := rfl
@[simp] theorem State.telling_fab : (s.telling e o).fab = s.fab := rfl
@[simp] theorem State.telling_arb : (s.telling e o).arb = s.arb := rfl
@[simp] theorem State.telling_host : (s.telling e o).host = s.host := rfl
@[simp] theorem State.telling_power : (s.telling e o).power = s.power := rfl
@[simp] theorem State.telling_faults : (s.telling e o).faults = s.faults := rfl
@[simp] theorem State.telling_ledger : (s.telling e o).ledger = s.ledger := rfl
@[simp] theorem State.telling_sec : (s.telling e o).sec = { s.sec with events := e } := rfl
@[simp] theorem State.telling_svc : (s.telling e o).svc = s.svc := rfl
@[simp] theorem State.telling_out : (s.telling e o).out = o := rfl
@[simp] theorem State.telling_free : (s.telling e o).free = s.free := rfl
@[simp] theorem State.telling_pending : (s.telling e o).pending = s.pending := rfl
end

end Sys2Proof.Machine
end

