-- ==== Sys2Proof/Laws/Ops.lean ====
section
/-! SUPPORT. What the shared operations can do, said once: each lemma names the parts of the state that the operation may change, and
every part it does not name is as before. -/
set_option Elab.async false
namespace Sys2Proof.Machine

/-! ### Registers held by offset -/

theorem findKey_cons {α : Type} (p : Nat × α) (l : List (Nat × α)) (j : Nat) :
    findKey (p :: l) j = if p.1 = j then some p.2 else findKey l j := by
  unfold findKey
  rw [List.find?_cons]
  by_cases h : p.1 = j
  · simp [h]
  · have : (p.1 == j) = false := by simpa using h
    simp [h, this]

theorem findKey_map {α : Type} (l : List (Nat × α)) (k j : Nat) (v : α) :
    findKey (l.map fun p => if p.1 == k then (k, v) else p) j = if j = k then (findKey l k).map fun _ => v else findKey l j := by
  induction l with
  | nil => by_cases h : j = k <;> simp [findKey, h]
  | cons p l ih =>
    rw [List.map_cons, findKey_cons, findKey_cons, findKey_cons, ih]
    by_cases hp : p.1 = k
    · by_cases hj : j = k
      · simp [hp, hj]
      · have hk : k ≠ j := fun e => hj e.symm
        simp [hp, hj, hk]
    · by_cases hj : j = k
      · subst hj; simp [hp]
      · by_cases hpj : p.1 = j <;> simp [hp, hj, hpj]

theorem findKey_append {α : Type} (l : List (Nat × α)) (k j : Nat) (v : α) :
    findKey (l ++ [(k, v)]) j = (findKey l j).or (if k = j then some v else none) := by
  induction l with
  | nil => rw [List.nil_append, findKey_cons]; rfl
  | cons p l ih =>
    rw [List.cons_append, findKey_cons, findKey_cons, ih]
    by_cases h : p.1 = j <;> simp [h]

theorem findKey_none {α : Type} (l : List (Nat × α)) (k : Nat) : findKey l k = none ↔ l.any (fun p => p.1 == k) = false := by
  induction l with
  | nil => simp [findKey]
  | cons p l ih => rw [findKey_cons, List.any_cons]; by_cases h : p.1 = k <;> simp [h, ih]

/-- What is found after a key is replaced or added. -/
theorem findKey_putKey {α : Type} (l : List (Nat × α)) (k j : Nat) (v : α) :
    findKey (putKey l k v) j = if j = k then some v else findKey l j := by
  unfold putKey
  split
  · next h =>
    rw [findKey_map]
    cases hk : findKey l k with
    | none => rw [findKey_none] at hk; simp [hk] at h
    | some w => rfl
  · next h =>
    rw [findKey_append]
    by_cases hj : j = k
    · subst hj
      rw [(findKey_none l j).2 (Bool.not_eq_true _ ▸ h)]
      simp
    · have : k ≠ j := fun e => hj e.symm
      simp [hj, this]

/-- A register after one was written. -/
theorem State.reg_setReg (s : State) (k v o : Nat) : (s.setReg k v).reg o = if o = k then v else s.reg o := by
  unfold State.setReg State.reg
  rw [findKey_putKey]
  split <;> rfl

/-- A counter raised. -/
theorem State.reg_bumpBy (s : State) (k n o : Nat) :
    (s.bumpBy k n).reg o = if o = k then min (s.reg k + n) 0xFFFFFFFF else s.reg o := State.reg_setReg ..

theorem State.reg_bump (s : State) (k o : Nat) :
    (s.bump k).reg o = if o = k then min (s.reg k + 1) 0xFFFFFFFF else s.reg o := State.reg_bumpBy ..

/-- Raising a counter changes only the registers held by offset. -/
theorem State.bump_eq (s : State) (k : Nat) : s.bump k = { s with regs := (s.bump k).regs } := rfl

/-! ### What agreement in all parts but some gives -/

theorem Only.refl {ps : List Part} (s : State) : Only ps s s := (Kept.refl s).only

theorem Only.trans {ps : List Part} {s t u : State} (a : Only ps s t) (b : Only ps t u) : Only ps s u :=
  ⟨b.1.trans a.1, fun p h => State.agree_trans (a.2 p h) (b.2 p h)⟩

theorem Only.mono {ps qs : List Part} {s t : State} (h : Only ps s t) (hq : ps ⊆ qs) : Only qs s t := ⟨h.1, fun p n => h.2 p (n ∘ @hq p)⟩

theorem State.holding_only {s : State} {l v} : Only [.handed] s (s.holding l v) := (Kept.upd (ps := [.handed]) (Kept.refl s)).only

theorem State.telling_only {s : State} {e o} : Only [.platform, .out] s (s.telling e o) :=
  ⟨rfl, fun p h => by cases p <;> first | rfl | exact absurd (by decide) h⟩

/-- Nothing but the records held differs. -/
theorem Only.handed {s t : State} (h : Only [.handed] s t) :
    t = { s with ledger := { s.ledger with held := t.ledger.held }, svc := { s.svc with held := t.svc.held } } := by
  obtain ⟨hp, h⟩ := h
  have f := fun p hp => h p hp
  have h1 := f .time (by decide); have h2 := f .regs (by decide); have h3 := f .arr (by decide); have h4 := f .mem (by decide)
  have h5 := f .serve (by decide); have h6 := f .vault (by decide); have h7 := f .fab (by decide); have h8 := f .arb (by decide)
  have h9 := f .chans (by decide); have h10 := f .rings (by decide); have h11 := f .power (by decide); have h12 := f .faults (by decide)
  have h13 := f .ledger (by decide); have h14 := f .sec (by decide); have h15 := f .platform (by decide); have h16 := f .svc (by decide)
  have h17 := f .phase (by decide); have h18 := f .out (by decide); have h19 := f .free (by decide)
  obtain ⟨_, _, _, _, _, _, _, _, ⟨⟩, _, _, ⟨⟩, ⟨⟩, ⟨⟩, _, _, _⟩ := s
  obtain ⟨_, _, _, _, _, _, _, _, ⟨⟩, _, _, ⟨⟩, ⟨⟩, ⟨⟩, _, _, _⟩ := t
  simp only [State.agree, Prod.mk.injEq, HostIf.mk.injEq, Ledger.mk.injEq, Security.mk.injEq, Service.mk.injEq] at *
  simp_all

/-- Nothing but the platform events and what is sent differs. -/
theorem Only.platform {s t : State} (h : Only [.platform, .out] s t) :
    t = { s with sec := { s.sec with events := t.sec.events }, out := t.out } := by
  obtain ⟨hp, h⟩ := h
  have f := fun p hp => h p hp
  have h1 := f .time (by decide); have h2 := f .regs (by decide); have h3 := f .arr (by decide); have h4 := f .mem (by decide)
  have h5 := f .serve (by decide); have h6 := f .vault (by decide); have h7 := f .fab (by decide); have h8 := f .arb (by decide)
  have h9 := f .chans (by decide); have h10 := f .rings (by decide); have h11 := f .power (by decide); have h12 := f .faults (by decide)
  have h13 := f .ledger (by decide); have h14 := f .sec (by decide); have h15 := f .handed (by decide); have h16 := f .svc (by decide)
  have h17 := f .phase (by decide); have h19 := f .free (by decide)
  obtain ⟨_, _, _, _, _, _, _, _, ⟨⟩, _, _, ⟨⟩, ⟨⟩, ⟨⟩, _, _, _⟩ := s
  obtain ⟨_, _, _, _, _, _, _, _, ⟨⟩, _, _, ⟨⟩, ⟨⟩, ⟨⟩, _, _, _⟩ := t
  simp only [State.agree, Prod.mk.injEq, HostIf.mk.injEq, Ledger.mk.injEq, Security.mk.injEq, Service.mk.injEq] at *
  simp_all

/-! ### Register writes -/

/-- A row's write that is accepted: its record, its effect, and the platform events of both. -/
theorem State.write_accepted (s : State) (a : Attempt) (x : Extra) (h : s.accepts a) :
    ∃ i, regInfo a.reg = some i ∧ s.write a x = s.acceptWrite a i x := by
  obtain ⟨h1, h2, h3⟩ := h
  have hr : ∃ i, regInfo a.reg = some i := by
    unfold State.reasonOf at h3
    dsimp only at h3
    split at h3
    · cases h3
    · split at h3
      · cases h3
      · cases hi : regInfo a.reg with
        | none => rw [hi] at h3; cases h3
        | some i => exact ⟨i, rfl⟩
  obtain ⟨i, hi⟩ := hr
  refine ⟨i, hi, ?_⟩
  unfold State.write State.judge
  have hn : (a.origin = 10 && !(s.reachable a.reg)) = false := by
    by_cases ho : a.origin = 10
    · simp [ho, h2 ho]
    · simp [ho]
  simp only [h1, hn, h3, hi]
  rfl

/-- The same in one equation: only the records held and what the effect itself changes. -/
theorem State.acceptWrite_eq (s : State) (a : Attempt) (i : RegInfo) (x : Extra) :
    ∃ l v, s.acceptWrite a i x =
      ({ s with ledger := { s.ledger with held := l }, svc := { s.svc with held := v } } : State).regEffect a.origin a.reg
        (s.produced a i.access) x := by
  unfold State.acceptWrite
  dsimp only
  rw [State.recordWrite_kept.only.handed]
  exact ⟨_, _, rfl⟩

theorem State.valueOf_eq (s : State) (a : Attempt) (i : RegInfo) (h : regInfo a.reg = some i) :
    s.valueOf a = s.produced a i.access := by unfold State.valueOf; rw [h]

/-- A row that is a write, accepted: the effect of its register on a state that differs in the records held, and platform events. -/
theorem State.watchedWrite_eq (s : State) (a : Attempt) (x : Extra) (h : s.accepts a) :
    ∃ l v e o, s.watched (·.write a x) = ((s.holding l v).regEffect a.origin a.reg (s.valueOf a) x).telling e o := by
  obtain ⟨i, hi, hw⟩ := s.write_accepted a x h
  obtain ⟨l, v, ha⟩ := s.acceptWrite_eq a i x
  rw [s.valueOf_eq a i hi]
  refine ⟨l, v, _, _, Eq.trans ?_ (State.sensorEvents_kept (a1 := s)).only.platform⟩
  exact congrArg (State.sensorEvents · s) (hw.trans ha)

end Sys2Proof.Machine
end

