-- ==== Sys2Proof/Laws/Rows.lean ====
section
/-! SUPPORT. The rows that are register writes: the register each one writes, its effect there, and what a write keeps. -/
set_option Elab.async false
namespace Sys2Proof.Machine

theorem rowAttempt_reg (w : RegWr) (o on off : Nat) (h : o % 8 = 0) : (rowAttempt w o on off).reg = o := by
  unfold rowAttempt Attempt.reg
  cases w.part <;> dsimp only <;> omega

theorem rowAttempt_origin (w : RegWr) (o on off : Nat) : (rowAttempt w o on off).origin = w.origin.code := by
  unfold rowAttempt
  cases w.part <;> rfl

/-! ### The effect of a write, register by register -/

section
variable (s : State) (origin v : Nat) (x : Extra)

theorem State.regEffect_role : s.regEffect origin 0x20000 v x = s.writeRole v := rfl
theorem State.regEffect_period : s.regEffect origin 0x20018 v x = s.writePeriod v := rfl
theorem State.regEffect_takeover : s.regEffect origin 0x20020 v x = s.writeTakeover v := rfl
theorem State.regEffect_coord : s.regEffect origin 0x30000 v x = s.writeCoord v := rfl
theorem State.regEffect_admit : s.regEffect origin 0x30010 v x = s.writeAdmit v := rfl
theorem State.regEffect_thaxaCommit : s.regEffect origin 0x30028 v x = s.writeThaxaCommit v := rfl
theorem State.regEffect_cap : s.regEffect origin 0x40000 v x = s.writeCap v := rfl
theorem State.regEffect_renew : s.regEffect origin 0x40010 v x = s.writeRenew v := rfl
theorem State.regEffect_steel : s.regEffect origin 0x40028 v x = s.writeSteelCfg (bits v 0 15 + bits v 16 21 * 2 ^ 16) := rfl
theorem State.regEffect_arbCommit : s.regEffect origin 0x50020 v x = if bit v 0 then s.writeArbCommit origin else s := rfl
theorem State.regEffect_faultClear : s.regEffect origin 0x60008 v x = (s.writeFaultClear v).routesOpen := rfl
theorem State.regEffect_prove : s.regEffect origin 0x60018 v x = s.writeProveRequest v := rfl
theorem State.regEffect_ack : s.regEffect origin 0x70008 v x = s.writeAck v := rfl
theorem State.regEffect_ledgerCfg : s.regEffect origin 0x70010 v x = s.writeLedgerCfg v := rfl
theorem State.regEffect_svn : s.regEffect origin 0x70048 v x = s.writeSvnCommit origin v := rfl
theorem State.regEffect_lock : s.regEffect origin 0x10000 v x = if bit v 0 then s.setLock origin else s := rfl
theorem State.regEffect_svc : s.regEffect origin 0xB0010 v x = s.svcEffect v x := rfl
theorem State.regEffect_dmaError : s.regEffect origin 0xC0800 v x = s.writeDmaError v := rfl

theorem State.regEffect_fenceClear (d : Fin 4) : s.regEffect origin (rFrame d.val 8) v x = s.writeFenceClear d.val v := by
  fin_cases d <;> rfl

theorem State.regEffect_portCfg (k : Fin 9) : s.regEffect origin (rPort k.val 0) v x = s.writePortCfg k.val v := by
  fin_cases k <;> rfl

theorem State.regEffect_portFenceClear (k : Fin 9) :
    s.regEffect origin (rPort k.val 0x40) v x = s.writePortFenceClear k.val v := by
  fin_cases k <;> rfl

theorem State.regEffect_chanCtrl (c : Fin 32) :
    s.regEffect origin (0xC0010 + c.val * 0x40) v x = s.chanEffect c.val 0x10 v x.fetched := by
  fin_cases c <;> rfl

theorem State.regEffect_ringCfg (r : Fin 1104) :
    s.regEffect origin (0x200010 + r.val * 0x40) v x = s.writeRingCfg r.val v := by
  have h := r.isLt
  have hb : (0x200010 + r.val * 0x40) / 0x10000 = 32 ∨ (0x200010 + r.val * 0x40) / 0x10000 = 33 := by omega
  have h1 : (0x200010 + r.val * 0x40 - 0x200000) / 0x40 = r.val := by omega
  have h2 : (0x200010 + r.val * 0x40) % 0x40 = 16 := by omega
  unfold State.regEffect State.ringEffect
  dsimp only
  rw [h1, h2]
  rcases hb with hb | hb <;> rw [hb] <;> rfl

end

/-- What a row that is an accepted write does: the effect of its register on a state that differs in the records held, and platform
events. -/
theorem does_write {c : Instr} {s : State} {a : Attempt} {x : Extra} {P : State → Prop} (o : Nat)
    (hc : exec c s = .next (s.watched (·.write a x))) (h : s.accepts a) (ho : a.reg = o)
    (hp : ∀ l v e z, P (((s.holding l v).regEffect a.origin o (s.valueOf a) x).telling e z)) : Does c s P := by
  obtain ⟨l, v, e, z, hw⟩ := s.watchedWrite_eq a x h
  subst ho
  exact ⟨_, hc, hw ▸ hp l v e z⟩

/-- The frame of the same. -/
theorem only_write {s y : State} {ps : List Part} {l v e z} (h : Only ps (s.holding l v) y)
    (hb : [.handed, .platform, .out] ⊆ ps := by decide) : Only ps s (y.telling e z) :=
  ((State.holding_only.mono (List.Subset.trans (by decide) hb)).trans h).trans
    (State.telling_only.mono (List.Subset.trans (by decide) hb))

/-! ### What a write keeps -/

/-- A write that is a row keeps what its own effect, a refusal and a record keep. -/
theorem State.watchedWrite_kept {s : State} {a : Attempt} {x : Extra} {ps : List Part}
    (h : ∀ y v, Kept ps y (y.regEffect a.origin a.reg v x)) (hb : [.regs, .handed, .platform, .svc, .out] ⊆ ps := by decide) :
    Kept ps s (s.watched (·.write a x)) := by
  unfold State.watched
  refine Kept.andThen State.sensorEvents_kept ?_ (List.Subset.trans (by decide) hb)
  show Kept ps s (s.write a x)
  unfold State.write
  split
  · exact Kept.refl _
  · split
    · exact State.refuseWrite_kept.mono (List.Subset.trans (by decide) hb)
    · unfold State.judge
      split
      · exact Kept.on (h _ _) (State.recordWrite_kept.mono (List.Subset.trans (by decide) hb))
      · exact State.refuseWrite_kept.mono (List.Subset.trans (by decide) hb)

/-- The register of a whole write of TAKEOVER. -/
theorem takeover_reg (o n : Nat) : (⟨o, 0x20020, 8, n, false⟩ : Attempt).reg = 0x20020 := by
  exact Nat.div_mul_cancel (m := 0x20020) (by decide)

theorem State.takeoverWrite_kept {s : State} {a : Attempt} (h : a.reg = 0x20020) :
    Kept [.time, .regs, .handed, .platform, .svc, .out] s (s.watched (·.write a Extra.none)) := by
  refine State.watchedWrite_kept fun y v => ?_
  rw [h, State.regEffect_takeover]
  exact State.writeTakeover_kept.mono (by decide)

theorem State.takeover_row_kept {s : State} {o : Origin} {a b : Nat} :
    Kept [.time, .regs, .handed, .platform, .svc, .out] s (s.takeover o a b) := by
  unfold State.takeover
  generalize b + a * 2 ^ 48 = n
  exact State.takeoverWrite_kept (takeover_reg _ _)

end Sys2Proof.Machine
end

