-- ==== Sys2Proof/WellFormed.lean ====
section
/-! DEFINITION. Well-formedness of a command: the bounds its operands keep where the operand types are wider than what can arrive
(lists of a fixed length, an index whose bound depends on another operand). `exec` is total on every term all the same. -/
namespace Sys2Proof

/-- The opcodes of R398; every other one is reserved. -/
def opcodes : List Nat :=
  [0x01, 0x02, 0x03, 0x04, 0x05, 0x06, 0x07, 0x08, 0x10, 0x11, 0x12, 0x20, 0x21, 0x22, 0x23, 0x30, 0x31, 0x38, 0x3F]

/-- A fetched SQ entry holds ARGS of 44 bytes, and the parameter block as long as PARAM_LEN gives (R391, R399). -/
def Cmd.wf (c : Cmd) : Bool :=
  c.args.length == 44 && (c.block.length == c.paramLen.toNat || c.busError || c.fetchError || c.block.isEmpty) &&
    (match c.opcode with | some o => !(opcodes.contains o.toNat) | none => true)

/-- A DATA message carries, and LENGTH counts, at most 65,536 payload bytes; OFFSET has 46 bits (R302). -/
def Msg.wf (m : Msg) : Bool := m.payload.length ≤ 65536 && m.length.toNat ≤ 65536 && m.offset.toNat < 70368744177664

/-- A TRAIN set carries one credit count per virtual channel (R287). -/
def TrainSet.wf (t : TrainSet) : Bool := t.credits.length == 4

/-- Voltages, powers and temperatures are what a 16-bit measurement register can show (R416, R435). -/
def InputSample.wf (x : InputSample) : Bool :=
  [x.vin, x.input, x.die0, x.die1, x.die2, x.die3, x.hub, x.hbm, x.vault].all fun v => v < 65536

def TempSample.wf (x : TempSample) : Bool := [x.fd0, x.fd1, x.fd2, x.fd3, x.hub, x.hbm].all fun v => v < 65536

/-- The arbiter instances of each kind: 9 Thaxa ports, 24 × 32 HBM channels, 128 vault channels, 16 common-store banks (R326). -/
def ArbKind.count : ArbKind → Nat
  | .thaxa => 9 | .hbm => 768 | .vault => 128 | .cs => 16

/-- Each HBM channel is named once in the outcome of training (R487): 24 stacks of 32 channels. -/
def untrainedWf (l : List (Fin 24 × Fin 32)) : Bool := l.eraseDups.length == l.length
/-- A start names each channel once, and each journal record of a mirror once. -/
def StartUp.wf (b : StartUp) : Bool :=
  untrainedWf b.untrained && (b.journal.map fun j => (j.second, j.at_)).eraseDups.length == b.journal.length

/-- A command as it can arrive. -/
def Instr.wf : Instr → Bool
  | .beatBoundary | .markerAccept _ _ | .markerDecision | .slewTick | .masterStart | .timeBeatRead _ | .beatRole _
  | .beatPeriod _ | .takeoverMaster _ _ | .takeoverRelinquish _ _ => true
  | .layerStart _ _ | .prefetch _ _ | .slotSelect _ _ | .opPref _ _ | .lockBegin _ _ | .collectiveWindow _ _
  | .replaySlot _ _ | .telemetry _ _ | .stepEnd _ _ | .stepCompletion _ _ => true
  | .nop _ | .matrix _ _ | .vector _ _ | .copy _ _ | .select _ _ | .dispatch _ _ _ | .combine _ _ | .emit _ _ _ | .fill _ _
  | .tileLanding _ _ _
  | .writeback _ _ | .gather _ _ | .gatherComplete _ _ | .build _ _ | .counter _ | .wait _ | .contextSwitch _
  | .entryArrival _ _ _ | .steeringSwitchFire _ _ | .steeringMergeFire _ _ | .spatialDeadlock _ _
  | .dictionaryRecordLoad _ _ _ | .rodRemap _ _ => true
  | .swapDecision _ | .contextRestoreDone _ _ | .prefetchTileLand _ _ _ | .prefetchFillBy _ _ | .journalFlushTimer
  | .pageProgramDone _ _ | .powerFail => true
  | .install c _ => c.wf
  | .installBegin m | .installAccept m _ | .installRefuse m | .installCredit m _ | .installData m | .installEnd m
  | .installReport m _ | .installRepair m | .installCommit m | .installCommitted m | .installAbort m
  | .shardRepair m | .catalogueSync m _ => m.wf
  | .acceptWaitTimeout | .reportTimer | .commitResend | .installInactivityTimeout => true
  | .imageDelete c | .adapterBind c _ | .adapterUnbind c | .instanceCreate c | .configLoad c | .instanceRestart c
  | .instanceRelease c | .poolSet c | .ownSet c | .tenantSet c | .tableLoad c | .routeTableLoad c | .automatonLoad c
  | .seqSubmit c _ | .seqCancel c | .hint c | .nopCommand c | .activate c _ => c.wf
  | .admitTimeout _ _ | .samplerPosition _ _ _ | .draftTokenDraw _ _ _ => true
  | .load m _ | .store m _ | .atomic m _ | .bulkPut m _ | .bulkGet m _ => m.wf
  | .response m | .coll m | .sectionMsg m | .replayReq m | .handoff m | .fmWrite m | .fmRead m | .jobTeardown m
  | .notice m => m.wf
  | .remoteQueueScan _ _ | .fabricDeadline _ | .collectiveSendStart _ _ | .collectiveWindowClose _ _
  | .replaySlotClose _ _ => true
  | .bridgeUnitReplay _ _ | .linkNakReceive _ _ | .ackTimer _ | .delayMeasurement _ | .delayReq _ _
  | .delayResp _ _ _ | .steelyardSetReceive _ _ | .trainingStateExit _ | .trainingBoundExpiry _ _ => true
  | .train _ set => set.wf
  | .portCfg _ _ | .coord _ | .fabricAdmit _ | .thaxaCommit _ | .portFenceClear _ _ | .arbCommit _
  | .arbSetActivation => true
  | .sqDoorbell _ | .completionHeadDoorbell _ | .irqTimer _ | .ringEnable _ _ | .ringDisable _ _
  | .functionLevelReset _ | .perst | .d3hotEntry _ | .d0Return _ | .chanStart _ _ _ | .chanStop _ _
  | .dmaDoorbell _ _ | .dmaBusError _ _ | .busErrorClear _ | .dmaCopyDone _ _ _ _ => true
  | .powerDecision | .lowInputClear | .hardwareTrip | .droopTrip _ | .droopRecovery _ | .droopCeilingLift _
  | .cap _ | .capRenew _ | .leaseExpiry | .steelyardCfg _ => true
  | .inputSample x boot => x.wf && boot.wf
  | .sensorRead x => x.wf
  | .provingRunStart _ | .provingRunTimeout _ | .provingRunEnd _ _ _ => true
  | .routineProving _ | .proveRequest _ | .faultClear _ | .fenceClear _ _ => true
  | .ledgerAppend | .checkpointTimer | .checkpointSigned | .ledgerAck _ | .ledgerCfg _ | .identityRead _
  | .ledgerRead _ _ | .ckptRead _ _ | .pubkeyRevoke _ _ | .fwUpdateBegin _ _ | .fwUpdateEnd _ | .fwSvnCommit _
  | .fwUpdateData _ _ _ => true
  | .pubkeySet _ _ _ key => key.length == 68
  | .setTid _ _ | .getTid _ | .getPldmVersion _ _ | .getPldmTypes _ | .getPldmCommands _ _ | .setEventReceiver _ _
  | .getPdrRepositoryInfo _ | .getPdr _ _ | .getSensorReading _ _ | .getStateSensorReadings _ _
  | .pldmEventResend _ => true
  | .getVersion _ | .getCapabilities _ | .negotiateAlgorithms _ | .chunkGet _ _ | .respondIfReady _ _
  | .vendorDefinedRequest _ _ _ => true
  | .challenge _ nonce => nonce.length == 32
  | .getMeasurements _ _ signed nonce => !signed || nonce.length == 32
  | .setupLock _ | .regRead | .registerWrite _ _ _ _ | .regAddr _ _ => true
  | .standby _ | .prepareRemove _ | .vstbyApplied | .mainEnDeassert | .presentSenseLoss | .refLoss => true
  | .flitReceive _ raw => raw.length == 256
  | .fecAlignmentLoss _ _ => true
  | .resume _ _ boot => boot.wf
  | .svcReset _ boot | .mainEnAssert boot => boot.wf
  | .arbiterDecision kind index waiting _ sub => index.val < kind.count && waiting.length ≤ 8 && (kind == .thaxa || sub.val == 0)
  | .msixVectorUnmask _ _ | .installReaderTimeout | .bringUpBoundExpiry _ | .vhbmLoss | .inputLoss
  | .ref100Return | .delayExchange _ => true
  | .recoveryImageReceived _ untrained => untrainedWf untrained

end Sys2Proof
end

