-- ==== Sys2Proof/Tests/Slice0.lean ====
section
/-! SUPPORT. Tests: ill-formed commands that the check refuses, single commands with the results that the spec's rules give, and, for
every statement with hypotheses, states and operands that meet them. -/
namespace Sys2Proof.Tests
open Sys2Proof Sys2Proof.Machine
set_option Elab.async false

/-! ### States -/

/-- The module after boot, at beat 100, with a time base and a coordinate, before admission to a fabric. -/
def up : State :=
  { State.reset with
    svc := { State.reset.svc with phase := .setupLocked, locked := true, island := true, hbmReady := true, vstby := true, mainEn := true }
    ledger := { State.reset.ledger with running := true }
    fab := { State.reset.fab with coordValid := true, part := 1, row := 2, col := 3 }
    vault := { State.reset.vault with mapReady := true }
    time := { State.reset.time with beat := 100, tick := 50, clk := 1000000, st := .locked, role := .slave, acquired := true } }

/-- The module admitted to its fabric, every port trained. -/
def adm : State :=
  let ps := up.fab.ports.map fun (p : Port) => { p with st := PortSt.admitted, enable := true }
  { up with fab := { up.fab with admitted := true, ports := ps } }

/-- Running boot firmware, before the setup lock. -/
def booting : State := { up with svc := { up.svc with phase := .boot, locked := false } }

/-- The ledger as full as it may be: the next change of state is refused. -/
def shut : State :=
  let r : LedgerRec := ⟨300000, ⟨0, 0⟩, 1, false, false, 0, [], [], []⟩
  { up with ledger := { up.ledger with full := true, low := true, head := 300000, ring := List.replicate 258048 r } }

def mg (v : Word64) : RegWr := ⟨.mgmt, .whole, v⟩
def host (v : Word64) : RegWr := ⟨.pf, .whole, v⟩
def mfm (v : Word64) : RegWr := ⟨.fm, .whole, v⟩

/-! ### The block as a whole: operands that meet the hypotheses -/

/-- StepRunsFront, EveryCommandAnswers, CommandFrames, StepKeepsMemory, StepKeepsShape, MonotoneCounters: a step is taken from `up`, and
from a state with commands waiting. -/
theorem meets_steps :
    ({ up with pending := [.slewTick, .masterStart] } : State).pending = .slewTick :: [.masterStart] ∧
    (∃ t, exec .slewTick up = .next t) ∧ (∃ t, step up = .next t) ∧ up.shape ∧ up.memOk ∧
    (up.present [.irqTimer 0, .vstbyApplied, .ackTimer 8, .delayReq 2 5, .perst]).pending =
      [.delayReq 2 5, .perst, .irqTimer 0, .vstbyApplied, .ackTimer 8] :=
  ⟨rfl, ⟨_, rfl⟩, ⟨_, rfl⟩, by unfold State.shape; decide +kernel, by unfold State.memOk; decide +kernel, by decide +kernel⟩

/-- The module at the given tick of its beat, phase of the slew counter and remaining correction. -/
def atTick (tick ctr10 : Nat) (corr : Int) : State := { up with time := { up.time with tick := tick, ctr10 := ctr10, corr := corr } }

/-- IdleTick: the hub off; the last plain tick before a beat's end; a marked tick for each sign of the correction, the doubled one at the
last tick that leaves room for it; the end of the beat. -/
theorem meets_IdleTick :
    up.pending = [] ∧ State.reset.pending = [] ∧ State.reset.hubRuns = false ∧ (atTick 0 0 0).hubRuns = true ∧
    ((atTick 49998 1022 3).time.ctr10 < 1023 ∧ (atTick 49998 1022 3).time.tick + 1 < (atTick 49998 1022 3).beatTicks) ∧
    ((atTick 49998 1023 0).time.ctr10 = 1023 ∧ (atTick 49998 1023 0).time.tick + 1 < (atTick 49998 1023 0).beatTicks) ∧
    ((atTick 49999 1023 1).time.ctr10 = 1023 ∧ 0 < (atTick 49999 1023 1).time.corr) ∧
    ((atTick 49997 1023 (-1)).time.corr < 0 ∧ (atTick 49997 1023 (-1)).time.tick + 2 < (atTick 49997 1023 (-1)).beatTicks) ∧
    ((atTick 49999 1022 1).time.ctr10 < 1023 ∧ (atTick 49999 1023 0).time.corr = 0 ∧
      (atTick 49999 1022 1).beatTicks ≤ (atTick 49999 1022 1).time.tick + 1) := by decide +kernel

/-! ### Register writes -/

/-- A state whose ledger is full enough to refuse what comes from outside. -/
theorem shut_shut : shut.ledgerShut = true := by
  simp [-List.reduceReplicate, State.ledgerShut, Ledger.unacked, shut, up, State.reset, Ledger.reset]

/-- WriteChecks: one attempt for each check, and one that passes. -/
theorem meets_WriteChecks :
    ((2 ≠ 4 ∧ 2 ≠ 8) ∧ (0x20004 : Nat) % 8 ≠ 0) ∧
    (⟨10, 0xFFFFF8, 8, 0, false⟩ : Attempt).off % 8 = 0 ∧ regInfo (⟨10, 0xFFFFF8, 8, 0, false⟩ : Attempt).reg = none ∧
    (regInfo 0x20018 = some ⟨.rw, [10], false⟩ ∧ up.originMay ⟨.rw, [10], false⟩ 1 0x20018 = false ∧
      up.originMay ⟨.rw, [10], false⟩ 10 0x20018 = true) ∧
    (regInfo 0x10020 = some ⟨.lk, [0, 12], false⟩ ∧ up.originMay ⟨.lk, [0, 12], false⟩ 0 0x10020 = true ∧ up.svc.locked = true) ∧
    (up.encodingOk 0x20018 15 = false ∧ up.encodingOk 0x20018 16 = true ∧ up.encodingOk 0x20018 2000 = true ∧
      up.encodingOk 0x20018 2001 = false) ∧
    (up.stateOk 0x20018 16 = false ∧ up.stateOk 0x20010 8 = true) ∧
    (shut.answers = true ∧ fromOutside 10 = true ∧ ledgerExempt 10 0x20010 = false ∧ ledgerExempt 10 0x70008 = true) ∧
    up.ledgerShut = false ∧ up.ledger.running = true ∧
    (State.reset.pathUp 10 = false ∧ booting.pathUp 10 = true ∧ booting.reachable 0x20010 = false) := by decide +kernel

/-- RegisterWrite: a write accepted, one refused, one before the hub is up, one on a path that does not reach the module. -/
theorem meets_RegisterWrite :
    up.accepts ⟨Origin.mgmt.code, 0x20010, 8, 8, false⟩ ∧
    (up.pathUp 10 = true ∧ up.reachable 0x20010 = true ∧ up.reasonOf ⟨10, 0x20010, 8, 9, false⟩ ≠ 0) ∧
    (booting.pathUp 10 = true ∧ booting.reachable 0x20010 = false) ∧ State.reset.pathUp 1 = false ∧ booting.answers = false := by
  unfold State.accepts; decide +kernel

/-- ClassShadows: the first and the last class register, an index beyond those used, and class 7. -/
theorem meets_ClassShadows :
    (⟨Origin.pf.code, 0x50000, 8, 0x7654321, false⟩ : Attempt).reg = 0x50000 + 8 * 0 ∧ up.arb.shadow.length = 4 ∧
    up.accepts ⟨Origin.pf.code, 0x50000, 8, 0x654321, false⟩ ∧ up.accepts ⟨Origin.mgmt.code, 0x50018, 8, 0x66543210, false⟩ ∧
    (⟨1, 0x50018, 8, 0, false⟩ : Attempt).reg = 0x50000 + 8 * 3 ∧
    (6 ≤ 7 ∧ bits (up.valueOf ⟨1, 0x50000, 8, 2 ^ 30, false⟩) (4 * 7) 3 ≠ 0) ∧
    (1 < 6 ∧ bits (up.valueOf ⟨1, 0x50000, 8, 0x70, false⟩) (4 * 1) 3 = 7) := by
  unfold State.accepts; decide +kernel

/-- TimeWrites: each role, a period to come and the period in force, both takeovers. -/
theorem meets_TimeWrites :
    (let s : State := { up with time := { up.time with role := .none, st := .unlocked } }
     (s.accepts (rowAttempt (mg 1) 0x20000 0 0) ∧ s.valueOf (rowAttempt (mg 1) 0x20000 0 0) % 4 = 1) ∧
     (s.accepts (rowAttempt (mg 2) 0x20000 0 0) ∧ s.valueOf (rowAttempt (mg 2) 0x20000 0 0) % 4 = 2)) ∧
    (up.accepts (rowAttempt (mg 0) 0x20000 0 0) ∧ up.valueOf (rowAttempt (mg 0) 0x20000 0 0) % 4 = 0) ∧
    (let s : State := { up with time := { up.time with role := .master } }
     s.accepts (rowAttempt (mg (16 + 108 * 2 ^ 16)) 0x20018 0 0) ∧ s.accepts (rowAttempt (mg (50 + 108 * 2 ^ 16)) 0x20018 0 0) ∧
     s.accepts ⟨Origin.mgmt.code, 0x20020, 8, (102 : BitVec 48).toNat + 2 * 2 ^ 48, false⟩) ∧
    up.accepts ⟨Origin.mgmt.code, 0x20020, 8, (102 : BitVec 48).toNat + 1 * 2 ^ 48, false⟩ := by
  unfold State.accepts; decide +kernel

/-- ThaxaWrites: coordinates, admission and its end, the spare map's commit, a port's settings, a port's fence. -/
theorem meets_ThaxaWrites :
    up.accepts (rowAttempt (mg 0xF88) 0x30000 0 0) ∧
    (let s : State := { adm with fab := { adm.fab with admitted := false } }
     s.accepts (rowAttempt (mg 1) 0x30010 0 0) ∧ s.fab.admitted = false ∧ bit (s.valueOf (rowAttempt (mg 1) 0x30010 0 0)) 0 = true) ∧
    (adm.accepts (rowAttempt (mg 0) 0x30010 0 0) ∧ adm.fab.admitted = true ∧ bit (adm.valueOf (rowAttempt (mg 0) 0x30010 0 0)) 0 = false) ∧
    (let s : State := { adm with fab := { adm.fab with spareBeatShadow := 102 } }
     s.accepts (rowAttempt (mfm 1) 0x30028 1 0) ∧ bit (s.valueOf (rowAttempt (mfm 1) 0x30028 1 0)) 0 = true) ∧
    (up.shape ∧ up.accepts (rowAttempt (mg 7) (rPort 8 0) 0 0) ∧ up.accepts (rowAttempt (mg 0) (rPort 0 0) 0 0) ∧
      bit (up.valueOf (rowAttempt (mg 0) (rPort 0 0) 0 0)) 0 = false) ∧
    (up.accepts (rowAttempt (mg 1) (rPort 8 0x40) 1 0) ∧ bit (up.valueOf (rowAttempt (mg 1) (rPort 8 0x40) 1 0)) 0 = true) := by
  unfold State.accepts State.shape; decide +kernel

/-- A class set that waits for its tick, at the given tick of a beat; a cap whose lease ends at the given tick of the run. -/
def arbPending (tick : Nat) : State := { atTick tick 0 0 with arb := { up.arb with pend := some ([1, 2, 3, 4], 1000128, 1) } }
def leased (due : Nat) : State := { up with power := { up.power with lease := some due } }

/-- UnitWrites: the class set's commit and its activation, due in the running beat and not, a lease that ends at the tick of a write, the acknowledgement up to the newest record, the mirror's switch, the fused
SVN, the cap at both ends of its range, its renewal, the steelyard. -/
theorem meets_UnitWrites :
    (up.accepts (rowAttempt (host 1) 0x50020 1 0) ∧ bit (up.valueOf (rowAttempt (host 1) 0x50020 1 0)) 0 = true) ∧
    ((arbPending 50).arb.pend = some ([1, 2, 3, 4], 1000128, 1) ∧ (arbPending 50).fallsDue 1000128 = true ∧
      (arbPending 49872).fallsDue 1000128 = false) ∧
    (let s : State := { up with ledger := { up.ledger with head := 7 } }
     s.accepts (rowAttempt (mg 7) 0x70008 0 0) ∧ s.accepts (rowAttempt (mg 0) 0x70008 0 0)) ∧
    up.accepts (rowAttempt (mg 0) 0x70010 0 0) ∧
    (up.accepts (rowAttempt (mg 1) 0x70048 1 0) ∧ bit (up.valueOf (rowAttempt (mg 1) 0x70048 1 0)) 0 = true) ∧
    up.accepts (rowAttempt (mg 1500) 0x40000 0 0) ∧ up.accepts (rowAttempt (mg 3600) 0x40000 0 0) ∧
    (up.accepts (rowAttempt (mg 1) 0x40010 1 0) ∧ bit (up.valueOf (rowAttempt (mg 1) 0x40010 1 0)) 0 = true ∧ up.power.lease = none) ∧
    up.accepts (rowAttempt (mg (1 + 43000 * 2 ^ 16)) 0x40028 0 0) ∧ up.accepts (rowAttempt (mg 0) 0x40028 0 0) := by
  unfold State.accepts; decide +kernel

theorem meets_UnitWrites_lease :
    ((leased 1000000).accepts (rowAttempt (mg 1) 0x40010 1 0) ∧ 1000000 ≤ (leased 1000000).time.clk ∧
      (leased 1000000).time.tick < (leased 1000000).beatTicks) ∧
    ((leased 1000001).accepts (rowAttempt (mg 1500) 0x40000 0 0) ∧ (leased 1000001).time.clk < 1000001) := by
  unfold State.accepts; decide +kernel

/-- One DMA channel in the given state, and a ring that is set up. -/
def chanIn (st : ChanSt) (pendingStop : Bool) (desc : Option Word512) : State :=
  let cs : List Chan := setNth up.host.chans 5 { Chan.reset with owner := 1, head := 0x1000, st := st, stopPending := pendingStop, desc := desc }
  { up with host := { up.host with chans := cs } }
def ringUp (r : Nat) : State :=
  let x : Ring := { Ring.reset r with enable := true, st := 1, sizeLog := 4, head := 2, tail := 5, used := 3, owner := 1 }
  { up with host := { up.host with rings := [x] } }

/-- HostWrites: a ring enabled at both ends of the range of sizes and disabled, a channel started and stopped from every state, the end
of a bus error. -/
theorem meets_HostWrites :
    (up.accepts (rowAttempt (host (4 * 2 + 1)) (0x200010 + 1103 * 0x40) 1 0) ∧
      bit (up.valueOf (rowAttempt (host (4 * 2 + 1)) (0x200010 + 1103 * 0x40) 1 0)) 0 = true ∧ (up.ring 1103).enable = false) ∧
    (ringUp 512).accepts (rowAttempt (host (4 * 2 + 1)) (0x200010 + 512 * 0x40) 1 0) ∧
    ((ringUp 512).accepts (rowAttempt (host 8) (0x200010 + 512 * 0x40) 0 1) ∧
      bit ((ringUp 512).valueOf (rowAttempt (host 8) (0x200010 + 512 * 0x40) 0 1)) 0 = false) ∧
    (up.shape ∧ up.accepts (rowAttempt (host 1) (0xC0010 + 5 * 0x40) 1 0) ∧
      bit (up.valueOf (rowAttempt (host 1) (0xC0010 + 5 * 0x40) 1 0)) 0 = true ∧ up.chanRests 5 = true) ∧
    ((descOf 0).own = false ∧ (descOf (BitVec.ofNat 512 (2 ^ 511 + 2 ^ 226 + 64 * 2 ^ 192))).own = true ∧
      (descOf (BitVec.ofNat 512 (2 ^ 511 + 2 ^ 226 + 64 * 2 ^ 192))).ok = true ∧ (descOf (BitVec.ofNat 512 (2 ^ 511))).ok = false) ∧
    (∀ st ∈ [ChanSt.fetch, .waiting, .run, .writeback, .idle, .stopped, .error],
      (chanIn st false none).accepts (rowAttempt (host 2) (0xC0010 + 5 * 0x40) 2 0)) ∧
    bit (up.valueOf (rowAttempt (host 2) (0xC0010 + 5 * 0x40) 2 0)) 1 = true ∧
    (up.accepts (rowAttempt (host 1) 0xC0800 1 0) ∧ bit (up.valueOf (rowAttempt (host 1) 0xC0800 1 0)) 0 = true) := by
  unfold State.accepts State.shape; decide +kernel

/-- StopAtBoundary: the stop in every state, and the copy that ends with the stop pending. -/
theorem meets_StopAtBoundary :
    (chanIn .run true (some 5)).shape ∧
    (∀ st ∈ [ChanSt.run, .fetch, .waiting, .idle, .stopped], (chanIn st false none).accepts (rowAttempt (host 2) (0xC0010 + 5 * 0x40) 2 0) ∧
      ((chanIn st false none).chan 5).st = st) ∧
    (((chanIn .run true (some 5)).chan 5).st = .run ∧ ((chanIn .run true (some 5)).chan 5).desc = some 5 ∧
      ((chanIn .run true (some 5)).chan 5).stopPending = true ∧ (chanIn .run true (some 5)).dmaStatus 1 (descOf 5) ≠ stOK) ∧
    (let w := BitVec.ofNat 512 (2 ^ 511 + 2 ^ 226 + 64 * 2 ^ 192 + mpaHbm 0 0x10000 * 2 ^ 128)
     (chanIn .run true (some w)).dmaStatus 1 (descOf w) = stOK ∧
     (chanIn .run true (some w)).hubWaits ((descOf w).out || merges (descOf w).dst (descOf w).len) (descOf w).mpa (descOf w).len = false) := by
  unfold State.accepts State.shape; decide +kernel

/-- A proving run that waits for port 3. -/
def provingPort : State :=
  let r : Run := { unit := .port 3, region := 0, run := 6, more := false, cls := 12, first := ⟨0, 0⟩, merged := 0, started := none, beat := 0,
                   repeated := false, routine := false }
  { up with faults := { up.faults with status := 1, runs := [r], remaps := [(0, 3)] } }

/-- FaultWrites: a run requested of a unit with and without one in the queue, the clearing of faults, of a frame's fence, the lock. -/
theorem meets_FaultWrites :
    ((proveTarget (up.valueOf (rowAttempt (mg (6 + 3 * 2 ^ 25)) 0x60018 0 0))).isSome = true ∧
      up.accepts (rowAttempt (mg (6 + 3 * 2 ^ 25)) 0x60018 0 0) ∧ (∀ r ∈ up.faults.runs, r.unit ≠ .port 3 ∨ r.region ≠ 0)) ∧
    (provingPort.accepts (rowAttempt (mg (6 + 3 * 2 ^ 25)) 0x60018 0 0) ∧ ∃ r ∈ provingPort.faults.runs, r.unit = .port 3 ∧ r.region = 0) ∧
    (up.accepts (rowAttempt (mg 1) 0x60008 1 0) ∧ bit (up.valueOf (rowAttempt (mg 1) 0x60008 1 0)) 0 = true) ∧
    (up.accepts (rowAttempt (mg 1) (rFrame 3 8) 1 0) ∧ bit (up.valueOf (rowAttempt (mg 1) (rFrame 3 8) 1 0)) 0 = true ∧
      bit (up.rodMap 3) 7 = false) ∧
    (let s : State := { up with regs := putKey up.regs (rFrame 3 0) (0x80 + 5) }
     s.accepts (rowAttempt (mg 1) (rFrame 3 8) 1 0) ∧ bit (s.rodMap 3) 7 = true) ∧
    (booting.accepts (rowAttempt ⟨.firmware, .whole, 1⟩ 0x10000 1 0) ∧
      bit (booting.valueOf (rowAttempt ⟨.firmware, .whole, 1⟩ 0x10000 1 0)) 0 = true) := by
  unfold State.accepts; decide +kernel

/-- A message of the fabric manager, and one of the node `src` of this partition, to the hub of this module. -/
def fmMsg (block off : Nat) (payload : List Byte) : Msg :=
  { Msg.blank with port := 2, vc := 3, fm := true, dest := 0x498, aux := BitVec.ofNat 32 block, offset := BitVec.ofNat 64 off,
                   length := BitVec.ofNat 32 payload.length, payload := payload }
def nodeMsg (src : Nat) (payload : List Byte) : Msg :=
  { Msg.blank with port := 2, vc := 1, part := 1, dest := 0x498, src := BitVec.ofNat 14 src,
                   length := BitVec.ofNat 32 payload.length, payload := payload }

/-- RegisterReads: the hub's registers within reach and not, the register that REG_ADDR names, a read and writes of the fabric manager. -/
theorem meets_RegisterReads :
    (up.reachable 0x20030 = true ∧ booting.reachable 0x20030 = false ∧ up.svc.island = true ∧ State.reset.svc.island = false) ∧
    (let s : State := { up with svc := { up.svc with regAddr := some (0x20018, 8) } }
     s.svc.island = true ∧ s.svc.regAddr = some (0x20018, 8) ∧ 0x20018 / 8 * 8 ≠ 0x20030) ∧
    (adm.answers = true ∧ adm.takes 0x31 (fmMsg 2 0x18 []) ∧ (fmMsg 2 0x18 []).payload = [] ∧ fmOffset (fmMsg 2 0x18 []) % 8 = 0 ∧
      fmOutside (fmMsg 2 0x18 []) = false ∧ regInfo (fmOffset (fmMsg 2 0x18 [])) ≠ none ∧ adm.answerable (fmMsg 2 0x18 [])) ∧
    (adm.takes 0x30 (fmMsg 3 0x18 (leBytes 8 15)) ∧ (fmMsg 3 0x18 (leBytes 8 15)).payload.length = 8 ∧
      fmOffset (fmMsg 3 0x18 (leBytes 8 15)) % 8 = 0 ∧ fmOutside (fmMsg 3 0x18 (leBytes 8 15)) = false ∧
      adm.accepts ⟨11, 0x30018, 8, leNat (leBytes 8 15), false⟩ ∧ adm.reasonOf ⟨11, 0x30018, 8, leNat (leBytes 8 8), false⟩ ≠ 0) := by
  unfold State.accepts State.takes State.answerable; decide +kernel

/-! ### The ledger and the security engine -/

def held1 : Held := { due := 2000, stamp := ⟨1, 2⟩, origin := 10, refused := false, boot := false, object := 7, old := [1], new := [2], cq := none }
def rec1 : LedgerRec := ⟨4, ⟨1, 2⟩, 10, false, false, 7, [], [], []⟩
/-- A module with ledger records behind it: one held, one in the ring, one checkpoint to sign and one in the store. -/
def ledgered : State :=
  { up with ledger := { up.ledger with held := [held1], ring := [rec1], head := 4, since := 3, signing := [rec1], store := [⟨rec1, 0, []⟩] }
            sec := { up.sec with blocks := 1, nextLeaf := 1023 } }

/-- LedgerAppend: the ledger unit running and not, a record held that is due and one that is not, before and at the 65,536th record. -/
theorem meets_LedgerAppend :
    (ledgered.ledger.running = true ∧ ledgered.ledger.held = held1 :: [] ∧ ledgered.fallsDue held1.due = true ∧
      ledgered.ledger.since + 1 < 65536) ∧
    (let s : State := { ledgered with ledger := { ledgered.ledger with held := [{ held1 with due := 1049950 }] } }
     ∀ h ∈ s.ledger.held.head?, s.fallsDue h.due = false) ∧
    (let s : State := { ledgered with ledger := { ledgered.ledger with since := 65535 } }
     s.ledger.running = true ∧ s.ledger.held = held1 :: [] ∧ 65536 ≤ s.ledger.since + 1) ∧
    State.reset.ledger.running = false ∧ up.ledger.held = [] := by decide +kernel

/-- Checkpoints: one due and none due, a signature under way and none, the last leaf of a block, a block used up, no block left. -/
theorem meets_Checkpoints :
    (ledgered.ledger.running = true ∧ 1 ≤ ledgered.ledger.since ∧ ledgered.sec.nextLeaf < ledgered.sec.blocks * 1024 ∧
      ledgered.sec.exhausted = false ∧ ledgered.ledger.signing = rec1 :: [] ∧ (∀ k ∈ ledgered.ledger.held, k.isCkpt = false) ∧
      ledgered.fallsDue (ledgered.ledger.sinceClk + 1000000000) = false) ∧
    (let s : State := { ledgered with time := { ledgered.time with clk := 1000000000 } }
     s.fallsDue (s.ledger.sinceClk + 1000000000) = true) ∧
    (∃ k : Held, ({ held1 with object := object 0x0C 3 } : Held) = k ∧ k.isCkpt = true) ∧
    up.ledger.since = 0 ∧ up.ledger.signing = [] ∧ (up.vault.buffer.length + 1 < 1024 ∧ up.vault.quiescent = false) ∧
    (up.sec.blocks * 1024 ≤ up.sec.nextLeaf ∧ up.sec.blocks + 1 < 2 ^ 30) ∧
    (let s : State := { up with sec := { up.sec with blocks := 2 ^ 30 - 1, nextLeaf := 2 ^ 40 } }
     s.sec.blocks * 1024 ≤ s.sec.nextLeaf ∧ 2 ^ 30 ≤ s.sec.blocks + 1) ∧
    ({ up with sec := { up.sec with exhausted := true } } : State).sec.exhausted = true := by
  refine ⟨by decide +kernel, by decide +kernel, ⟨_, rfl, by decide +kernel⟩, by decide +kernel⟩

/-- SecurityReads: the PF and the management controller, a VF, a slot in the store and one that is not, before the setup lock. -/
theorem meets_SecurityReads :
    ledgered.answers = true ∧ viaOrigin .pf = 1 ∧ viaOrigin .i3c = 10 ∧ (2 ≤ viaOrigin (.vf 7) ∧ viaOrigin (.vf 7) ≤ 9) ∧
    ledgered.ledger.store.find? (fun c => c.record.seq == (4 : BitVec 48).toNat) = some ⟨rec1, 0, []⟩ ∧
    ledgered.ledger.store.find? (fun c => c.record.seq == (5 : BitVec 48).toNat) = none ∧ booting.answers = false := by decide +kernel

/-- A publisher key of SIG_SET 1, and a state that holds it and has an update open. -/
def key1 : List Byte := leBytes 4 0x10000000 ++ zeros 64
def updating : State :=
  { up with sec := { up.sec with keys := [(63, ⟨1, key1, false⟩)], update := some ⟨8192, []⟩ } }

/-- KeysAndFirmware: a key set and revoked, BUSY, another path than the management controller's, the bounds of an update's length and of
a piece's place, an update that ends. -/
theorem meets_KeysAndFirmware :
    (up.answers = true ∧ up.ledgerShut = false ∧ sigLength (1 : BitVec 8).toNat ≠ 0 ∧ key1.length = 68 ∧
      beNat (key1.take 4) = sigOid (1 : BitVec 8).toNat) ∧ shut.answers = true ∧ Via.pf ≠ .i3c ∧
    (updating.answers = true ∧ updating.ledgerShut = false ∧ findKey updating.sec.keys (63 : Fin 64).val = some ⟨1, key1, false⟩) ∧
    (8192 ≤ (0x1001000 : Word32).toNat ∧ (0x1001000 : Word32).toNat ≤ 0x1001000 ∧ (0x1001000 : Word32).toNat % 4096 = 0) ∧
    (updating.vault.buffer.length + 1 < 1024 ∧ updating.sec.update = some ⟨8192, []⟩ ∧ (8190 : Word32).toNat + [1, 2].length ≤ 8192) := by decide +kernel

/-- An image that is too short is not accepted, whatever the fused key is. -/
theorem meets_imageRefused : updating.fwOk [] = false := by decide +kernel

/-- PldmMessages: the island powered, identifiers inside and outside their ranges, an event to send again, due in
the running beat and not, and no receiver. -/
theorem meets_PldmMessages :
    up.svc.island = true ∧ ((1 : BitVec 8) ≠ 0 ∧ (0xFE : BitVec 8) ≠ 0xFF) ∧ up.hubRuns = true ∧
    (sensorNumeric (0x15 : BitVec 16).toNat = true ∧ sensorNumeric (0x16 : BitVec 16).toNat = false) ∧ (0x22 : BitVec 16).toNat = 0x22 ∧
    Via.pf ≠ .i3c ∧
    (let s : State := { up with sec := { up.sec with events := [(0x20, 2, 0)], receiver := some 9 } }
     s.sec.events.find? (fun e => e.1 == (0x20 : BitVec 16).toNat) = some (0x20, 2, 0) ∧ s.sec.receiver = some 9 ∧ s.hubRuns = true ∧
       s.fallsDue (0 + 100000000) = false) ∧
    (let s : State := { atTick 0 0 0 with sec := { up.sec with events := [(0x20, 2, 0)], receiver := some 9 } }
     let u : State := { s with time := { s.time with clk := 100000000 - 49999 } }
     u.hubRuns = true ∧ u.fallsDue (0 + 100000000) = true) ∧ State.reset.hubRuns = false ∧ up.sec.receiver = none := by decide +kernel

/-- A session in which version, capabilities and algorithms are settled, with a large response of three bytes to fetch. -/
def session : State :=
  { up with sec := { up.sec with blocks := 1, nextLeaf := 1023, spdmPf := ⟨true, true, true, [1, 2, 3], 0⟩,
                                 deferred := [⟨.pf, spdmCHALLENGE_AUTH, [1]⟩] } }

/-- SpdmExchange: a session before each request, and one that is settled; a VF, and a phase that does not answer; each range of
indices at its ends. -/
theorem meets_SpdmExchange :
    (up.answers = true ∧ (∀ n, Via.pf ≠ .vf n) ∧ (up.spdm .pf).version = false ∧ (up.spdm .pf).algs = false) ∧
    (session.answers = true ∧ (session.spdm .pf).version = true ∧ (session.spdm .pf).caps = true ∧ (session.spdm .pf).algs = true) ∧
    (booting.answers = false ∧ ∃ v, Via.vf 3 = .vf v) ∧
    (1 ≤ (1 : BitVec 8).toNat ∧ (6 : BitVec 8).toNat ≤ 6 ∧ 6 < (7 : BitVec 8).toNat ∧ (254 : BitVec 8).toNat < 255) := by decide +kernel

/-- SpdmSigned: a challenge served at once, one deferred behind a checkpoint, one fetched afterwards; the first chunk of a response;
types that the security engine does not have. -/
theorem meets_SpdmSigned :
    ((session.spdm .pf).algs = true ∧ session.ledger.signing = [] ∧ session.sec.exhausted = false ∧ session.sec.nextLeaf < session.sec.blocks * 1024 ∧
      ({ session with sec := { session.sec with deferred := [] } } : State).sec.deferred = []) ∧
    ledgered.ledger.signing ≠ [] ∧ session.sec.deferred = ⟨.pf, spdmCHALLENGE_AUTH, [1]⟩ :: [] ∧
    ((0 : BitVec 16).toNat = (session.spdm .pf).chunk ∧ (0 : BitVec 16).toNat * Config.spdmChunk < (session.spdm .pf).large.length) ∧
    (4 : BitVec 8).toNat = 4 ∧ 9 < (10 : BitVec 8).toNat := by
  refine ⟨by decide +kernel, by decide +kernel, by decide +kernel, ⟨by decide +kernel, ?_⟩, by decide +kernel, by decide +kernel⟩
  rw [show (0 : BitVec 16).toNat = 0 from rfl, Nat.zero_mul]; decide +kernel

/-! ### The beat and schedules -/

/-- A marker of the running beat, and a slave in the given state that has heard it. -/
def mark1 : Marker := { beat := 100, period := 50, nextPeriod := 0, countdown := 0, master := 5, epoch := 0, correction := 160 }
def slave (st : TimeSt) (heard : List Heard) : State := { adm with time := { adm.time with st := st, heard := heard } }

/-- A master that will start 500 ticks later with the given first beat. -/
def starting (b : Nat) : State :=
  { adm with time := { adm.time with masterStart := some 1000500, role := .master, st := .unlocked }, regs := putKey adm.regs 0x20008 b }

/-- MarkerCommands: the next marked tick for each sign of the correction, a master's first beat, and the one that the numbering does not
have, a marker that another master's contradicts, markers from a port that is not admitted, of a period out of
range, while acquiring, of this beat, of the next and of another; the decision without a marker, and with one while locked and while
acquiring. -/
theorem meets_MarkerCommands :
    (∀ x ∈ [1, -1, 0], (atTick 48974 0 x).hubRuns = true ∧ (atTick 48974 0 x).time.corr = x ∧ (atTick 48974 0 x).time.ctr10 + 1023 = 1023 ∧
      (atTick 48974 0 x).time.tick + 1023 + 2 < (atTick 48974 0 x).beatTicks ∧ (atTick 48974 0 x).fab.slotOut = [] ∧
      (atTick 48974 0 x).entriesIn (fun _ e => e.tick ≤ (atTick 48974 0 x).time.tick + 1023 + 2) = []) ∧ State.reset.hubRuns = false ∧
    (starting 0).time.masterStart = some 1000500 ∧ (starting 0).fallsDue 1000500 = true ∧
    (bits ((starting 0).reg 0x20008) 0 48 = 0 ∧ bits ((starting 0xFFFFFFFFFFFF).reg 0x20008) 0 48 = 0xFFFFFFFFFFFF) ∧
    ({ starting 0 with time := { (starting 0).time with tick := 49999 } } : State).fallsDue 1000500 = false ∧
    (up.port 8).st ≠ .admitted ∧ (adm.port 8).st = .admitted ∧ (15 < 16 ∧ 2000 < 2001) ∧
    (16 ≤ mark1.period.toNat ∧ mark1.period.toNat ≤ 2000 ∧ adm.time.role = .slave ∧ adm.time.seen = []) ∧
    (slave .unlocked []).time.st = .unlocked ∧
    (∀ st ∈ [TimeSt.locked, .unlocked], let s : State := { slave st [] with time := { (slave st []).time with seen := [(100, 6)] } }
     s.time.st = st ∧ ∃ p ∈ s.time.seen, p.1 = mark1.beat.toNat ∧ p.2 ≠ mark1.master.toNat) ∧
    (adm.time.st ≠ .unlocked ∧ adm.time.acquired = true ∧ adm.time.tick < adm.beatTicks ∧
      mark1.beat.toNat = adm.time.beat ∧ adm.time.tick ≤ adm.time.period * 500) ∧
    (let s : State := { adm with time := { adm.time with tick := 25001, beat := 99 } }
     mark1.beat.toNat = s.time.beat + 1 ∧ s.time.period * 500 < s.time.tick ∧ s.time.tick < s.beatTicks) ∧
    (let s : State := { adm with time := { adm.time with beat := 90 } }
     mark1.beat.toNat ≠ s.time.beat ∧ mark1.beat.toNat ≠ s.time.beat + 1) ∧
    (adm.time.heard = [] ∧ adm.time.discarded = false ∧ adm.time.holdover < 15 ∧ adm.time.st ≠ .acquire ∧
      adm.time.tick ≤ adm.time.period * 500 + 1) ∧
    (∀ st ∈ [TimeSt.locked, .acquire], (slave st [⟨2, mark1, 12⟩]).time.heard = [⟨2, mark1, 12⟩]) ∧
    (mark1.beat.toNat = adm.time.beat ∧ mark1.period.toNat = adm.time.period ∧ mark1.epoch.toNat = adm.time.epoch ∧
      (16 * (12 : Int) - (16 * (adm.port 2).linkDelay + mark1.correction.toNat : Nat)).natAbs ≤ 1600) := by decide +kernel

/-- BeatBoundary: the hub off and running; a period and a takeover of each action due at the next beat; a running master. -/
theorem meets_BeatBoundary :
    State.reset.hubRuns = false ∧ adm.hubRuns = true ∧ adm.time.beat + 1 < 0xFFFFFFFFFFFF ∧
    (let s : State := { adm with time := { adm.time with pendPeriod := some (16, 101) } }
     s.time.takeover = none ∧ s.time.pendPeriod = some (16, 101) ∧ 101 ≤ s.time.beat + 1 ∧ s.beatLocked = true ∧ 0 ≤ s.time.corr) ∧
    (∀ b, let s : State := { adm with time := { adm.time with takeover := some ⟨b, 101⟩ } }
     s.time.pendPeriod = none ∧ s.time.takeover = some ⟨b, 101⟩ ∧ 101 ≤ s.time.beat + 1) ∧
    (let s : State := { adm with time := { adm.time with role := .master } }
     s.time.role = .master ∧ s.time.st = .locked ∧ s.time.takeover = none ∧ s.admittedPorts ≠ []) := by decide +kernel

/-! ### A module at work -/

def bead0 : BeadId := ⟨0, 0, 0⟩
def ctxId0 : CtxId := ⟨bead0, 0⟩
/-- An action: unit, IN_MASK and OUT_MASK with one entry each, and its operand. -/
def act (unit ins outs op : Nat) : Act :=
  ⟨BitVec.ofNat 64 (unit + ins * 2 ^ 4 + outs * 2 ^ 12 + 2 ^ 20 + 2 ^ 24), BitVec.ofNat 64 op⟩

/-- The context of configuration 5 on `bead0`, at the first of its actions. -/
def ctx0 (acts : List Act) : Context :=
  { id := ctxId0, valid := true, config := 5, gen := 1, acts := acts, pc := 0, ctrs := List.replicate 16 ⟨2, 9⟩,
    ins := List.replicate 8 ⟨1, [], 0, 0, [], none⟩, outs := List.replicate 8 ⟨1 + 16 * 2 ^ 18, 16, 0, []⟩, steer := [0, 0, 0, 0],
    steerBad := [false, false, false, false], winBase := 0, winSize := 0, gate := none, started := false, ended := false,
    blocked := false, expect := 0, waitFrom := none, engine := 0, watch := 0, thresh := 0, clamp := false, replays := 0, escs := 0,
    dictGen := List.replicate 8 0, built := List.replicate 8 none, lastRun := 0, step := some 1, runs := [1], masks := [],
    dispatched := [] }

/-- Schedule entries at offset 0, one of each kind but that of kind 8, of which there is one for each content. -/
def entries1 : List SchedEntry :=
  [⟨1, 0, 100, BitVec.ofNat 64 (1 + 3 * 2 ^ 16)⟩, ⟨2, 0, 200, BitVec.ofNat 64 (2 ^ 16)⟩, ⟨3, 0, 300, BitVec.ofNat 64 (0x100 + 7 * 2 ^ 16)⟩,
   ⟨4, 0, 400, 0xB8⟩, ⟨5, 0, 500, 4⟩, ⟨6, 0, 600, BitVec.ofNat 64 (900 + 4 * 2 ^ 32)⟩, ⟨7, 0, 1000, BitVec.ofNat 64 (1200 + 4 * 2 ^ 32)⟩,
   ⟨8, 0, 1300, 0x70⟩, ⟨8, 0, 1300, 0x71⟩,
   ⟨8, 0, 1300, 0x72⟩, ⟨8, 0, 1300, 0x73⟩, ⟨8, 0, 1300, 0x74⟩, ⟨9, 0, 2000, 0⟩]

def coll1 : CollDesc :=
  { index := 4, kind := 1, flowEn := false, flow := 0, n := 2, rank := 0, blocks := 2, members := 8, src := 16, dst := 32, notify := 0,
    nnotify := 0, routeId := 0, agent := 0, data := 0, rowBytes := 64 }

def sched1 : Sched :=
  { period := 50, cycle := 1, config := 5, entries := entries1, slotTables := [], lists := [⟨1, 0, 0, [⟨8, 16, 2⟩]⟩], colls := [coll1],
    budget := some { maxRows := 64, chunkBudget := 64, maxChunk := 64, maxSeqs := 8, kvBudget := 4096, kvPerPage := 64, seqSlots := 8,
                     kvStacks := 1, retryMax := 1, targets := [] } }

def cfg5 (acts : List Act) : Cfg :=
  { num := 5, inst := 0, loc := 0, gens := ⟨[⟨1, ⟨false, [ctx0 acts], [], [], 0, [], []⟩, [], 0⟩], some 1⟩, resident := true,
    restoring := false, map := [(bead0, 0)], waiting := none, release := [], inbox := [], since := 0, saved := none, badSave := false,
    disabled := [], deadlock := none }

def step1 : StepRun :=
  { id := 1, inst := 0, index := 0, start := 100, sched := 1, routes := [], slots := [], configs := [(5, 1)], seqs := [], rowTable := 0, numeric := 0,
    clamp := false, replay := false, late := 0, fail := none, overrun := false, window := [], endNo := 0, left := 1, deadline := 1001950 }

/-- Instance 0 runs its step 0: configuration 5 is resident, its context stands at the first of `acts`. -/
def serving (acts : List Act) (fixes : Context → Context) : State :=
  let c := fixes (ctx0 acts)
  let x : Inst := { Inst.reset with state := .active, owner := 1, csArea := 64, sched := ⟨[⟨1, sched1, [], 0⟩], some 1⟩ }
  let b : Bead := { id := bead0, current := some 0, accTag := none, acc := [], dir := [], dicts := [], fills := [], formatFails := [], encIn := [] }
  { adm with
    serve := { adm.serve with insts := setNth adm.serve.insts 0 x, cfgs := [cfg5 acts], steps := [step1], stepNo := 1 }
    arr := { adm.arr with ctxs := [c], beads := [b] } }

/-- `serving` with its step's entries all fired and nothing left to do. -/
def served (f : StepRun → StepRun) : State :=
  let s := serving [] fun c => { c with ended := true }
  { s with serve := { s.serve with steps := [f { step1 with left := 0 }] } }

/-- An open collective of `step1`. -/
def collRun1 : CollRun :=
  { inst := 0, step := 1, start := 100, desc := coll1, route := none, openAt := 1000500, close := 1000900, slotOpen := 1001000,
    slotClose := 1001200, attempt := 0, ready := false, sent := [], got := [], heads := [], reduced := [], judged := false, done := none, failed := false }
def colling (f : CollRun → CollRun) : State :=
  let s := serving [] id
  { s with serve := { s.serve with colls := [f collRun1] } }

/-- `s` with the entries of instance 0 before tick `t`, and `n` at it, fired. -/
def firedTo (s : State) (t n : Nat) : State := s.setInst 0 { s.inst 0 with fired := (t, n) }
/-- A list of prefetches under way: list 0 of stack 1. -/
def pfRun1 (es : List PfEntry) : PfRun := ⟨0, 1, 0, es, 100, 0, false⟩
def prefetching (es : List PfEntry) : State :=
  let s := serving [] id
  { s with mem := { s.mem with lists := [pfRun1 es], filling := [(1, 16), (1, 17)] } }

/-- An entry that is due: of each kind, and each of those that share a tick, in their order. -/
theorem meets_due :
    (∀ e ∈ entries1, let s := firedTo (serving [] id) e.tick (entries1.filter (fun x => x.tick == e.tick && Nat.blt x.payload.toNat e.payload.toNat)).length
     s.due 0 e.payload e) ∧ (firedTo (prefetching [⟨8, 16, 2⟩]) 200 0).due 0 (BitVec.ofNat 64 (2 ^ 16)) ⟨2, 0, 200, BitVec.ofNat 64 (2 ^ 16)⟩ ∧
    (firedTo (colling id) 1000 0).due 0 (BitVec.ofNat 64 (1200 + 4 * 2 ^ 32)) ⟨7, 0, 1000, BitVec.ofNat 64 (1200 + 4 * 2 ^ 32)⟩ := by
  unfold State.due; decide +kernel

/-- ScheduleEntries: no entry where no schedule runs, at another offset, or once it has fired; the prefetch list that an entry starts, and
one under way that it waits for; the collective that a replay slot is for. -/
theorem meets_ScheduleEntries :
    up.instRuns 15 = false ∧ up.unfired 15 = [] ∧
    (let s := serving [] id
     s.instRuns 0 = true ∧ s.firing 0 = some sched1 ∧ s.unfired 0 = entries1 ∧
     (sched1.lists.find? fun l => l.stack == bits (2 ^ 16) 16 5 && l.index == bits (2 ^ 16) 0 16) = some ⟨1, 0, 0, [⟨8, 16, 2⟩]⟩ ∧
     s.mem.lists = []) ∧
    (∃ r ∈ (prefetching [⟨8, 16, 2⟩]).mem.lists, r.inst = 0 ∧ r.stack = 1 ∧ r.index = 0) ∧
    (∀ e ∈ (firedTo (serving [] id) 200 1).unfired 0, e.kind = 2 → e.payload ≠ BitVec.ofNat 64 (2 ^ 16)) ∧
    (colling id).coll 0 4 = some collRun1 := by decide +kernel

/-- Steps: the open step, its gate released to a resident context with and without a gate before, its collective, its end with the
work complete and not, a step that failed; a step that may complete and one that may not. -/
theorem meets_Steps :
    (let s := serving [] id
     s.openStep 0 = some step1 ∧ step1.endNo = 0 ∧ step1.fail = none ∧
     (let u := ((s.toTick 100).markFired 0 ⟨1, 0, 100, BitVec.ofNat 64 (1 + 3 * 2 ^ 16)⟩).entryDone step1
      u.layerBeads 0 (1 + 3 * 2 ^ 16) = [bead0] ∧ u.schedCfg 0 bead0 0 = some (cfg5 []) ∧ (cfg5 []).resident = true ∧
      (u.wantedGen (cfg5 [])).map (·.gen) = some 1 ∧ (∀ y ∈ u.ctxsOf 5, y.gen = 1) ∧ (cfg5 []).physCtx bead0 = some 0 ∧
      u.ctx ⟨bead0, Fin.ofNat 4 0⟩ = some (ctx0 []) ∧ (ctx0 []).gate = none) ∧
     (sched1.colls.find? fun d => d.index == 4) = some coll1 ∧ coll1.kind < 3 ∧
     ((s.toTick 2000).markFired 0 ⟨9, 0, 2000, 0⟩).mayComplete step1 = false) ∧
    (let s := serving [] fun c => { c with gate := some 2 }
     ∃ c, (((s.toTick 100).markFired 0 ⟨1, 0, 100, BitVec.ofNat 64 (1 + 3 * 2 ^ 16)⟩).entryDone step1).ctx ⟨bead0, Fin.ofNat 4 0⟩ = some c ∧ c.gate = some 2) ∧
    (let s := served id
     s.openStep 0 = some { step1 with left := 0 } ∧ ((s.toTick 2000).markFired 0 ⟨9, 0, 2000, 0⟩).mayComplete { step1 with left := 0 } = true) ∧
    (let s := served fun r => { r with fail := some stNOT_ADMITTED }
     ∃ r, s.openStep 0 = some r ∧ r.fail.isSome ∧ s.mayComplete r = true) ∧
    (let s := served fun r => { r with left := 2 }
     ∃ r, s.serve.steps.find? (fun r => r.inst == 0 && r.index == 0) = some r ∧ s.mayComplete r = false) := by
  refine ⟨by decide +kernel, ⟨_, rfl, rfl⟩, by decide +kernel, ⟨_, rfl, by decide +kernel, by decide +kernel⟩, ⟨_, rfl, by decide +kernel⟩⟩

/-! ### Beads and tiles -/

/-- `serving` with one action, and a second one after it. -/
def doing (a : Act) : State := serving [a, act 0 0 0 0] id
def blocking (a : Act) : Act := { a with ctl := a.ctl ||| 0x10000000 }
/-- A tile of a FILL of `bead0` that has not landed. -/
def fill1 : FillTile := ⟨0, 1, mpaHbm 0 0x10000, 0, 0, some [], none⟩
def filling (s : State) : State := s.setBead { s.bead bead0 with fills := [fill1] }

/-- PlainActions: NOP, COUNTER, and WAIT met, unmet and behind an action under way; each counter operation and each branch. -/
theorem meets_PlainActions :
    (∀ a ∈ [act 0 0 0 0, act 6 0 3 0, act 7 0 0 1, act 7 0 0 2, blocking (act 7 0 0 1)], (doing a).atAction bead0 (ctx0 [a, act 0 0 0 0]) a) ∧
    (act 0 0 0 0).unit = 0 ∧ (act 6 0 3 0).unit = 6 ∧ (act 7 0 0 1).unit = 7 ∧ (act 7 0 0 1).cheap = false ∧
    (doing (act 7 0 0 1)).waitMet { ctx0 [act 7 0 0 1, act 0 0 0 0] with waitFrom := some 100 } (act 7 0 0 1) = true ∧
    (doing (act 7 0 0 2)).waitMet { ctx0 [act 7 0 0 2, act 0 0 0 0] with waitFrom := some 100 } (act 7 0 0 2) = false ∧
    (let a := blocking (act 7 0 0 1)
     a.cheap = true ∧ (doing a).allDone (ctx0 [a, act 0 0 0 0]) = true ∧ (filling (doing a)).allDone (ctx0 [a, act 0 0 0 0]) = false) ∧
    (∀ k ∈ List.range 6, ∀ br ∈ List.range 5,
      let a : Act := ⟨BitVec.ofNat 64 (15 * 2 ^ 29 + k * 2 ^ 33 + br * 2 ^ 36), 7⟩
      a.ctrOp = k ∧ a.branch = br ∧ a.ctr < (ctx0 [a, act 0 0 0 0]).ctrs.length ∧ (doing a).ctx ctxId0 = some (ctx0 [a, act 0 0 0 0])) := by
  unfold State.atAction; decide +kernel

/-- An encoded block with no element present, of the class of weights (0) or of activations (1). -/
def emptyBlock (cls : Nat) : List Byte := withCheck (leBytes 8 (blockHeader 1 cls 0 0 0 66 0) ++ zeros 56)
/-- A MATRIX of one block each: weights at 0, activations at 512. -/
def matAct : Act := act 1 0 0 (8 * 2 ^ 15 + 2 ^ 30 + 2 ^ 38 + 2 ^ 44)
def matState : State := ((doing matAct).tileWrite bead0 0 (emptyBlock 0)).tileWrite bead0 512 (emptyBlock 1)

/-- A routing table of one expert and one replica, and a state whose step has bound it. -/
def table1 : RouteTable :=
  { layer := 0, k := 1, renorm := false, normTopk := false, sources := 1, loadOff := 0, experts := [⟨1, 4, 0⟩], replicas := [⟨0, 0, 0, 0, 0, 0⟩] }
def routed (a : Act) : State :=
  let s := doing a
  let x : Inst := { s.inst 0 with routes := [(0, ⟨[⟨1, table1, [1], 0⟩], some 1⟩)] }
  { s with serve := { s.serve with insts := setNth s.serve.insts 0 x, steps := [{ step1 with routes := [(0, 1)] }] } }

/-- EngineActions: each action at its context with no awaited tile in its ranges. -/
theorem meets_EngineActions :
    (matState.atAction bead0 (ctx0 [matAct, act 0 0 0 0]) matAct ∧ matAct.unit = 1 ∧
      matState.awaits (ctx0 [matAct, act 0 0 0 0]) (matState.matRanges (ctx0 [matAct, act 0 0 0 0]) matAct) = false) ∧
    (let a := act 2 0 0 (2 ^ 55)
     (doing a).atAction bead0 (ctx0 [a, act 0 0 0 0]) a ∧ a.unit = 2 ∧ (doing a).awaits (ctx0 [a, act 0 0 0 0]) (vecOp a.op.toNat).reads = false) ∧
    (∀ op ∈ [0, 4], let a := act 3 0 1 op
     (doing a).atAction bead0 (ctx0 [a, act 0 0 0 0]) a ∧ a.unit = 3 ∧ a.op.toNat % 4 = 0 ∧
       (copyOp a.op.toNat).toTile = decide (op = 4) ∧ (copyOp a.op.toNat).blocks = false ∧
       (doing a).awaits (ctx0 [a, act 0 0 0 0]) [((copyOp a.op.toNat).first (ctx0 [a, act 0 0 0 0]), a.outs.length * a.outCount * 64)] = false) ∧
    (∀ op ∈ [0, 5], let a := act 5 0 0 (op + 2 ^ 40)
     (doing a).atAction bead0 (ctx0 [a, act 0 0 0 0]) a ∧ a.unit = 5 ∧ a.op.toNat % 4 = op % 4 ∧
       (doing a).awaits (ctx0 [a, act 0 0 0 0]) ((doing a).encReads (ctx0 [a, act 0 0 0 0]) (encOp a.op.toNat)) = false ∧
       ((encOp a.op.toNat).edges = decide (op = 5))) ∧
    (∀ op ∈ [1, 2, 3], let a := act 3 0 0 (op + 2 ^ 10)
     (routed a).atAction bead0 (ctx0 [a, act 0 0 0 0]) a ∧ a.unit = 3 ∧ a.op.toNat % 4 = op ∧
       (routed a).route (ctx0 [a, act 0 0 0 0]) 0 = some ⟨1, table1, [1], 0⟩ ∧
       (routed a).awaits (ctx0 [a, act 0 0 0 0]) [(0, 0x200000)] = false) := by
  unfold State.atAction; decide +kernel

/-- Whether a reading succeeded. -/
def okay {ε α : Type} : Except ε α → Bool
  | .ok _ => true
  | .error _ => false
theorem of_okay {ε α : Type} {x : Except ε α} (h : okay x = true) : ∃ y, x = .ok y := by
  cases x with
  | ok y => exact ⟨y, rfl⟩
  | error e => cases h

/-- The blocks of `matState` are read, so that its MATRIX issues. -/
theorem meets_matBlocks : ∃ x, matState.matBlocks (ctx0 [matAct, act 0 0 0 0]) (matOp matAct.op.toNat) (engineOf 0) = .ok x :=
  of_okay (by decide +kernel)

/-- DispatchCapacity and DictionarySlots: a table of one expert, an expert entry's range; a record loaded into an empty store and the
successor of the current generation. -/
theorem meets_DispatchCapacity :
    table1.layer < 65536 ∧ (∀ ex ∈ table1.experts, 1 ≤ ex.nrep) ∧ (∀ ex ∈ table1.experts, ex.base ≤ 0 ∧ 0 < ex.base + ex.nrep) := by decide
theorem meets_DictionarySlots :
    (∃ q, DictPair.load ⟨0, 0, DictSlot.empty, DictSlot.empty, false⟩ 7 8 [1] [1] = (.loaded, q)) ∧
    (∃ q, DictPair.load ⟨0, 0, ⟨true, 7, 8, [1], [1]⟩, DictSlot.empty, false⟩ 8 8 [2] [] = (.loaded, q)) := ⟨⟨_, rfl⟩, ⟨_, rfl⟩⟩

/-- A gather of one index from the first row of a table in stack 0, with no bags, its output at the end of staging's first tile. -/
def gather1 : List Byte :=
  let b := leBytes 1 1 ++ leBytes 1 0 ++ leBytes 1 0 ++ leBytes 1 5 ++ leBytes 2 32 ++ leBytes 2 0 ++ leBytes 8 0x10000 ++ leBytes 4 4 ++ leBytes 4 1 ++
    leBytes 4 0 ++ leBytes 4 0xFFFFFFFF ++ leBytes 4 1 ++ leBytes 4 0xFFFFFFFF ++ leBytes 4 63 ++ zeros 12
  b ++ leBytes 4 0 ++ zeros 2 ++ leBytes 2 (crc16 b)
def gatherRun1 (cmd : List Byte) : GatherRun := ⟨0, ctxId0, 0x1FFFC0, cmd, some [], [], []⟩
def gathering (cmd : List Byte) (s : State) : State :=
  { s with mem := { s.mem with gathers := [gatherRun1 cmd], pages := [⟨0, 1, 0, 2, 0⟩] } }

/-- A memory action of two tiles from tile 1 on under the descriptor at tile 3, which names the module address `mpa`. -/
def memAct (op : Nat) : Act := act 4 0 0 (op + 2 * 2 ^ 18 + 3 * 2 ^ 28)
def described (op mpa : Nat) (dirty : Bool) : State :=
  let a := memAct op
  let s := (doing a).tileWrite bead0 (memOp a.op.toNat).desc (leBytes 8 mpa)
  s.setBead { s.bead bead0 with dir := if dirty then [((memOp a.op.toNat).first, ⟨true, true, 0⟩)] else [] }

/-- TileTraffic, at its context: a FILL of a range that is populated and of one that is not, a WRITEBACK of dirty and of clean tiles with
room for it and none, and one to a page that it may not write, a GATHER of each kind of stack. -/
theorem meets_TileTraffic_actions :
    (∀ op ∈ [0, 1, 2], let a := memAct op
     let s := described op (mpaHbm 0 0x10000) true
     s.atAction bead0 (ctx0 [a, act 0 0 0 0]) a ∧ a.unit = 4 ∧ a.op.toNat % 8 = op ∧
       s.awaits (ctx0 [a, act 0 0 0 0]) [((memOp a.op.toNat).desc, 64), ((memOp a.op.toNat).first * 4096, (memOp a.op.toNat).count * 4096)] =
         false ∧ (s.memDesc bead0 (memOp a.op.toNat).desc).1 = mpaHbm 0 0x10000 ∧ s.populated (mpaHbm 0 0x10000) 0x2000 = true ∧
       s.mayIssue 0 (mpaUnit (mpaHbm 0 0x10000)) = some [] ∧ s.carries [] = true ∧ s.beadStatus true (mpaHbm 0 0x10000) 0x2000 = stOK ∧
       (gatherCmd (s.tileRead bead0 (memOp a.op.toNat).desc 64)).stack = 0) ∧
    (described 0 (7 * 2 ^ 46) true).populated (7 * 2 ^ 46) 0x2000 = false ∧
    (described 1 (mpaHbm 0 0xFFF000) true).beadStatus true (5 * 2 ^ 46) 0x2000 ≠ stOK ∧
    (gatherCmd (zeros 7 ++ leBytes 1 24 ++ zeros 56)).stack = 24 := by
  unfold State.atAction; decide +kernel

/-- TileTraffic, on its way: a dirty and a clean tile, one that lands in a bead, gathers that end with each RESULT. -/
theorem meets_TileTraffic_landing :
    (let o := memOp (memAct 1).op.toNat
     (∃ i, i < o.count ∧ (((described 1 (mpaHbm 0 0x10000) true).bead bead0).entry (o.first + i)).dirty = true) ∧
     ∀ i, i < o.count → (((described 1 (mpaHbm 0 0x10000) false).bead bead0).entry (o.first + i)).dirty = false) ∧
    (((doing (act 0 0 0 0)).bead bead0).entry 511).dirty = false ∧ placeOf true (mpaStaging 3 0x2FFF000) = .staging 3 0x2FFF000 ∧
    (let u := (filling (doing (act 0 0 0 0))).issueReads 0
     (u.bead bead0).fills.find? (fun f => f.tile == (1 : Fin 512).val && f.via.isSome) = some fill1 ∧ u.carries [] = true ∧
       u.isFilling fill1.mpa = false ∧ u.isPending fill1.mpa = false ∧ mpaUnit fill1.mpa ≠ 5 ∧ u.beadStatus false fill1.mpa 4096 = stOK ∧
       u.attempts (fill1.mpa / 4096 * 4096) (stepKey ((u.ctx ⟨bead0, Fin.ofNat 4 fill1.ctx⟩).bind (·.step))) = 0) ∧
    (let s := gathering gather1 (doing (act 0 0 0 0))
     let r := gatherRun1 gather1
     s.mem.gathers.find? (fun r => r.stack == (0 : Fin 24).val && r.via.isSome) = some r ∧ s.carries (r.via.getD []) = true ∧
       s.gatherWaits (gatherCmd gather1) [] = false ∧ r.addr + 64 ≤ 0x200000 ∧ s.fab.held = [] ∧ (s.asIssued r).gatherOk r.cmd = true ∧
       (s.asIssued r).gatherFenced (gatherCmd r.cmd) = false ∧ s.attempts (mpaHbm 0 0) (stepKey ((s.ctx r.ctx).bind (·.step))) = 0 ∧
       ((s.asIssued r).gatherOut (gatherCmd gather1)).1.length = 64 ∧
       (let f : State := { s with faults := { s.faults with fenceStack := [(0, 0xFFFFFFFFFFFF)] } }
        (f.asIssued r).gatherOk r.cmd = true ∧ (f.asIssued r).gatherFenced (gatherCmd r.cmd) = true)) ∧
    (let s := gathering (zeros 64) (doing (act 0 0 0 0))
     s.gatherWaits (gatherCmd (zeros 64)) [] = false ∧ (s.asIssued (gatherRun1 (zeros 64))).gatherOk (zeros 64) = false) := by
  refine ⟨⟨⟨0, by decide +kernel⟩, by decide +kernel⟩, by decide +kernel⟩

/-- TileTraffic, prefetched tiles: the first of two, and a list before and past its fill-by point. -/
theorem meets_TileTraffic_prefetch :
    (let s := prefetching [⟨8, 16, 2⟩]
     s.mem.lists.find? (fun r => r.stack == (1 : Fin 24).val && match r.left with | e :: _ => e.dst == (16 : Fin 12288).val | [] => false) =
       some (pfRun1 [⟨8, 16, 2⟩]) ∧ s.bankFenced (mpaHbm 1 0x8000) = false ∧ s.bankFenced (mpaStaging 1 0x10000) = false ∧
       s.attempts (mpaHbm 1 0x8000) 0 = 0 ∧ mpaUnit (mpaHbm 1 0x8000) ≠ 5 ∧ s.fab.held = []) ∧
    (let is := fun r : PfRun => r.stack == (1 : Fin 24).val && r.index == (0 : BitVec 16).toNat && r.fillBeat == 100 && !r.late
     ((prefetching []).mem.lists ++ (prefetching []).mem.listWaits).find? is = some (pfRun1 []) ∧ (serving [] id).mem.lists.find? is = none ∧
       (pfRun1 []).fillTick < (prefetching []).time.tick ∧
       ({ prefetching [] with time := { (prefetching []).time with tick := 0 } } : State).time.tick ≤ (pfRun1 []).fillTick) := by decide +kernel

/-- An edge of context 0 with entries in its queue, and one entry in flight to it. -/
def edge0 : EdgeId := ⟨ctxId0, 0⟩
def entry1 : EdgeEntry := ⟨3, 1⟩
def flight1 : Flight := ⟨edge0, entry1, 0, [], 1⟩
def arriving (k : Nat) : State :=
  let s := serving [] fun c => { c with ins := setNth c.ins 0 ⟨1, List.replicate k entry1, 0, 0, [], none⟩ }
  { s with arr := { s.arr with flights := [flight1] } }
/-- A steering unit set as `w` says, with control code `code` on edge 1 and data on edge 0. -/
def steering (w code : Nat) : State :=
  serving [] fun c => { c with steer := [BitVec.ofNat 32 w, 0, 0, 0],
                               ins := setNth (setNth c.ins 1 ⟨1, [⟨3, BitVec.ofNat 512 code⟩], 0, 0, [], none⟩) 0 ⟨1, [entry1], 0, 0, [], none⟩ }
/-- A second context of the bead, waiting its turn. -/
def twoContexts : State :=
  let s := serving [] fun c => { c with ended := true }
  { s with arr := { s.arr with ctxs := s.arr.ctxs ++ [{ ctx0 [act 0 0 0 0] with id := ⟨bead0, 2⟩, config := 6 }] } }

/-- `s` at another tick of the run. -/
def atClk (clk : Nat) (s : State) : State := { s with time := { s.time with clk := clk } }

/-- ContextsAndRouters: a switch to the one context that may run, and none; an entry that arrives in a queue with room for one more, one
that finds no room, one whose way is shut; an entry of a spill area. -/
theorem meets_ContextsAndRouters :
    (let c : Context := { ctx0 [act 0 0 0 0] with id := ⟨bead0, 2⟩, config := 6 }
     twoContexts.ctx ⟨bead0, 2⟩ = some c ∧ twoContexts.runnable c = true ∧
       (twoContexts.currentCtx bead0).map (·.ended) = some true ∧
       ∀ k, k ≠ 2 → (match twoContexts.ctx ⟨bead0, k⟩ with | some d => twoContexts.runnable d | none => false) = false) ∧
    (let s := doing (act 0 0 0 0)
     s.currentCtx bead0 = some (ctx0 [act 0 0 0 0, act 0 0 0 0]) ∧ s.isBlocked (ctx0 [act 0 0 0 0, act 0 0 0 0]) = false) ∧
    (∀ k ∈ [0, 15, 16], ((arriving k).ctx ctxId0).isSome ∧ takeFlight edge0 (arriving k).arr.flights = some (flight1, []) ∧
      (arriving k).mayLand flight1 = true ∧
      ((arriving k).ctx ctxId0).map (fun c => ((c.inEdge 0).queue.length, (c.inEdge 0).spillCount, (c.inEdge 0).held,
        (c.inEdge 0).spillSize, c.ins.length)) = some (k, 0, k, 0, 8)) ∧
    (let s : State := { arriving 0 with faults := { (arriving 0).faults with fenceBridge := 1 } }
     s.mayLand { flight1 with via := [0] } = false) ∧
    (let s := serving [] fun c => { c with ins := setNth c.ins 0 ⟨1 + 4 * 2 ^ 18, List.replicate 16 entry1, 0, 1, [], none⟩ }
     (s.ctx ctxId0).map (fun c => (c.inEdge 0).spillCount) = some 1) := by decide +kernel

/-- The steering units with each code: the edge with the codes, the other one's entry with its tag, and the credits. -/
theorem meets_steering :
    (∀ code ∈ [0, 1, 2, 3], ∀ w ∈ [1 + 2 ^ 8 + 5 * 2 ^ 14, 2 + 2 ^ 8 + 5 * 2 ^ 11],
      ((steering w code).ctx ctxId0).map (fun c => (nth 0 c.steer 0, nth true c.steerBad 0, (c.inEdge (bits w 8 3)).queue)) =
        some (BitVec.ofNat 32 w, false, [⟨3, BitVec.ofNat 512 code⟩]) ∧
      ((steering w code).ctx ctxId0).map (fun c => ((c.inEdge (bits w 2 3)).queue, (c.outEdge 0).credits, (c.outEdge 5).credits)) =
        some ([entry1], 16, 16) ∧ entry1.tag = 3 ∧ (BitVec.ofNat 512 code).toNat % 4 = code) ∧
    bits (1 + 2 ^ 8 + 5 * 2 ^ 14) 0 2 = 1 ∧ bits (2 + 2 ^ 8 + 5 * 2 ^ 11) 0 2 = 2 ∧
    (steering 1 0).arr.ctxs.all (fun y => y.outs.all fun o => o.hold == []) = true := by decide +kernel

/-- A deadlock whose watchdog has counted, one whose watchdog has not, and none. -/
theorem meets_deadlock :
    (served id).stalled 0 5 = false ∧ (serving [act 0 0 0 0] id).stalled 0 5 = true ∧ (serving [act 0 0 0 0] id).dogBites 0 5 = false ∧
    (atClk 3000000 (serving [act 0 0 0 0] id)).stalled 0 5 = true ∧ (atClk 3000000 (serving [act 0 0 0 0] id)).dogBites 0 5 = true := by
  decide +kernel
/-- The record of dictionary 0, generation 7, with the one entry 1 (R178). -/
def record1 : Word512 :=
  0xFBEC0000000000000000000000000000000000000000000000000000000000000000000000000000000000000000000100000100000000070000004000070007
theorem meets_dictionaryRecord :
    (∃ r, readRecord (leBytes 64 record1.toNat) = .ok r) ∧
    ((doing (act 0 0 0 0)).ctx ctxId0 = some (ctx0 [act 0 0 0 0, act 0 0 0 0])) ∧
    ((((doing (act 0 0 0 0)).bead bead0).dictPair 0 0).load 7 8 [1] [1]).1 = .loaded ∧
    (DictPair.load ⟨0, 0, ⟨true, 7, 8, [1], [1]⟩, ⟨true, 6, 8, [1], [2]⟩, false⟩ 8 8 [2] []).1 = .waits :=
  ⟨of_okay (by decide +kernel), by decide +kernel, by decide +kernel, by decide +kernel⟩

/-- Configuration 5 waiting for its restore, or being restored; a frame with a remap to make. -/
def waitingCfg (f : Cfg → Cfg) : State :=
  let s := serving [] id
  { s with arr := { s.arr with ctxs := [] },
           serve := { s.serve with cfgs := [f { cfg5 [] with resident := false, waiting := some 999000, map := [] }] } }
def remapping : State := { up with faults := { up.faults with remaps := [(3, 31)] } }

/-- Residency: nothing to restore, a configuration restored at once, one of a disabled generation, a restore that ends, a remap. -/
theorem meets_Residency :
    (∀ c ∈ (waitingCfg id).arr.ctxs, (waitingCfg id).provingBead c.id.bead = false) ∧
    (waitingCfg id).cfg 5 = some { cfg5 [] with resident := false, waiting := some 999000, map := [] } ∧
    ((waitingCfg id).wantedGen { cfg5 [] with resident := false, waiting := some 999000, map := [] }).map (·.gen) = some 1 ∧
    (waitingCfg id).closedBead bead0 = false ∧
    (let c : Cfg := { cfg5 [] with resident := false, waiting := some 999000, map := [] }
     ((waitingCfg id).wantedGen c).map (fun g => (waitingCfg id).inWay c g.val) = some []) ∧
    (∃ c, (waitingCfg fun c => { c with disabled := [1] }).cfg 5 = some c ∧ c.disabled.contains 1 = true) ∧
    (∃ c, (waitingCfg fun c => { c with restoring := true, badSave := true }).cfg 5 = some c ∧ c.restoring = true ∧ c.badSave = true) ∧
    (waitingCfg id).serve.colls = [] ∧ (∀ p ∈ remapping.faults.remaps, p.1 ≠ 0) ∧ 0 < remapping.time.tick := by
  refine ⟨by decide +kernel, by decide +kernel, by decide +kernel, by decide +kernel, by decide +kernel, ⟨_, rfl, by decide +kernel⟩,
    ⟨_, rfl, by decide +kernel, by decide +kernel⟩, by decide +kernel, by decide +kernel, by decide +kernel⟩
/-- A remap at a boundary, with contexts below the rod only, and nothing under way. -/
theorem meets_remap :
    let s : State := { remapping with time := { remapping.time with tick := 0 } }
    s.faults.remaps.find? (fun p => p.1 == (3 : Fin 4).val) = some ((3 : Fin 4).val, 31) ∧ s.time.tick = 0 ∧ s.mem.gathers = [] ∧
    (∀ c ∈ s.arr.ctxs, c.valid = true → c.id.bead.die = 3 → c.id.bead.rod.val < 31) ∧ ∀ x ∈ s.arr.beads, x.fills = [] := by decide +kernel
theorem meets_waitingCfgs : (waitingCfg id).waitingCfgs = [5] ∧ (serving [] id).waitingCfgs = [] := by
  have h : ((waitingCfg id).serve.cfgs.filter fun c => c.waiting.isSome && !c.resident && !c.restoring) =
    [{ cfg5 [] with resident := false, waiting := some 999000, map := [] }] := by decide +kernel
  have k : ((serving [] id).serve.cfgs.filter fun c => c.waiting.isSome && !c.resident && !c.restoring) = [] := by decide +kernel
  constructor
  · unfold State.waitingCfgs; rw [h]; simp only [List.mergeSort_singleton]; rfl
  · unfold State.waitingCfgs; rw [k]; simp only [List.mergeSort_nil]; rfl


/-! ### The vault and installations -/

/-- A shard of the module at row 2, column 3: one tile at offset 0 of the payload, its check array at 4096. -/
def shard1 : List Byte :=
  leBytes 4 0 ++ leBytes 1 2 ++ leBytes 1 3 ++ leBytes 1 0 ++ leBytes 1 1 ++ leBytes 8 0 ++ leBytes 8 4096 ++ leBytes 8 4096 ++ zeros 32
/-- The head of an image with that one shard, for a grid of 4 rows and 8 columns (R250 to R253). -/
def head1 : List Byte :=
  leBytes 4 0x594C4849 ++ leBytes 2 1 ++ leBytes 1 0 ++ leBytes 1 1 ++ leBytes 2 0x424 ++ leBytes 1 0xA1 ++ leBytes 1 0 ++ leBytes 4 1 ++
    leBytes 16 77 ++ leBytes 4 63 ++ leBytes 2 1 ++ leBytes 1 4 ++ leBytes 1 8 ++ leBytes 1 0 ++ zeros 7 ++ leBytes 8 256 ++ leBytes 8 320 ++
    leBytes 4 2500 ++ zeros 4 ++ leBytes 8 4096 ++ leBytes 8 8192 ++ leBytes 8 12288 ++ zeros 16 ++ zeros 144 ++ shard1 ++ zeros 2500
def image1 : List Byte := head1 ++ zeros 1276 ++ zeros 8192
/-- The member mask with the module's own bit. -/
def mask1 : Nat := 2 ^ 29

/-- An admitted module with its vault's map, the publisher's key, and nothing installed. -/
def vaulted : State := { adm with sec := { adm.sec with keys := [(63, ⟨1, key1, false⟩)] } }

/-- A message of an installation with tag 7 from module 148. -/
def imsg (payload : List Byte) : Msg := { nodeMsg 1184 payload with tag := 7 }
def begin1 : Msg := imsg (head1 ++ leBytes 9 mask1 ++ leBytes 4 600000)

def entryA (st : Nat) : CatEntry :=
  { index := 0, imageId := 77, gen := 1, state := st, kind := 0, rank := 0, baseId := 0, rows := 4, cols := 8, shards := [shardRow shard1],
    kept := [0], bad := [], owed := [], bound := 0, digest := zeros 32, stamp := noStamp, staleRows := 0, extent := [(0, 5)], head := head1 }
def rx1 : RxShard := ⟨0, 4100, [], 0, false, false⟩
def member1 : Member :=
  { tag := 7, reader := 148, entry := 0, repair := false, timeoutMs := 600000, lastMsg := 500, shards := [rx1], seqs := 0, endCount := none,
    endClk := 0, committed := false, extent := [(0, 5)], created := true }
/-- A member of the installation 7. -/
def receiving (f : Member → Member) : State :=
  { vaulted with vault := { vaulted.vault with member := some (f member1), catalogue := [entryA 1], reserved := [5] } }
def peer1 : Peer := ⟨29, 147, false, 0, false, false, false, []⟩
def peer2 : Peer := ⟨30, 148, false, 0, false, false, false, []⟩
def reader1 : Reader :=
  { tag := 7, cqe := none, origin := 1, image := [1], entry := 0, shards := [shardRow shard1], rows := 4, cols := 8, payload := 4096,
    peers := [peer1, peer2], queue := [], seq := 0, begun := 1000, timeout := 5000000000, ended := false, committing := false, gen := 1,
    digest := zeros 32 }
/-- The reader of the installation 7. -/
def reading (f : Reader → Reader) : State := { vaulted with vault := { vaulted.vault with reader := some (f reader1) } }
/-- A program of vault page 5 into its physical page, wanted or let go. -/
def prog1 (wanted : Bool) : Prog := ⟨⟨5, 0, 2, 0⟩, 133, [1, 2], wanted⟩
/-- A vault with a journal record waiting and a page program under way. -/
def journaling : State :=
  { up with vault := { up.vault with buffer := [JRec.sealed 8 (.map 3 131)], bufferClk := some 1000000, nextSeq := 9,
                                     flights := [prog1 true], reserved := [5] } }
/-- A vault that keeps one entry. -/
def keeping (st : Nat) : State := { vaulted with vault := { vaulted.vault with catalogue := [entryA st] } }
def repair1 : List Byte := leBytes 2 148 ++ zeros 2 ++ leBytes 16 77 ++ leBytes 4 1 ++ leBytes 2 1 ++ leBytes 2 0
def row1 : ApplianceRow := { imageId := 77, imageGen := 1, committed := true, digest := 0 }

/-- VaultCommands: a journal record waiting and none, a page program that ends and none, power failing with and without the map; repairs
of an absent entry, one not committed and one committed; synchronization with nothing, with one row, with one entry, and with an
entry that misses a shard. -/
theorem meets_VaultCommands :
    up.vault.bufferClk = none ∧
    (journaling.vault.bufferClk = some 1000000 ∧ journaling.fallsDue 2000000 = false ∧ (atClk 1960000 journaling).fallsDue 2000000 = true ∧
      journaling.vault.quiescent = false) ∧
    (∀ f ∈ journaling.vault.flights, f.piece.page % 128 ≠ (6 : Fin 128).val) ∧
    (journaling.vault.flights.find? (fun f => f.piece.page % 128 == (5 : Fin 128).val) = some (prog1 true) ∧ journaling.vault.waiting = [] ∧
      journaling.vault.member = none ∧ journaling.vault.buffer.length < 1023 ∧ (prog1 true).wanted = true ∧ (prog1 false).wanted = false) ∧
    journaling.vault.mapReady = true ∧ State.reset.vault.mapReady = false ∧
    (let m := imsg repair1
     vaulted.takes 0x33 { m with fm := true } ∧ vaulted.answerable { m with fm := true } ∧ vaulted.entryOf (field m.payload 4 16) (field m.payload 20 4) = none ∧
     (keeping 4).entryOf (field m.payload 4 16) (field m.payload 20 4) = some (entryA 4) ∧ (entryA 4).state ≠ 3 ∧
     (keeping 3).entryOf (field m.payload 4 16) (field m.payload 20 4) = some (entryA 3) ∧ (entryA 3).state = 3 ∧
     (let names := (pieces 2 (field m.payload 24 2) (m.payload.drop 26)).map leNat
      names ≠ [] ∧ (∀ n ∈ names, (entryA 3).kept.contains n = true ∧ (entryA 3).bad.contains n = false)) ∧
     (keeping 3).vault.repair = none ∧ (keeping 3).vault.reader = none) ∧
    (let m := { imsg [] with fm := true }
     vaulted.takes 0x34 m ∧ vaulted.answerable m ∧ vaulted.vault.catalogue = [] ∧ row1.committed = true ∧ (keeping 1).takes 0x34 m ∧
     (keeping 1).vault.catalogue = [entryA 1] ∧ (entryA 1).state = 1) ∧
    (let s : State := { vaulted with vault := { vaulted.vault with catalogue := [{ entryA 3 with kept := [] }] } }
     s.vault.catalogue = [{ entryA 3 with kept := [] }] ∧ row1.imageId.toNat = 77 ∧ row1.imageGen.toNat = 1 ∧
       s.missing { entryA 3 with kept := [] } ≠ []) := by
  unfold State.takes State.answerable; refine ⟨?_, ?_, ?_, ?_, ?_, ?_, ?_, ?_, ?_⟩ <;> decide +kernel

/-- The check of an image's head, but for the signature, which no state fixes (R469). -/
theorem meets_imageAccepted (h : Config.xmssVerify key1 (head1.take 320) (slice head1 320 2500) = true) :
    vaulted.imageStatus head1 false = stOK := by
  have k : findKey vaulted.sec.keys (field head1 32 4) = some ⟨1, key1, false⟩ := by decide +kernel
  have m : headMessage head1 = head1.take 320 := by decide +kernel
  have n : slice head1 (256 + 64 * field head1 36 2) (field head1 64 4) = slice head1 320 2500 := by decide +kernel
  have e : field head1 7 1 = 1 ∧ field head1 64 4 = 2500 ∧ sigLength 1 = 2500 := by decide +kernel
  have g : vaulted.signatureOk head1 = true := by
    unfold State.signatureOk
    rw [k]
    show (!false && decide (1 = field head1 7 1) && decide (field head1 64 4 = sigLength (field head1 7 1)) &&
      decide (sigLength (field head1 7 1) ≠ 0) && Config.xmssVerify key1 (headMessage head1)
        (slice head1 (256 + 64 * field head1 36 2) (field head1 64 4))) = true
    rw [n, m, h, e.1, e.2.1, e.2.2]; rfl
  unfold State.imageStatus
  simp only [g]
  decide +kernel

/-- A part of a BEGIN that does not fill it: its other parts are awaited. -/
theorem meets_beginParts : (vaulted.takeBegin { begin1 with seq := 1 }).1 = none := by
  have h : begin1.payload.length < 65536 := by decide +kernel
  have k : ({ begin1 with seq := 1 } : Msg).seq.toNat = 1 := rfl
  unfold State.takeBegin
  simp only [k]
  decide +kernel
/-- Timeouts that have and have not come by the tick of a message. -/
theorem meets_ripe :
    (receiving fun x => { x with timeoutMs := 0 }).vault.member = some { member1 with timeoutMs := 0 } ∧
    ({ member1 with timeoutMs := 0 } : Member).due ≤ (receiving id).time.clk ∧ (receiving id).time.clk < member1.due ∧ member1.lacks = false ∧
    (∀ r, (vaulted.vault.reader = some r ∨ vaulted.vault.repair = some r) → vaulted.time.clk < r.timeout) ∧
    (reading id).time.clk < reader1.timeout ∧ (reading id).time.clk < reader1.begun + 100000000 := by
  refine ⟨rfl, by decide +kernel, by decide +kernel, by decide +kernel, ?_, by decide +kernel, by decide +kernel⟩
  intro r h; rcases h with h | h <;> cases h

/-- Installations: BEGIN with an image that is refused and with the module's own place in the group; a member that receives, repairs,
ends, commits with its shards verified and not, and aborts; another tag; the timers of a member; a reader's acceptances, refusal,
credit, reports and commits; its timers. -/
theorem meets_InstallMember :
    (vaulted.takes kBEGIN begin1 ∧ bit begin1.opt.toNat 0 = false ∧ begin1.seq = 0 ∧ begin1.payload.length < 65536 ∧
      vaulted.ripeInstall = vaulted ∧ vaulted.fab.coordValid = true ∧
      bit (beginOf begin1.payload).mask (memberBit vaulted.fab.row vaulted.fab.col) = true ∧
      vaulted.memberBusy begin1.tag.toNat = false ∧ vaulted.freeEntry = some 0 ∧
      ((headShards (beginOf begin1.payload).head).filter fun h => h.keptAt vaulted.fab.row vaulted.fab.col).map Shard.pages = [1] ∧
      (beginOf begin1.payload).head = head1) := by
  unfold State.takes; refine ⟨?_, ?_, rfl, ?_, rfl, ?_, ?_, ?_, ?_, ?_, ?_⟩ <;> decide +kernel
theorem meets_InstallData :
    (let s := receiving id
     let m := { imsg (zeros 4100) with aux := 0 }
     s.ripeInstall = s ∧ s.vault.member = some member1 ∧ member1.tag = m.tag.toNat ∧ s.takes kDATA m ∧ s.takes kREPAIR m ∧ s.takes kEND m ∧
     s.takes kCOMMIT m ∧ s.takes kABORT m ∧ member1.shards.find? (fun r => r.shard == m.aux.toNat) = some rx1 ∧ rx1.verified = false ∧
     m.offset = 0 ∧ m.offset.toNat + m.payload.length ≤ rx1.length ∧ m.offset.toNat ∉ rx1.got ∧ s.vault.freeSlot = some 0 ∧
     (member1.pagesOf m.aux.toNat)[m.offset.toNat / 65536]? = some 5 ∧ (member1.pagesOf m.aux.toNat).head? = some 5 ∧ member1.shards ≠ [] ∧
     member1.committed = false ∧ s.entryAt member1.entry = some (entryA 1) ∧ (∃ r ∈ member1.shards, r.verified = false)) := by
  unfold State.takes
  refine ⟨rfl, rfl, rfl, ?_, ?_, ?_, ?_, ?_, ?_, ?_, ?_, ?_, ?_, ?_, ?_, ?_, ?_, rfl, ?_, ?_⟩ <;> decide +kernel
theorem meets_InstallEnd :
    (let x := { member1 with shards := [{ rx1 with verified := true }] }
     (receiving fun _ => x).vault.member = some x ∧ (∀ r ∈ x.shards, r.verified = true) ∧ (receiving fun _ => x).vault.powerFail = false ∧
     (receiving fun _ => x).vault.quiescent = false ∧ (receiving fun _ => x).entryAt x.entry = some (entryA 1)) ∧
    (receiving fun x => { x with committed := true }).vault.member = some { member1 with committed := true } ∧ member1.created = true ∧
    (vaulted.vault.member = none ∧ vaulted.ripeInstall.vault.begins = [] ∧ vaulted.takes kDATA (imsg [])) ∧
    (let x := { member1 with endCount := some 3, shards := [{ rx1 with got := [0] }], endClk := 1000000 }
     (receiving fun _ => x).vault.member = some x ∧ x.lacks = true ∧ x.checked = false ∧ x.failing = [] ∧ member1.failing = [0] ∧
     (receiving fun _ => x).fallsDue (x.endClk + 10000000) = false ∧ (atClk 10990000 (receiving fun _ => x)).fallsDue (x.endClk + 10000000) = true) ∧
    ((receiving id).fallsDue member1.due = false ∧ (atClk 600000000000 (receiving id)).fallsDue member1.due = true) := by
  unfold State.takes; refine ⟨?_, ?_, ?_, ?_, ?_, ?_⟩ <;> decide +kernel
theorem meets_freeVault : (vaulted.freeVault 1).length = 1 := by
  have h : 0 < vaultPages := by unfold vaultPages vaultBytes; split <;> decide
  unfold State.freeVault
  have e : vaulted.vault.inUse = [] := by decide +kernel
  rw [e]; simp [h]
theorem meets_InstallReader :
    (let s := reading id
     let m := imsg (leBytes 4 3)
     s.ripeInstall = s ∧ s.vault.reader = some reader1 ∧ reader1.image ≠ [] ∧ reader1.tag = m.tag.toNat ∧ s.takes kACCEPT m ∧
     s.takes kREFUSE m ∧ s.takes kCREDIT m ∧ s.takes kREPORT m ∧ s.takes kCOMMITTED m ∧ reader1.queue = [] ∧ reader1.ended = false ∧
     reader1.committing = false ∧ (∃ p ∈ reader1.peers, p.answered = false ∧ p.module ≠ msgModule m) ∧ s.vault.repair = none ∧
     reader1.tag ≠ (nodeMsg 1184 []).tag.toNat) := by
  unfold State.takes; refine ⟨rfl, rfl, ?_, ?_, ?_, ?_, ?_, ?_, ?_, ?_, ?_, ?_, ?_, ?_, ?_⟩ <;> decide +kernel
theorem meets_InstallReports :
    (let r := { reader1 with peers := [peer1, { peer2 with fails := [(0, 4)] }] }
     let m := { imsg (leBytes 2 0) with status := 5 }
     (reading fun _ => r).vault.reader = some r ∧ (reading fun _ => r).ripeInstall = (reading fun _ => r) ∧ m.status ≠ 0 ∧
     r.peers.find? (fun p => p.module == msgModule m) = some { peer2 with fails := [(0, 4)] } ∧ m.payload = leBytes 2 0 ∧ 0 < 65536 ∧
     findKey ({ peer2 with fails := [(0, 4)] } : Peer).fails 0 = some 4) ∧
    (let r := { reader1 with committing := true, peers := [{ peer1 with answered := true, committed := true }, { peer2 with answered := true }] }
     (reading fun _ => r).vault.reader = some r ∧ (reading fun _ => r).ripeInstall = (reading fun _ => r) ∧ r.committing = true ∧
     (∀ p ∈ r.peers, p.module ≠ msgModule (imsg []) → p.committed = true) ∧ r.silent = false ∧
     (reading fun _ => r).fallsDue (r.begun + 10000000) = false ∧ (atClk 9990000 (reading fun _ => r)).fallsDue (r.begun + 10000000) = true) ∧
    (reader1.silent = true ∧ (reading id).fallsDue (reader1.begun + 100000000) = false ∧
      (atClk 100000900 (reading id)).fallsDue (reader1.begun + 100000000) = true) ∧
    ((reading id).fallsDue reader1.timeout = false ∧ (atClk 4999990000 (reading id)).fallsDue reader1.timeout = true) := by
  refine ⟨⟨rfl, rfl, ?_, ?_, ?_, ?_, ?_⟩, ⟨rfl, rfl, ?_, ?_, ?_, ?_, ?_⟩, ⟨?_, ?_, ?_⟩, ?_, ?_⟩ <;> decide +kernel

/-! ### Host commands -/

/-- Submission rings 0 of the PF and 1 of VF 0, the completion queue 0 and the token queue 0 of the PF. -/
def rings1 : List Ring :=
  [{ Ring.reset 0 with enable := true, st := 1, sizeLog := 4, head := 2, tail := 5 },
   { Ring.reset 1 with enable := true, st := 1, sizeLog := 4, head := 2, tail := 5, owner := 2 },
   { Ring.reset 512 with enable := true, st := 1, sizeLog := 4 }, { Ring.reset 1024 with enable := true, st := 1, sizeLog := 4 }]
def hosting (s : State) : State := { s with host := { s.host with rings := rings1 } }

/-- A command of the PF for instance `inst`, with ARGS and a parameter block. -/
def cmd1 (inst : Fin 16) (args block : List Byte) : Cmd :=
  { sq := 0, cid := 7, fence := false, reserved := false, inst := inst, param := if block = [] then 0 else 0x1000,
    paramLen := BitVec.ofNat 32 block.length, args := args ++ zeros (44 - args.length), block := block, busError := false, fetchError := false, opcode := none }

/-- A job of its own command, as `State.runs` asks for it. -/
theorem runs_of {s : State} {i : Instr} {op : Nat} {c : Cmd} {h : CmdShape} (e : hostShape i = some (op, c, h)) (p : s.passes c h) :
    s.runs i (s.jobOf op c) := ⟨op, c, h, e, p, rfl⟩

/-- HostCommandChecks: a ring at rest, an entry that cannot be read, a reserved opcode, a sender that may not, a malformed command, a bus error, a full
ledger. -/
theorem meets_HostCommandChecks :
    let c := cmd1 0 [] []
    let s := hosting up
    hostShape (.hint c) = some (0x38, c, ⟨onlyPf, false, none, true⟩) ∧ up.mayFetch c = false ∧ s.mayFetch c = true ∧
    s.mayFetch { c with fetchError := true } = true ∧ (s.mayFetch { c with opcode := some 0x77 } = true ∧
      ({ c with opcode := some 0x77 } : Cmd).opcode.isSome = true ∧ c.opcode = none) ∧ s.mayFetch { c with sq := 1 } = true ∧
    onlyPf (s.jobOf 0x38 { c with sq := 1 }).origin = false ∧ onlyPf (s.jobOf 0x38 c).origin = true ∧
    cmdFormed c ⟨onlyPf, false, none, true⟩ = true ∧ cmdFormed { c with reserved := true } ⟨onlyPf, false, none, true⟩ = false ∧
    cmdFormed { c with busError := true } ⟨onlyPf, false, none, true⟩ = true ∧ (hosting shut).mayFetch c = true ∧
    (hosting shut).ledgerShut = true ∧ fromOutside ((hosting shut).jobOf 0x38 c).origin = true := by
  refine ⟨rfl, ?_, ?_, ?_, ?_, ?_, ?_, ?_, ?_, ?_, ?_, ?_, shut_shut, ?_⟩ <;> decide +kernel

/-- Instance 0 FREE over a committed image, and in a state of its life. -/
def hosting3 : State := hosting (keeping 3)
def living (x : Inst) : State :=
  { hosting3 with serve := { hosting3.serve with insts := setNth hosting3.serve.insts 0 { x with owner := 1, entry := some 0 } } }
def createArgs : List Byte := leBytes 16 77 ++ leBytes 4 1 ++ leBytes 1 2

/-- InstanceLifecycle: creation, a second creation, restart, release. -/
theorem meets_InstanceLifecycle :
    (hosting3.shape ∧ hosting3.runs (.instanceCreate (cmd1 0 createArgs [])) (hosting3.jobOf 0x01 (cmd1 0 createArgs []))) ∧
    (let a := (cmd1 0 createArgs []).args
     field a 20 1 = 2 ∧ argsZero a 21 23 = true ∧ hosting3.svc.hbmReady = true ∧ (hosting3.inst 0).state = .free ∧
     hosting3.entryOf (field a 0 16) (field a 16 4) = some (entryA 3) ∧ (entryA 3).kind = 0 ∧ hosting3.fab.row ≠ 8) ∧
    (let s := living { Inst.reset with state := .created }
     s.runs (.instanceCreate (cmd1 0 createArgs [])) (s.jobOf 0x01 (cmd1 0 createArgs [])) ∧ (s.inst 0).state ≠ .free) ∧
    (let s := living { Inst.reset with state := .tornDown }
     s.runs (.instanceRestart (cmd1 0 [] [])) (s.jobOf 0x04 (cmd1 0 [] [])) ∧ argsZero (cmd1 0 [] []).args 0 44 = true ∧
     (s.inst 0).state = .tornDown ∧ (s.inst 0).sched.current.isNone = true ∧
     s.runs (.instanceRelease (cmd1 0 [] [])) (s.jobOf 0x05 (cmd1 0 [] [])) ∧ (s.inst 0).seqs = [] ∧ (s.inst 0).queue = [] ∧
     (∀ r ∈ s.serve.steps, r.inst ≠ 0)) := by
  refine ⟨⟨by unfold State.shape; decide +kernel, runs_of rfl ?_⟩, ?_, ⟨runs_of rfl ?_, ?_⟩, ⟨runs_of rfl ?_, ?_, ?_, ?_, runs_of rfl ?_, ?_, ?_, ?_⟩⟩ <;>
    (try unfold State.passes) <;> decide +kernel

/-- Records of a shard of KIND 2: the directory, with the shard itself in its one row, and the sampler record (R343, R344); the shard lies
in the vault's page 5, which physical page 133 shows. -/
def samplerBlock : List Byte :=
  leBytes 2 1 ++ zeros 2 ++ leBytes 4 2 ++ zeros 4 ++ leBytes 4 3 ++ zeros 8 ++ leBytes 4 0xFFFFFFFF ++ zeros 36
def dirBlock : List Byte :=
  zeros 4 ++ leBytes 4 16 ++ zeros 8 ++ leBytes 8 (2 * 2 ^ 16) ++ zeros 40 ++ leBytes 1 6 ++ zeros 3 ++ leBytes 4 64 ++ zeros 8 ++
    samplerBlock ++ zeros 48
def shardDir : Shard := { index := 0, row := 0xFF, col := 0xFF, kind := 2, prot := true, offset := 0, length := 192, checkOff := 0, digest := [] }
def entryDir : CatEntry := { entryA 3 with shards := [shardDir] }
def row0 : DirRow := ⟨0, 2, 0, 0, 0, 0, 0⟩
def recs0 : List Rec := [⟨0, 0, 0, leBytes 16 (2 * 2 ^ 16)⟩, ⟨6, 0, 0, samplerBlock⟩]
/-- Instance 0 CREATED over that image. -/
def created : State :=
  let s := living { Inst.reset with state := .created, acct := { Inst.reset.acct with csLimit := 64 } }
  { s with vault := { s.vault with catalogue := [entryDir], mapped := [(5, 133)], phys := [(133, dirBlock)] } }

/-- Activation over that image: its directory and records, a free run of the common store wherever the checkpoint store lies, and the order
of the activation run to its end. -/
def actStart : State :=
  let u := created.consumed (cmd1 0 [] [])
  u.setInst 0 { u.inst 0 with state := .activating }
theorem dir0 : actStart.dirShard entryDir = some shardDir ∧ actStart.directory entryDir shardDir = some [row0] ∧
    actStart.dirRecs entryDir [row0] = some recs0 := by decide +kernel
theorem read0 (s : State) (ps : List Nat) (h : (ps.any fun p => !(s.shardServed (p * 65536))) = false)
    (k : (ps.find? fun p => !(s.pageMapped (mpaVault (p * 65536)))) = none) : s.readVault ps [] = (true, [], s) := by
  unfold State.readVault; simp only [h, k]; rfl
theorem csRun0 : (actStart.csRun 16 64).isSome = true := by
  have hr : (actStart.serve.insts.filter fun x => x.csArea ≠ 0) = [] := by decide +kernel
  have hs : actStart.csRuns = [(Config.ckptTile.val, 160), (instTile, 8192)] := by unfold State.csRuns; rw [hr]; rfl
  have hc := Config.ckptTile.isLt
  have hi : instTile = if 8192 ≤ Config.ckptTile.val then 0 else Config.ckptTile.val + 160 := rfl
  have free : ∀ t n : Nat, n ≤ csTiles - t → (∀ r ∈ actStart.csRuns, (r.1 + r.2 ≤ t) ∨ t + n ≤ r.1) → 0 < n → n ≤ actStart.csFree t := by
    intro t n h k hn
    unfold State.csFree
    rw [hs] at k ⊢
    have k1 := k _ (List.mem_cons_self ..)
    have k2 := k _ (List.mem_cons_of_mem _ (List.mem_cons_self ..))
    dsimp only at k1 k2
    have e : ([(Config.ckptTile.val, 160), (instTile, 8192)].any fun r => decide (r.1 ≤ t) && decide (t < r.1 + r.2)) = false := by
      simp only [List.any_cons, List.any_nil, Bool.or_false, Bool.or_eq_false_iff, Bool.and_eq_false_iff, decide_eq_false_iff_not]
      omega
    rw [e]
    simp only [Bool.false_eq_true, if_false]
    have ge : ∀ (l : List (Nat × Nat)) (m : Nat), n ≤ m → (∀ r ∈ l, n ≤ r.1 - t) → n ≤ l.foldl (fun m r => min m (r.1 - t)) m := by
      intro l
      induction l with
      | nil => intro m h _; exact h
      | cons r l ih =>
        intro m h k
        exact ih _ (Nat.le_min.mpr ⟨h, k r (List.mem_cons_self ..)⟩) fun x hx => k x (List.mem_cons_of_mem _ hx)
    refine ge _ _ h fun r hr => ?_
    obtain ⟨m, hm⟩ := List.mem_filter.mp hr
    have kr := k r m
    have hd := of_decide_eq_true hm
    simp only [List.mem_cons, List.not_mem_nil, or_false] at m
    rcases m with rfl | rfl <;> dsimp only at kr hd ⊢ <;> omega
  have hw : max 16 (min 64 csShare) = 64 := by decide
  unfold State.csRun
  simp only [hw, Option.isSome_map, if_neg (show ¬ 64 < 16 by decide)]
  rw [List.find?_isSome]
  have hk : csTiles = 126976 := rfl
  have run : ∀ t, (∀ r ∈ actStart.csRuns, (r.1 + r.2 ≤ t) ∨ t + 64 ≤ r.1) → 64 ≤ csTiles - t → decide (64 ≤ actStart.csFree t) = true :=
    fun t k h => decide_eq_true (free t 64 h k (by decide))
  by_cases h : 8192 ≤ Config.ckptTile.val
  · rw [if_pos h] at hi
    by_cases h' : 8256 ≤ Config.ckptTile.val
    · exact ⟨8192, by rw [List.mem_mergeSort, hs, hi]; simp, run _ (by rw [hs, hi]; simp; omega) (by decide)⟩
    · exact ⟨Config.ckptTile.val + 160, by rw [List.mem_mergeSort, hs]; simp, run _ (by rw [hs, hi]; simp; omega) (by omega)⟩
  · rw [if_neg h] at hi
    exact ⟨instTile + 8192, by rw [List.mem_mergeSort, hs]; simp, run _ (by rw [hs]; simp; omega) (by omega)⟩
def uses0 : List (PageUse × List (Nat × Nat)) := ((actPlan [row0] []).map (·.2)).zip (List.replicate 24 [])
theorem act0 : ∃ v, actStart.activate 0 entryDir [] = (.ok (), v) := by
  obtain ⟨r, hr⟩ := Option.isSome_iff_exists.mp csRun0
  obtain ⟨d1, d2, d3⟩ := dir0
  have r1 := read0 actStart (entryDir.dataPages shardDir) (by decide +kernel) (by decide +kernel)
  have r2 := read0 actStart (entryDir.tablePages [row0]) (by decide +kernel) (by decide +kernel)
  have e1 : ([row0].any fun r => !(entryDir.kept.contains r.shard) || entryDir.owed.contains r.shard) = false := by decide
  have e2 : ([row0].any fun r => entryDir.bad.contains r.shard) = false := by decide
  unfold State.activate
  simp only [d1, r1, d2, e1, e2, r2, d3, Bool.false_eq_true, if_false]
  unfold State.takeRows
  have hn : actStart.serve.cfgs.length = 0 ∧ actStart.seqSlots = 0 := by decide +kernel
  have hl : (actStart.inst 0).acct.csLimit - (actStart.inst 0).acct.csUsed = 64 := by decide +kernel
  have f1 : (recs0.filter fun r => decide (r.type = 8)) = [] := by decide +kernel
  have f2 : (recs0.find? fun r => decide (r.type = 9)) = none := by decide +kernel
  have ha : ∀ s : State, s.allocateAll 0 ((actPlan [row0] []).map (·.1)) [] = (.ok (List.replicate 24 []), s) := by
    have hp : (actPlan [row0] []).map (·.1) = (actPlan [] []).map (·.1) := by decide +kernel
    intro s; rw [hp]; rfl
  have ht : tableTiles recs0 = (16, 16) := by decide +kernel
  simp only [f1, f2, hn.1, hn.2, List.length_nil, List.filterMap_nil, ha, ht, hl, hr, Nat.add_zero, gt_iff_lt, Nat.not_lt_zero, if_false]
  have rp : entryDir.rowPages [row0] = [] := by decide +kernel
  rw [rp, read0 _ [] rfl rfl]
  change ∃ v, State.enterRows _ 0 entryDir [row0] recs0 uses0 = (.ok (), v)
  unfold State.enterRows
  have pa : (parseSampler samplerBlock).isSome = true := by decide +kernel
  obtain ⟨p, hp⟩ := Option.isSome_iff_exists.mp pa
  have ad : ∀ (s : State) (i b a : Nat) rs, s.addRecs i b a rs recs0 Loaded.none = some { Loaded.none with sampler := some p } := by
    intro s i b a rs
    show ((parseSampler samplerBlock).bind fun p => if Loaded.none.sampler.isNone then some { Loaded.none with sampler := some p } else none).bind _ = _
    rw [hp]; rfl
  have ao : ∀ m, p.1.areasOk m 0 = true := by
    intro m
    have z : ∀ n page, statePages m page (n * 0) = true := by intro n page; rw [Nat.mul_zero]; rfl
    unfold SamplerRec.areasOk
    rw [z, z]; simp
  simp only [ad]
  refine ⟨_, if_neg fun h => ?_⟩
  exact Bool.noConfusion ((congrArg (fun b => !b) (ao _)).symm.trans h)
theorem meets_activate :
    created.runs (.activate (cmd1 0 [] []) []) (created.jobOf 0x02 (cmd1 0 [] [])) ∧ created.svc.hbmReady = true ∧ created.fab.row ≠ 8 ∧
    (created.inst 0).state = .created ∧ (created.inst 0).entry.bind created.entryAt = some entryDir ∧ created.vault.mapReady = true ∧
    ∃ v, ((created.consumed (cmd1 0 [] [])).setInst 0 { created.inst 0 with state := .activating }).activate 0 entryDir [] = (.ok (), v) := by
  refine ⟨runs_of rfl ?_, ?_, ?_, ?_, ?_, ?_, act0⟩ <;> (try unfold State.passes) <;> decide +kernel

/-- The blocks of a configuration with one context that ends at once, a schedule with one entry and a routing table of one expert; each
with its check. -/
def configBlock : List Byte :=
  leBytes 2 1 ++ leBytes 1 0 ++ leBytes 1 0 ++ leBytes 2 1 ++ zeros 2 ++ leBytes 4 2 ++ leBytes 4 0x28770A4D ++ leBytes 4 64 ++ zeros 44 ++
    leBytes 16 0x2000 ++ leBytes 8 0x4000000000 ++ zeros 4362 ++ leBytes 2 1 ++ zeros 20 ++ leBytes 2 1 ++ zeros 3798 ++
    leBytes 2 0xFFFF ++ zeros 66
def schedBlock : List Byte :=
  leBytes 4 1 ++ leBytes 4 80 ++ zeros 8 ++ leBytes 2 1 ++ leBytes 2 50 ++ leBytes 2 1 ++ zeros 2 ++ leBytes 4 1 ++ zeros 4 ++ leBytes 4 2 ++
    leBytes 4 0xBD393868 ++ zeros 40 ++ leBytes 4 9 ++ leBytes 4 10 ++ leBytes 8 5 ++ zeros 32
def routeBlock : List Byte :=
  leBytes 2 1 ++ zeros 2 ++ leBytes 2 1 ++ leBytes 2 1 ++ leBytes 2 1 ++ leBytes 2 1 ++ leBytes 4 3 ++ leBytes 4 0x1781B903 ++ zeros 44 ++
    leBytes 8 0x40000 ++ zeros 8
def beat102 : List Byte := leBytes 6 102

/-- Instance 0 ACTIVE with configuration 5 and an adapter image in the catalogue. -/
def loading (cfg : Cfg → Cfg) : State :=
  let s := living { Inst.reset with state := .active, csArea := 64 }
  let b : CatEntry := { entryA 3 with index := 1, imageId := 78, kind := 1, rank := 8, baseId := 77 }
  { s with serve := { s.serve with cfgs := [cfg (cfg5 [])] }, vault := { s.vault with catalogue := [entryA 3, b] } }

/-- GenerationLoads: a configuration, a schedule, a routing table, a sampler record and an adapter, each well formed; an adapter unbound;
a table with room and a full one. -/
theorem meets_GenerationLoads :
    (let s := loading id
     s.runs (.configLoad (cmd1 0 beat102 configBlock)) (s.jobOf 0x03 (cmd1 0 beat102 configBlock)) ∧
     s.time.beat + 2 ≤ field (cmd1 0 beat102 configBlock).args 0 6 ∧ argsZero (cmd1 0 beat102 configBlock).args 6 38 = true ∧
     (cfg5 []).gens.has 2 = false) ∧
    (let s := loading id
     s.runs (.tableLoad (cmd1 0 beat102 schedBlock)) (s.jobOf 0x10 (cmd1 0 beat102 schedBlock)) ∧
     (s.inst 0).sched.has 2 = false ∧ (s.inst 0).state = .active) ∧
    (let s := loading id
     let a := zeros 8 ++ beat102
     s.runs (.routeTableLoad (cmd1 0 a routeBlock)) (s.jobOf 0x11 (cmd1 0 a routeBlock)) ∧
     s.time.beat + 2 ≤ field (cmd1 0 a routeBlock).args 8 6 ∧ argsZero (cmd1 0 a routeBlock).args 1 7 = true ∧
     argsZero (cmd1 0 a routeBlock).args 14 30 = true ∧ ((s.inst 0).route 0).has 3 = false ∧ ((s.inst 0).route 0).current = none) ∧
    (let s := loading id
     s.runs (.automatonLoad (cmd1 0 [] samplerBlock)) (s.jobOf 0x12 (cmd1 0 [] samplerBlock)) ∧
     (s.inst 0).sampler.has 3 = false ∧ (s.inst 0).sampler.current = none) ∧
    (let s := loading id
     let a := leBytes 4 9 ++ leBytes 16 78 ++ leBytes 4 1
     s.runs (.adapterBind (cmd1 0 a []) []) (s.jobOf 0x22 (cmd1 0 a [])) ∧ (s.inst 0).entry.bind s.entryAt = some (entryA 3) ∧
     s.entryOf (field (cmd1 0 a []).args 4 16) (field (cmd1 0 a []).args 20 4) =
       some { entryA 3 with index := 1, imageId := 78, kind := 1, rank := 8, baseId := 77 } ∧
     s.runs (.adapterUnbind (cmd1 0 (leBytes 2 9) [])) (s.jobOf 0x23 (cmd1 0 (leBytes 2 9) []))) ∧
    ((living Inst.reset).inst 0).sched.hasRoom = true := by
  refine ⟨⟨runs_of rfl ?_, ?_⟩, ⟨runs_of rfl ?_, ?_⟩, ⟨runs_of rfl ?_, ?_⟩, ⟨runs_of rfl ?_, ?_⟩, ⟨runs_of rfl ?_, ?_, ?_, runs_of rfl ?_⟩, ?_⟩ <;>
    (try unfold State.passes) <;> decide +kernel

/-- A fold whose value is looked at in each step, so that a long one is evaluated step by step; CRC-32C as such a fold. -/
def forced (f : Nat → Byte → Nat) : List Byte → Nat → Nat
  | [], c => c
  | b :: bs, c => if Nat.beq c 0 then forced f bs (f c b) else forced f bs (f c b)
theorem forced_eq (f : Nat → Byte → Nat) (l : List Byte) : ∀ c, forced f l c = l.foldl f c := by
  induction l with
  | nil => intro c; rfl
  | cons b bs ih => intro c; simp [forced, ih]
theorem crc_foldl (l : List Byte) : ∀ c : Word32,
    (l.foldl crc32cByte c).toNat = l.foldl (fun n b => (crc32cByte (BitVec.ofNat 32 n) b).toNat) c.toNat := by
  induction l with
  | nil => intro c; rfl
  | cons b bs ih => intro c; simp [ih]
theorem crc_forced (l : List Byte) :
    crc32c l = (BitVec.ofNat 32 (forced (fun n b => (crc32cByte (BitVec.ofNat 32 n) b).toNat) l 0xFFFFFFFF) ^^^ 0xFFFFFFFF#32).toNat := by
  rw [forced_eq, show (0xFFFFFFFF : Nat) = (0xFFFFFFFF#32).toNat from rfl, ← crc_foldl, BitVec.ofNat_toNat, BitVec.setWidth_eq]; rfl

/-- The blocks are read as their records. -/
theorem meets_configBlock : ((parseConfig configBlock []).map fun p => (p.2.1, p.2.2)) = some (0, 2) := by
  have h : checked configBlock (field configBlock 12 4) 64 = true := by unfold checked; rw [crc_forced]; decide +kernel
  unfold parseConfig
  dsimp only
  rw [h]
  decide +kernel
theorem meets_loadBlocks :
    ((recsOf schedBlock).map fun rs => rs.map (·.type)) = some [1] ∧
    ((parseSched (slice schedBlock 16 80)).map fun p => (p.2.1, p.2.2)) = some (0, 2) ∧
    ((parseRoute routeBlock).map fun p => (p.2, p.1.fits 64)) = some (3, true) ∧
    ((parseSampler samplerBlock).map fun p => (p.2, p.1.areasOk [] 0)) = some (3, true) := by decide +kernel

/-- HostSettings: a quota, a region that overlaps none and one already owned, one behind a request that waits, a tenant, a preference, an image deleted, an installation
but for its signature, NOP. -/
def quotaArgs : List Byte := leBytes 4 10 ++ leBytes 4 20 ++ leBytes 4 64 ++ leBytes 1 1
def ownArgs : List Byte := leBytes 8 (16 * 2 ^ 46 + 2 ^ 55 + 2 ^ 56) ++ leBytes 8 5
def own1 : OwnEntry := ⟨3, 0, 16, 0, 1, 5, 4⟩
def tenantArgs : List Byte := leBytes 4 3 ++ leBytes 4 4 ++ leBytes 2 2
def hintArgs : List Byte := leBytes 1 5 ++ leBytes 1 0 ++ leBytes 1 5 ++ zeros 5 ++ leBytes 8 102 ++ leBytes 2 3
def deleteArgs : List Byte := leBytes 16 77 ++ leBytes 4 1
def installArgs : List Byte := zeros 8 ++ leBytes 8 12288 ++ leBytes 9 mask1 ++ zeros 3 ++ leBytes 4 1000
theorem meets_HostSettings :
    (let s := loading id
     let a := (cmd1 0 quotaArgs []).args
     s.runs (.poolSet (cmd1 0 quotaArgs [])) (s.jobOf 0x06 (cmd1 0 quotaArgs [])) ∧ (s.inst 0).state ≠ .free ∧ field a 12 1 ≤ 1 ∧
     argsZero a 13 31 = true ∧
     ((s.serve.insts.zipIdx.filter fun p => p.2 ≠ 0).foldl (fun n p => n + p.1.acct.quota) 0) + field a 0 4 ≤ poolPages ∧
     field a 0 4 ≤ field a 4 4 ∧ field a 4 4 ≤ poolPages ∧ field a 8 4 ≤ csTiles ∧ (s.inst 0).acct.used ≤ field a 4 4 ∧
     (s.inst 0).acct.csUsed ≤ field a 8 4 ∧ (hosting3.inst 0).state = .free) ∧
    (let s := hosting3
     let a := (cmd1 0 ownArgs []).args
     s.runs (.ownSet (cmd1 0 ownArgs [])) (s.jobOf 0x07 (cmd1 0 ownArgs [])) ∧ bits (field a 0 8) 58 6 = 0 ∧ bits (field a 8 8) 14 2 = 0 ∧
     bits (field a 8 8) 48 16 = 0 ∧ argsZero a 16 28 = true ∧ bits (field a 0 8) 56 2 ≠ 3 ∧ bits (field a 0 8) 46 6 = 16 ∧
     bits (field a 0 8) 52 3 ≤ 5 ∧ bits (field a 0 8) 0 46 % 2 ^ 16 = 0 ∧ bit (field a 0 8) 55 = true ∧ s.mem.own = [] ∧
     s.mem.own.length + s.ownWaiting.length < 1024 ∧ s.ownOverlaps 0 16 0 = false ∧ s.behind s.fab.held 0 (2 ^ 16) = false ∧
     s.behind [.memory 2 { Msg.blank with length := 8 } []] 0 (2 ^ 16) = true ∧
     [own1].find? (fun o => o.base == bits (field a 0 8) 0 46 && o.size == bits (field a 0 8) 46 6 && o.unit == bits (field a 0 8) 52 3) =
       some own1) ∧
    (let s := hosting3
     let a := (cmd1 0 tenantArgs []).args
     s.runs (.tenantSet (cmd1 0 tenantArgs [])) (s.jobOf 0x08 (cmd1 0 tenantArgs [])) ∧ field a 8 2 ≠ 0 ∧ argsZero a 1 3 = true ∧
     argsZero a 10 34 = true) ∧
    (let s := hosting3
     let a := (cmd1 0 hintArgs []).args
     s.runs (.hint (cmd1 0 hintArgs [])) (s.jobOf 0x38 (cmd1 0 hintArgs [])) ∧ field a 0 1 < 16 ∧ field a 1 1 ≤ 4 ∧ field a 2 1 ≤ 11 ∧
     field a 8 8 < 2 ^ 48 ∧ s.time.beat + 2 ≤ field a 8 8 ∧ field a 16 2 ≠ 0 ∧ argsZero a 3 5 = true ∧ argsZero a 18 26 = true) ∧
    (let s := hosting3
     let a := (cmd1 0 deleteArgs []).args
     s.runs (.imageDelete (cmd1 0 deleteArgs [])) (s.jobOf 0x31 (cmd1 0 deleteArgs [])) ∧ argsZero a 20 24 = true ∧
     s.entryOf (field a 0 16) (field a 16 4) = some (entryA 3) ∧ (entryA 3).bound = 0 ∧ s.entryOpen (entryA 3) = false) ∧
    (let s := hosting3
     s.runs (.nopCommand (cmd1 0 [] [])) (s.jobOf 0x3F (cmd1 0 [] []))) := by
  refine ⟨⟨runs_of rfl ?_, ?_⟩, ⟨runs_of rfl ?_, ?_⟩, ⟨runs_of rfl ?_, ?_⟩, ⟨runs_of rfl ?_, ?_⟩, ⟨runs_of rfl ?_, ?_⟩, runs_of rfl ?_⟩ <;>
    (try unfold State.passes) <;> decide +kernel
theorem meets_install :
    let s := hosting vaulted
    let a := (cmd1 0 installArgs []).args
    s.runs (.install (cmd1 0 installArgs []) image1) (s.jobOf 0x30 (cmd1 0 installArgs [])) ∧ argsZero a 26 2 = true ∧ argsZero a 32 12 = true ∧
    bits (field a 25 1) 4 4 = 0 ∧ field a 28 4 = 1000 ∧ s.fab.coordValid = true ∧ image1 ≠ [] ∧
    bit (field a 16 9) (memberBit s.fab.row s.fab.col) = true ∧ field head1 88 8 = field a 8 8 ∧ field a 8 8 ≤ image1.length ∧
    imageHead image1 = head1 ∧ s.vault.repair = none ∧
    groupIncomplete head1 (field a 16 9) = false ∧ s.vault.reader = none ∧ s.vault.member = none := by
  refine ⟨runs_of rfl ?_, ?_, ?_, ?_, ?_, ?_, ?_, ?_, ?_, ?lt, ?_, ?_, ?_, ?_, ?_⟩
  case lt => simp only [image1, zeros, List.length_append, List.length_replicate]; decide +kernel
  all_goals
    (try unfold State.passes) <;> decide +kernel

/-! ### Requests -/

def sampler1 : SamplerRec :=
  { v := 2, bf16 := false, logitPage := 0, dlogitPage := 0xFFFFFFFF, targets := [], starts := [], states := [], trans := [], masks := [] }
def sampling1 : Sampling :=
  { seed := 1, temp := 0, topP := 0x3F800000, topK := 1024, prob := false, dltEn := false, penPrompt := false, mask := 0, draftLen := 0,
    rep := 0x3F800000, freq := 0, pres := 0, automaton := 0, stops := [], dlt := [], listMask := [] }
def seq1 : Seq :=
  { req := 9, tenant := 3, tq := 0, adapter := none, origin := 1, prompt := [1], maxNew := 4, deadline := some 2000000, stamp := ⟨1, 2⟩,
    par := sampling1, slot := 0, adapterGen := none, samplerGen := 3, done := 1, kv := 1, draftKv := 0, newest := 1, emitted := 1, counts := [],
    penFull := false, autState := 0, history := [], busy := none, failures := 0, lastServed := 0, cancel := false, kvPages := [], csTiles := 1 }
def part1 : StepSeq :=
  { req := 9, tenant := 3, pos := 1, rows := 1, prefill := false, d := 0, row0 := 0, draft := [], draftEnd := false, cand := [], emit := [],
    accepted := 0, settled := false, fault := none, drop := false, nonfin := false, lostOn := 0 }
/-- Instance 0 ACTIVE with a schedule, a sampler, tenant 3, and the given requests; `part1` in its step. -/
def requesting (queue seqs : List Seq) (part : StepSeq) : State :=
  let s := hosting (serving [] id)
  let x := { s.inst 0 with sampler := ⟨[⟨3, sampler1, [], 0⟩], some 3⟩, queue := queue, seqs := seqs, acct := { (s.inst 0).acct with csLimit := 64 } }
  { s with serve := { s.serve with insts := setNth s.serve.insts 0 x, tenants := [⟨3, true, 9, 2, 0, 0, 0, 0, none⟩], steps := [{ step1 with seqs := [part] }] } }
def submitArgs : List Byte := leBytes 4 9 ++ leBytes 1 3 ++ leBytes 1 0 ++ leBytes 2 0xFFFF ++ leBytes 4 1 ++ leBytes 4 4
def submitBlock : List Byte :=
  leBytes 8 1 ++ zeros 4 ++ leBytes 4 0x3F800000 ++ zeros 4 ++ leBytes 4 0x3F800000 ++ zeros 20 ++ leBytes 16 (2 ^ 128 - 1) ++ zeros 68 ++ leBytes 4 1

/-- RequestCommands: a submission, cancellations of a request of another sender, of one in a step and of one at rest, a deadline, a
position to draw, a draft token to draw. -/
theorem meets_RequestCommands :
    (let s := requesting [] [] part1
     let c := cmd1 0 submitArgs submitBlock
     s.shape ∧ s.runs (.seqSubmit c []) (s.jobOf 0x20 c) ∧ field c.args 5 1 < 64 ∧ argsZero c.args 20 24 = true ∧
     ((s.consumed c).ring (1024 + field c.args 5 1)).owner = (s.jobOf 0x20 c).origin ∧ ((s.consumed c).inst 0).state = .active ∧
     ((s.consumed c).inst 0).sampler.current = some ⟨3, sampler1, [], 0⟩ ∧ (((s.consumed c).inst 0).budget.map (·.kvBudget)) = some 4096 ∧
     (((s.consumed c).readSubmit ((s.consumed c).inst 0) sampler1 c).map (·.2)) = some [1] ∧ field c.args 6 2 = 0xFFFF ∧
     ((s.consumed c).inst 0).acct.csUsed + promptTiles 1 ≤ ((s.consumed c).inst 0).acct.csLimit) ∧
    (∀ q ∈ [seq1, { seq1 with origin := 2 }, { seq1 with busy := some 1 }],
      let s := requesting [] [q] part1
      s.mayFetch (cmd1 0 (leBytes 4 9) []) = true ∧ argsZero (cmd1 0 (leBytes 4 9) []).args 4 40 = true ∧
      ((s.inst 0).queue ++ (s.inst 0).seqs).find? (fun q => q.req == BitVec.ofNat 32 (field (cmd1 0 (leBytes 4 9) []).args 0 4)) = some q) ∧
    (requesting [] [seq1] part1).runs (.seqCancel (cmd1 0 (leBytes 4 9) [])) ((requesting [] [seq1] part1).jobOf 0x21 (cmd1 0 (leBytes 4 9) [])) ∧
    ((requesting [seq1] [] part1).inst 0).queue.find? (fun q => q.req == (9 : Word32)) = some seq1 ∧ seq1.deadline = some 2000000 ∧
    (requesting [seq1] [] part1).fallsDue 2000000 = false ∧ (atClk 1960000 (requesting [seq1] [] part1)).fallsDue 2000000 = true ∧
    (∀ q ∈ ((requesting [] [] part1).inst 0).queue, q.req ≠ 9) ∧ ((requesting [] [] part1).sampled 0 9).isNone = true ∧
    (let s := requesting [] [{ seq1 with busy := some 1 }] part1
     ∃ w, s.sampled 0 9 = some w ∧ w.e = part1 ∧
       s.drawRow 0 w.v w.q w.e w.e.accepted w.v.logitPage (w.e.row0 + w.e.accepted) = (.dist [(0, 0x3F800000)] 0x3F800000, false)) ∧
    (let s := requesting [] [{ seq1 with busy := some 1 }] { part1 with d := 2 }
     ∃ w, s.sampled 0 9 = some w ∧ w.e.draft.length < w.e.d ∧ w.e.draftEnd = false ∧ w.q.par.prob = false ∧
       s.drawRow 0 w.v w.q w.e w.e.draft.length w.v.dlogitPage (w.run.draftRow 9) = (.dist [(0, 0x3F800000)] 0x3F800000, false)) := by
  refine ⟨⟨by unfold State.shape; decide +kernel, runs_of rfl ?_, ?_⟩, ?_, runs_of rfl ?_, ?_, rfl, ?_, ?_, ?_, ?_, ⟨_, rfl, rfl, ?_⟩,
    ⟨_, rfl, ?_, ?_, ?_, ?_⟩⟩ <;> (try unfold State.passes) <;> decide +kernel

/-- EmissionCut: a request that may emit three more tokens and has no automaton. -/
theorem meets_EmissionCut : seq1.par.mask < 2 ∧ seq1.emitted < seq1.maxNew := by decide

/-! ### The fabric -/

/-- IngressChecks: a message that came in, here, of the partition, at an admitted module, and each condition not met. -/
theorem meets_IngressChecks :
    let m := nodeMsg 1184 []
    messageOf (.notice m) = some (0x38, m) ∧ (adm.port m.port.val).st = .admitted ∧ (up.port m.port.val).st ≠ .admitted ∧ up.isOwn m.src = false ∧
    (adm.fab.coordValid = true ∧ m.dest.toNat / 8 = adm.fab.moduleNo) ∧ ({ m with dest := 0 } : Msg).dest.toNat / 8 ≠ adm.fab.moduleNo ∧
    m.part.toNat = adm.fab.part ∧ ({ m with part := 3 } : Msg).part.toNat ≠ adm.fab.part ∧ adm.fab.admitted = true ∧ m.fm = false ∧
    ({ adm with fab := { adm.fab with admitted := false } } : State).fab.admitted = false ∧ fmOnly 0x30 = true ∧
    messageOf (.fmWrite m) = some (0x30, m) := by
  refine ⟨rfl, ?_, ?_, ?_, ?_, ?_, ?_, ?_, ?_, ?_, ?_, ?_, rfl⟩ <;> decide +kernel

/-- A memory request to the first byte of stack 0, and a module that shares it. -/
def memMsg (opt len : Nat) (payload : List Byte) : Msg :=
  { nodeMsg 1184 payload with opt := BitVec.ofNat 16 opt, offset := 0x10000000000, length := BitVec.ofNat 32 len }
def sharing (mode : Nat) : State := { adm with mem := { adm.mem with own := [⟨0, 0x10000000000, 16, 0, mode, 1184, 4⟩] } }

/-- MemoryRequests: a wrong field, an access that its address does not allow, a load, a get, a store, a put with and without whole tiles,
an atomic; one whose tile is being filled, one behind an older one, and a read that recovery does not mend. -/
theorem meets_MemoryRequests :
    (requestFormed (memMsg 0 4 []) = true ∧ adm.answerable (memMsg 0 4 []) ∧ ∀ k ∈ [1, 2, 3, 4, 5], adm.takes k (memMsg 0 4 [])) ∧
    (memoryRow (.load (memMsg 1 4 []) [])).map (·.2.2) = some false ∧
    adm.fabricStatus true 1184 (msgMpa (memMsg 0 4 [])) 4 = stNOT_OWNER ∧
    (memoryRow (.load (memMsg 0 4 []) []) = some (false, 4, true) ∧ memoryRow (.bulkGet (memMsg 0 8 []) []) = some (false, 8, true) ∧
      adm.fabricStatus false 1184 (msgMpa (memMsg 0 4 [])) 4 = stOK) ∧
    (memoryRow (.store (memMsg 0 4 (leBytes 4 7)) []) = some (true, 4, true) ∧
      memoryRow (.bulkPut (memMsg 0 4 (leBytes 4 7)) []) = some (true, 4, true) ∧
      (memoryRow (.bulkPut (memMsg 0 4096 (zeros 4096)) [.failed 0 true])).map (·.1) = some true ∧ msgMpa (memMsg 0 4096 []) % 4096 = 0 ∧
      (sharing 2).takes 0x02 (memMsg 0 4 (leBytes 4 7)) ∧ (sharing 2).fabricStatus true 1184 (msgMpa (memMsg 0 4 [])) 4096 = stOK) ∧
    (memoryRow (.atomic (memMsg 0 4 (leBytes 4 7)) []) = some (true, 4, true) ∧ (sharing 1).takes 0x03 (memMsg 0 4 (leBytes 4 7)) ∧
      (sharing 1).fabricStatus true 1184 (msgMpa (memMsg 0 4 [])) 4 = stOK) ∧
    (let a := msgMpa (memMsg 0 4 [])
     adm.behind adm.fab.held a 4 = false ∧ adm.hubWaits true a 4 = false ∧ (adm.hubRead a (0, 0) []).1 = none ∧
     ({ adm with mem := { adm.mem with filling := [(0, 0)] } } : State).hubWaits true (mpaStaging 0 0) 4 = true ∧
     adm.behind [.memory 2 (memMsg 0 8 []) []] a 4 = true ∧
     (adm.hubRead a (0, 0) (List.replicate 3 (.failed 0 true))).1.isSome = true) ∧
    (rangeOk true (mpaHbm 0 0) 4 = true ∧ sgn 32 0xFFFFFFFF = -1) := by
  unfold State.takes State.answerable; refine ⟨?_, ?_, ?_, ?_, ?_, ?_, ?_, ?_⟩ <;> decide +kernel

/-- An entry of a remote request queue: SEQ, KIND, its length and its offset in the common store, to module 148. -/
def rrqBytes (seq kind data : Nat) : List Byte :=
  leBytes 2 seq ++ leBytes 1 kind ++ leBytes 1 0 ++ leBytes 8 (1188 * 2 ^ 46) ++ leBytes 4 4 ++ leBytes 4 data ++ zeros 44
def request1 : Request :=
  { tag := 3, kind := 1, node := 1188, inst := 0, config := 5, queue := 0, slot := 0, data := 8192, length := 4, due := 2000000, tiles := [0, 2] }
def rrq1 (expect : Nat) (open_ : List Nat) : Rrq := ⟨0, 5, 0, expect, false, open_⟩
/-- Configuration 5 with a remote request queue whose ring holds `entry` at place 1, and with requests open. -/
def remoting (q : Rrq) (entry : List Byte) (rs : List Request) : State :=
  let s := serving [] id
  let x := { s.inst 0 with rrqs := [q] }
  let s : State := { s with serve := { s.serve with insts := setNth s.serve.insts 0 x }, fab := { s.fab with requests := rs, tagNo := 3 } }
  s.storeAt (mpaCs 64) entry

/-- RemoteRequests: a handoff by the owner of a REMOTE region and by another, a notice, responses in time, too late and to nothing, a
deadline and none, teardowns of another partition and of this instance. -/
theorem meets_RemoteRequests :
    (let m := { memMsg 2 0 [] with aux := 1188 }
     requestFormed m = true ∧ m.opt.toNat ≤ 2 ∧ m.aux.toNat < 2 ^ 14 ∧ m.length = 0 ∧ m.payload = [] ∧ (sharing 1).takes 0x18 m ∧
     (sharing 1).answerable m ∧ (sharing 1).ownAt (msgMpa m) = some ⟨0, 0x10000000000, 16, 0, 1, 1184, 4⟩ ∧ m.src.toNat = 1184 ∧
     (sharing 2).ownAt (msgMpa m) = some ⟨0, 0x10000000000, 16, 0, 2, 1184, 4⟩ ∧ (sharing 1).takes 0x38 m ∧
     (let r := (sharing 1).heldRange (.handoff m)
      (sharing 1).behind (sharing 1).fab.held r.1 r.2 = false ∧ (sharing 1).behind [.memory 2 (memMsg 0 8 []) []] r.1 r.2 = true)) ∧
    (let s := remoting (rrq1 2 [3]) [] [request1]
     let m := { nodeMsg 1188 (leBytes 4 9) with tag := 3 }
     s.takes 0x81 m ∧ s.fab.requests.find? (fun r => r.tag == m.tag.toNat) = some request1 ∧ s.time.clk < request1.due ∧
     (s.runTo 2000000).fab.requests = [request1] ∧ request1.due ≤ (s.runTo 2000000).time.clk ∧ (∀ r ∈ s.fab.requests, r.tag ≠ (4 : Word32).toNat) ∧
     s.fab.requests.find? (fun r => r.tag == (3 : Word32).toNat) = some request1 ∧ request1.inst < 16 ∧
     s.fallsDue request1.due = false ∧ (atClk 1960000 s).fallsDue request1.due = true) ∧
    (let s := serving [] id
     let m := { nodeMsg 0 [] with fm := true, vc := 3, aux := 1 }
     s.shape ∧ s.takes 0x32 m ∧ s.answerable m ∧ ({ m with part := 3 } : Msg).part.toNat ≠ s.fab.part ∧ s.takes 0x32 { m with part := 3 } ∧
     m.part.toNat = s.fab.part ∧ m.aux.toNat = 2 ^ (0 : Fin 16).val ∧ m.opt.toNat ≤ 1 ∧ m.status = 0 ∧ m.offset = 0 ∧ m.payload = [] ∧
     (s.inst (0 : Fin 16).val).state = .active) := by
  unfold State.takes State.answerable State.shape; refine ⟨?_, ?_, ?_⟩ <;> decide +kernel

/-- Queue scans: a stopped queue, no entry, a malformed one, one behind open entries, a FENCE, one whose area does not exist, a LOAD. -/
theorem meets_QueueScan :
    (let q := rrq1 1 []
     (remoting q (rrqBytes 1 1 128) []).rrq (5 : Fin 64).val (0 : Fin 16).val = some q ∧
     (rrqEntry (rrqBytes 1 1 128)).seq = 1 ∧ (rrqEntry (rrqBytes 1 1 128)).formed = true ∧ (rrqEntry (rrqBytes 2 1 128)).seq ≠ 1 ∧
     (rrqEntry (rrqBytes 1 9 128)).formed = false ∧ (rrqEntry (rrqBytes 1 15 128)).formed = true ∧
     (remoting q (rrqBytes 1 1 128) []).areaStatus (rrqEntry (rrqBytes 1 1 128)) = stOK ∧
     (remoting q (rrqBytes 1 1 0x7FFFFFF) []).areaStatus (rrqEntry (rrqBytes 1 1 0x8000000)) ≠ stOK) ∧
    (let s := remoting (rrq1 1 []) (rrqBytes 1 1 128) []
     rrqEntry (s.load (s.ringMpa (rrq1 1 []) + 64) 64) = rrqEntry (rrqBytes 1 1 128) ∧
     (s.scanEntry 5 0).isSome = true ∧ ((s.scanEntry 5 0).bind fun u => u.scanEntry 5 0).isNone = true) := by
  refine ⟨?_, ?_⟩ <;> decide +kernel

/-- Blocks of a contribution, and a table whose one replica is on this module. -/
def block1 : List Byte := emptyBlock 1
def table2 : RouteTable := { table1 with replicas := [⟨1176, 0, 0, 0, 0, 0⟩] }
def header1 : List Byte := sectionHeader 1 0 0 0 2 0 0 100
/-- `colling` in its window, its members in the common store. -/
def gatheringColl (f : CollRun → CollRun) : State :=
  let s := (colling f).storeAt (mpaCs (8 * 4096)) (leBytes 2 147 ++ leBytes 2 148)
  { s with time := { s.time with clk := 1000600 } }
def collMsg (payload : List Byte) : Msg := { nodeMsg 1184 payload with tag := 4, aux := 100, seq := 1 }
def section1 (r : CollRun) : CollRun := { r with desc := { coll1 with kind := 3 }, route := some (1, table2) }

/-- Collectives: a message of none, with its step running and not; out of its window; after a success; a contribution and a malformed one;
a section with a good header and a bad one; replay requests at each time; the sends, windows and replay slots of a collective. -/
theorem meets_CollectiveMessages :
    (let s := (gatheringColl id).catchUp
     let m := collMsg block1
     s.takes 0x10 m ∧ s.takes 0x11 m ∧ s.takes 0x12 m ∧ s.collFor { m with tag := 9 } = none ∧ (∃ x ∈ s.serve.steps, x.start % 2 ^ 32 = m.aux.toNat) ∧
     ¬ (∃ x ∈ s.serve.steps, x.start % 2 ^ 32 = ({ m with aux := 3 } : Msg).aux.toNat) ∧ s.collFor m = some collRun1 ∧ attemptOf m = 0 ∧
     s.inWindow collRun1 0 = true ∧ s.inWindow collRun1 1 = false ∧ attemptOf { m with tag := 65540 } = 1 ∧
     nth 0 (s.members coll1) m.seq.toNat = m.src.toNat / 8 ∧ splitBlocks (m.payload.length + 1) m.payload = some [block1] ∧
     0 + [block1].length ≤ coll1.chunk ∧ splitBlocks 4 [1, 2, 3] = none) ∧
    (let s := (gatheringColl section1).catchUp
     let m := { collMsg (header1 ++ zeros 128) with tag := 4, seq := 0 }
     s.collFor m = some (section1 collRun1) ∧ 3 ≤ (section1 collRun1).desc.kind ∧ m.opt = 0 ∧ m.status = 0 ∧ m.seq = 0 ∧
     s.headerPasses (section1 collRun1) m.dest.toNat (m.payload.take 64) = some 0 ∧ s.headerPasses (section1 collRun1) m.dest.toNat (zeros 64) = none ∧
     (section1 collRun1).whole 0 = false ∧ m.payload.length ≤ 64 + field m.payload 8 4 * 64 ∧
     ({ section1 collRun1 with got := [⟨0, 0, 0, 1184, header1 ++ zeros 128, 0⟩] } : CollRun).whole 0 = true ∧
     (let r : CollRun := { section1 collRun1 with got := [⟨0, 0, 0, 1184, header1 ++ zeros 64, 0⟩], heads := [(headKey m, .taken 0)] }
      findKey (section1 collRun1).heads (headKey m) = none ∧ findKey r.heads (headKey m) = some (.taken 0) ∧
      r.got.find? (fun g => g.sender == 0 && g.place == 0) = some ⟨0, 0, 0, 1184, header1 ++ zeros 64, 0⟩ ∧ r.parts 0 = 1)) ∧
    (let s : State := ({ gatheringColl id with time := { (gatheringColl id).time with clk := 1001000 } } : State).catchUp
     let mine := fun (r : CollRun) => r.desc.index == (collMsg []).tag.toNat % 65536 &&
       (decide (r.desc.kind > 2) || (decide ((collMsg []).seq.toNat < r.desc.n) && nth 0 (s.members r.desc) (collMsg []).seq.toNat == (collMsg []).src.toNat / 8))
     s.serve.colls.find? mine = some collRun1 ∧ collRun1.close ≤ s.time.clk ∧ s.time.clk < collRun1.slotClose ∧
     ¬ (collRun1.close ≤ (gatheringColl id).time.clk)) := by
  unfold State.takes; refine ⟨?_, ?_, ?_⟩ <;> decide +kernel
theorem meets_CollectiveTimes :
    (let s := (gatheringColl id).catchUp
     (gatheringColl id).shape ∧ s.coll (0 : Fin 16).val (4 : BitVec 16).toNat = some collRun1 ∧ s.coll (1 : Fin 16).val (4 : BitVec 16).toNat = none ∧
     collRun1.openAt ≤ s.time.clk ∧ (colling id).catchUp.time.clk < collRun1.openAt ∧ s.fallsDue collRun1.close = true ∧
     ({ s with time := { s.time with tick := 49999 } } : State).fallsDue collRun1.close = false ∧ s.fallsDue collRun1.slotClose = true ∧ collRun1.failed = false ∧ collRun1.judged = false ∧
     ((s.runTo 1000900).missingOf { collRun1 with judged := true }).isEmpty = false ∧ s.contribReady collRun1 = false) ∧
    (let full := fun (r : CollRun) => { r with ready := true, judged := true, got := [⟨1, 0, 0, 1184, block1, 0⟩], reduced := [block1] }
     ((gatheringColl full).catchUp.runTo 1000900).missingOf (full collRun1) = [] ∧ (∃ x ∈ (gatheringColl full).catchUp.serve.steps, x.id = (full collRun1).step)) ∧
    (gatheringColl fun r => { r with done := some 0, judged := true }).catchUp.coll 0 4 = some { collRun1 with done := some 0, judged := true } := by
  unfold State.shape; refine ⟨?_, ?_, ?_⟩ <;> decide +kernel

/-! ### Links and arbiters -/

/-- Port 3 as `f` makes it. -/
def linked (f : Port → Port) : State := { adm with fab := { adm.fab with ports := setNth adm.fab.ports 3 (f (nth Port.reset adm.fab.ports 3)) } }
/-- A flit of zeros with the given link header, check and parity (R275 to R277). -/
def rawFlit (header check parity : Nat) : List Byte := leBytes 8 header ++ zeros 224 ++ leBytes 4 check ++ leBytes 20 parity
/-- DATA 0 and DATA 9, an acknowledgement of 5 with NAK, an ordered set of KIND 3. -/
def flitData : List Byte := rawFlit 1 0xCA31CBF8 0x2DA8268745634598B68DA9E3C835EF1566325460
def flitAhead : List Byte := rawFlit 0x91 0xDD38051E 0x95FF510A20E948769CDF3F25E058F9A88A1744C0
def flitNak : List Byte := rawFlit 0x30050000 0x6844062 0x621CFE3A7D8A423965C35EF93C5ACD41B131AE66
def flitSet : List Byte := rawFlit 0xC0000000002 0x3E76B388 0x49FD508422EE4A52A285E44877CCFD3A1499289B
/-- A flit whose codewords hold and whose CRC does not. -/
def flitBad : List Byte := rawFlit 1 0 0x35000C00D600CB00A10097008800E900DD00AF

/-- LinkLayer: an admitted port and one that is not, a NAK before the seventeenth and the seventeenth, a fence. -/
theorem meets_LinkLayer :
    (linked id).shape ∧ ((linked id).port (3 : Fin 9).val).st = .admitted ∧ (up.port (3 : Fin 9).val).st ≠ .admitted ∧
    ((linked id).port 3).naks = 0 ∧ (let p := (linked fun p => { p with naks := 16, nakFlit := 6 }).port 3; 0 < p.naks ∧ p.nakFlit = ((5 : BitVec 12).toNat + 1) % 4096) ∧
    bit (linked id).faults.fencePort (3 : Fin 9).val = false ∧ ((linked id).port 3).expectSeq = 0 := by
  unfold State.shape; decide +kernel
/-- The syndromes with each step of their folds looked at, as `forced` does it. -/
def forcedNat (f : Nat → Nat → Nat) : List Nat → Nat → Nat
  | [], c => c
  | b :: bs, c => if Nat.beq c 0 then forcedNat f bs (f c b) else forcedNat f bs (f c b)
theorem syndromes_forced (w : List Nat) : syndromes w = (List.range 10).map fun j => forcedNat (fun v b => gf v (gfAlpha j) ^^^ b) w 0 := by
  have h : ∀ (f : Nat → Nat → Nat) (l : List Nat) (c : Nat), forcedNat f l c = l.foldl f c := by
    intro f l
    induction l with
    | nil => intro c; rfl
    | cons b bs ih => intro c; simp [forcedNat, ih]
  unfold syndromes
  simp only [h]
/-- A flit both of whose codewords hold: what its CRC makes of it. -/
theorem readFlit_of {raw : List Byte} (h : (syndromes (everySecond 0 raw)).all (· == 0) = true ∧ (syndromes (everySecond 1 raw)).all (· == 0) = true)
    (e : interleave (everySecond 0 raw) (everySecond 1 raw) = raw) :
    readFlit raw = if crc32c (raw.take 232) = field raw 232 4 then some (headerFlit raw, false) else none := by
  have w : ∀ w, (syndromes w).all (· == 0) = true → fecWord w = some w := by
    intro w hw; unfold fecWord; simp only [hw, if_true]
  unfold readFlit fecFlit
  rw [w _ h.1, w _ h.2]
  simp only [e, bne_self_eq_false]
theorem good_flits :
    readFlit flitData = some (headerFlit flitData, false) ∧ readFlit flitAhead = some (headerFlit flitAhead, false) ∧
    readFlit flitNak = some (headerFlit flitNak, false) ∧ readFlit flitSet = some (headerFlit flitSet, false) := by
  refine ⟨?_, ?_, ?_, ?_⟩
  all_goals
    rw [readFlit_of (by rw [syndromes_forced, syndromes_forced]; decide +kernel) (by decide +kernel),
      if_pos (by rw [crc_forced]; decide +kernel)]
theorem bad_flits : readFlit flitBad = none ∧ readFlit (zeros 256) = none := by
  refine ⟨?_, ?_⟩
  all_goals
    rw [readFlit_of (by rw [syndromes_forced, syndromes_forced]; decide +kernel) (by decide +kernel),
      if_neg (by rw [crc_forced]; decide +kernel)]
/-- Flits as they come: of each type, in order and not, and bad ones. -/
theorem meets_flits :
    ((headerFlit flitData).ftype = 1 ∧ (headerFlit flitData).seq = 0 ∧ (headerFlit flitData).nak = false) ∧
    ((headerFlit flitAhead).ftype = 1 ∧ (headerFlit flitAhead).seq = 9) ∧
    ((headerFlit flitNak).ftype = 0 ∧ (headerFlit flitNak).ackSeq = 5 ∧ (headerFlit flitNak).nak = true) ∧
    ((headerFlit flitSet).ftype = 2 ∧ (headerFlit flitSet).osKind = 3 ∧ (headerFlit flitSet).nak = false) ∧
    (headerFlit flitBad).ftype = 1 ∧ (headerFlit (zeros 256)).ftype ≠ 1 := by decide +kernel

/-- LinkTraining: a measurement that may start, runs with fewer and with 15 results, with 64 attempts, and every state of training with
its condition. -/
theorem meets_LinkTraining :
    (linked id).measures (3 : Fin 9).val = true ∧ ((linked id).port 3).delayRun = none ∧ up.measures 3 = false ∧
    (∀ n ∈ [1, 15], ((linked fun p => { p with delayRun := some ⟨some 5, List.replicate n 4, 2, 999000⟩ }).port 3).delayRun =
      some ⟨some 5, List.replicate n 4, 2, 999000⟩) ∧
    ((linked fun p => { p with delayRun := some ⟨none, [], 64, 999000⟩ }).port 3).delayRun = some ⟨none, [], 64, 999000⟩ ∧
    (linked id).svc.refOk = true ∧ ({ linked id with svc := { (linked id).svc with refOk := false } } : State).svc.refOk = false ∧
    (∀ st ∈ [PortSt.detect, .equalize, .align, .delay, .retrain], ∀ seen ∈ [false, true], ∀ eq ∈ [false, true],
      let p := (linked fun p => { p with st := st, trainSeen := seen, equalizing := eq, tries := 2, fallback := eq }).port 3
      p.st = st ∧ p.trainSeen = seen ∧ p.proving = false ∧ p.miscabled = false ∧ p.equalizing = eq ∧ p.tries = 2 ∧ p.fallback = eq ∧
        p.rate = false ∧ p.fellBack = false ∧ p.delayRun = none) := by decide +kernel

/-- A port in RETRAIN before and after its delay is measured, and while it is proved. -/
theorem meets_retrain :
    ((linked fun p => { p with st := .retrain, trainSeen := true }).port 3).measured = false ∧
    ((linked fun p => { p with st := .retrain, trainSeen := true, measured := true }).port 3).measured = true ∧
    ((linked fun p => { p with st := .retrain, proving := true }).port 3).proving = true ∧
    (linked id).fallsDue (999000 + 1024) = true ∧ (linked id).fallsDue (1048926 + 1024) = false ∧ bit (linked id).faults.fencePort 3 = false := by
  decide +kernel

/-- An arbiter whose holder is given; port T3 in a slot from tick 100 to tick 200, with a holder or none. -/
def holding (r : ArbReq) : State := { up with arb := { up.arb with nodes := [⟨.hbm, 5, some r, 0, [], List.replicate 8 0⟩] } }
def req1 (k : Fin 8) (write : Bool) : ArbReq := { index := k, units := 1, write := write, declared := 0 }
def slotted (tick : Nat) (holder : Option ArbReq) : State :=
  let t : SlotTable := ⟨3, 0, 1, [⟨100, 200, 0, 0⟩]⟩
  { adm with time := { adm.time with tick := tick }, arb := { adm.arb with nodes := [⟨.thaxa, 3, holder, 0, [], List.replicate 8 0⟩] },
             fab := { adm.fab with slotTabs := [(3, ⟨[⟨1, t, [], 0⟩], some 1⟩)], ports := adm.fab.ports.map fun p => { p with credits := [9, 9, 9, 9] } } }
/-- ArbiterDecisions: an index past the last, a free arbiter with and without requesters, a locked holder, one of no lower class, and a
requester of a higher class than the holder's. -/
theorem meets_ArbiterDecisions :
    arbCount .thaxa ≤ (9 : Fin 768).val ∧ (5 : Fin 768).val < arbCount .hbm ∧ up.arbMayWait .hbm 5 0 (req1 2 false) = true ∧
    (up.arbNode .hbm 5).holder = none ∧ ((holding (req1 2 true)).arbNode .hbm 5).holder = some (req1 2 true) ∧
    ((holding (req1 2 true)).arbNode .hbm 5).locked (req1 2 true) = true ∧
    ((holding (req1 2 false)).arbNode .hbm 5).locked (req1 2 false) = false ∧
    (∃ j k : Fin 8, k ≠ j ∧ up.arbMayWait .hbm 5 0 (req1 k false) = true ∧ up.arbClass .hbm j.val < up.arbClass .hbm k.val) ∧
    (holding (req1 0 false)).arbClass .hbm 0 ≤ (holding (req1 0 false)).arbClass .hbm 0 := by decide +kernel
/-- A port at each phase of its slots: just before OPEN with an unlocked, a locked and no holder, outside with slot traffic still holding
it, inside; a locked sequence that ends in time and one that does not. -/
theorem meets_slotPhases :
    (slotted 99 none).slotPhase 3 (99 * 7 + 6) = .closing ∧ (slotted 150 none).slotPhase 3 (150 * 7) = .inside ∧
    (slotted 50 none).slotPhase 3 (50 * 7) = .outside ∧ (slotted 200 none).slotPhase 3 (200 * 7) = .outside ∧
    ((slotted 200 (some (req1 0 false))).arbNode .thaxa 3).holder = some (req1 0 false) ∧ (req1 0 false).index.val = 0 ∧
    ((slotted 99 none).arbNode .thaxa 3).holder = none ∧ ((slotted 99 (some (req1 2 false))).arbNode .thaxa 3).locked (req1 2 false) = false ∧
    (let q : ArbReq := { req1 2 false with declared := 5 }
     ((slotted 99 (some q)).arbNode .thaxa 3).locked q = true ∧ arbLocked .thaxa q = true ∧ (slotted 50 none).nextOpen 3 350 = some 700 ∧
     (slotted 50 none).mayBegin 3 350 q = true ∧ (slotted 97 none).mayBegin 3 685 q = false ∧
     (slotted 50 none).arbMayWait .thaxa 3 350 q = true ∧ (slotted 150 none).arbMayWait .thaxa 3 1050 (req1 0 false) = true) := by
  decide +kernel

/-! ### Host interface, DMA, power, proving, bring-up -/

/-- The bell of a page at offset 0 with a value. -/
def bellOf (page : Fin 2048) (value : Word32) : Bell := { fn := .pf, page := page, offset := 0, value := value }

/-- HostInterface, Doorbells: a page of no ring, a submission ring and a produced ring, values inside and outside the ring, entries freed
and entries that are not there. -/
theorem meets_Doorbells :
    1136 ≤ (bellOf 1136 0).page.val ∧
    (let x := (ringUp 511).ring (bellOf 511 15).page.val
     (bellOf 511 15).page.val < 512 ∧ x.owner = Origin.pf.code ∧ x.st = 1 ∧ bits (15 : Word32).toNat 0 16 < x.size ∧ x.size ≤ bits (16 : Word32).toNat 0 16 ∧
     bits (5 : Word32).toNat 0 16 = x.tail ∧ bits (15 : Word32).toNat 0 16 ≠ x.tail ∧
     x.owner ≠ ({ bellOf 511 0 with fn := .vf 3 } : Bell).fn.code) ∧
    (let x := (ringUp 512).ring (bellOf 512 5).page.val
     512 ≤ (bellOf 512 5).page.val ∧ x.owner = Origin.pf.code ∧ x.st = 1 ∧ 5 < x.size ∧ (5 + x.size - x.head) % x.size ≤ x.used ∧
     x.used < (6 + x.size - x.head) % x.size ∧ x.size ≤ bits (16 : Word32).toNat 0 16 ∧ (∀ h ∈ (ringUp 512).serve.tqHold, h.1 + 1024 ≠ 512)) ∧
    (bellOf 1103 0).page.val < 1104 := by
  refine ⟨?_, ?_, ?_, ?_⟩ <;> decide +kernel

/-- A ring whose moderation timer runs, and the PF with vector 6 pending. -/
def timed : State :=
  let x : Ring := { Ring.reset 600 with enable := true, st := 1, sizeLog := 4, owner := 1, irq := 2 ^ 11 + 5, timer := some 1000010 }
  let fs : List Func := setNth up.host.funcs 0 { up.func 0 with masked := [7], pendVec := [6] }
  { up with host := { up.host with rings := [x], funcs := fs } }
/-- HostInterface, Interrupts and FunctionResets. -/
theorem meets_Interrupts :
    timed.shape ∧ (up.ring (600 : Fin 1104).val).timer = none ∧ (timed.ring 600).timer = some 1000010 ∧ timed.fallsDue 1000010 = true ∧
    ({ timed with time := { timed.time with tick := 49990 } } : State).fallsDue 1000010 = false ∧
    (bit (timed.ring 600).irq 11 = true ∧ bits (timed.ring 600).irq 0 11 < 128 ∧ (timed.func ((timed.ring 600).owner - 1)).d3hot = false ∧
      bits (timed.ring 600).irq 0 11 ∉ (timed.func ((timed.ring 600).owner - 1)).masked) ∧
    (6 ∈ (timed.func (0 : Fin 9).val).pendVec ∧ (timed.func 0).d3hot = false ∧ (6 : Nat) ∉ (timed.func 0).masked ∧ 7 ∉ (timed.func 0).pendVec) ∧
    (∀ st ∈ [ChanSt.fetch, .waiting, .run, .writeback], ((chanIn st false none).chan 5).owner = 1 ∧ ((chanIn st false none).chan 5).st = st) ∧
    (up.chan 31).owner ≠ (3 : Fin 9).val + 1 ∧ State.reset.answers = false ∧ up.answers = true := by
  unfold State.shape; decide +kernel

/-- A descriptor whose bytes move between page 1 of the PF's memory and the host. -/
def descFrom (src : Nat) (out : Bool) : Word512 := BitVec.ofNat 512 (2 ^ 511 + 2 ^ 226 + 64 * 2 ^ 192 + 0x10000000000 * 2 ^ 128 +
  (if out then 2 ^ 224 + src * 2 ^ 64 else 0))
def descWord (out : Bool) : Word512 := descFrom 0x10000000000 out
/-- DmaCommands: a bell that reaches no channel, each state of the channel, descriptors that pass and fail their checks. -/
theorem meets_DmaCommands :
    (chanIn .waiting false none).shape ∧
    ((bellOf 1109 0).page.val = 1104 + (5 : Fin 32).val ∧ ((chanIn .waiting false none).chan 5).owner = Origin.pf.code ∧
      ((chanIn .waiting false none).chan 5).owner ≠ (Origin.vf 2).code) ∧
    (∀ st ∈ [ChanSt.waiting, .idle, .run], ((chanIn st false none).chan 5).st = st) ∧
    ((descOf (descWord false)).own = true ∧ (descOf (descWord false)).ok = true ∧ (descOf 0).own = false ∧ (descOf (BitVec.ofNat 512 (2 ^ 511))).own = true ∧
      (descOf (BitVec.ofNat 512 (2 ^ 511))).ok = false) ∧
    (∀ out ∈ [false, true], (descOf (descWord out)).last = true ∧ (descOf (descWord out)).out = out ∧
      (chanIn .run false (some (descWord out))).dmaStatus 1 (descOf (descWord out)) = stOK) ∧
    ((chanIn .run false (some 5)).chan 5).desc = some 5 ∧ (chanIn .run false (some 5)).dmaStatus 1 (descOf 5) ≠ stOK := by
  unfold State.shape; decide +kernel

/-- DmaCommands: a copy of a tile that is being filled waits; the tile's check fails to the last read, and the copy is lost; one that acts. -/
theorem meets_DmaCommands_waits :
    (let e := descOf (descFrom (mpaStaging 0 0) true)
     let s := chanIn .run false (some (descFrom (mpaStaging 0 0) true))
     let s' : State := { s with mem := { s.mem with filling := [(0, 0)] } }
     s'.shape ∧ s'.dmaStatus 1 e = stOK ∧ s'.hubWaits (e.out || merges e.dst e.len) e.mpa e.len = true ∧
     s.hubWaits (e.out || merges e.dst e.len) e.mpa e.len = false ∧
     ∃ n, (s.hubRead e.mpa (0, 0) (List.replicate 3 (.failed 0 true))).1 = some n) ∧
    (let e := descOf (descWord false)
     let s := chanIn .run false (some (descWord false))
     s.hubWaits (e.out || merges e.dst e.len) e.mpa e.len = false ∧
     (∃ n, (s.hubRead e.mpa (0, 0) (mergeReads e.mpa e.len (List.replicate 3 (.failed 0 true)))).1 = some n)) := by
  unfold State.shape
  refine ⟨⟨?_, ?_, ?_, ?_, 0, ?_⟩, ?_, 0, ?_⟩ <;> decide +kernel

/-- The sample of a good input. -/
def input1 (vin : Nat) : InputSample := ⟨vin, 1400, 200, 200, 200, 200, 100, 300, 50⟩
def temp1 (t : Nat) : TempSample := ⟨60, 60, t, 60, 60, 60⟩
/-- A steelyard's member; a set that fits the beat. -/
def weighing : State := { adm with regs := (0x40028, 1 + 5 * 2 + 60 * 2 ^ 16) :: adm.regs }
def set1 : SteelSet := ⟨5, 9, 99, false, false, false, 100, 200, 50, 100, 0, 7, true⟩
/-- PowerDecision: a decision due, a second one in the same beat, and the hub off. -/
theorem meets_PowerDecision :
    up.hubRuns = true ∧ up.power.decided ≠ up.time.beat + 1 ∧ State.reset.hubRuns = false ∧
    (let s : State := { up with power := { up.power with decided := 101 } }; s.power.decided = s.time.beat + 1) := by decide +kernel

/-- PowerEvents. -/
theorem meets_PowerEvents :
    up.power.lease = none ∧ ((leased 1000010).power.lease = some 1000010 ∧ (leased 1000010).fallsDue 1000010 = true ∧ (leased 1050000).fallsDue 1050000 = false) ∧
    ((100 : Nat) ≤ up.time.beat ∧ up.time.beat < 101) ∧ (up.fallsDue (5 + 1000000) = true ∧ up.fallsDue (1000000 + 1000000) = false) ∧
    (nth none up.power.droopCeil (3 : Fin 4).val = none ∧
      (nth none ({ up with power := { up.power with droopCeil := [none, none, none, some (4, 101)] } } : State).power.droopCeil 3).isSome = true) ∧
    (up.power.lowInput = false ∧ (let p := { up.power with lowInput := true, lowClear := some 5 }; p.lowInput = true ∧ p.lowClear = some 5)) ∧
    (up.hubRuns = true ∧ (input1 2799).vin < 2800 ∧ 4100 < (input1 4101).vin ∧ 2800 ≤ (input1 2800).vin ∧ (input1 3199).vin < 3200 ∧
      3200 ≤ (input1 3200).vin ∧ (input1 4100).vin ≤ 4100) ∧
    (let s : State := { State.reset with svc := { State.reset.svc with mainEn := true, refOk := true } }
     s.hubRuns = false ∧ s.svc.phase = .off ∧ s.svc.mainEn = true ∧ s.svc.refOk = true ∧ 3000 ≤ (input1 3000).vin ∧ (input1 4000).vin ≤ 4000) ∧
    (let s : State := { up with svc := { up.svc with phase := .halted } }; s.hubRuns = false ∧ s.svc.phase ≠ .off ∧ s.svc.phase ≠ .supplies ∧ s.svc.phase ≠ .standby) ∧
    ((∃ v ∈ [(temp1 105).fd0, (temp1 105).fd2], 105 ≤ v) ∧ ∀ v ∈ [60, 60, (temp1 104).fd2, 60, 60, 60], v < 105) ∧
    ((weighing.port (3 : Fin 9).val).st = .admitted ∧ bit (weighing.reg 0x40028) 0 = true ∧ bit (adm.reg 0x40028) 0 = false ∧
      set1.checkOk = true ∧ set1.group.toNat = bits (weighing.reg 0x40028) 1 14 ∧ set1.beat.toNat + 1 = weighing.time.beat ∧
      weighing.time.tick < bits (weighing.reg 0x40028) 16 21 ∧
      bits (weighing.reg 0x40028) 16 21 ≤ ({ weighing.time with tick := 60 } : TimeUnit).tick ∧ ({ set1 with beat := 98 } : SteelSet).beat.toNat + 1 ≠ weighing.time.beat ∧
      ({ weighing.power with sets := [set1] } : Power).sets = [set1]) := by decide +kernel

/-- The run of `provingPort` under way, of a unit and as the run given. -/
def running (u : ProveUnit) (n : Nat) (more : Bool) : State :=
  let r : Run := { unit := u, region := 0, run := n, more := more, cls := 12, first := ⟨0, 0⟩, merged := 0, started := some 5, beat := 0,
                   repeated := false, routine := false }
  { up with faults := { up.faults with runs := [r] } }
/-- ProvingRuns. -/
theorem meets_ProvingRuns :
    up.shape ∧ up.mayStart (.port 3) = false ∧ up.fab.held = [] ∧
    (let s : State := { provingPort with fab := { up.fab with ports := setNth up.fab.ports 3 { nth Port.reset up.fab.ports 3 with proving := true } } }
     s.mayStart (.port 3) = true ∧ (∀ r ∈ s.faults.runs, r.unit = .port 3 → r.started = none) ∧
     (s.faults.runs.find? (fun r => r.unit == .port 3)).isSome = true) ∧
    (∀ n ∈ [1, 2, 3], ∀ more ∈ [false, true], ((running (.bead 1 4 5) n more).faults.runs.find? (fun r => r.unit == .bead 1 4 5 && r.started.isSome)) =
      (running (.bead 1 4 5) n more).faults.runs.head? ∧ (running (.bead 1 4 5) n more).faults.runs ≠ []) ∧
    ((running (.hbmChannel 2 3) 3 false).spareRows 2 3 + 32 ≤ 32 ∧
      ((running (.csBank 3) 3 false).faults.runs.find? (fun r => r.unit == .csBank 3 && r.started.isSome && r.run == 3)).isSome = true) ∧
    (∀ r ∈ (running (.csBank 3) 3 false).faults.runs, up.time.beat < r.beat + 65536 ∧ r.beat + 65536 ≤ ({ up with time := { up.time with beat := 65536 } } : State).time.beat ∧ r.repeated = false ∧ r.routine = false) ∧
    up.isFenced (.bridge 4) = false ∧
    ((findKey ({ up.fab with bridgeRuns := [(4, 16)] } : Fabric).bridgeRuns 4).getD 0 + 1 = 17) := by
  unfold State.shape; decide +kernel

/-- ProvingRuns, routine proving: not set, the period not passed, passed, no bead free, four beads proving. -/
def routineIn (beats : Nat) (begun : Nat) : State :=
  { up with regs := putKey up.regs 0x60010 (1 + beats * 2), faults := { up.faults with routineAt := [(2, begun)] } }
theorem meets_ProvingRuns_routine :
    (bit (up.reg 0x60010) 0 = false ∨ up.routineDue 2 = false) ∧
    (bit ((routineIn 10 91).reg 0x60010) 0 = true ∧ (routineIn 10 91).routineDue 2 = false) ∧
    (bit ((routineIn 10 90).reg 0x60010) 0 = true ∧ (routineIn 10 90).routineDue 2 = true ∧ ((routineIn 10 90).provingBeads 2).length < 4) ∧
    (let s := routineIn 10 90
     let r : Nat → Run := fun k => { unit := .bead 2 0 (Fin.ofNat 16 k), region := 0, run := 2, more := false, cls := 0, first := ⟨0, 0⟩, merged := 0,
                                     started := none, beat := 0, repeated := false, routine := true }
     4 ≤ (({ s with faults := { s.faults with runs := (List.range 4).map r } } : State).provingBeads 2).length) := by decide +kernel
/-- A frame whose every rod is out of service. -/
def allBusy : State := { routineIn 10 90 with faults := { (routineIn 10 90).faults with dead := (List.range 33).map fun p => (2, p) } }
theorem meets_ProvingRuns_pick : ((routineIn 10 90).routinePick 2).isSome = true ∧ allBusy.routinePick 2 = none := by decide +kernel

/-- ServiceCommands: the four bits of SVC_CTRL. -/
theorem meets_ServiceCommands :
    (up.accepts (rowAttempt (mg 1) 0xB0010 1 0) ∧ svcBit (up.valueOf (rowAttempt (mg 1) 0xB0010 1 0)) = some 0) ∧
    (let s : State := { up with svc := { up.svc with phase := .standby } }
     s.accepts (rowAttempt (mg 2) 0xB0010 2 0) ∧ svcBit (s.valueOf (rowAttempt (mg 2) 0xB0010 2 0)) = some 1) ∧
    (up.accepts (rowAttempt (mg 4) 0xB0010 4 0) ∧ svcBit (up.valueOf (rowAttempt (mg 4) 0xB0010 4 0)) = some 2) ∧
    (up.accepts (rowAttempt (mg 8) 0xB0010 8 0) ∧ svcBit (up.valueOf (rowAttempt (mg 8) 0xB0010 8 0)) = some 3) := by
  unfold State.accepts; decide +kernel

/-- PinsAndSupplies: each phase that its clauses name. -/
theorem meets_PinsAndSupplies :
    up.shape ∧
    (let s : State := { State.reset with svc := { State.reset.svc with island := true, vinOk := true, refOk := true } }
     s.svc.phase = .off ∧ s.svc.island = true ∧ s.mayPowerUp = true) ∧
    (State.reset.svc.phase = .off ∧ State.reset.mayPowerUp = false) ∧
    (let s : State := { up with svc := { up.svc with phase := .halted, mainEn := false } }; s.svc.phase = .halted ∧ s.svc.mainEn = false) ∧
    (¬ (up.svc.phase = .off ∨ ((up.svc.phase = .halted ∨ up.svc.phase = .removeReady) ∧ up.svc.mainEn = false)) ∧ up.hubRuns = true) ∧
    (let s : State := { up with svc := { up.svc with phase := .standby } }; s.svc.phase = .standby ∧ s.hubRuns = false ∧ s.svc.phase ≠ .supplies) ∧
    ((adm.port 3).st = .admitted ∧ bit adm.faults.fencePort 3 = false) ∧
    (let s : State := { up with svc := { up.svc with phase := .recovery } }; s.svc.phase = .recovery ∧ s.fwOk [] = false) := by
  unfold State.shape; decide +kernel

/-! ### Firmware images -/
theorem slice_left {a b : List Byte} {o n : Nat} (h : o + n ≤ a.length) : slice (a ++ b) o n = slice a o n := by
  unfold slice
  rw [List.drop_append_of_le_length (by omega), List.take_append_of_le_length (by simp; omega)]
theorem slice_right {a b : List Byte} {o n : Nat} (h : a.length ≤ o) : slice (a ++ b) o n = slice b (o - a.length) n := by
  unfold slice
  rw [List.drop_append, List.drop_eq_nil_of_le h, List.nil_append]
theorem shake_length (m : List Byte) : (shake256 32 m).length = 32 := by
  have round : ∀ k a, (chiIota k (thetaRhoPi a)).length = 25 := fun _ _ => rfl
  have perm : ∀ a, (keccakF a).length = 25 := by
    intro a
    unfold keccakF
    rw [show List.range 24 = List.range 23 ++ [23] from rfl, List.foldl_append]
    exact round _ _
  have fold : ∀ (l : List (List Byte)) (a : List Word64), a.length = 25 →
      (l.foldl (fun a b => keccakF (List.zipWith (· ^^^ ·) a (keccakLanes b))) a).length = 25 := by
    intro l
    induction l with
    | nil => intro a h; exact h
    | cons b bs ih => intro a _; exact ih _ (perm _)
  have eight : ∀ l : List Word64, (keccakBytes l).length = 8 * l.length := by
    intro l
    induction l with
    | nil => rfl
    | cons b bs ih =>
      have h : (leBytes 8 b.toNat).length = 8 := rfl
      unfold keccakBytes at ih ⊢
      rw [List.flatMap_cons, List.length_append, ih, h, List.length_cons]; omega
  unfold shake256
  dsimp only
  rw [List.length_take, eight, fold _ _ List.length_replicate]
  rfl
def fwHead : List Byte := leBytes 4 0x57464447 ++ leBytes 2 1 ++ leBytes 2 0 ++ leBytes 4 5 ++ leBytes 4 9 ++ leBytes 8 4096
def fwRest : List Byte := key1 ++ zeros 4 ++ zeros 2820 ++ zeros 1148
/-- A firmware image with a body of 4,096 zero bytes, its digest in the header. -/
def firmware1 : List Byte := fwHead ++ (shake256 32 (zeros 4096) ++ (fwRest ++ zeros 4096))
theorem firmware1_length : firmware1.length = 8192 := by
  have l1 : fwHead.length = 24 := by decide +kernel
  have l2 := shake_length (zeros 4096)
  have l3 : fwRest.length = 4040 := by simp only [fwRest, zeros, List.length_append, List.length_replicate]; decide +kernel
  have z : (zeros 4096).length = 4096 := List.length_replicate
  simp only [firmware1, List.length_append, l1, l2, l3, z]
theorem meets_fwOk (k : shake256 32 key1 = Config.fwKeyDigest)
    (v : Config.xmssVerify key1 (slice firmware1 0 128) (slice firmware1 128 2820) = true) (s : State) (h : s.sec.fusedSvn ≤ 5) :
    s.fwOk firmware1 = true := by
  have l1 : fwHead.length = 24 := by decide +kernel
  have l2 := shake_length (zeros 4096)
  have l3 : fwRest.length = 4040 := by simp only [fwRest, zeros, List.length_append, List.length_replicate]; decide +kernel
  have left : ∀ o n, o + n ≤ 24 → field firmware1 o n = field fwHead o n := by
    intro o n h; unfold field firmware1; rw [slice_left (by omega)]
  have rest : ∀ o n, 56 ≤ o → o + n ≤ 4096 → slice firmware1 o n = slice fwRest (o - 56) n := by
    intro o n h g
    unfold firmware1
    rw [slice_right (by omega), slice_right (by omega), slice_left (by omega)]
    rw [l1, l2, Nat.sub_sub]
  have z : (zeros 4096).length = 4096 := List.length_replicate
  have cat : firmware1 = (fwHead ++ (shake256 32 (zeros 4096) ++ fwRest)) ++ zeros 4096 := by
    simp only [firmware1, List.append_assoc]
  have len' : (fwHead ++ (shake256 32 (zeros 4096) ++ fwRest)).length = 4096 := by rw [List.length_append, List.length_append, l1, l2, l3]
  have body : firmware1.drop 4096 = zeros 4096 := by rw [cat, List.drop_left' len']
  have piece : ∀ a d r : List Byte, a.length = 24 → d.length = 32 → slice (a ++ (d ++ r)) 24 32 = d := by
    intro a d r h g
    rw [slice_right (by omega), slice_left (by omega), h]
    unfold slice
    rw [List.drop_zero, List.take_of_length_le (by omega)]
  have dig : slice firmware1 24 32 = shake256 32 (zeros 4096) := piece _ _ _ l1 l2
  have len := firmware1_length
  have key : slice firmware1 56 68 = key1 := by rw [rest 56 68 (by omega) (by omega)]; decide +kernel
  have f := left
  have g0 : field fwHead 0 4 = 0x57464447 ∧ field fwHead 4 2 = 1 ∧ field fwHead 6 2 = 0 ∧ field fwHead 16 8 = 4096 ∧ field fwHead 8 4 = 5 := by decide +kernel
  have z1 : allZero (slice firmware1 124 4) = true := by rw [rest 124 4 (by omega) (by omega)]; decide +kernel
  have z2 : allZero (slice firmware1 2948 1148) = true := by rw [rest 2948 1148 (by omega) (by omega)]; decide +kernel
  unfold State.fwOk
  simp only [left 0 4 (by omega), left 4 2 (by omega), left 6 2 (by omega), left 16 8 (by omega), left 8 4 (by omega), g0.1, g0.2.1, g0.2.2.1, g0.2.2.2.1,
    g0.2.2.2.2, len, z1, z2, key, k, v, body, dig]
  simp [h]

/-! ### What completes with its own effect -/

/-- OwnEffects, memory requests: a load, a store, an atomic, a put and a get that are delivered, allowed and need not wait. -/
theorem meets_OwnEffects_memory :
    let s := sharing 2
    let m := memMsg 0 4 []
    let w := memMsg 0 4 (leBytes 4 7)
    s.answerable m ∧
    (s.takes 1 m ∧ memFormed 1 m = true ∧ memFormed 5 m = true ∧ s.fabricStatus false 1184 (msgMpa m) 4 = stOK ∧
      s.behind s.fab.held (msgMpa m) 4 = false ∧ s.hubWaits true (msgMpa m) 4 = false) ∧
    (s.takes 2 w ∧ memFormed 2 w = true ∧ memFormed 3 w = true ∧ memFormed 4 w = true ∧ s.fabricStatus true 1184 (msgMpa w) 4 = stOK ∧
      memBytes 3 w = 4 ∧ w.src.toNat = 1184) := by
  unfold State.takes State.answerable; decide +kernel

/-- OwnEffects, register writes. -/
theorem meets_OwnEffects_writes :
    (up.accepts (rowAttempt (host 1) 0x50020 1 0) ∧ up.accepts (rowAttempt (mg 1) 0x40010 1 0) ∧ up.accepts (rowAttempt (mg 1) 0x70048 1 0)) ∧
    (up.accepts (rowAttempt (mg 1500) 0x40000 0 0) ∧ up.accepts (rowAttempt (mg (1 + 43000 * 2 ^ 16)) 0x40028 0 0) ∧
      up.accepts (rowAttempt (mg 0) 0x70008 0 0) ∧ up.accepts (rowAttempt (mg 1) 0x70010 0 0)) ∧
    (∃ x, (arbPending 50).arb.pend = some x ∧ (arbPending 50).fallsDue x.2.1 = true) := by
  unfold State.accepts; refine ⟨?_, ?_, _, rfl, ?_⟩ <;> decide +kernel

/-- A checkpoint stored; an update under way. -/
def stored1 : State := { up with ledger := { up.ledger with store := [⟨⟨1, ⟨0, 0⟩, 2, false, false, 5, [], [], []⟩, 0, []⟩] } }
def sent1 : State := { updating with sec := { updating.sec with update := some ⟨8192, [(0, firmware1)]⟩, fusedSvn := 0 } }
/-- OwnEffects, security. -/
theorem meets_OwnEffects_security :
    up.answers = true ∧ viaOrigin .i3c = 10 ∧ up.ledgerShut = false ∧ (stored1.ledger.store.find? (fun c => c.record.seq == (1 : BitVec 48).toNat)).isSome = true ∧
    (∃ k, findKey updating.sec.keys (63 : Fin 64).val = some k) ∧ sigLength (1 : BitVec 8).toNat ≠ 0 ∧ key1.length = 68 ∧
    beNat (key1.take 4) = sigOid (1 : BitVec 8).toNat ∧ (8192 : Word32).toNat % 4096 = 0 ∧
    (0 : Word32).toNat + [1, 2, 3].length ≤ 8192 ∧ up.vault.buffer.length + 1 < 1024 := by
  refine ⟨?_, ?_, ?_, ?_, ⟨⟨1, key1, false⟩, ?_⟩, ?_, ?_, ?_, ?_, ?_, ?_⟩ <;> decide +kernel
theorem meets_OwnEffects_update (k : shake256 32 key1 = Config.fwKeyDigest)
    (v : Config.xmssVerify key1 (slice firmware1 0 128) (slice firmware1 128 2820) = true) :
    ∃ u, sent1.sec.update = some u ∧ sent1.fwOk u.image = true ∧ sent1.ledgerShut = updating.ledgerShut ∧ sent1.vault.buffer = updating.vault.buffer := by
  refine ⟨⟨8192, [(0, firmware1)]⟩, rfl, ?_, rfl, rfl⟩
  have h : (zeros 8192).drop (0 + firmware1.length) = [] := by
    rw [firmware1_length]; exact List.drop_eq_nil_of_le (Nat.le_of_eq ((List.length_replicate).trans (Nat.zero_add _).symm))
  have e : FwUpdate.image ⟨8192, [(0, firmware1)]⟩ = firmware1 := by
    unfold FwUpdate.image
    rw [List.foldl_cons, List.foldl_nil, h, List.take_zero, List.nil_append, List.append_nil]
  rw [e]
  exact meets_fwOk k v sent1 (Nat.zero_le 5)

/-! ### Ill-formed commands -/

def cmd0 : Cmd := ⟨3, 1, false, false, 0, 0, 2, List.replicate 44 0, [1, 2], false, false, none⟩
def boot0 (untrained : List (Fin 24 × Fin 32)) : StartUp := ⟨untrained, []⟩
/-- A command's ARGS and parameter block (R391, R399). -/
theorem test_wf_cmd : (Instr.seqSubmit cmd0 []).wf = true ∧ (Instr.seqSubmit { cmd0 with args := [0] } []).wf = false ∧
    (Instr.hint { cmd0 with block := [1, 2, 3] }).wf = false ∧ (Instr.activate { cmd0 with args := [] } []).wf = false ∧
    (Instr.nopCommand { cmd0 with opcode := some 0x77 }).wf = true ∧ (Instr.nopCommand { cmd0 with opcode := some 0x3F }).wf = false := by decide +kernel
/-- A message's OFFSET and LENGTH (R302). -/
theorem test_wf_msg : (Instr.response (memMsg 0 4 [])).wf = true ∧ (Instr.response { memMsg 0 4 [] with offset := 70368744177664 }).wf = false ∧
    (Instr.load { memMsg 0 4 [] with length := 65537 } []).wf = false := by decide +kernel
theorem test_wf_msg_payload : (Instr.store (memMsg 0 4 (List.replicate 65537 0)) []).wf = false := by
  simp [-List.reduceReplicate, Instr.wf, Msg.wf, memMsg, nodeMsg]
/-- A TRAIN set's credit counts (R287). -/
theorem test_wf_train : (Instr.train 3 ⟨0, 0, 0, [1, 2, 3, 4]⟩).wf = true ∧ (Instr.train 3 ⟨0, 0, 0, [1, 2, 3]⟩).wf = false := by decide +kernel
/-- Measurements of 16 bits (R416, R435). -/
theorem test_wf_samples : (Instr.inputSample (input1 65535) (boot0 [])).wf = true ∧ (Instr.inputSample (input1 65536) (boot0 [])).wf = false ∧
    (Instr.sensorRead (temp1 65535)).wf = true ∧ (Instr.sensorRead (temp1 65536)).wf = false := by decide +kernel
/-- A channel fails training once (R487). -/
theorem test_wf_untrained : (Instr.svcReset (mg 8) (boot0 [(1, 2), (1, 3)])).wf = true ∧ (Instr.svcReset (mg 8) (boot0 [(1, 2), (1, 2)])).wf = false ∧
    (Instr.resume (mg 2) [] (boot0 [(1, 2), (1, 2)])).wf = false ∧ (Instr.mainEnAssert (boot0 [(1, 2), (1, 2)])).wf = false ∧
    (Instr.recoveryImageReceived [] [(1, 2), (1, 2)]).wf = false := by decide +kernel
/-- An arbiter that exists, and no more requesters than it has indices (R326). -/
theorem test_wf_arbiter : (Instr.arbiterDecision .thaxa 8 [] false 5).wf = true ∧ (Instr.arbiterDecision .thaxa 9 [] false 0).wf = false ∧
    (Instr.arbiterDecision .hbm 767 (List.replicate 9 (req1 0 false)) true 0).wf = false ∧
    (Instr.arbiterDecision .hbm 767 [] true 1).wf = false := by decide +kernel
/-- A flit is 256 bytes (R274); a start names a journal record once. -/
theorem test_wf_raw : (Instr.flitReceive 3 (zeros 256)).wf = true ∧ (Instr.flitReceive 3 (zeros 255)).wf = false ∧
    (Instr.mainEnAssert ⟨[], [⟨true, 4, 0⟩, ⟨true, 4, 1⟩]⟩).wf = false := by decide +kernel
/-- A publisher's key and a nonce (R470, R475). -/
theorem test_wf_security : (Instr.challenge .i3c (List.replicate 32 0)).wf = true ∧ (Instr.challenge .i3c []).wf = false ∧
    (Instr.getMeasurements .i3c 1 false []).wf = true ∧ (Instr.getMeasurements .i3c 1 true []).wf = false := by decide +kernel
/-- The opcode table gives its rows no bits, so no word spells a command (log 60). -/
theorem test_no_words : decodeTableWord 8 0 = none ∧ decodeTableWord 64 0x123456789 = none := ⟨rfl, rfl⟩

/-! ### The spec's worked examples -/

/-- R18: the load from S14 is served by channel 16. -/
theorem test_channel : channelOf 0x000200031000 = 16 := by decide +kernel

/-- R56, R58: CORRECTION 4,992, a link delay of 46 ns and a stamp at tick 365 give a phase error of +7 ns; the module stays LOCKED. -/
theorem test_phase_error :
    let p : Port := { nth Port.reset adm.fab.ports 3 with linkDelay := 46 }
    let s : State := { adm with time := { adm.time with beat := 7340112, tick := 25001, period := 50 }, fab := { adm.fab with ports := setNth adm.fab.ports 3 p } }
    let t := s.useMarker ⟨3, ⟨7340112, 50, 0, 0, 9, 0, 4992⟩, 365⟩
    t.time.st = .locked ∧ t.time.phaseErr = 7 ∧ t.time.corr = 7 := by decide +kernel

/-- The activation scale block of R127 to R129's example. -/
def sources1 : List Nat :=
  (List.replicate 128 0).zipIdx.map fun p =>
    (findKey [(3, 0x3FC00000), (7, 0xC0300000), (12, 0x3E99999A), (18, 0x43480000), (25, 0xC2C00000), (30, 0x40A00000)] p.2).getD 0
def encoded1 : List ScaleEnc := encodeBlock 127 0x42800000 none sources1
/-- R125, R127 to R129: the descriptor and the codes. -/
theorem test_encode :
    (descriptorBytes 8 encoded1).take 16 = [0x7B, 0, 0, 0, 0, 2, 0, 0, 0x48, 0x43, 0x12, 0, 0xC0, 0xC2, 0x19, 0] ∧
    (encFields 8 encoded1).zipIdx.filter (fun p => p.1 ≠ 0) = [(0x18, 3), (0xD4, 7), (0x05, 12), (0x50, 30)] := by decide +kernel

/-- R130: an E4M3 scale block. -/
theorem test_f8 :
    (f8Scale 2 ([0x5C, 0x31, 0xB6, 0x19] ++ List.replicate 28 0)).1 = 0x7D ∧
    ((f8Scale 2 ([0x5C, 0x31, 0xB6, 0x19] ++ List.replicate 28 0)).2.map (unsgn 8)).take 5 = [0x60, 0x02, 0xFC, 0x00, 0x00] := by decide +kernel

def weights1 : RawBlock :=
  { width := 4, fields := (List.replicate 128 0).zipIdx.map fun p => (findKey [(3, 5), (7, 13), (12, 7), (18, 2), (25, 8)] p.2).getD 0
    scales := [0x7D, 0, 0, 0], outs := [(0, 30, 0xBFA0)] }
def acts1 : RawBlock := { width := 8, fields := encFields 8 encoded1, scales := [0x7B, 0, 0, 0], outs := [(0, 18, 0x4348), (0, 25, 0xC2C0)] }
/-- R132, R136, R138: the run sum 287, the accumulator 0x4980_0912, and the drains 0x4900_0912 and 0x4900. -/
theorem test_dot_product :
    runSum weights1 acts1 0 = 287 ∧ accumulate weights1 acts1 0x49800000 = 0x49800912 ∧ f32mul 0x49800912 0x3F000000 = 0x49000912 ∧
    bf16round 0x49000912 = 0x4900 := by decide +kernel

/-- R151, R155: the I4 block that trips twice, then its I8 encoding. -/
def sources2 : List Nat :=
  [0x40400000, 0xC0200000, 0x3FA00000, 0x3F800000] ++ (List.replicate 14 [0x3D4CCCCD, 0xBD23D70A]).flatten ++ List.replicate 96 0
theorem test_trips :
    (let a := encodeScale 7 0x7F800000 (some 0x7C) (sources2.take 32)
     a.codes.take 6 = [7, -7, 7, 7, 0, 0] ∧ a.n = 32 ∧ a.sat = 4 ∧ a.zero = 28 ∧ a.trips 3 16 = true) ∧
    (let a := encodeScale 7 0x7F800000 none (sources2.take 32)
     a.scale = 0x7E ∧ a.codes.take 6 = [6, -5, 2, 2, 0, 0] ∧ a.sat = 0 ∧ a.zero = 28 ∧ a.trips 3 16 = true) := by decide +kernel
theorem test_escalation :
    let a := encodeScale 127 0x7F800000 none (sources2.take 32)
    a.scale = 0x7A ∧ (a.codes.map (unsgn 8)).take 7 = [0x60, 0xB0, 0x28, 0x20, 2, 0xFF, 2] := by decide +kernel

/-- The block of "One block, three ways": 40 present elements of eight repeated values, every scale 0x7A. -/
def encoded2 : List ScaleEnc :=
  let cs : List Int := (List.replicate 5 [12, 0, 0, -12, 0, 0, 5, 0, 0, 12, 0, 0, -3, 0, 0, 5, 0, 0, 12, 0, 0, 3, 0, 0]).flatten ++ List.replicate 8 0
  (pieces 32 4 cs).map fun xs => { scale := 0x7A, codes := xs, outs := [], n := 0, sat := 0, zero := 0, nonfin := 0 }
def dict5 : DictUse := ⟨5, 0x13, [0x0C, 0x05, 0x03, 0xFD, 0xF4]⟩
/-- R169 to R171, R177: the DICT block of 86 bytes, the BITMAP block of 106 and RAW's LEN. -/
theorem test_dict_block :
    let b := blockBytes 8 encoded2 (some dict5)
    b.length = 86 ∧ b.take 8 = leBytes 8 0x0000005600135286 ∧ (b.drop 48).take 20 =
      [0x49, 0x92, 0x24, 0x49, 0x92, 0x24, 0x49, 0x92, 0x24, 0x49, 0x92, 0x24, 0x49, 0x92, 0x24, 0, 0x40, 0x01, 0x13, 0x20] := by decide +kernel
theorem test_bitmap_block :
    let b := blockBytes 8 encoded2 none
    b.length = 106 ∧ b.take 8 = leBytes 8 0x0000006A00000285 ∧ (b.drop 64).take 8 = [0x0C, 0xF4, 0x05, 0x0C, 0xFD, 0x05, 0x0C, 0x03] ∧
    blockHeader 0 1 0 0 0 (blockLen 0 1 8 0) 0 = 0x000000B200000004 := by decide +kernel
/-- R178: the record's header, and its codes in R179's order. -/
theorem test_record :
    (recordBytes 5 0x13 dict5.entries).take 21 = leBytes 8 0x0000004000135007 ++ leBytes 4 0x13 ++ [0, 5, 0, 0] ++ [0x0C, 0x05, 0x03, 0xFD, 0xF4] ∧
    codeBefore (5, 10) (3, 5) = true ∧ codeBefore (3, 5) (-3, 5) = true ∧ codeBefore (-3, 5) (-12, 5) = true ∧ codeBefore (3, 5) (5, 10) = false := by
  decide +kernel
/-- R176: the CRC over "123456789". -/
theorem test_crc : crc16 [0x31, 0x32, 0x33, 0x34, 0x35, 0x36, 0x37, 0x38, 0x39] = 0x29B1 := by decide +kernel

/-- R199: row key (1, 0) of layer 3 goes to replica 1 of expert 1. -/
theorem test_replica : replicaOf 1 0 3 1 3 = 1 := by decide +kernel

def routes5 : RouteTable :=
  { layer := 3, k := 2, renorm := true, normTopk := false, sources := 1, loadOff := 0, experts := [⟨1, 2, 0⟩, ⟨1, 2, 1⟩, ⟨1, 2, 2⟩, ⟨1, 2, 3⟩, ⟨1, 2, 4⟩],
    replicas := List.replicate 5 ⟨0, 0, 0, 0, 0, 0⟩ }
def chosen5 : List (List Choice) :=
  [[⟨2, 0, 0, false, 0x3F400000⟩, ⟨0, 0, 0, false, 0x3E800000⟩], [⟨2, 0, 0, false, 0x3F000000⟩, ⟨1, 0, 0, false, 0x3F000000⟩],
   [⟨2, 0, 0, false, 0x3F200000⟩, ⟨3, 0, 0, false, 0x3EC00000⟩], [⟨0, 0, 0, false, 0x3F200000⟩, ⟨2, 0, 0, false, 0x3EC00000⟩],
   [⟨1, 0, 0, false, 0x3F000000⟩, ⟨0, 0, 0, false, 0x3F000000⟩]]
/-- R198, R200: the dispatch of five rows. -/
theorem test_dispatch :
    let x := dispatchRows routes5 chosen5 (List.replicate 5 (0, 0))
    x.fill = [2, 2, 2, 1, 0] ∧ x.grants = [2, 2, 2, 1, 0] ∧ x.drops = [1, 0, 2, 0, 0] ∧
    (x.rows.map fun r => r.map Choice.word) =
      [[0x3F40000000000002, 0x3E80000000010000], [0x3F00000000010002, 0x3F00000000010001], [0x3F20000010000002, 0x3F80000000000003],
       [0x3F80000000000000, 0x3EC0000010000002], [0x3F80000000000001, 0x3F00000010000000]] := by decide +kernel

/-- R254: who keeps the four shards of the example. -/
theorem test_kept :
    let h := fun (row col : Nat) (prot : Bool) => ({ index := 0, kind := 0, row := row, col := col, prot := prot, offset := 0, length := 4096, checkOff := 0, digest := [] } : Shard)
    (∀ r ∈ List.range 9, (h 0xFF 0xFF true).keptAt r 4 = true) ∧ (h 3 4 true).keptAt 3 4 = true ∧ (h 3 4 true).keptAt 8 4 = true ∧
    (h 3 4 true).keptAt 2 4 = false ∧ (h 0xFF 4 false).keptAt 7 4 = true ∧ (h 0xFF 4 false).keptAt 8 4 = false ∧
    (h 3 5 true).keptAt 8 4 = false ∧ (h 3 5 true).keptAt 8 5 = true := by decide +kernel

/-- R378: the history 3, 1, 2, 3 with DLT9 = 3 drafts 3 tokens. -/
theorem test_draft :
    ({ seq1 with history := [3, 1, 2, 3], maxNew := 100, emitted := 0, par := { seq1.par with dltEn := true, dlt := List.replicate 9 0 ++ [3] } } : Seq).draftLen true = 3 := by
  decide +kernel

/-- R423: E = 3,424 W with 550 W on every die at OP8 under a budget of 2,000 W lowers to FD0 at OP1 and the others at OP2. -/
theorem test_lowering :
    let s : State := { up with power := { up.power with last := { up.power.last with input := 3424, die := [550, 550, 550, 550] }, oAt := [8, 8, 8, 8] } }
    s.lowerLoop 2000 44 [8, 8, 8, 8] = [1, 2, 2, 2] ∧ s.raiseLoop 2000 [8, 8, 8, 8] 44 [1, 2, 2, 2] = [1, 2, 2, 2] := by decide +kernel
end Sys2Proof.Tests
end

section
/-! SUPPORT. The frame of every command: one arm per row of the table, each citing what that row's operation keeps. The rows that are
register writes keep what the effect of their own register keeps, and what a record or a refusal keeps (R501, R507). -/
namespace Sys2Proof.Machine

theorem rPort_aligned (k : Fin 9) {off : Nat} (h : off % 8 = 0) : rPort k.val off % 8 = 0 := by
  unfold rPort; omega

theorem rFrame_aligned (d : Fin 4) : rFrame d.val 8 % 8 = 0 := by
  unfold rFrame; omega

theorem chanCtrl_aligned (c : Fin 32) : (0xC0010 + c.val * 0x40) % 8 = 0 := by omega

theorem ringCfg_aligned (r : Fin 1104) : (0x200010 + r.val * 0x40) % 8 = 0 := by omega

/-- A row that writes the register at `o` keeps what that register's effect `f` keeps, beside the parts of a record and of a refusal. -/
theorem State.watchedRow_kept {s : State} {w : RegWr} {o on off : Nat} {x : Extra} {ps qs : List Part} {f : State → Nat → Nat → State}
    (ho : o % 8 = 0) (he : ∀ y g v, y.regEffect g o v x = f y g v) (hf : ∀ y g v, Kept qs y (f y g v))
    (hps : [.regs, .handed, .platform, .svc, .out] ++ qs ⊆ ps := by dsimp only [touches]; decide) :
    Kept ps s (s.watched (·.write (rowAttempt w o on off) x)) := by
  obtain ⟨hb, hq⟩ := List.append_subset.1 hps
  refine State.watchedWrite_kept (fun y v => ?_) hb
  rw [rowAttempt_reg w o on off ho, he]
  exact (hf y _ v).mono hq

/-- Every command keeps all parts but those it may change. -/
theorem exec_kept : ∀ (c : Instr) (s : State), KeptR (touches c) s (exec c s)
  | .beatBoundary, _ => execBeatBoundary_kept
  | .markerAccept _ _, _ => execMarkerAccept_kept
  | .markerDecision, _ => execMarkerDecision_kept
  | .slewTick, _ => execSlewTick_kept
  | .masterStart, _ => execMasterStart_kept
  | .timeBeatRead _, _ => execTimeBeatRead_kept
  | .beatRole _, _ => State.watchedRow_kept rfl (State.regEffect_role · · · _) fun _ _ _ => State.writeRole_kept
  | .beatPeriod _, _ => State.watchedRow_kept rfl (State.regEffect_period · · · _) fun _ _ _ => State.writePeriod_kept
  | .takeoverMaster _ _, _ => State.takeover_row_kept
  | .takeoverRelinquish _ _, _ => State.takeover_row_kept
  | .layerStart _ _, _ => execLayerStart_kept
  | .prefetch _ _, _ => execPrefetch_kept
  | .slotSelect _ _, _ => execSlotSelect_kept
  | .opPref _ _, _ => execOpPref_kept
  | .lockBegin _ _, _ => execLockBegin_kept
  | .collectiveWindow _ _, _ => execCollectiveWindow_kept
  | .replaySlot _ _, _ => execReplaySlot_kept
  | .telemetry _ _, _ => execTelemetry_kept
  | .stepEnd _ _, _ => execStepEnd_kept
  | .stepCompletion _ _, _ => execStepCompletion_kept
  | .nop _, _ => execNop_kept
  | .matrix _ _, _ => execMatrix_kept
  | .vector _ _, _ => execVector_kept
  | .copy _ _, _ => execCopy_kept
  | .select _ _, _ => execSelect_kept
  | .dispatch _ _ _, _ => execDispatch_kept
  | .combine _ _, _ => execCombine_kept
  | .fill _ _, _ => execFill_kept
  | .tileLanding _ _ _, _ => execTileLanding_kept
  | .writeback _ _, _ => execWriteback_kept
  | .gather _ _, _ => execGather_kept
  | .gatherComplete _ _, _ => execGatherComplete_kept
  | .emit _ _ _, _ => execEmit_kept
  | .build _ _, _ => execBuild_kept
  | .counter _, _ => execCounter_kept
  | .wait _, _ => execWait_kept
  | .contextSwitch _, _ => execContextSwitch_kept
  | .entryArrival _ _ _, _ => execEntryArrival_kept
  | .steeringSwitchFire _ _, _ => execSteeringSwitchFire_kept
  | .steeringMergeFire _ _, _ => execSteeringMergeFire_kept
  | .spatialDeadlock _ _, _ => execSpatialDeadlock_kept
  | .dictionaryRecordLoad _ _ _, _ => execDictionaryRecordLoad_kept
  | .rodRemap _ _, _ => execRodRemap_kept
  | .swapDecision _, _ => execSwapDecision_kept
  | .contextRestoreDone _ _, _ => execContextRestoreDone_kept
  | .prefetchTileLand _ _ _, _ => execPrefetchTileLand_kept
  | .prefetchFillBy _ _, _ => execPrefetchFillBy_kept
  | .journalFlushTimer, _ => execJournalFlushTimer_kept
  | .pageProgramDone _ _, _ => execPageProgramDone_kept
  | .powerFail, _ => execPowerFail_kept
  | .install _ _, _ => execInstall_kept
  | .installBegin _, _ => execInstallBegin_kept
  | .installAccept _ _, _ => execInstallAccept_kept
  | .installRefuse _, _ => execInstallRefuse_kept
  | .acceptWaitTimeout, _ => execAcceptWaitTimeout_kept
  | .installCredit _ _, _ => execInstallCredit_kept
  | .installData _, _ => execInstallData_kept
  | .installEnd _, _ => execInstallEnd_kept
  | .reportTimer, _ => execReportTimer_kept
  | .installReport _ _, _ => execInstallReport_kept
  | .installRepair _, _ => execInstallRepair_kept
  | .installCommit _, _ => execInstallCommit_kept
  | .commitResend, _ => execCommitResend_kept
  | .installCommitted _, _ => execInstallCommitted_kept
  | .installAbort _, _ => execInstallAbort_kept
  | .installInactivityTimeout, _ => execInstallInactivityTimeout_kept
  | .imageDelete _, _ => execImageDelete_kept
  | .shardRepair _, _ => execShardRepair_kept
  | .catalogueSync _ _, _ => execCatalogueSync_kept
  | .adapterBind _ _, _ => execAdapterBind_kept
  | .adapterUnbind _, _ => execAdapterUnbind_kept
  | .instanceCreate _, _ => execInstanceCreate_kept
  | .activate _ _, _ => execActivate_kept
  | .configLoad _, _ => execConfigLoad_kept
  | .instanceRestart _, _ => execInstanceRestart_kept
  | .instanceRelease _, _ => execInstanceRelease_kept
  | .poolSet _, _ => execPoolSet_kept
  | .ownSet _, _ => execOwnSet_kept
  | .tenantSet _, _ => execTenantSet_kept
  | .tableLoad _, _ => execTableLoad_kept
  | .routeTableLoad _, _ => execRouteTableLoad_kept
  | .automatonLoad _, _ => execAutomatonLoad_kept
  | .seqSubmit _ _, _ => execSeqSubmit_kept
  | .seqCancel _, _ => execSeqCancel_kept
  | .hint _, _ => execHint_kept
  | .nopCommand _, _ => execNopCommand_kept
  | .admitTimeout _ _, _ => execAdmitTimeout_kept
  | .samplerPosition _ _ _, _ => execSamplerPosition_kept
  | .draftTokenDraw _ _ _, _ => execDraftTokenDraw_kept
  | .load _ _, _ => execLoad_kept
  | .store _ _, _ => execStore_kept
  | .atomic _ _, _ => execAtomic_kept
  | .bulkPut _ _, _ => execBulkPut_kept
  | .bulkGet _ _, _ => execBulkGet_kept
  | .response _, _ => execResponse_kept
  | .coll _, _ => execColl_kept
  | .sectionMsg _, _ => execSectionMsg_kept
  | .replayReq _, _ => execReplayReq_kept
  | .handoff _, _ => execHandoff_kept
  | .fmWrite _, _ => execFmWrite_kept
  | .fmRead _, _ => execFmRead_kept
  | .jobTeardown _, _ => execJobTeardown_kept
  | .notice _, _ => execNotice_kept
  | .remoteQueueScan _ _, _ => execRemoteQueueScan_kept
  | .fabricDeadline _, _ => execFabricDeadline_kept
  | .collectiveSendStart _ _, _ => execCollectiveSendStart_kept
  | .collectiveWindowClose _ _, _ => execCollectiveWindowClose_kept
  | .replaySlotClose _ _, _ => execReplaySlotClose_kept
  | .bridgeUnitReplay _ _, _ => execBridgeUnitReplay_kept
  | .linkNakReceive _ _, _ => execLinkNakReceive_kept
  | .ackTimer _, _ => execAckTimer_kept
  | .delayMeasurement _, _ => execDelayMeasurement_kept
  | .delayReq _ _, _ => execDelayReq_kept
  | .delayResp _ _ _, _ => execDelayResp_kept
  | .train _ _, _ => execTrain_kept
  | .steelyardSetReceive _ _, _ => execSteelyardSetReceive_kept
  | .trainingStateExit _, _ => execTrainingStateExit_kept
  | .trainingBoundExpiry _ _, _ => execTrainingBoundExpiry_kept
  | .portCfg port _, _ => State.watchedRow_kept (rPort_aligned port (by decide)) (State.regEffect_portCfg · · · _ port)
      fun _ _ _ => State.writePortCfg_kept
  | .coord _, _ => State.watchedRow_kept rfl (State.regEffect_coord · · · _) fun _ _ _ => State.writeCoord_kept
  | .fabricAdmit _, _ => State.watchedRow_kept rfl (State.regEffect_admit · · · _) fun _ _ _ => State.writeAdmit_kept
  | .thaxaCommit _, _ => State.watchedRow_kept rfl (State.regEffect_thaxaCommit · · · _) fun _ _ _ => State.writeThaxaCommit_kept
  | .portFenceClear port _, _ => State.watchedRow_kept (rPort_aligned port (by decide)) (State.regEffect_portFenceClear · · · _ port)
      fun _ _ _ => State.writePortFenceClear_kept
  | .arbCommit _, _ => State.watchedRow_kept rfl (State.regEffect_arbCommit · · · _)
      fun _ _ _ => State.writeArbCommit_kept.ite (Kept.refl _)
  | .arbSetActivation, _ => execArbSetActivation_kept
  | .sqDoorbell _, _ => execSqDoorbell_kept
  | .completionHeadDoorbell _, _ => execCompletionHeadDoorbell_kept
  | .irqTimer _, _ => execIrqTimer_kept
  | .ringEnable ring _, _ => State.watchedRow_kept (ringCfg_aligned ring) (State.regEffect_ringCfg · · · _ ring)
      fun _ _ _ => State.writeRingCfg_kept
  | .ringDisable ring _, _ => State.watchedRow_kept (ringCfg_aligned ring) (State.regEffect_ringCfg · · · _ ring)
      fun _ _ _ => State.writeRingCfg_kept
  | .functionLevelReset _, _ => execFunctionLevelReset_kept
  | .perst, _ => execPerst_kept
  | .d3hotEntry _, _ => execD3hotEntry_kept
  | .d0Return _, _ => execD0Return_kept
  | .chanStart chan _ _, _ => State.watchedRow_kept (chanCtrl_aligned chan) (State.regEffect_chanCtrl · · · _ chan)
      fun _ _ _ => State.chanEffect_kept
  | .chanStop chan _, _ => State.watchedRow_kept (chanCtrl_aligned chan) (State.regEffect_chanCtrl · · · _ chan)
      fun _ _ _ => State.chanEffect_kept
  | .dmaDoorbell _ _, _ => execDmaDoorbell_kept
  | .dmaCopyDone _ _ _ _, _ => execDmaCopyDone_kept
  | .dmaBusError _ _, _ => execDmaBusError_kept
  | .busErrorClear _, _ => State.watchedRow_kept rfl (State.regEffect_dmaError · · · _) fun _ _ _ => State.writeDmaError_kept
  | .powerDecision, _ => execPowerDecision_kept
  | .inputSample _ _, _ => execInputSample_kept
  | .lowInputClear, _ => execLowInputClear_kept
  | .sensorRead _, _ => execSensorRead_kept
  | .hardwareTrip, _ => execHardwareTrip_kept
  | .droopTrip _, _ => execDroopTrip_kept
  | .droopRecovery _, _ => execDroopRecovery_kept
  | .droopCeilingLift _, _ => execDroopCeilingLift_kept
  | .cap _, _ => State.watchedRow_kept rfl (State.regEffect_cap · · · _) fun _ _ _ => State.writeCap_kept
  | .capRenew _, _ => State.watchedRow_kept rfl (State.regEffect_renew · · · _) fun _ _ _ => State.writeRenew_kept
  | .leaseExpiry, _ => execLeaseExpiry_kept
  | .steelyardCfg _, _ => State.watchedRow_kept rfl (State.regEffect_steel · · · _) fun _ _ _ => State.writeSteelCfg_kept
  | .provingRunStart _, _ => execProvingRunStart_kept
  | .provingRunEnd _ _ _, _ => execProvingRunEnd_kept
  | .provingRunTimeout _, _ => execProvingRunTimeout_kept
  | .routineProving _, _ => execRoutineProving_kept
  | .proveRequest _, _ => State.watchedRow_kept rfl (State.regEffect_prove · · · _) fun _ _ _ => State.writeProveRequest_kept
  | .faultClear _, _ => State.watchedRow_kept rfl (State.regEffect_faultClear · · · _)
      fun _ _ _ => State.routesOpen_kept.on (State.writeFaultClear_kept.mono (by decide))
  | .fenceClear die _, _ => State.watchedRow_kept (rFrame_aligned die) (State.regEffect_fenceClear · · · _ die)
      fun _ _ _ => State.writeFenceClear_kept
  | .ledgerAppend, _ => execLedgerAppend_kept
  | .checkpointTimer, _ => execCheckpointTimer_kept
  | .checkpointSigned, _ => execCheckpointSigned_kept
  | .ledgerAck _, _ => State.watchedRow_kept rfl (State.regEffect_ack · · · _) fun _ _ _ => State.writeAck_kept
  | .ledgerCfg _, _ => State.watchedRow_kept rfl (State.regEffect_ledgerCfg · · · _) fun _ _ _ => State.writeLedgerCfg_kept
  | .identityRead _, _ => execIdentityRead_kept
  | .ledgerRead _ _, _ => execLedgerRead_kept
  | .ckptRead _ _, _ => execCkptRead_kept
  | .pubkeySet _ _ _ _, _ => execPubkeySet_kept
  | .pubkeyRevoke _ _, _ => execPubkeyRevoke_kept
  | .fwUpdateBegin _ _, _ => execFwUpdateBegin_kept
  | .fwUpdateData _ _ _, _ => execFwUpdateData_kept
  | .fwUpdateEnd _, _ => execFwUpdateEnd_kept
  | .fwSvnCommit _, _ => State.watchedRow_kept rfl (State.regEffect_svn · · · _) fun _ _ _ => State.writeSvnCommit_kept
  | .setTid _ _, _ => execSetTid_kept
  | .getTid _, _ => execGetTid_kept
  | .getPldmVersion _ _, _ => execGetPldmVersion_kept
  | .getPldmTypes _, _ => execGetPldmTypes_kept
  | .getPldmCommands _ _, _ => execGetPldmCommands_kept
  | .setEventReceiver _ _, _ => execSetEventReceiver_kept
  | .getPdrRepositoryInfo _, _ => execGetPdrRepositoryInfo_kept
  | .getPdr _ _, _ => execGetPdr_kept
  | .getSensorReading _ _, _ => execGetSensorReading_kept
  | .getStateSensorReadings _ _, _ => execGetStateSensorReadings_kept
  | .pldmEventResend _, _ => execPldmEventResend_kept
  | .getVersion _, _ => execGetVersion_kept
  | .getCapabilities _, _ => execGetCapabilities_kept
  | .negotiateAlgorithms _, _ => execNegotiateAlgorithms_kept
  | .challenge _ _, _ => execChallenge_kept
  | .getMeasurements _ _ _ _, _ => execGetMeasurements_kept
  | .chunkGet _ _, _ => execChunkGet_kept
  | .respondIfReady _ token, _ => execRespondIfReady_kept (a1 := token)
  | .vendorDefinedRequest _ _ _, _ => execVendorDefinedRequest_kept
  | .setupLock _, _ => State.watchedRow_kept rfl (State.regEffect_lock · · · _) fun _ _ _ => State.setLock_kept.ite (Kept.refl _)
  | .registerWrite _ _ _ _, _ => execRegisterWrite_kept
  | .regAddr _ _, _ => execRegAddr_kept
  | .regRead, _ => execRegRead_kept
  | .standby _, _ => execStandby_kept
  | .resume _ _ _, _ => execResume_kept
  | .prepareRemove _, _ => execPrepareRemove_kept
  | .svcReset _ _, _ => execSvcReset_kept
  | .vstbyApplied, _ => execVstbyApplied_kept
  | .mainEnAssert _, _ => execMainEnAssert_kept
  | .mainEnDeassert, _ => execMainEnDeassert_kept
  | .presentSenseLoss, _ => execPresentSenseLoss_kept
  | .refLoss, _ => execRefLoss_kept
  | .flitReceive _ _, _ => execFlitReceive_kept
  | .fecAlignmentLoss _ lane, _ => execFecAlignmentLoss_kept (a1 := lane)
  | .arbiterDecision _ _ _ _ _, _ => execArbiterDecision_kept
  | .msixVectorUnmask _ _, _ => execMsixVectorUnmask_kept
  | .installReaderTimeout, _ => execInstallReaderTimeout_kept
  | .recoveryImageReceived _ _, _ => execRecoveryImageReceived_kept
  | .bringUpBoundExpiry step, _ => execBringUpBoundExpiry_kept (a0 := step)
  | .vhbmLoss, _ => execVhbmLoss_kept
  | .inputLoss, _ => execInputLoss_kept
  | .ref100Return, _ => execRef100Return_kept
  | .delayExchange _, _ => execDelayExchange_kept

theorem kept_of_exec {c : Instr} {s t : State} (h : exec c s = .next t) : Kept (touches c) s t := by
  have hk := exec_kept c s
  rw [h] at hk
  exact hk

/-- Settles O4: what each command keeps holds every part outside `touches`. -/
theorem commandFrames : Obligations.CommandFrames := fun _ _ _ h => (kept_of_exec h).only

end Sys2Proof.Machine
end

section
/-! SUPPORT. Every command and every step answers a next state (R13, R14). -/
namespace Sys2Proof.Machine

theorem execArbiterDecision_answers (kind : ArbKind) (index : Fin 768) (waiting : List ArbReq) (done : Bool) (s : State) (sub : Fin 7) :
    ∃ t, execArbiterDecision kind index waiting done s sub = .next t := by
  unfold execArbiterDecision
  dsimp only
  split
  · exact ⟨_, rfl⟩
  · split <;> exact ⟨_, rfl⟩

/-- The arms of all rows but the arbiter's are a next state outright; an arbiter's decides first whether the arbiter exists. -/
theorem exec_answers (c : Instr) (s : State) : ∃ t, exec c s = .next t := by
  cases c with
  | arbiterDecision kind index waiting done sub => exact execArbiterDecision_answers kind index waiting done s sub
  | _ => exact ⟨_, rfl⟩

theorem step_of_pending {s : State} {c : Instr} {rest : List Instr} (h : s.pending = c :: rest) :
    step s = exec c { s with pending := rest } := by
  unfold step
  rw [h]

theorem step_of_idle {s : State} (h : s.pending = []) : step s = .next s.idle := by
  unfold step
  rw [h]

theorem step_answers (s : State) : ∃ t, step s = .next t := by
  cases h : s.pending with
  | nil => exact ⟨_, step_of_idle h⟩
  | cons c rest =>
    rw [step_of_pending h]
    exact exec_answers c _

/-- Settles O1, by the case of `step` for a command at the front. -/
theorem stepRunsFront : Obligations.StepRunsFront := fun _ _ _ => step_of_pending

end Sys2Proof.Machine
end

section
/-! SUPPORT. `sortOn` is a stable sort: a permutation, in order of the key, that keeps the order of the elements of each key (R48). -/
namespace Sys2Proof.Machine

/-- The elements stand in order of the key. -/
def OrderedOn {α : Type} (key : α → Nat) (l : List α) : Prop := l.Pairwise fun a b => key a ≤ key b

section
variable {α : Type} (key : α → Nat)

theorem insertOn_perm (x : α) (l : List α) : (insertOn key x l).Perm (x :: l) := by
  induction l with
  | nil => exact .refl _
  | cons y ys ih =>
    unfold insertOn
    split
    · exact .refl _
    · exact (ih.cons y).trans (.swap x y ys)

theorem insertOn_ordered (x : α) (l : List α) (h : OrderedOn key l) : OrderedOn key (insertOn key x l) := by
  induction l with
  | nil => exact List.pairwise_singleton ..
  | cons y ys ih =>
    obtain ⟨hy, hys⟩ := List.pairwise_cons.1 h
    unfold insertOn
    split
    · next hx =>
      refine .cons (fun z hz => ?_) h
      rcases List.mem_cons.1 hz with rfl | hz
      · exact hx.le
      · exact hx.le.trans (hy z hz)
    · next hx =>
      refine .cons (fun z hz => ?_) (ih hys)
      rcases List.mem_cons.1 ((insertOn_perm key x ys).mem_iff.1 hz) with rfl | hz
      · exact not_lt.1 hx
      · exact hy z hz

/-- In an ordered list no element has a key below the first one's. -/
theorem OrderedOn.filter_of_lt {y : α} {ys : List α} {k : Nat} (h : OrderedOn key (y :: ys)) (hk : k < key y) :
    (y :: ys).filter (fun a => key a == k) = [] := by
  refine List.filter_eq_nil_iff.2 fun a ha => ?_
  have hya : key y ≤ key a := by
    rcases List.mem_cons.1 ha with rfl | ha
    · exact le_rfl
    · exact (List.pairwise_cons.1 h).1 a ha
  simp only [beq_iff_eq]
  omega

/-- An element is inserted after those of its own key. -/
theorem insertOn_filter (x : α) (l : List α) (k : Nat) (h : OrderedOn key l) :
    (insertOn key x l).filter (fun a => key a == k) = (l ++ [x]).filter (fun a => key a == k) := by
  induction l with
  | nil => rfl
  | cons y ys ih =>
    unfold insertOn
    split
    · next hx =>
      show List.filter _ ([x] ++ (y :: ys)) = _
      rw [List.filter_append, List.filter_append]
      by_cases hk : key x = k
      · rw [h.filter_of_lt key (hk ▸ hx), List.append_nil, List.nil_append]
      · have hnone : [x].filter (fun a => key a == k) = [] := by simp [hk]
        rw [hnone, List.append_nil, List.nil_append]
    · rw [List.cons_append, List.filter_cons, List.filter_cons, ih (List.pairwise_cons.1 h).2]

/-- What the insertions of `l` one after another, from an ordered list on, have made. -/
theorem foldl_insertOn (l acc : List α) (h : OrderedOn key acc) :
    let r := l.foldl (fun acc x => insertOn key x acc) acc
    r.Perm (acc ++ l) ∧ OrderedOn key r ∧ ∀ k, r.filter (fun a => key a == k) = (acc ++ l).filter fun a => key a == k := by
  induction l generalizing acc with
  | nil => simpa using h
  | cons x l ih =>
    obtain ⟨hp, hs, hf⟩ := ih (insertOn key x acc) (insertOn_ordered key x acc h)
    refine ⟨hp.trans ?_, hs, fun k => (hf k).trans ?_⟩
    · exact ((insertOn_perm key x acc).append_right l).trans List.perm_middle.symm
    · rw [List.filter_append, insertOn_filter key x acc k h, ← List.filter_append, List.append_assoc, List.singleton_append]

theorem sortOn_perm (l : List α) : (sortOn key l).Perm l := (foldl_insertOn key l [] .nil).1

theorem sortOn_ordered (l : List α) : OrderedOn key (sortOn key l) := (foldl_insertOn key l [] .nil).2.1

theorem sortOn_filter (l : List α) (k : Nat) : (sortOn key l).filter (fun a => key a == k) = l.filter fun a => key a == k :=
  (foldl_insertOn key l [] .nil).2.2 k

end

/-- Settles O3: `exec` and `step` answer, the frame of a command holds the queue and what has been sent, the table spells nothing, and
the queue is joined by a stable sort. -/
theorem everyCommandAnswers : Obligations.EveryCommandAnswers := by
  refine ⟨⟨exec_answers, step_answers⟩, fun c s t h => ?_, fun s nbits w => ⟨rfl, rfl⟩, fun s cs => ?_⟩
  · have hk := kept_of_exec h
    exact ⟨hk.pending, hk.out⟩
  · exact ⟨_, rfl, sortOn_perm sourceRank cs, sortOn_ordered sourceRank cs, sortOn_filter sourceRank cs⟩

end Sys2Proof.Machine
end

section
/-! SUPPORT. The ways of a register write: its path does not reach the module, its register is not ready, or it is judged (R500 to R507). -/
namespace Sys2Proof.Machine

/-- No state sensor changes where nothing does. -/
theorem State.sensorEvents_self (s : State) : s.sensorEvents s = s := by
  simp [State.sensorEvents]

theorem State.write_of_pathDown {s : State} {a : Attempt} (x : Extra) (h : s.pathUp a.origin = false) : s.write a x = s := by
  simp [State.write, h]

theorem State.write_of_notReady {s : State} {a : Attempt} (x : Extra) (hp : s.pathUp a.origin = true) (ho : a.origin = 10)
    (hr : s.reachable a.reg = false) : s.write a x = s.refuseWrite a reasonNOT_READY := by
  simp [State.write, ho ▸ hp, ho, hr]

theorem State.write_of_ready {s : State} {a : Attempt} (x : Extra) (hp : s.pathUp a.origin = true)
    (hr : a.origin = 10 → s.reachable a.reg = true) : s.write a x = s.judge a x := by
  by_cases ho : a.origin = 10
  · simp [State.write, ho ▸ hp, ho, hr ho]
  · simp [State.write, hp, ho]

theorem State.judge_of_reason {s : State} {a : Attempt} (x : Extra) (h : s.reasonOf a ≠ 0) :
    s.judge a x = s.refuseWrite a (s.reasonOf a) := by
  unfold State.judge
  split
  · next h0 _ => exact absurd h0 h
  · rfl

/-- While the security engine does not answer, the island latches and counts the refusal (R507). -/
theorem State.refuseWrite_of_silent {s : State} (a : Attempt) (r : Nat) (h : s.answers = false) :
    s.refuseWrite a r = { s with svc := { s.svc with refusedLast := BitVec.ofNat 64 (refusedWord a r),
                                                      refusedCount := min (s.svc.refusedCount + 1) 0xFFFFFFFF } } := by
  simp [State.refuseWrite, h]

/-- A row that writes a register does what the write does, and sends the platform events of the changes. -/
theorem does_watchedWrite {c : Instr} {s t : State} {a : Attempt} {x : Extra} {P : State → Prop}
    (hc : exec c s = .next (s.watched (·.write a x))) (h : s.write a x = t) (hP : P (t.sensorEvents s)) : Does c s P :=
  by
  subst h
  exact ⟨_, hc, hP⟩

/-- Settles O10, by the way that the write takes. -/
theorem registerWrite : Obligations.RegisterWrite := by
  refine ⟨fun s origin offset size value => ⟨fun h => ?_, fun hp hr h => ?_, fun hp ho hr => ?_, fun hp => ?_⟩,
    fun s a r => State.refuseWrite_of_silent a r⟩
  · obtain ⟨i, hi, hw⟩ := s.write_accepted _ Extra.none h
    exact does_watchedWrite rfl hw ⟨i, hi, rfl⟩
  · exact does_watchedWrite rfl ((State.write_of_ready _ hp hr).trans (State.judge_of_reason _ h)) rfl
  · exact does_watchedWrite rfl (State.write_of_notReady _ hp ho hr) rfl
  · exact does_watchedWrite rfl (State.write_of_pathDown _ hp) s.sensorEvents_self

end Sys2Proof.Machine
end

section
/-! SUPPORT. The state after reset (R11). -/
namespace Sys2Proof.Machine

theorem State.reset_memOk : State.reset.memOk := ⟨.nil, List.forall_mem_nil _⟩

theorem State.reset_shape : State.reset.shape := ⟨rfl, rfl, rfl, rfl⟩

/-- The setup registers with the values their tables give at reset (R115, R298, R338, R438, R456, R482, R510, R514). -/
def setupResetValues : List (Nat × Nat) :=
  State.resetRegs ++
    [(0x10000, 0), (0x10020, 0), (0x20000, 0), (0x30000, 0), (0x30010, 0), (0x40000, 0), (0x50000, 0x00134567), (0x50008, 0x01323455),
     (0x50010, 0x00002356), (0x50018, 0x03244566), (0x70008, 0), (0x70010, 1)]

theorem State.reset_readReg : ∀ p ∈ setupResetValues, State.reset.readReg .pcie p.1 = p.2 := by decide

/-- Settles O7, part by part of the state after reset. -/
theorem resetOk : Obligations.ResetOk :=
  ⟨State.reset_memOk, State.reset_shape, rfl, fun o v h => State.reset_readReg (o, v) h⟩

end Sys2Proof.Machine
end

section
/-! SUPPORT. The canonical form of memory over a step (R29, R33). -/
namespace Sys2Proof.Machine

/-- Taking a command from the queue leaves memory, and what the command or the tick then does keeps its form. -/
theorem step_keeps_memOk {s t : State} (hm : s.memOk) (h : step s = .next t) : t.memOk := by
  cases hp : s.pending with
  | nil =>
    obtain rfl := Host.Outcome.next.inj ((step_of_idle hp).symm.trans h)
    exact State.idle_kept.mem hm
  | cons c rest =>
    have he : exec c { s with pending := rest } = .next t := (step_of_pending hp).symm.trans h
    exact (kept_of_exec he).mem hm

/-- Settles O5: a step is a command's or a tick's, and both keep the form. -/
theorem stepKeepsMemory : Obligations.StepKeepsMemory := fun _ _ => step_keeps_memOk

end Sys2Proof.Machine
end

section
/-! SUPPORT. A port's link layer: what each operation leaves of the ports, of their counters and of the proving runs (R277 to R281). Each
operation on a port sets that one port; the port it sets is a function of the port before. -/
namespace Sys2Proof.Machine

/-! ### Ports and counters -/

/-- The ports where one of them was set. -/
theorem State.port_of_ports {s t : State} {k : Nat} {p : Port} (h : t.fab.ports = setNth s.fab.ports k p) (hk : k < s.fab.ports.length)
    (j : Nat) : t.port j = if j = k then p else s.port j := by
  unfold State.port nth
  rw [h]
  unfold setNth
  by_cases hj : j = k
  · subst hj; simp [hk]
  · simp [hj, List.getElem?_set_ne (Ne.symm hj)]

theorem State.port_self_of_ports {s t : State} {k : Nat} {p : Port} (h : t.fab.ports = setNth s.fab.ports k p)
    (hk : k < s.fab.ports.length) : t.port k = p := by
  rw [State.port_of_ports h hk, if_pos rfl]

theorem State.port_other_of_ports {s t : State} {k j : Nat} {p : Port} (h : t.fab.ports = setNth s.fab.ports k p)
    (hk : k < s.fab.ports.length) (hj : j ≠ k) : t.port j = s.port j := by
  rw [State.port_of_ports h hk, if_neg hj]

/-- Setting a port to what it holds changes nothing. -/
theorem State.ports_self {s : State} {k : Nat} (hk : k < s.fab.ports.length) : s.fab.ports = setNth s.fab.ports k (s.port k) := by
  unfold setNth State.port nth
  rw [List.getElem?_eq_getElem hk, Option.getD_some, List.set_getElem_self]

/-- Of two settings of a port the second stands. -/
theorem State.ports_trans {s t u : State} {k : Nat} {p q : Port} (h : t.fab.ports = setNth s.fab.ports k p)
    (h' : u.fab.ports = setNth t.fab.ports k q) : u.fab.ports = setNth s.fab.ports k q := by
  rw [h', h]
  exact List.set_set ..

theorem State.ports_length {s t : State} {k : Nat} {p : Port} (h : t.fab.ports = setNth s.fab.ports k p) :
    t.fab.ports.length = s.fab.ports.length := by
  rw [h]
  exact List.length_set ..

/-- A port of the module is one of its nine (R273). -/
theorem State.shape.port_lt {s : State} (h : s.shape) (k : Fin 9) : k.val < s.fab.ports.length := by
  obtain ⟨-, hp, -, -⟩ := h
  rw [hp]
  exact k.isLt

@[simp] theorem State.bumpIf_fab (s : State) (b : Bool) (o : Nat) : (s.bumpIf b o).fab = s.fab := by cases b <;> rfl

@[simp] theorem State.bumpIf_out (s : State) (b : Bool) (o : Nat) : (s.bumpIf b o).out = s.out := by cases b <;> rfl

theorem State.reg_bumpIf (s : State) (b : Bool) (k o : Nat) :
    (s.bumpIf b k).reg o = if b = true ∧ o = k then min (s.reg k + 1) 0xFFFFFFFF else s.reg o := by
  cases b
  · rfl
  · simpa [State.bumpIf] using s.reg_bump k o

/-! ### Link errors -/

/-- A port after a link error: RETRAIN from ALIGN on, its replay buffer held (R281). -/
def Port.retrained (p : Port) : Port :=
  { p with st := .retrain, equalizing := false, measured := false, proving := false, trainSeen := false, delayRun := none, naks := 0 }

/-- A detection on a port moves no traffic. -/
theorem State.detect_port_fab (s : State) (cls region run : Nat) (more : Bool) (k : Fin 9) :
    (s.detect cls (.port k) region run more).fab = s.fab := by
  unfold State.detect
  split
  · rfl
  · split <;> rfl

/-- A detection on a unit in service leaves it a run. -/
theorem State.detect_runs (s : State) (cls region run : Nat) (more : Bool) (u : ProveUnit) (h : s.isFenced u = false) :
    ∃ r ∈ (s.detect cls u region run more).faults.runs, r.unit = u := by
  unfold State.detect
  rw [if_neg (by simp [h])]
  split
  · next hr =>
    obtain ⟨r, hr, hu⟩ := List.any_eq_true.1 hr
    simp only [Bool.and_eq_true, beq_iff_eq] at hu
    refine ⟨_, List.mem_map_of_mem hr, ?_⟩
    split
    · exact hu.1
    · exact hu.1
  · have hnew : ∀ r : Run, r.unit = u → ∃ x ∈ s.faults.runs ++ [r], x.unit = u :=
      fun r hr => ⟨r, List.mem_append_right _ (List.mem_singleton_self _), hr⟩
    dsimp only
    split
    · split
      · exact hnew _ rfl
      · exact hnew _ rfl
    · exact hnew _ rfl

theorem State.linkError_of_fenced {s : State} {k : Fin 9} (h : bit s.faults.fencePort k.val = true) : s.linkError k = s := by
  unfold State.linkError
  rw [if_pos h]

theorem State.linkError_of_open {s : State} {k : Fin 9} (h : bit s.faults.fencePort k.val = false) :
    s.linkError k = ((s.setPort k.val (s.port k.val).retrained).emit (.train k.val s.fab.moduleNo PortSt.retrain.code)).detect 0x0C
      (.port k) 0 6 false := by
  unfold State.linkError
  rw [if_neg (by simp [h])]
  rfl

theorem State.linkError_ports {s : State} {k : Fin 9} (h : bit s.faults.fencePort k.val = false) :
    (s.linkError k).fab.ports = setNth s.fab.ports k.val (s.port k.val).retrained := by
  rw [State.linkError_of_open h, State.detect_port_fab]
  rfl

/-- A link error sets its port; of it the replay buffer stands, fenced or not. -/
theorem State.linkError_sets {s : State} {k : Fin 9} (hk : k.val < s.fab.ports.length) :
    ∃ p, (s.linkError k).fab.ports = setNth s.fab.ports k.val p ∧ p.replay = (s.port k.val).replay := by
  cases h : bit s.faults.fencePort k.val with
  | true => rw [State.linkError_of_fenced h]; exact ⟨_, State.ports_self hk, rfl⟩
  | false => exact ⟨_, State.linkError_ports h, rfl⟩

theorem State.linkError_run {s : State} {k : Fin 9} (h : bit s.faults.fencePort k.val = false) :
    ∃ r ∈ (s.linkError k).faults.runs, r.unit = .port k := by
  rw [State.linkError_of_open h]
  exact State.detect_runs _ _ _ _ _ _ h

theorem State.linkError_reg (s : State) (k : Fin 9) (o : Nat) : (s.linkError k).reg o = s.reg o := by
  have hr : (s.linkError k).regs = s.regs := State.linkError_kept.only.2 .regs (by decide)
  unfold State.reg
  rw [hr]

/-! ### NAKs received -/

/-- A port after a NAK (R280, R281). -/
def Port.nakked (p : Port) (seq : Nat) : Port :=
  { p with
    replay := acked p.replay seq
    naks := if 0 < p.naks ∧ p.nakFlit = (seq + 1) % 4096 then p.naks + 1 else 1
    nakFlit := (seq + 1) % 4096 }

/-- An admitted port's NAK counted and taken, before the resending or the link error. -/
def State.nakNoted (s : State) (k : Fin 9) (seq : Nat) : State :=
  (s.bump (rPort k.val 0x28)).setPort k.val ((s.port k.val).nakked seq)

theorem State.nakIn_of_notAdmitted {s : State} {k : Fin 9} (seq : Nat) (h : (s.port k.val).st ≠ .admitted) : s.nakIn k seq = s := by
  simp [State.nakIn, h]

theorem State.nakIn_of_admitted {s : State} {k : Fin 9} (seq : Nat) (h : (s.port k.val).st = .admitted) :
    s.nakIn k seq =
      if 16 < ((s.port k.val).nakked seq).naks then (s.nakNoted k seq).linkError k else (s.nakNoted k seq).resendAll k.val := by
  have hn : (if (s.port k.val).naks > 0 && (s.port k.val).nakFlit = (seq + 1) % 4096 then (s.port k.val).naks + 1 else 1)
      = ((s.port k.val).nakked seq).naks := by
    simp [Port.nakked]
  unfold State.nakIn
  dsimp only
  rw [if_neg (by simp [h]), hn]
  rfl

theorem State.nakNoted_ports (s : State) (k : Fin 9) (seq : Nat) :
    (s.nakNoted k seq).fab.ports = setNth s.fab.ports k.val ((s.port k.val).nakked seq) := rfl

theorem State.nakNoted_kept {s : State} {k : Fin 9} {seq : Nat} : Kept [.regs, .fab] s (s.nakNoted k seq) :=
  State.setPort_kept.andThen (State.bump_kept.mono (by decide))

/-- A NAK on an admitted port, whatever follows it: its port is set, with the flits that it acknowledges gone, and it is counted. -/
theorem State.nakIn_sets {s : State} {k : Fin 9} (hk : k.val < s.fab.ports.length) (seq : Nat) (h : (s.port k.val).st = .admitted) :
    (∃ p, (s.nakIn k seq).fab.ports = setNth s.fab.ports k.val p ∧ p.replay = acked (s.port k.val).replay seq) ∧
      ∀ o, (s.nakIn k seq).reg o = (s.bump (rPort k.val 0x28)).reg o := by
  have hn := s.nakNoted_ports k seq
  rw [State.nakIn_of_admitted seq h]
  split
  · obtain ⟨p, hp, hr⟩ := State.linkError_sets (s := s.nakNoted k seq) (k := k) (State.ports_length hn ▸ hk)
    rw [State.port_self_of_ports hn hk] at hr
    exact ⟨⟨p, State.ports_trans hn hp, hr⟩, fun o => State.linkError_reg ..⟩
  · exact ⟨⟨_, hn, rfl⟩, fun o => rfl⟩

/-! ### Acknowledgements sent -/

/-- A port that has sent an acknowledgement or a NAK (R280). -/
def Port.acking (p : Port) (nak : Bool) : Port := { p with sinceAck := 0, nakPending := p.nakPending || nak }

theorem State.sendAck_ports (s : State) (k : Nat) (nak : Bool) :
    (s.sendAck k nak).fab.ports = setNth s.fab.ports k ((s.port k).acking nak) := by
  cases nak <;> rfl

theorem State.sendAck_reg (s : State) (k : Nat) (nak : Bool) (o : Nat) : (s.sendAck k nak).reg o = (s.bumpIf nak (rPort k 0x28)).reg o := by
  cases nak <;> rfl

theorem State.sendAck_out (s : State) (k : Nat) (nak : Bool) :
    (s.sendAck k nak).out = s.out ++ [.ack k (((s.port k).expectSeq + 4095) % 4096) nak] := by
  cases nak <;> rfl

theorem State.sendAck_false_only (s : State) (k : Nat) : Only [.fab, .out] s (s.sendAck k false) :=
  (State.emit_kept.andThen (State.setPort_kept.mono (by decide))).only

/-! ### Headers and DATA flits in order -/

/-- A port that has taken the header of a flit (R277). -/
def Port.headed (p : Port) (f : Flit) : Port :=
  { p with
    credits := modNth p.credits f.credVc (· + f.credCount)
    replay := if f.ackValid then acked p.replay f.ackSeq else p.replay
    naks := if f.ackValid && p.replay.contains f.ackSeq then 0 else p.naks }

/-- A port with other buffers: the flits that stand there and those of messages not complete (R278). -/
def Port.buffering (p : Port) (buffered incomplete : List Nat) : Port := { p with buffered := buffered, incomplete := incomplete }

/-- A port that has taken a DATA flit in order, and its count of flits since the last acknowledgement (R280). -/
def Port.advanced (p : Port) (since : Nat) : Port :=
  { p with expectSeq := (p.expectSeq + 1) % 4096, nakPending := false, sinceAck := since }

/-- Of the settings of a port in the course of a DATA flit, the place in the order is one and the last buffers and count stand. -/
theorem Port.advanced_of_buffering (p : Port) (m n : Nat) (b₁ i₁ b₂ i₂ b i : List Nat) :
    { (((p.buffering b₁ i₁).advanced m).buffering b₂ i₂).buffering b i with sinceAck := n } = (p.advanced n).buffering b i := rfl

/-- A new first flit discards an incomplete message of its VC. -/
def State.staleOut (s : State) (k : Nat) (f : Flit) : State :=
  let stale := nth 0 (s.port k).incomplete f.vc
  if f.som && stale ≠ 0 then (s.returnCredits k f.vc stale).bump 0x50070 else s

/-- The flit takes its place in the buffers. -/
def State.flitTaken (s : State) (k : Nat) (f : Flit) : State :=
  let p := s.port k
  s.setPort k { p with
    expectSeq := (p.expectSeq + 1) % 4096, nakPending := false, sinceAck := p.sinceAck + 1,
    buffered := modNth p.buffered f.vc (· + 1), incomplete := modNth p.incomplete f.vc (· + 1) }

/-- A last flit completes its message. -/
def State.messageOut (s : State) (k : Nat) (f : Flit) : State :=
  if f.eom then s.returnCredits k f.vc (nth 0 (s.port k).incomplete f.vc) else s

/-- An acknowledgement after 32 DATA flits. -/
def State.ackFlits (s : State) (k : Nat) : State := if (s.port k).sinceAck ≥ 32 then s.sendAck k false else s

theorem State.dataIn_eq (s : State) (k : Nat) (f : Flit) :
    s.dataIn k f = (((s.staleOut k f).flitTaken k f).messageOut k f).ackFlits k := by
  unfold State.dataIn
  extract_lets vc stale s1 p s2 s3
  have h1 : s.staleOut k f = s1 := rfl
  rw [h1]
  clear_value s1
  have h2 : s1.flitTaken k f = s2 := rfl
  rw [h2]
  clear_value s2
  rfl

theorem State.flitTaken_ports (s : State) (k : Nat) (f : Flit) :
    (s.flitTaken k f).fab.ports = setNth s.fab.ports k (((s.port k).advanced ((s.port k).sinceAck + 1)).buffering
      (modNth (s.port k).buffered f.vc (· + 1)) (modNth (s.port k).incomplete f.vc (· + 1))) := rfl

section
variable {s : State} {k : Nat} (f : Flit) (hk : k < s.fab.ports.length)
include hk

theorem State.staleOut_ports : ∃ b i, (s.staleOut k f).fab.ports = setNth s.fab.ports k ((s.port k).buffering b i) := by
  unfold State.staleOut
  dsimp only
  split
  · exact ⟨_, _, rfl⟩
  · exact ⟨_, _, State.ports_self hk⟩

theorem State.messageOut_ports : ∃ b i, (s.messageOut k f).fab.ports = setNth s.fab.ports k ((s.port k).buffering b i) := by
  unfold State.messageOut
  split
  · exact ⟨_, _, rfl⟩
  · exact ⟨_, _, State.ports_self hk⟩

theorem State.ackFlits_ports : ∃ n, (s.ackFlits k).fab.ports = setNth s.fab.ports k { s.port k with sinceAck := n } := by
  unfold State.ackFlits
  split
  · refine ⟨0, (s.sendAck_ports k false).trans ?_⟩
    simp only [Port.acking, Bool.or_false]
  · exact ⟨_, State.ports_self hk⟩

/-- A DATA flit in order: its port expects the next one, and its buffers and its count of flits are what differs beside. -/
theorem State.dataIn_ports : ∃ n b i, (s.dataIn k f).fab.ports = setNth s.fab.ports k (((s.port k).advanced n).buffering b i) := by
  rw [State.dataIn_eq]
  obtain ⟨_, _, h1⟩ := State.staleOut_ports f hk
  have h2 := State.ports_trans h1 ((s.staleOut k f).flitTaken_ports k f)
  obtain ⟨b, i, h3⟩ := State.messageOut_ports (s := (s.staleOut k f).flitTaken k f) f (State.ports_length h2 ▸ hk)
  have h3 := State.ports_trans h2 h3
  obtain ⟨n, h4⟩ := State.ackFlits_ports (s := ((s.staleOut k f).flitTaken k f).messageOut k f) (k := k) (State.ports_length h3 ▸ hk)
  have h4 := State.ports_trans h3 h4
  rw [State.port_self_of_ports h3 hk, State.port_self_of_ports h2 hk, State.port_self_of_ports h1 hk] at h4
  exact ⟨n, b, i, h4.trans (congrArg (setNth s.fab.ports k) (Port.advanced_of_buffering ..))⟩

end

/-- A DATA flit in order counts nothing but the messages that it discards. -/
theorem State.dataIn_reg (s : State) (k : Nat) (f : Flit) (o : Nat) (ho : o ≠ 0x50070) : (s.dataIn k f).reg o = s.reg o := by
  have h1 : (s.staleOut k f).reg o = s.reg o := by
    unfold State.staleOut
    dsimp only
    split
    · exact (State.reg_bump ..).trans (if_neg ho)
    · rfl
  have h3 : ∀ t : State, (t.messageOut k f).reg o = t.reg o := by
    intro t
    unfold State.messageOut
    split <;> rfl
  have h4 : ∀ t : State, (t.ackFlits k).reg o = t.reg o := by
    intro t
    unfold State.ackFlits
    split <;> rfl
  rw [State.dataIn_eq, h4, h3]
  exact h1

end Sys2Proof.Machine
end

section
/-! SUPPORT. The commands of a port's link layer, and the statement about them (R277, R279 to R281). -/
namespace Sys2Proof.Machine

theorem rPort_ne {k a b : Nat} (h : a ≠ b) : rPort k a ≠ rPort k b := by
  unfold rPort
  omega

/-! ### A flit, from its port on -/

/-- The flit's correction counted and its header taken. -/
def State.heard (s : State) (k : Fin 9) (f : Flit) (corrected : Bool) : State := (s.bumpIf corrected (rPort k.val 0x18)).headerIn k.val f

/-- What the flit itself does, after its header: by its type and, of a DATA flit, by its place in the order. -/
def State.flitSorted (s : State) (k : Fin 9) (f : Flit) : State :=
  if f.ftype = 1 then
    if f.seq = (s.port k.val).expectSeq then s.dataIn k.val f
    else if (s.port k.val).nakPending then s
    else s.sendAck k.val true
  else s.bumpIf (f.ftype == 2 && !(osListed f.osKind)) (rPort k.val 0x30)

theorem State.flitGood_eq (s : State) (k : Fin 9) (f : Flit) (corrected : Bool) :
    s.flitGood k f corrected =
      (if f.nak then (s.heard k f corrected).nakIn k f.ackSeq else s.heard k f corrected).flitSorted k f := rfl

theorem State.heard_ports (s : State) (k : Fin 9) (f : Flit) (corrected : Bool) :
    (s.heard k f corrected).fab.ports = setNth s.fab.ports k.val ((s.port k.val).headed f) := by
  cases corrected <;> rfl

theorem State.heard_out (s : State) (k : Fin 9) (f : Flit) (corrected : Bool) : (s.heard k f corrected).out = s.out :=
  s.bumpIf_out ..

theorem State.heard_reg (s : State) (k : Fin 9) (f : Flit) (corrected : Bool) (o : Nat) :
    (s.heard k f corrected).reg o =
      if corrected = true ∧ o = rPort k.val 0x18 then min (s.reg (rPort k.val 0x18) + 1) 0xFFFFFFFF else s.reg o :=
  s.reg_bumpIf corrected (rPort k.val 0x18) o

theorem State.heard_kept {s : State} {k : Fin 9} {f : Flit} {corrected : Bool} : Kept [.regs, .fab] s (s.heard k f corrected) :=
  State.headerIn_kept.andThen (State.bumpIf_kept.mono (by decide))

/-- What the flit itself does leaves the credits and the replay buffer, and counts no correction. -/
theorem State.flitSorted_sets {s : State} {k : Fin 9} (hk : k.val < s.fab.ports.length) (f : Flit) :
    (∃ p, (s.flitSorted k f).fab.ports = setNth s.fab.ports k.val p ∧ p.credits = (s.port k.val).credits ∧
      p.replay = (s.port k.val).replay) ∧ (s.flitSorted k f).reg (rPort k.val 0x18) = s.reg (rPort k.val 0x18) := by
  have hself := State.ports_self hk
  unfold State.flitSorted
  split
  · split
    · obtain ⟨n, b, i, hp⟩ := State.dataIn_ports f hk
      have h18 : rPort k.val 0x18 ≠ 0x50070 := by
        have := k.isLt
        unfold rPort
        omega
      exact ⟨⟨_, hp, rfl, rfl⟩, s.dataIn_reg k.val f _ h18⟩
    · split
      · exact ⟨⟨_, hself, rfl, rfl⟩, rfl⟩
      · refine ⟨⟨_, s.sendAck_ports k.val true, rfl, rfl⟩, ?_⟩
        rw [State.sendAck_reg, State.reg_bumpIf, if_neg (fun h => rPort_ne (by decide) h.2)]
  · refine ⟨⟨_, (congrArg Fabric.ports (s.bumpIf_fab ..)).trans hself, rfl, rfl⟩, ?_⟩
    rw [State.reg_bumpIf, if_neg (fun h => rPort_ne (by decide) h.2)]

theorem State.flitIn_of_notAdmitted {s : State} {k : Fin 9} (raw : List Byte) (h : (s.port k.val).st ≠ .admitted) : s.flitIn k raw = s := by
  simp [State.flitIn, h]

/-- ACK_SEQ has 12 bits (R277). -/
theorem readFlit_ackSeq_lt {raw : List Byte} {f : Flit} {corrected : Bool} (h : readFlit raw = some (f, corrected)) : f.ackSeq < 4096 := by
  unfold readFlit at h
  split at h
  · cases h
  · split at h
    · cases h
      exact Nat.mod_lt _ (by decide)
    · cases h

/-! ### An admitted port -/

section
variable {s : State} {k : Fin 9} (hs : s.shape) (h : (s.port k.val).st = .admitted)
include h

theorem State.flitIn_of_bad {raw : List Byte} (hr : readFlit raw = none) : s.flitIn k raw = s.flitBad k.val (headerFlit raw).ftype := by
  simp [State.flitIn, h, hr]

theorem State.flitIn_of_good {raw : List Byte} {f : Flit} {corrected : Bool} (hr : readFlit raw = some (f, corrected)) :
    s.flitIn k raw = s.flitGood k f corrected := by
  simp [State.flitIn, h, hr]

theorem State.flitReceive_of_nak_idle {raw : List Byte} {f : Flit} {corrected : Bool} (hr : readFlit raw = some (f, corrected))
    (hn : f.nak = true) (ht : f.ftype = 0) :
    exec (.flitReceive k raw) s =
      exec (.linkNakReceive k (BitVec.ofNat 12 f.ackSeq)) ((s.bumpIf corrected (rPort k.val 0x18)).headerIn k.val f) := by
  have hseq : (BitVec.ofNat 12 f.ackSeq).toNat = f.ackSeq := by
    rw [BitVec.toNat_ofNat]
    exact Nat.mod_eq_of_lt (readFlit_ackSeq_lt hr)
  show Host.Outcome.next (s.flitIn k raw) = .next ((s.heard k f corrected).nakIn k (BitVec.ofNat 12 f.ackSeq).toNat)
  rw [hseq, State.flitIn_of_good h hr, State.flitGood_eq, if_pos hn]
  simp [State.flitSorted, ht, State.bumpIf]

theorem State.flitReceive_of_noNak {raw : List Byte} {f : Flit} {corrected : Bool}
    (hr : readFlit raw = some (f, corrected)) (hn : f.nak = false) :
    exec (.flitReceive k raw) s = .next ((s.heard k f corrected).flitSorted k f) := by
  show Host.Outcome.next (s.flitIn k raw) = _
  rw [State.flitIn_of_good h hr, State.flitGood_eq, if_neg (by simp [hn])]

include hs

theorem does_linkNakReceive (seq : BitVec 12) :
    let p := s.port k.val
    Does (.linkNakReceive k seq) s fun t => t.reg (rPort k.val 0x28) = min (s.reg (rPort k.val 0x28) + 1) 0xFFFFFFFF ∧
      (∀ j, j ≠ k.val → t.port j = s.port j) ∧ (t.port k.val).replay = acked p.replay seq.toNat ∧
      ((p.nakked seq.toNat).naks ≤ 16 → t.port k.val = p.nakked seq.toNat ∧
        t.out = s.out ++ (acked p.replay seq.toNat).map (Out.resend k.val) ∧ Only [.fab, .regs, .out] s t) ∧
      (16 < (p.nakked seq.toNat).naks → bit s.faults.fencePort k.val = false →
        (t.port k.val).st = .retrain ∧ ∃ r ∈ t.faults.runs, r.unit = .port k) := by
  have hk := hs.port_lt k
  obtain ⟨⟨q, hq, hrep⟩, hreg⟩ := State.nakIn_sets hk seq.toNat h
  have hn := s.nakNoted_ports k seq.toNat
  refine ⟨_, rfl, ?_, fun j hj => State.port_other_of_ports hq hk hj, ?_, fun hle => ?_, fun hlt hf => ?_⟩
  · rw [hreg, State.reg_bump, if_pos rfl]
  · rw [State.port_self_of_ports hq hk, hrep]
  · rw [State.nakIn_of_admitted _ h, if_neg (Nat.not_lt.2 hle)]
    have hp := State.port_self_of_ports hn hk
    refine ⟨hp, ?_, (State.resendAll_kept.andThen (State.nakNoted_kept.mono (by decide))).only⟩
    show s.out ++ ((s.nakNoted k seq.toNat).port k.val).replay.map _ = _
    rw [hp]
    rfl
  · rw [State.nakIn_of_admitted _ h, if_pos hlt]
    have hl := State.linkError_ports (s := s.nakNoted k seq.toNat) hf
    exact ⟨congrArg Port.st (State.port_self_of_ports (State.ports_trans hn hl) hk), State.linkError_run hf⟩

theorem does_ackTimer :
    let p := s.port k.val
    Does (.ackTimer k) s fun t => t.port k.val = { p with sinceAck := 0 } ∧ (∀ j, j ≠ k.val → t.port j = s.port j) ∧
      t.out = s.out ++ [.ack k.val ((p.expectSeq + 4095) % 4096) false] ∧ Only [.fab, .out] s t := by
  have hk := hs.port_lt k
  have hp := s.sendAck_ports k.val false
  have hd : s.ackDue k.val = s.sendAck k.val false := by simp [State.ackDue, h]
  refine ⟨s.sendAck k.val false, congrArg Host.Outcome.next hd, ?_, fun j hj => State.port_other_of_ports hp hk hj, s.sendAck_out ..,
    s.sendAck_false_only _⟩
  rw [State.port_self_of_ports hp hk]
  simp only [Port.acking, Bool.or_false]

theorem does_fecAlignmentLoss (lane : Fin 8) (hf : bit s.faults.fencePort k.val = false) :
    Does (.fecAlignmentLoss k lane) s fun t => (t.port k.val).st = .retrain ∧ (t.port k.val).replay = (s.port k.val).replay ∧
      (∀ j, j ≠ k.val → t.port j = s.port j) ∧ (∃ r ∈ t.faults.runs, r.unit = .port k) ∧ Only [.fab, .faults, .out] s t := by
  have hk := hs.port_lt k
  have hp := State.linkError_ports hf
  have ha : s.alignLost k = s.linkError k := by simp [State.alignLost, h]
  refine ⟨s.linkError k, congrArg Host.Outcome.next ha, ?_, ?_, fun j hj => State.port_other_of_ports hp hk hj, State.linkError_run hf,
    State.linkError_kept.only⟩
  · rw [State.port_self_of_ports hp hk]; rfl
  · rw [State.port_self_of_ports hp hk]; rfl

/-! ### A flit that fails its checks -/

theorem does_flitReceive_badData {raw : List Byte} (hr : readFlit raw = none) (ht : (headerFlit raw).ftype = 1) :
    let p := s.port k.val
    Does (.flitReceive k raw) s fun t => t.reg (rPort k.val 0x20) = min (s.reg (rPort k.val 0x20) + 1) 0xFFFFFFFF ∧
      t.reg (rPort k.val 0x28) = min (s.reg (rPort k.val 0x28) + 1) 0xFFFFFFFF ∧
      t.port k.val = { p with sinceAck := 0, nakPending := true } ∧ (∀ j, j ≠ k.val → t.port j = s.port j) ∧
      t.out = s.out ++ [.ack k.val ((p.expectSeq + 4095) % 4096) true] := by
  have hk := hs.port_lt k
  have hb : s.flitIn k raw = (s.bump (rPort k.val 0x20)).sendAck k.val true := by
    rw [State.flitIn_of_bad h hr]
    simp [State.flitBad, ht]
  have hp : ((s.bump (rPort k.val 0x20)).sendAck k.val true).fab.ports = setNth s.fab.ports k.val ((s.port k.val).acking true) :=
    State.sendAck_ports ..
  have hreg : ∀ o, ((s.bump (rPort k.val 0x20)).sendAck k.val true).reg o = ((s.bump (rPort k.val 0x20)).bump (rPort k.val 0x28)).reg o :=
    State.sendAck_reg _ k.val true
  refine ⟨_, congrArg Host.Outcome.next hb, ?_, ?_, ?_, fun j hj => State.port_other_of_ports hp hk hj, State.sendAck_out ..⟩
  · rw [hreg, State.reg_bump, if_neg (rPort_ne (by decide)), State.reg_bump, if_pos rfl]
  · rw [hreg, State.reg_bump, if_pos rfl, State.reg_bump, if_neg (rPort_ne (by decide))]
  · rw [State.port_self_of_ports hp hk]
    simp only [Port.acking, Bool.or_true]

omit hs in
theorem does_flitReceive_badOther {raw : List Byte} (hr : readFlit raw = none) (ht : (headerFlit raw).ftype ≠ 1) :
    Does (.flitReceive k raw) s fun t => t.reg (rPort k.val 0x20) = min (s.reg (rPort k.val 0x20) + 1) 0xFFFFFFFF ∧
      t.reg (rPort k.val 0x30) = (if (headerFlit raw).ftype = 2 then min (s.reg (rPort k.val 0x30) + 1) 0xFFFFFFFF
        else s.reg (rPort k.val 0x30)) ∧ Only [.regs] s t := by
  have hb : s.flitIn k raw = (s.bump (rPort k.val 0x20)).bumpIf ((headerFlit raw).ftype == 2) (rPort k.val 0x30) := by
    rw [State.flitIn_of_bad h hr]
    simp [State.flitBad, ht]
  refine ⟨_, congrArg Host.Outcome.next hb, ?_, ?_, (State.bumpIf_kept.on State.bump_kept).only⟩
  · rw [State.reg_bumpIf, if_neg (fun e => rPort_ne (by decide) e.2), State.reg_bump, if_pos rfl]
  · have h30 : rPort k.val 0x30 ≠ rPort k.val 0x20 := rPort_ne (by decide)
    simp [State.reg_bumpIf, State.reg_bump, h30]

/-! ### A flit that passes them -/

section
variable {raw : List Byte} {f : Flit} {corrected : Bool} (hr : readFlit raw = some (f, corrected))
include hr

/-- Whatever a good flit brings: the other ports stand, and a correction is counted. -/
theorem does_flitReceive_good :
    Does (.flitReceive k raw) s fun t => (∀ j, j ≠ k.val → t.port j = s.port j) ∧
      t.reg (rPort k.val 0x18) = (if corrected then min (s.reg (rPort k.val 0x18) + 1) 0xFFFFFFFF else s.reg (rPort k.val 0x18)) := by
  have hk := hs.port_lt k
  have hh := s.heard_ports k f corrected
  have hhk : k.val < (s.heard k f corrected).fab.ports.length := State.ports_length hh ▸ hk
  have hnak : ∃ p, (if f.nak then (s.heard k f corrected).nakIn k f.ackSeq else s.heard k f corrected).fab.ports =
        setNth (s.heard k f corrected).fab.ports k.val p ∧
      (if f.nak then (s.heard k f corrected).nakIn k f.ackSeq else s.heard k f corrected).reg (rPort k.val 0x18) =
        (s.heard k f corrected).reg (rPort k.val 0x18) := by
    split
    · obtain ⟨⟨p, hp, -⟩, hreg⟩ := State.nakIn_sets hhk f.ackSeq ((congrArg Port.st (State.port_self_of_ports hh hk)).trans h)
      exact ⟨p, hp, by rw [hreg, State.reg_bump, if_neg (rPort_ne (by decide))]⟩
    · exact ⟨_, State.ports_self hhk, rfl⟩
  obtain ⟨p, hp, hreg⟩ := hnak
  have hp := State.ports_trans hh hp
  obtain ⟨⟨q, hq, -, -⟩, hreg'⟩ := State.flitSorted_sets (State.ports_length hp ▸ hk) f
  refine ⟨_, congrArg Host.Outcome.next ((State.flitIn_of_good h hr).trans (s.flitGood_eq k f corrected)),
    fun j hj => State.port_other_of_ports (State.ports_trans hp hq) hk hj, ?_⟩
  rw [hreg', hreg, State.heard_reg]
  simp

theorem does_flitReceive_header (hn : f.nak = false) :
    let p := s.port k.val
    Does (.flitReceive k raw) s fun t => (t.port k.val).credits = modNth p.credits f.credVc (· + f.credCount) ∧
      (t.port k.val).replay = (if f.ackValid then acked p.replay f.ackSeq else p.replay) := by
  have hk := hs.port_lt k
  have hh := s.heard_ports k f corrected
  obtain ⟨⟨q, hq, hcred, hrep⟩, -⟩ := State.flitSorted_sets (State.ports_length hh ▸ hk) f
  rw [State.port_self_of_ports hh hk] at hcred hrep
  refine ⟨_, State.flitReceive_of_noNak h hr hn, ?_, ?_⟩
  · rw [State.port_self_of_ports (State.ports_trans hh hq) hk, hcred]; rfl
  · rw [State.port_self_of_ports (State.ports_trans hh hq) hk, hrep]; rfl

theorem does_flitReceive_inOrder (hn : f.nak = false) (ht : f.ftype = 1) (hseq : f.seq = (s.port k.val).expectSeq) :
    let p := s.port k.val
    Does (.flitReceive k raw) s fun t =>
      (t.port k.val).expectSeq = (p.expectSeq + 1) % 4096 ∧ (t.port k.val).nakPending = false ∧ Only [.regs, .fab, .out] s t := by
  have hk := hs.port_lt k
  have hh := s.heard_ports k f corrected
  have hsort : (s.heard k f corrected).flitSorted k f = (s.heard k f corrected).dataIn k.val f := by
    unfold State.flitSorted
    rw [if_pos ht, if_pos (hseq.trans (congrArg Port.expectSeq (State.port_self_of_ports hh hk)).symm)]
  obtain ⟨n, b, i, hp⟩ := State.dataIn_ports f (State.ports_length hh ▸ hk)
  have hp := State.ports_trans hh hp
  rw [State.port_self_of_ports hh hk] at hp
  refine ⟨_, (State.flitReceive_of_noNak h hr hn).trans (congrArg Host.Outcome.next hsort), ?_, ?_,
    (State.dataIn_kept.andThen (State.heard_kept.mono (by decide))).only⟩
  · rw [State.port_self_of_ports hp hk]; rfl
  · rw [State.port_self_of_ports hp hk]; rfl

theorem does_flitReceive_outOfOrder (hn : f.nak = false) (ht : f.ftype = 1) (hseq : f.seq ≠ (s.port k.val).expectSeq) :
    let p := s.port k.val
    Does (.flitReceive k raw) s fun t => (t.port k.val).expectSeq = p.expectSeq ∧ (t.port k.val).nakPending = true ∧
      t.out = s.out ++ (if p.nakPending then [] else [.ack k.val ((p.expectSeq + 4095) % 4096) true]) ∧
      Only [.regs, .fab, .out] s t := by
  have hk := hs.port_lt k
  have hh := s.heard_ports k f corrected
  have hown := State.port_self_of_ports hh hk
  have hpend : ((s.heard k f corrected).port k.val).nakPending = (s.port k.val).nakPending := by rw [hown]; rfl
  have hexp : ((s.heard k f corrected).port k.val).expectSeq = (s.port k.val).expectSeq := by rw [hown]; rfl
  have hkept : Kept [.regs, .fab, .out] s (s.heard k f corrected) := State.heard_kept.mono (by decide)
  have hsort : (s.heard k f corrected).flitSorted k f =
      if (s.port k.val).nakPending then s.heard k f corrected else (s.heard k f corrected).sendAck k.val true := by
    unfold State.flitSorted
    rw [if_pos ht, if_neg (hexp ▸ hseq), hpend]
  refine ⟨_, (State.flitReceive_of_noNak h hr hn).trans (congrArg Host.Outcome.next hsort), ?_⟩
  cases hpen : (s.port k.val).nakPending with
  | true => exact ⟨hexp, hpend.trans hpen, (s.heard_out ..).trans (List.append_nil _).symm, hkept.only⟩
  | false =>
    have hp := (s.heard k f corrected).sendAck_ports k.val true
    have hq := State.port_self_of_ports hp (State.ports_length hh ▸ hk)
    refine ⟨(congrArg Port.expectSeq hq).trans hexp, (congrArg Port.nakPending hq).trans (Bool.or_true _), ?_,
      (State.sendAck_kept.on hkept).only⟩
    show ((s.heard k f corrected).sendAck k.val true).out = _
    rw [State.sendAck_out, State.heard_out, hexp]
    rfl

omit hs in
theorem does_flitReceive_ordered (hn : f.nak = false) (ht : f.ftype = 2) :
    Does (.flitReceive k raw) s fun t =>
      t.reg (rPort k.val 0x30) = (if osListed f.osKind then s.reg (rPort k.val 0x30) else min (s.reg (rPort k.val 0x30) + 1) 0xFFFFFFFF) ∧
      t.out = s.out ∧ Only [.regs, .fab] s t := by
  have hsort : (s.heard k f corrected).flitSorted k f = (s.heard k f corrected).bumpIf (!(osListed f.osKind)) (rPort k.val 0x30) := by
    simp [State.flitSorted, ht]
  refine ⟨_, (State.flitReceive_of_noNak h hr hn).trans (congrArg Host.Outcome.next hsort), ?_, ?_,
    (State.bumpIf_kept.andThen State.heard_kept).only⟩
  · have h30 : rPort k.val 0x30 ≠ rPort k.val 0x18 := rPort_ne (by decide)
    cases osListed f.osKind <;> simp [State.reg_bumpIf, State.heard_reg, h30]
  · exact (State.bumpIf_out ..).trans (s.heard_out ..)

end
end

/-- Settles O50, command by command: each sets the port that it names. -/
theorem linkLayer : Obligations.LinkLayer := by
  intro s k seq raw lane hs
  refine ⟨fun hst c hc => ?_, fun hst => ⟨does_linkNakReceive hs hst seq, does_ackTimer hs hst, does_fecAlignmentLoss hs hst lane,
    does_flitReceive_badData hs hst, does_flitReceive_badOther hst, fun f corrected hr =>
      ⟨does_flitReceive_good hs hst hr, State.flitReceive_of_nak_idle hst hr, fun hn =>
        ⟨does_flitReceive_header hs hst hr hn, does_flitReceive_inOrder hs hst hr hn, does_flitReceive_outOfOrder hs hst hr hn,
          does_flitReceive_ordered hst hr hn⟩⟩⟩⟩
  simp only [List.mem_cons, List.not_mem_nil, or_false] at hc
  obtain rfl | rfl | rfl | rfl := hc
  · exact congrArg Host.Outcome.next (State.nakIn_of_notAdmitted _ hst)
  · exact congrArg Host.Outcome.next (by simp [State.ackDue, hst])
  · exact congrArg Host.Outcome.next (State.flitIn_of_notAdmitted raw hst)
  · exact congrArg Host.Outcome.next (by simp [State.alignLost, hst])

end Sys2Proof.Machine
end

section
/-! SUPPORT. A store leaves fresh checks beside the bytes (R217), so not the cells of memory alone differ. -/
namespace Sys2Proof.Machine

/-- A byte stored at the start of the common store after reset leaves a check for its tile (R217). -/
theorem reset_storeAt_checks : (State.reset.storeAt (mpaCs 0) [1]).mem.checks.map Prod.fst = [mpaCs 0] := by decide

/-- Refutes O47: its clause on a store in any state says that nothing but the cells of memory differs; a byte stored at the start of the
common store after reset leaves a stored check for its tile too (R217). -/
theorem not_memoryRequests : ¬ Obligations.MemoryRequests := by
  rintro ⟨-, hstore, -⟩
  obtain ⟨m, hm, -⟩ := hstore State.reset (mpaCs 0) [1]
  have hchecks := reset_storeAt_checks
  rw [hm] at hchecks
  cases hchecks

end Sys2Proof.Machine
end

section
/-! SUPPORT. The fence of a rod abandons every run of its beads, each counted (R447). -/
namespace Sys2Proof.Machine

/-- A run of a bead of rod 0 of die 0, detected at beat 0. -/
def rodZeroRun (bead : Fin 16) (run : Nat) (started : Option Nat) : Run :=
  { unit := .bead 0 0 bead, region := 0, run := run, more := false, cls := 0, first := ⟨0, 0⟩, merged := 0, started := started, beat := 0,
    repeated := false, routine := false }

/-- At beat 65,536: an SRAM run (R454) under way on one bead of a rod, and a march queued for another. -/
def rodZeroProving : State :=
  { State.reset with
    time := { State.reset.time with beat := 65536 }
    faults := { State.reset.faults with runs := [rodZeroRun 0 3 (some 0), rodZeroRun 1 1 none] } }

/-- The timeout of the one run also abandons the other: two are counted. -/
theorem rodZeroProving_timeout_reg : (rodZeroProving.watched (·.runTimeout (.bead 0 0 0))).reg 0x60050 = 2 := by decide

/-- Refutes O57: its clause on a timeout counts one abandoned run whatever the unit. Nothing in it keeps a run of number 3 from standing on
a bead, and the fence of a bead's rod abandons the runs of the rod's other beads, each counted too. No detection of the model starts run 3
on a bead; with that as a hypothesis this counterexample is none. -/
theorem not_provingRuns : ¬ Obligations.ProvingRuns := by
  intro h
  obtain ⟨-, -, -, -, htimeout, -⟩ := h rodZeroProving (.bead 0 0 0) false 0 0 0 false State.reset_shape
  obtain ⟨-, hlate⟩ := htimeout (rodZeroRun 0 3 (some 0)) rfl
  obtain ⟨t, ht, -, -, hcount⟩ := hlate (by decide)
  obtain rfl := Host.Outcome.next.inj ht
  rw [rodZeroProving_timeout_reg] at hcount
  exact absurd hcount (by decide)

end Sys2Proof.Machine
end

section
/-! SUPPORT. The count over a tick or several: the slew counter, the correction and the ticks that pass (R41, R57). -/
namespace Sys2Proof.Machine

/-! ### The slew counter -/

theorem slewOver_of_le {k c n : Nat} {r : Int} (hr : r.natAbs = k) (h : c + n ≤ 1023) : slewOver k c r n = (c + n, r, 0) := by
  cases k with
  | zero => simp [slewOver, Nat.mod_eq_of_lt (Nat.lt_succ_of_le h)]
  | succ k => rw [slewOver, if_pos (by omega)]

/-- The count goes on by the ticks that pass before the next marked one. -/
theorem TimeUnit.run_of_le {t : TimeUnit} {n : Nat} (h : t.ctr10 + n ≤ 1023) :
    t.run n = { t with ctr10 := t.ctr10 + n, clk := t.clk + n, tick := t.tick + n } := by
  unfold TimeUnit.run
  rw [slewOver_of_le rfl h]
  rfl

/-- A marked tick without a correction. -/
theorem TimeUnit.run_marked_zero {t : TimeUnit} (h : t.ctr10 = 1023) (hc : t.corr = 0) :
    t.run 1 = { t with ctr10 := 0, clk := t.clk + 1, tick := t.tick + 1 } := by
  have hw : slewOver t.corr.natAbs 1023 t.corr 1 = (0, t.corr, 0) := by rw [hc]; rfl
  unfold TimeUnit.run
  rw [h, hw]
  rfl

/-- A marked tick that a negative correction doubles. -/
theorem TimeUnit.run_marked_neg {t : TimeUnit} (h : t.ctr10 = 1023) (hc : t.corr < 0) :
    t.run 2 = { t with ctr10 := 0, corr := t.corr + 1, clk := t.clk + 2, tick := t.tick + 2 } := by
  obtain ⟨k, hk⟩ : ∃ k, t.corr.natAbs = k + 1 := Nat.exists_eq_succ_of_ne_zero (by omega)
  have hw : slewOver (k + 1) 1023 t.corr 2 = (0, t.corr + 1, 0) := by
    rw [slewOver, if_neg (by decide), if_neg (by omega), if_neg (by decide)]
    exact slewOver_of_le (by omega) (by decide)
  unfold TimeUnit.run
  rw [h, hk, hw]
  rfl

/-! ### An idle tick -/

section
variable {s : State}

theorem State.idle_of_off (h : s.hubRuns = false) : s.idle = s := by simp [State.idle, h]

theorem State.idle_of_held (h : s.hubRuns = true) (hm : s.time.ctr10 = 1023) (hc : 0 < s.time.corr) :
    s.idle = s.setTime { s.time with ctr10 := 0, corr := s.time.corr - 1 } := by
  simp [State.idle, h, hm, hc]

theorem State.idle_of_doubled (h : s.hubRuns = true) (hm : s.time.ctr10 = 1023) (hc : s.time.corr < 0)
    (ht : s.time.tick + 2 < s.beatTicks) : s.idle = (s.setTime (s.time.run 2)).catchUp := by
  have hc' : ¬ 0 < s.time.corr := by omega
  simp [State.idle, h, hm, hc, hc', ht]

theorem State.idle_of_plain (h : s.hubRuns = true) (hm : s.time.ctr10 < 1023 ∨ s.time.corr = 0) :
    s.idle = if s.time.tick + 1 < s.beatTicks then (s.setTime (s.time.run 1)).catchUp else s.watched State.boundary := by
  have hheld : ¬(1023 ≤ s.time.ctr10 ∧ 0 < s.time.corr) := by omega
  have hdoubled : ¬(1023 ≤ s.time.ctr10 ∧ s.time.corr < 0) := by omega
  simp [State.idle, h, hheld, hdoubled]

end

/-- Settles O2: with an empty queue the step is `idle`, by what the slew counter and the correction make of its tick. -/
theorem idleTick : Obligations.IdleTick := by
  intro s hp
  refine ⟨s.idle, step_of_idle hp, State.idle_of_off, fun h => ⟨fun hm ht => ?_, fun hm hc ht => ?_, State.idle_of_held h,
    fun hm hc ht => ?_, fun hm ht => ?_⟩⟩
  · rw [State.idle_of_plain h (.inl hm), if_pos ht, TimeUnit.run_of_le hm]
    rfl
  · rw [State.idle_of_plain h (.inr hc), if_pos ht, TimeUnit.run_marked_zero hm hc]
    rfl
  · rw [State.idle_of_doubled h hm hc ht, TimeUnit.run_marked_neg hm hc]
    rfl
  · rw [State.idle_of_plain h hm, if_neg (Nat.not_lt.2 ht)]

end Sys2Proof.Machine
end

section
/-! SUPPORT. The registers of the time base block (R514, R515). -/
namespace Sys2Proof.Machine

/-! ### The role -/

section
variable (s : State) {v : Nat}

theorem State.writeRole_takeover : (s.writeRole v).time.takeover = none := by
  unfold State.writeRole
  split
  · dsimp only
    split <;> rfl
  · split <;> rfl

theorem State.writeRole_none (h : v % 4 = 0) : (s.writeRole v).time.role = .none ∧ (s.writeRole v).time.st = .unlocked := by
  unfold State.writeRole
  rw [if_pos h]
  exact ⟨rfl, rfl⟩

theorem State.writeRole_slave (h : v % 4 = 1) : (s.writeRole v).time.role = .slave ∧ (s.writeRole v).time.st = .acquire := by
  simp [State.writeRole, h]

theorem State.writeRole_master (h : v % 4 = 2) :
    (s.writeRole v).time.role = .master ∧ (s.writeRole v).time.st = .unlocked ∧
      (s.writeRole v).time.masterStart = some (s.time.clk + 1000) := by
  simp [State.writeRole, h]

end

/-! ### The takeover -/

/-- The value of an accepted whole write is what is written. -/
theorem State.valueOf_whole {s : State} {o off n : Nat} (h : s.accepts ⟨o, off, 8, n, false⟩) (hn : n < 2 ^ 64) :
    s.valueOf ⟨o, off, 8, n, false⟩ = n := by
  obtain ⟨i, hi, -⟩ := s.write_accepted _ Extra.none h
  rw [s.valueOf_eq _ i hi]
  unfold State.produced
  exact (if_pos rfl).trans (Nat.mod_eq_of_lt hn)

/-- An accepted whole write of TAKEOVER with its ACTION and its BEAT. -/
theorem does_takeover {c : Instr} {s : State} {origin : Origin} {action : Nat} {beat : BitVec 48} (ha : action < 4)
    (hc : exec c s = .next (s.takeover origin action beat.toNat))
    (h : s.accepts ⟨origin.code, 0x20020, 8, beat.toNat + action * 2 ^ 48, false⟩) :
    Does c s fun t => t.time = { s.time with takeover := some ⟨decide (action = 1), beat.toNat⟩ } ∧
      Only [.time, .handed, .platform, .out] s t := by
  have hb := beat.isLt
  have hv := State.valueOf_whole h (by omega)
  have haction : bits (beat.toNat + action * 2 ^ 48) 48 2 = action := by unfold bits; omega
  have hbeat : bits (beat.toNat + action * 2 ^ 48) 0 48 = beat.toNat := by unfold bits; omega
  refine does_write 0x20020 hc h (takeover_reg _ _) fun l x e z => ?_
  rw [hv, State.regEffect_takeover]
  refine ⟨?_, only_write (State.writeTakeover_kept.mono (by decide)).only⟩
  simp only [State.telling_time, State.writeTakeover, State.setTime_time, State.holding_time, haction, hbeat]

/-- Settles O12, register by register: the effect of an accepted write, on a state that differs in the records held. -/
theorem timeWrites : Obligations.TimeWrites := by
  refine fun s w origin beat => ⟨fun h => ?_, fun h => ?_, does_takeover (by decide) rfl, does_takeover (by decide) rfl⟩
  · refine does_write 0x20000 rfl h (rowAttempt_reg w _ _ _ rfl) fun l x e z => ?_
    rw [State.regEffect_role]
    exact ⟨(s.holding l x).writeRole_slave, (s.holding l x).writeRole_master, (s.holding l x).writeRole_none,
      (s.holding l x).writeRole_takeover, only_write (State.writeRole_kept.mono (by decide)).only⟩
  · refine does_write 0x20018 rfl h (rowAttempt_reg w _ _ _ rfl) fun l x e z => ?_
    rw [State.regEffect_period]
    refine ⟨rfl, only_write (State.writePeriod_kept.mono (by decide)).only, fun o ho => ?_⟩
    exact ((s.holding l x).reg_setReg _ _ o).trans (if_neg ho)

end Sys2Proof.Machine
end

section
/-! SUPPORT. The close of a collective's window at a doubled tick (R57, R322). -/
namespace Sys2Proof.Machine

/-- An ALL_GATHER of this module alone, its contribution ready, its window open up to tick count 1. -/
def gatherAlone : CollRun :=
  { inst := 0, step := 0, start := 0,
    desc := { index := 0, kind := 2, flowEn := false, flow := 0, n := 1, rank := 0, blocks := 0, members := 0, src := 0, dst := 0,
              notify := 0, nnotify := 0, routeId := 0, agent := 0, data := 0, rowBytes := 64 },
    route := none, openAt := 0, close := 1, slotOpen := 1, slotClose := 2, attempt := 0, ready := true, sent := [], got := [], heads := [],
    reduced := [], judged := false, done := none, failed := false }

/-- At tick count 0 the slew counter marks the next tick, which the correction of −1 doubles. -/
def gatherAtDoubledTick : State :=
  { State.reset with
    time := { State.reset.time with ctr10 := 1023, corr := -1 }
    serve := { State.reset.serve with colls := [gatherAlone] } }

theorem gatherAtDoubledTick_close :
    gatherAtDoubledTick.shape ∧ gatherAtDoubledTick.catchUp.coll 0 0 = some gatherAlone ∧
      gatherAtDoubledTick.catchUp.fallsDue gatherAlone.close = true ∧
      (gatherAtDoubledTick.catchUp.closeWindow 0 0).time.clk = 2 ∧
      max gatherAtDoubledTick.catchUp.time.clk gatherAlone.close = 1 := by
  unfold State.shape
  decide

/-- Refutes O49: its clause on the close of a window has the count stand at the close exactly. A doubled tick (R57) counts two at once and
may pass it: the count then stands one past the close. -/
theorem not_collectives : ¬ Obligations.Collectives := by
  rintro ⟨-, htimes, -⟩
  obtain ⟨hshape, hcoll, hdue, hclk, hmax⟩ := gatherAtDoubledTick_close
  obtain ⟨-, hrun⟩ := htimes gatherAtDoubledTick 0 0 hshape
  obtain ⟨-, -, -, hclose, -⟩ := hrun gatherAlone hcoll
  obtain ⟨t, ht, htime, -⟩ := hclose rfl rfl hdue
  obtain rfl := Host.Outcome.next.inj ht
  exact absurd ((hclk.symm.trans htime).trans hmax) (by decide)

end Sys2Proof.Machine
end

section
/-! SUPPORT. Instances as the list that holds them, and a host command that passes every check before its own rule (R399). -/
namespace Sys2Proof.Machine

/-! ### Instances -/

section
variable {s t : State} {i : Nat} (x : Inst)

theorem State.inst_of_serve (h : t.serve = s.serve) (k : Nat) : t.inst k = s.inst k := by
  unfold State.inst
  rw [h]

theorem State.inst_setInst (h : i < s.serve.insts.length) (k : Nat) : (s.setInst i x).inst k = if k = i then x else s.inst k := by
  unfold State.inst nth
  rw [State.setInst_serve]
  unfold setNth
  by_cases hk : k = i
  · subst hk; simp [h]
  · simp [hk, List.getElem?_set_ne (Ne.symm hk)]

theorem State.inst_setInst_self (h : i < s.serve.insts.length) : (s.setInst i x).inst i = x := by
  rw [State.inst_setInst x h, if_pos rfl]

theorem State.insts_length_setInst : (s.setInst i x).serve.insts.length = s.serve.insts.length := List.length_set ..

/-- The module has sixteen instances (R340). -/
theorem State.shape.inst_lt (h : s.shape) (k : Fin 16) : k.val < s.serve.insts.length := by
  obtain ⟨hi, -, -, -⟩ := h
  rw [hi]
  exact k.isLt

end

/-! ### Commands that run -/

/-- A command that passes the checks of R399 is taken up by its own rule. -/
theorem State.command_of_passes {s : State} {c : Cmd} {h : CmdShape} (hp : s.passes c h) (row : Nat) (act : State → Job → State) :
    s.command row c h act = act (s.consumed c) (s.jobOf row c) := by
  obtain ⟨hfetch, hread, hop, hallow, howner, hformed, hbus, hledger⟩ := hp
  have horigin : (s.jobOf row c).origin = (s.ring c.sq.val).owner := rfl
  have hinst : (s.consumed c).inst c.inst.val = s.inst c.inst.val := rfl
  have hledg : (s.consumed c).ledgerShut = s.ledgerShut := rfl
  have hown : h.names = true → 2 ≤ (s.ring c.sq.val).owner → ¬(s.inst c.inst.val).owner ≠ (s.ring c.sq.val).owner :=
    fun hn h2 hne => hne (howner hn h2)
  have hshut : ¬((h.change = true ∧ s.ledgerShut = true) ∧ fromOutside (s.ring c.sq.val).owner = true) := fun hs =>
    Bool.false_ne_true ((hledger hs.1.1 hs.2).symm.trans hs.1.2)
  simp +contextual [State.command, hfetch, hread, hop, hformed, hbus, hallow, horigin, hinst, hledg, hown, hshut]

theorem State.command_of_runs {s : State} {i : Instr} {j : Job} {op : Nat} {c : Cmd} {h : CmdShape} (hr : s.runs i j)
    (hs : hostShape i = some (op, c, h)) (act : State → Job → State) : s.command op c h act = act (s.consumed c) j := by
  obtain ⟨op', c', h', hs', hp, rfl⟩ := hr
  cases hs.symm.trans hs'
  exact State.command_of_passes hp _ _

/-! ### Loads (R76, R210, R348, R373) -/

section
variable {s : State} {j : Job}

theorem State.configLoad_of_allocated {g : ConfigGen} {loc gen : Nat} {c : Cfg} {got : List (List (Nat × Nat))} {v : State}
    (hp : parseConfig j.cmd.block (s.inst j.cmd.inst.val).tables = some (g, loc, gen))
    (hc : s.serve.cfgs.find? (fun c => c.inst == j.cmd.inst.val && c.loc == loc) = some c) (hd : j.stamp.beat + 2 ≤ field j.cmd.args 0 6)
    (hz : argsZero j.cmd.args 6 38 = true) (hg : c.gens.has gen = false)
    (ha : s.allocateAll j.cmd.inst.val ((List.range 24).map fun k => (k, g.ctxPages k, 4)) [] = (.ok got, v)) :
    s.configLoad j = v.startLoad j c.num (.config c.num { g with pages := got.flatten } gen (field j.cmd.args 0 6)) (leBytes 1 c.num) := by
  simp [State.configLoad, hp, hc, hd, hz, hg, ha]

theorem State.tableLoad_of_schedule {rs : List Rec} {l : Loaded} {v : Sched} {gen : Nat} (hr : recsOf j.cmd.block = some rs)
    (ht : rs.all schedType = true)
    (hl : s.addRecs j.cmd.inst.val (s.inst j.cmd.inst.val).csBase (s.inst j.cmd.inst.val).csArea [] rs Loaded.none = some l)
    (hv : l.schedule (fun n => match s.serve.cfgs.find? (fun c => c.inst == j.cmd.inst.val && c.loc == n) with
      | some c => c.num | none => 64) = some (v, gen))
    (hd : j.stamp.beat + 2 ≤ field j.cmd.args 0 6) (hz : argsZero j.cmd.args 6 38 = true)
    (hg : (s.inst j.cmd.inst.val).sched.has gen = false) (hfree : (s.inst j.cmd.inst.val).state ≠ .free)
    (hcreated : (s.inst j.cmd.inst.val).state ≠ .created) :
    s.tableLoad j = s.startLoad j 0 (.sched v gen (field j.cmd.args 0 6)) (leBytes 4 gen) := by
  unfold State.tableLoad
  simp only [hr, Option.bind_some, ht, if_true, hl]
  split
  · next h => cases hv.symm.trans h
  · next h =>
    cases hv.symm.trans h
    simp [hd, hz, hg, hfree, hcreated]

theorem State.routeLoad_of_fits {t : RouteTable} {gen : Nat} (hp : parseRoute j.cmd.block = some (t, gen))
    (hd : j.stamp.beat + 2 ≤ field j.cmd.args 8 6) (hz : argsZero j.cmd.args 1 7 = true) (hz' : argsZero j.cmd.args 14 30 = true)
    (hf : t.fits (s.inst j.cmd.inst.val).csArea = true)
    (hg : ((s.inst j.cmd.inst.val).route (field j.cmd.args 0 1)).has gen = false)
    (hold : ∀ g, ((s.inst j.cmd.inst.val).route (field j.cmd.args 0 1)).current = some g → t.revises g.val = true) :
    s.routeLoad j = s.startLoad j (field j.cmd.args 0 1) (.route (field j.cmd.args 0 1) t gen (field j.cmd.args 8 6)) [] := by
  unfold State.routeLoad
  cases hcur : ((s.inst j.cmd.inst.val).route (field j.cmd.args 0 1)).current with
  | none => simp [hp, hd, hz, hz', hf, hg, hcur]
  | some g => simp [hp, hd, hz, hz', hf, hg, hcur, hold g hcur]

theorem State.automatonLoad_of_same {v : SamplerRec} {gen : Nat} (hp : parseSampler j.cmd.block = some (v, gen))
    (hz : argsZero j.cmd.args 0 44 = true)
    (hold : ∀ g, (s.inst j.cmd.inst.val).sampler.current = some g → v.sameLayout g.val = true)
    (ha : v.areasOk (s.inst j.cmd.inst.val).pageMap (s.inst j.cmd.inst.val).maxRows = true)
    (hg : (s.inst j.cmd.inst.val).sampler.has gen = false) :
    s.automatonLoad j = s.startLoad j 0 (.sampler v gen) [] := by
  unfold State.automatonLoad
  cases hcur : (s.inst j.cmd.inst.val).sampler.current with
  | none => simp [hp, hz, ha, hg, hcur]
  | some g => simp [hp, hz, ha, hg, hcur, hold g hcur]

theorem State.adapterBind_of_fits {b c : CatEntry} {reads : List Check} (hb : (s.inst j.cmd.inst.val).entry.bind s.entryAt = some b)
    (hc : s.entryOf (field j.cmd.args 4 16) (field j.cmd.args 20 4) = some c) (hslot : field j.cmd.args 0 2 < 1024)
    (hz : argsZero j.cmd.args 2 2 = true) (hz' : argsZero j.cmd.args 24 20 = true) (hstate : c.state = 3) (hkind : c.kind = 1)
    (hbase : c.baseId = b.imageId) (hrank : c.rank ≤ 128) :
    s.adapterBind j reads = s.startLoad j (field j.cmd.args 0 2) (.adapter (field j.cmd.args 0 2) ⟨c.index, []⟩ c.gen reads) [] := by
  simp [State.adapterBind, hb, hc, hslot, hz, hz', hstate, hkind, hbase, hrank]

end

/-! ### A load placed, or left to wait -/

section
variable {s : State} {w : WaitLoad} {v : Sched} {gen due : Nat}

/-- The free slots that a schedule's load takes: its own table's, and its slot tables' ports'. -/
def State.schedRoom (s : State) (k : Nat) (v : Sched) : Bool := (s.inst k).sched.hasRoom && v.slotTables.all s.canSlot

theorem State.load_sched_of_room (hw : w.what = .sched v gen due) (h : s.schedRoom (bits w.object 16 4) v = true) :
    s.load_ w = (v.slotTables.foldl (fun s t => s.loadSlot t (s.dueBeat due)) (s.setInst (bits w.object 16 4)
      { s.inst (bits w.object 16 4) with sched := (s.inst (bits w.object 16 4)).sched.load gen v (s.dueBeat due) })).loadDone w := by
  obtain ⟨hroom, hslots⟩ := Bool.and_eq_true_iff.1 h
  unfold State.load_ State.placeLoad
  simp only [hw, hroom, hslots]
  rfl

theorem State.load_sched_of_full (hw : w.what = .sched v gen due) (h : s.schedRoom (bits w.object 16 4) v = false) :
    s.load_ w = { s with serve := { s.serve with waits := s.serve.waits ++ [w] } } := by
  have hfull : (!(s.inst (bits w.object 16 4)).sched.hasRoom || !(v.slotTables.all s.canSlot)) = true := by
    rw [← Bool.not_and]
    exact (congrArg not h).trans rfl
  unfold State.load_ State.placeLoad
  simp only [hw, hfull, if_true]

theorem State.load_sched_serve (hw : w.what = .sched v gen due) (h : s.schedRoom (bits w.object 16 4) v = true) :
    (s.load_ w).serve = (s.setInst (bits w.object 16 4)
      { s.inst (bits w.object 16 4) with sched := (s.inst (bits w.object 16 4)).sched.load gen v (s.dueBeat due) }).serve := by
  rw [State.load_sched_of_room hw h]
  have hslots := Kept.foldl (ps := [.fab]) (fun s t => State.loadSlot s t (s.dueBeat due)) v.slotTables
    (Kept.refl (s.setInst (bits w.object 16 4)
      { s.inst (bits w.object 16 4) with sched := (s.inst (bits w.object 16 4)).sched.load gen v (s.dueBeat due) }))
    fun y t => State.loadSlot_kept
  exact (State.loadDone_kept.same .serve (by decide)).trans (hslots.same .serve (by decide))

end

/-! ### An adapter unbound (R271) -/

section
variable {s : State} {i : Nat}

theorem State.freePoolPages_adapters (h : i < s.serve.insts.length) (ps : List (Nat × Nat)) :
    ((s.freePoolPages i ps).inst i).adapters = (s.inst i).adapters := by
  unfold State.freePoolPages
  dsimp only
  rw [State.inst_of_serve (State.setMem_serve ..), State.inst_setInst_self _ h]

theorem State.dropAdapter_adapters (h : i < s.serve.insts.length) (a : Adapter) :
    ((s.dropAdapter i a).inst i).adapters = (s.inst i).adapters := by
  unfold State.dropAdapter
  dsimp only
  rw [State.inst_of_serve (State.bind_kept.same .serve (by decide)), State.freePoolPages_adapters (h.trans_eq (State.insts_length_setInst _).symm),
    State.inst_setInst_self _ h]

theorem State.dropAdapter_insts (a : Adapter) : (s.dropAdapter i a).serve.insts.length = s.serve.insts.length := by
  unfold State.dropAdapter
  dsimp only
  rw [State.bind_kept.same .serve (by decide)]
  exact (List.length_set ..).trans (List.length_set ..)

theorem State.setAdapter_adapter (h : i < s.serve.insts.length) (slot : Nat) (t : GenTable Adapter) :
    ((s.setAdapter i slot t).inst i).adapter slot = t := by
  have hdrop : ∀ (gs : List (GenSlot Adapter)) (y : State), i < y.serve.insts.length →
      ((gs.foldl (fun s g => s.dropAdapter i g.val) y).inst i).adapters = (y.inst i).adapters := by
    intro gs
    induction gs with
    | nil => exact fun y _ => rfl
    | cons g gs ih => exact fun y hy => (ih _ (hy.trans_eq (State.dropAdapter_insts g.val).symm)).trans (State.dropAdapter_adapters hy g.val)
  unfold State.setAdapter Inst.adapter
  dsimp only
  rw [hdrop _ _ (h.trans_eq (State.insts_length_setInst _).symm), State.inst_setInst_self _ h, findKey_putKey, if_pos rfl]
  rfl

end

theorem State.adapterUnbind_adapter {s : State} {j : Job} (hs : s.shape) (hslot : field j.cmd.args 0 2 < 1024)
    (hz : argsZero j.cmd.args 2 42 = true) :
    ((s.adapterUnbind j).inst j.cmd.inst.val).adapter (field j.cmd.args 0 2) =
      ((s.inst j.cmd.inst.val).adapter (field j.cmd.args 0 2)).unbind s.time.beat := by
  have hif : (Decidable.decide (field j.cmd.args 0 2 ≥ 1024) || !(argsZero j.cmd.args 2 42)) = false := by simp [hslot, hz]
  unfold State.adapterUnbind
  dsimp only
  rw [hif, if_neg Bool.false_ne_true, State.inst_of_serve
    ((State.genRecord_kept.same .serve (by decide)).trans (State.accept_kept.same .serve (by decide)))]
  exact State.setAdapter_adapter (hs.inst_lt _) _ _

/-- Settles O42, command by command: each that passes every check starts its load, and a schedule's load looks at the free slots. -/
theorem generationLoads : Obligations.GenerationLoads := by
  intro s j
  refine ⟨fun g loc gen c got v hr hp hc hd hz hg ha => ?_, fun rs l v gen hr hrs ht hl hv hd hz hg hf hc => ?_,
    fun t gen hr hp hd hz hz' hf hg hold => ?_, fun v gen hr hp hz hold ha hg => ?_,
    fun b c reads hr hb hc hslot hz hz' hstate hkind hbase hrank => ?_, fun hr hslot hz hs => ?_, fun w v gen due hw hs => ⟨fun h => ?_, ?_⟩⟩
  · exact congrArg Host.Outcome.next ((State.command_of_runs hr rfl _).trans (State.configLoad_of_allocated hp hc hd hz hg ha))
  · exact congrArg Host.Outcome.next ((State.command_of_runs hr rfl _).trans (State.tableLoad_of_schedule hrs ht hl hv hd hz hg hf hc))
  · exact congrArg Host.Outcome.next ((State.command_of_runs hr rfl _).trans (State.routeLoad_of_fits hp hd hz hz' hf hg hold))
  · exact congrArg Host.Outcome.next ((State.command_of_runs hr rfl _).trans (State.automatonLoad_of_same hp hz hold ha hg))
  · exact congrArg Host.Outcome.next
      ((State.command_of_runs hr rfl _).trans (State.adapterBind_of_fits hb hc hslot hz hz' hstate hkind hbase hrank))
  · exact ⟨_, congrArg Host.Outcome.next (State.command_of_runs hr rfl _),
      State.adapterUnbind_adapter (s := s.consumed j.cmd) (State.consumed_kept.shape hs) hslot hz⟩
  · have hk : bits w.object 16 4 < s.serve.insts.length := hs.inst_lt ⟨_, Nat.mod_lt _ (by decide)⟩
    have hserve := State.load_sched_serve hw h
    refine ⟨?_, (congrArg Serve.waits hserve).trans rfl⟩
    rw [State.inst_of_serve hserve, State.inst_setInst_self _ hk]
  · exact State.load_sched_of_full hw

end Sys2Proof.Machine
end

section
/-! SUPPORT. What raising an event leaves: every counter but that of the events which no EQ takes (R404), and the markers sent. -/
namespace Sys2Proof.Machine

theorem State.reg_of_regs {s t : State} (h : t.regs = s.regs) (o : Nat) : t.reg o = s.reg o := by
  unfold State.reg
  rw [h]

/-- From `s` to `t` no register has changed but the count of events that no EQ takes, and no marker was sent. -/
structure EventOnly (s t : State) : Prop where
  reg    : ∀ o, o ≠ 0xC0820 → t.reg o = s.reg o
  marker : ∀ k b, Out.marker k b ∈ t.out → Out.marker k b ∈ s.out

theorem EventOnly.refl (s : State) : EventOnly s s := ⟨fun _ _ => rfl, fun _ _ => id⟩

/-- A step from `t` to `u` after what led to `t`. -/
theorem EventOnly.on {s t u : State} (b : EventOnly t u) (a : EventOnly s t) : EventOnly s u :=
  ⟨fun o h => (b.reg o h).trans (a.reg o h), fun k m h => a.marker k m (b.marker k m h)⟩

theorem EventOnly.ite {s a b : State} {c : Prop} [Decidable c] (ha : EventOnly s a) (hb : EventOnly s b) :
    EventOnly s (if c then a else b) := by
  split <;> assumption

theorem EventOnly.of_eq {s t : State} (hr : t.regs = s.regs) (ho : t.out = s.out) : EventOnly s t :=
  ⟨fun o _ => State.reg_of_regs hr o, fun _ _ h => ho ▸ h⟩

theorem EventOnly.emit (s : State) {x : Out} (hx : ∀ k b, Out.marker k b ≠ x) : EventOnly s (s.emit x) := by
  refine ⟨fun o _ => rfl, fun k b h => ?_⟩
  rcases List.mem_append.1 h with h | h
  · exact h
  · exact absurd (List.mem_singleton.1 h) (hx k b)

theorem State.bump_eventOnly (s : State) : EventOnly s (s.bump 0xC0820) :=
  ⟨fun o h => (s.reg_bump _ o).trans (if_neg h), fun _ _ => id⟩

theorem State.setRing_eventOnly (s : State) (x : Ring) : EventOnly s (s.setRing x) := .of_eq rfl rfl

theorem State.msix_eventOnly (s : State) (f vector : Nat) : EventOnly s (s.msix f vector) :=
  .ite (.refl s) (.ite (.of_eq rfl rfl) (.emit s fun _ _ => nofun))

theorem State.produce_eventOnly (s : State) (r : Nat) : EventOnly s (s.produce r) :=
  .ite (.ite ((State.msix_eventOnly _ _ _).on (s.setRing_eventOnly _)) (s.setRing_eventOnly _)) (s.setRing_eventOnly _)

/-- One part of an event written to a ring, with the events lost before it. -/
def eqPart (r : Nat) (a : State × Nat) (p : Event × Nat) : State × Nat :=
  ((a.1.emit (.eq r (a.1.ring r).phase p.2 a.2 p.1)).produce r, 0)

theorem eqParts_eventOnly (r : Nat) (l : List (Event × Nat)) (a : State × Nat) : EventOnly a.1 (l.foldl (eqPart r) a).1 := by
  induction l generalizing a with
  | nil => exact .refl a.1
  | cons p l ih => exact (ih (eqPart r a p)).on ((State.produce_eventOnly _ r).on (.emit a.1 fun _ _ => nofun))

theorem State.eqOne_eventOnly (s : State) (r : Nat) (parts : List Event) : EventOnly s (s.eqOne r parts) :=
  .ite ((eqParts_eventOnly r _ _).on (s.setRing_eventOnly _)) ((State.bump_eventOnly _).on (s.setRing_eventOnly _))

theorem State.raiseTo_eventOnly (s : State) (sees : Nat → Bool) (parts : List Event) : EventOnly s (s.raiseTo sees parts) := by
  have hrings : ∀ (rs : List Nat) (y : State), EventOnly y (rs.foldl (fun s r => s.eqOne r parts) y) := by
    intro rs
    induction rs with
    | nil => exact fun y => .refl y
    | cons r rs ih => exact fun y => (ih _).on (y.eqOne_eventOnly r parts)
  unfold State.raiseTo
  split
  · exact .refl s
  · split
    · exact s.bump_eventOnly
    · exact hrings _ s

theorem State.event_eventOnly (s : State) (type status loc : Nat) (detail : List Byte) : EventOnly s (s.event type status loc detail) :=
  s.raiseTo_eventOnly _ _

theorem State.alert_eventOnly (s : State) (code : Nat) : EventOnly s (s.alert code) := .emit s fun _ _ => nofun

theorem State.setTime_eventOnly (s : State) (x : TimeUnit) : EventOnly s (s.setTime x) := .of_eq rfl rfl

/-! ### Lock loss (R60) -/

/-- Lock loss before its event: slot traffic stops, it is counted, and the running steps fail. -/
def State.lockLost (s : State) : State := (s.stopSlots.bump rLockLoss).failSteps (fun _ => true) stBEAT_LOST

section
variable (s : State) (cause : Nat)

theorem State.lockLoss_serve : (s.lockLoss cause).serve = s.lockLost.serve :=
  (State.event_kept.same .serve (by decide)).trans (State.timeRecord_kept.same .serve (by decide))

theorem State.lockLoss_eventOnly : EventOnly s.lockLost (s.lockLoss cause) := by
  have hrecord : EventOnly s.lockLost (s.lockLost.timeRecord 4) :=
    .of_eq (State.timeRecord_kept.same .regs (by decide)) (State.timeRecord_kept.same .out (by decide))
  show EventOnly s.lockLost ((((s.lockLost.timeRecord 4).event 0x13 0 locNone (leBytes 1 cause)).alert 0x13).setTime _)
  exact (State.setTime_eventOnly _ _).on ((State.alert_eventOnly _ _).on ((State.event_eventOnly ..).on hrecord))

theorem State.lockLoss_reg {o : Nat} (h : o ≠ 0xC0820) : (s.lockLoss cause).reg o = (s.bump rLockLoss).reg o :=
  (s.lockLoss_eventOnly cause).reg o h

theorem State.lockLoss_count : (s.lockLoss cause).reg rLockLoss = min (s.reg rLockLoss + 1) 0xFFFFFFFF := by
  rw [State.lockLoss_reg _ _ (by decide), State.reg_bump, if_pos rfl]

theorem State.lockLoss_marker {k : Nat} {b : Marker} (h : Out.marker k b ∈ (s.lockLoss cause).out) : Out.marker k b ∈ s.out :=
  (s.lockLoss_eventOnly cause).marker k b h

/-- Every running step has failed. -/
theorem State.lockLoss_steps : ∀ r ∈ (s.lockLoss cause).serve.steps, r.fail.isSome := by
  rw [State.lockLoss_serve]
  intro r hr
  obtain ⟨x, -, rfl⟩ := List.mem_map.1 hr
  cases hx : x.fail <;> simp [hx]

end

end Sys2Proof.Machine
end

section
/-! SUPPORT. Ticks in which no entry fires and nothing waits for a slot (R70, R75). -/
namespace Sys2Proof.Machine

theorem State.drainSlots_of_none {s : State} (h : s.fab.slotOut = []) (n : Nat) : s.drainSlots n = s := by
  have hfab : ({ s.fab with slotOut := [] } : Fabric) = s.fab := by rw [← h]
  unfold State.drainSlots
  split
  · rfl
  · simp only [h, List.filter_nil, List.foldl_nil, hfab]
    rfl

theorem State.entriesIn_eq_nil {s : State} {p : Nat → SchedEntry → Bool} :
    s.entriesIn p = [] ↔ ∀ i < 16, ∀ e ∈ s.unfired i, p i e = false := by
  unfold State.entriesIn
  rw [List.eq_nil_iff_length_eq_zero, (sortOn_perm _ _).length_eq, ← List.eq_nil_iff_length_eq_zero]
  simp

/-- What is still to fire does not hang on the count. -/
theorem State.unfired_setTime {s : State} {x : TimeUnit} (hst : x.st = s.time.st) (hbeat : x.beat = s.time.beat)
    (hperiod : x.period = s.time.period) (i : Nat) : (s.setTime x).unfired i = s.unfired i := by
  unfold State.unfired State.instRuns State.mayRun State.beatLocked
  simp only [State.setTime_time, State.setTime_fab, hst, hbeat, hperiod]
  rfl

/-- A count that goes on to a tick up to which nothing fires. -/
theorem State.catchUp_of_none {s : State} {x : TimeUnit} {n : Nat} (hslot : s.fab.slotOut = [])
    (hnone : s.entriesIn (fun _ e => e.tick ≤ n) = []) (hst : x.st = s.time.st) (hbeat : x.beat = s.time.beat)
    (hperiod : x.period = s.time.period) (hn : x.tick ≤ n) : (s.setTime x).catchUp = s.setTime x := by
  have hx : (s.setTime x).entriesIn (fun _ e => e.tick ≤ x.tick) = [] := by
    rw [State.entriesIn_eq_nil] at hnone ⊢
    intro i hi e he
    rw [State.unfired_setTime hst hbeat hperiod] at he
    have := hnone i hi e he
    simp only [decide_eq_false_iff_not] at this ⊢
    omega
  unfold State.catchUp
  rw [State.setTime_time, hx]
  exact State.drainSlots_of_none (s := s.setTime x) hslot _

end Sys2Proof.Machine
end

section
/-! SUPPORT. The slew at a marked tick (R57). -/
namespace Sys2Proof.Machine

theorem State.slew_of_off {s : State} (h : s.hubRuns = false) : s.slew = s := by simp [State.slew, h]

/-- The slew where the marked tick lies in the running beat: the ticks before it pass, then comes an idle tick. -/
theorem State.slew_of_inBeat {s : State} {k : Nat} (h : s.hubRuns = true) (hk : s.time.ctr10 + k = 1023)
    (ht : s.time.tick + k < s.beatTicks) : s.slew = ((s.setTime (s.time.run k)).catchUp).idle := by
  obtain rfl : k = 1023 - s.time.ctr10 := by omega
  simp [State.slew, h, ht]

/-- How far the count goes on at a marked tick: held, doubled, or by one. -/
def TimeUnit.markedTicks (t : TimeUnit) : Nat := if 0 < t.corr then 0 else if t.corr < 0 then 2 else 1

/-- The time unit past a marked tick. -/
def TimeUnit.marked (t : TimeUnit) : TimeUnit :=
  { t with ctr10 := 0, corr := t.corr - t.corr.sign, clk := t.clk + t.markedTicks, tick := t.tick + t.markedTicks }

theorem TimeUnit.run_doubled {t : TimeUnit} (hm : t.ctr10 = 1023) (hc : t.corr < 0) : t.run 2 = t.marked := by
  rw [TimeUnit.run_marked_neg hm hc]
  simp [TimeUnit.marked, TimeUnit.markedTicks, hc, Int.sign_eq_neg_one_of_neg hc, Int.not_lt.2 hc.le]

theorem TimeUnit.run_uncorrected {t : TimeUnit} (hm : t.ctr10 = 1023) (hc : t.corr = 0) : t.run 1 = t.marked := by
  rw [TimeUnit.run_marked_zero hm hc]
  simp [TimeUnit.marked, TimeUnit.markedTicks, hc]

theorem TimeUnit.marked_tick_le (t : TimeUnit) : t.marked.tick ≤ t.tick + 2 := by
  refine Nat.add_le_add_left ?_ t.tick
  unfold TimeUnit.markedTicks
  split
  · decide
  · split <;> decide

/-- A marked tick within the beat at which nothing fires. -/
theorem State.idle_of_marked {s : State} (h : s.hubRuns = true) (hm : s.time.ctr10 = 1023) (ht : s.time.tick + 2 < s.beatTicks)
    (hslot : s.fab.slotOut = []) (hnone : s.entriesIn (fun _ e => e.tick ≤ s.time.tick + 2) = []) : s.idle = s.setTime s.time.marked := by
  have hcatch : (s.setTime s.time.marked).catchUp = s.setTime s.time.marked :=
    State.catchUp_of_none hslot hnone rfl rfl rfl s.time.marked_tick_le
  rcases lt_trichotomy s.time.corr 0 with hc | hc | hc
  · rw [State.idle_of_doubled h hm hc ht, TimeUnit.run_doubled hm hc, hcatch]
  · rw [State.idle_of_plain h (.inr hc), if_pos (by omega), TimeUnit.run_uncorrected hm hc, hcatch]
  · rw [State.idle_of_held h hm hc]
    simp [TimeUnit.marked, TimeUnit.markedTicks, hc, Int.sign_eq_one_of_pos hc]

/-- The slew to a marked tick within the beat, with nothing that fires on the way. -/
theorem State.slew_eq {s : State} {k : Nat} (h : s.hubRuns = true) (hk : s.time.ctr10 + k = 1023)
    (ht : s.time.tick + k + 2 < s.beatTicks) (hslot : s.fab.slotOut = [])
    (hnone : s.entriesIn (fun _ e => e.tick ≤ s.time.tick + k + 2) = []) : s.slew = s.setTime (s.time.run k).marked := by
  have hrun := TimeUnit.run_of_le hk.le
  have htick : (s.time.run k).tick = s.time.tick + k := congrArg TimeUnit.tick hrun
  have hctr : (s.time.run k).ctr10 = 1023 := (congrArg TimeUnit.ctr10 hrun).trans hk
  have hcatch : (s.setTime (s.time.run k)).catchUp = s.setTime (s.time.run k) :=
    State.catchUp_of_none hslot hnone rfl rfl rfl (by omega)
  have hnone' : (s.setTime (s.time.run k)).entriesIn (fun _ e => e.tick ≤ (s.time.run k).tick + 2) = [] := by
    rw [State.entriesIn_eq_nil] at hnone ⊢
    intro i hi e he
    rw [State.unfired_setTime (s := s) (x := s.time.run k) rfl rfl rfl] at he
    rw [htick]
    exact hnone i hi e he
  rw [State.slew_of_inBeat h hk (by omega), hcatch]
  exact State.idle_of_marked (s := s.setTime (s.time.run k)) h hctr (by rw [State.setTime_time, htick]; exact ht) hslot hnone'

theorem does_slewTick {s : State} {k : Nat} (h : s.hubRuns = true) (hk : s.time.ctr10 + k = 1023)
    (ht : s.time.tick + k + 2 < s.beatTicks) (hslot : s.fab.slotOut = [])
    (hnone : s.entriesIn (fun _ e => e.tick ≤ s.time.tick + k + 2) = []) :
    Does .slewTick s fun t => Only [.time] s t ∧ t.time.ctr10 = 0 ∧ t.time.tick - s.time.tick = t.time.clk - s.time.clk ∧
      (0 < s.time.corr → t.time.corr = s.time.corr - 1 ∧ t.time.clk = s.time.clk + k) ∧
      (s.time.corr < 0 → t.time.corr = s.time.corr + 1 ∧ t.time.clk = s.time.clk + k + 2) ∧
      (s.time.corr = 0 → t.time.corr = 0 ∧ t.time.clk = s.time.clk + k + 1) := by
  refine ⟨_, congrArg Host.Outcome.next (State.slew_eq h hk ht hslot hnone), State.setTime_kept.only, rfl, ?_⟩
  rw [TimeUnit.run_of_le hk.le]
  simp only [State.setTime_time, TimeUnit.marked, TimeUnit.markedTicks]
  refine ⟨by omega, fun hc => ?_, fun hc => ?_, fun hc => ?_⟩
  · simp [hc, Int.sign_eq_one_of_pos hc]
  · simp [hc, Int.sign_eq_neg_one_of_neg hc, Int.not_lt.2 hc.le]
  · simp [hc]

end Sys2Proof.Machine
end

section
/-! SUPPORT. Markers: the master's first beat, what an accepted marker does, the decision of a beat (R50 to R60). -/
namespace Sys2Proof.Machine

/-! ### The master's first beat (R51, R515) -/

theorem State.startMaster_of_idle {s : State}
    (h : s.time.masterStart = none ∨ ∃ due, s.time.masterStart = some due ∧ s.fallsDue due = false) : s.startMaster = s := by
  obtain hm | ⟨due, hm, hd⟩ := h
  · simp [State.startMaster, hm]
  · simp [State.startMaster, State.atTimer, hm, hd]

/-- The count as the master's first beat begins. -/
def State.firstBeat (s : State) (due : Nat) : State :=
  (s.runTo due).setTime { (s.runTo due).time with
    masterStart := none, beat := bits (s.reg 0x20008) 0 48, tick := 0, good := 0, bad := 0, holdover := 0, corr := 0, phaseErr := 0 }

/-- The master runs from its first beat on. -/
def State.masterRuns (s : State) (due : Nat) : State :=
  ((s.firstBeat due).setTime { (s.firstBeat due).time with
    epoch := ((s.firstBeat due).time.epoch + 1) % 2 ^ 16, st := .locked, acquired := true }).firesFrom 0

section
variable {s : State} {due : Nat}

theorem State.runTo_regs : (s.runTo due).regs = s.regs := State.runTo_kept.same .regs (by decide)

theorem State.runTo_epoch : (s.runTo due).time.epoch = s.time.epoch := by
  unfold State.runTo
  split <;> rfl

theorem State.firstBeat_kept : Kept [.time] s (s.firstBeat due) := State.setTime_kept.on State.runTo_kept

theorem State.startMaster_of_due (hm : s.time.masterStart = some due) (hd : s.fallsDue due = true) :
    s.startMaster = if bits (s.reg 0x20008) 0 48 = lastBeat then (s.firstBeat due).lockLoss 5 else (s.masterRuns due).sendMarkers := by
  have hreg : (s.runTo due).reg 0x20008 = s.reg 0x20008 := State.reg_of_regs State.runTo_regs _
  unfold State.startMaster State.atTimer
  simp only [hm, hd, hreg, if_true]
  rfl

/-- What a master sends on every admitted port. -/
theorem State.sendMarkers_out (s : State) : s.sendMarkers.out = s.out ++ s.admittedPorts.map fun k => Out.marker k s.marker := rfl

theorem does_masterStart (hm : s.time.masterStart = some due) (hd : s.fallsDue due = true)
    (hb : bits (s.reg 0x20008) 0 48 ≠ 0xFFFFFFFFFFFF) :
    Does .masterStart s fun t =>
      t.time.beat = bits (s.reg 0x20008) 0 48 ∧ t.time.tick = 0 ∧ t.time.epoch = (s.time.epoch + 1) % 65536 ∧ t.time.st = .locked ∧
      t.time.clk = (s.runTo due).time.clk ∧ t.time.masterStart = none ∧ Only [.time, .serve, .out] s t ∧
      ∃ b : Marker, b.beat.toNat = bits (s.reg 0x20008) 0 48 ∧ b.correction = 0 ∧
        t.out = s.out ++ s.admittedPorts.map fun k => Out.marker k b := by
  have hlt : bits (s.reg 0x20008) 0 48 < 2 ^ 48 := Nat.mod_lt _ (by decide)
  have hfab : (s.runTo due).fab = s.fab := State.runTo_kept.same .fab (by decide)
  have hout : (s.runTo due).out = s.out := State.runTo_kept.same .out (by decide)
  refine ⟨_, congrArg Host.Outcome.next ((State.startMaster_of_due hm hd).trans (if_neg hb)), rfl, rfl, ?_, rfl, rfl, rfl, ?_, ?_⟩
  · exact congrArg (fun e => (e + 1) % 65536) State.runTo_epoch
  · exact (State.emits_kept.andThen (State.firesFrom_kept.andThen (State.setTime_kept.andThen (State.firstBeat_kept.mono (by decide))))).only
  · refine ⟨(s.masterRuns due).marker, Nat.mod_eq_of_lt hlt, rfl, (State.sendMarkers_out _).trans ?_⟩
    show (s.runTo due).out ++ (List.filter (fun k => (nth Port.reset (s.runTo due).fab.ports k).st == .admitted) _).map _ = _
    rw [hout, hfab]
    rfl

theorem does_masterStart_last (hm : s.time.masterStart = some due) (hd : s.fallsDue due = true)
    (hb : bits (s.reg 0x20008) 0 48 = 0xFFFFFFFFFFFF) :
    Does .masterStart s fun t => t.time.st = .unlocked ∧ t.reg 0x20048 = min (s.reg 0x20048 + 1) 0xFFFFFFFF ∧
      ∀ k b, Out.marker k b ∈ t.out → Out.marker k b ∈ s.out := by
  have hreg : (s.firstBeat due).regs = s.regs := State.firstBeat_kept.same .regs (by decide)
  have hout : (s.firstBeat due).out = s.out := State.firstBeat_kept.same .out (by decide)
  refine ⟨_, congrArg Host.Outcome.next ((State.startMaster_of_due hm hd).trans (if_pos hb)), rfl, ?_, fun k b h => ?_⟩
  · rw [← State.reg_of_regs hreg]
    exact State.lockLoss_count _ _
  · exact hout ▸ State.lockLoss_marker _ _ h

end

/-! ### An accepted marker (R50, R53, R56, R58) -/

section
variable {s : State} {k : Nat} {m : Marker}

theorem State.markerIn_of_notAdmitted (h : (s.port k).st ≠ .admitted) : s.markerIn k m = s := by simp [State.markerIn, h]

theorem State.markerIn_of_badPeriod (h : (s.port k).st = .admitted) (hp : m.period.toNat < 16 ∨ 2000 < m.period.toNat) :
    s.markerIn k m = s.bump 0x20050 := by
  have hp' : (Decidable.decide (m.period.toNat < 16) || Decidable.decide (m.period.toNat > 2000)) = true := by simpa using hp
  unfold State.markerIn
  rw [hp']
  simp only [h]
  rfl

/-- Only the list of markers received may differ. -/
theorem State.noteMarker_eq (s : State) (m : Marker) : ∃ l, s.noteMarker m = s.setTime { s.time with seen := l } := by
  unfold State.noteMarker
  dsimp only
  split
  · exact ⟨s.time.seen, rfl⟩
  · exact ⟨_, rfl⟩

section
variable (h : (s.port k).st = .admitted) (hlo : 16 ≤ m.period.toNat) (hhi : m.period.toNat ≤ 2000)
include h hlo hhi

theorem State.markerIn_of_clash (hc : ∃ p ∈ s.time.seen, p.1 = m.beat.toNat ∧ p.2 ≠ m.master.toNat) :
    s.markerIn k m = s.masterConflict := by
  have hclash : s.time.clashes m = true := by simpa [TimeUnit.clashes] using hc
  simp [State.markerIn, h, Nat.not_lt.2 hlo, Nat.not_lt.2 hhi, hclash]

section
variable (hrole : s.time.role = .slave) (hseen : ∀ p ∈ s.time.seen, p.1 = m.beat.toNat → p.2 = m.master.toNat)
include hrole hseen

/-- A marker that a slave takes up: noted, then used by the state of the time unit. -/
theorem State.markerIn_of_slave :
    ∃ l, s.markerIn k m =
      if s.time.st == .unlocked || !s.time.acquired then (s.setTime { s.time with seen := l }).acquire (s.port k).linkDelay m
      else match s.time.arrival m with
        | none => ((s.setTime { s.time with seen := l }).bump rMarkerDiscard).setTime { s.time with seen := l, discarded := true }
        | some a => s.setTime { s.time with seen := l, heard := s.time.heard ++ [⟨k, m, a⟩] } := by
  have hclash : s.time.clashes m = false := by simpa [TimeUnit.clashes] using hseen
  obtain ⟨l, hl⟩ := s.noteMarker_eq m
  refine ⟨l, ?_⟩
  simp only [State.markerIn, h, Nat.not_lt.2 hlo, Nat.not_lt.2 hhi, hclash, hl, State.setTime_time, hrole]
  rfl

omit h in
theorem does_markerAccept_acquires {k : Fin 9} (h : (s.port k.val).st = .admitted) (hst : s.time.st = .unlocked ∨ s.time.acquired = false) :
    Does (.markerAccept k m) s fun t =>
      let a := (s.port k.val).linkDelay + (m.correction.toNat + 8) / 16
      t.time.st = .acquire ∧ t.time.acquired = true ∧ t.time.period = m.period.toNat ∧ t.time.epoch = m.epoch.toNat ∧
      t.time.master = m.master.toNat ∧ t.time.beat * (m.period.toNat * 1000) + t.time.tick = m.beat.toNat * (m.period.toNat * 1000) + a ∧
      t.time.tick < m.period.toNat * 1000 ∧ Only [.time] s t := by
  have hif : (s.time.st == .unlocked || !s.time.acquired) = true := by simpa using hst
  obtain ⟨l, hl⟩ := State.markerIn_of_slave h hlo hhi hrole hseen
  rw [hif, if_pos rfl] at hl
  refine ⟨_, congrArg Host.Outcome.next hl, rfl, rfl, rfl, rfl, rfl, ?_, Nat.mod_lt _ (by omega),
    (State.acquire_kept.on State.setTime_kept).only⟩
  show (m.beat.toNat + _ / _) * _ + _ % _ = _
  rw [Nat.add_mul, Nat.add_assoc, Nat.div_add_mod']

section
variable (hst : s.time.st ≠ .unlocked) (hacq : s.time.acquired = true)
include hst hacq

omit h in
theorem does_markerAccept_inSequence {k : Fin 9} {a : Int} (h : (s.port k.val).st = .admitted) (ha : s.time.arrival m = some a) :
    Does (.markerAccept k m) s fun t =>
      t.time.heard = s.time.heard ++ [⟨k.val, m, a⟩] ∧ t.time.st = s.time.st ∧ Only [.time] s t := by
  have hif : (s.time.st == .unlocked || !s.time.acquired) = false := by simp [hst, hacq]
  obtain ⟨l, hl⟩ := State.markerIn_of_slave h hlo hhi hrole hseen
  rw [hif, if_neg Bool.false_ne_true, ha] at hl
  exact ⟨_, congrArg Host.Outcome.next hl, rfl, rfl, State.setTime_kept.only⟩

omit h in
theorem does_markerAccept_outOfSequence {k : Fin 9} (h : (s.port k.val).st = .admitted) (ha : s.time.arrival m = none) :
    Does (.markerAccept k m) s fun t =>
      t.time.heard = s.time.heard ∧ t.time.discarded = true ∧ t.reg 0x20050 = min (s.reg 0x20050 + 1) 0xFFFFFFFF ∧
      Only [.time, .regs] s t := by
  have hif : (s.time.st == .unlocked || !s.time.acquired) = false := by simp [hst, hacq]
  obtain ⟨l, hl⟩ := State.markerIn_of_slave h hlo hhi hrole hseen
  rw [hif, if_neg Bool.false_ne_true, ha] at hl
  refine ⟨_, congrArg Host.Outcome.next hl, rfl, rfl, ?_, ?_⟩
  · exact (State.reg_bump _ _ _).trans (if_pos rfl)
  · exact (State.setTime_kept.andThen (State.bump_kept.andThen (State.setTime_kept.mono (by decide)))).only

end
end
end
end

section
variable {t : TimeUnit} {m : Marker}

/-- A marker of the running beat, in the first half of it. -/
theorem TimeUnit.arrival_of_running (hb : m.beat.toNat = t.beat) (ht : t.tick ≤ t.period * 500) (hp : 0 < t.period) :
    t.arrival m = some (t.tick : Int) := by
  have hhalf : -((t.period * 500 : Nat) : Int) < (t.tick : Int) ∧ (t.tick : Int) ≤ ((t.period * 500 : Nat) : Int) := by omega
  rw [TimeUnit.arrival, if_pos hb, hb, decide_eq_true hhalf.1, decide_eq_true hhalf.2]
  simp

/-- A marker of the next beat, in the second half of the running one. -/
theorem TimeUnit.arrival_of_next (hb : m.beat.toNat = t.beat + 1) (ht : t.period * 500 < t.tick) (hlt : t.tick < t.period * 1000) :
    t.arrival m = some ((t.tick : Int) - (t.period * 1000 : Nat)) := by
  have hhalf : -((t.period * 500 : Nat) : Int) < (t.tick : Int) - (t.period * 1000 : Nat) ∧
      (t.tick : Int) - (t.period * 1000 : Nat) ≤ ((t.period * 500 : Nat) : Int) := by omega
  have hnot : m.beat.toNat ≠ t.beat := by omega
  rw [TimeUnit.arrival, if_neg hnot, hb, decide_eq_true hhalf.1, decide_eq_true hhalf.2]
  simp

theorem TimeUnit.arrival_of_other (h : m.beat.toNat ≠ t.beat) (h' : m.beat.toNat ≠ t.beat + 1) : t.arrival m = none := by
  simp [TimeUnit.arrival, h, h']

end

/-! ### A master conflict (R50) -/

/-- A conflict before it costs the lock. -/
def State.conflicted (s : State) : State := (s.bump rMasterConflict).alert alertMasterConflict

section
variable {s : State}

theorem State.masterConflict_of_unlocked (h : s.time.st = .unlocked) : s.masterConflict = s.conflicted := by
  show (if s.time.st == .unlocked then s.conflicted else s.conflicted.lockLoss 3) = _
  simp [h]

theorem State.masterConflict_of_locked (h : s.time.st ≠ .unlocked) : s.masterConflict = s.conflicted.lockLoss 3 := by
  show (if s.time.st == .unlocked then s.conflicted else s.conflicted.lockLoss 3) = _
  simp [h]

theorem State.conflicted_reg (o : Nat) :
    s.conflicted.reg o = if o = rMasterConflict then min (s.reg rMasterConflict + 1) 0xFFFFFFFF else s.reg o := s.reg_bump _ o

theorem does_markerAccept_conflict {k : Fin 9} {m : Marker} (h : (s.port k.val).st = .admitted) (hlo : 16 ≤ m.period.toNat)
    (hhi : m.period.toNat ≤ 2000) (hc : ∃ p ∈ s.time.seen, p.1 = m.beat.toNat ∧ p.2 ≠ m.master.toNat) :
    Does (.markerAccept k m) s fun t =>
      t.reg 0x20058 = min (s.reg 0x20058 + 1) 0xFFFFFFFF ∧ t.time.st = .unlocked ∧ (s.time.st = .unlocked → t.time = s.time) ∧
      (s.time.st ≠ .unlocked → t.reg 0x20048 = min (s.reg 0x20048 + 1) 0xFFFFFFFF ∧ ∀ r ∈ t.serve.steps, r.fail.isSome) := by
  refine ⟨s.masterConflict, congrArg Host.Outcome.next (State.markerIn_of_clash h hlo hhi hc), ?_⟩
  by_cases hst : s.time.st = .unlocked
  · rw [State.masterConflict_of_unlocked hst]
    exact ⟨State.conflicted_reg _, hst, fun _ => rfl, fun hn => absurd hst hn⟩
  · rw [State.masterConflict_of_locked hst]
    refine ⟨?_, rfl, fun hn => absurd hn hst, fun _ => ⟨?_, State.lockLoss_steps _ _⟩⟩
    · rw [State.lockLoss_reg _ _ (by decide), State.reg_bump, if_neg (by decide), State.conflicted_reg]
      rfl
    · exact (State.lockLoss_count _ _).trans (by rw [State.conflicted_reg]; rfl)

end

/-! ### The decision of a beat (R53, R56 to R58, R60) -/

/-- The time unit but for its count and the ends of the locked phases. -/
def TimeUnit.still (t : TimeUnit) : TimeUnit := { t with tick := 0, clk := 0, ctr10 := 0, corr := 0, lockEnds := [] }

theorem State.toTick_still (s : State) (n : Nat) : (s.toTick n).time.still = s.time.still := by
  unfold State.toTick
  split <;> rfl

/-- What a list holds that gives one value only. -/
theorem findSome?_of_only {α β : Type} {f : α → Option β} {l : List α} {b : β} (hall : ∀ a ∈ l, ∀ c, f a = some c → c = b)
    (hex : ∃ a ∈ l, (f a).isSome) : l.findSome? f = some b := by
  cases h : l.findSome? f with
  | none =>
    obtain ⟨a, ha, hs⟩ := hex
    rw [List.findSome?_eq_none_iff.1 h a ha] at hs
    cases hs
  | some c =>
    obtain ⟨a, ha, hc⟩ := List.exists_of_findSome?_eq_some h
    rw [hall a ha c hc]

/-- The marker of the running beat that is used: the selected port's, else the one of the lowest port (R53). -/
def State.chosen (s : State) : Option Heard :=
  let cands := s.time.heard.filter fun h => h.m.beat.toNat == s.time.beat
  match cands.find? fun h => h.port == bits (s.reg 0x20010) 0 4 with
  | some h => some h
  | none => (List.range 9).findSome? fun k => cands.find? fun h => h.port == k

section
variable {s : State}

theorem State.chosen_of_none (hnone : ∀ h ∈ s.time.heard, h.m.beat.toNat ≠ s.time.beat) : s.chosen = none := by
  have hcands : s.time.heard.filter (fun h => h.m.beat.toNat == s.time.beat) = [] :=
    List.filter_eq_nil_iff.2 fun h hh => by simpa using hnone h hh
  unfold State.chosen
  rw [hcands]
  exact List.findSome?_eq_none_iff.2 fun _ _ => rfl

theorem State.chosen_of_one {h : Heard} (hh : s.time.heard = [h]) (hport : h.port < 9) (hb : h.m.beat.toNat = s.time.beat) :
    s.chosen = some h := by
  have hcands : s.time.heard.filter (fun h => h.m.beat.toNat == s.time.beat) = [h] := by simp [hh, hb]
  unfold State.chosen
  rw [hcands]
  dsimp only
  split
  · next x hx => rw [List.mem_singleton.1 (List.mem_of_find?_eq_some hx)]
  · refine findSome?_of_only (fun k _ x hx => List.mem_singleton.1 (List.mem_of_find?_eq_some hx)) ⟨h.port, List.mem_range.2 hport, ?_⟩
    simp

theorem State.markerDecide_eq (hrole : s.time.role = .slave) (hst : s.time.st ≠ .unlocked) (hacq : s.time.acquired = true) :
    let u := s.toTick (s.time.period * 500 + 1)
    let later := u.time.heard.filter fun h => h.m.beat.toNat == u.time.beat + 1
    s.markerDecide = match u.chosen with
      | some h => (u.setTime { u.time with heard := later, discarded := false }).useMarker h
      | none => (u.setTime { u.time with heard := later }).noMarker := by
  have hif : (s.time.role != .slave || s.time.st == .unlocked || !s.time.acquired) = false := by simp [hrole, hst, hacq]
  unfold State.markerDecide
  rw [hif, if_neg Bool.false_ne_true]
  rfl

theorem State.noMarker_of_holds (hd : s.time.discarded = false) (hh : s.time.holdover < 15) (hst : s.time.st ≠ .acquire) :
    s.noMarker = s.setTime { s.time with st := .holdover, holdover := s.time.holdover + 1, outSeq := 0, discarded := false } := by
  have h16 : ¬ 16 ≤ s.time.holdover + 1 := by omega
  simp [State.noMarker, hd, hst, h16]

theorem does_markerDecision_none (hrole : s.time.role = .slave) (hst : s.time.st ≠ .unlocked) (hacq : s.time.acquired = true)
    (hnone : ∀ h ∈ s.time.heard, h.m.beat.toNat ≠ s.time.beat) (hd : s.time.discarded = false) (hh : s.time.holdover < 15)
    (hacquire : s.time.st ≠ .acquire) :
    Does .markerDecision s fun t => t.time.st = .holdover ∧ t.time.holdover = s.time.holdover + 1 ∧
      t.time.tick = (s.toTick (s.time.period * 500 + 1)).time.tick ∧ Only [.time] s t := by
  have hdecide := State.markerDecide_eq hrole hst hacq
  have hstill := s.toTick_still (s.time.period * 500 + 1)
  have hkept : Kept [.time] s (s.toTick (s.time.period * 500 + 1)) := State.toTick_kept
  generalize s.toTick (s.time.period * 500 + 1) = u at *
  have hheard : u.time.heard = s.time.heard := (congrArg TimeUnit.heard hstill :)
  have hbeat : u.time.beat = s.time.beat := (congrArg TimeUnit.beat hstill :)
  have hst' : u.time.st = s.time.st := (congrArg TimeUnit.st hstill :)
  have hd' : u.time.discarded = s.time.discarded := (congrArg TimeUnit.discarded hstill :)
  have hh' : u.time.holdover = s.time.holdover := (congrArg TimeUnit.holdover hstill :)
  rw [← hheard, ← hbeat] at hnone
  rw [← hh'] at hh ⊢
  dsimp only at hdecide
  rw [State.chosen_of_none hnone] at hdecide
  refine ⟨_, congrArg Host.Outcome.next (hdecide.trans (State.noMarker_of_holds (s := u.setTime _) (hd'.trans hd) hh (hst' ▸ hacquire))),
    rfl, rfl, rfl, (State.setTime_kept.on (State.setTime_kept.on hkept)).only⟩

/-- The state of the time unit after a marker at most 100 ticks off, the `good`th in a row within 10 ticks. -/
def TimeUnit.settled (t : TimeUnit) (good : Nat) : TimeSt := if t.st = .acquire ∧ good < 8 then .acquire else .locked

/-- The time unit that follows a marker with phase error `e`. -/
def TimeUnit.follows (t : TimeUnit) (m : Marker) (e : Int) (good : Nat) : TimeUnit :=
  { t with
    st := t.settled good, phaseErr := e, corr := e, good := good, bad := 0, holdover := 0, outSeq := 0, master := m.master.toNat,
    lastMarker := some m.beat.toNat,
    pendPeriod := if m.countdown = 0 then none else some (m.nextPeriod.toNat, m.beat.toNat + m.countdown.toNat) }

/-- The phase error of a marker in sixteenths of a tick (R56). -/
def State.phase16 (s : State) (h : Heard) : Int := 16 * h.a - (16 * (s.port h.port).linkDelay + h.m.correction.toNat : Nat)

/-- A marker that agrees with the running period and EPOCH and is at most 100 ticks off is followed; the eighth one in a row within 10
ticks locks a slave that acquires, and schedules fire from the next tick on. -/
theorem State.useMarker_of_near {h : Heard} (hst : s.time.st ≠ .unlocked) (hperiod : h.m.period.toNat = s.time.period)
    (hepoch : h.m.epoch.toNat = s.time.epoch) (hnear : (s.phase16 h).natAbs ≤ 1600) :
    ∃ good y, s.useMarker h = State.setTime y (s.time.follows h.m (roundAway (s.phase16 h) 16) good) ∧
      (y = s ∨ (s.time.st = .acquire ∧ 8 ≤ good ∧ y = s.firesFrom (s.time.tick + 1))) := by
  have hfar : ¬ (s.phase16 h).natAbs > 1600 := by omega
  obtain ⟨good, hgood⟩ : ∃ good, (if (s.phase16 h).natAbs ≤ 160 then s.time.good + 1 else 0) = good := ⟨_, rfl⟩
  refine ⟨good, if s.time.st = .acquire ∧ 8 ≤ good then s.firesFrom (s.time.tick + 1) else s, ?_, ?_⟩
  · have hphase : (16 * h.a - (16 * (s.port h.port).linkDelay + h.m.correction.toNat : Nat) : Int) = s.phase16 h := rfl
    unfold State.useMarker
    rw [hphase]
    generalize s.phase16 h = e16 at *
    cases hs : s.time.st with
    | unlocked => exact absurd hs hst
    | acquire =>
      by_cases h8 : 8 ≤ good
      · have hnot : ¬ good < 8 := by omega
        simp [hfar, hgood, hperiod, hepoch, TimeUnit.follows, TimeUnit.settled, hs, h8, hnot]
        rfl
      · simp [hfar, hgood, hperiod, hepoch, TimeUnit.follows, TimeUnit.settled, hs, h8, Nat.lt_of_not_le h8]
    | locked => simp [hs, hfar, hgood, hperiod, hepoch, TimeUnit.follows, TimeUnit.settled]
    | holdover => simp [hs, hfar, hgood, hperiod, hepoch, TimeUnit.follows, TimeUnit.settled]
  · split
    · next hl => exact .inr ⟨hl.1, hl.2, rfl⟩
    · exact .inl rfl

/-- The time unit once the markers of the beat are decided: those of the next beat are kept. -/
def TimeUnit.decided (t : TimeUnit) : TimeUnit :=
  { t with heard := t.heard.filter fun h => h.m.beat.toNat == t.beat + 1, discarded := false }

/-- What a decision with a marker for the beat gives, where the marker is followed. -/
theorem does_markerDecision_heard (hrole : s.time.role = .slave) (hst : s.time.st ≠ .unlocked) (hacq : s.time.acquired = true)
    {h : Heard} (hh : s.time.heard = [h]) (hport : h.port < 9) (hb : h.m.beat.toNat = s.time.beat)
    (hperiod : h.m.period.toNat = s.time.period) (hepoch : h.m.epoch.toNat = s.time.epoch) (hnear : (s.phase16 h).natAbs ≤ 1600) :
    Does .markerDecision s fun t =>
      t.time.phaseErr = roundAway (s.phase16 h) 16 ∧ t.time.corr = roundAway (s.phase16 h) 16 ∧ t.time.holdover = 0 ∧ t.time.bad = 0 ∧
      (s.time.st ≠ .acquire → t.time.st = .locked) ∧ (s.time.st = .acquire → (t.time.st = .locked ↔ 8 ≤ t.time.good)) ∧
      ((s.time.st ≠ .acquire ∨ t.time.st = .acquire) → Only [.time] s t) ∧ Only [.time, .serve] s t := by
  have hdecide := State.markerDecide_eq hrole hst hacq
  have hstill := s.toTick_still (s.time.period * 500 + 1)
  have hkept : Kept [.time] s (s.toTick (s.time.period * 500 + 1)) := State.toTick_kept
  have hphase : (s.toTick (s.time.period * 500 + 1)).phase16 h = s.phase16 h := by
    unfold State.phase16 State.port
    rw [hkept.same .fab (by decide)]
  generalize s.toTick (s.time.period * 500 + 1) = u at *
  have hheard : u.time.heard = s.time.heard := (congrArg TimeUnit.heard hstill :)
  have hbeat : u.time.beat = s.time.beat := (congrArg TimeUnit.beat hstill :)
  have hst' : u.time.st = s.time.st := (congrArg TimeUnit.st hstill :)
  have hperiod' : u.time.period = s.time.period := (congrArg TimeUnit.period hstill :)
  have hepoch' : u.time.epoch = s.time.epoch := (congrArg TimeUnit.epoch hstill :)
  rw [← hst'] at hst ⊢
  rw [← hphase] at hnear ⊢
  dsimp only at hdecide
  rw [State.chosen_of_one (hheard.trans hh) hport (hb.trans hbeat.symm)] at hdecide
  obtain ⟨good, y, huse, hy⟩ := State.useMarker_of_near
    (s := u.setTime u.time.decided)
    hst (hperiod.trans hperiod'.symm) (hepoch.trans hepoch'.symm) hnear
  have hsame : y = u.setTime u.time.decided → Kept [.time] s y := fun e => e ▸ State.setTime_kept.on hkept
  have hall : Kept [.time, .serve] s y := by
    obtain rfl | ⟨-, -, rfl⟩ := hy
    · exact (hsame rfl).mono (by decide)
    · exact State.firesFrom_kept.andThen (State.setTime_kept.andThen (hkept.mono (by decide)))
  refine ⟨_, congrArg Host.Outcome.next (hdecide.trans huse), rfl, rfl, rfl, rfl, fun hn => if_neg (fun hc => hn hc.1), fun ha => ?_,
    fun hc => ?_, (State.setTime_kept.andThen (hall.mono (by decide))).only⟩
  · show (if u.time.st = .acquire ∧ good < 8 then TimeSt.acquire else .locked) = .locked ↔ 8 ≤ good
    split
    · next h8 => exact iff_of_false TimeSt.noConfusion (by omega)
    · next h8 => exact iff_of_true rfl (by simpa [ha] using h8)
  · obtain hy | ⟨ha, h8, -⟩ := hy
    · exact (State.setTime_kept.on (hsame hy)).only
    · obtain hn | hc := hc
      · exact absurd ha hn
      · exact absurd (hc.symm.trans (if_neg (by omega))) (by decide)

end

/-- Settles O27: a marked tick, the master's first beat, the reception of a marker and the decision of a beat, case by case. -/
theorem markerCommands : Obligations.MarkerCommands := by
  intro s port m
  refine ⟨fun h => ?_, fun k h hk ht hslot hnone => does_slewTick h hk ht hslot hnone,
    fun due hm hd => ⟨does_masterStart hm hd, does_masterStart_last hm hd⟩, fun h => ?_, fun h => ?_, fun h hp => ?_,
    fun h hlo hhi hrole hseen => ⟨does_markerAccept_acquires hlo hhi hrole hseen h, fun hst hacq ht => ⟨fun hb htick => ?_, fun hb htick => ?_,
      fun hb hb' => ?_⟩⟩, does_markerAccept_conflict, fun hrole hst hacq _ => ⟨does_markerDecision_none hrole hst hacq,
      fun h hh hport hb hperiod hepoch hnear => does_markerDecision_heard hrole hst hacq hh hport hb hperiod hepoch hnear⟩⟩
  · exact congrArg Host.Outcome.next (State.slew_of_off h)
  · exact congrArg Host.Outcome.next (State.startMaster_of_idle h)
  · exact congrArg Host.Outcome.next (State.markerIn_of_notAdmitted h)
  · exact congrArg Host.Outcome.next (State.markerIn_of_badPeriod h hp)
  · have hp : 0 < s.time.period := Nat.pos_of_mul_pos_right (Nat.zero_lt_of_lt ht)
    exact does_markerAccept_inSequence hlo hhi hrole hseen hst hacq h (TimeUnit.arrival_of_running hb htick hp)
  · exact does_markerAccept_inSequence hlo hhi hrole hseen hst hacq h (TimeUnit.arrival_of_next hb htick ht)
  · exact does_markerAccept_outOfSequence hlo hhi hrole hseen hst hacq h (TimeUnit.arrival_of_other hb hb')

end Sys2Proof.Machine
end

section
/-! SUPPORT. What the end of a step leaves of the other steps, of the count of overruns and of the ports: the operations that settle its
sequences and place the loads that wait (R68, R75, R363, R384). -/
namespace Sys2Proof.Machine

/-- The steps, the count of overruns and the ports. -/
def State.standing (s : State) : List StepRun × Nat × List Port := (s.serve.steps, s.serve.overruns, s.fab.ports)

theorem State.standing_of_kept {ps : List Part} {s t : State} (h : Kept ps s t) (hserve : Part.serve ∉ ps) (hfab : Part.fab ∉ ps) :
    t.standing = s.standing := by
  rw [State.standing, State.standing, h.same .serve hserve, h.same .fab hfab]

theorem State.standing_ite {s a b : State} {c : Prop} [Decidable c] (ha : a.standing = s.standing) (hb : b.standing = s.standing) :
    (if c then a else b).standing = s.standing := by
  split <;> assumption

theorem State.standing_foldl {α : Type} {f : State → α → State} (hf : ∀ y a, (f y a).standing = y.standing) (l : List α) (s : State) :
    (l.foldl f s).standing = s.standing := by
  induction l generalizing s with
  | nil => rfl
  | cons a l ih => exact (ih _).trans (hf s a)

theorem State.standing_foldl_fst {α β : Type} {f : State × β → α → State × β} (hf : ∀ y a, (f y a).1.standing = y.1.standing)
    (l : List α) (x : State × β) : (l.foldl f x).1.standing = x.1.standing := by
  induction l generalizing x with
  | nil => rfl
  | cons a l ih => exact (ih _).trans (hf x a)

theorem State.standing_of_snd {α : Type} {s t : State} {p : α × State} {a : α} (e : p = (a, t)) (h : p.2.standing = s.standing) :
    t.standing = s.standing := by
  rw [e] at h
  exact h

/-! ### Pages of the pool, generations and adapters -/

@[simp] theorem State.freePoolPages_standing (s : State) (i : Nat) (l : List (Nat × Nat)) :
    (s.freePoolPages i l).standing = s.standing := rfl

theorem State.evictFor_standing (s : State) (i k n : Nat) (got : List Nat) : (s.evictFor i k n got).2.standing = s.standing := by
  induction n generalizing s got with
  | zero => rfl
  | succ n ih =>
    unfold State.evictFor
    dsimp only
    split
    · rfl
    · exact ih _ _

theorem State.allocate_standing (s : State) (i k n cls : Nat) : (s.allocate i k n cls).2.standing = s.standing := by
  unfold State.allocate
  dsimp only
  split
  · rfl
  · split
    · next h => exact State.standing_of_snd h (State.evictFor_standing ..)
    · next h =>
      have hevict := State.standing_of_snd h (State.evictFor_standing ..)
      exact (State.standing_foldl (fun y a => State.standing_of_kept State.zeroAt_kept (by decide) (by decide)) _ _).trans hevict

theorem State.allocateAll_standing (s : State) (i : Nat) (l : List (Nat × Nat × Nat)) (got : List (List (Nat × Nat))) :
    (s.allocateAll i l got).2.standing = s.standing := by
  induction l generalizing s got with
  | nil => rfl
  | cons a l ih =>
    obtain ⟨k, n, cls⟩ := a
    unfold State.allocateAll
    split
    · exact ih _ _
    · split
      · next h => exact (State.freePoolPages_standing ..).trans (State.standing_of_snd h (State.allocate_standing ..))
      · next h => exact (ih _ _).trans (State.standing_of_snd h (State.allocate_standing ..))

theorem State.setGens_standing (s : State) (num : Nat) (t : GenTable ConfigGen) : (s.setGens num t).standing = s.standing := by
  unfold State.setGens
  split
  · rfl
  · refine (State.standing_foldl (fun y g => ?_) _ _).trans rfl
    dsimp only
    split
    · split <;> rfl
    · rfl

theorem State.dropAdapter_standing (s : State) (i : Nat) (a : Adapter) : (s.dropAdapter i a).standing = s.standing := by
  unfold State.dropAdapter
  rw [State.standing_of_kept State.bind_kept (by decide) (by decide), State.freePoolPages_standing]
  rfl

theorem State.setAdapter_standing (s : State) (i slot : Nat) (t : GenTable Adapter) : (s.setAdapter i slot t).standing = s.standing := by
  unfold State.setAdapter
  refine (State.standing_foldl (fun y g => ?_) _ _).trans rfl
  exact State.dropAdapter_standing y i g.val

theorem State.placePage_standing (s : State) (i k l phys cls : Nat) (v : Option Nat) :
    (s.placePage i k l phys cls v).standing = s.standing := by
  unfold State.placePage
  split <;> rfl

/-! ### Reads of the vault -/

theorem State.detect_standing (s : State) (cls : Nat) (u : ProveUnit) (region run : Nat) (more : Bool) :
    (s.detect cls u region run more).standing = s.standing := by
  unfold State.detect
  split
  · rfl
  · split
    · rfl
    · dsimp only
      split
      · split <;> rfl
      · rfl

theorem State.corrected_standing (s : State) (u : ProveUnit) (region : Nat) : (s.corrected u region).standing = s.standing := by
  unfold State.corrected
  refine State.standing_ite ?_ rfl
  split <;> exact State.detect_standing ..

theorem State.correctedAt_standing (s : State) (a : Nat) : (s.correctedAt a).standing = s.standing := by
  unfold State.correctedAt
  split
  · exact State.corrected_standing ..
  · exact State.corrected_standing ..
  · exact State.corrected_standing ..
  · exact State.corrected_standing ..
  · rfl

theorem State.correctedWords_standing (s : State) (a n : Nat) : (s.correctedWords a n).standing = s.standing := by
  unfold State.correctedWords
  split
  · rfl
  · exact State.standing_foldl (fun y _ => y.correctedAt_standing a) _ _

theorem State.vaultFailed_standing (s : State) (c : Bool) : (s.vaultFailed c).standing = s.standing :=
  State.standing_of_kept State.vaultFailed_kept (by decide) (by decide)

theorem State.shardFault_standing (s : State) (off : Nat) : (s.shardFault off).standing = s.standing :=
  State.standing_of_kept State.shardFault_kept (by decide) (by decide)

theorem State.readPages_standing (s : State) (pages : List Nat) (last : Option Nat) (reads : List Check) :
    (s.readPages pages last reads).2.2.standing = s.standing := by
  induction reads generalizing s last with
  | nil => unfold State.readPages; rfl
  | cons c reads ih =>
    unfold State.readPages
    cases c with
    | ok => rfl
    | corrected k n => exact State.correctedWords_standing ..
    | failed k code =>
      dsimp only
      split
      · exact State.vaultFailed_standing ..
      · exact (ih _ _).trans (State.vaultFailed_standing ..)

theorem State.readVault_standing (s : State) (pages : List Nat) (reads : List Check) : (s.readVault pages reads).2.2.standing = s.standing := by
  unfold State.readVault
  split
  · rfl
  · split
    · rw [State.shardFault_standing, State.vaultFailed_standing, State.vaultFailed_standing]
    · have hpages := s.readPages_standing pages none reads
      split <;> next h =>
        rw [h] at hpages
        simpa only [State.shardFault_standing] using hpages

/-! ### Loads that wait -/

theorem State.loadAdapter_standing (s : State) (i : Nat) (c : CatEntry) (reads : List Check) :
    (s.loadAdapter i c reads).2.standing = s.standing := by
  have hall := s.allocateAll_standing i ((List.range 24).map fun k => (k, (c.adapterPages.zipIdx.filter fun p => p.2 % 24 = k).length, 0)) []
  unfold State.loadAdapter
  dsimp only
  split
  · next h => exact State.standing_of_snd h hall
  · next u h =>
    replace hall := State.standing_of_snd h hall
    have hread := u.readVault_standing c.adapterPages reads
    split
    · next h =>
      rw [h] at hread
      exact hread.trans hall
    · next h =>
      rw [h] at hread
      refine (State.standing_foldl_fst (fun y p => State.standing_foldl_fst (fun z q => ?_) _ _) _ _).trans (hread.trans hall)
      exact State.placePage_standing ..

theorem State.loadSlot_standing (s : State) (v : SlotTable) (due : Nat) : (s.loadSlot v due).standing = s.standing := by
  unfold State.loadSlot
  split <;> rfl

theorem State.loadDone_standing (s : State) (w : WaitLoad) : (s.loadDone w).standing = s.standing :=
  State.standing_of_kept State.loadDone_kept (by decide) (by decide)

theorem State.genRecord_standing (s : State) (type i id : Nat) (old new : Option Nat) :
    (s.genRecord type i id old new).standing = s.standing := State.standing_of_kept State.genRecord_kept (by decide) (by decide)

theorem State.placeLoad_standing {s t : State} {w : WaitLoad} (h : s.placeLoad w = some t) : t.standing = s.standing := by
  unfold State.placeLoad at h
  dsimp only at h
  split at h
  · split at h
    · cases h
    · cases h
      rw [State.loadDone_standing, State.standing_foldl fun y v => State.loadSlot_standing y v _]
      rfl
  · split at h
    · cases h
    · cases h
      exact State.loadDone_standing ..
  · split at h
    · cases h
    · cases h
      rw [State.genRecord_standing, State.loadDone_standing]
      rfl
  · split at h
    · cases h
      exact State.loadDone_standing ..
    · split at h
      · cases h
      · cases h
        rw [State.loadDone_standing, State.setGens_standing]
  · split at h
    · cases h
    · split at h
      · cases h
        exact State.loadDone_standing ..
      · split at h
        · next hload =>
          have hadapter := State.standing_of_snd hload (State.loadAdapter_standing ..)
          cases h
          split
          · exact (State.standing_of_kept State.cqWrite_kept (by decide) (by decide)).trans hadapter
          · exact hadapter
        · next hload =>
          have hadapter := State.standing_of_snd hload (State.loadAdapter_standing ..)
          cases h
          rw [State.genRecord_standing, State.loadDone_standing, State.setAdapter_standing,
            State.standing_of_kept State.bind_kept (by decide) (by decide), hadapter]
  · split at h
    · cases h
      exact State.loadSlot_standing ..
    · cases h

theorem State.retryLoads_standing (s : State) : s.retryLoads.standing = s.standing := by
  refine State.standing_foldl (fun y w => ?_) _ _
  dsimp only
  split
  · next h => exact (State.placeLoad_standing h :)
  · rfl

/-! ### The sequences of a step -/

theorem State.charge_standing (s : State) (w : Nat × Nat × Nat) (n : Nat) : (s.charge w n).standing = s.standing := by
  unfold State.charge State.onTenant
  dsimp only
  split <;> rfl

theorem State.tqWrite_standing (s : State) (tq : Nat) (r : TokenRec) : (s.tqWrite tq r).standing = s.standing := by
  unfold State.tqWrite
  refine State.standing_ite ?_ rfl
  exact (State.standing_of_kept State.produce_kept (by decide) (by decide)).trans rfl

theorem State.dropSeq_standing (s : State) (i : Nat) (q : Seq) : (s.dropSeq i q).standing = s.standing := by
  unfold State.dropSeq
  dsimp only
  split
  · exact (State.setAdapter_standing ..).trans rfl
  · rfl

theorem State.putSeq_standing (s : State) (i : Nat) (q : Seq) : (s.putSeq i q).standing = s.standing := rfl

theorem State.bumpIf_standing (s : State) (b : Bool) (o : Nat) : (s.bumpIf b o).standing = s.standing := by
  unfold State.bumpIf
  split <;> rfl

theorem State.settleOk_standing (s : State) (r : StepRun) (q : Seq) (e : StepSeq) (w : Nat × Nat × Nat) :
    (s.settleOk r q e w).standing = s.standing := by
  unfold State.settleOk
  dsimp only
  split
  · rfl
  · split
    · rw [State.tqWrite_standing, State.dropSeq_standing, State.bumpIf_standing, State.bumpIf_standing]
      exact State.charge_standing ..
    · refine State.standing_ite (State.charge_standing ..) (State.standing_ite ?_ ?_)
      · rw [State.tqWrite_standing]
        exact State.charge_standing ..
      · rw [State.dropSeq_standing, State.bumpIf_standing, State.tqWrite_standing]
        exact State.charge_standing ..

theorem State.settleSeq_standing (s : State) (r : StepRun) (p : StepSeq × (Nat × Nat × Nat)) :
    (s.settleSeq r p).standing = s.standing := by
  have hgone (x : State) (n : Nat) (q : Seq) (t : TokenRec) (hx : x.standing = s.standing) :
      (((x.charge p.2 n).dropSeq r.inst q).tqWrite q.tq t).standing = s.standing := by
    rw [State.tqWrite_standing, State.dropSeq_standing, State.charge_standing, hx]
  unfold State.settleSeq
  dsimp only
  split
  · exact State.charge_standing ..
  · split
    · exact State.standing_ite (hgone _ _ _ _ rfl) (State.settleOk_standing ..)
    · refine State.standing_ite (State.charge_standing ..) (State.standing_ite (hgone _ _ _ _ rfl)
        (State.standing_ite (hgone _ _ _ _ rfl) (State.standing_ite (hgone _ _ _ _ rfl) (State.standing_ite (hgone _ _ _ _ rfl)
          (State.standing_ite (hgone _ _ _ _ rfl) ?_)))))
      rw [State.putSeq_standing, State.charge_standing]
      rfl

end Sys2Proof.Machine
end

section
/-! SUPPORT. The entry of a row that is due fires alone, at its tick (R62, R70). -/
namespace Sys2Proof.Machine

/-- The state in which an entry takes effect: its tick has come, and it counts as fired. -/
def State.firedAt (s : State) (i : Nat) (e : SchedEntry) : State := (s.toTick e.tick).markFired i e

section
variable {s : State} {i k : Nat} {p : Word64} {e : SchedEntry}

theorem State.fireRow_of_due (h : s.due i p e) (hk : e.kind = k) : s.fireRow i k p = (s.firedAt i e).entryAct i e := by
  obtain ⟨hhead, hp, hnone⟩ := h
  obtain ⟨rest, hlist⟩ := List.head?_eq_some_iff.1 hhead
  have hbefore : s.entriesIn (fun j x => if j == i then ([] : List SchedEntry).contains x else Nat.blt x.tick e.tick) = [] := by
    rw [← hnone]
    congr 1
    funext j x
    by_cases hj : j = i <;> simp [hj]
  simp only [State.fireRow, hlist, List.find?_cons, hk, hp, beq_self_eq_true, Bool.and_self, Bool.not_true, List.takeWhile_cons,
    Bool.false_eq_true, if_false, hbefore]
  rfl

theorem State.entryAct_one (h : e.kind = 1) : s.entryAct i e = s.layerStart i e.payload := by simp [State.entryAct, h]

theorem State.entryAct_two {g : Sched} (h : e.kind = 2) (hg : s.firing i = some g) : s.entryAct i e = s.startList g i e.payload := by
  simp [State.entryAct, h, hg]

theorem State.entryAct_three (h : e.kind = 3) : s.entryAct i e = s.selectSlots e.payload := by simp [State.entryAct, h]

theorem State.entryAct_four (h : e.kind = 4) : s.entryAct i e = s.opPrefFire e.payload := by simp [State.entryAct, h]

theorem State.entryAct_five (h : e.kind = 5) : s.entryAct i e = s.lockBegin i e := by simp [State.entryAct, h]

theorem State.entryAct_six (h : e.kind = 6) : s.entryAct i e = s.collWindow i e := by simp [State.entryAct, h]

theorem State.entryAct_seven (h : e.kind = 7) : s.entryAct i e = s.replaySlot i e := by simp [State.entryAct, h]

theorem State.entryAct_eight (h : e.kind = 8) : s.entryAct i e = s.telemetry e.payload := by simp [State.entryAct, h]

theorem State.entryAct_nine (h : e.kind = 9) : s.entryAct i e = s.stepEnd i e.payload := by simp [State.entryAct, h]

/-- What a row with a due entry does is what the entry does. -/
theorem does_of_due {c : Instr} {P : State → Prop} (h : s.due i p e) (hk : e.kind = k) (hc : exec c s = .next (s.fireRow i k p))
    (hP : P ((s.firedAt i e).entryAct i e)) : Does c s P :=
  ⟨_, hc.trans (congrArg Host.Outcome.next (State.fireRow_of_due h hk)), hP⟩

end

section
variable (s : State) (i : Nat) (e : SchedEntry)

theorem State.firedAt_kept : Kept [.time, .serve] s (s.firedAt i e) :=
  State.setInst_kept.andThen (State.toTick_kept.mono (by decide))

theorem State.toTick_serve (n : Nat) : (s.toTick n).serve = s.serve := State.toTick_kept.same .serve (by decide)

@[simp] theorem State.firedAt_steps : (s.firedAt i e).serve.steps = s.serve.steps :=
  (congrArg Serve.steps (s.toTick_serve e.tick) :)

@[simp] theorem State.firedAt_overruns : (s.firedAt i e).serve.overruns = s.serve.overruns :=
  (congrArg Serve.overruns (s.toTick_serve e.tick) :)

/-- That an entry has fired is all that changes in the instances. -/
theorem State.firedAt_inst (k : Nat) : ∃ f, (s.firedAt i e).inst k = { s.inst k with fired := f } := by
  rw [← State.inst_of_serve (s.toTick_serve e.tick) k]
  unfold State.firedAt State.markFired
  by_cases hi : i < (s.toTick e.tick).serve.insts.length
  · rw [State.inst_setInst _ hi]
    split
    · next hk => exact ⟨_, by rw [hk]⟩
    · exact ⟨_, rfl⟩
  · have hsame (x : Inst) : setNth (s.toTick e.tick).serve.insts i x = (s.toTick e.tick).serve.insts :=
      List.set_eq_of_length_le (Nat.le_of_not_lt hi)
    refine ⟨((s.toTick e.tick).inst k).fired, ?_⟩
    unfold State.inst
    rw [State.setInst_serve, hsame]

theorem State.firedAt_sched (k : Nat) : ((s.firedAt i e).inst k).sched = (s.inst k).sched := by
  obtain ⟨f, hf⟩ := s.firedAt_inst i e k
  rw [hf]

theorem State.firedAt_openStep (k : Nat) : (s.firedAt i e).openStep k = s.openStep k := by
  rw [State.openStep, State.openStep, State.firedAt_steps]

theorem State.firedAt_firing (k : Nat) : (s.firedAt i e).firing k = s.firing k := by
  rw [State.firing, State.firing, State.firedAt_openStep, State.firedAt_sched]

end

end Sys2Proof.Machine
end

section
/-! SUPPORT. The entries of the open step, and the end of a step (R68, R71, R90, R96, R322, R384). -/
namespace Sys2Proof.Machine

/-! ### The end of a step -/

section
variable (s : State) (r : StepRun)

theorem State.dropConfigRefs_standing (step : Nat) : (s.dropConfigRefs step).standing = s.standing := by
  refine State.standing_foldl (fun y c => ?_) _ _
  exact State.setGens_standing ..

/-- The references of a step to the generations of schedules, routing tables, configurations and slot tables are dropped. -/
def State.dropRefs : State :=
  let x := s.inst r.inst
  let u := (s.setInst r.inst { x with
    sched := x.sched.release s.time.beat r.id, routes := x.routes.map fun t => (t.1, t.2.release s.time.beat r.id) }).dropConfigRefs r.id
  r.slots.foldl (fun s' p => s'.setSlotTab p.1 ((s'.slotTab p.1).release s.time.beat r.id)) u

theorem State.dropRefs_standing : (s.dropRefs r).standing = s.standing := by
  unfold State.dropRefs
  dsimp only
  refine (State.standing_foldl (fun y p => ?_) _ _).trans ((State.dropConfigRefs_standing ..).trans rfl)
  rfl

/-- A step that is dropped is gone; the others stand. -/
theorem State.dropStep_standing :
    (s.dropStep r).standing = (s.serve.steps.filter (fun t => t.id ≠ r.id), s.serve.overruns, s.fab.ports) := by
  obtain ⟨hsteps, hover, hports⟩ : (s.dropRefs r).serve.steps = s.serve.steps ∧ (s.dropRefs r).serve.overruns = s.serve.overruns ∧
      (s.dropRefs r).fab.ports = s.fab.ports := by
    simpa only [State.standing, Prod.mk.injEq] using s.dropRefs_standing r
  refine (State.retryLoads_standing _).trans ?_
  show (List.filter _ (s.dropRefs r).serve.steps, (s.dropRefs r).serve.overruns, (s.dropRefs r).fab.ports) = _
  rw [hsteps, hover, hports]

theorem State.finishStep_standing :
    (s.finishStep r).standing = (s.serve.steps.filter (fun t => t.id ≠ r.id), s.serve.overruns, s.fab.ports) := by
  have hsettled : (List.foldl (fun s p => s.settleSeq r p) (s.noteSlack r) (r.seqs.zip r.window)).standing = s.standing :=
    (State.standing_foldl (fun y p => y.settleSeq_standing r p) _ _).trans rfl
  obtain ⟨hsteps, hover, hports⟩ := by simpa only [State.standing, Prod.mk.injEq] using hsettled
  unfold State.finishStep
  rw [State.dropStep_standing, hsteps, hover, hports]

/-- The work that the end of a step leaves to the power unit is its slack. -/
theorem State.finishStep_power :
    (s.finishStep r).power = { s.power with slack := some ((r.deadline : Int) - (s.time.clk : Int)) } := by
  have hsettled : Kept [.regs, .mem, .serve, .vault, .rings, .out] (s.noteSlack r)
      ((r.seqs.zip r.window).foldl (fun s p => s.settleSeq r p) (s.noteSlack r)) :=
    Kept.foldl _ _ (Kept.refl _) fun _ _ => State.settleSeq_kept
  unfold State.finishStep
  rw [State.dropStep_kept.same .power (by decide), hsettled.same .power (by decide)]
  rfl

theorem State.finishStep_time : (s.finishStep r).time = s.time := State.finishStep_kept.same .time (by decide)

theorem State.finishStep_gone : ∀ x ∈ (s.finishStep r).serve.steps, x.id ≠ r.id := by
  have h : (s.finishStep r).serve.steps = _ := congrArg Prod.fst (s.finishStep_standing r)
  rw [h]
  intro x hx
  simpa using (List.mem_filter.1 hx).2

theorem State.finishStep_overruns : (s.finishStep r).serve.overruns = s.serve.overruns :=
  congrArg (fun x => x.2.1) (s.finishStep_standing r)

theorem State.clearGates_standing (i : Nat) : (s.clearGates i).standing = s.standing := by
  refine State.standing_foldl (fun y c => ?_) _ _
  rfl

theorem State.clearGates_steps (i : Nat) : (s.clearGates i).serve.steps = s.serve.steps := congrArg Prod.fst (s.clearGates_standing i)

theorem State.clearGates_overruns (i : Nat) : (s.clearGates i).serve.overruns = s.serve.overruns :=
  congrArg (fun x => x.2.1) (s.clearGates_standing i)

end

/-! ### The step's end -/

section
variable {s : State} {i : Nat} {p : Word64} {r : StepRun}

theorem State.endStep_of_open (hr : s.openStep i = some r) (hend : r.endNo = bits p.toNat 0 16) :
    s.serve.steps.find? (fun r => r.inst == i && !r.overrun && r.endNo == bits p.toNat 0 16) = some r := by
  obtain ⟨hopen, l, l', hlist, hbefore⟩ := List.find?_eq_some_iff_append.1 hr
  refine List.find?_eq_some_iff_append.2 ⟨by simp [hopen, hend], l, l', hlist, fun x hx => ?_⟩
  have hx' := hbefore x hx
  rw [Bool.not_eq_true'] at hx'
  simp [hx']

theorem State.stepEnd_of_complete (hr : s.openStep i = some r) (hend : r.endNo = bits p.toNat 0 16) (hdone : s.mayComplete r = true) :
    s.stepEnd i p = (s.finishStep r).clearGates i := by
  unfold State.stepEnd
  rw [State.endStep_of_open hr hend]
  exact if_pos hdone

/-- The run of a step past its end whose work is not complete. -/
def StepRun.overrunning (r : StepRun) : StepRun := { r with overrun := true, fail := some (r.fail.getD stSTEP_OVERRUN) }

theorem State.stepEnd_of_late (hr : s.openStep i = some r) (hend : r.endNo = bits p.toNat 0 16) (hdone : s.mayComplete r = false) :
    (s.stepEnd i p).serve.steps = s.serve.steps.map (fun x => if x.id == r.id then r.overrunning else x) ∧
      (s.stepEnd i p).serve.overruns = s.serve.overruns + flag r.fail.isNone := by
  have hlate : ((s.clearGates i).onStep r.id fun _ => r.overrunning).serve.steps =
      s.serve.steps.map (fun x => if x.id == r.id then r.overrunning else x) :=
    congrArg (List.map _) (s.clearGates_steps i)
  unfold State.stepEnd
  rw [State.endStep_of_open hr hend]
  simp only [hdone, Bool.false_eq_true, if_false]
  cases hfail : r.fail with
  | some st => exact ⟨by simpa [StepRun.overrunning, hfail] using hlate, s.clearGates_overruns i⟩
  | none =>
    simp only [Option.isSome_none, Bool.false_eq_true, if_false]
    rw [State.instEvent_kept.same .serve (by decide)]
    exact ⟨by simpa [StepRun.overrunning, hfail] using hlate, congrArg (· + 1) (s.clearGates_overruns i)⟩

end

/-! ### A gate of a layer (R68, R96) -/

section
variable {s : State} {i : Nat} {b : BeadId}

/-- A context that is put in the place of the one with its number. -/
theorem State.ctx_setCtx_self {cid : CtxId} {x y : Context} (hx : s.ctx cid = some x) (hid : y.id = x.id) (hvalid : y.valid = x.valid) :
    (s.setCtx y).ctx cid = some y := by
  have hcid := List.find?_some hx
  obtain ⟨hxid, hxvalid⟩ : x.id = cid ∧ x.valid = true := by simpa using hcid
  have hmem := List.mem_of_find?_eq_some hx
  cases hfind : (s.setCtx y).ctx cid with
  | none =>
    have hno := List.find?_eq_none.1 hfind y (List.mem_map.2 ⟨x, hmem, by simp [hid]⟩)
    simp [hid, hvalid, hxid, hxvalid] at hno
  | some z =>
    have hz := List.find?_some hfind
    obtain ⟨w, -, hw⟩ := List.mem_map.1 (List.mem_of_find?_eq_some hfind)
    by_cases hwid : w.id = y.id
    · rw [← hw]
      simp [hwid]
    · rw [← hw, if_neg (by simpa using hwid)] at hz
      rw [hid, hxid] at hwid
      simp [hwid] at hz

/-- What a release of layers up to `layer` leaves of a context. -/
def Context.releasedTo (x y : Context) (layer step : Nat) : Prop :=
  y.acts = x.acts ∧ y.pc = x.pc ∧ (x.gate = none → y.gate = some layer ∧ y.step = some step) ∧
    ∀ g, x.gate = some g → y.gate = some (max g layer)

theorem State.release_ctx {cid : CtxId} {x : Context} (layer step : Nat) (hx : s.ctx cid = some x) :
    ∃ y, (s.release cid layer (some step)).ctx cid = some y ∧ x.releasedTo y layer step := by
  unfold State.release
  rw [hx]
  dsimp only
  cases hg : x.gate with
  | none =>
    exact ⟨_, State.ctx_setCtx_self (s := s.setBead _) hx rfl rfl, rfl, rfl, fun _ => ⟨rfl, rfl⟩, fun g h => (by cases hg.symm.trans h)⟩
  | some g =>
    dsimp only
    split
    · next hlt =>
      refine ⟨_, State.ctx_setCtx_self hx rfl rfl, rfl, rfl, fun h => (by cases hg.symm.trans h), fun g' h => ?_⟩
      cases hg.symm.trans h
      rw [max_eq_right (Nat.le_of_lt hlt)]
    · next hle =>
      refine ⟨x, hx, rfl, rfl, fun h => (by cases hg.symm.trans h), fun g' h => ?_⟩
      cases hg.symm.trans h
      rw [max_eq_left (Nat.le_of_not_lt hle), hg]

theorem State.gateOf_of_resident {c : Cfg} {k q : Nat} {layer step : Nat} (hc : s.schedCfg i b k = some c) (hres : c.resident = true)
    (hgen : ∀ y ∈ s.ctxsOf c.num, ∀ g, s.wantedGen c = some g → y.gen = g.gen) (hwant : s.wantedGen c ≠ none)
    (hq : c.physCtx b = some q) : s.gateOf i layer step b k = s.release ⟨b, Fin.ofNat 4 q⟩ layer (some step) := by
  obtain ⟨g, hg⟩ := Option.ne_none_iff_exists'.1 hwant
  have hall : (s.ctxsOf c.num).all (fun x => x.gen == g.gen) = true :=
    List.all_eq_true.2 fun y hy => beq_iff_eq.2 (hgen y hy g hg)
  unfold State.gateOf
  simp only [hc, hg, hres, hall, hq, Bool.and_self, if_true]

end

/-! ### The entries of the open step -/

section
variable {s : State} {i : Nat} {p : Word64} {r : StepRun}

theorem State.layerStart_of_failed (hr : s.openStep i = some r) (hfail : r.fail.isSome) : s.layerStart i p = s.entryDone r := by
  unfold State.layerStart
  rw [hr]
  exact if_pos hfail

theorem State.layerStart_of_one {b : BeadId} (hr : s.openStep i = some r) (hfail : r.fail = none)
    (hb : (s.entryDone r).layerBeads i p.toNat = [b]) :
    s.layerStart i p = (s.entryDone r).gateOf i (bits p.toNat 16 16) r.id b (bits p.toNat 4 2) := by
  have hnot : ¬ (r.fail.isSome = true) := by simp [hfail]
  unfold State.layerStart
  rw [hr]
  dsimp only
  rw [if_neg hnot, hb]
  rfl

/-- The window that an entry opens for a collective of the kinds that take no route (R322). -/
def Sched.opens (g : Sched) (d : CollDesc) (i : Nat) (r : StepRun) (e : SchedEntry) (now beatTicks : Nat) : CollRun :=
  { inst := i, step := r.id, start := r.start, desc := d, route := none, openAt := now,
    close := now + (bits e.payload.toNat 0 21 - e.tick), slotOpen := now + (g.replayOf e beatTicks).1,
    slotClose := now + (g.replayOf e beatTicks).2, attempt := 0, ready := false, sent := [], got := [], heads := [], reduced := [],
    judged := false, done := none, failed := false }

theorem State.collWindow_eq {e : SchedEntry} {g : Sched} {d : CollDesc} (hr : s.openStep i = some r) (hg : s.firing i = some g)
    (hd : g.colls.find? (fun d => d.index == bits e.payload.toNat 32 16) = some d) (hkind : d.kind < 3) :
    s.collWindow i e =
      { s.entryDone r with serve := { (s.entryDone r).serve with
        colls := s.serve.colls.filter (fun x => !(x.inst == i && x.desc.index == d.index)) ++ [g.opens d i r e s.time.clk s.beatTicks] } } := by
  unfold State.collWindow State.openColl
  simp only [hr, hg, hd, hkind, if_true]
  rfl

end

/-! ### The obligation -/

section
variable {s : State} {i : Fin 16} {p : Word64} {e : SchedEntry} {r : StepRun}

theorem does_stepEnd (h : s.due i.val p e) (hk : e.kind = 9) (hr : s.openStep i.val = some r) (hend : r.endNo = bits p.toNat 0 16) :
    ((s.firedAt i.val e).mayComplete r = true → Does (.stepEnd i p) s fun t =>
      (∀ x ∈ t.serve.steps, x.id ≠ r.id) ∧ t.serve.overruns = s.serve.overruns ∧
      t.power.slack = some ((r.deadline : Int) - ((s.firedAt i.val e).time.clk : Int))) ∧
    ((s.firedAt i.val e).mayComplete r = false → Does (.stepEnd i p) s fun t =>
      (∃ x ∈ t.serve.steps, x.id = r.id ∧ x.overrun = true ∧ x.fail = some (r.fail.getD stSTEP_OVERRUN)) ∧
      t.serve.overruns = s.serve.overruns + flag r.fail.isNone) := by
  have hact : (s.firedAt i.val e).entryAct i.val e = (s.firedAt i.val e).stepEnd i.val p := h.2.1 ▸ State.entryAct_nine hk
  have hopen : (s.firedAt i.val e).openStep i.val = some r := (s.firedAt_openStep i.val e i.val).trans hr
  refine ⟨fun hdone => does_of_due h hk rfl ?_, fun hlate => does_of_due h hk rfl ?_⟩
  · rw [hact, State.stepEnd_of_complete hopen hend hdone, State.clearGates_steps, State.clearGates_overruns, State.finishStep_overruns,
      State.firedAt_overruns, State.clearGates_kept.same .power (by decide), State.finishStep_power]
    exact ⟨State.finishStep_gone _ _, rfl, rfl⟩
  · obtain ⟨hsteps, hover⟩ := State.stepEnd_of_late hopen hend hlate
    rw [hact, hsteps, hover, State.firedAt_overruns, State.firedAt_steps]
    exact ⟨⟨r.overrunning, List.mem_map.2 ⟨r, List.mem_of_find?_eq_some hr, by simp⟩, rfl, rfl, rfl⟩, rfl⟩

theorem does_collectiveWindow {g : Sched} {d : CollDesc} (h : s.due i.val p e) (hk : e.kind = 6) (hr : s.openStep i.val = some r)
    (hg : s.firing i.val = some g) (hd : g.colls.find? (fun d => d.index == bits p.toNat 32 16) = some d) (hkind : d.kind < 3) :
    Does (.collectiveWindow i p) s fun t => ∃ c ∈ t.serve.colls, c.inst = i.val ∧ c.step = r.id ∧ c.desc = d ∧
      c.openAt = (s.firedAt i.val e).time.clk ∧ c.close = (s.firedAt i.val e).time.clk + (bits p.toNat 0 21 - e.tick) ∧ c.route = none ∧
      c.sent = [] ∧ c.got = [] ∧ c.done = none ∧ t.serve.steps = ((s.firedAt i.val e).entryDone r).serve.steps ∧
      Only [.time, .serve] s t := by
  have hp : e.payload = p := h.2.1
  have hact : (s.firedAt i.val e).entryAct i.val e = (s.firedAt i.val e).collWindow i.val e := State.entryAct_six hk
  refine does_of_due h hk rfl ?_
  have hkept : Kept [.time, .serve] s ((s.firedAt i.val e).collWindow i.val e) :=
    State.collWindow_kept.andThen (s.firedAt_kept i.val e)
  rw [hact]
  refine ⟨g.opens d i.val r e (s.firedAt i.val e).time.clk (s.firedAt i.val e).beatTicks, ?_, rfl, rfl, rfl, rfl, by rw [← hp]; rfl, rfl,
    rfl, rfl, rfl, ?_, hkept.only⟩
  all_goals rw [State.collWindow_eq ((s.firedAt_openStep i.val e i.val).trans hr) ((s.firedAt_firing i.val e i.val).trans hg) (hp ▸ hd) hkind]
  exact List.mem_append_right _ (List.mem_singleton.2 rfl)

theorem does_layerStart {b : BeadId} {c : Cfg} {q : Nat} {x : Context} (h : s.due i.val p e) (hk : e.kind = 1)
    (hr : s.openStep i.val = some r) (hfail : r.fail = none) (hb : ((s.firedAt i.val e).entryDone r).layerBeads i.val p.toNat = [b])
    (hc : ((s.firedAt i.val e).entryDone r).schedCfg i.val b (bits p.toNat 4 2) = some c) (hres : c.resident = true)
    (hgen : ∀ y ∈ ((s.firedAt i.val e).entryDone r).ctxsOf c.num, ∀ g, ((s.firedAt i.val e).entryDone r).wantedGen c = some g → y.gen = g.gen)
    (hwant : ((s.firedAt i.val e).entryDone r).wantedGen c ≠ none) (hq : c.physCtx b = some q)
    (hx : ((s.firedAt i.val e).entryDone r).ctx ⟨b, Fin.ofNat 4 q⟩ = some x) :
    Does (.layerStart i p) s fun t =>
      ∃ y, t.ctx ⟨b, Fin.ofNat 4 q⟩ = some y ∧ x.releasedTo y (bits p.toNat 16 16) r.id := by
  refine does_of_due h hk rfl ?_
  have hact : (s.firedAt i.val e).entryAct i.val e = (s.firedAt i.val e).layerStart i.val p := h.2.1 ▸ State.entryAct_one hk
  rw [hact, State.layerStart_of_one ((s.firedAt_openStep i.val e i.val).trans hr) hfail hb, State.gateOf_of_resident hc hres hgen hwant hq]
  exact State.release_ctx _ _ hx

theorem execLayerStart_of_failed (h : s.due i.val p e) (hk : e.kind = 1) (hr : s.openStep i.val = some r) (hfail : r.fail.isSome) :
    exec (.layerStart i p) s = .next ((s.firedAt i.val e).entryDone r) := by
  refine congrArg Host.Outcome.next ((State.fireRow_of_due h hk).trans ((State.entryAct_one hk).trans ?_))
  exact State.layerStart_of_failed ((s.firedAt_openStep i.val e i.val).trans hr) hfail

end

section
variable {s : State} {i : Nat} {idx : Nat} {r : StepRun}

theorem State.completeStep_of_found (h : s.serve.steps.find? (fun r => r.inst == i && r.index == idx) = some r) :
    s.completeStep i idx = if s.mayComplete r then s.finishStep r else s := by
  unfold State.completeStep
  rw [h]

end

/-- Settles O30: the rows with a due entry by what the entry does, the completion by what the end of a step leaves. -/
theorem steps : Obligations.Steps := by
  refine ⟨fun s i p e r h hr => ⟨fun hk => ⟨execLayerStart_of_failed h hk hr, fun b c q x hfail hb hc hres hgen hwant hq hx =>
      does_layerStart h hk hr hfail hb hc hres hgen hwant hq hx⟩,
    fun hk g d hg hd hkind => does_collectiveWindow h hk hr hg hd hkind, fun hk hend => does_stepEnd h hk hr hend⟩,
    fun s i idx r h => ⟨fun hdone => ?_, fun hnot => ?_⟩⟩
  · refine ⟨s.finishStep r, congrArg Host.Outcome.next ((State.completeStep_of_found h).trans (if_pos hdone)), s.finishStep_gone r,
      s.finishStep_power r, s.finishStep_time r⟩
  · exact congrArg Host.Outcome.next ((State.completeStep_of_found h).trans (if_neg (by simp [hnot])))

end Sys2Proof.Machine
end

section
/-! SUPPORT. What is still to fire, and the entries that take no part in a step (R62, R65, R67, R70, R73, R75, R228, R229). -/
namespace Sys2Proof.Machine

/-! ### What is still to fire -/

section
variable {s : State} {i k : Nat} {p : Word64}

theorem State.unfired_of_idle (h : s.instRuns i = false) : s.unfired i = [] := by simp [State.unfired, h]

theorem State.mem_unfired {e : SchedEntry} (h : e ∈ s.unfired i) :
    (s.inst i).fired.1 ≤ e.tick ∧ ∃ g, s.firing i = some g ∧ e ∈ g.entries ∧ e.boff = s.time.beat % max g.cycle 1 := by
  unfold State.unfired at h
  split at h
  · cases h
  · split at h
    · cases h
    · next g hg =>
      dsimp only at h
      obtain hnow | hlater := List.mem_append.1 h
      · have := List.mem_of_mem_drop hnow
        simp only [List.mem_filter, beq_iff_eq] at this
        obtain ⟨⟨hmem, hoff⟩, htick⟩ := this
        exact ⟨htick.ge, g, hg, hmem, hoff⟩
      · simp only [List.mem_filter, beq_iff_eq, Nat.blt_eq] at hlater
        obtain ⟨⟨hmem, hoff⟩, htick⟩ := hlater
        exact ⟨htick.le, g, hg, hmem, hoff⟩

theorem State.fireRow_of_none (h : ∀ e ∈ s.unfired i, e.kind = k → e.payload ≠ p) : s.fireRow i k p = s := by
  have hnone : (s.unfired i).find? (fun e => e.kind == k && e.payload == p) = none :=
    List.find?_eq_none.2 fun e he => by simpa using h e he
  unfold State.fireRow
  simp only [hnone]

end

/-! ### What the entries read stands as the tick comes -/

section
variable (s : State) (i : Nat) (e : SchedEntry)

theorem State.firedAt_still : (s.firedAt i e).time.still = s.time.still := s.toTick_still e.tick

theorem State.firedAt_beat : (s.firedAt i e).time.beat = s.time.beat := (congrArg TimeUnit.beat (s.firedAt_still i e) :)

theorem State.firedAt_colls : (s.firedAt i e).serve.colls = s.serve.colls := (congrArg Serve.colls (s.toTick_serve e.tick) :)

theorem State.firedAt_mem : (s.firedAt i e).mem = s.mem := (s.firedAt_kept i e).same .mem (by decide)

theorem State.firedAt_fab : (s.firedAt i e).fab = s.fab := (s.firedAt_kept i e).same .fab (by decide)

theorem State.firedAt_power : (s.firedAt i e).power = s.power := (s.firedAt_kept i e).same .power (by decide)

theorem State.firedAt_regs : (s.firedAt i e).regs = s.regs := (s.firedAt_kept i e).same .regs (by decide)

theorem State.firedAt_out : (s.firedAt i e).out = s.out := (s.firedAt_kept i e).same .out (by decide)

theorem State.firedAt_arr : (s.firedAt i e).arr = s.arr := (s.firedAt_kept i e).same .arr (by decide)

theorem State.firedAt_mapByte (a : Nat) : (s.firedAt i e).mapByte a = s.mapByte a := by
  have hmap (k : Nat) : ((s.firedAt i e).inst k).pageMap = (s.inst k).pageMap := by
    obtain ⟨f, hf⟩ := s.firedAt_inst i e k
    rw [hf]
  unfold State.mapByte
  simp only [State.firedAt_mem, hmap]

theorem State.firedAt_load (a n : Nat) : (s.firedAt i e).load a n = s.load a n := by
  have hledger : (s.firedAt i e).ledger = s.ledger := by
    unfold State.firedAt State.markFired State.toTick
    split <;> rfl
  have hvault : (s.firedAt i e).vault = s.vault := (s.firedAt_kept i e).same .vault (by decide)
  unfold State.load State.inMaps State.ledgerBytes
  simp only [State.firedAt_mem, State.firedAt_mapByte, hvault, hledger]

theorem State.firedAt_loadFrame (j id gen : Nat) : (s.firedAt i e).loadFrame j id gen = s.loadFrame j id gen := by
  obtain ⟨f, hf⟩ := s.firedAt_inst i e j
  unfold State.loadFrame State.loadBank
  simp only [State.firedAt_load, State.firedAt_beat, hf]
  rfl

theorem State.firedAt_powerFrame : (s.firedAt i e).powerFrame = s.powerFrame := by
  unfold State.powerFrame State.predict
  simp only [State.firedAt_power, State.firedAt_beat]
end

/-! ### A list of prefetches (R228, R229) -/

section
variable {s : State} {i : Nat} {g : Sched} {p : Word64} {l : PfList}

/-- The run of a list of prefetches that a row starts. -/
def State.listRun (s : State) (g : Sched) (i : Nat) (p : Word64) (l : PfList) : PfRun :=
  ⟨i, bits p.toNat 16 5, bits p.toNat 0 16, l.entries,
    s.time.beat + (bits p.toNat 42 16 + g.cycle - s.time.beat % g.cycle) % g.cycle, bits p.toNat 21 21, false⟩

theorem State.startList_of_new (hl : g.lists.find? (fun l => l.stack == bits p.toNat 16 5 && l.index == bits p.toNat 0 16) = some l)
    (hnew : ∀ r ∈ s.mem.lists, r.inst ≠ i ∨ r.stack ≠ bits p.toNat 16 5 ∨ r.index ≠ bits p.toNat 0 16) :
    s.startList g i p = (s.setMem { s.mem with lists := s.mem.lists ++ [s.listRun g i p l] }).markFilling (bits p.toNat 16 5) l.entries := by
  have hany : (s.mem.lists.any fun r => r.inst == i && r.stack == bits p.toNat 16 5 && r.index == bits p.toNat 0 16) = false := by
    refine List.any_eq_false.2 fun r hr => ?_
    have := hnew r hr
    simp only [Bool.and_eq_true, beq_iff_eq]
    tauto
  unfold State.startList
  simp only [hl, hany]
  rfl

theorem State.startList_new_kept (hl : g.lists.find? (fun l => l.stack == bits p.toNat 16 5 && l.index == bits p.toNat 0 16) = some l)
    (hnew : ∀ r ∈ s.mem.lists, r.inst ≠ i ∨ r.stack ≠ bits p.toNat 16 5 ∨ r.index ≠ bits p.toNat 0 16) :
    Kept [.arr, .mem] s (s.startList g i p) := by
  rw [State.startList_of_new hl hnew]
  exact State.markFilling_kept.andThen (Kept.mono State.setMem_kept (by decide))

theorem State.startList_of_running (hl : g.lists.find? (fun l => l.stack == bits p.toNat 16 5 && l.index == bits p.toNat 0 16) = some l)
    (hrun : ∃ r ∈ s.mem.lists, r.inst = i ∧ r.stack = bits p.toNat 16 5 ∧ r.index = bits p.toNat 0 16) :
    s.startList g i p =
      (s.setMem { s.mem with listWaits := s.mem.listWaits ++ [s.listRun g i p l] }).bump (rFrame (bits p.toNat 16 5 / 6) 0xD8) := by
  have hany : (s.mem.lists.any fun r => r.inst == i && r.stack == bits p.toNat 16 5 && r.index == bits p.toNat 0 16) = true := by
    obtain ⟨r, hr, hi, hk, hx⟩ := hrun
    exact List.any_eq_true.2 ⟨r, hr, by simp [hi, hk, hx]⟩
  unfold State.startList
  simp only [hl, hany]
  rfl

theorem State.markFilling_lists (k : Nat) (left : List PfEntry) :
    (s.markFilling k left).mem.lists = s.mem.lists ∧ (s.markFilling k left).mem.cells = s.mem.cells := by
  cases left <;> exact ⟨rfl, rfl⟩

/-- Every tile that the first entry writes is being filled. -/
theorem State.markFilling_filling {k : Nat} {left : List PfEntry} {x : PfEntry} (hx : x ∈ left.head?) {j : Nat} (hj : j < x.tiles) :
    (k, x.dst + j) ∈ (s.markFilling k left).mem.filling := by
  cases left with
  | nil => cases hx
  | cons y left =>
    obtain rfl : y = x := by simpa using hx
    show _ ∈ s.mem.filling ++ _
    by_cases hold : (k, y.dst + j) ∈ s.mem.filling
    · exact List.mem_append_left _ hold
    · refine List.mem_append_right _ (List.mem_map.2 ⟨y.dst + j, List.mem_filter.2 ⟨?_, by simpa using hold⟩, rfl⟩)
      exact List.mem_map.2 ⟨j, List.mem_range.2 hj, rfl⟩

end

section
variable {s : State} {i : Fin 16} {p : Word64} {e : SchedEntry} {g : Sched} {l : PfList}

theorem State.entryAct_firedAt_prefetch (h : s.due i.val p e) (hk : e.kind = 2) (hg : s.firing i.val = some g) :
    (s.firedAt i.val e).entryAct i.val e = (s.firedAt i.val e).startList g i.val p := by
  rw [State.entryAct_two hk ((s.firedAt_firing i.val e i.val).trans hg), h.2.1]

theorem State.firedAt_listRun : (s.firedAt i.val e).listRun g i.val p l = s.listRun g i.val p l := by
  unfold State.listRun
  rw [State.firedAt_beat]

theorem does_prefetch_starts (h : s.due i.val p e) (hk : e.kind = 2) (hg : s.firing i.val = some g)
    (hl : g.lists.find? (fun l => l.stack == bits p.toNat 16 5 && l.index == bits p.toNat 0 16) = some l)
    (hnew : ∀ r ∈ s.mem.lists, r.inst ≠ i.val ∨ r.stack ≠ bits p.toNat 16 5 ∨ r.index ≠ bits p.toNat 0 16) :
    Does (.prefetch i p) s fun t =>
      t.mem.lists = s.mem.lists ++ [s.listRun g i.val p l] ∧ t.mem.cells = s.mem.cells ∧ t.time = (s.firedAt i.val e).time ∧
      Only [.time, .serve, .arr, .mem] s t ∧
      ∀ x ∈ l.entries.head?, ∀ j, j < x.tiles → (bits p.toNat 16 5, x.dst + j) ∈ t.mem.filling := by
  refine does_of_due h hk rfl ?_
  rw [← s.firedAt_mem i.val e] at hnew ⊢
  have hkept : Kept [.arr, .mem] _ _ := State.startList_new_kept hl hnew
  obtain ⟨hlists, hcells⟩ := State.markFilling_lists (s := (s.firedAt i.val e).setMem
    { (s.firedAt i.val e).mem with lists := (s.firedAt i.val e).mem.lists ++ [s.listRun g i.val p l] }) (bits p.toNat 16 5) l.entries
  rw [State.entryAct_firedAt_prefetch h hk hg]
  refine ⟨?_, ?_, hkept.same .time (by decide), (hkept.andThen ((s.firedAt_kept i.val e).mono (by decide))).only, ?_⟩
  all_goals rw [State.startList_of_new hl hnew, State.firedAt_listRun]
  · exact hlists
  · exact hcells
  · exact fun x hx j hj => State.markFilling_filling hx hj

theorem does_prefetch_waits (h : s.due i.val p e) (hk : e.kind = 2) (hg : s.firing i.val = some g)
    (hl : g.lists.find? (fun l => l.stack == bits p.toNat 16 5 && l.index == bits p.toNat 0 16) = some l)
    (hrun : ∃ r ∈ s.mem.lists, r.inst = i.val ∧ r.stack = bits p.toNat 16 5 ∧ r.index = bits p.toNat 0 16) :
    Does (.prefetch i p) s fun t =>
      t.mem = { s.mem with listWaits := s.mem.listWaits ++ [s.listRun g i.val p l] } ∧ t.time = (s.firedAt i.val e).time ∧
      Only [.time, .serve, .mem, .regs] s t ∧
      t.reg (rFrame (bits p.toNat 16 5 / 6) 0xD8) = min (s.reg (rFrame (bits p.toNat 16 5 / 6) 0xD8) + 1) 0xFFFFFFFF := by
  refine does_of_due h hk rfl ?_
  rw [← s.firedAt_mem i.val e] at hrun ⊢
  rw [State.entryAct_firedAt_prefetch h hk hg, State.startList_of_running hl hrun, State.firedAt_listRun]
  refine ⟨rfl, rfl, ?_, ?_⟩
  · exact (State.bump_kept.andThen (Kept.andThen State.setMem_kept ((s.firedAt_kept i.val e).mono (by decide)))).only
  · rw [← State.reg_of_regs (s.firedAt_regs i.val e)]
    exact (State.reg_bump _ _ _).trans (if_pos rfl)

end

/-! ### Slots, preferences, locked phases, replay slots (R62, R65, R67, R73) -/

section
variable {s : State}

theorem State.slotTab_setSlotTab (k j : Nat) (t : GenTable SlotTable) : (s.setSlotTab k t).slotTab j = if j = k then t else s.slotTab j := by
  unfold State.slotTab State.setSlotTab
  rw [findKey_putKey]
  split <;> rfl

/-- What the selection of a generation leaves of a port's slot table. -/
def State.selected (s : State) (gen k : Nat) : GenTable SlotTable :=
  if ((s.slotTab k).slot gen).isSome then GenTable.prune { s.slotTab k with cur := some gen } s.time.beat else s.slotTab k

/-- One port's selection. -/
def State.selectSlot (gen : Nat) (s : State) (k : Nat) : State :=
  let t := s.slotTab k
  if (t.slot gen).isSome then s.setSlotTab k (GenTable.prune { t with cur := some gen } s.time.beat) else s

theorem State.selectSlot_time (gen k : Nat) : (s.selectSlot gen k).time = s.time := by
  unfold State.selectSlot
  dsimp only
  split <;> rfl

theorem State.selectSlot_slotTab (gen k j : Nat) : (s.selectSlot gen k).slotTab j = if j = k then s.selected gen k else s.slotTab j := by
  unfold State.selectSlot State.selected
  dsimp only
  split
  · exact State.slotTab_setSlotTab ..
  · split
    · next hj => rw [hj]
    · rfl

theorem State.selected_selectSlot {gen k j : Nat} (hj : j ≠ k) : (s.selectSlot gen k).selected gen j = s.selected gen j := by
  unfold State.selected
  rw [State.selectSlot_slotTab, if_neg hj, State.selectSlot_time]

theorem State.selectSlot_foldl {gen : Nat} {l : List Nat} (hl : l.Nodup) (s : State) (j : Nat) :
    (l.foldl (State.selectSlot gen) s).slotTab j = if j ∈ l then s.selected gen j else s.slotTab j := by
  induction l generalizing s with
  | nil => rfl
  | cons k l ih =>
    obtain ⟨hk, hl⟩ := List.nodup_cons.1 hl
    rw [List.foldl_cons, ih hl, State.selectSlot_slotTab]
    by_cases hj : j = k
    · subst hj
      simp [hk]
    · simp [hj, State.selected_selectSlot hj]

theorem State.selectSlots_slotTab (p : Word64) {k : Nat} (hk : k < 9) :
    (s.selectSlots p).slotTab k = if bit p.toNat k = true then s.selected (bits p.toNat 16 32) k else s.slotTab k := by
  refine (State.selectSlot_foldl (List.nodup_range.filter _) s k).trans ?_
  simp [hk]

theorem State.coll_onColl {i index : Nat} {c : CollRun} {f : CollRun → CollRun} (hc : s.coll i index = some c)
    (hinst : (f c).inst = c.inst) (hindex : (f c).desc.index = c.desc.index) : (s.onColl i index f).coll i index = some (f c) := by
  have hmatch := List.find?_some hc
  simp only [Bool.and_eq_true, beq_iff_eq] at hmatch
  obtain ⟨hci, hcx⟩ := hmatch
  unfold State.onColl
  rw [hc]
  dsimp only
  have hsame : (fun r : CollRun => r.inst == i && r.desc.index == index) ∘
      (fun x => if x.inst == (f c).inst && x.desc.index == (f c).desc.index then f c else x) =
      fun r => r.inst == i && r.desc.index == index := by
    funext x
    rw [hinst, hindex, hci, hcx]
    dsimp only [Function.comp]
    split
    · next hx => rw [hx, hinst, hindex, hci, hcx]; simp
    · rfl
  unfold State.coll State.setColl
  rw [List.find?_map, hsame]
  unfold State.coll at hc
  rw [hc]
  simp [hinst, hindex]

/-- The eight values of a frame of the link counters are 64 bytes. -/
theorem State.linkFrame_length (s : State) : s.linkFrame.1.length = 64 := by
  simp [State.linkFrame, List.range_succ, leBytes]

end

section
variable {s : State} {i : Fin 16} {p : Word64} {e : SchedEntry}

theorem does_slotSelect (h : s.due i.val p e) (hk : e.kind = 3) :
    Does (.slotSelect i p) s fun t => t.time = (s.firedAt i.val e).time ∧ Only [.time, .serve, .fab] s t ∧ ∀ k, k < 9 →
      t.slotTab k = if bit p.toNat k = true ∧ ((s.slotTab k).slot (bits p.toNat 16 32)).isSome then
          GenTable.prune { s.slotTab k with cur := some (bits p.toNat 16 32) } s.time.beat
        else s.slotTab k := by
  refine does_of_due h hk rfl ?_
  rw [State.entryAct_three hk, h.2.1]
  refine ⟨State.selectSlots_kept.same .time (by decide), (State.selectSlots_kept.andThen ((s.firedAt_kept i.val e).mono (by decide))).only,
    fun k hk9 => ?_⟩
  have htab : (s.firedAt i.val e).slotTab k = s.slotTab k := by
    unfold State.slotTab
    rw [State.firedAt_fab]
  rw [State.selectSlots_slotTab p hk9, State.selected, htab, State.firedAt_beat, ite_and]

theorem does_opPref (h : s.due i.val p e) (hk : e.kind = 4) :
    Does (.opPref i p) s fun t => t.time = (s.firedAt i.val e).time ∧ Only [.time, .serve, .power] s t ∧ ∀ d, d < 4 →
      nth none t.power.prefs d = if bit p.toNat d then some (bits p.toNat 4 4) else nth none s.power.prefs d := by
  refine does_of_due h hk rfl ?_
  rw [State.entryAct_four hk, h.2.1]
  refine ⟨rfl, (State.opPrefFire_kept.andThen ((s.firedAt_kept i.val e).mono (by decide))).only, fun d hd => ?_⟩
  rw [← s.firedAt_power i.val e]
  unfold State.opPrefFire nth
  simp [hd]

theorem execLockBegin_of_due (h : s.due i.val p e) (hk : e.kind = 5) :
    exec (.lockBegin i p) s = .next { s.firedAt i.val e with time := { (s.firedAt i.val e).time with
      lockEnds := (s.firedAt i.val e).time.lockEnds ++ [(i.val, s.time.beat + (bits p.toNat 0 16 - e.boff))] } } := by
  refine congrArg Host.Outcome.next ((State.fireRow_of_due h hk).trans ((State.entryAct_five hk).trans ?_))
  rw [← s.firedAt_beat i.val e, ← h.2.1]
  rfl

theorem does_replaySlot {c : CollRun} (h : s.due i.val p e) (hk : e.kind = 7) (hc : s.coll i.val (bits p.toNat 32 16) = some c) :
    Does (.replaySlot i p) s fun t =>
      Only [.time, .serve] s t ∧ t.time = (s.firedAt i.val e).time ∧ ∃ d, t.coll i.val (bits p.toNat 32 16) = some d ∧
        d = { c with slotOpen := (s.firedAt i.val e).time.clk, slotClose := (s.firedAt i.val e).time.clk + (bits p.toNat 0 21 - e.tick) } := by
  refine does_of_due h hk rfl ?_
  have hc' : (s.firedAt i.val e).coll i.val (bits p.toNat 32 16) = some c := by rw [State.coll, State.firedAt_colls]; exact hc
  rw [State.entryAct_seven hk]
  refine ⟨(State.replaySlot_kept.andThen (s.firedAt_kept i.val e)).only, State.replaySlot_kept.same .time (by decide), _, ?_, rfl⟩
  unfold State.replaySlot
  rw [h.2.1]
  exact State.coll_onColl hc' rfl rfl

theorem State.firedAt_telemetry (h : s.due i.val p e) (hk : e.kind = 8) :
    (s.firedAt i.val e).entryAct i.val e = (s.firedAt i.val e).telemetry p := by
  rw [State.entryAct_eight hk, h.2.1]

/-- A frame of the power, the numerics, the loads or the tokens is read, not drawn. -/
theorem State.telemetry_of_kept (hkind : bits p.toNat 0 4 < 4) : ∃ fs : List (List Byte),
    s.telemetry p = s.emits (fs.map fun f => Out.frame (bits p.toNat 4 3) (bits p.toNat 0 4) f) ∧
    (bits p.toNat 0 4 = 0 → fs = [s.powerFrame]) ∧ (bits p.toNat 0 4 = 1 → fs = [numSummary s.arr.numLast (s.time.beat - 1)]) ∧
    (bits p.toNat 0 4 = 2 → fs = s.serve.loadGens.filterMap fun g => s.loadFrame g.1 g.2.1 g.2.2) ∧
    (bits p.toNat 0 4 = 3 → fs = s.serve.tokFrames) := by
  unfold State.telemetry
  dsimp only
  generalize bits p.toNat 0 4 = kind at *
  obtain rfl | rfl | rfl | rfl : kind = 0 ∨ kind = 1 ∨ kind = 2 ∨ kind = 3 := by omega
  · exact ⟨_, rfl, by simp⟩
  · exact ⟨_, rfl, by simp⟩
  · exact ⟨_, rfl, by simp⟩
  · exact ⟨_, rfl, by simp⟩

theorem State.telemetry_of_links (hkind : 4 ≤ bits p.toNat 0 4) :
    s.telemetry p = s.linkFrame.2.emits [Out.frame (bits p.toNat 4 3) (bits p.toNat 0 4) s.linkFrame.1] := by
  unfold State.telemetry
  dsimp only
  rw [if_neg (by omega), if_neg (by omega), if_neg (by omega), if_neg (by omega)]
  rfl

theorem does_telemetry (h : s.due i.val p e) (hk : e.kind = 8) (hkind : bits p.toNat 0 4 < 4) :
    Does (.telemetry i p) s fun t => t.time = (s.firedAt i.val e).time ∧ Only [.time, .serve, .out] s t ∧
      (bits p.toNat 0 4 = 0 → t.out = s.out ++ [.frame (bits p.toNat 4 3) 0 s.powerFrame]) ∧
      (bits p.toNat 0 4 = 1 → t.out = s.out ++ [.frame (bits p.toNat 4 3) 1 (numSummary s.arr.numLast (s.time.beat - 1))]) ∧
      (bits p.toNat 0 4 = 2 → t.out = s.out ++
        (s.serve.loadGens.filterMap fun g => s.loadFrame g.1 g.2.1 g.2.2).map (Out.frame (bits p.toNat 4 3) 2)) ∧
      (bits p.toNat 0 4 = 3 → t.out = s.out ++ s.serve.tokFrames.map (Out.frame (bits p.toNat 4 3) 3)) := by
  obtain ⟨fs, hfs, hpower, hnum, hload, htok⟩ := State.telemetry_of_kept (s := s.firedAt i.val e) hkind
  have hgens : (s.firedAt i.val e).serve.loadGens = s.serve.loadGens := (congrArg Serve.loadGens (s.toTick_serve e.tick) :)
  have htoks : (s.firedAt i.val e).serve.tokFrames = s.serve.tokFrames := (congrArg Serve.tokFrames (s.toTick_serve e.tick) :)
  refine does_of_due h hk rfl ?_
  rw [State.firedAt_telemetry h hk, hfs]
  refine ⟨rfl, (State.emits_kept.andThen ((s.firedAt_kept i.val e).mono (by decide))).only, ?_⟩
  rw [State.emits_out, State.firedAt_out]
  rw [State.firedAt_powerFrame] at hpower
  rw [State.firedAt_arr, State.firedAt_beat] at hnum
  simp only [hgens, State.firedAt_loadFrame] at hload
  rw [htoks] at htok
  refine ⟨fun h0 => ?_, fun h1 => ?_, fun h2 => ?_, fun h3 => ?_⟩
  · rw [hpower h0, h0]
    rfl
  · rw [hnum h1, h1]
    rfl
  · rw [hload h2, h2]
  · rw [htok h3, h3]

theorem does_telemetry_links (h : s.due i.val p e) (hk : e.kind = 8) (hkind : 4 ≤ bits p.toNat 0 4) :
    Does (.telemetry i p) s fun t => t.time = (s.firedAt i.val e).time ∧ Only [.time, .serve, .out, .free] s t ∧
      ∃ f : List Byte, f.length = 64 ∧ t.out = s.out ++ [.frame (bits p.toNat 4 3) (bits p.toNat 0 4) f] := by
  refine does_of_due h hk rfl ?_
  rw [State.firedAt_telemetry h hk, State.telemetry_of_links hkind]
  refine ⟨State.linkFrame_kept.same .time (by decide), ?_, (s.firedAt i.val e).linkFrame.1, State.linkFrame_length _, ?_⟩
  · exact (State.emits_kept.andThen (State.linkFrame_kept.andThen ((s.firedAt_kept i.val e).mono (by decide)))).only
  · rw [State.emits_out, State.linkFrame_kept.same .out (by decide), State.firedAt_out]

end

/-- Settles O29: a row without a due entry does nothing, and a due entry does what its kind says in the state of its tick. -/
theorem scheduleEntries : Obligations.ScheduleEntries := by
  refine ⟨fun s i p => ⟨State.unfired_of_idle, fun e he => State.mem_unfired he, fun r hr hno => ?_⟩, fun s i p e h =>
    ⟨fun hk g l hg hl => ⟨does_prefetch_starts h hk hg hl, does_prefetch_waits h hk hg hl⟩, does_slotSelect h, does_opPref h,
      execLockBegin_of_due h, fun hk c hc => does_replaySlot h hk hc, fun hk => ⟨does_telemetry h hk, does_telemetry_links h hk⟩⟩⟩
  have hrow := State.fireRow_of_none hno
  simp only [List.mem_cons, List.not_mem_nil, or_false] at hr
  rcases hr with rfl | rfl | rfl | rfl | rfl | rfl | rfl | rfl | rfl <;> exact congrArg Host.Outcome.next hrow

end Sys2Proof.Machine
end

section
/-! SUPPORT. What the entries that fire and the end of a beat leave of the time unit and of the ports (R41, R57, R61, R62). -/
namespace Sys2Proof.Machine

/-! ### The ticks that pass -/

/-- A count goes past its mark by one tick at most. -/
theorem slewOver_extra_le (k c n : Nat) (r : Int) : (slewOver k c r n).2.2 ≤ 1 := by
  induction k generalizing c n r with
  | zero => exact Nat.zero_le 1
  | succ k ih =>
    unfold slewOver
    split
    · exact Nat.zero_le 1
    · split
      · exact ih _ _ _
      · split
        · exact Nat.le_refl 1
        · exact ih _ _ _

/-- A correction that holds ticks passes no mark, and stays one that holds. -/
theorem slewOver_of_nonneg {k c n : Nat} {r : Int} (hr : 0 ≤ r) (hk : r.natAbs = k) :
    0 ≤ (slewOver k c r n).2.1 ∧ (slewOver k c r n).2.2 = 0 := by
  induction k generalizing c n r with
  | zero => exact ⟨hr, rfl⟩
  | succ k ih =>
    unfold slewOver
    split
    · exact ⟨hr, rfl⟩
    · rw [if_pos (by omega)]
      exact ih (by omega) (by omega)

/-- What a state's time unit and ports keep while entries fire: all but the count and the ends of the locked phases, and a correction
that holds ticks stays one. -/
structure Counted (s t : State) : Prop where
  still : t.time.still = s.time.still
  corr  : 0 ≤ s.time.corr → 0 ≤ t.time.corr
  ports : t.fab.ports = s.fab.ports

theorem Counted.refl (s : State) : Counted s s := ⟨rfl, id, rfl⟩

theorem Counted.trans {s t u : State} (h : Counted s t) (h' : Counted t u) : Counted s u :=
  ⟨h'.still.trans h.still, h'.corr ∘ h.corr, h'.ports.trans h.ports⟩

theorem Counted.of_same {s t : State} (ht : t.time = s.time) (hp : t.fab.ports = s.fab.ports) : Counted s t :=
  ⟨by rw [ht], by rw [ht]; exact id, hp⟩

theorem Counted.foldl {α : Type} {f : State → α → State} (hf : ∀ y a, Counted y (f y a)) (l : List α) (s : State) :
    Counted s (l.foldl f s) := by
  induction l generalizing s with
  | nil => exact Counted.refl s
  | cons a l ih => exact (hf s a).trans (ih _)

theorem State.toTick_counted (s : State) (n : Nat) : Counted s (s.toTick n) := by
  unfold State.toTick
  split
  · exact Counted.refl s
  · exact ⟨rfl, fun h => (slewOver_of_nonneg h rfl).1, rfl⟩

/-! ### The ports through an entry -/

section
variable (s : State) (i : Nat) (e : SchedEntry) (p : Word64)

theorem State.selectSlots_ports : (s.selectSlots p).fab.ports = s.fab.ports := by
  have h : (s.selectSlots p).standing = s.standing := by
    refine State.standing_foldl (fun y k => ?_) _ _
    exact State.standing_ite rfl rfl
  exact congrArg (fun x => x.2.2) h

theorem State.stepEnd_ports : (s.stepEnd i p).fab.ports = s.fab.ports := by
  have hgates (u : State) : (u.clearGates i).fab.ports = u.fab.ports := congrArg (fun x => x.2.2) (u.clearGates_standing i)
  unfold State.stepEnd
  dsimp only
  split
  · exact hgates s
  · split
    · exact (hgates _).trans (congrArg (fun x => x.2.2) (s.finishStep_standing _))
    · split
      · exact hgates s
      · rw [State.instEvent_kept.same .fab (by decide)]
        exact hgates s

/-- The one entry that changes the time unit is the beginning of a locked phase. -/
theorem State.entryAct_time : ∃ l, (s.entryAct i e).time = { s.time with lockEnds := l } := by
  unfold State.entryAct
  split
  · exact ⟨_, State.layerStart_kept.same .time (by decide)⟩
  · split
    · exact ⟨_, State.startList_kept.same .time (by decide)⟩
    · exact ⟨_, rfl⟩
  · exact ⟨_, State.selectSlots_kept.same .time (by decide)⟩
  · exact ⟨_, State.opPrefFire_kept.same .time (by decide)⟩
  · exact ⟨_, rfl⟩
  · exact ⟨_, State.collWindow_kept.same .time (by decide)⟩
  · exact ⟨_, State.replaySlot_kept.same .time (by decide)⟩
  · exact ⟨_, State.telemetry_kept.same .time (by decide)⟩
  · exact ⟨_, State.stepEnd_kept.same .time (by decide)⟩
  · exact ⟨_, rfl⟩

theorem State.entryAct_ports : (s.entryAct i e).fab.ports = s.fab.ports := by
  unfold State.entryAct
  split
  · rw [State.layerStart_kept.same .fab (by decide)]
  · split
    · rw [State.startList_kept.same .fab (by decide)]
    · rfl
  · exact s.selectSlots_ports _
  · rw [State.opPrefFire_kept.same .fab (by decide)]
  · rfl
  · rw [State.collWindow_kept.same .fab (by decide)]
  · rw [State.replaySlot_kept.same .fab (by decide)]
  · rw [State.telemetry_kept.same .fab (by decide)]
  · exact s.stepEnd_ports i _
  · rfl

theorem State.entryAct_counted : Counted s (s.entryAct i e) := by
  obtain ⟨l, hl⟩ := s.entryAct_time i e
  exact ⟨by rw [hl]; rfl, by rw [hl]; exact id, s.entryAct_ports i e⟩

theorem State.fireEntry_counted : Counted s (s.fireEntry i e) := by
  have hfired : Counted s (s.firedAt i e) := (s.toTick_counted e.tick).trans (Counted.of_same rfl rfl)
  exact hfired.trans (State.entryAct_counted (s.firedAt i e) i e)

theorem State.fireAll_counted (l : List (Nat × SchedEntry)) : Counted s (s.fireAll l) := by
  refine Counted.foldl (fun y q => ?_) l s
  split
  · exact y.fireEntry_counted q.1 q.2
  · exact Counted.refl y

theorem State.drainSlots_standing (n : Nat) : (s.drainSlots n).standing = s.standing := by
  unfold State.drainSlots
  refine State.standing_ite rfl ((State.standing_foldl (fun y x => ?_) _ _).trans rfl)
  exact State.standing_of_kept State.sendOn_kept (by decide) (by decide)

theorem State.drainSlots_counted (n : Nat) : Counted s (s.drainSlots n) :=
  .of_same (State.drainSlots_kept.same .time (by decide)) (congrArg (fun x => x.2.2) (s.drainSlots_standing n))

/-! ### Entries whose tick has come leave the count -/

/-- The time unit but for the ends of the locked phases. -/
def TimeUnit.unlocked (t : TimeUnit) : TimeUnit := { t with lockEnds := [] }

theorem State.fireEntry_unlocked (h : e.tick ≤ s.time.tick) : (s.fireEntry i e).time.unlocked = s.time.unlocked := by
  have hcome : s.toTick e.tick = s := if_pos h
  obtain ⟨l, hl⟩ := (s.markFired i e).entryAct_time i e
  unfold State.fireEntry
  rw [hcome, hl]
  rfl

theorem State.fireAll_unlocked {l : List (Nat × SchedEntry)} (h : ∀ q ∈ l, q.2.tick ≤ s.time.tick) :
    (s.fireAll l).time.unlocked = s.time.unlocked := by
  induction l generalizing s with
  | nil => rfl
  | cons q l ih =>
    have hfire : (if s.instRuns q.1 then s.fireEntry q.1 q.2 else s).time.unlocked = s.time.unlocked := by
      split
      · exact s.fireEntry_unlocked q.1 q.2 (h q (List.mem_cons_self ..))
      · rfl
    have htick : (if s.instRuns q.1 then s.fireEntry q.1 q.2 else s).time.tick = s.time.tick := (congrArg TimeUnit.tick hfire :)
    exact (ih _ fun q' hq' => by rw [htick]; exact h q' (List.mem_cons_of_mem _ hq')).trans hfire

theorem State.catchUp_unlocked : s.catchUp.time.unlocked = s.time.unlocked := by
  unfold State.catchUp
  rw [State.drainSlots_kept.same .time (by decide)]
  refine State.fireAll_unlocked s fun q hq => ?_
  have hmem := (sortOn_perm _ _).mem_iff.1 hq
  obtain ⟨j, -, hj⟩ := List.mem_flatMap.1 hmem
  obtain ⟨x, hx, rfl⟩ := List.mem_map.1 hj
  simpa using (List.mem_filter.1 hx).2

end

end Sys2Proof.Machine
end

section
/-! SUPPORT. The beat boundary in the time unit, and the marker that begins the beat (R41, R51, R54, R61, R63, R515). -/
namespace Sys2Proof.Machine

/-! ### The beat that ends -/

section
variable (s : State)

/-- What the beat that ends has left of it as the next one comes: its entries have fired, its slots have been served. -/
def State.ended : State :=
  let u := ((s.fireAll (s.entriesIn fun _ _ => true)).drainSlots s.beatTicks).holdSlots
  { u with serve := { u.serve with loadGens := u.currentRoutes } }

theorem State.ended_counted : Counted s s.ended := by
  have hfired := (s.fireAll_counted (s.entriesIn fun _ _ => true)).trans (State.drainSlots_counted _ s.beatTicks)
  unfold State.ended
  generalize (s.fireAll (s.entriesIn fun _ _ => true)).drainSlots s.beatTicks = u at *
  exact hfired.trans (Counted.of_same rfl rfl)

theorem State.endBeat_of_ended (h : s.ended.time.beat + 1 ≠ lastBeat) :
    Kept [.serve, .power, .platform, .out, .arr, .handed, .mem, .regs, .rings] s.ended.nextBeat s.endBeat := by
  have hend : s.endBeat = ((s.ended.nextBeat.numberingEnd s.ended.time.beat).newEntries).closeMeas.numericTurn.poolRecords.droopStep := rfl
  rw [hend, State.numberingEnd, if_neg h]
  refine State.droopStep_kept.andThen ?_
  refine State.poolRecords_kept.andThen ?_
  refine State.numericTurn_kept.andThen ?_
  refine State.closeMeas_kept.andThen ?_
  exact State.newEntries_kept.mono (by decide)

theorem State.nextBeat_still (h : s.time.beat + 1 ≤ lastBeat) :
    s.nextBeat.time.still = { s.time.still with beat := s.time.beat + 1 } := by
  unfold State.nextBeat
  dsimp only
  rw [State.setTime_time, show (s.time.run (s.beatTicks - s.time.tick)).beat = s.time.beat from rfl, min_eq_left h]
  rfl

theorem State.nextBeat_tick :
    s.nextBeat.time.tick = (slewOver s.time.corr.natAbs s.time.ctr10 s.time.corr (s.beatTicks - s.time.tick)).2.2 := Nat.add_sub_cancel_left ..

/-- The time unit and the ports as the next beat begins. -/
theorem State.endBeat_count (h : s.time.beat + 1 < lastBeat) :
    s.endBeat.time.still = { s.time.still with beat := s.time.beat + 1 } ∧ s.endBeat.time.tick ≤ 1 ∧
      (0 ≤ s.time.corr → s.endBeat.time.tick = 0) ∧ s.endBeat.fab.ports = s.fab.ports := by
  have hcount := s.ended_counted
  have hbeat : s.ended.time.beat = s.time.beat := (congrArg TimeUnit.beat hcount.still :)
  have hkept := s.endBeat_of_ended (by omega)
  have htime : s.endBeat.time = s.ended.nextBeat.time := hkept.same .time (by decide)
  have hfab : s.endBeat.fab = s.ended.nextBeat.fab := hkept.same .fab (by decide)
  rw [htime, hfab, State.nextBeat_tick, State.nextBeat_still _ (by omega), hcount.still, hbeat]
  exact ⟨rfl, slewOver_extra_le _ _ _ _, fun hc => (slewOver_of_nonneg (hcount.corr hc) rfl).2, hcount.ports⟩

end

/-! ### The takeover and the period -/

section
variable {s : State}

theorem State.handover_of_none (h : s.time.takeover = none) : s.handover = s := by
  unfold State.handover
  rw [h]

theorem State.handover_time (t : Takeover) (h : s.time.takeover = some t) (hb : t.beat ≤ s.time.beat) :
    s.handover.time =
      if t.toMaster then
        { s.time with role := .master, st := .locked, epoch := (s.time.epoch + 1) % 2 ^ 16, takeover := none, holdover := 0, corr := 0,
                      phaseErr := 0 }
      else
        { s.time with role := .slave, acquired := true, takeover := none, heard := [], discarded := false, holdover := 0, bad := 0,
                      good := 0 } := by
  unfold State.handover
  rw [h]
  dsimp only
  rw [if_neg (Nat.not_lt.2 hb)]
  split <;> exact State.timeRecord_kept.same .time (by decide)

theorem State.handover_count : s.handover.time.beat = s.time.beat ∧ s.handover.time.tick = s.time.tick := by
  have hrecord (u : State) : (u.timeRecord 3).time = u.time := State.timeRecord_kept.same .time (by decide)
  unfold State.handover
  split
  · exact ⟨rfl, rfl⟩
  · split
    · exact ⟨rfl, rfl⟩
    · dsimp only
      split <;> rw [hrecord] <;> exact ⟨rfl, rfl⟩

/-- A change of the period is one of the time unit; the steps that it fails and the registers do not touch it. -/
theorem State.newPeriod_setTime_kept (p epoch : Nat) : Kept [.regs, .serve, .handed]
    (s.setTime { s.time with period := p, epoch := epoch, pendPeriod := none }) (s.newPeriod p epoch) := by
  unfold State.newPeriod
  dsimp only
  refine State.timeRecord_kept.andThen (Kept.ite ?_ ?_)
  · exact State.setReg_kept.andThen (State.failSteps_kept.mono (by decide))
  · exact State.failSteps_kept.mono (by decide)

theorem State.newPeriod_time (p epoch : Nat) :
    (s.newPeriod p epoch).time = { s.time with period := p, epoch := epoch, pendPeriod := none } :=
  (State.newPeriod_setTime_kept p epoch).same .time (by decide)

theorem State.periodTurn_of_none (h : s.time.pendPeriod = none) : s.periodTurn = s := by
  unfold State.periodTurn
  rw [h]

theorem State.periodTurn_of_due {p b : Nat} (h : s.time.pendPeriod = some (p, b)) (hb : b ≤ s.time.beat) (hl : s.beatLocked = true) :
    s.periodTurn.time = { s.time with period := p, epoch := (s.time.epoch + 1) % 2 ^ 16, pendPeriod := none } := by
  unfold State.periodTurn
  rw [h]
  simp only [hb, hl, Bool.and_true, decide_true, if_true]
  exact State.newPeriod_time _ _

/-- Whatever becomes of the period, the count, the role and the state stand. -/
theorem State.periodTurn_time : ∃ p n q, s.periodTurn.time = { s.time with period := p, epoch := n, pendPeriod := q } := by
  unfold State.periodTurn
  split
  · split
    · exact ⟨_, _, _, State.newPeriod_time _ _⟩
    · exact ⟨_, _, _, rfl⟩
  · exact ⟨_, _, _, rfl⟩

/-! ### The boundary -/

/-- What turns after the time unit. -/
def State.turnRest (s : State) : State := s.rollTenants.tablesTurn.applyPending.thermalStep.applySpare.routesTurn.routesOpen

theorem State.turnRest_kept : Kept [.regs, .arr, .mem, .serve, .vault, .fab, .arb, .rings, .power, .faults, .handed, .out] s s.turnRest := by
  unfold State.turnRest
  refine State.routesOpen_kept.andThen ?_
  refine State.routesTurn_kept.andThen ?_
  refine State.applySpare_kept.andThen ?_
  refine State.thermalStep_kept.andThen ?_
  refine State.applyPending_kept.andThen ?_
  refine State.tablesTurn_kept.andThen ?_
  exact State.rollTenants_kept.mono (by decide)

theorem State.beginBeat_unlocked : s.beginBeat.time.unlocked = s.time.unlocked := by
  have hkept : Kept [.mem, .regs, .arr, .serve, .vault, .fab, .rings, .power, .faults, .handed, .out] s
      (s.clearBanks.startSteps.admission.sendSteel.swap []) := by
    refine State.swap_kept.andThen ?_
    refine State.sendSteel_kept.andThen ?_
    refine State.admission_kept.andThen ?_
    refine State.startSteps_kept.andThen ?_
    exact State.clearBanks_kept.mono (by decide)
  rw [← hkept.same .time (by decide)]
  exact State.catchUp_unlocked _

/-- The time unit past a boundary is what the takeover and the period leave, but for the ends of the locked phases. -/
theorem State.boundary_unlocked (h : s.hubRuns = true) :
    (s.watched State.boundary).time.unlocked = s.endBeat.handover.periodTurn.time.unlocked := by
  have hturn : s.endBeat.turn.time = s.endBeat.handover.periodTurn.time :=
    (State.turnRest_kept (s := State.beginMarker _).same .time (by decide)).trans (State.beginMarker_kept.same .time (by decide))
  unfold State.watched
  rw [State.sensorEvents_kept.same .time (by decide), State.boundary, if_pos h, State.beginBeat_unlocked, hturn]

/-- A master that runs past the takeover and the period sends its marker on every admitted port. -/
theorem State.boundary_out (h : s.hubRuns = true) (hrole : s.endBeat.handover.periodTurn.time.role = .master)
    (hst : s.endBeat.handover.periodTurn.time.st = .locked) :
    ∀ k ∈ s.endBeat.handover.periodTurn.admittedPorts,
      Out.marker k s.endBeat.handover.periodTurn.marker ∈ (s.watched State.boundary).out := by
  intro k hk
  generalize hu : s.endBeat.handover.periodTurn = u at *
  have hsend : u.beginMarker = u.sendMarkers := by simp [State.beginMarker, hrole, hst]
  have hmem : Out.marker k u.marker ∈ u.beginMarker.out := by
    rw [hsend, State.sendMarkers_out]
    exact List.mem_append_right _ (List.mem_map.2 ⟨k, hk, rfl⟩)
  have hturn : s.endBeat.turn = u.beginMarker.turnRest := by
    rw [← hu]
    rfl
  unfold State.watched
  refine State.sensorEvents_kept.out.subset ?_
  rw [State.boundary, if_pos h, hturn]
  exact State.beginBeat_kept.out.subset (State.turnRest_kept.out.subset hmem)

theorem State.boundary_of_off (h : s.hubRuns = false) : s.watched State.boundary = s := by
  unfold State.watched
  rw [State.boundary, h]
  exact s.sensorEvents_self

/-- A takeover leaves the count. -/
theorem State.turned_count : s.handover.periodTurn.time.beat = s.time.beat ∧ s.handover.periodTurn.time.tick = s.time.tick := by
  obtain ⟨p, n, q, hperiod⟩ := s.handover.periodTurn_time
  rw [hperiod]
  exact State.handover_count

theorem State.admittedPorts_of_ports {s t : State} (h : t.fab.ports = s.fab.ports) : t.admittedPorts = s.admittedPorts := by
  unfold State.admittedPorts State.port
  rw [h]

theorem State.beatLocked_of_st {s t : State} (h : t.time.st = s.time.st) : t.beatLocked = s.beatLocked := by
  unfold State.beatLocked
  rw [h]

end

/-! ### The obligation -/

section
variable {s : State}

/-- A field of the time unit past a boundary that no locked phase holds. -/
theorem State.boundary_field {α : Type} (f : TimeUnit → α) (hf : ∀ t : TimeUnit, f t.unlocked = f t) (h : s.hubRuns = true) :
    f (s.watched State.boundary).time = f s.endBeat.handover.periodTurn.time := by
  rw [← hf, State.boundary_unlocked h, hf]

theorem does_beatBoundary (h : s.hubRuns = true) (hbeat : s.time.beat + 1 < lastBeat) :
    Does .beatBoundary s fun t =>
      t.time.beat = s.time.beat + 1 ∧ t.time.tick ≤ 1 ∧ (0 ≤ s.time.corr → t.time.tick = 0) ∧
      (∀ p b, s.time.takeover = none → s.time.pendPeriod = some (p, b) → b ≤ s.time.beat + 1 → s.beatLocked = true →
        t.time.period = p ∧ t.time.epoch = (s.time.epoch + 1) % 65536 ∧ t.time.pendPeriod = none ∧ t.time.role = s.time.role) ∧
      (∀ b, s.time.pendPeriod = none → s.time.takeover = some ⟨true, b⟩ → b ≤ s.time.beat + 1 →
        t.time.role = .master ∧ t.time.st = .locked ∧ t.time.epoch = (s.time.epoch + 1) % 65536 ∧ t.time.takeover = none) ∧
      (∀ b, s.time.pendPeriod = none → s.time.takeover = some ⟨false, b⟩ → b ≤ s.time.beat + 1 →
        t.time.role = .slave ∧ t.time.takeover = none ∧ t.time.epoch = s.time.epoch) ∧
      (s.time.role = .master → s.time.st = .locked → s.time.takeover = none → ∀ k ∈ s.admittedPorts,
        ∃ b : Marker, b.beat.toNat = s.time.beat + 1 ∧ Out.marker k b ∈ t.out) := by
  have hlast : lastBeat < 2 ^ 48 := by decide
  obtain ⟨hstill, htick, htick0, hports⟩ := s.endBeat_count hbeat
  have hout := State.boundary_out h
  refine ⟨s.watched State.boundary, rfl, ?_⟩
  have hfield {α : Type} (f : TimeUnit → α) (hf : ∀ t : TimeUnit, f t.unlocked = f t) :
    f (s.watched State.boundary).time = f s.endBeat.handover.periodTurn.time := State.boundary_field f hf h
  generalize s.watched State.boundary = t at *
  generalize s.endBeat = v at *
  have hvbeat : v.time.beat = s.time.beat + 1 := (congrArg TimeUnit.beat hstill :)
  have hvst : v.time.st = s.time.st := (congrArg TimeUnit.st hstill :)
  have hvrole : v.time.role = s.time.role := (congrArg TimeUnit.role hstill :)
  have hvepoch : v.time.epoch = s.time.epoch := (congrArg TimeUnit.epoch hstill :)
  have hvpend : v.time.pendPeriod = s.time.pendPeriod := (congrArg TimeUnit.pendPeriod hstill :)
  have hvtake : v.time.takeover = s.time.takeover := (congrArg TimeUnit.takeover hstill :)
  obtain ⟨hcbeat, hctick⟩ := v.turned_count
  refine ⟨?_, ?_, fun hc => ?_, fun p b hnone hpend hb hl => ?_, fun b hnone htake hb => ?_, fun b hnone htake hb => ?_,
    fun hrole hst hnone k hk => ?_⟩
  · rw [hfield TimeUnit.beat fun _ => rfl, hcbeat, hvbeat]
  · rw [hfield TimeUnit.tick fun _ => rfl, hctick]
    exact htick
  · rw [hfield TimeUnit.tick fun _ => rfl, hctick]
    exact htick0 hc
  · have hturn := State.periodTurn_of_due (hvpend.trans hpend) (hb.trans hvbeat.ge) ((State.beatLocked_of_st hvst).trans hl)
    rw [hfield TimeUnit.period fun _ => rfl, hfield TimeUnit.epoch fun _ => rfl, hfield TimeUnit.pendPeriod fun _ => rfl,
      hfield TimeUnit.role fun _ => rfl, State.handover_of_none (hvtake.trans hnone), hturn, ← hvepoch, ← hvrole]
    exact ⟨rfl, rfl, rfl, rfl⟩
  · have htime := State.handover_time _ (hvtake.trans htake) (hb.trans hvbeat.ge)
    rw [if_pos rfl] at htime
    have hpend : v.handover.time.pendPeriod = none := by rw [htime]; exact hvpend.trans hnone
    rw [hfield TimeUnit.role fun _ => rfl, hfield TimeUnit.st fun _ => rfl, hfield TimeUnit.epoch fun _ => rfl,
      hfield TimeUnit.takeover fun _ => rfl, State.periodTurn_of_none hpend, htime, ← hvepoch]
    exact ⟨rfl, rfl, rfl, rfl⟩
  · have htime := State.handover_time _ (hvtake.trans htake) (hb.trans hvbeat.ge)
    rw [if_neg Bool.false_ne_true] at htime
    have hpend : v.handover.time.pendPeriod = none := by rw [htime]; exact hvpend.trans hnone
    rw [hfield TimeUnit.role fun _ => rfl, hfield TimeUnit.takeover fun _ => rfl, hfield TimeUnit.epoch fun _ => rfl,
      State.periodTurn_of_none hpend, htime, ← hvepoch]
    exact ⟨rfl, rfl, rfl⟩
  · rw [State.handover_of_none (hvtake.trans hnone)] at hout hcbeat
    obtain ⟨p, n, q, hperiod⟩ := v.periodTurn_time
    have hurole : v.periodTurn.time.role = .master := by rw [hperiod]; exact hvrole.trans hrole
    have hust : v.periodTurn.time.st = .locked := by rw [hperiod]; exact hvst.trans hst
    have hufab : v.periodTurn.fab = v.fab := State.periodTurn_kept.same .fab (by decide)
    have huports : v.periodTurn.admittedPorts = s.admittedPorts := State.admittedPorts_of_ports (by rw [hufab, hports])
    refine ⟨v.periodTurn.marker, ?_, hout hurole hust k (huports ▸ hk)⟩
    show v.periodTurn.time.beat % 2 ^ 48 = _
    rw [hcbeat, hvbeat]
    exact Nat.mod_eq_of_lt (by omega)

end

/-- Settles O28: the boundary of a hub that runs, by the count past the beat that ends and what the takeover and the period make of it. -/
theorem beatBoundary : Obligations.BeatBoundary := fun _ =>
  ⟨fun h => congrArg Host.Outcome.next (State.boundary_of_off h), does_beatBoundary⟩

end Sys2Proof.Machine
end

section
/-! SUPPORT. A switch unit whose output leads back to its own bead, where a second entry of the list of contexts bears the number of the
context that the unit belongs to (R98, R105). -/
namespace Sys2Proof.Machine

/-- A context with a switch unit whose control and data are the one entry on edge 0 and whose output 0 names edge 0 of its own bead. -/
def loopingCtx : Context :=
  { id := ⟨⟨0, 0, 0⟩, 0⟩, valid := true, config := 0, gen := 0, acts := [], pc := 0, ctrs := [],
    ins := [⟨0, [⟨0, 0⟩], 0, 0, [], none⟩], outs := [⟨0, 1, 0, []⟩], steer := [1], steerBad := [false], winBase := 0, winSize := 0,
    gate := none, started := false, ended := false, blocked := false, expect := 0, waitFrom := none, engine := 0, watch := 0,
    thresh := 0, clamp := false, replays := 0, escs := 0, dictGen := [], built := [], lastRun := 0, step := none, runs := [],
    masks := [], dispatched := [] }

/-- Before that context stand an invalid one of its number and a valid one of its configuration on the same bead. -/
def sameNumberTwice : State :=
  { State.reset with
    arr := { State.reset.arr with ctxs := [{ loopingCtx with valid := false }, { loopingCtx with id := ⟨⟨0, 0, 0⟩, 1⟩ }, loopingCtx] } }

/-- The entry taken from edge 0 leaves the valid context in both places of its number, so the output now leads to it. -/
theorem sameNumberTwice_fires :
    Does (.steeringSwitchFire loopingCtx.id 0) sameNumberTwice fun t => t.arr.flights.map (·.dest.ctx.ctx.val) = [0] :=
  ⟨_, rfl, by decide +kernel⟩

/-- Refutes O35: its clause on a switch unit has the entry go where the output led before the unit fired. Nothing in it keeps two entries of
the list of contexts from bearing one number: a change of the context is written to both, and where an invalid one stood before another
context of the bead and the configuration, the output then leads elsewhere. The model's commands make every context valid and drop the
entries of those that leave (R84); with distinct numbers as a hypothesis this counterexample is none. -/
theorem not_contextsAndRouters : ¬ Obligations.ContextsAndRouters := by
  intro h
  obtain ⟨-, -, -, -, hsteer, -⟩ := h sameNumberTwice loopingCtx.id.bead
  obtain ⟨hswitch, -⟩ := hsteer loopingCtx.id 0 loopingCtx ⟨0, 0⟩ [] ⟨0, 0⟩ [] rfl rfl rfl
  obtain ⟨t, ht, more, hsent, hstill⟩ := hswitch rfl rfl rfl (by decide +kernel)
  obtain ⟨u, hu, hflew⟩ := sameNumberTwice_fires
  obtain rfl := Host.Outcome.next.inj (ht.symm.trans hu)
  obtain rfl := hstill (by decide)
  have hled := congrArg (List.map fun f : EdgeId × EdgeEntry => f.1.ctx.ctx.val) hsent
  rw [List.map_map] at hled
  exact absurd (hflew.symm.trans hled) (by decide +kernel)

end Sys2Proof.Machine
end

section
/-! SUPPORT. An action of a bead whose context, inputs and credits stand: it issues, or waits, as its unit's own condition says (R87 to R95). -/
namespace Sys2Proof.Machine

/-! ### Issue and wait -/

section
variable {s u : State} {b : BeadId} {c : Context} {a : Act} {sel : Act → Bool}
  {pre : State → Context → Act → Option (List (Nat × Nat)) × State}
  {run : State → Context → Act → List (Nat × List EdgeEntry) → State × List (Nat × List Word512)}

theorem State.action_of_issues {takes : List (Nat × Nat)} (h : s.atAction b c a) (hsel : sel a = true)
    (hpre : pre s c a = (some takes, u)) : s.action b sel pre run = u.issueAct c a takes fun v got => run v c a got := by
  obtain ⟨hctx, hact, hended, hready⟩ := h
  simp only [State.action, hctx, hact, hended, hsel, hready, hpre]
  rfl

theorem State.action_of_waits (h : s.atAction b c a) (hsel : sel a = true) (hpre : pre s c a = (none, u)) :
    s.action b sel pre run = u := by
  obtain ⟨hctx, hact, hended, hready⟩ := h
  simp only [State.action, hctx, hact, hended, hsel, hready, hpre]
  rfl

end

/-! ### NOP, COUNTER and WAIT (R85, R94, R95) -/

section
variable {s : State} {b : BeadId} {c : Context} {a : Act}

/-- A context whose WAIT the sequencer has examined. -/
def State.examined (s : State) (c : Context) : Context := { c with waitFrom := some (c.waitFrom.getD s.time.beat) }

theorem execWait_of_met (h : s.atAction b c a) (hunit : a.unit = 7) (hdone : a.cheap = true → s.allDone c = true)
    (hmet : s.waitMet (s.examined c) a = true) :
    exec (.wait b) s = .next ((s.setCtx (s.examined c)).issueAct c a a.takes fun v _ => (v, a.zeroOuts)) := by
  refine congrArg Host.Outcome.next (State.action_of_issues h (by simp [hunit]) ?_)
  rw [State.examined] at hmet ⊢
  rw [if_neg (by cases hc : a.cheap <;> simp_all)]
  exact if_pos hmet

theorem execWait_of_unmet (h : s.atAction b c a) (hunit : a.unit = 7) (hdone : a.cheap = true → s.allDone c = true)
    (hmet : s.waitMet (s.examined c) a = false) :
    exec (.wait b) s = .next (s.setCtx { s.examined c with blocked := a.cheap, expect := bits a.op.toNat 23 12 }) := by
  refine congrArg Host.Outcome.next (State.action_of_waits h (by simp [hunit]) ?_)
  rw [State.examined] at hmet ⊢
  rw [if_neg (by cases hc : a.cheap <;> simp_all)]
  exact if_neg (by simp [hmet])

theorem execWait_of_behind (h : s.atAction b c a) (hunit : a.unit = 7) (hcheap : a.cheap = true) (hdone : s.allDone c = false) :
    exec (.wait b) s = .next s :=
  congrArg Host.Outcome.next (State.action_of_waits h (by simp [hunit]) (by simp [hcheap, hdone]))

end

/-! ### What an issue does to its context (R90, R91) -/

section
variable {s : State} {cid : CtxId} {a : Act} {got : List (Nat × List EdgeEntry)} {c : Context}

theorem nth_setNth_self {α : Type} (d : α) {l : List α} {i : Nat} (x : α) (h : i < l.length) : nth d (setNth l i x) i = x := by
  simp [nth, setNth, h]

theorem nth_setNth_ne {α : Type} (d : α) (l : List α) {i j : Nat} (x : α) (h : j ≠ i) : nth d (setNth l i x) j = nth d l j := by
  simp [nth, setNth, List.getElem?_set_ne h.symm]

/-- The place of the program after an issue that leaves the counter at `v`. -/
def Context.nextPc (c : Context) (a : Act) (v : Nat) : Nat :=
  if a.branch = 3 ∨ (a.branch = 1 ∧ v ≠ 0) ∨ (a.branch = 2 ∧ v = 0) then a.target else c.pc + 1

/-- The context after its counter is updated, before the branch. -/
def Context.counted (c : Context) (a : Act) (got : List (Nat × List EdgeEntry)) : Context :=
  { c with ctrs := setNth c.ctrs a.ctr { c.counter a.ctr with value := (c.count a got).1 }, clamp := c.clamp || (c.count a got).2,
           blocked := false, waitFrom := none }

/-- The context after the branch: at END, or past its last action, its work is over. -/
def Context.branched (c d : Context) (a : Act) (v : Nat) : Context :=
  if a.branch = 4 ∨ c.acts.length ≤ c.nextPc a v then { d with ended := true, pc := 0 } else { d with pc := c.nextPc a v }

theorem State.ctx_of_arr {t : State} (h : t.arr = s.arr) (cid : CtxId) : t.ctx cid = s.ctx cid := by
  unfold State.ctx
  rw [h]

theorem State.advance_ctx (hc : s.ctx cid = some c) :
    (s.advance cid a got).ctx cid = some (c.branched (c.counted a got) a (c.count a got).1) := by
  have hclamped : ∀ (p : Prop) [Decidable p] n d f, (if p then (s.bump n).onCtxStep d f else s).ctx cid = some c := by
    intro p _ n d f
    split
    · exact (State.ctx_of_arr (State.onCtxStep_kept.same .arr (by decide)) cid).trans hc
    · exact hc
  unfold State.advance Context.branched
  simp only [hc, Bool.or_eq_true, Bool.and_eq_true, decide_eq_true_eq, or_assoc]
  show State.ctx (if a.branch = 4 ∨ c.acts.length ≤ c.nextPc a (c.count a got).1 then _ else _) cid = _
  split
  · exact State.ctx_setCtx_self (hclamped ((c.count a got).2 = true) ..) rfl rfl
  · exact State.ctx_setCtx_self (hclamped ((c.count a got).2 = true) ..) rfl rfl

theorem Context.branched_frame (d : Context) (v : Nat) :
    (c.branched d a v).acts = d.acts ∧ (c.branched d a v).gate = d.gate ∧ (c.branched d a v).ctrs = d.ctrs := by
  unfold Context.branched
  split <;> exact ⟨rfl, rfl, rfl⟩

theorem Context.branched_of_end {d : Context} {v : Nat} (h : a.branch = 4 ∨ c.acts.length ≤ c.nextPc a v) :
    (c.branched d a v).ended = true ∧ (c.branched d a v).pc = 0 := by
  rw [Context.branched, if_pos h]
  exact ⟨rfl, rfl⟩

theorem Context.branched_of_next {d : Context} {v : Nat} (hend : a.branch ≠ 4) (hlt : c.nextPc a v < c.acts.length) :
    (c.branched d a v).ended = d.ended ∧ (c.branched d a v).pc = c.nextPc a v := by
  rw [Context.branched, if_neg (by omega)]
  exact ⟨rfl, rfl⟩

theorem Context.counted_counter_self (h : a.ctr < c.ctrs.length) :
    (c.counted a got).counter a.ctr = { c.counter a.ctr with value := (c.count a got).1 } :=
  nth_setNth_self _ _ h

theorem Context.counted_counter_ne {k : Nat} (h : k ≠ a.ctr) : (c.counted a got).counter k = c.counter k :=
  nth_setNth_ne _ _ _ h

/-- The counter's new value by CTR_OP. -/
theorem Context.count_value :
    let v := (c.count a got).1
    let old := (c.counter a.ctr).value
    (a.ctrOp = 0 → v = old) ∧ (a.ctrOp = 1 → v = old - 1) ∧ (a.ctrOp = 2 → v = (old + 1) % 2 ^ 32) ∧
      (a.ctrOp = 3 → v = bits a.op.toNat 0 32) ∧ (a.ctrOp = 4 → v ≤ bits a.op.toNat 32 32) ∧
      (a.ctrOp = 5 → v = (c.counter a.ctr).limit) := by
  unfold Context.count
  refine ⟨fun h => ?_, fun h => ?_, fun h => ?_, fun h => ?_, fun h => ?_, fun h => ?_⟩ <;> simp only [h]
  exact Nat.min_le_right _ _

end

/-- Settles O31: an action without a memory range issues by `issueAct`, and the issue takes its context through the counter and the
branch. -/
theorem plainActions : Obligations.PlainActions := by
  refine ⟨fun s b c a h => ⟨fun hunit => ?_, fun hunit => ?_, fun hunit hdone => ⟨?_, ?_⟩, ?_⟩, fun s cid a got c hc hctr => ?_⟩
  · exact congrArg Host.Outcome.next (State.action_of_issues h (by simp [hunit]) rfl)
  · exact congrArg Host.Outcome.next (State.action_of_issues h (by simp [hunit]) rfl)
  · exact execWait_of_met h hunit hdone
  · exact execWait_of_unmet h hunit hdone
  · exact fun hunit => execWait_of_behind h hunit
  · obtain ⟨hacts, hgate, hctrs⟩ := Context.branched_frame (c := c) (a := a) (c.counted a got) (c.count a got).1
    have hcounter : ∀ k, (c.branched (c.counted a got) a (c.count a got).1).counter k = (c.counted a got).counter k := fun k => by
      rw [Context.counter, hctrs, Context.counter]
    refine ⟨_, State.advance_ctx hc, hacts, hgate, fun k hk => (hcounter k).trans (Context.counted_counter_ne hk), ?_⟩
    rw [hcounter, Context.counted_counter_self hctr]
    obtain ⟨h0, h1, h2, h3, h4, h5⟩ := c.count_value (a := a) (got := got)
    exact ⟨rfl, h0, h1, h2, h3, h4, h5, Context.branched_of_end, Context.branched_of_next⟩

end Sys2Proof.Machine
end

section
/-! SUPPORT. The actions of the engines: with no awaited tile in their ranges each issues with the result of its unit (R87, R138, R146, R180,
R195, R226). -/
namespace Sys2Proof.Machine

section
variable {s u : State} {b : BeadId} {c : Context} {a : Act}

/-! ### What waits for tile ranges, and the words read there -/

theorem readsOnly_of_here {ranges : Context → Act → List (Nat × Nat)} (h : s.awaits c (ranges c a) = false) :
    readsOnly ranges s c a = (some a.takes, s) := by
  simp [readsOnly, h]

section
variable {pre : State → Context → Act → Option (List (Nat × Nat)) × State} {takes : List (Nat × Nat)}

theorem wordPre_of_ok (h : pre s c a = (some takes, u)) : wordPre .ok pre s c a = (some takes, u) := by
  simp [wordPre, h]

/-- A word that the code does not correct holds the action, and its tile's recovery begins (R218, R220). -/
theorem wordPre_of_failed {k : Nat} {code : Bool} (h : pre s c a = (some takes, u)) :
    wordPre (.failed k code) pre s c a = (none, u.wordFault c k) := by
  simp [wordPre, h]

end

/-! ### The conditions of each unit's issue -/

theorem State.matPre_of_blocks {x : List RawBlock × List RawBlock} (h : s.awaits c (s.matRanges c a) = false)
    (hx : s.matBlocks c (matOp a.op.toNat) (engineOf c.engine.toNat) = .ok x) : s.matPre c a = (some a.takes, s) := by
  simp only [State.matPre, h, hx, Bool.false_eq_true, if_false, ite_self]

theorem State.copyPre_of_toEdges (hto : (copyOp a.op.toNat).toTile = false)
    (h : s.awaits c [((copyOp a.op.toNat).first c, a.outs.length * a.outCount * 64)] = false) : s.copyPre c a = (some a.takes, s) := by
  simp [State.copyPre, hto, h]

theorem State.copyPre_of_entries (hto : (copyOp a.op.toNat).toTile = true) (hblocks : (copyOp a.op.toNat).blocks = false) :
    s.copyPre c a = (some a.takes, s) := by
  simp [State.copyPre, hto, hblocks]

theorem State.buildPre_of_unstored (h : s.awaits c (s.encReads c (encOp a.op.toNat)) = false)
    (hcodes : s.buildCodes c (encOp a.op.toNat) = none ∨ (encOp a.op.toNat).edges = true) : s.buildPre c a = (some a.takes, s) := by
  simp only [State.buildPre, h]
  rcases hcodes with hnone | hedges
  · simp [hnone]
  · cases s.buildCodes c (encOp a.op.toNat) <;> simp [hedges]

/-! ### What COPY produces -/

theorem State.runCopy_of_toEdges (hto : (copyOp a.op.toNat).toTile = false) (got : List (Nat × List EdgeEntry)) :
    s.runCopy c a got = (s, a.outs.zipIdx.map fun p => (p.1, (List.range a.outCount).map fun i =>
      BitVec.ofNat 512 (leNat (s.tileRead c.id.bead ((copyOp a.op.toNat).first c + (p.2 * a.outCount + i) * 64) 64)))) := by
  simp [State.runCopy, hto]

theorem State.runCopy_of_entries (hto : (copyOp a.op.toNat).toTile = true) (hblocks : (copyOp a.op.toNat).blocks = false)
    (got : List (Nat × List EdgeEntry)) : s.runCopy c a got = (s.copyIn c (copyOp a.op.toNat) got, a.zeroOuts) := by
  simp [State.runCopy, hto, hblocks]

/-! ### A watched action -/

/-- An action of an engine issues, and the platform events of its changes are sent. -/
theorem State.watchedAction_of_issues {sel : Act → Bool} {pre : State → Context → Act → Option (List (Nat × Nat)) × State}
    {run : State → Context → Act → List (Nat × List EdgeEntry) → State × List (Nat × List Word512)} (h : s.atAction b c a)
    (hsel : sel a = true) (hpre : pre s c a = (some a.takes, s)) :
    s.watched (·.action b sel (wordPre .ok pre) run) = (s.issueAct c a a.takes fun v got => run v c a got).sensorEvents s :=
  congrArg (State.sensorEvents · s) (State.action_of_issues h hsel (wordPre_of_ok hpre))

end

/-! ### The obligation -/

section
variable {s : State} {b : BeadId} {c : Context} {a : Act} (h : s.atAction b c a)
include h

theorem execMatrix_of_blocks (hunit : a.unit = 1) (hhere : s.awaits c (s.matRanges c a) = false)
    (hblocks : ∃ x, s.matBlocks c (matOp a.op.toNat) (engineOf c.engine.toNat) = .ok x) :
    exec (.matrix b .ok) s = .next ((s.issueAct c a a.takes fun s _ => (s.matRun c a, a.zeroOuts)).sensorEvents s) := by
  obtain ⟨x, hx⟩ := hblocks
  exact congrArg Host.Outcome.next (State.watchedAction_of_issues h (by simp [hunit]) (State.matPre_of_blocks hhere hx))

theorem execVector_of_here (hunit : a.unit = 2) (hhere : s.awaits c (vecOp a.op.toNat).reads = false) :
    exec (.vector b .ok) s = .next ((s.issueAct c a a.takes fun s _ =>
      (s.tileWrite c.id.bead (vecOp a.op.toNat).dst (s.vecOut c.id.bead (vecOp a.op.toNat)), a.zeroOuts)).sensorEvents s) :=
  congrArg Host.Outcome.next (State.watchedAction_of_issues h (by simp [hunit]) (readsOnly_of_here hhere))

theorem execVector_of_failed (hunit : a.unit = 2) (hhere : s.awaits c (vecOp a.op.toNat).reads = false) (k : Nat)
    (code : Bool) :
    exec (.vector b (.failed k code)) s = .next ((s.wordFault c k).sensorEvents s) :=
  congrArg (fun t : State => Host.Outcome.next (t.sensorEvents s))
    (State.action_of_waits h (by simp [hunit]) (wordPre_of_failed (readsOnly_of_here hhere)))

theorem execCopy_of_toEdges (hunit : a.unit = 3) (hop : a.op.toNat % 4 = 0) (hto : (copyOp a.op.toNat).toTile = false)
    (hhere : s.awaits c [((copyOp a.op.toNat).first c, a.outs.length * a.outCount * 64)] = false) :
    exec (.copy b .ok) s = .next ((s.issueAct c a a.takes fun s _ => (s, a.outs.zipIdx.map fun p => (p.1, (List.range a.outCount).map fun i =>
      BitVec.ofNat 512 (leNat (s.tileRead c.id.bead ((copyOp a.op.toNat).first c + (p.2 * a.outCount + i) * 64) 64))))).sensorEvents s) := by
  refine congrArg Host.Outcome.next ((State.watchedAction_of_issues h (by simp [hunit, hop]) (State.copyPre_of_toEdges hto hhere)).trans ?_)
  simp only [State.runCopy_of_toEdges hto]

theorem execCopy_of_entries (hunit : a.unit = 3) (hop : a.op.toNat % 4 = 0) (hto : (copyOp a.op.toNat).toTile = true)
    (hblocks : (copyOp a.op.toNat).blocks = false) :
    exec (.copy b .ok) s = .next ((s.issueAct c a a.takes fun s got => (s.copyIn c (copyOp a.op.toNat) got, a.zeroOuts)).sensorEvents s) := by
  refine congrArg Host.Outcome.next ((State.watchedAction_of_issues h (by simp [hunit, hop]) (State.copyPre_of_entries hto hblocks)).trans ?_)
  simp only [State.runCopy_of_entries hto hblocks]

theorem execEmit_of_here (owners : List Word32) (hunit : a.unit = 5) (hop : a.op.toNat % 4 = 0)
    (hhere : s.awaits c (s.encReads c (encOp a.op.toNat)) = false) :
    exec (.emit b owners .ok) s = .next ((s.issueAct c a a.takes fun s _ => s.runEmit c a owners).sensorEvents s) :=
  congrArg Host.Outcome.next (State.watchedAction_of_issues h (by simp [hunit, hop]) (readsOnly_of_here hhere))

theorem execBuild_of_unstored (hunit : a.unit = 5) (hop : a.op.toNat % 4 = 1)
    (hhere : s.awaits c (s.encReads c (encOp a.op.toNat)) = false)
    (hcodes : s.buildCodes c (encOp a.op.toNat) = none ∨ (encOp a.op.toNat).edges = true) :
    exec (.build b .ok) s = .next ((s.issueAct c a a.takes fun s _ => s.runBuild c a).sensorEvents s) :=
  congrArg Host.Outcome.next (State.watchedAction_of_issues h (by simp [hunit, hop]) (State.buildPre_of_unstored hhere hcodes))

section
variable {t : GenSlot RouteTable} (hunit : a.unit = 3)
include hunit

theorem execSelect_of_here (ht : s.route c (expOp a.op.toNat).route = some t) (hop : a.op.toNat % 4 = 1)
    (hhere : s.awaits c [((expOp a.op.toNat).src, c.live a (expOp a.op.toNat) * scoreRow t.val.experts.length)] = false) :
    exec (.select b .ok) s = .next ((s.issueAct c a a.takes fun s _ => (s.runSelect c a, [])).sensorEvents s) := by
  refine congrArg Host.Outcome.next (State.watchedAction_of_issues h (by simp [hunit, hop]) (readsOnly_of_here ?_))
  rw [State.selectReads, ht]
  exact hhere

theorem execDispatch_of_here (merge : List Check) (hop : a.op.toNat % 4 = 2)
    (hhere : s.awaits c [((expOp a.op.toNat).src, c.live a (expOp a.op.toNat) * 64),
      ((expOp a.op.toNat).dst, c.live a (expOp a.op.toNat) * 8)] = false) :
    exec (.dispatch b .ok merge) s = .next ((s.issueAct c a a.takes fun s _ => (s.runDispatch c a merge, [])).sensorEvents s) :=
  congrArg Host.Outcome.next (State.watchedAction_of_issues h (by simp [hunit, hop]) (readsOnly_of_here hhere))

theorem execCombine_of_here (ht : s.route c (expOp a.op.toNat).route = some t) (hop : a.op.toNat % 4 = 3)
    (hhere : s.awaits c [((expOp a.op.toNat).src, c.live a (expOp a.op.toNat) * 64),
      (returnArea (expOp a.op.toNat).src (expOp a.op.toNat).rows t.val.replicas.length,
        c.live a (expOp a.op.toNat) * t.val.k * ((if (expOp a.op.toNat).last = 0 then 256 else (expOp a.op.toNat).last) * 128))] = false) :
    exec (.combine b .ok) s = .next ((s.issueAct c a a.takes fun s _ => (s.runCombine c a, [])).sensorEvents s) := by
  refine congrArg Host.Outcome.next (State.watchedAction_of_issues h (by simp [hunit, hop]) (readsOnly_of_here ?_))
  rw [State.combineReads, ht]
  exact hhere

end

end

/-- SELECT writes the choices of each live row (R196, R197). -/
theorem State.runSelect_of_route {s : State} {c : Context} {a : Act} {t : GenSlot RouteTable}
    (ht : s.route c (expOp a.op.toNat).route = some t) :
    s.runSelect c a = (List.range (c.live a (expOp a.op.toNat))).foldl (fun s m =>
      s.tileWrite c.id.bead ((expOp a.op.toNat).dst + m * 64)
        ((selectRow t.val (s.elems c.id.bead 0 ((expOp a.op.toNat).src + m * scoreRow t.val.experts.length) t.val.experts.length)).flatMap
          fun x => leBytes 8 x.word)) s := by
  simp only [State.runSelect, ht]

/-- Settles O32, unit by unit: each action issues once its own condition holds. -/
theorem engineActions : Obligations.EngineActions := by
  refine ⟨fun s b c a owners h => ⟨execMatrix_of_blocks h,
      fun hunit hhere => ⟨execVector_of_here h hunit hhere, execVector_of_failed h hunit hhere⟩,
    fun hunit hop => ⟨execCopy_of_toEdges h hunit hop, execCopy_of_entries h hunit hop⟩, execEmit_of_here h owners, execBuild_of_unstored h⟩,
    fun s b c a t merge h hunit ht => ⟨fun hop hhere => ⟨execSelect_of_here h hunit ht hop hhere, State.runSelect_of_route ht⟩,
      execDispatch_of_here h hunit merge, execCombine_of_here h hunit ht⟩⟩

end Sys2Proof.Machine
end

section
/-! SUPPORT. The bytes of a die after a remap (R111, R113). -/
namespace Sys2Proof.Machine

/-- A moved range shows at `x` the byte that stood at `y`, where `y` alone of the range moves to `x`. -/
theorem Memory.read_moved {m : List Host.Cell} {lo hi x y : Nat} {f : Nat → Nat} (hlo : lo ≤ y) (hhi : y < hi)
    (hf : ∀ a, lo ≤ a → a < hi → (f a = x ↔ a = y)) : Memory.read (Memory.moved m lo hi f) x = Memory.read m y := by
  rw [← Memory.read_filter m (fun c => lo ≤ c.1 && c.1 < hi) y (by simp; omega)]
  unfold Memory.read Memory.moved
  rw [List.find?_map]
  have hsame : List.find? ((fun c : Host.Cell => c.1 == x) ∘ fun c => (f c.1, c.2)) (m.filter fun c => lo ≤ c.1 && c.1 < hi) =
      List.find? (fun c => c.1 == y) (m.filter fun c => lo ≤ c.1 && c.1 < hi) :=
    List.find?_congr fun c hc => by
      obtain ⟨hl, hh⟩ : lo ≤ c.1 ∧ c.1 < hi := by simpa using (List.mem_filter.1 hc).2
      simp [hf c.1 hl hh]
  rw [hsame]
  cases List.find? (fun c => c.1 == y) (m.filter fun c => lo ≤ c.1 && c.1 < hi) <;> rfl

/-- From rod `p` on a logical rod shows what the next one held. -/
theorem Memory.read_remapped (m : List Host.Cell) {die p l off : Nat} (hp : p ≤ l) (hl : l < 31) (hoff : off < rodBytes) :
    Memory.read (Memory.remapped m die p) (die * 2 ^ 46 + l * rodBytes + off) =
      Memory.read m (die * 2 ^ 46 + (l + 1) * rodBytes + off) := by
  have hpl : p * rodBytes ≤ l * rodBytes := Nat.mul_le_mul_right _ hp
  have hlast : l * rodBytes + rodBytes ≤ 31 * rodBytes := by rw [← Nat.succ_mul]; exact Nat.mul_le_mul_right _ hl
  have hnext : (l + 1) * rodBytes = l * rodBytes + rodBytes := Nat.succ_mul ..
  have hpnext : (p + 1) * rodBytes = p * rodBytes + rodBytes := Nat.succ_mul ..
  have hback : p * rodBytes + (32 - p) * rodBytes = 32 * rodBytes := by rw [← Nat.add_mul]; congr 1; omega
  have hrod : rodBytes = 33554432 := rfl
  unfold Memory.remapped
  rw [Memory.read_append_right _ _ _ fun c hc => ?_, Memory.read_append_right _ _ _ fun c hc => ?_,
    Memory.read_append _ _ _ fun c hc => ?_]
  · exact Memory.read_moved (by omega) (by omega) fun a ha _ => by omega
  · have := (List.mem_filter.1 hc).2
    simp only [decide_eq_true_eq] at this
    omega
  · obtain ⟨x, hx, rfl⟩ := List.mem_map.1 hc
    have := (List.mem_filter.1 hx).2
    simp only [Bool.and_eq_true, decide_eq_true_eq] at this
    dsimp only
    omega
  · have := (List.mem_filter.1 hc).2
    simp only [decide_eq_true_eq] at this
    omega

end Sys2Proof.Machine
end

section
/-! SUPPORT. The swap unit, the end of a restore and the remap of a frame (R111, R113, R349, R351, R352). -/
namespace Sys2Proof.Machine

/-! ### Configurations, and the steps that have bound one -/

section
variable {s : State} {n : Nat} {c : Cfg}

theorem State.cfg_num (h : s.cfg n = some c) : c.num = n := by simpa using List.find?_some h

/-- A configuration put in the place of the one with its number. -/
theorem State.cfg_setCfg_self {d : Cfg} (h : s.cfg n = some c) (hnum : d.num = c.num) : (s.setCfg d).cfg n = some d := by
  have hn := State.cfg_num h
  unfold State.cfg State.setCfg at *
  dsimp only
  rw [List.find?_map]
  have hsame : ((fun c : Cfg => c.num == n) ∘ fun x => if x.num == d.num then d else x) = fun x => x.num == n := by
    funext x
    by_cases hx : x.num = n <;> simp [hnum, hn, hx]
  rw [hsame, h]
  simp [hnum]

theorem State.cfg_of_serve {t : State} (h : t.serve = s.serve) (n : Nat) : t.cfg n = s.cfg n := by
  unfold State.cfg
  rw [h]

theorem State.setCfg_serve {t : State} (h : t.serve = s.serve) (d : Cfg) : (t.setCfg d).serve = (s.setCfg d).serve := by
  unfold State.setCfg
  rw [h]

theorem State.failConfig_serve {t : State} (h : t.serve = s.serve) (num status : Nat) :
    (t.failConfig num status).serve = (s.failConfig num status).serve := by
  simp only [State.failConfig, State.failSteps, h]

/-- The running steps that have bound the configuration have failed (R363). -/
theorem State.failConfig_steps (num status : Nat) :
    ∀ r ∈ (s.failConfig num status).serve.steps, (r.configs.any fun p => p.1 == num) = true → r.fail.isSome := by
  intro r hr hbound
  obtain ⟨x, -, rfl⟩ := List.mem_map.1 hr
  cases hfail : x.fail with
  | some f => simp [hfail]
  | none =>
    have hconfigs : (x.configs.any fun p => p.1 == num) = true := by
      split at hbound <;> exact hbound
    simp [hconfigs]

end

/-! ### The swap unit (R351) -/

section
variable {s : State} {lost : List (BeadId × Fin 512)}

theorem State.clearProving_of_none (h : ∀ c ∈ s.arr.ctxs, s.provingBead c.id.bead = false) : s.clearProving lost = s := by
  have hnone : (s.arr.ctxs.filter fun c => c.valid && s.provingBead c.id.bead) = [] :=
    List.filter_eq_nil_iff.2 fun c hc => by simp [h c hc]
  simp [State.clearProving, hnone]

theorem State.swap_of_quiet (h : ∀ c ∈ s.arr.ctxs, s.provingBead c.id.bead = false) :
    s.swap lost = s.waitingCfgs.foldl (State.beginRestore lost) s := by
  rw [State.swap, State.clearProving_of_none h]

variable {n : Nat} {c : Cfg} {g : GenSlot ConfigGen}

theorem State.beginRestore_of_free (hc : s.cfg n = some c) (hg : s.wantedGen c = some g) (hgen : c.disabled.contains g.gen = false)
    (hres : c.resident = false) (hrest : c.restoring = false) (hopen : ∀ x ∈ g.val.ctxs, s.closedBead x.id.bead = false)
    (hway : s.inWay c g.val = []) :
    s.beginRestore lost n = s.setCfg { c with
      restoring := true, map := g.val.ctxs.filterMap fun x => (s.placeCtx c g.val x).map fun k => (x.id.bead, k) } := by
  have hclosed : (g.val.ctxs.any fun x => s.closedBead x.id.bead) = false := by simpa using hopen
  have hroom : s.makeRoom c g.val lost 65 = some s := by simp [State.makeRoom, hway]
  simp only [State.beginRestore, hc, hg, hgen, hres, hrest, hclosed, hroom]
  rfl

theorem State.beginRestore_of_disabled (hc : s.cfg n = some c) (hg : s.wantedGen c = some g) (hgen : c.disabled.contains g.gen = true) :
    s.beginRestore lost n = (s.failConfig n stCONFIG_DISABLED).setCfg { c with waiting := none, release := [], inbox := [] } := by
  simp only [State.beginRestore, hc, hg, hgen]
  rfl

end

/-! ### The end of a restore (R352) -/

section
variable {s : State} {c : Cfg} {g : GenSlot ConfigGen}

/-- The configuration resident, its restore at an end. -/
def Cfg.arrived (c : Cfg) (clk : Nat) : Cfg :=
  { c with resident := true, restoring := false, waiting := none, release := [], inbox := [], saved := none, badSave := false, since := clk }

/-- Beside the array and memory, the end of a restore changes the configuration and a counter of restores (R365). -/
theorem State.finishRestore_eq (s : State) (c : Cfg) (g : GenSlot ConfigGen) :
    ∃ v w, s.finishRestore c g = v.bump (rInst c.inst 0x18) ∧ Kept [.arr] (w.setCfg (c.arrived w.time.clk)) v ∧ Kept [.arr, .mem] s w := by
  refine ⟨_, _, rfl, State.applyReleases_kept.on (Kept.foldl _ _ (Kept.refl _) fun y a => State.fly_kept), ?_⟩
  refine Kept.upd (Kept.foldl _ _ (Kept.foldl _ _ (Kept.foldl _ _ (Kept.foldl _ _ (Kept.refl s) ?_) ?_) ?_) ?_)
  · exact fun y a => State.putTile_kept.mono (by decide)
  · exact fun y a => State.resolve_kept.mono (by decide)
  · exact fun y a => State.putDir_kept.mono (by decide)
  · exact fun y a => State.setBead_kept.mono (by decide)

theorem State.finishRestore_serve : (s.finishRestore c g).serve = (s.setCfg (c.arrived s.time.clk)).serve := by
  obtain ⟨v, w, heq, hv, hw⟩ := s.finishRestore_eq c g
  have htime : w.time = s.time := hw.same .time (by decide)
  rw [heq, ← htime]
  exact (hv.same .serve (by decide)).trans (State.setCfg_serve (hw.same .serve (by decide)) _)

theorem State.finishRestore_reg :
    (s.finishRestore c g).reg (rInst c.inst 0x18) = min (s.reg (rInst c.inst 0x18) + 1) 0xFFFFFFFF := by
  obtain ⟨v, w, heq, hv, hw⟩ := s.finishRestore_eq c g
  have hregs : v.regs = s.regs := (hv.same .regs (by decide)).trans (hw.same .regs (by decide))
  rw [heq, State.reg_bump, if_pos rfl, State.reg_of_regs hregs]

theorem State.restoreFault_first (at_ : Nat) (h : c.badSave = false) :
    (s.restoreFault c g at_).serve = (s.setCfg { c with badSave := true }).serve := by
  simp only [State.restoreFault, h]
  exact State.setCfg_serve (State.mismatch_kept.same .serve (by decide)) _

theorem State.restoreFault_second (at_ : Nat) (h : c.badSave = true) :
    (s.restoreFault c g at_).serve = ((s.setCfg { c with
      restoring := false, waiting := none, release := [], inbox := [], saved := none, badSave := false }).failConfig c.num stCTX_LOST).serve := by
  simp only [State.restoreFault, h]
  exact State.failConfig_serve (State.setCfg_serve (State.mismatch_kept.same .serve (by decide)) _) _ _

theorem State.restoreDone_ok {n : Nat} (hc : s.cfg n = some c) (hg : s.wantedGen c = some g) (hrest : c.restoring = true) :
    s.restoreDone n .ok = s.finishRestore c g := by
  simp only [State.restoreDone, hc, hg, hrest, Bool.not_true, Bool.false_eq_true, if_false]

theorem State.restoreDone_failed {n : Nat} (hc : s.cfg n = some c) (hg : s.wantedGen c = some g) (hrest : c.restoring = true) (at_ : Nat)
    (code : Bool) : s.restoreDone n (.failed at_ code) = s.restoreFault c g at_ := by
  simp only [State.restoreDone, hc, hg, hrest, Bool.not_true, Bool.false_eq_true, if_false]

/-- With no collective open no section waits for the restore. -/
theorem execContextRestoreDone_of_none {n : Fin 64} {check : Check} {t : State} (h : s.restoreDone n.val check = t)
    (hcolls : t.serve.colls = []) : exec (.contextRestoreDone n check) s = .next t := by
  subst h
  show Host.Outcome.next _ = _
  rw [hcolls]
  rfl

end

/-! ### The remap of a frame (R113) -/

section
variable {s : State} {die : Fin 4} {d p : Nat}

theorem State.remapFrame_of_none {lost : List (BeadId × Fin 512)} (h : ∀ q ∈ s.faults.remaps, q.1 ≠ d) : s.remapFrame d lost = s := by
  have hnone : s.faults.remaps.find? (fun q => q.1 == d) = none := List.find?_eq_none.2 fun q hq => by simpa using h q hq
  simp [State.remapFrame, hnone]

/-- ROD_MAP once rod `p` is remapped (R116). -/
def remappedMap (old p : Nat) : Nat := putBit (putBit (putBits old 0 6 p) 6 false) 7 true

/-- The map shifted at rod `p`, shown in ROD_MAP, recorded and stored (R111, R113, R116). -/
def State.shifted (s : State) (d p : Nat) : State :=
  (((s.remapRod d p).setReg (rFrame d 0) (remappedMap (s.rodMap d) p)).hand 12 (objFence 1 p d 31 true) (leBytes 8 (s.rodMap d))
    (leBytes 8 (remappedMap (s.rodMap d) p))).storeRods d (remappedMap (s.rodMap d) p)

theorem State.shifted_reg (o : Nat) : (s.shifted d p).reg o = if o = rFrame d 0 then remappedMap (s.rodMap d) p else s.reg o := by
  refine (State.reg_of_regs (State.hand_kept.same .regs (by decide)) o).trans ?_
  rw [State.reg_setReg, State.reg_of_regs (State.remapRod_kept.same .regs (by decide))]

theorem State.shifted_faults : (s.shifted d p).faults = s.faults :=
  (State.hand_kept.same .faults (by decide)).trans (State.remapRod_kept.same .faults (by decide))

theorem State.shifted_cells (hp : p < 32) : (s.shifted d p).mem.cells = Memory.remapped s.mem.cells d p := by
  refine (congrArg MemSys.cells (State.hand_kept.same .mem (by decide))).trans ?_
  simp only [State.setReg_mem, State.remapRod, if_neg (Nat.not_le.2 hp)]

section
variable (hp : s.faults.remaps.find? (fun q => q.1 == die.val) = some (die.val, p))
  (hctxs : ∀ c ∈ s.arr.ctxs, c.valid = true → c.id.bead.die = die → c.id.bead.rod.val < p)

include hctxs in
/-- No context stands on a rod that moves. -/
theorem State.noneMoving : ∀ c ∈ s.arr.ctxs, ¬ (c.valid && c.id.bead.die.val == die.val && c.id.bead.rod.val ≥ p) = true := by
  intro c hc
  simp only [Bool.and_eq_true, beq_iff_eq, decide_eq_true_eq, not_and, not_le]
  exact fun h => hctxs c hc h.1 (Fin.ext h.2)

include hp hctxs in
/-- With no context on the rods that move, nothing is evicted. -/
theorem State.remapFrame_of_clear {lost : List (BeadId × Fin 512)} :
    s.remapFrame die.val lost = if s.time.tick = 0 then s.remap die.val else s := by
  have hnone : (s.arr.ctxs.filter fun c => c.valid && c.id.bead.die.val == die.val && c.id.bead.rod.val ≥ p) = [] :=
    List.filter_eq_nil_iff.2 (State.noneMoving hctxs)
  simp only [State.remapFrame, hp, hnone]
  rfl

variable (hfills : ∀ x ∈ s.arr.beads, ∀ f ∈ x.fills, ¬ (x.id.die = die ∧ p ≤ x.id.rod.val) ∧
    ∀ y off, placeOf true f.mpa = .tileMem y off → ¬ (y.die = die ∧ p ≤ y.rod.val) ∨ x.id.die ≠ die)
  (hgathers : ∀ g ∈ s.mem.gathers, ¬ (g.ctx.bead.die = die ∧ p ≤ g.ctx.bead.rod.val))
include hp hctxs hfills hgathers

/-- With no access of the rods that move under way either, the map shifts (R113). -/
theorem State.remap_of_clear :
    s.remap die.val = (s.shifted die.val p).setFaults { (s.shifted die.val p).faults with
      remaps := (s.shifted die.val p).faults.remaps.filter fun q => q.1 ≠ die.val } := by
  have hleft : (s.arr.ctxs.any fun c => c.valid && c.id.bead.die.val == die.val && c.id.bead.rod.val ≥ p) = false :=
    List.any_eq_false.2 (State.noneMoving hctxs)
  simp only [State.remap, hp, hleft, Bool.false_or]
  refine if_neg fun hbusy => ?_
  rcases Bool.or_eq_true_iff.1 hbusy with hreads | hcommands
  · obtain ⟨x, hx, hreads⟩ := List.any_eq_true.1 hreads
    obtain ⟨f, hf, hread⟩ := List.any_eq_true.1 hreads
    obtain ⟨hown, htile⟩ := hfills x hx f hf
    rw [Bool.and_eq_true, Bool.or_eq_true, beq_iff_eq] at hread
    obtain ⟨hdie, hread | hread⟩ := hread
    · exact hown (by simpa [Fin.ext_iff] using hread)
    · cases hplace : placeOf true f.mpa with
      | tileMem y off =>
        rw [hplace] at hread
        exact (htile y off hplace).elim (absurd (by simpa [Fin.ext_iff] using hread)) (absurd (Fin.ext hdie))
      | _ => simp [hplace] at hread
  · obtain ⟨g, hg, hcommand⟩ := List.any_eq_true.1 hcommands
    exact hgathers g hg (by simpa [Fin.ext_iff] using hcommand)

/-- What the remap of a frame with nothing left on its rods leaves: the map, the other remaps, every other register, and the bytes under the
logical rods. -/
theorem does_rodRemap {lost : List (BeadId × Fin 512)} (htick : s.time.tick = 0) :
    Does (.rodRemap die lost) s fun t =>
      t.reg (rFrame die.val 0) = remappedMap (s.rodMap die.val) p ∧
      t.faults = { s.faults with remaps := s.faults.remaps.filter fun q => q.1 ≠ die.val } ∧
      (∀ o, o ≠ rFrame die.val 0 → t.reg o = s.reg o) ∧
      ∀ l off, p ≤ l → l < 31 → off < rodBytes → Memory.read t.mem.cells (die.val * 2 ^ 46 + l * rodBytes + off) =
        Memory.read s.mem.cells (die.val * 2 ^ 46 + (l + 1) * rodBytes + off) := by
  refine ⟨_, congrArg Host.Outcome.next ((State.remapFrame_of_clear hp hctxs).trans (if_pos htick)), ?_⟩
  rw [State.remap_of_clear hp hctxs hfills hgathers, State.shifted_faults]
  refine ⟨(State.shifted_reg _).trans (if_pos rfl), rfl, fun o ho => (State.shifted_reg o).trans (if_neg ho), fun l off hpl hl hoff => ?_⟩
  rw [State.setFaults_mem, State.shifted_cells (by omega)]
  exact Memory.read_remapped _ hpl hl hoff

end

end

/-! ### The obligation -/

section
variable {s : State} {n : Nat} {c : Cfg} {g : GenSlot ConfigGen}

theorem does_swapDecision_free {lost : List (BeadId × Fin 512)} (hquiet : ∀ c ∈ s.arr.ctxs, s.provingBead c.id.bead = false)
    (hwait : s.waitingCfgs = [n]) (hc : s.cfg n = some c) (hg : s.wantedGen c = some g) (hgen : c.disabled.contains g.gen = false)
    (hres : c.resident = false) (hrest : c.restoring = false) (hopen : ∀ x ∈ g.val.ctxs, s.closedBead x.id.bead = false)
    (hway : s.inWay c g.val = []) :
    Does (.swapDecision lost) s fun t => t.cfg n = some { c with
      restoring := true, map := g.val.ctxs.filterMap fun x => (s.placeCtx c g.val x).map fun k => (x.id.bead, k) } := by
  refine ⟨_, congrArg Host.Outcome.next (State.swap_of_quiet hquiet), ?_⟩
  rw [hwait, List.foldl_cons, List.foldl_nil, State.beginRestore_of_free hc hg hgen hres hrest hopen hway]
  exact State.cfg_setCfg_self hc rfl

theorem does_swapDecision_disabled {lost : List (BeadId × Fin 512)} (hquiet : ∀ c ∈ s.arr.ctxs, s.provingBead c.id.bead = false)
    (hwait : s.waitingCfgs = [n]) (hc : s.cfg n = some c) (hg : s.wantedGen c = some g) (hgen : c.disabled.contains g.gen = true) :
    Does (.swapDecision lost) s fun t => t.cfg n = some { c with waiting := none, release := [], inbox := [] } ∧
      ∀ r ∈ t.serve.steps, (r.configs.any fun p => p.1 == n) = true → r.fail.isSome := by
  refine ⟨_, congrArg Host.Outcome.next (State.swap_of_quiet hquiet), ?_⟩
  rw [hwait, List.foldl_cons, List.foldl_nil, State.beginRestore_of_disabled hc hg hgen]
  exact ⟨State.cfg_setCfg_self hc rfl, State.failConfig_steps n stCONFIG_DISABLED⟩

end

section
variable {s : State} {n : Fin 64} {c : Cfg} {g : GenSlot ConfigGen} (hc : s.cfg n.val = some c) (hg : s.wantedGen c = some g)
  (hrest : c.restoring = true) (hcolls : s.serve.colls = [])
include hc hg hrest hcolls

theorem does_contextRestoreDone_ok :
    Does (.contextRestoreDone n .ok) s fun t => t.cfg n.val = some (c.arrived s.time.clk) ∧
      t.reg (rInst c.inst 0x18) = min (s.reg (rInst c.inst 0x18) + 1) 0xFFFFFFFF := by
  have hserve := State.finishRestore_serve (s := s) (c := c) (g := g)
  refine ⟨_, execContextRestoreDone_of_none (State.restoreDone_ok hc hg hrest) ((congrArg Serve.colls hserve).trans hcolls), ?_,
    State.finishRestore_reg⟩
  exact (State.cfg_of_serve hserve _).trans (State.cfg_setCfg_self hc rfl)

theorem does_contextRestoreDone_again (k : Nat) (code : Bool) (hbad : c.badSave = false) :
    Does (.contextRestoreDone n (.failed k code)) s fun t => t.cfg n.val = some { c with badSave := true } := by
  have hserve := State.restoreFault_first (s := s) (g := g) k hbad
  refine ⟨_, execContextRestoreDone_of_none (State.restoreDone_failed hc hg hrest k code) ((congrArg Serve.colls hserve).trans hcolls), ?_⟩
  exact (State.cfg_of_serve hserve _).trans (State.cfg_setCfg_self hc rfl)

theorem does_contextRestoreDone_lost (k : Nat) (code : Bool) (hbad : c.badSave = true) :
    Does (.contextRestoreDone n (.failed k code)) s fun t =>
      t.cfg n.val = some { c with restoring := false, waiting := none, release := [], inbox := [], saved := none, badSave := false } ∧
      ∀ r ∈ t.serve.steps, (r.configs.any fun p => p.1 == n.val) = true → r.fail.isSome := by
  have hserve := State.restoreFault_second (s := s) (g := g) k hbad
  refine ⟨_, execContextRestoreDone_of_none (State.restoreDone_failed hc hg hrest k code) ((congrArg Serve.colls hserve).trans hcolls), ?_, ?_⟩
  · exact (State.cfg_of_serve hserve _).trans (State.cfg_setCfg_self hc rfl)
  · rw [hserve, State.cfg_num hc]
    exact State.failConfig_steps _ _

end

/-- Settles O37, command by command: the swap unit with one configuration waiting, the end of a restore by its check, and the remap of a
frame with nothing left on its rods. -/
theorem residency : Obligations.Residency := by
  refine fun s => ⟨fun lost hquiet =>
      ⟨fun hwait => ?_, fun n c g => does_swapDecision_free hquiet, fun n c g => does_swapDecision_disabled hquiet⟩,
    fun n c g hc hg hrest hcolls => ⟨does_contextRestoreDone_ok hc hg hrest hcolls, does_contextRestoreDone_again hc hg hrest hcolls,
      does_contextRestoreDone_lost hc hg hrest hcolls⟩,
    fun die lost => ⟨fun h => congrArg Host.Outcome.next (State.remapFrame_of_none h), fun p hp hctxs => ?_⟩⟩
  · exact congrArg Host.Outcome.next ((State.swap_of_quiet hquiet).trans (by rw [hwait]; rfl))
  · exact ⟨fun htick => congrArg Host.Outcome.next ((State.remapFrame_of_clear hp hctxs).trans (if_neg (Nat.ne_of_gt htick))),
      fun htick hfills hgathers => does_rodRemap hp hctxs hfills hgathers htick⟩

end Sys2Proof.Machine
end

section
/-! SUPPORT. The slots of a dictionary identifier after a record has loaded (R183). -/
namespace Sys2Proof.Machine

/-- A slot that a record may load into (R183, Load): not valid, or without a reference. -/
def DictSlot.Free (d : DictSlot) : Prop := d.valid = true → d.holders = []

theorem DictSlot.free_of_test {d : DictSlot} (h : (!d.valid || d.holders.isEmpty) = true) : d.Free := by
  intro hvalid
  simpa [hvalid] using h

/-- What a slot that is not current becomes (R183, Release). -/
def DictSlot.released (d : DictSlot) : DictSlot := if d.holders.isEmpty then DictSlot.empty else d

theorem DictSlot.released_of_held {d : DictSlot} (h : d.holders ≠ []) : d.released = d := by simp [DictSlot.released, h]

theorem DictSlot.released_of_valid {d : DictSlot} (h : d.released.valid = true) : d.released = d := by
  refine DictSlot.released_of_held fun hd => ?_
  simp [DictSlot.released, hd, DictSlot.empty] at h

theorem DictSlot.released_tag_ne {d : DictSlot} {gen : Nat} (h : d.valid = true → d.gen % 256 ≠ gen % 256)
    (hvalid : d.released.valid = true) : d.released.gen % 256 ≠ gen % 256 := by
  have hsame := DictSlot.released_of_valid hvalid
  rw [hsame] at hvalid ⊢
  exact h hvalid

section
variable {p q : DictPair} {gen width : Nat} {es steps : List Nat}

theorem DictPair.release_of_curB (h : p.curB = true) : p.release = { p with a := p.a.released } := by
  simp [DictPair.release, DictSlot.released, h]

theorem DictPair.release_of_not_curB (h : p.curB = false) : p.release = { p with b := p.b.released } := by
  simp [DictPair.release, DictSlot.released, h]

/-- All that a load can do (R183, Load): the record has the successor's number unless no slot is valid, its slot was free, the other slot
is released, and the other did not hold a generation with the record's low eight bits. -/
theorem DictPair.load_loaded (h : p.load gen width es steps = (.loaded, q)) :
    ((p.a.valid = true ∨ p.b.valid = true) → gen = (p.current.gen + 1) % 2 ^ 32) ∧
    ((p.b.Free ∧ (p.a.valid = true → p.a.gen % 256 ≠ gen % 256) ∧
        q = { p with a := p.a.released, b := ⟨true, gen, width, es, steps⟩, curB := true }) ∨
     (p.a.Free ∧ (p.b.valid = true → p.b.gen % 256 ≠ gen % 256) ∧
        q = { p with a := ⟨true, gen, width, es, steps⟩, b := p.b.released, curB := false })) := by
  unfold DictPair.load at h
  extract_lets any slot freeA freeB toB other at h
  have htoB : toB = true → freeB = true := by
    by_cases hboth : (freeA && freeB) = true
    · exact fun _ => (Bool.and_eq_true_iff.1 hboth).2
    · simp [toB, hboth]
  have htoA : toB = false → (freeA = false → freeB = true) → freeA = true := by
    by_cases hboth : (freeA && freeB) = true
    · exact fun _ _ => (Bool.and_eq_true_iff.1 hboth).1
    · intro hA hfree
      have hB : freeB = false := by simpa [toB, hboth] using hA
      exact Bool.eq_true_of_not_eq_false fun hnot => by simp [hfree hnot] at hB
  split at h
  · cases h
  next hsucc =>
    refine ⟨fun hany => by simpa [any, hany] using hsucc, ?_⟩
    split at h
    · cases h
    next hwait =>
      obtain ⟨hfree, hother⟩ : (freeA = false → freeB = true) ∧ (other.valid = true → other.gen % 256 ≠ gen % 256) := by
        simpa using hwait
      split at h
      next hB =>
        obtain ⟨-, rfl⟩ := Prod.mk.inj h
        exact .inl ⟨DictSlot.free_of_test (htoB hB), by simpa [other, hB] using hother, DictPair.release_of_curB rfl⟩
      next hB =>
        obtain ⟨-, rfl⟩ := Prod.mk.inj h
        have hA : toB = false := by simpa using hB
        exact .inr ⟨DictSlot.free_of_test (htoA hA hfree), by simpa [other, hA] using hother, DictPair.release_of_not_curB rfl⟩

end

/-- Settles O36, by the slot that the record takes: it was free, and the other keeps what it holds for a step or is released. -/
theorem dictionarySlots : Obligations.DictionarySlots := by
  intro p q gen width es steps h
  obtain ⟨hsucc, ⟨hfree, htag, rfl⟩ | ⟨hfree, htag, rfl⟩⟩ := DictPair.load_loaded h
  · exact ⟨hsucc, rfl, rfl, rfl, rfl, fun _ hheld => DictSlot.released_of_held hheld, fun hvalid hheld => absurd (hfree hvalid) hheld,
      fun hvalid _ => DictSlot.released_tag_ne htag hvalid⟩
  · exact ⟨hsucc, rfl, rfl, rfl, rfl, fun hvalid hheld => absurd (hfree hvalid) hheld, fun _ hheld => DictSlot.released_of_held hheld,
      fun _ hvalid => (DictSlot.released_tag_ne htag hvalid).symm⟩

end Sys2Proof.Machine
end

section
/-! SUPPORT. The instance commands that pass their own checks (R341, R342). -/
namespace Sys2Proof.Machine

section
variable {s : State} {j : Job}

/-- A record handed over leaves the instances alone. -/
theorem State.instDone_inst (old : Inst) (status k : Nat) : (s.instDone j old status).inst k = s.inst k :=
  State.inst_of_serve (State.instDone_kept.same .serve (by decide)) k

/-- An instance set and recorded is the only one to change. -/
theorem State.instDone_setInst {i : Nat} (x old : Inst) (status : Nat) (h : i < s.serve.insts.length) :
    ((s.setInst i x).instDone j old status).inst i = x ∧
      ∀ k, k ≠ i → ((s.setInst i x).instDone j old status).inst k = s.inst k := by
  refine ⟨?_, fun k hk => ?_⟩
  · rw [State.instDone_inst, State.inst_setInst_self _ h]
  · rw [State.instDone_inst, State.inst_setInst _ h, if_neg hk]

/-- INSTANCE_CREATE over a committed base image. -/
theorem State.createInst_of_committed {e : CatEntry} (hpos : 1 ≤ field j.cmd.args 20 1) (hle : field j.cmd.args 20 1 ≤ 9)
    (hz : argsZero j.cmd.args 21 23 = true) (hready : s.svc.hbmReady = true) (hfree : (s.inst j.cmd.inst.val).state = .free)
    (he : s.entryOf (field j.cmd.args 0 16) (field j.cmd.args 16 4) = some e) (hstate : e.state = 3) (hkind : e.kind = 0)
    (hrow : s.fab.row ≠ 8) :
    s.createInst j = ((s.bind e.index true).setInst j.cmd.inst.val
      { Inst.reset with state := .created, owner := field j.cmd.args 20 1, entry := some e.index }).instDone j
        (s.inst j.cmd.inst.val) stOK := by
  have hown : ¬ (field j.cmd.args 20 1 = 0 ∨ 9 < field j.cmd.args 20 1) := by omega
  simp [State.createInst, hown, hz, hready, hfree, he, hstate, hkind, hrow]

/-- INSTANCE_CREATE of an instance in use fails. -/
theorem State.createInst_of_used (hused : (s.inst j.cmd.inst.val).state ≠ .free) : ∃ status, s.createInst j = s.fail j status := by
  unfold State.createInst
  dsimp only
  split
  · exact ⟨_, rfl⟩
  · split
    · exact ⟨_, rfl⟩
    · exact ⟨_, if_pos (by simpa using hused)⟩

/-- INSTANCE_RESTART of a torn-down instance whose schedule has the module's period. -/
theorem State.restartInst_of_tornDown (hz : argsZero j.cmd.args 0 44 = true) (hstate : (s.inst j.cmd.inst.val).state = .tornDown)
    (hperiod : ∀ g, (s.inst j.cmd.inst.val).sched.current = some g → g.val.period = s.time.period) :
    s.restartInst j = (s.setInst j.cmd.inst.val { s.inst j.cmd.inst.val with
      state := if (s.inst j.cmd.inst.val).hasAbsent then .part else .active, stopped := false,
      fired := (s.time.tick + 1, 0) }).instDone j (s.inst j.cmd.inst.val) stOK := by
  unfold State.restartInst
  dsimp only
  rw [if_neg (by simp [hz]), if_neg (by simp [hstate]), if_neg]
  split
  next g hg => simp [hperiod g hg]
  next => exact Bool.false_ne_true

/-- INSTANCE_RELEASE of an instance without requests and steps. -/
theorem State.releaseInst_of_idle (hz : argsZero j.cmd.args 0 44 = true) (hseqs : (s.inst j.cmd.inst.val).seqs = [])
    (hqueue : (s.inst j.cmd.inst.val).queue = []) (hsteps : ∀ r ∈ s.serve.steps, r.inst ≠ j.cmd.inst.val) :
    s.releaseInst j = ((s.freeInst j.cmd.inst.val).setInst j.cmd.inst.val Inst.reset).instDone j (s.inst j.cmd.inst.val) stOK := by
  have hany : (s.serve.steps.any fun r => r.inst == j.cmd.inst.val) = false := by simpa using hsteps
  simp [State.releaseInst, hz, hseqs, hqueue, hany]

/-- What a freed instance held is gone: its pages, its configurations and its fabric requests. -/
theorem State.freeInst_frees (s : State) (i : Nat) :
    (∀ p ∈ (s.freeInst i).mem.pages, p.owner ≠ i) ∧ (∀ c ∈ (s.freeInst i).serve.cfgs, c.inst ≠ i) ∧
      ∀ r ∈ (s.freeInst i).fab.requests, r.inst ≠ i := by
  refine ⟨fun p hp => ?_, fun c hc => ?_, fun r hr => ?_⟩
  · exact of_decide_eq_true (List.mem_filter.1 hp).2
  · exact of_decide_eq_true (List.mem_filter.1 hc).2
  · exact of_decide_eq_true (List.mem_filter.1 hr).2

/-- ACTIVATE of a created instance whose image's pages are taken. -/
theorem State.activateCmd_of_taken {checks : List Check} {e : CatEntry} {v : State} (hz : argsZero j.cmd.args 0 44 = true)
    (hready : s.svc.hbmReady = true) (hrow : s.fab.row ≠ 8) (hstate : (s.inst j.cmd.inst.val).state = .created)
    (he : (s.inst j.cmd.inst.val).entry.bind s.entryAt = some e) (hmap : s.vault.mapReady = true)
    (hv : (s.setInst j.cmd.inst.val { s.inst j.cmd.inst.val with state := .activating }).activate j.cmd.inst.val e checks
      = (.ok (), v)) :
    s.activateCmd j checks = v.instDone j (s.inst j.cmd.inst.val) stOK := by
  simp [State.activateCmd, hz, hready, hrow, hstate, he, hmap, hv]

end

/-- Settles O41, command by command: each passes its checks, then sets its instance and hands over the record. -/
theorem instanceLifecycle : Obligations.InstanceLifecycle := by
  intro s j hs
  have hlen : j.cmd.inst.val < s.serve.insts.length := hs.inst_lt _
  have hu : (s.consumed j.cmd).shape := State.consumed_kept.shape hs
  refine ⟨fun e hr hpos hle hz hready hfree he hstate hkind hrow => ?_, fun hr hused => ?_, fun hr hz hstate hperiod => ?_,
    fun hr hz hseqs hqueue hsteps => ?_, fun checks e v hr hz hready hrow hstate he hmap hv => ?_⟩
  · refine ⟨_, congrArg Host.Outcome.next (State.command_of_runs hr rfl _), ?_⟩
    rw [State.createInst_of_committed (s := s.consumed j.cmd) hpos hle hz hready hfree he hstate hkind hrow]
    have hb : Kept [.vault] (s.consumed j.cmd) ((s.consumed j.cmd).bind e.index true) := State.bind_kept
    obtain ⟨hself, hne⟩ := State.instDone_setInst (j := j)
      { Inst.reset with state := .created, owner := field j.cmd.args 20 1, entry := some e.index }
      ((s.consumed j.cmd).inst j.cmd.inst.val) stOK ((hb.shape hu).inst_lt j.cmd.inst)
    exact ⟨hself, fun k hk => (hne k hk).trans (State.inst_of_serve (hb.same .serve (by decide)) k)⟩
  · obtain ⟨status, hfail⟩ := State.createInst_of_used (s := s.consumed j.cmd) (j := j) hused
    refine ⟨_, congrArg Host.Outcome.next (State.command_of_runs hr rfl _), ?_⟩
    rw [hfail]
    exact ⟨State.fail_kept.same .serve (by decide), State.fail_kept.same .vault (by decide)⟩
  · refine ⟨_, congrArg Host.Outcome.next (State.command_of_runs hr rfl _), ?_⟩
    rw [State.restartInst_of_tornDown (s := s.consumed j.cmd) hz hstate hperiod]
    exact State.instDone_setInst (s := s.consumed j.cmd) _ _ _ hlen
  · refine ⟨_, congrArg Host.Outcome.next (State.command_of_runs hr rfl _), ?_⟩
    rw [State.releaseInst_of_idle (s := s.consumed j.cmd) hz hseqs hqueue hsteps]
    have hk : Kept [.handed] (((s.consumed j.cmd).freeInst j.cmd.inst.val).setInst j.cmd.inst.val Inst.reset) _ :=
      State.instDone_kept (a1 := j) (a2 := (s.consumed j.cmd).inst j.cmd.inst.val) (a3 := stOK)
    obtain ⟨hpages, hcfgs, hreqs⟩ := State.freeInst_frees (s.consumed j.cmd) j.cmd.inst.val
    have hserve := hk.same .serve (by decide)
    have hmem := hk.same .mem (by decide)
    have hfab := hk.same .fab (by decide)
    refine ⟨(State.instDone_setInst _ _ _ ((State.freeInst_kept.shape hu).inst_lt j.cmd.inst)).1, ?_, ?_, ?_⟩
    · rw [hmem]
      exact hpages
    · rw [hserve]
      exact hcfgs
    · rw [hfab]
      exact hreqs
  · exact congrArg Host.Outcome.next ((State.command_of_runs hr rfl _).trans
      (State.activateCmd_of_taken (s := s.consumed j.cmd) hz hready hrow hstate he hmap hv))

end Sys2Proof.Machine
end

section
/-! SUPPORT. The settings of the host (R233, R257, R264, R312 to R314, R358, R422), each past the checks of its own command. -/
namespace Sys2Proof.Machine

section
variable {s : State} {j : Job}

/-! ### Quotas -/

/-- The instance after a POOL_SET: a FREE one keeps the values of R233. -/
def Inst.withQuotas (x : Inst) (a : List Byte) : Inst :=
  if x.state = .free then x
  else { x with acct := { x.acct with quota := field a 0 4, limit := field a 4 4, csLimit := field a 8 4, pin := field a 12 1 = 1 } }

/-- An instance set and accepted is the only one to change. -/
theorem State.accept_setInst {i : Nat} (x : Inst) (h : i < s.serve.insts.length) (obj : Nat) (old new result : List Byte) :
    ((s.setInst i x).accept j obj old new result).inst i = x ∧
      ∀ k, k ≠ i → ((s.setInst i x).accept j obj old new result).inst k = s.inst k := by
  have hserve : ((s.setInst i x).accept j obj old new result).serve = (s.setInst i x).serve := State.accept_kept.same .serve (by decide)
  refine ⟨(State.inst_of_serve hserve i).trans (State.inst_setInst_self x h), fun k hk => ?_⟩
  exact (State.inst_of_serve hserve k).trans ((State.inst_setInst x h k).trans (if_neg hk))

theorem State.poolSet_of_fits (hpin : field j.cmd.args 12 1 ≤ 1) (hz : argsZero j.cmd.args 13 31 = true)
    (hquota : ((s.serve.insts.zipIdx.filter fun p => p.2 ≠ j.cmd.inst.val).foldl (fun n p => n + p.1.acct.quota) 0) +
      field j.cmd.args 0 4 ≤ poolPages)
    (hlimit : field j.cmd.args 0 4 ≤ field j.cmd.args 4 4) (hpool : field j.cmd.args 4 4 ≤ poolPages)
    (hcs : field j.cmd.args 8 4 ≤ csTiles) (hused : (s.inst j.cmd.inst.val).acct.used ≤ field j.cmd.args 4 4)
    (hcsUsed : (s.inst j.cmd.inst.val).acct.csUsed ≤ field j.cmd.args 8 4) :
    s.poolSet j = (s.setInst j.cmd.inst.val ((s.inst j.cmd.inst.val).withQuotas j.cmd.args)).accept j
      (objCommand j.opcode j.cmd.inst.val 0) [] (cmdValue j.cmd) [] := by
  unfold State.poolSet
  dsimp only
  rw [if_neg (by
    simp only [hz, Bool.not_true, Bool.or_false, Bool.or_eq_true, decide_eq_true_eq]
    omega)]
  simp only [Inst.withQuotas, beq_iff_eq]

/-! ### Ownership -/

/-- The arguments of an OWN_SET that gives a region an entry (R312). -/
structure OwnFormed (a : List Byte) : Prop where
  high  : bits (field a 0 8) 58 6 = 0
  owner : bits (field a 8 8) 14 2 = 0
  rest  : bits (field a 8 8) 48 16 = 0
  zero  : argsZero a 16 28 = true
  mode  : bits (field a 0 8) 56 2 ≠ 3
  small : 16 ≤ bits (field a 0 8) 46 6
  large : bits (field a 0 8) 46 6 ≤ 46
  unit  : bits (field a 0 8) 52 3 ≤ 5
  align : bits (field a 0 8) 0 46 % 2 ^ bits (field a 0 8) 46 6 = 0
  valid : bit (field a 0 8) 55 = true

/-- The region that an OWN_SET names: base, size and unit. -/
def ownBase (a : List Byte) : Nat := bits (field a 0 8) 0 46
def ownSize (a : List Byte) : Nat := bits (field a 0 8) 46 6
def ownUnit (a : List Byte) : Nat := bits (field a 0 8) 52 3

/-- The entry is that of the region. -/
def OwnEntry.isOf (o : OwnEntry) (a : List Byte) : Bool := o.base == ownBase a && o.size == ownSize a && o.unit == ownUnit a

/-- The entry of the region. -/
def State.ownOf (s : State) (a : List Byte) : Option OwnEntry := s.mem.own.find? fun o => o.isOf a

/-- The entry as a formed OWN_SET has it: a region's own with its new mode and owner, or a new one. -/
def State.ownGiven (s : State) (a : List Byte) : Option OwnEntry → OwnEntry
  | some o => { o with mode := bits (field a 0 8) 56 2, owner := bits (field a 8 8) 0 14 }
  | none => ⟨s.ownIndex, ownBase a, ownSize a, ownUnit a, bits (field a 0 8) 56 2, bits (field a 8 8) 0 14, 1⟩

/-- What bars a formed OWN_SET: an OPEN entry (R312), an overlap, or a full table. -/
def State.ownBars (s : State) (a : List Byte) : Option OwnEntry → Prop
  | some o => o.mode = 1
  | none => s.ownOverlaps (ownBase a) (ownSize a) (ownUnit a) = true ∨ 1024 ≤ s.mem.own.length + s.ownWaiting.length

theorem State.ownSetCmd_of_open {o : OwnEntry} (h : OwnFormed j.cmd.args)
    (ho : s.ownOf j.cmd.args = some o) (hmode : o.mode = 1) : s.ownSetCmd j = s.notOwner.fail j stNOT_OWNER := by
  obtain ⟨hhigh, howner, hrest, hzero, hnot3, hsmall, hlarge, hunit, halign, hvalid⟩ := h
  unfold State.ownSetCmd
  dsimp only
  rw [if_neg (by simp [hhigh, howner, hrest, hzero, hnot3, halign]; omega)]
  simp only [State.ownOf, OwnEntry.isOf, ownBase, ownSize, ownUnit] at ho
  simp [ho, hmode]

theorem State.ownSetCmd_of_passes (h : OwnFormed j.cmd.args)
    (hpass : ¬s.ownBars j.cmd.args (s.ownOf j.cmd.args)) :
    s.ownSetCmd j = s.changeOwn j.origin (s.ownGiven j.cmd.args (s.ownOf j.cmd.args)) true (some j.cqe) := by
  obtain ⟨hhigh, howner, hrest, hzero, hnot3, hsmall, hlarge, hunit, halign, hvalid⟩ := h
  unfold State.ownSetCmd
  dsimp only
  rw [if_neg (by simp [hhigh, howner, hrest, hzero, hnot3, halign]; omega)]
  have hfind : (s.mem.own.find? fun o => o.base == bits (field j.cmd.args 0 8) 0 46 && o.size == bits (field j.cmd.args 0 8) 46 6 &&
      o.unit == bits (field j.cmd.args 0 8) 52 3) = s.ownOf j.cmd.args := rfl
  rw [hfind]
  cases hf : s.ownOf j.cmd.args with
  | some o =>
    rw [hf] at hpass
    simp [State.ownBars] at hpass
    simp [hvalid, hpass, State.ownGiven]
  | none =>
    rw [hf] at hpass
    simp [State.ownBars, ownBase, ownSize, ownUnit] at hpass
    simp [hvalid, hpass, State.ownGiven, ownBase, ownSize, ownUnit]

theorem OwnEntry.isOf_iff {o : OwnEntry} {a : List Byte} :
    o.isOf a = true ↔ o.base = ownBase a ∧ o.size = ownSize a ∧ o.unit = ownUnit a := by
  simp [OwnEntry.isOf, and_assoc]

/-- A region overlaps itself. -/
theorem overlaps_self (b k : Nat) : overlaps b (2 ^ k) b (2 ^ k) = true := by
  have := Nat.two_pow_pos k
  simp [overlaps]

theorem State.isOf_of_ownOf {a : List Byte} {o : OwnEntry} (h : s.ownOf a = some o) : o ∈ s.mem.own ∧ o.isOf a = true :=
  ⟨List.mem_of_find?_eq_some h, List.find?_some (p := fun o : OwnEntry => o.isOf a) h⟩

/-- The given entry keeps to its region. -/
theorem State.ownGiven_region (s : State) (a : List Byte) :
    (s.ownGiven a (s.ownOf a)).isOf a = true := by
  cases h : s.ownOf a with
  | some o => exact (State.isOf_of_ownOf h).2
  | none => exact OwnEntry.isOf_iff.2 ⟨rfl, rfl, rfl⟩

/-- An OWN_SET for a region waits behind the requests to it that were accepted before (R314). -/
theorem State.changeOwn_of_region {o : OwnEntry} {a : List Byte} (ho : o.isOf a = true) (origin : Nat) (valid : Bool) (q : Option Cqe) :
    s.changeOwn origin o valid q =
      if s.behind s.fab.held (ownUnit a * 2 ^ 46 + ownBase a) (2 ^ ownSize a) then s.holdReq (.ownSet origin o valid q)
      else s.applyOwn origin o valid q := by
  obtain ⟨hb, hs, hu⟩ := OwnEntry.isOf_iff.1 ho
  rw [State.changeOwn, hb, hs, hu]

/-- Memory after an entry is set: the other indices' entries, then it. -/
theorem State.setOwn_mem (origin node : Nat) (old : Option OwnEntry) (new : OwnEntry) (q : Option Cqe) :
    (s.setOwn origin node old new q).mem = { s.mem with own := (s.mem.own.filter fun o => o.index ≠ new.index) ++ [new] } :=
  State.handCq_kept.same .mem (by decide)

/-- What an accepted OWN_SET writes: into the table with EPOCH 1 where its region is new, else with the next EPOCH in its place (R312). -/
theorem State.applyOwn_mem {o : OwnEntry} {a : List Byte} (ho : o.isOf a = true) (origin : Nat) (q : Option Cqe) :
    (s.ownOf a = none → (∀ e ∈ s.mem.own, e.index ≠ o.index) →
      (s.applyOwn origin o true q).mem = { s.mem with own := s.mem.own ++ [{ o with epoch := 1 }] }) ∧
    ∀ e, s.ownOf a = some e → { o with index := e.index, epoch := (e.epoch + 1) % 2 ^ 32 } ∈
      (s.applyOwn origin o true q).mem.own := by
  obtain ⟨hb, hs, hu⟩ := OwnEntry.isOf_iff.1 ho
  have hfind : (s.mem.own.find? fun e => e.base == o.base && e.size == o.size && e.unit == o.unit) =
      s.ownOf a := by rw [hb, hs, hu]; rfl
  unfold State.applyOwn
  rw [hfind]
  refine ⟨fun h hfresh => ?_, fun e h => ?_⟩
  · rw [h]
    dsimp only
    rw [State.setOwn_mem, List.filter_eq_self.2 fun e he => decide_eq_true (hfresh e he)]
  · rw [h]
    dsimp only
    rw [State.setOwn_mem]
    exact List.mem_append_right _ (List.mem_singleton.2 rfl)

/-- The ownership table has a free index while it and the waiting entries hold fewer than 1,024 (R312). -/
theorem State.ownIndex_fresh (h : s.mem.own.length + s.ownWaiting.length < 1024) : ∀ o ∈ s.mem.own, o.index ≠ s.ownIndex := by
  unfold State.ownIndex
  cases hf : (List.range 1024).find? fun k => (s.mem.own ++ s.ownWaiting).all fun o => o.index ≠ k with
  | some k =>
    have hk := List.find?_some hf
    simp only [List.all_append, Bool.and_eq_true, List.all_eq_true, decide_eq_true_eq] at hk
    exact hk.1
  | none =>
    have hsub : List.range 1024 ⊆ (s.mem.own ++ s.ownWaiting).map (·.index) := by
      intro k hk
      have := List.find?_eq_none.1 hf k hk
      simp only [List.all_eq_true, decide_eq_true_eq, not_forall, not_not] at this
      obtain ⟨o, ho, hok⟩ := this
      exact List.mem_map.2 ⟨o, ho, hok⟩
    have hle := (List.subperm_of_subset List.nodup_range hsub).length_le
    simp only [List.length_range, List.length_map, List.length_append] at hle
    omega

/-- What no held request and no entry lies in, no entry and no waiting one overlaps. -/
theorem State.ownOverlaps_of_clear {base size unit : Nat} (hw : s.behind s.fab.held (unit * 2 ^ 46 + base) (2 ^ size) = false)
    (hown : ∀ o ∈ s.mem.own, o.unit = unit → overlaps o.base (2 ^ o.size) base (2 ^ size) = false) :
    s.ownOverlaps base size unit = false := by
  unfold State.ownOverlaps
  rw [List.any_eq_false]
  intro o ho
  simp only [Bool.and_eq_true, beq_iff_eq, not_and]
  intro hu
  suffices hov : overlaps o.base (2 ^ o.size) base (2 ^ size) = false by simp [hov]
  rcases List.mem_append.1 ho with ho | ho
  · exact hown o ho hu.1
  · obtain ⟨h, hh, hho⟩ := List.mem_filterMap.1 ho
    have hfree := List.any_eq_false.1 hw h hh
    cases h with
    | ownSet origin p valid q =>
      cases valid with
      | false => cases hho
      | true =>
        cases hho
        simp only [State.heldRange, overlaps, hu.1, Bool.and_eq_true, decide_eq_true_eq, Bool.and_eq_false_iff, decide_eq_false_iff_not]
          at hfree ⊢
        omega
    | memory | handoff => cases hho

/-- A region that no entry overlaps is no entry's own. -/
theorem State.ownOf_of_clear {a : List Byte}
    (h : ∀ o ∈ s.mem.own, o.unit = ownUnit a → overlaps o.base (2 ^ o.size) (ownBase a) (2 ^ ownSize a) = false) :
    s.ownOf a = none := by
  refine List.find?_eq_none.2 fun o ho hof => ?_
  obtain ⟨hb, hs, hu⟩ := OwnEntry.isOf_iff.1 hof
  have := h o ho hu
  rw [hb, hs, overlaps_self] at this
  exact Bool.false_ne_true this.symm

/-- An OWN_SET that no check bars but that requests to its region come before (R314). -/
theorem State.ownSetCmd_of_behind (h : OwnFormed j.cmd.args)
    (hw : s.behind s.fab.held (ownUnit j.cmd.args * 2 ^ 46 + ownBase j.cmd.args) (2 ^ ownSize j.cmd.args) = true)
    (hmode : ∀ o ∈ s.mem.own, o.base = ownBase j.cmd.args → o.size = ownSize j.cmd.args → o.unit = ownUnit j.cmd.args → o.mode ≠ 1)
    (hov : s.ownOverlaps (ownBase j.cmd.args) (ownSize j.cmd.args) (ownUnit j.cmd.args) = false)
    (hroom : s.mem.own.length + s.ownWaiting.length < 1024) : ∃ r, s.ownSetCmd j = s.holdReq r := by
  have hpass : ¬s.ownBars j.cmd.args (s.ownOf j.cmd.args) := by
    cases hf : s.ownOf j.cmd.args with
    | some o =>
      obtain ⟨ho, hof⟩ := State.isOf_of_ownOf hf
      obtain ⟨hb, hs, hu⟩ := OwnEntry.isOf_iff.1 hof
      exact hmode o ho hb hs hu
    | none => simp [State.ownBars, hov, hroom]
  exact ⟨_, (State.ownSetCmd_of_passes h hpass).trans ((State.changeOwn_of_region (s.ownGiven_region _) _ _ _).trans (if_pos hw))⟩

/-- An OWN_SET of a new region that nothing is in the way of. -/
theorem State.ownSetCmd_of_new (h : OwnFormed j.cmd.args)
    (hw : s.behind s.fab.held (ownUnit j.cmd.args * 2 ^ 46 + ownBase j.cmd.args) (2 ^ ownSize j.cmd.args) = false)
    (hclear : ∀ o ∈ s.mem.own, o.unit = ownUnit j.cmd.args →
      overlaps o.base (2 ^ o.size) (ownBase j.cmd.args) (2 ^ ownSize j.cmd.args) = false)
    (hroom : s.mem.own.length + s.ownWaiting.length < 1024) :
    (s.ownSetCmd j).mem = { s.mem with own := s.mem.own ++ [s.ownGiven j.cmd.args none] } := by
  have hf := State.ownOf_of_clear hclear
  have hov := State.ownOverlaps_of_clear hw hclear
  have hreg := s.ownGiven_region j.cmd.args
  have hpass : ¬s.ownBars j.cmd.args (s.ownOf j.cmd.args) := by simp [hf, State.ownBars, hov, hroom]
  rw [State.ownSetCmd_of_passes h hpass, State.changeOwn_of_region hreg, if_neg (by rw [hw]; exact Bool.false_ne_true),
    (State.applyOwn_mem hreg _ _).1 hf (by simpa only [hf, State.ownGiven] using s.ownIndex_fresh hroom), hf]
  simp only [State.ownGiven]

/-- An OWN_SET of a region that has an entry, not OPEN, with no request before it. -/
theorem State.ownSetCmd_of_held {o : OwnEntry} (h : OwnFormed j.cmd.args) (ho : s.ownOf j.cmd.args = some o)
    (hmode : o.mode ≠ 1)
    (hw : s.behind s.fab.held (ownUnit j.cmd.args * 2 ^ 46 + ownBase j.cmd.args) (2 ^ ownSize j.cmd.args) = false) :
    { s.ownGiven j.cmd.args (some o) with epoch := (o.epoch + 1) % 2 ^ 32 } ∈ (s.ownSetCmd j).mem.own := by
  have hreg := s.ownGiven_region j.cmd.args
  have hpass : ¬s.ownBars j.cmd.args (s.ownOf j.cmd.args) := by rw [ho]; exact hmode
  rw [State.ownSetCmd_of_passes h hpass, State.changeOwn_of_region hreg, if_neg (by rw [hw]; exact Bool.false_ne_true)]
  have hmem := (s.applyOwn_mem hreg j.origin (some j.cqe)).2 o ho
  rw [ho] at hmem ⊢
  exact hmem

/-! ### Tenants -/

/-- A tenant's record replaced is found under its number. -/
theorem find?_replaced_tenant {l : List Tenant} {x t : Tenant} (h : (l.find? fun x => x.id == t.id) = some x) :
    ((l.map fun x => if x.id == t.id then t else x).find? fun x => x.id == t.id) = some t := by
  induction l with
  | nil => cases h
  | cons y l ih =>
    by_cases hy : y.id = t.id
    · simp [hy]
    · have hne : (y.id == t.id) = false := by simpa using hy
      rw [List.find?_cons, hne] at h
      rw [List.map_cons, hne, if_neg Bool.false_ne_true, List.find?_cons, hne]
      exact ih h

theorem State.tenant_setTenant_self {x t : Tenant} (h : s.tenant t.id = some x) : (s.setTenant t).tenant t.id = some t :=
  find?_replaced_tenant h

/-- `s` with a fresh tenant. -/
def State.addTenant (s : State) (id weight : Nat) : State :=
  { s with serve := { s.serve with tenants := s.serve.tenants ++ [⟨id, true, 0, weight, 0, 0, 0, 0, none⟩] } }

theorem State.tenant_addTenant {id : Nat} (h : s.tenant id = none) (w : Nat) :
    (s.addTenant id w).tenant id = some ⟨id, true, 0, w, 0, 0, 0, 0, none⟩ := by
  unfold State.tenant at h
  simp [State.tenant, State.addTenant, h]

/-- A tenant's setting waits for the next boundary (R358). -/
def Tenant.waiting (t : Tenant) (budget window : Nat) : Tenant := { t with set := true, next := some (budget, window) }

theorem State.tenant_setTenant_waiting {id : Nat} {t : Tenant} (h : s.tenant id = some t) (b w : Nat) :
    (s.setTenant (t.waiting b w)).tenant id = some (t.waiting b w) := by
  have hid : t.id = id := by simpa using List.find?_some (p := fun x : Tenant => x.id == id) h
  subst hid
  exact State.tenant_setTenant_self (t := t.waiting b w) h

theorem State.tenantSet_of_known {t : Tenant} (hw : field j.cmd.args 8 2 ≠ 0) (hz : argsZero j.cmd.args 1 3 = true)
    (hz' : argsZero j.cmd.args 10 34 = true) (ht : s.tenant (field j.cmd.args 0 1) = some t) :
    s.tenantSet j = (s.setTenant (t.waiting (field j.cmd.args 4 4) (field j.cmd.args 8 2))).accept j
      (objCommand j.opcode 0 (field j.cmd.args 0 1)) [] (cmdValue j.cmd) [] := by
  simp [State.tenantSet, hw, hz, hz', ht, Tenant.waiting]

theorem State.tenantSet_of_new (hw : field j.cmd.args 8 2 ≠ 0) (hz : argsZero j.cmd.args 1 3 = true)
    (hz' : argsZero j.cmd.args 10 34 = true) (ht : s.tenant (field j.cmd.args 0 1) = none) :
    s.tenantSet j = (s.addTenant (field j.cmd.args 0 1) (field j.cmd.args 8 2)).tenantSet j := by
  rw [State.tenantSet_of_known hw hz hz' (State.tenant_addTenant ht _)]
  have hadd := State.tenant_addTenant ht (field j.cmd.args 8 2)
  unfold State.addTenant at hadd
  simp [State.tenantSet, hw, hz, hz', ht, hadd, Tenant.waiting, State.addTenant]

/-- TENANT_SET of a tenant that the module knows: what it has used, its window and its budget stay. -/
theorem State.tenantSet_tenant {t : Tenant} (hw : field j.cmd.args 8 2 ≠ 0) (hz : argsZero j.cmd.args 1 3 = true)
    (hz' : argsZero j.cmd.args 10 34 = true) (ht : s.tenant (field j.cmd.args 0 1) = some t) :
    (s.tenantSet j).tenant (field j.cmd.args 0 1) = some (t.waiting (field j.cmd.args 4 4) (field j.cmd.args 8 2)) := by
  rw [State.tenantSet_of_known hw hz hz' ht]
  exact (congrArg (fun v : Serve => v.tenants.find? _) (State.accept_kept.same .serve (by decide))).trans
    (State.tenant_setTenant_waiting ht _ _)

/-! ### Preferences -/

/-- The preferences of a HINT: one of each die that it names (R422). -/
def hintsGiven (a : List Byte) : List Hint :=
  ((List.range 4).filter fun d => bit (field a 0 1) d).map fun d =>
    ⟨d, if field a 2 1 = 0xFF then 16 + field a 1 1 else field a 2 1, field a 8 8, field a 16 2⟩

theorem State.hintCommand_of_formed (hdie : field j.cmd.args 0 1 < 16) (hphase : field j.cmd.args 1 1 ≤ 4)
    (hop : field j.cmd.args 2 1 ≤ 11 ∨ field j.cmd.args 2 1 = 0xFF) (hstart : field j.cmd.args 8 8 < 2 ^ 48)
    (hsoon : j.stamp.beat + 2 ≤ field j.cmd.args 8 8) (hbeats : field j.cmd.args 16 2 ≠ 0) (hz : argsZero j.cmd.args 3 5 = true)
    (hz' : argsZero j.cmd.args 18 26 = true) :
    ∃ keep, s.hintCommand j = (s.setPower { s.power with hints := keep ++ hintsGiven j.cmd.args }).accept j (objCommand 0x38 0 0) []
      (cmdValue j.cmd) [] := by
  unfold State.hintCommand
  dsimp only
  rw [if_neg]
  · exact ⟨_, rfl⟩
  · simp [hz, hz', hbeats]
    omega

/-! ### Images -/

/-- A journal record made durable leaves the catalogue alone, and so does the whole buffer programmed (R245, R246). -/
theorem Vault.settle_catalogue (v : Vault) (r : JRec) : (v.settle r).catalogue = v.catalogue := by
  unfold Vault.settle
  dsimp only
  split <;> rfl

theorem foldl_settle_catalogue (l : List JRec) (v : Vault) : (l.foldl Vault.settle v).catalogue = v.catalogue := by
  induction l generalizing v with
  | nil => rfl
  | cons r l ih => exact (ih _).trans (v.settle_catalogue r)

theorem State.flushJournal_catalogue (s : State) : s.flushJournal.vault.catalogue = s.vault.catalogue := by
  unfold State.flushJournal
  dsimp only
  split
  · rfl
  · exact foldl_settle_catalogue _ _

theorem State.journal_catalogue (s : State) (what : JWhat) : (s.journal what).vault.catalogue = s.vault.catalogue := by
  unfold State.journal
  dsimp only
  split
  · rw [State.flushJournal_catalogue]
    rfl
  · rfl

/-- An extent's pages are freed through the journal: the catalogue stays. -/
theorem State.freeExtent_catalogue (s : State) (c : CatEntry) : (s.freeExtent c).vault.catalogue = s.vault.catalogue := by
  unfold State.freeExtent
  induction c.extent generalizing s with
  | nil => rfl
  | cons e l ih => exact (ih _).trans (s.journal_catalogue _)

/-- IMAGE_DELETE of an entry that nothing is bound to and no installation or repair is open for. -/
theorem State.deleteImage_of_unbound {e : CatEntry} (hz : argsZero j.cmd.args 20 24 = true)
    (he : s.entryOf (field j.cmd.args 0 16) (field j.cmd.args 16 4) = some e) (hbound : e.bound = 0) (hopen : s.entryOpen e = false) :
    (s.deleteImage j).vault.catalogue = s.vault.catalogue.filter fun x => x.index ≠ e.index := by
  have hdo : s.deleteImage j = ((s.freeExtent e).setVault { (s.freeExtent e).vault with
      catalogue := (s.freeExtent e).vault.catalogue.filter fun x => x.index ≠ e.index }).accept j
        (objImage (s.freeExtent e).fab.moduleNo e.index e.gen) (imageVal e e.state) (imageVal e 0) [] := by
    simp [State.deleteImage, hz, he, hbound, hopen]
  rw [hdo, State.accept_kept.same .vault (by decide)]
  show ((s.freeExtent e).vault.catalogue.filter _) = _
  rw [State.freeExtent_catalogue]

/-- The reader of an INSTALL at its start, BEGIN just sent (R257). -/
def State.newReader (s : State) (j : Job) (image : List Byte) : Reader :=
  { tag := s.fab.moduleNo + 2 ^ 11 * (s.vault.tagNo % 2 ^ 21), cqe := some j.cqe, origin := j.origin, image := image,
    entry := s.freeEntry.getD 0, shards := headShards (imageHead image), rows := field (imageHead image) 38 1,
    cols := field (imageHead image) 39 1, payload := field (imageHead image) 72 8,
    peers := (maskMembers (field j.cmd.args 16 9)).map fun p =>
      ⟨memberBit p.1 p.2, s.fab.part * 128 + p.1 * 8 + p.2, false, 0, false, false, false, []⟩
    queue := [], seq := 0, begun := s.time.clk, timeout := s.time.clk + field j.cmd.args 28 4 * 1000000, ended := false,
    committing := false, gen := field (imageHead image) 12 4, digest := headDigest (imageHead image) }

/-- INSTALL past its checks, with a member that has nothing open: the reader is entered, whatever it then sends. -/
theorem State.install_of_passes {image : List Byte} (hbus : j.cmd.busError = false) (hz : argsZero j.cmd.args 26 2 = true)
    (hz' : argsZero j.cmd.args 32 12 = true) (hhigh : bits (field j.cmd.args 25 1) 4 4 = 0) (hlow : 1000 ≤ field j.cmd.args 28 4)
    (htop : field j.cmd.args 28 4 ≤ 3600000) (hcoord : s.fab.coordValid = true)
    (hself : bit (field j.cmd.args 16 9) (memberBit s.fab.row s.fab.col) = true) (hstatus : s.imageStatus (imageHead image) false = stOK)
    (hlen : field (imageHead image) 88 8 = field j.cmd.args 8 8) (hfull : field j.cmd.args 8 8 ≤ image.length)
    (hgroup : groupIncomplete (imageHead image) (field j.cmd.args 16 9) = false) (hreader : s.vault.reader = none)
    (hrepair : s.vault.repair = none) (hmember : ∀ x, s.vault.member = some x → x.committed = true) :
    (s.install j image).vault = { s.vault with reader := some (s.newReader j image), tagNo := s.vault.tagNo + 1 } := by
  have hms : field j.cmd.args 28 4 ≠ 0 := by omega
  unfold State.install
  dsimp only
  rw [if_neg hms, if_neg (by simp [hz, hz', hhigh]; omega), if_neg (by simp [hcoord, hself]), if_neg (by simp [hbus]),
    if_neg (by simp [hstatus]), if_neg (by simp [hlen]; omega), if_neg (by simp [hgroup]), if_neg (by
      cases hm : s.vault.member with
      | none => simp [hreader, hrepair]
      | some x => simp [hreader, hrepair, hmember x hm])]
  rw [State.sendBegin_kept.same .vault (by decide), State.hand_kept.same .vault (by decide)]
  rfl

end

/-- Settles O43, setting by setting: each past its checks sets what it names, and hands over its record. -/
theorem hostSettings : Obligations.HostSettings := by
  intro s j hs
  have hlen : j.cmd.inst.val < s.serve.insts.length := hs.inst_lt _
  refine ⟨fun hr => ?_, fun hr hpin hz hquota hlimit hpool hcs hused hcsUsed => ?_,
    fun hr hhigh howner hrest hzero hmode hsmall hlarge hunit halign hvalid => ?_, fun hr hw hz hz' => ?_,
    fun hr hdie hphase hop hstart hsoon hbeats hz hz' => ?_, fun e hr hz he hbound hopen => ?_,
    fun image hr hz hz' hhigh hlow htop hcoord _ hself hstatus hlength hfull hgroup hreader hrepair hmember => ?_⟩
  · exact congrArg Host.Outcome.next (State.command_of_runs hr rfl _)
  · refine ⟨_, congrArg Host.Outcome.next (State.command_of_runs hr rfl _), ?_⟩
    rw [State.poolSet_of_fits (s := s.consumed j.cmd) hpin hz hquota hlimit hpool hcs hused hcsUsed]
    exact State.accept_setInst (s := s.consumed j.cmd) _ hlen _ _ _ _
  · have hf : OwnFormed j.cmd.args := ⟨hhigh, howner, hrest, hzero, hmode, hsmall, hlarge, hunit, halign, hvalid⟩
    refine ⟨fun hw hopen hov hroom => ?_, fun hw hclear hroom => ?_, fun o ho => ⟨fun hm => ?_, fun hm hw => ?_⟩⟩
    · refine ⟨_, congrArg Host.Outcome.next (State.command_of_runs hr rfl _), ?_⟩
      obtain ⟨r, hr⟩ := State.ownSetCmd_of_behind (s := s.consumed j.cmd) hf hw hopen hov hroom
      rw [hr]
      exact ⟨rfl, r, rfl⟩
    · refine ⟨_, congrArg Host.Outcome.next (State.command_of_runs hr rfl _), ?_⟩
      have hmem := State.ownSetCmd_of_new (s := s.consumed j.cmd) hf hw hclear hroom
      exact ⟨(congrArg MemSys.cells hmem).trans rfl, _, State.ownIndex_fresh (s := s.consumed j.cmd) hroom,
        (congrArg MemSys.own hmem).trans rfl⟩
    · refine ⟨_, congrArg Host.Outcome.next (State.command_of_runs hr rfl _), ?_⟩
      rw [State.ownSetCmd_of_open (s := s.consumed j.cmd) hf ho hm]
      have hk : Kept [.rings, .out] (s.consumed j.cmd).notOwner ((s.consumed j.cmd).notOwner.fail j stNOT_OWNER) := State.complete_kept
      refine ⟨hk.same .mem (by decide), ?_⟩
      rw [State.reg_of_regs (hk.same .regs (by decide)), State.notOwner, State.reg_bump, if_pos rfl]
      rfl
    · refine ⟨_, congrArg Host.Outcome.next (State.command_of_runs hr rfl _), ?_⟩
      exact State.ownSetCmd_of_held (s := s.consumed j.cmd) hf ho hm hw
  · refine ⟨_, congrArg Host.Outcome.next (State.command_of_runs hr rfl _), ?_⟩
    cases ht : (s.consumed j.cmd).tenant (field j.cmd.args 0 1) with
    | some t =>
      refine ⟨_, State.tenantSet_tenant hw hz hz' ht, rfl, rfl, fun y hy => ?_⟩
      cases hy.symm.trans ht
      exact ⟨rfl, rfl, rfl⟩
    | none =>
      rw [State.tenantSet_of_new hw hz hz' ht]
      exact ⟨_, State.tenantSet_tenant hw hz hz' (State.tenant_addTenant ht _), rfl, rfl, fun y hy => nomatch hy.symm.trans ht⟩
  · refine ⟨_, congrArg Host.Outcome.next (State.command_of_runs hr rfl _), ?_⟩
    obtain ⟨keep, hk⟩ := State.hintCommand_of_formed (s := s.consumed j.cmd) hdie hphase hop hstart hsoon hbeats hz hz'
    rw [hk, State.accept_kept.same .power (by decide)]
    refine ⟨rfl, fun d hd hb => List.mem_append_right _ (List.mem_map.2 ⟨d, ?_, rfl⟩)⟩
    exact List.mem_filter.2 ⟨List.mem_range.2 hd, hb⟩
  · refine ⟨_, congrArg Host.Outcome.next (State.command_of_runs hr rfl _), ?_⟩
    exact State.deleteImage_of_unbound (s := s.consumed j.cmd) hz he hbound hopen
  · have hj : { j.cmd with busError := false } = j.cmd := by
      obtain ⟨op, c, h, hshape, -, hj⟩ := hr
      simp only [hostShape, Option.some.injEq, Prod.mk.injEq] at hshape
      obtain ⟨-, rfl, -⟩ := hshape
      exact (congrArg Job.cmd hj).symm
    refine ⟨_, congrArg Host.Outcome.next (State.command_of_runs hr rfl _), ?_⟩
    refine ⟨(s.consumed j.cmd).newReader j image, ?_⟩
    rw [hj, State.install_of_passes (s := s.consumed j.cmd) (by rw [← hj]) hz hz' hhigh hlow htop hcoord hself hstatus hlength hfull
      hgroup hreader hrepair hmember]
    refine ⟨rfl, rfl, List.length_map .., fun p hp => ?_, rfl, rfl, rfl⟩
    obtain ⟨q, -, rfl⟩ := List.mem_map.1 hp
    rfl

end Sys2Proof.Machine
end

section
/-! SUPPORT. An action that leaves what the state sensors show brings no platform event (R478). -/
namespace Sys2Proof.Machine

/-- No state sensor shows a change. -/
theorem State.sensorEvents_of_still {s t : State} (hpower : t.power = s.power) (hfaults : t.faults = s.faults)
    (hphase : t.svc.phase = s.svc.phase) : t.sensorEvents s = t := by
  have hsame : ∀ id, t.sensorState id = s.sensorState id := fun id => by unfold State.sensorState; rw [hpower, hfaults, hphase]
  simp [State.sensorEvents, hsame]

theorem State.watched_of_kept {s : State} {f : State → State} {ps : List Part} (h : Kept ps s (f s))
    (hps : Part.power ∉ ps ∧ Part.faults ∉ ps ∧ Part.phase ∉ ps := by decide) : s.watched f = f s :=
  State.sensorEvents_of_still (h.same .power hps.1) (h.same .faults hps.2.1) (h.same .phase hps.2.2)

end Sys2Proof.Machine
end

section
/-! SUPPORT. Memory requests that act at once: delivered, formed, allowed, behind nothing (R303 to R306, R313, R314). -/
namespace Sys2Proof.Machine

section
variable {s : State} {kind : Nat} {m : Msg}

/-- A message that is for this module is delivered (R294, R303). -/
theorem State.deliver_of_takes (h : s.takes kind m) (act : State → State) : s.deliver kind m act = act s := by
  obtain ⟨hport, hdest, hpart, hadmit, hfm⟩ := h
  unfold State.deliver
  rw [if_neg (by rcases hport with h | h <;> simp [h]), if_neg (by rcases hdest with h | ⟨h, h'⟩ <;> simp [*]),
    if_neg (by rcases hpart with h | h <;> simp [h]), if_neg (by rcases hadmit with h | ⟨h, h'⟩ <;> simp [*]), if_neg]
  intro h
  obtain ⟨hkind, hfrom⟩ := Bool.and_eq_true_iff.1 h
  simp [hfm hkind] at hfrom

/-- The response that can leave does (R291, R303). -/
theorem State.respond_of_answerable (h : s.answerable m) (status : Nat) (payload : List Byte) :
    s.respond kind m status payload = s.emit (s.answer kind m status payload) := by
  have hport : Fin.ofNat 9 m.port.val = m.port := Fin.ext (Nat.mod_eq_of_lt m.port.isLt)
  have hlen : (if payload.isEmpty = true then (0 : Word32) else BitVec.ofNat 32 payload.length) = BitVec.ofNat 32 payload.length := by
    cases payload <;> rfl
  unfold State.respond State.answer
  by_cases hown : s.answersHere m = true
  · simp only [hown, if_true]
    unfold State.answersHere at hown
    simp only [hown, if_true, State.sendLocal, sentLength, Msg.blank, hlen]
  · obtain ⟨hsends, hopen⟩ := h.resolve_left hown
    have hst : ((s.port m.port.val).st == .admitted || (s.port m.port.val).st == .retrain) = true := by
      rcases hopen with h | h <;> simp [h]
    have hto : (s.fab.admitted || m.fm) = true := by simpa using hsends
    simp only [hown, Bool.false_eq_true, if_false]
    unfold State.answersHere at hown
    simp only [hown, State.sendOn, hto, hst, sentLength, Msg.blank, hlen, hport, Bool.not_true, Bool.false_eq_true, if_false,
      if_true]

/-- What a response is and whether it can leave lie in the fabric alone. -/
theorem State.answer_of_fab {t : State} (h : t.fab = s.fab) : t.answer kind m = s.answer kind m := by
  unfold State.answer State.answersHere State.isOwn
  rw [h]

theorem State.answerable_of_fab {t : State} (h : t.fab = s.fab) (ha : s.answerable m) : t.answerable m := by
  unfold State.answerable State.answersHere State.isOwn State.port at *
  rw [h]
  exact ha

/-- The request is delivered, formed and allowed, and has nothing to wait for. -/
def State.memReady (s : State) (kind : Nat) (m : Msg) : Prop :=
  s.takes kind m ∧ memFormed kind m = true ∧
    s.fabricStatus (memWrites kind) m.src.toNat (msgMpa m) (memBytes kind m) = stOK ∧
    s.behind s.fab.held (msgMpa m) (memBytes kind m) = false ∧ s.hubWaits (memReads kind m) (msgMpa m) (memBytes kind m) = false

/-- The effect of a request that is ready, and its data. -/
def State.memDone (s : State) (kind : Nat) (m : Msg) : State × List Byte := (s.touch (msgMpa m) (memBytes kind m)).memAct kind m

theorem State.memDone_kept : Kept [.arr, .mem] s (s.memDone kind m).1 := State.memAct_kept.andThen (State.touch_kept.mono (by decide))

/-- A request that is ready, its reads all well, acts and is answered (R304, R305). -/
theorem State.deliver_memoryOp (hr : s.memReady kind m) (ha : s.answerable m) :
    s.watched (·.deliver kind m fun s => s.memoryOp kind m []) = (s.memDone kind m).1.emit (s.answer kind m stOK (s.memDone kind m).2) := by
  obtain ⟨htakes, hformed, hstatus, hbehind, hwaits⟩ := hr
  have hreads : mergeReads (msgMpa m) (memBytes kind m) [] = [] := rfl
  have hdone : s.deliver kind m (fun s => s.memoryOp kind m []) =
      (s.memDone kind m).1.emit (s.answer kind m stOK (s.memDone kind m).2) := by
    have hfab : (s.memDone kind m).1.fab = s.fab := State.memDone_kept.same .fab (by decide)
    rw [State.deliver_of_takes htakes, ← State.answer_of_fab hfab, ← State.respond_of_answerable (State.answerable_of_fab hfab ha)]
    simp [State.memoryOp, hformed, hstatus, hbehind, hwaits, State.serveMem, hreads, State.hubRead, State.memDone]
  rw [State.watched_of_kept (ps := [.arr, .mem, .out]), hdone]
  rw [hdone]
  exact State.emit_kept.andThen (State.memDone_kept.mono (by decide))

/-- The cells of memory stand when an access notes its beat (R231). -/
theorem State.touch_cells (s : State) (a n : Nat) : (s.touch a n).mem.cells = s.mem.cells := by
  unfold State.touch
  split <;> rfl

theorem State.touch_svc (s : State) (a n : Nat) : (s.touch a n).svc = s.svc := by
  unfold State.touch
  split <;> rfl

/-- A byte of tile memory lies in tile memory. -/
theorem inTileMem_of_placeOf {ready : Bool} {a n : Nat} {b : BeadId} {off : Nat} (h : placeOf ready a = .tileMem b off) (hn : n ≠ 0) :
    inTileMem a n = true := by
  unfold placeOf at h
  dsimp only at h
  split at h
  next hu =>
    split at h
    next ho => simp [inTileMem, hu, ho, hn]
    next => split at h <;> [cases h; (split at h <;> cases h)]
  next => split at h <;> [(split at h <;> cases h); (split at h <;> [(split at h <;> cases h); cases h])]

/-- A byte written outside tile memory reads as written. -/
theorem State.read_writeMpa {a : Nat} {bs : List Byte} (h : ∀ b off, placeOf s.svc.hbmReady a ≠ .tileMem b off) (k : Nat)
    (hk : k < bs.length) : Memory.read (s.writeMpa a bs).mem.cells (a + k) = bs[k] := by
  unfold State.writeMpa
  split
  next b off hplace => exact absurd hplace (h b off)
  next =>
    rw [State.touch_cells]
    exact Memory.read_write_in ..

/-- A port's write that is allowed is not one to tile memory (R34). -/
theorem State.fabricStatus_outside {node a n : Nat} (h : s.fabricStatus true node a n = stOK) (hn : n ≠ 0) (b : BeadId) (off : Nat) :
    placeOf s.svc.hbmReady a ≠ .tileMem b off := by
  intro hplace
  have hin := inTileMem_of_placeOf hplace hn
  simp [State.fabricStatus, State.portStatusOf, hin, stNOT_PERMITTED, stOK] at h

/-- A request touches a byte at least. -/
theorem memBytes_ne_zero (h : memFormed kind m = true) : memBytes kind m ≠ 0 := by
  unfold memBytes atomicBytes
  simp only [memFormed, Bool.and_eq_true, Nat.ble_eq] at h
  obtain ⟨⟨-, hn⟩, -⟩ := h
  split
  · split <;> decide
  · omega

/-- A write that is ready lays its bytes outside tile memory, where they then read as written. -/
theorem State.memReady.read_written (hr : s.memReady kind m) (hw : memWrites kind = true) (bs : List Byte) (k : Nat) (hk : k < bs.length) :
    Memory.read ((s.touch (msgMpa m) (memBytes kind m)).writeMpa (msgMpa m) bs).mem.cells (msgMpa m + k) = bs[k] := by
  obtain ⟨-, hformed, hstatus, -, -⟩ := hr
  rw [hw] at hstatus
  refine State.read_writeMpa (fun b off => ?_) k hk
  rw [State.touch_svc]
  exact State.fabricStatus_outside hstatus (memBytes_ne_zero hformed) b off

/-- A request's command that is ready: what it sends, and the memory that it leaves. -/
theorem exec_of_memReady {c : Instr} (hc : exec c s = .next (s.watched (·.deliver kind m fun s => s.memoryOp kind m [])))
    (hr : s.memReady kind m) (ha : s.answerable m) :
    ∃ t, exec c s = .next t ∧ t.out = s.out ++ [s.answer kind m stOK (s.memDone kind m).2] ∧ t.mem = (s.memDone kind m).1.mem := by
  refine ⟨_, hc, ?_⟩
  rw [State.deliver_memoryOp hr ha]
  have hout : (s.memDone kind m).1.out = s.out := State.memDone_kept.same .out (by decide)
  exact ⟨congrArg (· ++ _) hout, rfl⟩

/-- The same of a write, by the bytes that it lays at its address. -/
theorem exec_of_memWrite {c : Instr} {bs data : List Byte}
    (hc : exec c s = .next (s.watched (·.deliver kind m fun s => s.memoryOp kind m []))) (hr : s.memReady kind m) (ha : s.answerable m)
    (hw : memWrites kind = true)
    (hdone : s.memDone kind m = ((s.touch (msgMpa m) (memBytes kind m)).writeMpa (msgMpa m) bs, data)) :
    ∃ t, exec c s = .next t ∧ t.out = s.out ++ [s.answer kind m stOK data] ∧
      ∀ (k : Nat) (h : k < bs.length), Memory.read t.mem.cells (msgMpa m + k) = bs[k] := by
  obtain ⟨t, ht, hout, hmem⟩ := exec_of_memReady hc hr ha
  rw [hdone] at hout hmem
  exact ⟨t, ht, hout, fun k hk => hmem ▸ hr.read_written hw bs k hk⟩

end

end Sys2Proof.Machine
end

section
/-! SUPPORT. The accepted writes of the arbitration, power and ledger units (R335, R424, R438, R464, R475). -/
namespace Sys2Proof.Machine

/-- What is kept of the security module is all of it where neither it nor the platform events may change. -/
theorem Kept.sec_eq {ps : List Part} {s t : State} (h : Kept ps s t) (hs : Part.sec ∉ ps := by decide)
    (hp : Part.platform ∉ ps := by decide) : t.sec = s.sec := by
  have hsec : ({ t.sec with events := [] } : Security) = { s.sec with events := [] } := h.same .sec hs
  have hevents : t.sec.events = s.sec.events := h.same .platform hp
  calc t.sec = { ({ t.sec with events := [] } : Security) with events := t.sec.events } := rfl
    _ = s.sec := by rw [hsec, hevents]

section
variable (s : State)

/-! ### The lease that has come to its end (R424) -/

theorem State.runTo_of_le {due : Nat} (h : due ≤ s.time.clk) : s.runTo due = s := if_pos h

/-- The end of a lease in its own tick leaves the time, and every register but the count of events that no EQ takes. -/
theorem State.leaseEnds_of_due {due : Nat} (hl : s.power.lease = some due) (h : due ≤ s.time.clk) :
    s.leaseEnds.time = s.time ∧ ∀ o, o ≠ 0xC0820 → s.leaseEnds.reg o = s.reg o := by
  unfold State.leaseEnds State.atTimer
  rw [hl]
  dsimp only
  split
  · rw [s.runTo_of_le h]
    refine ⟨?_, fun o ho => ?_⟩
    · rw [State.event_kept.same .time (by decide), State.powerRecord_kept.same .time (by decide)]
      exact State.noteCap_kept.same .time (by decide)
    · rw [(State.event_eventOnly ..).reg o ho, State.reg_of_regs (State.powerRecord_kept.same .regs (by decide))]
      exact State.reg_of_regs (State.noteCap_kept.same .regs (by decide)) o
  · exact ⟨rfl, fun _ _ => rfl⟩

theorem State.ripeLease_leaves : s.ripeLease.time = s.time ∧ ∀ o, o ≠ 0xC0820 → s.ripeLease.reg o = s.reg o := by
  unfold State.ripeLease
  split
  next due hl =>
    split
    next h => exact s.leaseEnds_of_due hl h
    next => exact ⟨rfl, fun _ _ => rfl⟩
  next => exact ⟨rfl, fun _ _ => rfl⟩

/-- CAP_RENEW starts the lease anew from its tick. -/
theorem State.writeRenew_lease {v : Nat} (h : bit v 0 = true) :
    (s.writeRenew v).power.lease = some (s.time.clk + s.reg 0x40008 * 1000000) := by
  obtain ⟨htime, hreg⟩ := s.ripeLease_leaves
  unfold State.writeRenew
  rw [if_pos h]
  show some (s.ripeLease.time.clk + s.ripeLease.reg 0x40008 * 1000000) = _
  rw [htime, hreg _ (by decide)]

/-! ### Steelyard's settings (R427, R438) -/

theorem bit_zero_putBits (v : Nat) : bit (putBits v 16 21 5000) 0 = bit v 0 := by
  unfold bit putBits bits
  simp only [pow_zero, Nat.div_one, decide_eq_decide]
  omega

theorem State.writeSteelCfg_enable (v : Nat) : bit ((s.writeSteelCfg v).reg 0x40028) 0 = bit v 0 := by
  unfold State.writeSteelCfg
  rw [State.reg_setReg, if_pos rfl]
  split
  · exact bit_zero_putBits v
  · rfl

/-- The reserved bits of STEELYARD_CFG lie above its first. -/
theorem bit_zero_steelFields (v : Nat) : bit (bits v 0 15 + bits v 16 21 * 2 ^ 16) 0 = bit v 0 := by
  unfold bit bits
  simp only [pow_zero, Nat.div_one, decide_eq_decide]
  omega

/-! ### The ledger's acknowledgement and mirror switch (R464, R465) -/

/-- The fill's flags leave what is acknowledged and whether the ring is mirrored. -/
theorem State.ledgerFill_keeps : s.ledgerFill.ledger.ack = s.ledger.ack ∧ s.ledgerFill.ledger.mirrorEn = s.ledger.mirrorEn := by
  unfold State.ledgerFill
  dsimp only
  split <;> exact ⟨rfl, rfl⟩

theorem State.writeAck_ack (v : Nat) : (s.writeAck v).ledger.ack = bits v 0 48 := by
  unfold State.writeAck
  dsimp only
  rw [(State.ledgerFill_keeps _).1]
  exact (apply_ite (fun y : State => y.ledger.ack) _ _ _).trans (ite_self _)

theorem State.writeLedgerCfg_mirrorEn (v : Nat) : (s.writeLedgerCfg v).ledger.mirrorEn = bit v 0 := by
  unfold State.writeLedgerCfg
  cases hv : bit v 0 with
  | false => rfl
  | true =>
    simp only [Bool.not_true, Bool.false_eq_true, if_false]
    split
    next h => exact h
    next => exact (State.ledgerFill_keeps _).2

/-! ### The fused SVN (R475) -/

/-- A record handed over leaves the security module. -/
theorem State.hand_sec (origin obj : Nat) (old new : List Byte) : (s.hand origin obj old new).sec = s.sec := State.hand_kept.sec_eq

theorem State.writeSvnCommit_fusedSvn (origin : Nat) {v : Nat} (h : bit v 0 = true) :
    (s.writeSvnCommit origin v).sec.fusedSvn = max s.sec.fusedSvn s.sec.svn := by
  unfold State.writeSvnCommit
  rw [if_pos h, State.hand_sec]

/-! ### The class set's activation (R335) -/

theorem State.arbActivate_of_due {set : List Nat} {due origin : Nat} (hp : s.arb.pend = some (set, due, origin))
    (hd : s.fallsDue due = true) : s.arbActivate.arb = { s.arb with active := set, pend := none } := by
  have harb : (s.runTo due).arb = s.arb := State.runTo_kept.same .arb (by decide)
  unfold State.arbActivate State.atTimer
  rw [hp]
  dsimp only
  rw [if_pos hd, State.hand_kept.same .arb (by decide)]
  dsimp only
  rw [harb]

end

/-- The writes of the three units, each by the effect of its register on a state that differs in the records held. -/
theorem does_unitWrites (s : State) (w : RegWr) :
    (s.accepts (rowAttempt w 0x50020 1 0) → bit (s.valueOf (rowAttempt w 0x50020 1 0)) 0 = true →
      Does (.arbCommit w) s fun t => t.arb.pend = some (s.arb.shadow, s.time.clk + 128, w.origin.code)) ∧
    (s.accepts (rowAttempt w 0x40000 0 0) → Does (.cap w) s fun t =>
      t.power.capWatts = bits (s.valueOf (rowAttempt w 0x40000 0 0)) 0 16 ∧ t.power.capValid = true) ∧
    (s.accepts (rowAttempt w 0x40010 1 0) → bit (s.valueOf (rowAttempt w 0x40010 1 0)) 0 = true →
      Does (.capRenew w) s fun t => t.power.lease = some (s.time.clk + s.reg 0x40008 * 1000000)) ∧
    (s.accepts (rowAttempt w 0x40028 0 0) → Does (.steelyardCfg w) s fun t =>
      bit (t.reg 0x40028) 0 = bit (s.valueOf (rowAttempt w 0x40028 0 0)) 0) ∧
    (s.accepts (rowAttempt w 0x70008 0 0) → Does (.ledgerAck w) s fun t =>
      t.ledger.ack = bits (s.valueOf (rowAttempt w 0x70008 0 0)) 0 48) ∧
    (s.accepts (rowAttempt w 0x70010 0 0) → Does (.ledgerCfg w) s fun t =>
      t.ledger.mirrorEn = bit (s.valueOf (rowAttempt w 0x70010 0 0)) 0) ∧
    (s.accepts (rowAttempt w 0x70048 1 0) → bit (s.valueOf (rowAttempt w 0x70048 1 0)) 0 = true →
      Does (.fwSvnCommit w) s fun t => t.sec.fusedSvn = max s.sec.fusedSvn s.sec.svn) := by
  refine ⟨fun h hb => ?_, fun h => ?_, fun h hb => ?_, fun h => ?_, fun h => ?_, fun h => ?_, fun h hb => ?_⟩
  · refine does_write 0x50020 rfl h (rowAttempt_reg w _ _ _ rfl) fun l x e z => ?_
    rw [State.regEffect_arbCommit, if_pos hb, rowAttempt_origin]
    rfl
  · refine does_write 0x40000 rfl h (rowAttempt_reg w _ _ _ rfl) fun l x e z => ?_
    rw [State.regEffect_cap]
    exact ⟨rfl, rfl⟩
  · refine does_write 0x40010 rfl h (rowAttempt_reg w _ _ _ rfl) fun l x e z => ?_
    rw [State.regEffect_renew]
    exact State.writeRenew_lease (s.holding l x) hb
  · refine does_write 0x40028 rfl h (rowAttempt_reg w _ _ _ rfl) fun l x e z => ?_
    rw [State.regEffect_steel]
    exact (State.writeSteelCfg_enable (s.holding l x) _).trans (bit_zero_steelFields _)
  · refine does_write 0x70008 rfl h (rowAttempt_reg w _ _ _ rfl) fun l x e z => ?_
    rw [State.regEffect_ack]
    exact State.writeAck_ack (s.holding l x) _
  · refine does_write 0x70010 rfl h (rowAttempt_reg w _ _ _ rfl) fun l x e z => ?_
    rw [State.regEffect_ledgerCfg]
    exact State.writeLedgerCfg_mirrorEn (s.holding l x) _
  · refine does_write 0x70048 rfl h (rowAttempt_reg w _ _ _ rfl) fun l x e z => ?_
    rw [State.regEffect_svn]
    exact State.writeSvnCommit_fusedSvn (s.holding l x) _ hb

end Sys2Proof.Machine
end

section
/-! SUPPORT. The security interface: what is answered, and the updates of a module whose ledger takes records (R459, R465, R468, R475,
R476). -/
namespace Sys2Proof.Machine

section
variable {s : State} {via : Via}

theorem State.message_of_answers (h : s.answers = true) (act : State → Answer) :
    s.message via act = (act s).2.2.emit (.reply via (act s).1 (act s).2.1) := if_pos h

theorem State.allowedTo_of_contains {origins : List Nat} (h : origins.contains (viaOrigin via) = true) (act : State → Answer) :
    s.allowedTo via origins act = act s := if_pos h

/-- A change while the ledger is not in its refusal range (R465). -/
theorem State.changing_of_open (h : s.ledgerShut = false) (origin : Nat) (act : State → Answer) : s.changing origin act = act s := by
  simp [State.changing, h]

theorem contains_reader (h : viaOrigin via = 1 ∨ viaOrigin via = 10) : [1, 10].contains (viaOrigin via) = true := by
  rcases h with h | h <;> rw [h] <;> rfl

/-! ### Reads -/

theorem State.identity_of_reader (h : viaOrigin via = 1 ∨ viaOrigin via = 10) : s.identity via = (stOK, endorsementRecord, s) :=
  State.allowedTo_of_contains (contains_reader h) _

theorem State.readLedger_of_reader (h : viaOrigin via = 1 ∨ viaOrigin via = 10) (seq : Nat) : s.readLedger via seq =
    (stOK, ((s.ledger.ring.filter fun r => seq ≤ r.seq).reverse.take 64).flatMap LedgerRec.bytes, s) :=
  State.allowedTo_of_contains (contains_reader h) _

theorem State.readCkpt_of_stored (h : viaOrigin via = 1 ∨ viaOrigin via = 10) {seq : Nat} {c : Ckpt}
    (hc : s.ledger.store.find? (fun c => c.record.seq == seq) = some c) : s.readCkpt via seq = (stOK, c.slot, s) := by
  refine (State.allowedTo_of_contains (contains_reader h) _).trans ?_
  simp [hc]

/-! ### Keys and updates over I3C -/

theorem State.setKey_keys (hshut : s.ledgerShut = false) {index sigSet : Nat} {key : List Byte} (hsig : sigLength sigSet ≠ 0)
    (hlen : key.length = 68) (hoid : beNat (key.take 4) = sigOid sigSet) :
    findKey (s.setKey .i3c index sigSet key).2.2.sec.keys index = some ⟨sigSet, key, false⟩ := by
  unfold State.setKey
  rw [State.allowedTo_of_contains rfl, if_neg (by simp [hsig, hlen, hoid]), State.changing_of_open hshut]
  dsimp only
  rw [State.hand_sec, State.setSec_sec, findKey_putKey, if_pos rfl]

theorem State.revokeKey_keys (hshut : s.ledgerShut = false) {index : Nat} {k : PubKey} (hk : findKey s.sec.keys index = some k) :
    findKey (s.revokeKey .i3c index).2.2.sec.keys index = some { k with revoked := true } := by
  unfold State.revokeKey
  rw [State.allowedTo_of_contains rfl, hk]
  dsimp only
  rw [State.changing_of_open hshut, State.hand_sec, State.setSec_sec, findKey_putKey, if_pos rfl]

theorem State.beginUpdate_update (hshut : s.ledgerShut = false) {length : Nat} (hlow : 8192 ≤ length) (hhigh : length ≤ 0x1001000)
    (hpage : length % 4096 = 0) : (s.beginUpdate .i3c length).2.2.sec.update = some ⟨length, []⟩ := by
  unfold State.beginUpdate
  rw [State.allowedTo_of_contains rfl, if_neg (by simp [hpage]; omega), State.changing_of_open hshut]
  rfl

theorem State.dataUpdate_update {offset : Nat} {bytes : List Byte} {u : FwUpdate} (hu : s.sec.update = some u)
    (hfit : offset + bytes.length ≤ u.length) :
    (s.dataUpdate .i3c offset bytes).2.2.sec.update = some { u with bytes := u.bytes ++ [(offset, bytes)] } := by
  unfold State.dataUpdate
  rw [State.allowedTo_of_contains rfl, hu]
  dsimp only
  rw [if_neg (by omega)]
  rfl

/-- A journal record that does not fill its buffer is not programmed yet (R245, R246). -/
theorem State.journal_of_room (h : s.vault.buffer.length + 1 < 1024) (what : JWhat) :
    (s.journal what).vault.nextImage = s.vault.nextImage := by
  unfold State.journal
  dsimp only
  rw [if_neg]
  · rfl
  · simp only [State.setVault_vault, List.length_append, List.length_singleton]
    omega

/-- An image that every check accepts is the next one, and the update is over (R475). -/
theorem State.endUpdate_accepted (hshut : s.ledgerShut = false) {u : FwUpdate} (hu : s.sec.update = some u) (hok : s.fwOk u.image = true)
    (hroom : s.vault.buffer.length + 1 < 1024) :
    (s.endUpdate .i3c).2.2.sec.update = none ∧ (s.endUpdate .i3c).2.2.vault.nextImage = some u.image := by
  have hok' : (s.setSec { s.sec with update := none }).fwOk u.image = true := hok
  unfold State.endUpdate
  rw [State.allowedTo_of_contains rfl, hu]
  dsimp only
  rw [State.changing_of_open hshut, if_pos hok', State.hand_sec, State.hand_kept.same .vault (by decide)]
  constructor
  · rw [State.journal_kept.sec_eq]
    rfl
  · rw [State.journal_of_room (by exact hroom)]
    rfl

end

end Sys2Proof.Machine
end

section
/-! SUPPORT. The forms that complete with their own effect, together. -/
namespace Sys2Proof.Machine

/-- Settles O60, group by group: requests that need not wait, writes that pass every check, a module that answers. -/
theorem ownEffects : Obligations.OwnEffects := by
  refine ⟨fun s m ha => ⟨fun hr => ?_, fun hr => exec_of_memWrite (kind := 2) rfl hr ha rfl rfl,
      fun hr => exec_of_memWrite (kind := 3) rfl hr ha rfl rfl, fun hr => exec_of_memWrite (kind := 4) rfl hr ha rfl rfl, fun hr => ?_⟩,
    fun s w => ?_, fun s via seq c hs hv => ⟨?_, ?_, fun hc => ?_⟩, fun s index sigSet key bytes length offset hs hshut =>
      ⟨fun hsig hlen hoid => ?_, fun k hk => ?_, fun hlow hhigh hpage => ?_, fun u hu hfit => ?_, fun u hu hok hroom => ?_⟩⟩
  · obtain ⟨t, ht, hout, -⟩ := exec_of_memReady (kind := 1) (c := .load m []) rfl hr ha
    exact ⟨t, ht, hout⟩
  · obtain ⟨t, ht, hout, -⟩ := exec_of_memReady (kind := 5) (c := .bulkGet m []) rfl hr ha
    exact ⟨t, ht, hout⟩
  · obtain ⟨harb, hcap, hrenew, hsteel, hack, hcfg, hsvn⟩ := does_unitWrites s w
    refine ⟨fun h => harb h.1 h.2, fun set due origin hp hd => ⟨_, rfl, ?_⟩, hcap, fun h => hrenew h.1 h.2, hsteel, hack, hcfg,
      fun h => hsvn h.1 h.2⟩
    rw [s.arbActivate_of_due hp hd]
    exact ⟨rfl, rfl⟩
  · refine ⟨_, congrArg Host.Outcome.next (State.message_of_answers hs _), ?_⟩
    rw [State.identity_of_reader hv]
    rfl
  · refine ⟨_, congrArg Host.Outcome.next (State.message_of_answers hs _), ?_⟩
    rw [State.readLedger_of_reader hv]
    rfl
  · refine ⟨_, congrArg Host.Outcome.next (State.message_of_answers hs _), ?_⟩
    rw [State.readCkpt_of_stored hv hc]
    rfl
  · exact ⟨_, congrArg Host.Outcome.next (State.message_of_answers hs _), State.setKey_keys hshut hsig hlen hoid⟩
  · exact ⟨_, congrArg Host.Outcome.next (State.message_of_answers hs _), State.revokeKey_keys hshut hk⟩
  · exact ⟨_, congrArg Host.Outcome.next (State.message_of_answers hs _), State.beginUpdate_update hshut hlow hhigh hpage⟩
  · exact ⟨_, congrArg Host.Outcome.next (State.message_of_answers hs _), State.dataUpdate_update hu hfit⟩
  · exact ⟨_, congrArg Host.Outcome.next (State.message_of_answers hs _), State.endUpdate_accepted hshut hu hok hroom⟩

end Sys2Proof.Machine
end

section
/-! SUPPORT. The bytes of a range, and which of them a write changes (R29). -/
namespace Sys2Proof.Machine

@[simp] theorem Memory.length_readN (m : List Host.Cell) (a n : Nat) : (Memory.readN m a n).length = n := by simp [Memory.readN]

/-- The range's bytes, one by one. -/
theorem Memory.readN_eq (m : List Host.Cell) (a n : Nat) : Memory.readN m a n = (List.range n).map fun i => Memory.read m (a + i) := by
  unfold Memory.readN
  refine List.map_congr_left fun i hi => ?_
  have := List.mem_range.1 hi
  exact Memory.read_filter _ _ _ (by simp; omega)

/-- What is written over its whole range reads back. -/
theorem Memory.readN_write (m : List Host.Cell) (a : Nat) (bs : List Byte) : Memory.readN (Memory.write m a bs) a bs.length = bs := by
  rw [Memory.readN_eq]
  refine List.ext_getElem (by simp) fun i h _ => ?_
  have hi : i < bs.length := by simpa using h
  simp [Memory.read_write_in, hi]

@[simp] theorem length_leBytes (n v : Nat) : (leBytes n v).length = n := by
  induction n generalizing v with
  | zero => rfl
  | succ n ih => exact congrArg (· + 1) (ih _)

@[simp] theorem length_fit (n : Nat) (bs : List Byte) : (fit n bs).length = n := by simp [fit, zeros]

/-! ### The length of what is read (R29, R464) -/

theorem LedgerRec.length_bytes (r : LedgerRec) : r.bytes.length = 64 := by simp [LedgerRec.bytes, packStamp]

theorem State.length_ledgerBytes (s : State) (o n : Nat) : (s.ledgerBytes o n).length = n := by
  have hrecs : ∀ f : Nat → List Byte, (∀ k, (f k).length = 64) → ∀ l : List Nat, (l.flatMap f).length = 64 * l.length := by
    intro f hf l
    induction l with
    | nil => rfl
    | cons k l ih => rw [List.flatMap_cons, List.length_append, hf, ih, List.length_cons]; omega
  unfold State.ledgerBytes slice
  dsimp only
  rw [List.length_take, List.length_drop, hrecs]
  · rw [List.length_range]
    omega
  · intro k
    split
    · exact LedgerRec.length_bytes _
    · exact List.length_replicate ..

/-- Outside the vault a load gives as many bytes as it asks for. -/
theorem State.length_load (s : State) {a : Nat} (h : mpaUnit a ≠ 5) (n : Nat) : (s.load a n).length = n := by
  unfold State.load
  rw [if_neg h]
  split
  · simp only [List.length_append, Memory.length_readN, State.length_ledgerBytes]
    omega
  · split
    · simp
    · split <;> simp

end Sys2Proof.Machine
end

section
/-! SUPPORT. Tile memory: where it lies, what is loaded from it, what a write to it leaves (R31, R222, R226). -/
namespace Sys2Proof.Machine

section
variable {b : BeadId} {off n i : Nat}

/-- Tile memory lies in the first GiB of its die. -/
theorem mpaTile_place (h : off < 0x200000) : mpaUnit (mpaTile b off) = b.die.val ∧ mpaOff (mpaTile b off) < 0x40000000 := by
  have := b.die.isLt
  have := b.rod.isLt
  have := b.bead.isLt
  unfold mpaUnit mpaOff mpaTile
  omega

theorem mpaTile_add (b : BeadId) (off i : Nat) : mpaTile b off + i = mpaTile b (off + i) := by
  unfold mpaTile
  omega

theorem placeOf_mpaTile (ready : Bool) (h : off < 0x200000) : ∃ y o, placeOf ready (mpaTile b off) = .tileMem y o := by
  obtain ⟨hunit, hoff⟩ := mpaTile_place (b := b) h
  have hu : mpaUnit (mpaTile b off) < 4 := hunit ▸ b.die.isLt
  exact ⟨_, _, (dif_pos hu).trans (dif_pos hoff)⟩

theorem State.mapByte_mpaTile (s : State) (h : off < 0x200000) : s.mapByte (mpaTile b off) = none := by
  obtain ⟨y, o, hp⟩ := placeOf_mpaTile (b := b) true h
  rw [State.mapByte, hp]

/-- Bytes of tile memory are its cells: neither the ledger ring, nor page records, nor page maps lie there. -/
theorem State.load_mpaTile (s : State) (b : BeadId) (h : off + n ≤ 0x200000) :
    s.load (mpaTile b off) n = Memory.readN s.mem.cells (mpaTile b off) n := by
  rcases Nat.eq_zero_or_pos n with rfl | hn
  · exact List.eq_nil_of_length_eq_zero (State.length_load s (by
      have := b.die.isLt
      have := b.rod.isLt
      have := b.bead.isLt
      unfold mpaUnit mpaTile
      omega) 0)
  · obtain ⟨hunit, hoff⟩ := mpaTile_place (b := b) (off := off) (by omega)
    have hdie := b.die.isLt
    have hledger : inLedger (mpaTile b off) n = false := by
      unfold mpaUnit mpaOff at *
      refine Bool.eq_false_iff.2 fun h => ?_
      have hend : mpaCs ledgerBase < mpaTile b off + n := of_decide_eq_true (Bool.and_eq_true_iff.1 h).1
      unfold mpaCs ledgerBase at hend
      omega
    have hrecords : inRecords (mpaTile b off) n = false := by
      simp only [inRecords, Bool.and_eq_false_iff, List.any_eq_false, Bool.and_eq_true, decide_eq_true_eq]
      exact .inr fun k _ => by omega
    unfold State.load
    rw [if_neg (by omega), if_neg (by rw [hledger]; exact Bool.false_ne_true), if_neg (by rw [hrecords]; exact Bool.false_ne_true)]
    split
    · refine List.ext_getElem (by simp) fun i hi _ => ?_
      have hin : i < n := by simpa using hi
      have hmap : s.mapByte (mpaTile b off + i) = none := by rw [mpaTile_add]; exact s.mapByte_mpaTile (by omega)
      simp [hmap]
    · rfl

/-- A read that does not pass the end of tile memory. -/
theorem State.tileRead_eq (s : State) (b : BeadId) (h : off + n ≤ 0x200000) (hoff : off < 0x200000) :
    s.tileRead b off n = Memory.readN s.mem.cells (mpaTile b off) n := by
  have hk : min n (0x200000 - off) = n := by omega
  unfold State.tileRead
  simp only [Nat.mod_eq_of_lt hoff, hk, Nat.lt_irrefl, if_false, List.append_nil]
  exact s.load_mpaTile b h

/-- A write that does not pass the end of tile memory. -/
theorem State.tileWrite_cells (s : State) (b : BeadId) {bs : List Byte} (h : off + bs.length ≤ 0x200000) (hoff : off < 0x200000) :
    (s.tileWrite b off bs).mem.cells = Memory.write s.mem.cells (mpaTile b off) bs := by
  have hk : min bs.length (0x200000 - off) = bs.length := by omega
  unfold State.tileWrite
  simp only [Nat.mod_eq_of_lt hoff, hk, Nat.lt_irrefl, if_false, List.take_length]
  exact congrArg MemSys.cells (State.dirtyTiles_kept.same .mem (by decide))

end

end Sys2Proof.Machine
end

section
/-! SUPPORT. The beads as the list that holds them, and the reads that wait at their memory ports (R22, R25, R80). -/
namespace Sys2Proof.Machine

section
variable {s t : State}

theorem State.bead_of_beads (h : t.arr.beads = s.arr.beads) (b : BeadId) : t.bead b = s.bead b := by
  unfold State.bead
  rw [h]

theorem State.bead_of_kept {ps : List Part} (h : Kept ps s t) (hp : Part.arr ∉ ps := by decide) (b : BeadId) : t.bead b = s.bead b :=
  State.bead_of_beads (congrArg Machine.Array.beads (h.same .arr hp)) b

theorem State.bead_id (s : State) (b : BeadId) : (s.bead b).id = b := by
  unfold State.bead
  cases h : s.arr.beads.find? fun x => x.id == b with
  | none => rfl
  | some x => simpa using List.find?_some h

/-- A list with every entry of a number replaced has the new one under that number. -/
theorem find?_replaced_bead {l : List Bead} {x : Bead} (h : (l.any fun y => y.id == x.id) = true) :
    ((l.map fun y => if y.id == x.id then x else y).find? fun y => y.id == x.id) = some x := by
  induction l with
  | nil => cases h
  | cons y l ih =>
    by_cases hy : y.id = x.id
    · simp [hy]
    · have hne : (y.id == x.id) = false := by simpa using hy
      rw [List.any_cons, hne, Bool.false_or] at h
      rw [List.map_cons, hne, if_neg Bool.false_ne_true, List.find?_cons, hne]
      exact ih h

theorem State.bead_setBead_self (s : State) {x : Bead} {b : BeadId} (h : x.id = b) : (s.setBead x).bead b = x := by
  subst h
  unfold State.bead State.setBead
  dsimp only
  split
  next hany => rw [find?_replaced_bead hany]; rfl
  next hany =>
    have hnone : (s.arr.beads.find? fun y => y.id == x.id) = none := by
      rw [List.find?_eq_none]
      intro y hy hid
      exact hany (List.any_eq_true.2 ⟨y, hy, hid⟩)
    simp [hnone]

end

end Sys2Proof.Machine
end

section
/-! SUPPORT. Reads that go out keep their order, and nothing but their way changes (R22, R25, R80). -/
namespace Sys2Proof.Machine

/-- A read but for the way that it went. -/
def FillTile.unrouted (f : FillTile) : FillTile := { f with via := none }

section
variable (s : State)

theorem State.issueBead_unrouted (x : Bead) : (s.issueBead x).fills.map FillTile.unrouted = x.fills.map FillTile.unrouted := by
  have hfold : ∀ (go : Nat × List FillTile → FillTile → Nat × List FillTile),
      (∀ p f, ∃ g, g.unrouted = f.unrouted ∧ (go p f).2 = p.2 ++ [g]) →
      ∀ (l : List FillTile) (p : Nat × List FillTile),
        (l.foldl go p).2.map FillTile.unrouted = p.2.map FillTile.unrouted ++ l.map FillTile.unrouted := by
    intro go hgo l
    induction l with
    | nil => intro p; simp
    | cons f l ih =>
      intro p
      obtain ⟨g, hg, hp⟩ := hgo p f
      rw [List.foldl_cons, ih, hp]
      simp [hg]
  unfold State.issueBead
  refine (hfold _ (fun p f => ?_) _ _).trans (List.nil_append _)
  split
  · split
    · exact ⟨{ f with via := some _ }, rfl, rfl⟩
    · exact ⟨f, rfl, rfl⟩
  · exact ⟨f, rfl, rfl⟩

theorem State.issueBead_length (x : Bead) : (s.issueBead x).fills.length = x.fills.length := by
  simpa using congrArg List.length (s.issueBead_unrouted x)

/-- The gather commands once a die's have gone out as far as they may. -/
def State.issuedGathers (d : Nat) : List GatherRun :=
  s.mem.gathers.map fun g => if g.ctx.bead.die.val == d && g.via.isNone then { g with via := s.mayIssue d (g.stack / 6) } else g

theorem State.foldl_countWait_kept (l : List Nat) : Kept [.regs] s (l.foldl State.countWait s) :=
  Kept.foldl _ _ (Kept.refl _) fun _ _ => State.countWait_kept

/-- Of memory, only the ways of gather commands change as reads go out. -/
theorem State.issueReads_mem (d : Nat) : (s.issueReads d).mem = { s.mem with gathers := s.issuedGathers d } :=
  (State.foldl_countWait_kept _ _).same .mem (by decide)

theorem State.issueReads_beads (d : Nat) :
    (s.issueReads d).arr.beads = s.arr.beads.map fun x => if x.id.die.val == d then s.issueBead x else x :=
  congrArg Machine.Array.beads ((State.foldl_countWait_kept _ _).same .arr (by decide))

theorem State.issueReads_cells (d : Nat) : (s.issueReads d).mem.cells = s.mem.cells :=
  (congrArg MemSys.cells (s.issueReads_mem d)).trans rfl

theorem State.issueReads_gathers_length (d : Nat) : (s.issueReads d).mem.gathers.length = s.mem.gathers.length := by
  rw [State.issueReads_mem]
  exact List.length_map ..

theorem State.issueReads_bead (b : BeadId) : (s.issueReads b.die.val).bead b = s.issueBead (s.bead b) := by
  unfold State.bead
  rw [State.issueReads_beads, List.find?_map]
  have hid : ((fun x : Bead => x.id == b) ∘ fun x => if x.id.die.val == b.die.val then s.issueBead x else x) = fun x => x.id == b := by
    funext x
    dsimp only [Function.comp]
    split <;> rfl
  rw [hid]
  cases h : s.arr.beads.find? fun x => x.id == b with
  | none => rfl
  | some x =>
    have hx : x.id = b := by simpa using List.find?_some h
    simp [hx]

end

/-! ### The entries that an issue takes touch no bead (R87, R89, R99) -/

section
variable {s : State}

theorem State.drainEdge_beads (cid : CtxId) (o : Nat) : (s.drainEdge cid o).arr.beads = s.arr.beads := by
  unfold State.drainEdge
  split
  · rfl
  · dsimp only
    split <;> rfl

theorem foldl_beads {α : Type} (f : State → α → State) (hf : ∀ s a, (f s a).arr.beads = s.arr.beads) (l : List α) (s : State) :
    (l.foldl f s).arr.beads = s.arr.beads := by
  induction l generalizing s with
  | nil => rfl
  | cons a l ih => exact (ih _).trans (hf s a)

theorem State.returnCredit_beads (e : EdgeId) (n : Nat) : (s.returnCredit e n).arr.beads = s.arr.beads := by
  unfold State.returnCredit
  exact foldl_beads _ (fun s p => State.drainEdge_beads _ _) _ _

theorem State.dequeue_beads (cid : CtxId) (e n : Nat) : (s.dequeue cid e n).2.arr.beads = s.arr.beads := by
  unfold State.dequeue
  split
  · rfl
  · exact State.returnCredit_beads _ _

theorem State.dequeueAll_beads (cid : CtxId) (l : List (Nat × Nat)) : (s.dequeueAll cid l).2.arr.beads = s.arr.beads := by
  induction l generalizing s with
  | nil => rfl
  | cons p l ih => exact ih.trans (State.dequeue_beads _ _ _)

theorem State.advance_beads (cid : CtxId) (a : Act) (got : List (Nat × List EdgeEntry)) : (s.advance cid a got).arr.beads = s.arr.beads := by
  unfold State.advance
  split
  · rfl
  · dsimp only
    have hset : ∀ {p : Prop} {_ : Decidable p} (y : State) (c d : Context),
        (if p then y.setCtx c else y.setCtx d).arr.beads = y.arr.beads := by
      intro p _ y c d
      split <;> rfl
    have hclamp : ∀ {p : Prop} {_ : Decidable p} (n : Nat) (c : Context) (f : StepRun → StepRun),
        (if p then (s.bump n).onCtxStep c f else s).arr.beads = s.arr.beads := by
      intro p _ n c f
      split
      · exact congrArg Machine.Array.beads (State.onCtxStep_kept.same .arr (by decide))
      · rfl
    exact (hset _ _ _).trans (hclamp _ _ _)

/-- Nothing but the array differs. -/
theorem Only.arr {t : State} (h : Only [.arr] s t) : t = { s with arr := t.arr } := by
  obtain ⟨hp, h⟩ := h
  have f := fun p hp => h p hp
  have h1 := f .time (by decide); have h2 := f .regs (by decide); have h4 := f .mem (by decide)
  have h5 := f .serve (by decide); have h6 := f .vault (by decide); have h7 := f .fab (by decide); have h8 := f .arb (by decide)
  have h9 := f .chans (by decide); have h10 := f .rings (by decide); have h11 := f .power (by decide); have h12 := f .faults (by decide)
  have h13 := f .ledger (by decide); have h14 := f .sec (by decide); have h15 := f .handed (by decide); have h16 := f .svc (by decide)
  have h17 := f .phase (by decide); have h18 := f .out (by decide); have h19 := f .free (by decide); have h20 := f .platform (by decide)
  obtain ⟨_, _, _, _, _, _, _, _, ⟨⟩, _, _, ⟨⟩, ⟨⟩, ⟨⟩, _, _, _⟩ := s
  obtain ⟨_, _, _, _, _, _, _, _, ⟨⟩, _, _, ⟨⟩, ⟨⟩, ⟨⟩, _, _, _⟩ := t
  simp only [State.agree, Prod.mk.injEq, HostIf.mk.injEq, Ledger.mk.injEq, Security.mk.injEq, Service.mk.injEq] at *
  simp_all

/-- What an issue takes of its inputs changes the array alone, and no bead in it. -/
theorem State.dequeueAll_eq (cid : CtxId) (l : List (Nat × Nat)) :
    ∃ x : Machine.Array, (s.dequeueAll cid l).2 = { s with arr := x } ∧ x.beads = s.arr.beads :=
  ⟨_, State.dequeueAll_kept.only.arr, State.dequeueAll_beads _ _⟩

end

end Sys2Proof.Machine
end

section
/-! SUPPORT. The MEMORY actions: FILL, WRITEBACK and GATHER issue once their descriptor is there (R87, R223 to R225, R237). -/
namespace Sys2Proof.Machine

section
variable {s : State} {b : BeadId} {c : Context} {a : Act}

theorem State.currentCtx_bead (h : s.currentCtx b = some c) : c.id.bead = b := by
  unfold State.currentCtx at h
  split at h
  · split at h
    · have hid := List.find?_some h
      simp only [Bool.and_eq_true, beq_iff_eq] at hid
      rw [hid.1]
    · cases h
  · cases h

/-- An action without outputs issues on a state that differs in the array but in no bead, and what follows its effect leaves memory and
the beads. -/
theorem does_memoryAction {i : Instr} {sel : Act → Bool} {pre : State → Context → Act → Option (List (Nat × Nat)) × State}
    {f : State → Context → Act → State} {P : State → Prop}
    (hi : exec i s = .next (s.watched (·.action b sel (wordPre .ok pre) fun s c a _ => (f s c a, [])))) (h : s.atAction b c a)
    (hsel : sel a = true) (hpre : pre s c a = (some a.takes, s))
    (hp : ∀ (x : Machine.Array) (t u : State), x.beads = s.arr.beads → f { s with arr := x } c a = u → t.mem = u.mem →
      t.arr.beads = u.arr.beads → P t) : Does i s P := by
  refine ⟨_, hi, ?_⟩
  rw [State.watchedAction_of_issues h hsel hpre]
  obtain ⟨x, hx, hbeads⟩ := State.dequeueAll_eq (s := s) c.id a.takes
  have hsensor {t : State} : Kept [.platform, .out] t (t.sensorEvents s) := State.sensorEvents_kept
  refine hp x _ _ hbeads rfl ?_ ?_
  · rw [hsensor.same .mem (by decide)]
    unfold State.issueAct
    dsimp only [List.foldl_nil]
    rw [State.advance_kept.same .mem (by decide), hx]
  · rw [hsensor.same .arr (by decide)]
    unfold State.issueAct
    dsimp only [List.foldl_nil]
    rw [State.advance_beads, hx]

/-! ### What does not lie in the array -/

/-- What is loaded lies in memory, the vault, the instances' page maps and the ledger ring. -/
theorem State.load_of_same {t : State} (hmem : t.mem = s.mem) (hvault : t.vault = s.vault) (hserve : t.serve = s.serve)
    (hring : t.ledger.ring = s.ledger.ring) (p n : Nat) : t.load p n = s.load p n := by
  unfold State.load State.inMaps State.mapByte State.inst State.ledgerBytes
  rw [hmem, hvault, hserve, hring]

theorem State.load_arr (s : State) (x : Machine.Array) (p n : Nat) : ({ s with arr := x } : State).load p n = s.load p n :=
  State.load_of_same rfl rfl rfl rfl p n

theorem State.tileRead_arr (s : State) (x : Machine.Array) (b : BeadId) (off n : Nat) :
    ({ s with arr := x } : State).tileRead b off n = s.tileRead b off n := by
  simp only [State.tileRead, State.load_arr]

theorem State.memDesc_arr (s : State) (x : Machine.Array) (b : BeadId) (off : Nat) :
    ({ s with arr := x } : State).memDesc b off = s.memDesc b off := by
  simp only [State.memDesc, State.tileRead_arr]

theorem State.populated_arr (s : State) (x : Machine.Array) (p n : Nat) : ({ s with arr := x } : State).populated p n = s.populated p n := rfl

/-! ### FILL -/

/-- The reads that a FILL hands to the memory port. -/
def fillsOf (ctx : Nat) (o : MemOp) (mpa kind : Nat) : List FillTile :=
  (List.range o.count).map fun i => ⟨ctx, o.first + i, mpa + i * 4096, kind, 0, none, none⟩

theorem State.startFill_unpopulated (o : MemOp) (h : s.populated (s.memDesc c.id.bead o.desc).1 (o.count * 4096) = false) :
    Kept [.regs, .serve] s (s.startFill c o) := by
  unfold State.startFill
  dsimp only
  rw [if_pos (by simp [h])]
  exact State.accessFault_kept

/-- A FILL of a populated range: its reads stand behind those that wait already. -/
theorem State.startFill_populated (o : MemOp) (h : s.populated (s.memDesc c.id.bead o.desc).1 (o.count * 4096) = true) :
    (s.startFill c o).mem.cells = s.mem.cells ∧ ((s.startFill c o).bead c.id.bead).fills.map FillTile.unrouted =
      ((s.bead c.id.bead).fills ++ fillsOf c.id.ctx.val o (s.memDesc c.id.bead o.desc).1 (s.memDesc c.id.bead o.desc).2).map
        FillTile.unrouted := by
  unfold State.startFill
  dsimp only
  rw [if_neg (by simp [h])]
  refine ⟨State.issueReads_cells _ _, ?_⟩
  rw [State.issueReads_bead, State.issueBead_unrouted, State.bead_setBead_self]
  · rfl
  · exact s.bead_id _

/-- What a FILL asks for with a read. -/
def FillTile.asked (f : FillTile) : Nat × Nat × Nat × Nat × Nat × Option (List Byte) := (f.ctx, f.tile, f.mpa, f.kind, f.tries, f.data)

theorem does_fill (h : s.atAction b c a) (hunit : a.unit = 4) (hop : a.op.toNat % 8 = 0)
    (hhere : s.awaits c [((memOp a.op.toNat).desc, 64)] = false) :
    let o := memOp a.op.toNat
    let mpa := (s.memDesc b o.desc).1
    Does (.fill b .ok) s fun t => t.mem.cells = s.mem.cells ∧
      (s.populated mpa (o.count * 4096) = false → (t.bead b).fills = (s.bead b).fills) ∧
      (s.populated mpa (o.count * 4096) = true → (t.bead b).fills.map FillTile.asked =
        (s.bead b).fills.map FillTile.asked ++
          (List.range o.count).map fun i => (c.id.ctx.val, o.first + i, mpa + i * 4096, (s.memDesc b o.desc).2, 0, none)) := by
  obtain rfl := State.currentCtx_bead h.1
  refine does_memoryAction (f := fun s c a => s.startFill c (memOp a.op.toNat)) rfl h (by simp [hunit, hop]) (readsOnly_of_here hhere)
    fun x t u hx hu hmem hbeads => ?_
  have hbead : ({ s with arr := x } : State).bead c.id.bead = s.bead c.id.bead := State.bead_of_beads hx _
  rw [hmem, State.bead_of_beads hbeads, ← hu]
  cases hpop : s.populated (s.memDesc c.id.bead (memOp a.op.toNat).desc).1 ((memOp a.op.toNat).count * 4096) with
  | false =>
    have hkept := State.startFill_unpopulated (s := { s with arr := x }) (c := c) (memOp a.op.toNat)
      (by rw [State.memDesc_arr, State.populated_arr, hpop])
    refine ⟨congrArg MemSys.cells (hkept.same .mem (by decide)), fun _ => ?_, fun h => absurd h Bool.false_ne_true⟩
    rw [State.bead_of_kept hkept, hbead]
  | true =>
    obtain ⟨hcells, hfills⟩ := State.startFill_populated (s := { s with arr := x }) (c := c) (memOp a.op.toNat)
      (by rw [State.memDesc_arr, State.populated_arr, hpop])
    refine ⟨hcells, fun h => absurd h.symm Bool.false_ne_true, fun _ => ?_⟩
    rw [hbead, State.memDesc_arr] at hfills
    have hasked := congrArg (List.map FillTile.asked) hfills
    rw [List.map_map, List.map_map, List.map_append] at hasked
    exact hasked.trans (congrArg (_ ++ ·) (List.map_map ..))

/-! ### WRITEBACK -/

/-- What awaits nothing in two ranges awaits nothing in either. -/
theorem State.awaits_pair {r q : Nat × Nat} (h : s.awaits c [r, q] = false) : s.awaits c [r] = false ∧ s.awaits c [q] = false := by
  unfold State.awaits at *
  simp only [List.flatMap_cons, List.flatMap_nil, List.append_nil, List.any_append, Bool.or_eq_false_iff] at *
  exact h

/-- A WRITEBACK waits for nothing but its way (R87, R24 to R26). -/
theorem State.writebackPre_of_here
    (hhere : s.awaits c [((memOp a.op.toNat).desc, 64), ((memOp a.op.toNat).first * 4096, (memOp a.op.toNat).count * 4096)] = false)
    (hreads : ∀ f ∈ (s.bead c.id.bead).fills,
      overlaps f.mpa 4096 (s.memDesc c.id.bead (memOp a.op.toNat).desc).1 ((memOp a.op.toNat).count * 4096) = false)
    (hroute : ∀ via, s.mayIssue c.id.bead.die.val (mpaUnit (s.memDesc c.id.bead (memOp a.op.toNat).desc).1) = some via →
      s.carries via = true) :
    s.writebackPre c a = (if (s.mayIssue c.id.bead.die.val (mpaUnit (s.memDesc c.id.bead (memOp a.op.toNat).desc).1)).isSome
      then some a.takes else none, s) := by
  obtain ⟨hdesc, hrange⟩ := State.awaits_pair hhere
  have hfree : ((s.bead c.id.bead).fills.any fun f => overlaps f.mpa 4096 (s.memDesc c.id.bead (memOp a.op.toNat).desc).1
      ((memOp a.op.toNat).count * 4096)) = false := List.any_eq_false.2 fun f hf => by simp [hreads f hf]
  unfold State.writebackPre
  dsimp only
  rw [if_neg (by simp [hdesc])]
  cases hvia : s.mayIssue c.id.bead.die.val (mpaUnit (s.memDesc c.id.bead (memOp a.op.toNat).desc).1) with
  | none => simp
  | some via => simp [hrange, hfree, hroute via hvia]

theorem exec_writeback (h : s.atAction b c a) (hunit : a.unit = 4) (hop : a.op.toNat % 8 = 1)
    (hhere : s.awaits c [((memOp a.op.toNat).desc, 64), ((memOp a.op.toNat).first * 4096, (memOp a.op.toNat).count * 4096)] = false)
    (hreads : ∀ f ∈ (s.bead b).fills,
      overlaps f.mpa 4096 (s.memDesc b (memOp a.op.toNat).desc).1 ((memOp a.op.toNat).count * 4096) = false)
    (hroute : ∀ via, s.mayIssue b.die.val (mpaUnit (s.memDesc b (memOp a.op.toNat).desc).1) = some via → s.carries via = true) :
    ((s.mayIssue b.die.val (mpaUnit (s.memDesc b (memOp a.op.toNat).desc).1)).isSome → exec (.writeback b .ok) s =
      .next ((s.issueAct c a a.takes fun u _ => (u.sendTiles c (memOp a.op.toNat), [])).sensorEvents s)) ∧
    (s.mayIssue b.die.val (mpaUnit (s.memDesc b (memOp a.op.toNat).desc).1) = none → exec (.writeback b .ok) s = .next s) := by
  obtain rfl := State.currentCtx_bead h.1
  have hpre := State.writebackPre_of_here hhere hreads hroute
  refine ⟨fun hsome => ?_, fun hnone => ?_⟩
  · rw [if_pos hsome] at hpre
    exact congrArg Host.Outcome.next (State.watchedAction_of_issues h (by simp [hunit, hop]) hpre)
  · rw [hnone, if_neg (by simp)] at hpre
    have hword : wordPre .ok State.writebackPre s c a = (none, s) := by simp [wordPre, hpre]
    refine congrArg Host.Outcome.next ?_
    rw [State.watched, State.action_of_waits h (by simp [hunit, hop]) hword]
    exact s.sensorEvents_self

/-! ### GATHER -/

/-- RESULT stands in the word that the command names, where it does not pass the end of tile memory (R237). -/
theorem State.gatherResult_word (r : GatherRun) (status oor : Nat) (h : r.addr + 64 ≤ 0x200000) {w : Nat}
    (hw : min oor 0xFFFF + status * 2 ^ 16 = w) :
    Memory.readN (s.gatherResult r status oor).mem.cells (mpaTile r.ctx.bead (r.addr + 56)) 4 = leBytes 4 w := by
  subst hw
  unfold State.gatherResult
  dsimp only
  rw [State.issueReads_cells, State.tileWrite_cells _ _ (by rw [length_leBytes]; omega) (by omega)]
  exact Memory.readN_write _ _ (leBytes 4 _)

/-- The operand's descriptor lies in tile memory with 64 bytes after it (R223). -/
theorem memOp_desc_le (v : Nat) : (memOp v).desc + 64 ≤ 0x200000 := by
  have : bits v 3 15 < 2 ^ 15 := Nat.mod_lt _ (by decide)
  show bits v 3 15 * 64 + 64 ≤ 0x200000
  omega

theorem State.startGather_sent (o : MemOp) (h : (gatherCmd (s.tileRead c.id.bead o.desc 64)).stack < 24) :
    (s.startGather c o).mem.cells = s.mem.cells ∧ ∃ via, (s.startGather c o).mem.gathers =
      s.mem.gathers ++ [⟨(gatherCmd (s.tileRead c.id.bead o.desc 64)).stack, c.id, o.desc, s.tileRead c.id.bead o.desc 64, via, [], []⟩] := by
  obtain ⟨via, p, hstart⟩ : ∃ via p, s.startGather c o =
      (s.bumpIf p (rFrame ((gatherCmd (s.tileRead c.id.bead o.desc 64)).stack / 6) 0xD8)).setMem
        { (s.bumpIf p (rFrame ((gatherCmd (s.tileRead c.id.bead o.desc 64)).stack / 6) 0xD8)).mem with
          gathers := (s.bumpIf p (rFrame ((gatherCmd (s.tileRead c.id.bead o.desc 64)).stack / 6) 0xD8)).mem.gathers ++
            [⟨(gatherCmd (s.tileRead c.id.bead o.desc 64)).stack, c.id, o.desc, s.tileRead c.id.bead o.desc 64, via, [], []⟩] } :=
    ⟨_, _, if_pos h⟩
  rw [hstart, State.setMem_mem, State.bumpIf_kept.same .mem (by decide)]
  exact ⟨rfl, via, rfl⟩

theorem State.startGather_refused (o : MemOp) (h : 24 ≤ (gatherCmd (s.tileRead c.id.bead o.desc 64)).stack) :
    ∃ r : GatherRun, r.ctx = c.id ∧ r.addr = o.desc ∧ s.startGather c o = s.gatherResult r 2 0 :=
  ⟨_, rfl, rfl, if_neg (Nat.not_lt.2 h)⟩

theorem does_gather (h : s.atAction b c a) (hunit : a.unit = 4) (hop : a.op.toNat % 8 = 2)
    (hhere : s.awaits c [((memOp a.op.toNat).desc, 64)] = false) :
    let o := memOp a.op.toNat
    let g := gatherCmd (s.tileRead b o.desc 64)
    (g.stack < 24 → Does (.gather b .ok) s fun t => t.mem.cells = s.mem.cells ∧
      ∃ via, t.mem.gathers = s.mem.gathers ++ [⟨g.stack, c.id, o.desc, s.tileRead b o.desc 64, via, [], []⟩]) ∧
    (24 ≤ g.stack → Does (.gather b .ok) s fun t =>
      Memory.readN t.mem.cells (mpaTile b (o.desc + 56)) 4 = leBytes 4 0x20000) := by
  obtain rfl := State.currentCtx_bead h.1
  refine ⟨fun hstack => ?_, fun hstack => ?_⟩
  · refine does_memoryAction (f := fun s c a => s.startGather c (memOp a.op.toNat)) rfl h (by simp [hunit, hop]) (readsOnly_of_here hhere)
      fun x t u _ hu hmem _ => ?_
    rw [hmem, ← hu]
    have hsent := State.startGather_sent (s := { s with arr := x }) (c := c) (memOp a.op.toNat)
    rw [State.tileRead_arr] at hsent
    exact hsent hstack
  · refine does_memoryAction (f := fun s c a => s.startGather c (memOp a.op.toNat)) rfl h (by simp [hunit, hop]) (readsOnly_of_here hhere)
      fun x t u _ hu hmem _ => ?_
    rw [hmem, ← hu]
    obtain ⟨r, hctx, haddr, hr⟩ := State.startGather_refused (s := { s with arr := x }) (c := c) (memOp a.op.toNat)
      (by rw [State.tileRead_arr]; exact hstack)
    have hword := State.gatherResult_word (s := { s with arr := x }) r 2 0 (by rw [haddr]; exact memOp_desc_le _)
      (w := 0x20000) (by norm_num)
    rw [hctx, haddr] at hword
    rw [hr]
    exact hword

end

end Sys2Proof.Machine
end

section
/-! SUPPORT. Dirty tiles sent (R217, R222, R225). -/
namespace Sys2Proof.Machine

section
variable {s : State} {c : Context} {o : MemOp}

theorem State.sendTiles_of_clean (h : ∀ i, i < o.count → ((s.bead c.id.bead).entry (o.first + i)).dirty = false) : s.sendTiles c o = s := by
  unfold State.sendTiles
  exact if_pos (List.all_eq_true.2 fun i hi => by simp [h i (List.mem_range.1 hi)])

/-- A dirty tile in the range: an access, refused by its status, or the tiles one after the other. -/
theorem State.sendTiles_of_dirty (h : ∃ i, i < o.count ∧ ((s.bead c.id.bead).entry (o.first + i)).dirty = true) :
    s.sendTiles c o =
      if s.beadStatus true (s.memDesc c.id.bead o.desc).1 (o.count * 4096) ≠ stOK then
        s.accessFault c.id (s.memDesc c.id.bead o.desc).1 (s.beadStatus true (s.memDesc c.id.bead o.desc).1 (o.count * 4096))
      else (List.range o.count).foldl
        (fun v i => v.sendTile c.id.bead (o.first + i) ((s.memDesc c.id.bead o.desc).1 + i * 4096)) s := by
  obtain ⟨i, hi, hdirty⟩ := h
  unfold State.sendTiles
  refine if_neg fun hall => ?_
  have := List.all_eq_true.1 hall i (List.mem_range.2 hi)
  simp [hdirty] at this

end

section
variable {s : State} {b : BeadId} {tile mpa : Nat}

theorem State.sendTile_of_clean (h : ((s.bead b).entry tile).dirty = false) : s.sendTile b tile mpa = s := if_pos (by simp [h])

/-- A bead with a tile's entry put in its directory. -/
def Bead.withEntry (x : Bead) (tile : Nat) (e : DirEntry) : Bead := { x with dir := putKey x.dir tile e }

theorem Bead.entry_withEntry (x : Bead) (tile : Nat) (e : DirEntry) : (x.withEntry tile e).entry tile = e := by
  rw [Bead.entry, Bead.withEntry, findKey_putKey, if_pos rfl, Option.getD_some]

theorem State.bead_withEntry (s : State) (b : BeadId) (tile : Nat) (e : DirEntry) :
    (s.setBead ((s.bead b).withEntry tile e)).bead b = (s.bead b).withEntry tile e :=
  s.bead_setBead_self (s.bead_id b)

/-- A dirty tile written outside tile memory: it is clean, and its bytes stand at their address. -/
theorem State.sendTile_written (h : ((s.bead b).entry tile).dirty = true) (ht : tile < 512)
    (hout : ∀ y off, placeOf s.svc.hbmReady mpa ≠ .tileMem y off) :
    (((s.sendTile b tile mpa).bead b).entry tile).dirty = false ∧
      ∀ i, i < 4096 → Memory.read (s.sendTile b tile mpa).mem.cells (mpa + i) = Memory.read s.mem.cells (mpaTile b (tile * 4096) + i) := by
  have hread : s.tileRead b (tile * 4096) 4096 = Memory.readN s.mem.cells (mpaTile b (tile * 4096)) 4096 :=
    s.tileRead_eq b (by omega) (by omega)
  obtain ⟨u, hsend, hu⟩ : ∃ u : State, s.sendTile b tile mpa = u.setBead ((u.bead b).withEntry tile
        ⟨false, true, BitVec.ofNat 32 (crc32c (s.tileRead b (tile * 4096) 4096))⟩) ∧
      u.mem.cells = (s.writeMpa mpa (s.tileRead b (tile * 4096) 4096)).mem.cells := by
    unfold State.sendTile
    rw [if_neg (by simp [h])]
    dsimp only
    split
    · exact ⟨_, rfl, rfl⟩
    · exact ⟨_, rfl, rfl⟩
  rw [hsend]
  refine ⟨?_, fun i hi => ?_⟩
  · rw [State.bead_withEntry, Bead.entry_withEntry]
  · rw [State.setBead_mem, hu, State.read_writeMpa hout i (by rw [hread, Memory.length_readN]; exact hi)]
    simp only [hread, Memory.readN_eq, List.getElem_map, List.getElem_range]

end

end Sys2Proof.Machine
end

section
/-! SUPPORT. The first reading of a tile outside the vault (R218, R220). -/
namespace Sys2Proof.Machine

section
variable {s : State} {d a kind key seen : Nat}

theorem State.load_setAttempts (s : State) (tile key n p q : Nat) : (s.setAttempts tile key n).load p q = s.load p q := rfl

theorem State.sourceCheck_setAttempts (s : State) (tile key n : Nat) (f : FillTile) (bs : List Byte) :
    (s.setAttempts tile key n).sourceCheck f bs = s.sourceCheck f bs := rfl

/-- A tile that no recovery concerns and whose bytes are right may be used. -/
theorem State.readTile_ok (hunit : mpaUnit a ≠ 5) (hfirst : s.attempts (a / 4096 * 4096) key = 0) :
    s.readTile d a kind key seen .ok = (.good, 0, s.setAttempts (a / 4096 * 4096) key 0) := by
  simp [State.readTile, State.judgeRead, hunit, hfirst]

/-- One whose bytes are wrong for the first time is counted and read again. -/
theorem State.readTile_failed (hunit : mpaUnit a ≠ 5) (hfirst : s.attempts (a / 4096 * 4096) key = 0) (k : Nat) (code : Bool) :
    s.readTile d a kind key seen (.failed k code) = (.again, 1, (s.mismatch d (a + k)).setAttempts (a / 4096 * 4096) key 1) := by
  simp [State.readTile, State.judgeRead, hunit, hfirst]

/-- A detection on a unit that is no bridge leaves the fabric. -/
theorem State.suspect_fab (s : State) (a : Nat) : (s.suspect a).fab = s.fab := by
  have hdetect : ∀ cls u region run more, (∀ x, u ≠ ProveUnit.bridge x) → (s.detect cls u region run more).fab = s.fab := by
    intro cls u region run more hu
    unfold State.detect
    split
    · rfl
    · split
      · rfl
      · dsimp only
        cases u with
        | bridge x => exact absurd rfl (hu x)
        | _ => rfl
  unfold State.suspect
  split
  · exact hdetect _ _ _ _ _ fun _ => nofun
  · exact hdetect _ _ _ _ _ fun _ => nofun
  · exact hdetect _ _ _ _ _ fun _ => nofun
  · exact hdetect _ _ _ _ _ fun _ => nofun
  · rfl

theorem State.mismatch_fab (s : State) (d a : Nat) : (s.mismatch d a).fab = s.fab :=
  (State.suspect_fab _ _).trans (State.bumpIf_fab ..)

/-- A mismatch is counted on its frame die (R240). -/
theorem State.mismatch_count (s : State) (hd : d < 4) (p : Nat) :
    (s.mismatch d p).reg (rFrame d 0xC0) = min (s.reg (rFrame d 0xC0) + 1) 0xFFFFFFFF := by
  have hlt : Nat.blt d 4 = true := Nat.blt_eq ▸ hd
  rw [State.mismatch, State.reg_of_regs (State.suspect_kept.same .regs (by decide)), State.reg_bumpIf, hlt]
  simp

end

end Sys2Proof.Machine
end

section
/-! SUPPORT. A tile that arrives at its bead (R218, R222, R225). -/
namespace Sys2Proof.Machine

section
variable {s : State} {b : BeadId} {f : FillTile} {tile : Nat} {check : Check}

/-- A bead with other reads at its port. -/
def Bead.withFills (x : Bead) (fs : List FillTile) : Bead := { x with fills := fs }

theorem State.bead_withFills (s : State) (b : BeadId) (fs : List FillTile) :
    (s.setBead ((s.bead b).withFills fs)).bead b = (s.bead b).withFills fs :=
  s.bead_setBead_self (s.bead_id b)

/-- A read that ends leaves one less at the port. -/
theorem State.endFill_length (h : f ∈ (s.bead b).fills) : ((s.endFill b f).bead b).fills.length + 1 = (s.bead b).fills.length := by
  have hpos := List.length_pos_of_mem h
  have hend : s.endFill b f = (s.setBead ((s.bead b).withFills ((s.bead b).fills.erase f))).issueReads b.die.val := rfl
  rw [hend, State.issueReads_bead, State.issueBead_length, State.bead_withFills]
  show ((s.bead b).fills.erase f).length + 1 = _
  rw [List.length_erase_of_mem h]
  omega

theorem State.endFill_cells (s : State) (b : BeadId) (f : FillTile) : (s.endFill b f).mem.cells = s.mem.cells :=
  State.issueReads_cells _ _

/-- A tile that lands: its bytes in tile memory, its entry clean with the check that travelled with it, its read over. -/
theorem State.land_lands (hdata : f.data = none) (hf : f ∈ (s.bead b).fills) :
    (s.land b f).mem.cells = Memory.write s.mem.cells (mpaTile b (f.tile * 4096)) (s.load f.mpa 4096) ∧
      ((s.land b f).bead b).entry f.tile = ⟨false, true, s.sourceCheck f (s.load f.mpa 4096)⟩ ∧
      ((s.land b f).bead b).fills.length + 1 = (s.bead b).fills.length := by
  have hbs : f.data.getD (s.load f.mpa 4096) = s.load f.mpa 4096 := by rw [hdata]; rfl
  obtain ⟨v, hland, hcells, hbead⟩ : ∃ v : State,
      s.land b f = (v.endFill b f).setBead (((v.endFill b f).bead b).withEntry f.tile
        ⟨false, true, s.sourceCheck f (f.data.getD (s.load f.mpa 4096))⟩) ∧
      v.mem.cells = Memory.write s.mem.cells (mpaTile b (f.tile * 4096)) (f.data.getD (s.load f.mpa 4096)) ∧ v.bead b = s.bead b := by
    refine ⟨_, rfl, ?_, ?_⟩
    · rw [State.touch_cells]
      exact congrArg (fun m : MemSys => Memory.write m.cells _ _) (State.bumpIf_kept.same .mem (by decide))
    · exact State.bead_of_kept (ps := [.regs, .mem])
        (State.touch_kept.andThen (State.storeAt_kept.andThen (State.bumpIf_kept.mono (by decide)))) (by decide) b
  rw [hbs] at hland hcells
  rw [hland, State.bead_withEntry]
  refine ⟨?_, Bead.entry_withEntry .., ?_⟩
  · rw [State.setBead_mem, State.endFill_cells, hcells]
  · rw [← hbead]
    exact State.endFill_length (hbead ▸ hf)

/-- The tile is the next to be verified: its read went out by a way that carries, and its source holds nothing back. -/
theorem State.landTile_of_arrived (hf : ((s.issueReads b.die.val).bead b).fills.find? (fun f => f.tile == tile && f.via.isSome) = some f)
    (hway : (s.issueReads b.die.val).carries (f.via.getD []) = true) (hfilling : (s.issueReads b.die.val).isFilling f.mpa = false)
    (hpending : (s.issueReads b.die.val).isPending f.mpa = false) (hunit : mpaUnit f.mpa ≠ 5)
    (hstatus : (s.issueReads b.die.val).beadStatus false f.mpa 4096 = stOK) :
    s.landTile b tile check = (s.issueReads b.die.val).verifyFill b f check := by
  simp [State.landTile, hf, hway, hfilling, hpending, hunit, hstatus]

/-- The attempts at a read's tile in the step of its context. -/
def State.fillAttempts (s : State) (b : BeadId) (f : FillTile) : Nat :=
  s.attempts (f.mpa / 4096 * 4096) (stepKey ((s.ctx ⟨b, Fin.ofNat 4 f.ctx⟩).bind (·.step)))

theorem State.verifyFill_ok (hunit : mpaUnit f.mpa ≠ 5) (hfirst : s.fillAttempts b f = 0) : s.verifyFill b f .ok =
    (s.setAttempts (f.mpa / 4096 * 4096) (stepKey ((s.ctx ⟨b, Fin.ofNat 4 f.ctx⟩).bind (·.step))) 0).land b f := by
  unfold State.verifyFill
  dsimp only
  rw [State.readTile_ok hunit hfirst]

/-- A read noted as one attempt on, its data gone. -/
def FillTile.retried (f : FillTile) (seen : Nat) (g : FillTile) : FillTile := if g == f then { f with tries := seen, data := none } else g

theorem State.verifyFill_of_again {key seen : Nat} {v : State} (hkey : key = stepKey ((s.ctx ⟨b, Fin.ofNat 4 f.ctx⟩).bind (·.step)))
    (h : s.readTile b.die.val f.mpa f.kind key f.tries check = (.again, seen, v)) :
    Kept [.serve] (v.setBead ((v.bead b).withFills ((v.bead b).fills.map (f.retried seen)))) (s.verifyFill b f check) := by
  subst hkey
  unfold State.verifyFill
  dsimp only
  rw [h]
  dsimp only
  split
  · exact Kept.ite State.noteReplay_kept (Kept.refl _)
  · exact Kept.refl _

/-- A tile that fails for the first time: its read stands, one attempt on. -/
theorem State.verifyFill_failed (hunit : mpaUnit f.mpa ≠ 5) (hfirst : s.fillAttempts b f = 0) (hdata : f.data = none)
    (hf : f ∈ (s.bead b).fills) (k : Nat) (code : Bool) :
    (s.verifyFill b f (.failed k code)).mem.cells = s.mem.cells ∧
      { f with tries := 1 } ∈ ((s.verifyFill b f (.failed k code)).bead b).fills ∧
      (s.verifyFill b f (.failed k code)).regs = (s.mismatch b.die.val (f.mpa + k)).regs := by
  have hkept := State.verifyFill_of_again (b := b) (f := f) rfl (State.readTile_failed hunit hfirst k code)
  have hmis : Kept [.regs, .fab, .faults] s (s.mismatch b.die.val (f.mpa + k)) := State.mismatch_kept
  refine ⟨?_, ?_, hkept.same .regs (by decide)⟩
  · rw [hkept.same .mem (by decide)]
    show (s.mismatch b.die.val (f.mpa + k)).mem.cells = s.mem.cells
    rw [hmis.same .mem (by decide)]
  · rw [State.bead_of_kept hkept, State.bead_withFills, State.bead_of_kept State.setAttempts_kept, State.bead_of_kept hmis]
    exact List.mem_map.2 ⟨f, hf, by simp [FillTile.retried, hdata]⟩

end

/-- What a tile's arrival leaves after the platform events of its changes. -/
theorem does_tileLanding {s : State} {b : BeadId} {tile : Fin 512} {check : Check} {P : State → Prop} {t : State}
    (h : s.landTile b tile.val check = t) (hp : ∀ u : State, u.mem = t.mem → u.arr = t.arr → u.regs = t.regs → P u) :
    Does (.tileLanding b tile check) s P := by
  subst h
  exact ⟨_, rfl, hp _ (State.sensorEvents_kept.same .mem (by decide)) (State.sensorEvents_kept.same .arr (by decide))
    (State.sensorEvents_kept.same .regs (by decide))⟩

theorem does_tileLandings {s : State} {b : BeadId} {tile : Fin 512} {f : FillTile}
    (hf : ((s.issueReads b.die.val).bead b).fills.find? (fun f => f.tile == tile.val && f.via.isSome) = some f) (hdata : f.data = none)
    (hway : (s.issueReads b.die.val).carries (f.via.getD []) = true) (hfilling : (s.issueReads b.die.val).isFilling f.mpa = false)
    (hpending : (s.issueReads b.die.val).isPending f.mpa = false) (hunit : mpaUnit f.mpa ≠ 5)
    (hstatus : (s.issueReads b.die.val).beadStatus false f.mpa 4096 = stOK) (hfirst : (s.issueReads b.die.val).fillAttempts b f = 0) :
    let u := s.issueReads b.die.val
    (Does (.tileLanding b tile .ok) s fun t =>
      (∀ i, i < 4096 → Memory.read t.mem.cells (mpaTile b (tile.val * 4096) + i) = (u.load f.mpa 4096).getD i 0) ∧
      (∀ x, (x < mpaTile b (tile.val * 4096) ∨ mpaTile b (tile.val * 4096) + 4096 ≤ x) →
        Memory.read t.mem.cells x = Memory.read s.mem.cells x) ∧
      (t.bead b).entry tile.val = ⟨false, true, u.sourceCheck f (u.load f.mpa 4096)⟩ ∧
      (t.bead b).fills.length + 1 = (u.bead b).fills.length) ∧
    (∀ k code, Does (.tileLanding b tile (.failed k code)) s fun t =>
      t.mem.cells = s.mem.cells ∧ { f with tries := 1 } ∈ (t.bead b).fills ∧
      t.reg (rFrame b.die.val 0xC0) = min (u.reg (rFrame b.die.val 0xC0) + 1) 0xFFFFFFFF) := by
  have hmem := List.mem_of_find?_eq_some hf
  have htile : f.tile = tile.val := by
    have := List.find?_some hf
    simp only [Bool.and_eq_true, beq_iff_eq] at this
    exact this.1
  have hlen := State.length_load (s.issueReads b.die.val) hunit 4096
  refine ⟨?_, fun k code => ?_⟩
  · refine does_tileLanding ((State.landTile_of_arrived hf hway hfilling hpending hunit hstatus).trans (State.verifyFill_ok hunit hfirst))
      fun t ht harr _ => ?_
    obtain ⟨hcells, hentry, hfills⟩ := State.land_lands (s := (s.issueReads b.die.val).setAttempts (f.mpa / 4096 * 4096) _ 0) hdata hmem
    rw [State.load_setAttempts, htile] at hcells
    rw [State.load_setAttempts, State.sourceCheck_setAttempts, htile] at hentry
    rw [ht, hcells, State.bead_of_beads (congrArg Machine.Array.beads harr)]
    have hbase : ((s.issueReads b.die.val).setAttempts (f.mpa / 4096 * 4096)
        (stepKey (((s.issueReads b.die.val).ctx ⟨b, Fin.ofNat 4 f.ctx⟩).bind (·.step))) 0).mem.cells = s.mem.cells := s.issueReads_cells _
    rw [hbase]
    refine ⟨fun i hi => ?_, fun x hx => Memory.read_write_out _ _ _ _ (by rw [hlen]; exact hx), hentry, hfills⟩
    rw [Memory.read_write_in _ _ _ _ (by rw [hlen]; exact hi), List.getD_eq_getElem _ _ (by rw [hlen]; exact hi)]
  · refine does_tileLanding (State.landTile_of_arrived hf hway hfilling hpending hunit hstatus) fun t ht harr hregs => ?_
    obtain ⟨hcells, hfills, hverify⟩ := State.verifyFill_failed hunit hfirst hdata hmem k code
    rw [ht, hcells, State.bead_of_beads (congrArg Machine.Array.beads harr), State.reg_of_regs (hregs.trans hverify)]
    exact ⟨s.issueReads_cells _, hfills, State.mismatch_count _ b.die.isLt _⟩

end Sys2Proof.Machine
end

section
/-! SUPPORT. A gather that ends at its stack, with no request waiting at the hub (R237 to R239). -/
namespace Sys2Proof.Machine

section
variable {s : State}

theorem State.retryHeld_of_none (h : s.fab.held = []) : s.retryHeld = s := by
  have hself : ({ s with fab := { s.fab with held := [] } } : State) = s := by rw [← h]
  rw [State.retryHeld, h]
  exact hself

/-- What a command leaves that lets waiting requests go on, where none waits, after the platform events of its changes. -/
theorem does_retryHeld {c : Instr} {f : State → State} {P : State → Prop}
    (hc : exec c s = .next (s.watched fun s => (f s).retryHeld)) (hheld : (f s).fab.held = [])
    (hp : ∀ u : State, u.mem = (f s).mem → u.regs = (f s).regs → P u) : Does c s P := by
  refine ⟨_, hc, ?_⟩
  unfold State.watched
  dsimp only
  rw [State.retryHeld_of_none hheld]
  exact hp _ (State.sensorEvents_kept.same .mem (by decide)) (State.sensorEvents_kept.same .regs (by decide))

/-! ### RESULT -/

theorem State.tileWrite_gathers (s : State) (b : BeadId) (off : Nat) (bs : List Byte) : (s.tileWrite b off bs).mem.gathers = s.mem.gathers := by
  have hstore : ∀ (s : State) (a : Nat) (bs : List Byte) (o n : Nat), ((s.storeAt a bs).dirtyTiles b o n).mem.gathers = s.mem.gathers :=
    fun s a bs o n => by rw [State.dirtyTiles_kept.same .mem (by decide)]; rfl
  unfold State.tileWrite
  dsimp only
  split
  · exact (hstore _ _ _ _ _).trans (hstore _ _ _ _ _)
  · exact hstore _ _ _ _ _

/-- With its result, the command has left. -/
theorem State.gatherResult_gathers {r : GatherRun} (h : r ∈ s.mem.gathers) (status oor : Nat) :
    (s.gatherResult r status oor).mem.gathers.length + 1 = s.mem.gathers.length := by
  have hpos := List.length_pos_of_mem h
  unfold State.gatherResult
  dsimp only
  rw [State.issueReads_gathers_length, State.tileWrite_gathers, State.setMem_mem, List.length_erase_of_mem h]
  omega

/-- RESULT changes no byte outside its word. -/
theorem State.gatherResult_out (r : GatherRun) (status oor : Nat) (h : r.addr + 64 ≤ 0x200000) {x : Nat}
    (hx : x < mpaTile r.ctx.bead (r.addr + 56) ∨ mpaTile r.ctx.bead (r.addr + 56) + 4 ≤ x) :
    Memory.read (s.gatherResult r status oor).mem.cells x = Memory.read s.mem.cells x := by
  unfold State.gatherResult
  dsimp only
  rw [State.issueReads_cells, State.tileWrite_cells _ _ (by rw [length_leBytes]; omega) (by omega)]
  exact Memory.read_write_out _ _ _ _ (by rw [length_leBytes]; exact hx)

/-- A gather that is given up leaves memory as its RESULT does. -/
theorem State.gatherFails_mem (r : GatherRun) : (s.gatherFails r).mem = (s.gatherResult r 1 0).mem := by
  unfold State.gatherFails
  dsimp only
  split
  · exact State.failConfig_kept.same .mem (by decide)
  · rfl

/-! ### The branches of a gather's end -/

section
variable {k : Nat} {r : GatherRun} (check : Check) (hf : s.mem.gathers.find? (fun r => r.stack == k && r.via.isSome) = some r)
  (hway : s.carries (r.via.getD []) = true) (hwaits : s.gatherWaits (gatherCmd r.cmd) r.old = false)

include hf hway hwaits

theorem State.gatherDone_of_refused (hok : (s.asIssued r).gatherOk r.cmd = false) : s.gatherDone k check =
    (s.bumpIf (!(s.isHome (mpaHbm (gatherCmd r.cmd).stack (gatherCmd r.cmd).table)
      ((gatherCmd r.cmd).rows * (gatherCmd r.cmd).stride))) 0x30058).gatherResult r 2 0 := by
  simp only [State.gatherDone, hf, hway, hwaits, hok, Bool.not_true, Bool.not_false, Bool.or_false, Bool.false_eq_true, if_false, if_true]

theorem State.gatherDone_of_fenced (hok : (s.asIssued r).gatherOk r.cmd = true)
    (hfence : (s.asIssued r).gatherFenced (gatherCmd r.cmd) = true) : s.gatherDone k check = s.gatherFails r := by
  simp only [State.gatherDone, hf, hway, hwaits, hok, hfence, Bool.not_true, Bool.or_false, Bool.false_eq_true, if_false, if_true]

theorem State.gatherDone_of_ok (hok : (s.asIssued r).gatherOk r.cmd = true)
    (hfence : (s.asIssued r).gatherFenced (gatherCmd r.cmd) = false) : s.gatherDone k check = s.verifyGather r check := by
  simp only [State.gatherDone, hf, hway, hwaits, hok, hfence, Bool.not_true, Bool.or_false, Bool.false_eq_true, if_false]

end

/-! ### The output -/

theorem stack_lt_of_gatherOk {bs : List Byte} (h : s.gatherOk bs = true) : (gatherCmd bs).stack < 24 := by
  by_contra hk
  simp [State.gatherOk, hk] at h

theorem mpaHbm_unit {k off : Nat} (h : off < 0x1000000000) : mpaUnit (mpaHbm k off) = k / 6 := by
  unfold mpaUnit mpaHbm
  omega

theorem mpaHbm_aligned (k n : Nat) : mpaHbm k (n * 4096) / 4096 * 4096 = mpaHbm k (n * 4096) := by
  unfold mpaHbm
  omega

/-- Every sector right at the first reading: the output is written. -/
theorem State.verifyGather_ok {r : GatherRun} (hk : (gatherCmd r.cmd).stack < 24) (hseen : r.seen = [])
    (hfirst : s.attempts (mpaHbm (gatherCmd r.cmd).stack 0) (stepKey ((s.ctx r.ctx).bind (·.step))) = 0) :
    s.verifyGather r .ok =
      (s.setAttempts (mpaHbm (gatherCmd r.cmd).stack 0) (stepKey ((s.ctx r.ctx).bind (·.step))) 0).gatherWrites r := by
  have hunit : mpaUnit (mpaHbm (gatherCmd r.cmd).stack 0) ≠ 5 := by
    rw [mpaHbm_unit (by norm_num)]
    omega
  have haligned : mpaHbm (gatherCmd r.cmd).stack 0 / 4096 * 4096 = mpaHbm (gatherCmd r.cmd).stack 0 := by
    unfold mpaHbm
    omega
  have hrestoring : r.restoring = none := by rw [GatherRun.restoring, hseen]; rfl
  have hword : stackWord (gatherCmd r.cmd).stack (0 / 4096 * 4096) = mpaHbm (gatherCmd r.cmd).stack 0 := by simp [stackWord]
  have hkind : (if 0 < 2 ^ 36 then 2 else 7 : Nat) = 2 := if_pos (by norm_num)
  have hread := State.readTile_ok (d := (gatherCmd r.cmd).stack / 6) (kind := 2) (seen := 0) hunit (by rw [haligned]; exact hfirst)
  rw [haligned] at hread
  unfold State.verifyGather
  dsimp only
  rw [hword, hrestoring, hseen, hkind]
  rw [Option.getD_none, show ((findKey ([] : List (Nat × Nat)) (mpaHbm (gatherCmd r.cmd).stack 0)).getD 0) = 0 from rfl]
  split
  next heq =>
    rw [hread] at heq
    cases heq
    rfl
  next heq =>
    rw [hread] at heq
    cases heq
  next heq =>
    rw [hread] at heq
    cases heq

/-- What a gather computes rests on what it loads. -/
theorem State.gatherOut_congr {t : State} (g : GatherCmd) (h : ∀ a n, t.load a n = s.load a n) : t.gatherOut g = s.gatherOut g := by
  have hwords : ∀ k off n, t.stagingWords k off n = s.stagingWords k off n := fun k off n => by rw [State.stagingWords, h, State.stagingWords]
  have hstarts : t.bagStarts g = s.bagStarts g := by rw [State.bagStarts, State.bagStarts]; simp only [hwords]
  have hrow : ∀ x, t.gatherRow g x = s.gatherRow g x := fun x => by rw [State.gatherRow, State.gatherRow]; simp only [h]
  have hbag : ∀ xs, t.gatherBag g xs = s.gatherBag g xs := fun xs => by rw [State.gatherBag, State.gatherBag]; simp only [hrow]
  rw [State.gatherOut, State.gatherOut]
  simp only [hwords, hstarts, hbag, h]

theorem State.gatherOut_setAttempts (s : State) (tile key n : Nat) (r : GatherRun) (g : GatherCmd) :
    ((s.setAttempts tile key n).asIssued r).gatherOut g = (s.asIssued r).gatherOut g :=
  State.gatherOut_congr g fun _ _ => rfl

theorem State.touch_gathers (s : State) (a n : Nat) : (s.touch a n).mem.gathers = s.mem.gathers := by
  unfold State.touch
  split <;> rfl

theorem State.touches_kept {α : Type} (at_ : α → Nat) (n : Nat) (l : List α) (s : State) :
    (l.foldl (fun s x => s.touch (at_ x) n) s).mem.cells = s.mem.cells ∧
      (l.foldl (fun s x => s.touch (at_ x) n) s).mem.gathers = s.mem.gathers := by
  induction l generalizing s with
  | nil => exact ⟨rfl, rfl⟩
  | cons x l ih =>
    obtain ⟨hcells, hgathers⟩ := ih (s.touch (at_ x) n)
    exact ⟨hcells.trans (s.touch_cells _ _), hgathers.trans (s.touch_gathers _ _)⟩

/-- The output stands in staging before RESULT is written. -/
theorem State.gatherWrites_eq (r : GatherRun) : ∃ v : State,
    s.gatherWrites r = v.gatherResult r 0 ((s.asIssued r).gatherOut (gatherCmd r.cmd)).2 ∧ v.mem.gathers = s.mem.gathers ∧
      v.mem.cells = Memory.write s.mem.cells (mpaStaging (gatherCmd r.cmd).stack (gatherCmd r.cmd).out)
        ((s.asIssued r).gatherOut (gatherCmd r.cmd)).1 := by
  unfold State.gatherWrites
  dsimp only
  refine ⟨_, rfl, ?_, ?_⟩
  · exact (State.touches_kept (fun x => mpaHbm (gatherCmd r.cmd).stack ((gatherCmd r.cmd).table + x * (gatherCmd r.cmd).stride)) _ _ _).2
  · exact (State.touches_kept (fun x => mpaHbm (gatherCmd r.cmd).stack ((gatherCmd r.cmd).table + x * (gatherCmd r.cmd).stride)) _ _ _).1

/-- Staging lies apart from tile memory. -/
theorem mpaStaging_apart {b : BeadId} {off k x : Nat} (h : off + 4 ≤ 0x200000) (hx : x < 0x3000000) :
    mpaStaging k x < mpaTile b off ∨ mpaTile b off + 4 ≤ mpaStaging k x := by
  have := b.die.isLt
  have := b.rod.isLt
  have := b.bead.isLt
  unfold mpaStaging mpaTile
  omega

theorem mpaStaging_add (k off i : Nat) : mpaStaging k off + i = mpaStaging k (off + i) := Nat.add_assoc ..

section
variable {k : Fin 24} {r : GatherRun} (hf : s.mem.gathers.find? (fun r => r.stack == k.val && r.via.isSome) = some r)
  (hway : s.carries (r.via.getD []) = true) (hwaits : s.gatherWaits (gatherCmd r.cmd) r.old = false)
  (haddr : r.addr + 64 ≤ 0x200000) (hheld : s.fab.held = []) (hok : (s.asIssued r).gatherOk r.cmd = true)

include hf hway hwaits haddr hheld

theorem does_gatherComplete_refused (hok : (s.asIssued r).gatherOk r.cmd = false) (check : Check) :
    Does (.gatherComplete k check) s fun t =>
      Memory.readN t.mem.cells (mpaTile r.ctx.bead (r.addr + 56)) 4 = leBytes 4 0x20000 ∧
      t.mem.gathers.length + 1 = s.mem.gathers.length := by
  have hdone := State.gatherDone_of_refused check hf hway hwaits hok
  generalize hv : s.bumpIf _ _ = v at hdone
  have hkept : Kept [.regs] s v := hv ▸ State.bumpIf_kept
  have hmem : v.mem = s.mem := hkept.same .mem (by decide)
  have hword := State.gatherResult_word (s := v) r 2 0 haddr (w := 0x20000) (by norm_num)
  have hleft := State.gatherResult_gathers (s := v) (hmem ▸ List.mem_of_find?_eq_some hf) 2 0
  rw [hmem] at hleft
  refine does_retryHeld (f := (·.gatherDone k.val check)) rfl ?_ fun u hu _ => ?_
  · rw [hdone, State.gatherResult_kept.same .fab (by decide), hkept.same .fab (by decide)]
    exact hheld
  · rw [hu, hdone]
    exact ⟨hword, hleft⟩

include hok

theorem does_gatherComplete_fenced (hfence : (s.asIssued r).gatherFenced (gatherCmd r.cmd) = true) (check : Check) :
    Does (.gatherComplete k check) s fun t =>
      Memory.readN t.mem.cells (mpaTile r.ctx.bead (r.addr + 56)) 4 = leBytes 4 0x10000 ∧
      t.mem.gathers.length + 1 = s.mem.gathers.length := by
  have hdone := State.gatherDone_of_fenced check hf hway hwaits hok hfence
  have hword := State.gatherResult_word (s := s) r 1 0 haddr (w := 0x10000) (by norm_num)
  have hleft := State.gatherResult_gathers (s := s) (List.mem_of_find?_eq_some hf) 1 0
  refine does_retryHeld (f := (·.gatherDone k.val check)) rfl ?_ fun u hu _ => ?_
  · rw [hdone, State.gatherFails_kept.same .fab (by decide)]
    exact hheld
  · rw [hu, hdone, State.gatherFails_mem]
    exact ⟨hword, hleft⟩

theorem does_gatherComplete_ok (hfence : (s.asIssued r).gatherFenced (gatherCmd r.cmd) = false) (hseen : r.seen = [])
    (hfirst : s.attempts (mpaHbm (gatherCmd r.cmd).stack 0) (stepKey ((s.ctx r.ctx).bind (·.step))) = 0) :
    Does (.gatherComplete k .ok) s fun t =>
      Memory.readN t.mem.cells (mpaTile r.ctx.bead (r.addr + 56)) 4 =
        leBytes 4 (min ((s.asIssued r).gatherOut (gatherCmd r.cmd)).2 0xFFFF) ∧
      t.mem.gathers.length + 1 = s.mem.gathers.length ∧
      ∀ i, i < ((s.asIssued r).gatherOut (gatherCmd r.cmd)).1.length → (gatherCmd r.cmd).out + i < 0x3000000 →
        Memory.read t.mem.cells (mpaStaging (gatherCmd r.cmd).stack (gatherCmd r.cmd).out + i) =
          ((s.asIssued r).gatherOut (gatherCmd r.cmd)).1.getD i 0 := by
  have hdone := (State.gatherDone_of_ok .ok hf hway hwaits hok hfence).trans
    (State.verifyGather_ok (stack_lt_of_gatherOk hok) hseen hfirst)
  obtain ⟨v, hwrites, hgathers, hcells⟩ := State.gatherWrites_eq
    (s := s.setAttempts (mpaHbm (gatherCmd r.cmd).stack 0) (stepKey ((s.ctx r.ctx).bind (·.step))) 0) r
  rw [State.gatherOut_setAttempts] at hwrites hcells
  have hword := State.gatherResult_word (s := v) r 0 ((s.asIssued r).gatherOut (gatherCmd r.cmd)).2 haddr
    (w := min ((s.asIssued r).gatherOut (gatherCmd r.cmd)).2 0xFFFF) (by rw [Nat.zero_mul, Nat.add_zero])
  have hleft := State.gatherResult_gathers (s := v) (hgathers ▸ List.mem_of_find?_eq_some hf) 0
    ((s.asIssued r).gatherOut (gatherCmd r.cmd)).2
  rw [hgathers] at hleft
  refine does_retryHeld (f := (·.gatherDone k.val .ok)) rfl ?_ fun u hu _ => ?_
  · rw [hdone, State.gatherWrites_kept.same .fab (by decide)]
    exact hheld
  · rw [hu, hdone, hwrites]
    refine ⟨hword, hleft, fun i hi hout => ?_⟩
    rw [State.gatherResult_out r 0 _ haddr (by rw [mpaStaging_add]; exact mpaStaging_apart (by omega) hout), hcells,
      Memory.read_write_in _ _ _ _ hi, List.getD_eq_getElem _ _ hi]

end

end

end Sys2Proof.Machine
end

section
/-! SUPPORT. A prefetched tile that arrives in staging (R218, R220, R227). -/
namespace Sys2Proof.Machine

section
variable {s : State} {r : PfRun} {e : PfEntry} {rest : List PfEntry} {src tile : Nat}

theorem State.endList_cells (s : State) (r : PfRun) : (s.endList r).mem.cells = s.mem.cells := by
  unfold State.endList
  dsimp only
  split
  · rfl
  · exact (State.markFilling_lists _ _).2

theorem State.stepList_cells (s : State) (r : PfRun) (e : PfEntry) (rest : List PfEntry) :
    (s.stepList r e rest).mem.cells = s.mem.cells := by
  unfold State.stepList
  extract_lets left next m u
  have hu : u.mem.cells = s.mem.cells := rfl
  clear_value left next m u
  split
  · exact (State.endList_cells _ _).trans hu
  · split
    · exact (State.markFilling_lists _ _).2.trans hu
    · exact hu

/-- A list with the first tile of its running entry done. -/
def PfRun.on (r : PfRun) (e : PfEntry) (rest : List PfEntry) : PfRun := { r with left := ⟨e.src + 1, e.dst + 1, e.tiles - 1⟩ :: rest }

theorem State.stepList_of_more (h : 2 ≤ e.tiles) :
    s.stepList r e rest = s.setMem { s.mem with lists := s.mem.lists.map fun x => if x == r then r.on e rest else x } := by
  have hmore : ¬ e.tiles ≤ 1 := by omega
  simp only [State.stepList, if_neg hmore, List.isEmpty_cons, Bool.false_eq_true, if_false, PfRun.on]

/-- A tile that is right at its first reading: stored, landed, and the list goes on. -/
theorem State.listRead_ok (hsrc : s.bankFenced src = false) (hbank : s.bankFenced (mpaStaging r.stack (tile * 4096)) = false)
    (hunit : mpaUnit src ≠ 5) (haligned : src / 4096 * 4096 = src) (hfirst : s.attempts src 0 = 0) :
    s.listRead r e rest src tile .ok =
      ((((s.setAttempts src 0 0).storeAt (mpaStaging r.stack (tile * 4096)) (s.load src 4096)).setAttempts src 0 0).landed
        r.stack tile).stepList r e rest := by
  have hread := State.readTile_ok (s := s) (d := r.stack / 6) (kind := s.pageClass src) (seen := s.attempts src 0) hunit
    (by rw [haligned]; exact hfirst)
  rw [haligned] at hread
  unfold State.listRead
  dsimp only
  rw [if_neg (by simp [hsrc, hbank])]
  split
  next heq =>
    rw [hread] at heq
    cases heq
    rw [State.load_setAttempts]
  next heq =>
    rw [hread] at heq
    cases heq
  next heq =>
    rw [hread] at heq
    cases heq

/-- One that fails at its first reading is noted to be read again; the steps that wait for it may be replayed. -/
theorem State.listRead_failed (hsrc : s.bankFenced src = false) (hbank : s.bankFenced (mpaStaging r.stack (tile * 4096)) = false)
    (hunit : mpaUnit src ≠ 5) (haligned : src / 4096 * 4096 = src) (hfirst : s.attempts src 0 = 0) (i : Nat) (code : Bool) :
    Kept [.serve] ((s.mismatch (r.stack / 6) (src + i)).setAttempts src 0 1) (s.listRead r e rest src tile (.failed i code)) := by
  have hread := State.readTile_failed (s := s) (d := r.stack / 6) (kind := s.pageClass src) (seen := s.attempts src 0) hunit
    (by rw [haligned]; exact hfirst) i code
  rw [haligned] at hread
  unfold State.listRead
  dsimp only
  rw [if_neg (by simp [hsrc, hbank])]
  split
  next heq =>
    rw [hread] at heq
    cases heq
  next heq =>
    rw [hread] at heq
    cases heq
    exact Kept.ite (Kept.upd (Kept.refl _)) (Kept.refl _)
  next heq =>
    rw [hread] at heq
    cases heq

theorem State.setAttempts_cells (s : State) (tile key n : Nat) : (s.setAttempts tile key n).mem.cells = s.mem.cells := rfl

theorem State.setAttempts_lists (s : State) (tile key n : Nat) : (s.setAttempts tile key n).mem.lists = s.mem.lists := rfl

theorem State.attempts_setAttempts (s : State) (tile key : Nat) {n : Nat} (h : n ≠ 0) : (s.setAttempts tile key n).attempts tile key = n := by
  have hnone : ((s.mem.attempts.filter fun e => !(e.1 == tile && e.2.1 == key)).find? fun e => e.1 == tile && e.2.1 == key) = none := by
    rw [List.find?_eq_none]
    intro e he
    simpa only [Bool.not_eq_true', Bool.not_eq_true] using (List.mem_filter.1 he).2
  rw [State.attempts, State.setAttempts, State.setMem_mem, if_neg h, List.find?_append, hnone]
  simp

theorem State.attempts_of_mem {t : State} (h : t.mem = s.mem) (tile key : Nat) : t.attempts tile key = s.attempts tile key := by
  rw [State.attempts, State.attempts, h]

/-! ### The arrival -/

/-- The state in which a tile has landed, before its list goes on. -/
def State.stored (s : State) (k tile src : Nat) : State :=
  (((s.setAttempts src 0 0).storeAt (mpaStaging k (tile * 4096)) (s.load src 4096)).setAttempts src 0 0).landed k tile

theorem State.stored_mem (s : State) (k tile src : Nat) :
    (s.stored k tile src).mem.cells = Memory.write s.mem.cells (mpaStaging k (tile * 4096)) (s.load src 4096) ∧
      (s.stored k tile src).mem.filling = s.mem.filling.filter (· != (k, tile)) ∧ (s.stored k tile src).mem.lists = s.mem.lists ∧
      (s.stored k tile src).fab = s.fab := by
  unfold State.stored State.landed State.setAttempts
  generalize s.load src 4096 = bs
  exact ⟨rfl, rfl, rfl, rfl⟩

section
variable {k : Fin 24} {tile : Fin 12288}
  (hf : s.mem.lists.find? (fun r => r.stack == k.val && match r.left with | e :: _ => e.dst == tile.val | [] => false) = some r)
  (hleft : r.left = e :: rest)

include hf

theorem PfRun.stack_of_find : r.stack = k.val := by
  have := List.find?_some hf
  simp only [Bool.and_eq_true, beq_iff_eq] at this
  exact this.1

include hleft

theorem State.landPrefetch_of_find (check : Check) :
    s.landPrefetch k.val tile.val check = s.listRead r e rest (mpaHbm k.val (e.src * 4096)) tile.val check := by
  unfold State.landPrefetch
  split
  next heq => cases heq.symm.trans hf
  next heq =>
    cases heq.symm.trans hf
    split
    next hnil => cases hnil.symm.trans hleft
    next hcons =>
      cases hcons.symm.trans hleft
      rfl

variable (hsrc : s.bankFenced (mpaHbm k.val (e.src * 4096)) = false)
  (hbank : s.bankFenced (mpaStaging k.val (tile.val * 4096)) = false) (hfirst : s.attempts (mpaHbm k.val (e.src * 4096)) 0 = 0)
  (hunit : mpaUnit (mpaHbm k.val (e.src * 4096)) ≠ 5) (hheld : s.fab.held = [])

include hsrc hbank hfirst hunit hheld

theorem does_prefetchTileLand_ok : Does (.prefetchTileLand k tile .ok) s fun t =>
    (∀ i, i < 4096 → Memory.read t.mem.cells (mpaStaging k.val (tile.val * 4096) + i) =
      (s.load (mpaHbm k.val (e.src * 4096)) 4096).getD i 0) ∧
    (2 ≤ e.tiles → t.mem.filling = s.mem.filling.filter (· != (k.val, tile.val)) ∧ r.on e rest ∈ t.mem.lists) := by
  have hstack := PfRun.stack_of_find hf
  have hlen := State.length_load s hunit 4096
  have hland := (State.landPrefetch_of_find hf hleft .ok).trans
    (State.listRead_ok hsrc (hstack ▸ hbank) hunit (mpaHbm_aligned _ _) hfirst)
  rw [hstack] at hland
  change _ = (s.stored k.val tile.val (mpaHbm k.val (e.src * 4096))).stepList r e rest at hland
  obtain ⟨hcells, hfilling, hlists, hfab⟩ := s.stored_mem k.val tile.val (mpaHbm k.val (e.src * 4096))
  generalize s.stored k.val tile.val (mpaHbm k.val (e.src * 4096)) = v at hland hcells hfilling hlists hfab
  refine does_retryHeld (f := (·.landPrefetch k.val tile.val .ok)) rfl ?_ fun u hu _ => ?_
  · rw [hland, State.stepList_kept.same .fab (by decide), hfab]
    exact hheld
  · rw [hu, hland]
    refine ⟨fun i hi => ?_, fun hmore => ?_⟩
    · rw [State.stepList_cells, hcells, Memory.read_write_in _ _ _ _ (by rw [hlen]; exact hi),
        List.getD_eq_getElem _ _ (by rw [hlen]; exact hi)]
    · rw [State.stepList_of_more hmore]
      exact ⟨hfilling, List.mem_map.2 ⟨r, hlists ▸ List.mem_of_find?_eq_some hf, if_pos (beq_self_eq_true r)⟩⟩

theorem does_prefetchTileLand_failed (i : Nat) (code : Bool) : Does (.prefetchTileLand k tile (.failed i code)) s fun t =>
    t.mem.cells = s.mem.cells ∧ t.mem.lists = s.mem.lists ∧ t.attempts (mpaHbm k.val (e.src * 4096)) 0 = 1 ∧
      t.reg (rFrame (k.val / 6) 0xC0) = min (s.reg (rFrame (k.val / 6) 0xC0) + 1) 0xFFFFFFFF := by
  have hstack := PfRun.stack_of_find hf
  have hland := State.landPrefetch_of_find hf hleft (.failed i code)
  have hkept := State.listRead_failed (e := e) (rest := rest) hsrc (hstack ▸ hbank) hunit (mpaHbm_aligned _ _) hfirst i code
  rw [← hland, hstack] at hkept
  have hmis : (s.mismatch (k.val / 6) (mpaHbm k.val (e.src * 4096) + i)).mem = s.mem := State.mismatch_kept.same .mem (by decide)
  have hfab := s.mismatch_fab (k.val / 6) (mpaHbm k.val (e.src * 4096) + i)
  have hcount := State.mismatch_count s (show k.val / 6 < 4 by omega) (mpaHbm k.val (e.src * 4096) + i)
  generalize s.mismatch (k.val / 6) (mpaHbm k.val (e.src * 4096) + i) = v at hkept hmis hfab hcount
  refine does_retryHeld (f := (·.landPrefetch k.val tile.val (.failed i code))) rfl ?_ fun u hu hregs => ?_
  · rw [hkept.same .fab (by decide), State.setAttempts_kept.same .fab (by decide), hfab]
    exact hheld
  · have hmem : u.mem = (v.setAttempts (mpaHbm k.val (e.src * 4096)) 0 1).mem := hu.trans (hkept.same .mem (by decide))
    refine ⟨?_, ?_, ?_, ?_⟩
    · rw [hmem, State.setAttempts_cells, hmis]
    · rw [hmem, State.setAttempts_lists, hmis]
    · rw [State.attempts_of_mem hmem]
      exact State.attempts_setAttempts v _ _ Nat.one_ne_zero
    · rw [State.reg_of_regs (hregs.trans ((hkept.same .regs (by decide)).trans (State.setAttempts_kept.same .regs (by decide))))]
      exact hcount

end

end

end Sys2Proof.Machine
end

section
/-! SUPPORT. The fill-by point of a list (R229). -/
namespace Sys2Proof.Machine

section
variable {s : State} {k : Fin 24} {n : BitVec 16} {r : PfRun}

/-- The list waited for at its fill-by point in the running beat. -/
def State.isDue (s : State) (k index : Nat) (r : PfRun) : Bool :=
  r.stack == k && r.index == index && r.fillBeat == s.time.beat && !r.late

theorem exec_prefetchFillBy_of_none (h : (s.mem.lists ++ s.mem.listWaits).find? (s.isDue k.val n.toNat) = none) :
    exec (.prefetchFillBy k n) s = .next s := by
  show Host.Outcome.next (s.fillBy k.val n.toNat) = _
  have h' : (s.mem.lists ++ s.mem.listWaits).find?
    (fun r => r.stack == k.val && r.index == n.toNat && r.fillBeat == s.time.beat && !r.late) = none := h
  rw [State.fillBy, h']

theorem State.fillBy_of_find {k index : Nat} (h : (s.mem.lists ++ s.mem.listWaits).find? (s.isDue k index) = some r) :
    s.fillBy k index = if Nat.blt r.fillTick s.time.tick then s else
      let mark := fun x : PfRun => if x == r then { r with late := true } else x
      let u := s.toTick r.fillTick
      ((u.setMem { u.mem with lists := u.mem.lists.map mark, listWaits := u.mem.listWaits.map mark }).bump
        (rFrame (k / 6) 0xE0)).instEvent 0x11 r.inst 0xFF 0 (locOf (k / 6) 0 0 k 15) (leBytes 2 index) := by
  have h' : (s.mem.lists ++ s.mem.listWaits).find?
    (fun r => r.stack == k && r.index == index && r.fillBeat == s.time.beat && !r.late) = some r := h
  rw [State.fillBy, h']

theorem exec_prefetchFillBy_of_past (h : (s.mem.lists ++ s.mem.listWaits).find? (s.isDue k.val n.toNat) = some r)
    (hpast : r.fillTick < s.time.tick) : exec (.prefetchFillBy k n) s = .next s := by
  show Host.Outcome.next (s.fillBy k.val n.toNat) = _
  rw [State.fillBy_of_find h, if_pos (by simpa using hpast)]

/-- A list that has not landed at its point is late, and time stands there. -/
theorem does_prefetchFillBy (h : (s.mem.lists ++ s.mem.listWaits).find? (s.isDue k.val n.toNat) = some r)
    (hdue : s.time.tick ≤ r.fillTick) : Does (.prefetchFillBy k n) s fun t =>
      t.time = (s.toTick r.fillTick).time ∧
      t.reg (rFrame (k.val / 6) 0xE0) = min (s.reg (rFrame (k.val / 6) 0xE0) + 1) 0xFFFFFFFF ∧
      t.mem.lists = (s.mem.lists.map fun x => if x == r then { r with late := true } else x) ∧ t.mem.cells = s.mem.cells := by
  refine ⟨_, rfl, ?_⟩
  rw [State.fillBy_of_find h, if_neg (by simpa using hdue)]
  have htick : Kept [.time] s (s.toTick r.fillTick) := State.toTick_kept
  generalize s.toTick r.fillTick = u at htick
  dsimp only
  refine ⟨State.instEvent_kept.same .time (by decide), ?_, ?_, ?_⟩
  · rw [State.instEvent, (State.raiseTo_eventOnly _ _ _).reg _ (by unfold rFrame; omega), State.reg_bump, if_pos rfl,
      State.reg_of_regs (State.setMem_regs ..), State.reg_of_regs (htick.same .regs (by decide))]
  · rw [State.instEvent_kept.same .mem (by decide), State.bump_kept.same .mem (by decide), ← htick.same .mem (by decide)]
    rfl
  · rw [State.instEvent_kept.same .mem (by decide), State.bump_kept.same .mem (by decide), ← htick.same .mem (by decide)]
    rfl

end

end Sys2Proof.Machine
end

section
/-! PROOF. Tiles (R217, R218, R222 to R229, R237 to R239). -/
namespace Sys2Proof.Machine

section
variable {s : State} {b : BeadId}

theorem sendTiles_of {c : Context} (o : MemOp) (hc : c.id.bead = b) :
    let mpa := (s.memDesc b o.desc).1
    ((∀ i, i < o.count → ((s.bead b).entry (o.first + i)).dirty = false) → s.sendTiles c o = s) ∧
    ((∃ i, i < o.count ∧ ((s.bead b).entry (o.first + i)).dirty = true) →
      (s.beadStatus true mpa (o.count * 4096) ≠ stOK → s.sendTiles c o = s.accessFault c.id mpa (s.beadStatus true mpa (o.count * 4096))) ∧
      (s.beadStatus true mpa (o.count * 4096) = stOK →
        s.sendTiles c o = (List.range o.count).foldl (fun v i => v.sendTile b (o.first + i) (mpa + i * 4096)) s)) := by
  subst hc
  exact ⟨State.sendTiles_of_clean, fun hdirty => ⟨fun hst => (State.sendTiles_of_dirty hdirty).trans (if_pos hst),
    fun hst => (State.sendTiles_of_dirty hdirty).trans (if_neg (not_not_intro hst))⟩⟩

theorem sendTile_of (tile : Fin 512) (mpa k off : Nat) :
    (((s.bead b).entry tile.val).dirty = false → s.sendTile b tile.val mpa = s) ∧
    (((s.bead b).entry tile.val).dirty = true → placeOf s.svc.hbmReady mpa = .staging k off →
      (((s.sendTile b tile.val mpa).bead b).entry tile.val).dirty = false ∧
      ∀ i, i < 4096 → Memory.read (s.sendTile b tile.val mpa).mem.cells (mpa + i) =
        Memory.read s.mem.cells (mpaTile b (tile.val * 4096) + i)) :=
  ⟨State.sendTile_of_clean, fun hdirty hplace => State.sendTile_written hdirty tile.isLt fun _ _ h => nomatch hplace.symm.trans h⟩

/-- Contexts are as they were before reads went out. -/
theorem State.issueReads_ctx (s : State) (d : Nat) (x : CtxId) : (s.issueReads d).ctx x = s.ctx x := by
  have hctxs : (s.issueReads d).arr.ctxs = s.arr.ctxs :=
    (congrArg Machine.Array.ctxs ((State.foldl_countWait_kept _ _).same .arr (by decide)) :)
  rw [State.ctx, State.ctx, hctxs]

end

/-- Settles O34, clause by clause: the actions FILL, WRITEBACK and GATHER; the dirty tiles that a WRITEBACK sends; a tile that lands or is
read again; a gather that ends; a prefetched tile; a fill-by point. -/
theorem tileTraffic : Obligations.TileTraffic := by
  unfold Obligations.TileTraffic
  intro s b
  refine ⟨fun c a h hunit => ⟨fun hop hhere => does_fill h hunit hop hhere,
      fun hop hhere hreads hroute => exec_writeback h hunit hop hhere hreads hroute, fun hop hhere => does_gather h hunit hop hhere⟩,
    fun c o hc => sendTiles_of o hc, fun tile mpa k off => ?_, fun tile f => ?_, fun k r => ?_, fun k tile r e rest => ?_, fun k n => ?_⟩
  · obtain ⟨hclean, hwritten⟩ := sendTile_of (s := s) (b := b) tile mpa k off
    exact ⟨hclean, fun hdirty hplace _ => hwritten hdirty hplace⟩
  · intro u hf hdata hway hfilling hpending hunit hstatus hfirst
    obtain ⟨hok, hfailed⟩ := does_tileLandings hf hdata hway hfilling hpending hunit hstatus
      (by rw [State.fillAttempts, State.issueReads_ctx]; exact hfirst)
    exact ⟨hok, fun _ => hfailed⟩
  · intro hf hway hwaits haddr hheld
    exact ⟨fun hok check => does_gatherComplete_refused hf hway hwaits haddr hheld hok check,
      fun hok hfence check => does_gatherComplete_fenced hf hway hwaits haddr hheld hok hfence check,
      fun hok hfence hseen hfirst => does_gatherComplete_ok hf hway hwaits haddr hheld hok hfence hseen hfirst⟩
  · intro hf hleft src hsrc hbank hfirst hunit hheld
    exact ⟨does_prefetchTileLand_ok hf hleft hsrc hbank hfirst hunit hheld,
      fun i code => does_prefetchTileLand_failed hf hleft hsrc hbank hfirst hunit hheld i code⟩
  · exact ⟨exec_prefetchFillBy_of_none, fun r h => ⟨exec_prefetchFillBy_of_past h, does_prefetchFillBy h⟩⟩

end Sys2Proof.Machine
end

section
/-! SUPPORT. The vault's journal (R245 to R247): what of the vault a record, a flush and a page program change. -/
namespace Sys2Proof.Machine

/-- A vault with its page map, physical pages and stored images blanked: what making a record durable leaves alone. -/
def Vault.noMap (v : Vault) : Vault :=
  { v with mapped := [], phys := [], image := none, storedCkpt := none, nextImage := none, nextCkpt := none }

/-- A vault with its journal blanked too: what neither a record nor a flush changes. -/
def Vault.noJournal (v : Vault) : Vault :=
  { v.noMap with mirrorA := [], mirrorB := [], buffer := [], bufferClk := none, nextSeq := 0, durable := 0 }

theorem Vault.settle_noMap (v : Vault) (r : JRec) : (v.settle r).noMap = v.noMap := by
  unfold Vault.settle
  dsimp only
  split <;> rfl

theorem foldl_settle_noMap (l : List JRec) (v : Vault) : (l.foldl Vault.settle v).noMap = v.noMap := by
  induction l generalizing v with
  | nil => rfl
  | cons r l ih => exact (ih _).trans (v.settle_noMap r)

section
variable (s : State)

/-- A quiescent vault programs nothing (R247). -/
theorem State.flushJournal_of_quiescent (h : s.vault.quiescent = true) : s.flushJournal = s := if_pos h

/-- The vault after its buffer is programmed to both mirrors (R246). -/
theorem State.flushJournal_of_running (h : s.vault.quiescent = false) :
    s.flushJournal.vault = { s.vault.buffer.foldl Vault.settle s.vault with
      mirrorA := s.vault.mirrorA ++ s.vault.buffer, mirrorB := s.vault.mirrorB ++ s.vault.buffer, buffer := [], bufferClk := none,
      durable := match s.vault.buffer.getLast? with | some r => r.seq | none => s.vault.durable } := by
  unfold State.flushJournal
  dsimp only
  rw [if_neg (by simp [h])]
  rfl

theorem State.flushJournal_noJournal : s.flushJournal.vault.noJournal = s.vault.noJournal := by
  cases h : s.vault.quiescent with
  | true => rw [s.flushJournal_of_quiescent h]
  | false =>
    rw [s.flushJournal_of_running h]
    exact (congrArg Vault.noJournal (foldl_settle_noMap s.vault.buffer s.vault) :)

theorem State.flushJournal_nextSeq : s.flushJournal.vault.nextSeq = s.vault.nextSeq := by
  cases h : s.vault.quiescent with
  | true => rw [s.flushJournal_of_quiescent h]
  | false =>
    rw [s.flushJournal_of_running h]
    exact (congrArg Vault.nextSeq (foldl_settle_noMap s.vault.buffer s.vault) :)

/-- The state with a record in its journal buffer, before a full buffer is programmed. -/
def State.buffered (what : JWhat) : State :=
  s.setVault { s.vault with buffer := s.vault.buffer ++ [JRec.sealed s.vault.nextSeq what], nextSeq := s.vault.nextSeq + 1,
                            bufferClk := some (s.vault.bufferClk.getD s.time.clk) }

theorem State.journal_cases (what : JWhat) :
    (s.vault.buffer.length < 1023 ∧ s.journal what = s.buffered what) ∨
    (1023 ≤ s.vault.buffer.length ∧ s.journal what = (s.buffered what).flushJournal) := by
  have hlen : (s.buffered what).vault.buffer.length = s.vault.buffer.length + 1 := List.length_append
  unfold State.journal
  rcases Nat.lt_or_ge s.vault.buffer.length 1023 with h | h
  · exact .inl ⟨h, if_neg (by show ¬ (s.buffered what).vault.buffer.length ≥ 1024; omega)⟩
  · exact .inr ⟨h, if_pos (by show (s.buffered what).vault.buffer.length ≥ 1024; omega)⟩

theorem State.journal_noJournal (what : JWhat) : (s.journal what).vault.noJournal = s.vault.noJournal := by
  obtain ⟨-, h⟩ | ⟨-, h⟩ := s.journal_cases what
  · rw [h]; rfl
  · rw [h, State.flushJournal_noJournal]; rfl

theorem State.journal_nextSeq (what : JWhat) : (s.journal what).vault.nextSeq = s.vault.nextSeq + 1 := by
  obtain ⟨-, h⟩ | ⟨-, h⟩ := s.journal_cases what
  · rw [h]; rfl
  · rw [h, State.flushJournal_nextSeq]; rfl

/-- A record that does not fill its buffer waits there. -/
theorem State.journal_buffered (h : s.vault.buffer.length < 1023) (what : JWhat) : s.journal what = s.buffered what := by
  obtain ⟨-, hj⟩ | ⟨hge, -⟩ := s.journal_cases what
  · exact hj
  · omega

/-- A record is durable in both mirrors once the buffer is programmed (R245, R246). -/
theorem State.flushJournal_journal (h : s.vault.quiescent = false) (what : JWhat) :
    let v := (s.journal what).flushJournal.vault
    v.buffer = [] ∧ JRec.sealed s.vault.nextSeq what ∈ v.mirrorA ∧ JRec.sealed s.vault.nextSeq what ∈ v.mirrorB := by
  have hb : (s.buffered what).vault.quiescent = false := h
  have hflush := (s.buffered what).flushJournal_of_running hb
  have hmem : JRec.sealed s.vault.nextSeq what ∈ (s.buffered what).vault.buffer := List.mem_append_right _ (List.mem_singleton_self _)
  obtain ⟨-, hj⟩ | ⟨-, hj⟩ := s.journal_cases what
  · rw [hj, hflush]
    exact ⟨rfl, List.mem_append_right _ hmem, List.mem_append_right _ hmem⟩
  · have hq : (s.buffered what).flushJournal.vault.quiescent = false :=
      (congrArg Vault.quiescent (State.flushJournal_noJournal _)).trans h
    rw [hj, State.flushJournal_of_running _ hq, hflush]
    exact ⟨rfl, List.mem_append_left _ (List.mem_append_right _ hmem), List.mem_append_left _ (List.mem_append_right _ hmem)⟩

/-! ### The journal's timer (R246) -/

theorem exec_journalFlushTimer_of_empty (h : s.vault.bufferClk = none) : exec .journalFlushTimer s = .next s := by
  show Host.Outcome.next s.journalDue = _
  rw [State.journalDue, h]

theorem exec_journalFlushTimer {c : Nat} (h : s.vault.bufferClk = some c) :
    exec .journalFlushTimer s = .next (s.atTimer (c + 1000000) State.flushJournal) := by
  show Host.Outcome.next s.journalDue = _
  rw [State.journalDue, h]

end

section
variable {s : State}

theorem State.atTimer_of_due {due : Nat} (h : s.fallsDue due = true) (act : State → State) : s.atTimer due act = act (s.runTo due) := if_pos h

theorem State.atTimer_of_later {due : Nat} (h : s.fallsDue due = false) (act : State → State) : s.atTimer due act = s :=
  if_neg (by simp [h])

theorem State.runTo_vault {due : Nat} : (s.runTo due).vault = s.vault := State.runTo_kept.same .vault (by decide)

theorem does_journalFlushTimer {c : Nat} (h : s.vault.bufferClk = some c) (hdue : s.fallsDue (c + 1000000) = true) :
    Does .journalFlushTimer s fun t => t.time = (s.runTo (c + 1000000)).time ∧
      t.vault.nextSeq = s.vault.nextSeq ∧ t.vault.catalogue = s.vault.catalogue ∧ Only [.time, .vault] s t ∧
      (s.vault.quiescent = true → t.vault = s.vault) ∧
      (s.vault.quiescent = false → t.vault.buffer = [] ∧ t.vault.bufferClk = none ∧
        t.vault.mirrorA = s.vault.mirrorA ++ s.vault.buffer ∧ t.vault.mirrorB = s.vault.mirrorB ++ s.vault.buffer ∧
        (∀ r, s.vault.buffer.getLast? = some r → t.vault.durable = r.seq) ∧
        ∀ n page phys, s.vault.buffer = [JRec.sealed n (.map page phys)] → findKey t.vault.mapped page = some phys) := by
  have hv : (s.runTo (c + 1000000)).vault = s.vault := State.runTo_vault
  have hk : Kept [.time, .vault] s (s.runTo (c + 1000000)).flushJournal :=
    State.flushJournal_kept.andThen (State.runTo_kept.mono (by decide))
  refine ⟨_, (exec_journalFlushTimer s h).trans (congrArg Host.Outcome.next (State.atTimer_of_due hdue _)),
    State.flushJournal_kept.same .time (by decide), ?_, ?_, hk.only, fun hq => ?_, fun hq => ?_⟩
  · rw [State.flushJournal_nextSeq, hv]
  · rw [State.flushJournal_catalogue, hv]
  · rw [State.flushJournal_of_quiescent _ (hv ▸ hq), hv]
  · rw [State.flushJournal_of_running _ (hv ▸ hq), hv]
    refine ⟨rfl, rfl, rfl, rfl, fun r hr => ?_, fun n page phys hb => ?_⟩
    · dsimp only
      rw [hr]
    · dsimp only
      rw [hb]
      exact (findKey_putKey ..).trans (if_pos rfl)

/-! ### A page program that ends (R245) -/

theorem exec_pageProgramDone_of_none {ch : Fin 128} {reads : List Check} (h : ∀ f ∈ s.vault.flights, f.piece.page % 128 ≠ ch.val) :
    exec (.pageProgramDone ch reads) s = .next s := by
  have hnone : (s.vault.flights.find? fun f => vaultChannelOf f.piece.page == ch.val) = none :=
    List.find?_eq_none.2 fun f hf => by simpa [vaultChannelOf] using h f hf
  show Host.Outcome.next (s.programDone ch.val reads) = _
  rw [State.programDone, hnone]

theorem State.programmed_noJournal (s : State) (p : Prog) :
    (s.programmed p).vault.noJournal = { s.vault.noJournal with flights := s.vault.flights.filter (· != p) } := by
  unfold State.programmed
  cases p.wanted with
  | true => exact State.journal_noJournal _ _
  | false => rfl

theorem State.programmed_nextSeq (s : State) (p : Prog) :
    (s.programmed p).vault.nextSeq = s.vault.nextSeq + if p.wanted then 1 else 0 := by
  unfold State.programmed
  cases p.wanted with
  | true => exact State.journal_nextSeq _ _
  | false => rfl

/-- A page that its member has let go keeps its old mapping (R261). -/
theorem State.programmed_of_unwanted {p : Prog} (h : p.wanted = false) :
    s.programmed p = s.setVault { s.vault with flights := s.vault.flights.filter (· != p) } := by
  unfold State.programmed
  simp [h]

theorem State.programmed_of_wanted {p : Prog} (h : p.wanted = true) (hroom : s.vault.buffer.length < 1023) : s.programmed p =
    (s.setVault { s.vault with flights := s.vault.flights.filter (· != p), phys := s.vault.phys ++ [(p.phys, p.data)] }).buffered
      (.map p.piece.page p.phys) := by
  unfold State.programmed
  simp only [h, if_true]
  exact State.journal_buffered (s.setVault _) (by exact hroom) _

/-- Outside an installation, and with no piece waiting for its channel, the end of a program is all that happens. -/
theorem State.programDone_alone {ch : Nat} {p : Prog} (hp : s.vault.flights.find? (fun f => f.piece.page % 128 == ch) = some p)
    (hw : s.vault.waiting = []) (hm : s.vault.member = none) (reads : List Check) : s.programDone ch reads = s.programmed p := by
  have hp' : (s.vault.flights.find? fun f => vaultChannelOf f.piece.page == ch) = some p := hp
  have hw' : (s.programmed p).vault.waiting = [] := (congrArg Vault.waiting (s.programmed_noJournal p)).trans hw
  have hm' : (s.programmed p).vault.member = none := (congrArg Vault.member (s.programmed_noJournal p)).trans hm
  rw [State.programDone, hp']
  dsimp only
  rw [hw', State.startPrograms, hm']

theorem does_pageProgramDone {ch : Fin 128} {p : Prog} (hp : s.vault.flights.find? (fun f => f.piece.page % 128 == ch.val) = some p)
    (hw : s.vault.waiting = []) (hm : s.vault.member = none) (hroom : s.vault.buffer.length < 1023) (reads : List Check) :
    Does (.pageProgramDone ch reads) s fun t =>
      t.vault.flights = s.vault.flights.filter (· != p) ∧ t.vault.mapped = s.vault.mapped ∧ Only [.vault] s t ∧
      (p.wanted = true → t.vault.nextSeq = s.vault.nextSeq + 1 ∧ t.vault.phys = s.vault.phys ++ [(p.phys, p.data)] ∧
        t.vault.buffer = s.vault.buffer ++ [JRec.sealed s.vault.nextSeq (.map p.piece.page p.phys)]) ∧
      (p.wanted = false → t.vault.nextSeq = s.vault.nextSeq ∧ t.vault.phys = s.vault.phys ∧ t.vault.buffer = s.vault.buffer) := by
  refine ⟨_, congrArg Host.Outcome.next (State.programDone_alone hp hw hm reads), congrArg Vault.flights (s.programmed_noJournal p), ?_,
    State.programmed_kept.only, fun h => ?_, fun h => ?_⟩
  · cases h : p.wanted with
    | true => rw [State.programmed_of_wanted h hroom]; rfl
    | false => rw [State.programmed_of_unwanted h]; rfl
  · rw [State.programmed_of_wanted h hroom]
    exact ⟨rfl, rfl, rfl⟩
  · rw [State.programmed_of_unwanted h]
    exact ⟨rfl, rfl, rfl⟩

/-! ### The power-fail signal (R247) -/

/-- Programs that end one after the other. -/
theorem State.foldl_programmed_noJournal (l : List Prog) (s : State) :
    (l.foldl State.programmed s).vault.noJournal = { s.vault.noJournal with flights := s.vault.flights.filter fun f => !(l.contains f) } := by
  induction l generalizing s with
  | nil => simp [Vault.noJournal, Vault.noMap]
  | cons p l ih =>
    have hflights : (s.programmed p).vault.flights = s.vault.flights.filter (· != p) :=
      (congrArg Vault.flights (s.programmed_noJournal p) :)
    have hfilter : (s.vault.flights.filter (· != p)).filter (fun f => !(l.contains f)) =
        s.vault.flights.filter fun f => !((p :: l).contains f) := by
      rw [List.filter_filter]
      refine List.filter_congr fun f _ => ?_
      rw [List.contains_cons, Bool.not_or, Bool.and_comm]
      rfl
    rw [List.foldl_cons, ih, s.programmed_noJournal p, hflights, hfilter]

theorem State.foldl_programmed_nextSeq (l : List Prog) (s : State) :
    (l.foldl State.programmed s).vault.nextSeq = s.vault.nextSeq + (l.filter (·.wanted)).length := by
  induction l generalizing s with
  | nil => rfl
  | cons p l ih =>
    rw [List.foldl_cons, ih, s.programmed_nextSeq, List.filter_cons]
    cases p.wanted <;> simp [Nat.add_assoc, Nat.add_comm 1]

/-- The state in which every program in flight has ended, and nothing waits. -/
def State.programsEnded (s : State) : State :=
  s.vault.flights.foldl State.programmed (s.setVault { s.vault with powerFail := true, waiting := [] })

theorem State.programsEnded_noJournal (s : State) :
    s.programsEnded.vault.noJournal = { s.vault.noJournal with powerFail := true, waiting := [], flights := [] } := by
  unfold State.programsEnded
  rw [State.foldl_programmed_noJournal]
  simp [Vault.noJournal, Vault.noMap]

theorem State.quiesce_eq (s : State) :
    s.quiesce = s.programsEnded.flushJournal.setVault { s.programsEnded.flushJournal.vault with quiescent := true, bufferClk := none } := rfl

theorem does_powerFail (h : s.vault.mapReady = true) : Does .powerFail s fun t =>
    t.vault.powerFail = true ∧ t.vault.quiescent = true ∧ t.vault.flights = [] ∧ t.vault.waiting = [] ∧
    (s.vault.quiescent = false → t.vault.buffer = []) ∧ t.vault.bufferClk = none ∧
    t.vault.nextSeq = s.vault.nextSeq + (s.vault.flights.filter (·.wanted)).length ∧
    t.vault.catalogue = s.vault.catalogue ∧ Only [.vault] s t := by
  have hk : Kept [.vault] s s.quiesce := State.quiesce_kept
  have hrest : s.programsEnded.flushJournal.vault.noJournal = { s.vault.noJournal with powerFail := true, waiting := [], flights := [] } :=
    (State.flushJournal_noJournal _).trans s.programsEnded_noJournal
  refine ⟨s.quiesce, congrArg Host.Outcome.next (if_pos h), ?_⟩
  rw [s.quiesce_eq] at hk ⊢
  refine ⟨(congrArg Vault.powerFail hrest :), rfl, (congrArg Vault.flights hrest :), (congrArg Vault.waiting hrest :), fun hq => ?_, rfl, ?_,
    (congrArg Vault.catalogue hrest :), hk.only⟩
  · have hq' : s.programsEnded.vault.quiescent = false := (congrArg Vault.quiescent s.programsEnded_noJournal).trans hq
    exact (congrArg Vault.buffer (State.flushJournal_of_running _ hq') :)
  · exact (State.flushJournal_nextSeq _).trans (State.foldl_programmed_nextSeq _ _)

theorem exec_powerFail_of_noMap (h : s.vault.mapReady = false) : exec .powerFail s = .next s :=
  congrArg Host.Outcome.next (if_neg (by simp [h]))

end

end Sys2Proof.Machine
end

section
/-! SUPPORT. The appliance's commands: repairs at their source and the synchronization of the catalogue (R265, R267). -/
namespace Sys2Proof.Machine

section
variable {s : State} {m : Msg}

/-- A response sent after changes that leave the fabric alone. -/
theorem State.respond_of_fab {t : State} {kind : Nat} (h : t.fab = s.fab) (ha : s.answerable m) (status : Nat) (payload : List Byte) :
    t.respond kind m status payload = t.emit (s.answer kind m status payload) := by
  rw [State.respond_of_answerable (State.answerable_of_fab h ha), State.answer_of_fab h]

theorem State.respond_vault (s : State) (kind : Nat) (m : Msg) (status : Nat) (payload : List Byte) :
    (s.respond kind m status payload).vault = s.vault := State.respond_kept.same .vault (by decide)

/-! ### SHARD_REPAIR (R267) -/

theorem exec_shardRepair (h : s.takes 0x33 m) : exec (.shardRepair m) s = .next (s.repairShards m) :=
  congrArg Host.Outcome.next (State.deliver_of_takes h _)

/-- A repair that is not opened is answered, and nothing else happens. -/
theorem does_shardRepair_refused {status : Nat} (h : s.takes 0x33 m) (ha : s.answerable m)
    (hr : s.repairShards m = s.respond 0x33 m status []) :
    Does (.shardRepair m) s fun t => t.out = s.out ++ [s.answer 0x33 m status []] ∧ Only [.out] s t := by
  refine ⟨_, exec_shardRepair h, ?_⟩
  rw [hr, State.respond_of_answerable ha]
  exact ⟨rfl, State.emit_kept.only⟩

theorem State.repairShards_of_absent (he : s.entryOf (field m.payload 4 16) (field m.payload 20 4) = none) :
    s.repairShards m = s.respond 0x33 m stNOT_FOUND [] := by
  unfold State.repairShards
  dsimp only
  rw [he]

theorem State.repairShards_of_uncommitted {c : CatEntry} (he : s.entryOf (field m.payload 4 16) (field m.payload 20 4) = some c)
    (hc : c.state ≠ 3) : s.repairShards m = s.respond 0x33 m stINVALID_FIELD [] := by
  unfold State.repairShards
  dsimp only
  rw [he]
  exact if_pos (by simp [hc])

/-- A repair of shards that a committed entry keeps and can serve is opened. -/
theorem State.repairShards_of_served {c : CatEntry} {names : List Nat}
    (hn : names = (pieces 2 (field m.payload 24 2) (m.payload.drop 26)).map leNat)
    (he : s.entryOf (field m.payload 4 16) (field m.payload 20 4) = some c) (hc : c.state = 3) (hnames : names ≠ [])
    (hserved : ∀ n ∈ names, c.kept.contains n = true ∧ c.bad.contains n = false) (hrepair : s.vault.repair = none)
    (hreader : s.vault.reader = none) :
    ∃ (t : State) (r : Reader), s.repairShards m = t.respond 0x33 m stOK [] ∧ t.fab = s.fab ∧
      t.vault = { s.vault with repair := some r, tagNo := s.vault.tagNo + 1 } ∧ r.entry = c.index ∧
      r.shards = c.shards.filter (fun h => names.contains h.index) ∧ r.peers.length = 1 := by
  have hall : (names.all fun n => c.kept.contains n && !(c.bad.contains n)) = true :=
    List.all_eq_true.2 fun n hn => by simp only [hserved n hn, Bool.not_false, Bool.and_true]
  have hempty : names.isEmpty = false := by simpa using hnames
  unfold State.repairShards
  dsimp only
  rw [he, ← hn]
  dsimp only
  rw [if_neg (by rw [hc, hempty, hall]; decide), if_neg (by rw [hrepair, hreader]; decide)]
  exact ⟨_, _, rfl, State.sendBegin_kept.same .fab (by decide), State.sendBegin_kept.same .vault (by decide), rfl, rfl, rfl⟩

theorem does_shardRepair_opened {c : CatEntry} (h : s.takes 0x33 m) (ha : s.answerable m)
    (he : s.entryOf (field m.payload 4 16) (field m.payload 20 4) = some c) (hc : c.state = 3) :
    let names := (pieces 2 (field m.payload 24 2) (m.payload.drop 26)).map leNat
    names ≠ [] → (∀ n ∈ names, c.kept.contains n = true ∧ c.bad.contains n = false) → s.vault.repair = none → s.vault.reader = none →
    Does (.shardRepair m) s fun t => ∃ r : Reader, t.vault = { s.vault with repair := some r, tagNo := s.vault.tagNo + 1 } ∧
      r.entry = c.index ∧ r.shards = c.shards.filter (fun h => names.contains h.index) ∧ r.peers.length = 1 ∧
      t.out.getLast? = some (s.answer 0x33 m stOK []) := by
  intro names hnames hserved hrepair hreader
  obtain ⟨t, r, ht, hfab, hvault, hentry, hshards, hpeers⟩ :=
    State.repairShards_of_served rfl he hc hnames hserved hrepair hreader
  refine ⟨_, exec_shardRepair h, r, ?_⟩
  rw [ht, State.respond_of_fab hfab ha]
  exact ⟨hvault, hentry, hshards, hpeers, List.getLast?_concat⟩

/-! ### Entries removed and members that let go (R261, R264, R265) -/

theorem foldl_journal_noJournal {α : Type} (f : α → JWhat) (l : List α) (s : State) :
    (l.foldl (fun s a => s.journal (f a)) s).vault.noJournal = s.vault.noJournal := by
  induction l generalizing s with
  | nil => rfl
  | cons a l ih => exact (ih _).trans (s.journal_noJournal _)

theorem State.removeEntry_noJournal (s : State) (origin reader : Nat) (c : CatEntry) :
    (s.removeEntry origin reader c).vault.noJournal =
      { s.vault.noJournal with catalogue := s.vault.catalogue.filter fun x => x.index ≠ c.index } := by
  have hfree : ((s.bumpIf (c.state = 1 || c.state = 2) 0x80028).freeExtent c).vault.noJournal = s.vault.noJournal :=
    (foldl_journal_noJournal (fun e : Nat × Nat => .free e.2) c.extent _).trans
      (congrArg Vault.noJournal (State.bumpIf_kept.same .vault (by decide)))
  unfold State.removeEntry
  dsimp only
  rw [State.hand_kept.same .vault (by decide)]
  exact (congrArg (fun v : Vault => { v with catalogue := v.catalogue.filter fun x => x.index ≠ c.index }) hfree :)

theorem State.closeMember_noJournal (s : State) (x : Member) : (s.closeMember x).vault.noJournal =
    { (s.vault.unwant (x.extent.map (·.2))).noJournal with member := none, reserved := [] } :=
  foldl_journal_noJournal JWhat.free _ _

theorem State.settleMember_catalogue (s : State) (c : CatEntry) : (s.settleMember c false).vault.catalogue = s.vault.catalogue := by
  unfold State.settleMember
  split
  next x _ =>
    split
    · rfl
    · exact (congrArg Vault.catalogue (s.closeMember_noJournal x) :)
  next => rfl

/-! ### Synchronization (R265) -/

theorem exec_catalogueSync {rows : List ApplianceRow} (h : s.takes 0x34 m) :
    exec (.catalogueSync m rows) s = .next ((s.sync rows).respond 0x34 m stOK (s.unlisted rows)) :=
  congrArg Host.Outcome.next (State.deliver_of_takes h _)

theorem State.sync_of_settled {rows : List ApplianceRow} (h : s.sync rows = s) (ha : s.answerable m) :
    (s.sync rows).respond 0x34 m stOK (s.unlisted rows) = s.emit (s.answer 0x34 m stOK (s.unlisted rows)) := by
  rw [h, State.respond_of_answerable ha]

theorem State.sync_of_entry {c : CatEntry} (hc : s.vault.catalogue = [c]) (rows : List ApplianceRow) :
    s.sync rows = rows.foldl State.syncAbsent (s.syncEntry rows c) := by
  rw [State.sync, hc, List.foldl_cons, List.foldl_nil]

/-- The catalogue has a free entry while it is empty. -/
theorem State.freeEntry_of_empty (hc : s.vault.catalogue = []) : ∃ e, s.freeEntry = some e := by
  refine Option.isSome_iff_exists.1 (List.find?_isSome.2 ⟨0, by simp, ?_⟩)
  simp [State.entryAt, hc]

/-- What is committed and absent is created as STALE. -/
theorem State.syncAbsent_of_empty {r : ApplianceRow} (hr : r.committed = true) (hc : s.vault.catalogue = []) :
    ∃ c : CatEntry, (s.syncAbsent r).vault.catalogue = [c] ∧ c.state = 4 ∧ c.imageId = r.imageId.toNat ∧ c.gen = r.imageGen.toNat ∧
      c.kept = [] := by
  obtain ⟨e, he⟩ := State.freeEntry_of_empty hc
  unfold State.syncAbsent
  rw [if_neg (by simp [hr, State.entryOf, hc]), he]
  dsimp only
  rw [State.hand_kept.same .vault (by decide), State.setVault_vault, hc]
  exact ⟨_, rfl, rfl, rfl, rfl, rfl⟩

/-- What is there is not created again. -/
theorem State.syncAbsent_of_present {r : ApplianceRow} {d : CatEntry} (hd : d ∈ s.vault.catalogue) (hid : d.imageId = r.imageId.toNat)
    (hgen : d.gen = r.imageGen.toNat) : s.syncAbsent r = s := by
  refine if_pos ?_
  have hsome : (s.entryOf r.imageId.toNat r.imageGen.toNat).isSome = true := List.find?_isSome.2 ⟨d, hd, by simp [hid, hgen]⟩
  simp [hsome]

/-- An installation that the appliance does not know goes. -/
theorem State.syncEntry_of_unknown {c : CatEntry} (hc : s.vault.catalogue = [c]) (hstate : c.state = 1 ∨ c.state = 2) :
    (s.syncEntry [] c).vault.catalogue = [] := by
  have hgone : s.syncEntry [] c = (s.settleMember c false).removeEntry 11 s.fab.moduleNo c := by
    rcases hstate with h | h <;> exact if_pos (by simp [h])
  rw [hgone]
  refine (congrArg Vault.catalogue (State.removeEntry_noJournal ..) :).trans ?_
  show (s.settleMember c false).vault.catalogue.filter _ = []
  rw [State.settleMember_catalogue, hc]
  simp

theorem State.syncEntry_of_committed {c : CatEntry} (h : c.state = 3) : s.syncEntry [] c = s := if_neg (by simp [h])

/-- A committed entry that misses shards becomes STALE and owes them. -/
theorem State.syncEntry_of_missing {rows : List ApplianceRow} {c : CatEntry} {r : ApplianceRow} (hc : s.vault.catalogue = [c])
    (hr : rowOf rows c.imageId c.gen = some r) (hstate : c.state = 3) (hmiss : s.missing c ≠ []) :
    ∃ d, (s.syncEntry rows c).vault.catalogue = [d] ∧ d.imageId = c.imageId ∧ d.gen = c.gen ∧ d.state = 4 ∧ d.kept = c.kept ∧
      ∀ n ∈ s.missing c, n ∈ d.owed := by
  have howed : (c.owed ++ s.missing c ++ c.bad).eraseDups.isEmpty = false := by
    obtain ⟨n, hn⟩ := List.exists_mem_of_ne_nil _ hmiss
    refine List.isEmpty_eq_false_iff_exists_mem.2 ⟨n, List.mem_eraseDups.2 ?_⟩
    simp [hn]
  unfold State.syncEntry
  dsimp only
  rw [hr]
  dsimp only
  rw [if_neg (by simp [hstate]), if_pos (by simp [hstate]), if_neg (by rw [howed]; exact Bool.false_ne_true),
    if_neg (by simp [hstate])]
  unfold State.entryState
  rw [State.hand_kept.same .vault (by decide)]
  have hcat : ((s.setEntry { c with owed := (c.owed ++ s.missing c ++ c.bad).eraseDups }).setEntry
      { c with owed := (c.owed ++ s.missing c ++ c.bad).eraseDups, state := 4 }).vault.catalogue =
      [{ c with owed := (c.owed ++ s.missing c ++ c.bad).eraseDups, state := 4 }] := by simp [State.setEntry, hc]
  exact ⟨_, hcat, rfl, rfl, rfl, rfl, fun n hn => List.mem_eraseDups.2 (List.mem_append_left _ (List.mem_append_right _ hn))⟩

end

end Sys2Proof.Machine
end

section
/-! SUPPORT. The vault's commands, together. -/
namespace Sys2Proof.Machine

section
variable {s : State} {m : Msg}

theorem does_catalogueSync_empty (h : s.takes 0x34 m) (ha : s.answerable m) (hc : s.vault.catalogue = []) :
    Does (.catalogueSync m []) s fun t => t.out = s.out ++ [s.answer 0x34 m stOK []] ∧ Only [.out] s t := by
  have hsync : s.sync [] = s := by rw [State.sync, hc, List.foldl_nil, List.foldl_nil]
  have hunlisted : s.unlisted [] = [] := by rw [State.unlisted, hc]; rfl
  refine ⟨_, exec_catalogueSync h, ?_⟩
  rw [State.sync_of_settled hsync ha, hunlisted]
  exact ⟨rfl, State.emit_kept.only⟩

theorem does_catalogueSync_absent {r : ApplianceRow} (h : s.takes 0x34 m) (hr : r.committed = true) (hc : s.vault.catalogue = []) :
    Does (.catalogueSync m [r]) s fun t =>
      ∃ c : CatEntry, t.vault.catalogue = [c] ∧ c.state = 4 ∧ c.imageId = r.imageId.toNat ∧ c.gen = r.imageGen.toNat ∧ c.kept = [] := by
  have hsync : s.sync [r] = s.syncAbsent r := by rw [State.sync, hc, List.foldl_nil, List.foldl_cons, List.foldl_nil]
  refine ⟨_, exec_catalogueSync h, ?_⟩
  dsimp only
  rw [State.respond_vault, hsync]
  exact State.syncAbsent_of_empty hr hc

theorem does_catalogueSync_unknown {c : CatEntry} (h : s.takes 0x34 m) (hc : s.vault.catalogue = [c]) (hstate : c.state = 1 ∨ c.state = 2) :
    Does (.catalogueSync m []) s fun t => t.vault.catalogue = [] := by
  refine ⟨_, exec_catalogueSync h, ?_⟩
  dsimp only
  rw [State.respond_vault, State.sync_of_entry hc]
  exact State.syncEntry_of_unknown hc hstate

theorem does_catalogueSync_unlisted {c : CatEntry} (h : s.takes 0x34 m) (ha : s.answerable m) (hc : s.vault.catalogue = [c])
    (hstate : c.state = 3) : Does (.catalogueSync m []) s fun t => t.vault = s.vault ∧
      t.out = s.out ++ [s.answer 0x34 m stOK (leBytes 16 c.imageId ++ leBytes 4 c.gen)] := by
  have hsync : s.sync [] = s := (State.sync_of_entry hc []).trans (State.syncEntry_of_committed hstate)
  have hunlisted : s.unlisted [] = leBytes 16 c.imageId ++ leBytes 4 c.gen := by
    simp [State.unlisted, hc, hstate, rowOf]
  refine ⟨_, exec_catalogueSync h, ?_⟩
  rw [State.sync_of_settled hsync ha, hunlisted]
  exact ⟨rfl, rfl⟩

theorem does_catalogueSync_missing {c : CatEntry} {r : ApplianceRow} (h : s.takes 0x34 m) (hc : s.vault.catalogue = [c])
    (hr : r.committed = true) (hid : r.imageId.toNat = c.imageId) (hgen : r.imageGen.toNat = c.gen) (hstate : c.state = 3)
    (hmiss : s.missing c ≠ []) : Does (.catalogueSync m [r]) s fun t =>
      ∃ d, t.vault.catalogue = [d] ∧ d.state = 4 ∧ d.kept = c.kept ∧ ∀ n ∈ s.missing c, n ∈ d.owed := by
  have hrow : rowOf [r] c.imageId c.gen = some r := by simp [rowOf, hid, hgen, hr]
  obtain ⟨d, hcat, hdid, hdgen, hd⟩ := State.syncEntry_of_missing hc hrow hstate hmiss
  have hsync : s.sync [r] = s.syncEntry [r] c := by
    rw [State.sync_of_entry hc, List.foldl_cons, List.foldl_nil]
    exact State.syncAbsent_of_present (hcat ▸ List.mem_singleton_self d) (hdid.trans hid.symm) (hdgen.trans hgen.symm)
  refine ⟨_, exec_catalogueSync h, ?_⟩
  dsimp only
  rw [State.respond_vault, hsync]
  exact ⟨d, hcat, hd⟩

end

/-- Settles O38, command by command: the journal's timer, a page program and the power-fail signal; a repair at its source; the
synchronization of an empty catalogue and of one entry. -/
theorem vaultCommands : Obligations.VaultCommands := by
  unfold Obligations.VaultCommands
  refine ⟨fun s => ⟨exec_journalFlushTimer_of_empty s, fun c hc => ⟨fun hdue => ?_, does_journalFlushTimer hc⟩,
      fun ch reads => exec_pageProgramDone_of_none, fun ch reads p hp hw hm hroom => does_pageProgramDone hp hw hm hroom reads,
      does_powerFail, exec_powerFail_of_noMap⟩,
    fun s m rows => ⟨fun h ha => ⟨fun he => ?_, fun c he hc => ?_, fun c he hc => does_shardRepair_opened h ha he hc⟩,
      fun h ha hc hrows => ?_, fun r h hrows hr hc => ?_, fun c h hc hrows => ?_, fun c r h hc hrows hr hid hgen hstate hmiss => ?_⟩⟩
  · exact (exec_journalFlushTimer s hc).trans (congrArg Host.Outcome.next (State.atTimer_of_later hdue _))
  · exact does_shardRepair_refused h ha (State.repairShards_of_absent he)
  · exact does_shardRepair_refused h ha (State.repairShards_of_uncommitted he hc)
  · subst hrows
    exact does_catalogueSync_empty h ha hc
  · subst hrows
    exact does_catalogueSync_absent h hr hc
  · subst hrows
    exact ⟨does_catalogueSync_unknown h hc, fun hstate ha => does_catalogueSync_unlisted h ha hc hstate⟩
  · subst hrows
    exact does_catalogueSync_missing h hc hr hid hgen hstate hmiss

end Sys2Proof.Machine
end

section
/-! SUPPORT. An installation's timeouts: how a reader ends, how a member lets go, and what has come by the tick of a message (R8, R47,
R48, R256, R260, R261). -/
namespace Sys2Proof.Machine

/-! ### Messages and records leave the vault alone -/

section
variable (s : State)

theorem State.instMsg_vault (kind module tag status : Nat) (payload : List Byte) :
    (s.instMsg kind module tag status payload).vault = s.vault := State.instMsg_kept.same .vault (by decide)

theorem State.instAll_vault (kind tag : Nat) (m : Msg) : (s.instAll kind tag m).vault = s.vault := State.instAll_kept.same .vault (by decide)

theorem State.hand_vault (origin obj : Nat) (old new : List Byte) : (s.hand origin obj old new).vault = s.vault :=
  State.hand_kept.same .vault (by decide)

/-- A message that no port takes is counted in MISROUTE_COUNT (notes/assumptions/21.md); no other register moves. -/
theorem State.instMsg_reg (kind module tag status : Nat) (payload : List Byte) {o : Nat} (h : o ≠ 0x30030) :
    (s.instMsg kind module tag status payload).reg o = s.reg o := by
  unfold State.instMsg State.sendControl
  split
  · rfl
  · unfold State.sendOn
    dsimp only
    split
    · rfl
    · split
      · rfl
      · rw [State.reg_bump, if_neg h]

end

/-! ### How a reader or a repair's source ends (R257, R260) -/

theorem Reader.isRepair_of_image {r : Reader} (h : r.image ≠ []) : r.isRepair = false := by
  unfold Reader.isRepair
  simpa using h

section
variable {s : State} {r : Reader}

theorem State.finishReader_vault (h : r.isRepair = false) (status refuser : Nat) :
    (s.finishReader r status refuser).vault = { s.vault with reader := none } := by
  unfold State.finishReader
  rw [if_neg (by simp [h])]
  exact State.handCq_kept.same .vault (by decide)

theorem State.abortReader_vault (h : r.isRepair = false) (status refuser : Nat) :
    (s.abortReader r status refuser).vault = { s.vault with reader := none } := by
  unfold State.abortReader
  dsimp only
  rw [if_neg (by simp [h]), State.finishReader_vault h, State.instAll_vault]

theorem State.readerEnds_vault (h : r.isRepair = false) : (s.readerEnds r).vault = { s.vault with reader := none } := by
  unfold State.readerEnds
  split
  · exact State.finishReader_vault h _ _
  · exact State.abortReader_vault h _ _

variable (s r)

theorem State.rowRepaired_member : (s.rowRepaired r).vault.member = s.vault.member := by
  unfold State.rowRepaired
  split
  · split <;> rfl
  · rfl

theorem State.finishReader_member (status refuser : Nat) : (s.finishReader r status refuser).vault.member = s.vault.member := by
  cases h : r.isRepair with
  | true =>
    unfold State.finishReader
    rw [if_pos h]
    exact s.rowRepaired_member r
  | false => rw [State.finishReader_vault h]

theorem State.abortReader_member (status refuser : Nat) : (s.abortReader r status refuser).vault.member = s.vault.member := by
  unfold State.abortReader
  dsimp only
  rw [State.finishReader_member]
  split
  · exact congrArg Vault.member
      ((Kept.foldl (ps := [.regs, .out]) _ _ (Kept.refl s) fun _ _ => State.instMsg_kept).same .vault (by decide))
  · rw [State.instAll_vault]

theorem State.ripeReader_member (o : Option Reader) : (s.ripeReader o).vault.member = s.vault.member := by
  unfold State.ripeReader
  split
  · rfl
  · split
    · unfold State.readerEnds
      split
      · exact s.finishReader_member _ _ _
      · exact s.abortReader_member _ _ _
    · split
      · exact s.abortReader_member _ _ _
      · rfl

end

theorem State.ripeReader_of_early {s : State} {o : Option Reader}
    (h : ∀ r, o = some r → s.time.clk < r.timeout ∧ (r.silent = false ∨ s.time.clk < r.begun + 100000000)) : s.ripeReader o = s := by
  cases o with
  | none => rfl
  | some r =>
    obtain ⟨htimeout, hsilent⟩ := h r rfl
    unfold State.ripeReader
    dsimp only
    rw [if_neg (by omega), if_neg]
    rcases hsilent with hs | hs
    · simp [hs]
    · simp [hs]

/-! ### How a member ends (R261) -/

section
variable {s : State} {x : Member}

theorem State.entryAt_index {i : Nat} {c : CatEntry} (h : s.entryAt i = some c) : c.index = i := by
  have := List.find?_some h
  simpa using this

theorem State.closeMember_catalogue : (s.closeMember x).vault.catalogue = s.vault.catalogue :=
  (congrArg Vault.catalogue (s.closeMember_noJournal x) :)

theorem State.closeMember_entryAt (i : Nat) : (s.closeMember x).entryAt i = s.entryAt i := by
  rw [State.entryAt, State.closeMember_catalogue, State.entryAt]

theorem State.abandonMember_of_committed (h : x.committed = true) : s.abandonMember x = s.setMember x := if_pos h

theorem State.abandonMember_of_absent (h : x.committed = false) (he : s.entryAt x.entry = none) :
    s.abandonMember x = s.closeMember x := by
  unfold State.abandonMember
  rw [if_neg (by simp [h])]
  dsimp only
  rw [State.closeMember_entryAt, he]

theorem State.abandonMember_of_created {c : CatEntry} (h : x.committed = false) (he : s.entryAt x.entry = some c)
    (hcreated : x.created = true) : s.abandonMember x = (s.closeMember x).removeEntry 12 x.reader { c with extent := [] } := by
  unfold State.abandonMember
  rw [if_neg (by simp [h])]
  dsimp only
  rw [State.closeMember_entryAt, he]
  exact if_pos hcreated

theorem State.abandonMember_of_standing {c : CatEntry} (h : x.committed = false) (he : s.entryAt x.entry = some c)
    (hcreated : x.created = false) : s.abandonMember x =
      (s.closeMember x).hand 12 (objImage x.reader c.index c.gen) (imageVal c c.state) (imageVal c c.state) := by
  unfold State.abandonMember
  rw [if_neg (by simp [h])]
  dsimp only
  rw [State.closeMember_entryAt, he]
  exact if_neg (by simp [hcreated])

/-- An uncommitted member is gone with its reserved pages; the entry that it created goes with it. -/
theorem State.abandonMember_noJournal (h : x.committed = false) : (s.abandonMember x).vault.noJournal =
    { (s.vault.unwant (x.extent.map (·.2))).noJournal with
      member := none, reserved := [],
      catalogue := if x.created then s.vault.catalogue.filter fun c => c.index ≠ x.entry else s.vault.catalogue } := by
  have hclose := s.closeMember_noJournal x
  cases he : s.entryAt x.entry with
  | none =>
    have hall : s.vault.catalogue.filter (fun c => c.index ≠ x.entry) = s.vault.catalogue :=
      List.filter_eq_self.2 fun c hc => by simpa using List.find?_eq_none.1 he c hc
    rw [State.abandonMember_of_absent h he, hall, ite_self, hclose]
    rfl
  | some c =>
    cases hcreated : x.created with
    | true =>
      rw [State.abandonMember_of_created h he hcreated, State.removeEntry_noJournal, hclose, State.closeMember_catalogue,
        State.entryAt_index he]
      rfl
    | false =>
      rw [State.abandonMember_of_standing h he hcreated, State.hand_vault, hclose]
      rfl

theorem State.abandonMember_member (h : x.committed = false) : (s.abandonMember x).vault.member = none :=
  (congrArg Vault.member (State.abandonMember_noJournal h) :)

theorem State.abandonMember_reserved (h : x.committed = false) : (s.abandonMember x).vault.reserved = [] :=
  (congrArg Vault.reserved (State.abandonMember_noJournal h) :)

theorem State.abandonMember_catalogue (h : x.committed = false) : (s.abandonMember x).vault.catalogue =
    if x.created then s.vault.catalogue.filter fun c => c.index ≠ x.entry else s.vault.catalogue :=
  (congrArg Vault.catalogue (State.abandonMember_noJournal h) :)

/-- The entry that the member created is no longer there, and is counted as discarded where it was not committed (R272). -/
theorem State.abandonMember_created {c : CatEntry} (h : x.committed = false) (hcreated : x.created = true)
    (he : s.entryAt x.entry = some c) : (s.abandonMember x).entryAt x.entry = none ∧
      ((c.state = 1 ∨ c.state = 2) → (s.abandonMember x).reg 0x80028 = min (s.reg 0x80028 + 1) 0xFFFFFFFF) := by
  refine ⟨?_, fun hstate => ?_⟩
  · rw [State.entryAt, State.abandonMember_catalogue h, if_pos hcreated]
    exact List.find?_eq_none.2 fun d hd => by simpa using (List.mem_filter.1 hd).2
  · have hclose : (s.closeMember x).regs = s.regs := State.closeMember_kept.same .regs (by decide)
    have hcount : (Decidable.decide (c.state = 1) || Decidable.decide (c.state = 2)) = true := by simpa using hstate
    rw [State.abandonMember_of_created h he hcreated]
    unfold State.removeEntry
    dsimp only
    rw [State.reg_of_regs (State.hand_kept.same .regs (by decide)), State.reg_of_regs (State.setVault_regs ..),
      State.reg_of_regs (State.freeExtent_kept.same .regs (by decide)), State.reg_bumpIf, if_pos ⟨hcount, rfl⟩, State.reg_of_regs hclose]

end

/-! ### What has come by the tick of a message (R8, R47, R48) -/

/-- The timeouts of the member that have come by now. -/
def State.ripeMember (s : State) : State :=
  match s.vault.member with
  | some x =>
    if !x.committed && x.due ≤ s.time.clk then s.abandonMember x
    else if x.lacks && !x.checked && x.endClk + 10000000 ≤ s.time.clk then s.reportDue x
    else s
  | none => s

theorem State.ripeInstall_eq (s : State) :
    s.ripeInstall = (s.ripeMember.ripeReader s.ripeMember.vault.reader).ripeReader s.ripeMember.vault.repair := rfl

section
variable {s : State}

theorem State.ripeInstall_member_of_due {x : Member} (hx : s.vault.member = some x) (hopen : x.committed = false)
    (hdue : x.due ≤ s.time.clk) : s.ripeInstall.vault.member = none := by
  have hm : s.ripeMember = s.abandonMember x := by
    unfold State.ripeMember
    rw [hx]
    exact if_pos (by simp [hopen, hdue])
  rw [State.ripeInstall_eq, State.ripeReader_member, State.ripeReader_member, hm, State.abandonMember_member hopen]

theorem State.ripeMember_of_early (h : ∀ x, s.vault.member = some x → (x.committed = true ∨ s.time.clk < x.due) ∧
    (x.lacks = false ∨ x.checked = true ∨ s.time.clk < x.endClk + 10000000)) : s.ripeMember = s := by
  unfold State.ripeMember
  cases hx : s.vault.member with
  | none => rfl
  | some x =>
    obtain ⟨hdue, hreport⟩ := h x hx
    dsimp only
    rw [if_neg, if_neg]
    · rcases hreport with h | h | h <;> simp [h]
    · rcases hdue with h | h <;> simp [h]

theorem State.ripeInstall_of_early
    (hmember : ∀ x, s.vault.member = some x → (x.committed = true ∨ s.time.clk < x.due) ∧
      (x.lacks = false ∨ x.checked = true ∨ s.time.clk < x.endClk + 10000000))
    (hreader : ∀ r, (s.vault.reader = some r ∨ s.vault.repair = some r) →
      s.time.clk < r.timeout ∧ (r.silent = false ∨ s.time.clk < r.begun + 100000000)) : s.ripeInstall = s := by
  rw [State.ripeInstall_eq, State.ripeMember_of_early hmember, State.ripeReader_of_early fun r h => hreader r (.inl h),
    State.ripeReader_of_early fun r h => hreader r (.inr h)]

end

end Sys2Proof.Machine
end

section
/-! SUPPORT. The messages to a member of an installation: BEGIN, DATA and REPAIR (R254, R256 to R259, R303). -/
namespace Sys2Proof.Machine

section
variable {s : State} {m : Msg}

/-- A message that is for this module acts after the timeouts that have come (R8, R47, R48). -/
theorem State.instDeliver_of_takes {kind : Nat} (h : s.takes kind m) (act : State → State) :
    s.instDeliver kind m act = act s.ripeInstall := State.deliver_of_takes h _

theorem State.asMember_of_tag {x : Member} (hx : s.vault.member = some x) (htag : x.tag = m.tag.toNat)
    (act : State → Member → State) : s.asMember m act = act s { x with lastMsg := s.time.clk } := by
  unfold State.asMember
  rw [hx]
  exact if_pos htag

/-- A message of another tag is counted and discarded (R256). -/
theorem State.asMember_of_other (h : ∀ x, s.vault.member = some x → x.tag ≠ m.tag.toNat) (act : State → Member → State) :
    s.asMember m act = s.bump 0x80028 := by
  unfold State.asMember
  cases hx : s.vault.member with
  | none => rfl
  | some x => exact if_neg (h x hx)

/-! ### BEGIN (R257, R303) -/

/-- A BEGIN of one message is whole (R303). -/
theorem State.takeBegin_single (hseq : m.seq = 0) (hlen : m.payload.length < 65536) : (s.takeBegin m).1 = some m.payload := by
  have hrun : (BeginRx.mk m.tag.toNat m.src.toNat m.opt.toNat [(0, m.payload)]).run = [m.payload] := by
    simp [BeginRx.run, List.range_succ, findKey]
  have hfirst : m.seq.toNat = 0 := by rw [hseq]; rfl
  unfold State.takeBegin
  dsimp only
  rw [hfirst, if_pos rfl, show putKey [] 0 m.payload = [(0, m.payload)] from rfl, hrun, if_pos (by simp [hlen])]
  simp

theorem exec_installBegin_of_part (h : s.takes kBEGIN m) (hb : (s.ripeInstall.takeBegin m).1 = none) :
    exec (.installBegin m) s = .next (s.ripeInstall.takeBegin m).2 := by
  refine congrArg Host.Outcome.next ((State.instDeliver_of_takes h _).trans ?_)
  have hpair : s.ripeInstall.takeBegin m = (none, (s.ripeInstall.takeBegin m).2) := Prod.ext hb rfl
  rw [hpair]

theorem exec_installBegin_of_whole {bs : List Byte} {v : State} (h : s.takes kBEGIN m) (hopt : bit m.opt.toNat 0 = false)
    (hb : s.ripeInstall.takeBegin m = (some bs, v)) (hcoord : v.fab.coordValid = true)
    (hmask : bit (beginOf bs).mask (memberBit v.fab.row v.fab.col) = true) :
    exec (.installBegin m) s = .next (v.beginInstall m (beginOf bs)) := by
  refine congrArg Host.Outcome.next ((State.instDeliver_of_takes h _).trans ?_)
  rw [hb]
  dsimp only
  rw [if_neg (by simp [hopt]), if_pos (by simp [hcoord, hmask])]

theorem State.beginInstall_of_badImage {b : Begin} (h : s.imageStatus b.head false ≠ stOK) :
    s.beginInstall m b = s.instMsg kREFUSE (msgModule m) m.tag.toNat (s.imageStatus b.head false) [] := if_pos h

/-- The member that opens for a BEGIN. -/
def State.newMember (s : State) (m : Msg) (entry : Nat) (shards : List Shard) (pages : List Nat) (repair created : Bool) (timeout : Nat) :
    Member :=
  { tag := m.tag.toNat, reader := msgModule m, entry := entry, repair := repair, timeoutMs := timeout, lastMsg := s.time.clk,
    shards := shards.map fun h => rxShard h.index h.stream, seqs := 0, endCount := none, endClk := 0, committed := false,
    extent := assignPages shards pages, created := created }

theorem State.openMember_vault (entry : Nat) (shards : List Shard) (pages : List Nat) (repair created : Bool) (timeout : Nat) :
    (s.openMember m entry shards pages repair created timeout).vault =
      { s.vault with member := some (s.newMember m entry shards pages repair created timeout), reserved := pages } := by
  unfold State.openMember
  dsimp only
  rw [State.instMsg_vault, State.instMsg_vault]
  rfl

/-- What an accepted BEGIN leaves in the vault: the member with its pages, and its entry. -/
theorem State.beginInstall_opened {b : Begin} {kept : List Shard} {n e : Nat}
    (hkept : kept = (headShards b.head).filter fun h => h.keptAt s.fab.row s.fab.col) (hn : n = (kept.map Shard.pages).sum)
    (hstatus : s.imageStatus b.head false = stOK) (hfree : s.memberBusy m.tag.toNat = false) (he : s.freeEntry = some e)
    (hpages : (s.freeVault n).length = n) :
    ∃ c : CatEntry, (s.beginInstall m b).vault =
      { s.vault with member := some (s.newMember m e kept (s.freeVault n) false true b.timeout), reserved := s.freeVault n,
                     catalogue := s.vault.catalogue ++ [c] } ∧
      c.index = e ∧ c.state = 1 ∧ c.kept = kept.map (·.index) := by
  unfold State.beginInstall
  dsimp only
  rw [if_neg (not_not_intro hstatus), if_neg (by simp [hfree]), he]
  dsimp only
  rw [← hkept, ← hn, if_neg (by omega), State.openMember_vault, State.hand_vault]
  unfold State.newMember
  rw [State.hand_kept.same .time (by decide)]
  exact ⟨_, rfl, rfl, rfl, rfl⟩

/-! ### The install buffer and the programs (R245, R258) -/

/-- Programs that start move messages from the waiting list to the channels; nothing else of the vault changes. -/
theorem State.startPrograms_vault (l : List Piece) (s : State) :
    ∃ flights waiting, (s.startPrograms l).vault = { s.vault with flights := flights, waiting := waiting } := by
  induction l generalizing s with
  | nil => exact ⟨_, _, rfl⟩
  | cons p l ih =>
    rw [State.startPrograms]
    dsimp only
    split
    · exact ih s
    · obtain ⟨flights, waiting, h⟩ := ih (s.setVault _)
      exact ⟨flights, waiting, h⟩

/-- The shards of a member with a message of one of them noted. -/
def Member.noted (x : Member) (shard off : Nat) : Member :=
  { x with shards := x.shards.map fun q => if q.shard == shard then { q with got := q.got ++ [off] } else q }

/-- The message fits its shard, and has not come before. -/
structure RxShard.Fits (r : RxShard) (off : Nat) (bs : List Byte) : Prop where
  awaited : r.verified = false
  aligned : off % 65536 = 0
  inside  : off + bs.length ≤ r.length
  fresh   : off ∉ r.got

/-- The state with a message of a shard noted, its bytes in a slot of the install buffer, and its page waiting for its channel. -/
def State.buffering (s : State) (x : Member) (shard off slot page : Nat) (bs : List Byte) : State :=
  let t := (s.setMember (x.noted shard off)).storeAt (slotMpa slot) bs
  t.setVault { t.vault with waiting := t.vault.waiting ++ [⟨page, shard, bs.length, slot⟩] }

theorem State.takePiece_of_fits {x : Member} {shard off slot page : Nat} {bs : List Byte} {r : RxShard}
    (hr : x.shards.find? (fun r => r.shard == shard) = some r) (hfits : r.Fits off bs) (hslot : s.vault.freeSlot = some slot)
    (hpage : (x.pagesOf shard)[off / 65536]? = some page) :
    s.takePiece x shard off bs =
      (s.buffering x shard off slot page bs).startPrograms (s.buffering x shard off slot page bs).vault.waiting := by
  obtain ⟨hopen, haligned, hinside, hfresh⟩ := hfits
  unfold State.takePiece
  rw [hr, hslot, hpage]
  dsimp only
  rw [if_neg (by simp [hopen, haligned, hinside, hfresh])]
  rfl

/-- A piece that fits is noted, and its bytes lie in a free slot of the install buffer. -/
theorem State.takePiece_leaves {x : Member} {shard off slot page : Nat} {bs : List Byte} {r : RxShard}
    (hr : x.shards.find? (fun r => r.shard == shard) = some r) (hfits : r.Fits off bs) (hslot : s.vault.freeSlot = some slot)
    (hpage : (x.pagesOf shard)[off / 65536]? = some page) :
    (s.takePiece x shard off bs).vault.member = some (x.noted shard off) ∧
    (s.takePiece x shard off bs).vault.catalogue = s.vault.catalogue ∧
    (s.takePiece x shard off bs).mem = (s.storeAt (slotMpa slot) bs).mem := by
  rw [State.takePiece_of_fits hr hfits hslot hpage]
  obtain ⟨flights, waiting, hvault⟩ := State.startPrograms_vault (s.buffering x shard off slot page bs).vault.waiting
    (s.buffering x shard off slot page bs)
  exact ⟨(congrArg Vault.member hvault :), (congrArg Vault.catalogue hvault :), State.startPrograms_kept.same .mem (by decide)⟩

/-! ### DATA (R254, R258) -/

theorem exec_installData {x : Member} (h : s.takes kDATA m) (hx : s.ripeInstall.vault.member = some x) (htag : x.tag = m.tag.toNat) :
    exec (.installData m) s = .next (s.ripeInstall.takePiece { x with lastMsg := s.ripeInstall.time.clk, seqs := x.seqs + 1 }
      m.aux.toNat m.offset.toNat m.payload) :=
  congrArg Host.Outcome.next ((State.instDeliver_of_takes h _).trans (State.asMember_of_tag hx htag _))

theorem does_installData {x : Member} {r : RxShard} {slot page : Nat} (h : s.takes kDATA m) (hx : s.ripeInstall.vault.member = some x)
    (htag : x.tag = m.tag.toNat) (hr : x.shards.find? (fun r => r.shard == m.aux.toNat) = some r)
    (hfits : r.Fits m.offset.toNat m.payload) (hslot : s.ripeInstall.vault.freeSlot = some slot)
    (hpage : (x.pagesOf m.aux.toNat)[m.offset.toNat / 65536]? = some page) :
    Does (.installData m) s fun t =>
      t.vault.member = some { x with lastMsg := s.ripeInstall.time.clk, seqs := x.seqs + 1, shards := x.shards.map fun q =>
        if q.shard == m.aux.toNat then { q with got := q.got ++ [m.offset.toNat] } else q } ∧
      (∀ i, i < m.payload.length → Memory.read t.mem.cells (slotMpa slot + i) = m.payload.getD i 0) ∧
      t.vault.catalogue = s.ripeInstall.vault.catalogue ∧ Only [.mem, .vault] s.ripeInstall t := by
  obtain ⟨hmember, hcatalogue, hmem⟩ := State.takePiece_leaves (s := s.ripeInstall)
    (x := { x with lastMsg := s.ripeInstall.time.clk, seqs := x.seqs + 1 }) hr hfits hslot hpage
  refine ⟨_, exec_installData h hx htag, hmember, fun i hi => ?_, hcatalogue, State.takePiece_kept.only⟩
  rw [hmem, List.getD_eq_getElem _ _ hi]
  exact Memory.read_write_in ..

/-! ### REPAIR (R259) -/

/-- Where programs are no longer wanted, no slot of the install buffer is newly taken. -/
theorem Vault.freeSlot_unwant {v : Vault} (pages : List Nat) (h : v.freeSlot ≠ none) : ∃ slot, (v.unwant pages).freeSlot = some slot := by
  obtain ⟨k, hk⟩ := Option.ne_none_iff_exists'.1 h
  unfold Vault.freeSlot at hk ⊢
  have hfree := List.find?_some hk
  simp only [Bool.and_eq_true, List.all_eq_true] at hfree
  obtain ⟨hwaiting, hflights⟩ := hfree
  rw [← Option.isSome_iff_exists, List.find?_isSome]
  refine ⟨k, List.mem_of_find?_eq_some hk, ?_⟩
  simp only [Bool.and_eq_true, List.all_eq_true]
  refine ⟨fun p hp => hwaiting p (List.mem_filter.1 hp).1, fun f hf => ?_⟩
  obtain ⟨g, hg, rfl⟩ := List.mem_map.1 hf
  have hslot : (if pages.contains g.piece.page = true then { g with wanted := false } else g).piece.slot = g.piece.slot := by split <;> rfl
  rw [hslot]
  exact hflights g hg

/-- A member with some of its shards awaited from their start. -/
def Member.awaiting (x : Member) (names : List Nat) : Member :=
  { x with shards := x.shards.map fun r => if names.contains r.shard then rxShard r.shard r.length else r }

section
variable (s : State) (x : Member) (names : List Nat)

theorem State.freshShards_vault : (s.freshShards x names).vault =
    { s.vault.unwant ((x.extent.filter fun e => names.contains e.1).map (·.2)) with member := some (x.awaiting names) } := by
  unfold State.freshShards
  dsimp only
  split
  · rfl
  · rw [State.instMsg_vault]
    rfl

theorem State.freshShards_reg {o : Nat} (h : o ≠ 0x30030) : (s.freshShards x names).reg o = s.reg o := by
  unfold State.freshShards
  dsimp only
  split
  · rfl
  · rw [State.instMsg_reg _ _ _ _ _ _ h]
    rfl

end

/-- A REPAIR's first message: the shard is awaited from its start, and the message is its first. -/
theorem State.memberRepair_of_start (x : Member) (shard : Nat) (bs : List Byte) : s.memberRepair x shard 0 bs =
    ((s.bump 0x80020).freshShards { x with seqs := 1, endCount := none } [shard]).takePiece
      (({ x with seqs := 1, endCount := none } : Member).awaiting [shard]) shard 0 bs := by
  have hm : ((s.bump 0x80020).freshShards { x with seqs := 1, endCount := none } [shard]).vault.member =
      some (({ x with seqs := 1, endCount := none } : Member).awaiting [shard]) := congrArg Vault.member (State.freshShards_vault ..)
  unfold State.memberRepair
  rw [if_pos rfl]
  dsimp only
  rw [hm]

theorem Member.find_awaiting {x : Member} {shard : Nat} {r : RxShard} (h : x.shards.find? (fun r => r.shard == shard) = some r) :
    (x.awaiting [shard]).shards.find? (fun r => r.shard == shard) = some (rxShard shard r.length) := by
  have hkeeps : ((fun q : RxShard => q.shard == shard) ∘ fun q => if [shard].contains q.shard then rxShard q.shard q.length else q) =
      fun q => q.shard == shard := by
    funext q
    rw [Function.comp]
    split <;> rfl
  have hshard : r.shard = shard := by simpa using List.find?_some h
  unfold Member.awaiting
  dsimp only
  rw [List.find?_map, hkeeps, h]
  simp [hshard]

/-- A shard awaited from its start, with its first message noted. -/
theorem Member.noted_awaiting {x : Member} {shard : Nat} {q : RxShard} (hq : q ∈ ((x.awaiting [shard]).noted shard 0).shards)
    (hshard : q.shard = shard) : q.got = [0] ∧ q.verified = false := by
  simp only [Member.noted, Member.awaiting, List.map_map, List.mem_map, Function.comp] at hq
  obtain ⟨r, -, rfl⟩ := hq
  by_cases hr : r.shard = shard
  · simp [hr, rxShard]
  · simp [hr] at hshard

theorem does_installRepair {x : Member} {r : RxShard} {page : Nat} (h : s.takes kREPAIR m) (hx : s.ripeInstall.vault.member = some x)
    (htag : x.tag = m.tag.toNat) (hstart : m.offset = 0) (hr : x.shards.find? (fun r => r.shard == m.aux.toNat) = some r)
    (hlen : m.payload.length ≤ r.length) (hslot : s.ripeInstall.vault.freeSlot ≠ none)
    (hpage : (x.pagesOf m.aux.toNat).head? = some page) :
    Does (.installRepair m) s fun t =>
      t.reg 0x80020 = min (s.ripeInstall.reg 0x80020 + 1) 0xFFFFFFFF ∧ ∃ z, t.vault.member = some z ∧ z.seqs = 1 ∧ z.endCount = none ∧
        ∀ q ∈ z.shards, q.shard = m.aux.toNat → q.got = [0] ∧ q.verified = false := by
  have hoff : m.offset.toNat = 0 := by rw [hstart]; rfl
  have hexec : exec (.installRepair m) s =
      .next (s.ripeInstall.memberRepair { x with lastMsg := s.ripeInstall.time.clk } m.aux.toNat m.offset.toNat m.payload) :=
    congrArg Host.Outcome.next ((State.instDeliver_of_takes h _).trans (State.asMember_of_tag hx htag _))
  rw [hoff, State.memberRepair_of_start] at hexec
  obtain ⟨slot, hfree⟩ := Vault.freeSlot_unwant ((x.extent.filter fun e => [m.aux.toNat].contains e.1).map (·.2)) hslot
  have hfresh := State.freshShards_vault (s.ripeInstall.bump 0x80020)
    { x with lastMsg := s.ripeInstall.time.clk, seqs := 1, endCount := none } [m.aux.toNat]
  obtain ⟨hmember, -, -⟩ := State.takePiece_leaves (bs := m.payload) (slot := slot) (page := page)
    (s := (s.ripeInstall.bump 0x80020).freshShards { x with lastMsg := s.ripeInstall.time.clk, seqs := 1, endCount := none } [m.aux.toNat])
    (x := ({ x with lastMsg := s.ripeInstall.time.clk, seqs := 1, endCount := none } : Member).awaiting [m.aux.toNat])
    (off := 0) (Member.find_awaiting hr) ⟨rfl, rfl, by simpa [rxShard] using hlen, List.not_mem_nil⟩ (by rw [hfresh]; exact hfree)
    (by rw [← List.head?_eq_getElem?]; exact hpage)
  refine ⟨_, hexec, ?_, _, hmember, rfl, rfl, fun q hq hshard => Member.noted_awaiting hq hshard⟩
  rw [State.reg_of_regs (State.takePiece_kept.same .regs (by decide)), State.freshShards_reg _ _ _ (by decide), State.reg_bump, if_pos rfl]

end

end Sys2Proof.Machine
end

section
/-! SUPPORT. How a reception at a member goes on and ends: END, COMMIT, ABORT, and the member's timers (R47, R247, R256, R259 to R261). -/
namespace Sys2Proof.Machine

section
variable {s : State} {m : Msg} {x : Member}

/-! ### END (R259) -/

theorem exec_installEnd (h : s.takes kEND m) (hx : s.ripeInstall.vault.member = some x) (htag : x.tag = m.tag.toNat) (hkeeps : x.shards ≠ []) :
    exec (.installEnd m) s = .next (s.ripeInstall.setMember
      { x with lastMsg := s.ripeInstall.time.clk, endCount := some (field m.payload 0 4), endClk := s.ripeInstall.time.clk }) := by
  refine congrArg Host.Outcome.next ((State.instDeliver_of_takes h _).trans ((State.asMember_of_tag hx htag _).trans ?_))
  unfold State.memberEnd
  exact if_neg (by simpa using hkeeps)

/-! ### COMMIT (R247, R260) -/

theorem exec_installCommit (h : s.takes kCOMMIT m) (hx : s.ripeInstall.vault.member = some x) (htag : x.tag = m.tag.toNat) :
    exec (.installCommit m) s = .next (s.ripeInstall.commit { x with lastMsg := s.ripeInstall.time.clk }) :=
  congrArg Host.Outcome.next ((State.instDeliver_of_takes h _).trans (State.asMember_of_tag hx htag _))

/-- A member that has committed answers again. -/
theorem State.commit_of_committed (h : x.committed = true) : s.commit x = s.instMsg kCOMMITTED x.reader x.tag stOK [] := if_pos h

/-- A member whose shards are not all verified commits nothing, nor does a vault whose power fails. -/
theorem State.commit_of_unready {c : CatEntry} (h : x.committed = false) (he : s.entryAt x.entry = some c)
    (hbar : (∃ r ∈ x.shards, r.verified = false) ∨ s.vault.powerFail = true) : s.commit x = s.setMember x := by
  unfold State.commit
  rw [if_neg (by simp [h]), he]
  refine if_pos ?_
  rcases hbar with ⟨r, hr, hv⟩ | hp
  · have hall : x.shards.all (·.verified) = false := List.all_eq_false.2 ⟨r, hr, by simp [hv]⟩
    simp [hall]
  · simp [hp]

/-- The journal at a commit: the pages that a repair replaces are free, the entry commits, and the buffer is programmed. -/
def State.commitJournal (s : State) (old : List (Nat × Nat)) (entry : Nat) : State :=
  ((old.foldl (fun s e => s.journal (.free e.2)) s).journal (.commit entry)).flushJournal

section
variable (s : State) (old : List (Nat × Nat)) (entry : Nat)

theorem State.commitJournal_kept : Kept [.vault] s (s.commitJournal old entry) :=
  State.flushJournal_kept.on (State.journal_kept.on (Kept.foldl _ _ (Kept.refl s) fun _ _ => State.journal_kept))

theorem State.commitJournal_catalogue : (s.commitJournal old entry).vault.catalogue = s.vault.catalogue := by
  unfold State.commitJournal
  rw [State.flushJournal_catalogue, State.journal_catalogue]
  exact (congrArg Vault.catalogue (foldl_journal_noJournal (fun e : Nat × Nat => .free e.2) old s) :)

/-- The commit record is durable. -/
theorem State.commitJournal_durable (h : s.vault.quiescent = false) : (s.commitJournal old entry).vault.buffer = [] ∧
    ∃ j ∈ (s.commitJournal old entry).vault.mirrorA, j ∈ (s.commitJournal old entry).vault.mirrorB ∧ j.what = .commit entry := by
  have hq : (old.foldl (fun s e => s.journal (.free e.2)) s).vault.quiescent = false :=
    (congrArg Vault.quiescent (foldl_journal_noJournal (fun e : Nat × Nat => .free e.2) old s)).trans h
  obtain ⟨hbuffer, hA, hB⟩ := State.flushJournal_journal _ hq (.commit entry)
  exact ⟨hbuffer, _, hA, hB, rfl⟩

end

theorem State.fullStamp_of_time {t : State} (h : t.time = s.time) : t.fullStamp = s.fullStamp := by
  unfold State.fullStamp
  rw [h]

/-- The pages of an entry that a repair's commit replaces. -/
def Member.replaced (x : Member) (c : CatEntry) : List (Nat × Nat) :=
  if x.repair then c.extent.filter (fun (e : Nat × Nat) => (x.shards.map (·.shard)).contains e.1) else []

/-- The vault after a commit: the journal, the entry as committed, the member past COMMIT, and no page reserved. -/
theorem State.commit_of_ready {c : CatEntry} (h : x.committed = false) (he : s.entryAt x.entry = some c)
    (hall : ∀ r ∈ x.shards, r.verified = true) (hp : s.vault.powerFail = false) :
    (s.commit x).vault = { ((s.commitJournal (x.replaced c) c.index).setEntry (committedEntry x c s.fullStamp)).vault with
      member := some { x with committed := true }, reserved := [] } := by
  have hverified : x.shards.all (·.verified) = true := List.all_eq_true.2 hall
  have hstamp : (s.commitJournal (x.replaced c) c.index).fullStamp = s.fullStamp :=
    State.fullStamp_of_time ((s.commitJournal_kept _ _).same .time (by decide))
  unfold State.commit
  rw [if_neg (by simp [h]), he]
  dsimp only
  rw [if_neg (by simp [hverified, hp]), State.instMsg_vault, State.setVault_vault, State.hand_vault, ← hstamp]
  rfl

/-- The entry at an index after it was replaced. -/
theorem State.entryAt_setEntry {n c : CatEntry} (h : s.entryAt n.index = some c) : (s.setEntry n).entryAt n.index = some n := by
  have hkeeps : ((fun d : CatEntry => d.index == n.index) ∘ fun d => if d.index == n.index then n else d) = fun d => d.index == n.index := by
    funext d
    rw [Function.comp]
    split
    next hd => rw [hd, beq_self_eq_true]
    next => rfl
  have hc : c.index = n.index := State.entryAt_index h
  unfold State.entryAt at h ⊢
  show (s.vault.catalogue.map _).find? _ = _
  rw [List.find?_map, hkeeps, h]
  simp [hc]

/-- The entry is COMMITTED once it owes no shard, and STALE before (R260, R266). -/
theorem committedEntry_state (x : Member) (c : CatEntry) (now : List Byte) :
    ((committedEntry x c now).state = 3 ∨ (committedEntry x c now).state = 4) ∧
    ((committedEntry x c now).state = 3 ↔ (committedEntry x c now).owed = []) := by
  have hstate : (committedEntry x c now).state = if (committedEntry x c now).owed.isEmpty then 3 else 4 := rfl
  rw [hstate, ← List.isEmpty_iff]
  cases (committedEntry x c now).owed.isEmpty <;> simp

theorem does_installCommit {c : CatEntry} (h : s.takes kCOMMIT m) (hx : s.ripeInstall.vault.member = some x) (htag : x.tag = m.tag.toNat)
    (hopen : x.committed = false) (he : s.ripeInstall.entryAt x.entry = some c) (hall : ∀ r ∈ x.shards, r.verified = true)
    (hp : s.ripeInstall.vault.powerFail = false) (hq : s.ripeInstall.vault.quiescent = false) :
    Does (.installCommit m) s fun t =>
      t.vault.member = some { x with lastMsg := s.ripeInstall.time.clk, committed := true } ∧ t.vault.reserved = [] ∧ t.vault.buffer = [] ∧
      (∃ j ∈ t.vault.mirrorA, j ∈ t.vault.mirrorB ∧ j.what = .commit c.index) ∧
      ∃ n, t.entryAt x.entry = some n ∧ (n.state = 3 ∨ n.state = 4) ∧ (n.state = 3 ↔ n.owed = []) ∧ n.stamp = s.ripeInstall.fullStamp ∧
        n.gen = c.gen := by
  have hvault := State.commit_of_ready (x := { x with lastMsg := s.ripeInstall.time.clk }) hopen he hall hp
  obtain ⟨hbuffer, hdurable⟩ := s.ripeInstall.commitJournal_durable (x.replaced c) c.index hq
  have hindex : c.index = x.entry := State.entryAt_index he
  have hthere : (s.ripeInstall.commitJournal (x.replaced c) c.index).entryAt c.index = some c := by
    rw [State.entryAt, State.commitJournal_catalogue, ← he, hindex]
    rfl
  have hentry := State.entryAt_setEntry (n := committedEntry { x with lastMsg := s.ripeInstall.time.clk } c s.ripeInstall.fullStamp) hthere
  obtain ⟨hstate, howed⟩ := committedEntry_state { x with lastMsg := s.ripeInstall.time.clk } c s.ripeInstall.fullStamp
  refine ⟨_, exec_installCommit h hx htag, ?_⟩
  unfold State.entryAt
  dsimp only
  rw [hvault, ← hindex]
  exact ⟨rfl, rfl, hbuffer, hdurable, _, hentry, hstate, howed, rfl, rfl⟩

/-! ### ABORT (R256, R261) -/

/-- The BEGINs of which not every message has come, without those of a tag. -/
def State.forgetBegins (s : State) (tag : Nat) : State := s.setVault { s.vault with begins := s.vault.begins.filter fun b => b.tag ≠ tag }

theorem exec_installAbort (h : s.takes kABORT m) (hx : s.ripeInstall.vault.member = some x) (htag : x.tag = m.tag.toNat) :
    exec (.installAbort m) s =
      .next ((s.ripeInstall.forgetBegins m.tag.toNat).abandonMember { x with lastMsg := s.ripeInstall.time.clk }) :=
  congrArg Host.Outcome.next ((State.instDeliver_of_takes h _).trans
    (State.asMember_of_tag (s := s.ripeInstall.forgetBegins m.tag.toNat) hx htag _))

theorem does_installAbort (h : s.takes kABORT m) (hx : s.ripeInstall.vault.member = some x) (htag : x.tag = m.tag.toNat)
    (hopen : x.committed = false) : Does (.installAbort m) s fun t => t.vault.member = none ∧ t.vault.reserved = [] ∧
      (x.created = false → t.vault.catalogue = s.ripeInstall.vault.catalogue) ∧
      ∀ c, x.created = true → s.ripeInstall.entryAt x.entry = some c → t.entryAt x.entry = none ∧
        ((c.state = 1 ∨ c.state = 2) → t.reg 0x80028 = min (s.ripeInstall.reg 0x80028 + 1) 0xFFFFFFFF) := by
  refine ⟨_, exec_installAbort h hx htag, State.abandonMember_member hopen, State.abandonMember_reserved hopen, fun hcreated => ?_,
    fun c hcreated he => State.abandonMember_created (s := s.ripeInstall.forgetBegins m.tag.toNat)
      (x := { x with lastMsg := s.ripeInstall.time.clk }) hopen hcreated he⟩
  exact (State.abandonMember_catalogue (s := s.ripeInstall.forgetBegins m.tag.toNat)
    (x := { x with lastMsg := s.ripeInstall.time.clk }) hopen).trans (if_neg (by simp [hcreated]))

theorem exec_installAbort_of_other (h : s.takes kABORT m) (hother : ∀ x, s.ripeInstall.vault.member = some x → x.tag ≠ m.tag.toNat)
    (hbegins : s.ripeInstall.vault.begins = []) : exec (.installAbort m) s = .next (s.ripeInstall.bump 0x80028) := by
  have hnone : s.ripeInstall.forgetBegins m.tag.toNat = s.ripeInstall := by
    unfold State.forgetBegins
    rw [hbegins, List.filter_nil, ← hbegins]
    rfl
  refine congrArg Host.Outcome.next ((State.instDeliver_of_takes h _).trans ?_)
  show (s.ripeInstall.forgetBegins m.tag.toNat).asMember m State.abandonMember = _
  rw [hnone, State.asMember_of_other hother]

/-! ### The member's timers (R47, R259, R261) -/

theorem exec_reportTimer (hx : s.vault.member = some x) : exec .reportTimer s =
    .next (if x.lacks && !x.checked then s.atTimer (x.endClk + 10000000) fun s => s.reportDue x else s) := by
  show Host.Outcome.next _ = _
  rw [hx]

theorem exec_reportTimer_of_idle (hx : s.vault.member = some x)
    (h : x.lacks = false ∨ x.checked = true ∨ s.fallsDue (x.endClk + 10000000) = false) : exec .reportTimer s = .next s := by
  rw [exec_reportTimer hx]
  rcases h with h | h | h
  · simp [h]
  · simp [h]
  · rw [State.atTimer_of_later h, ite_self]

/-- A REPORT ends what END counted; listed shards are awaited from their start. -/
theorem State.report_member (x : Member) : (s.report x).vault.member = some (({ x with endCount := none } : Member).awaiting x.failing) := by
  have hfresh : (s.freshShards { x with endCount := none } x.failing).vault.member =
      some (({ x with endCount := none } : Member).awaiting x.failing) :=
    (congrArg Vault.member (State.freshShards_vault ..) :)
  unfold State.report
  dsimp only
  rw [State.instMsg_vault, ← hfresh]
  split
  · split
    · unfold State.entryState
      rw [State.hand_vault]
      rfl
    · rfl
  · rfl

theorem State.reportDue_member (x : Member) : ∃ z, (s.reportDue x).vault.member = some z ∧ z.endCount = none ∧ z.tag = x.tag ∧
    (x.failing = [] → z = { x with endCount := none }) := by
  unfold State.reportDue
  split
  · exact ⟨_, rfl, rfl, rfl, fun _ => rfl⟩
  next hf => exact ⟨_, State.report_member x, rfl, rfl, fun h => absurd (by simp [h]) hf⟩

theorem does_reportTimer (hx : s.vault.member = some x) (hlacks : x.lacks = true) (hchecked : x.checked = false)
    (hdue : s.fallsDue (x.endClk + 10000000) = true) : Does .reportTimer s fun t =>
      t.time = (s.runTo (x.endClk + 10000000)).time ∧ ∃ z, t.vault.member = some z ∧ z.endCount = none ∧ z.tag = x.tag ∧
        (x.failing = [] → z = { x with endCount := none }) := by
  refine ⟨_, exec_reportTimer hx, ?_⟩
  rw [if_pos (by simp [hlacks, hchecked]), State.atTimer_of_due hdue]
  exact ⟨State.reportDue_kept.same .time (by decide), State.reportDue_member x⟩

theorem exec_inactivityTimeout (hx : s.vault.member = some x) : exec .installInactivityTimeout s =
    .next (if x.committed then s else s.atTimer x.due fun s => s.abandonMember x) := by
  show Host.Outcome.next _ = _
  rw [hx]

theorem exec_inactivityTimeout_of_idle (hx : s.vault.member = some x) (h : x.committed = true ∨ s.fallsDue x.due = false) :
    exec .installInactivityTimeout s = .next s := by
  rw [exec_inactivityTimeout hx]
  rcases h with h | h
  · rw [if_pos h]
  · rw [State.atTimer_of_later h, ite_self]

theorem does_inactivityTimeout (hx : s.vault.member = some x) (hopen : x.committed = false) (hdue : s.fallsDue x.due = true) :
    Does .installInactivityTimeout s fun t => t.vault.member = none ∧ t.vault.reserved = [] ∧ t.time = (s.runTo x.due).time := by
  refine ⟨_, exec_inactivityTimeout hx, ?_⟩
  rw [if_neg (by simp [hopen]), State.atTimer_of_due hdue]
  exact ⟨State.abandonMember_member hopen, State.abandonMember_reserved hopen, State.abandonMember_kept.same .time (by decide)⟩

end

end Sys2Proof.Machine
end

section
/-! SUPPORT. The reader of an installation: what its members' messages do (R257 to R260), the resent COMMIT and its timeouts (R47). -/
namespace Sys2Proof.Machine

section
variable {s : State} {m : Msg} {r : Reader}

/-- The reader replaced. -/
def State.setReader (s : State) (o : Option Reader) : State := s.setVault { s.vault with reader := o }

theorem State.asReader_of_tag (hr : s.vault.reader = some r) (htag : r.tag = m.tag.toNat)
    (act : State → Reader → (State → Option Reader → State) → State) : s.asReader m act = act s r State.setReader := by
  unfold State.asReader
  rw [hr]
  exact if_pos htag

/-- A message of another tag is counted and discarded (R256). -/
theorem State.asReader_of_other (hr : s.vault.reader = some r) (htag : r.tag ≠ m.tag.toNat) (hrepair : s.vault.repair = none)
    (act : State → Reader → (State → Option Reader → State) → State) : s.asReader m act = s.bump 0x80028 := by
  unfold State.asReader
  rw [hr, hrepair]
  exact if_neg htag

/-- What a message to the reader does. -/
theorem State.instDeliver_asReader {kind : Nat} (h : s.takes kind m) (hr : s.ripeInstall.vault.reader = some r) (htag : r.tag = m.tag.toNat)
    (act : State → Reader → (State → Option Reader → State) → State) :
    s.instDeliver kind m (fun s => s.asReader m act) = act s.ripeInstall r State.setReader :=
  (State.instDeliver_of_takes h _).trans (State.asReader_of_tag hr htag act)

theorem State.instDeliver_asReader_of_other {kind : Nat} (h : s.takes kind m) (hr : s.ripeInstall.vault.reader = some r)
    (htag : r.tag ≠ m.tag.toNat) (hrepair : s.ripeInstall.vault.repair = none)
    (act : State → Reader → (State → Option Reader → State) → State) :
    s.instDeliver kind m (fun s => s.asReader m act) = s.ripeInstall.bump 0x80028 :=
  (State.instDeliver_of_takes h _).trans (State.asReader_of_other hr htag hrepair act)

/-! ### Peers -/

theorem Reader.silent_iff : r.silent = true ↔ ∃ p ∈ r.peers, p.answered = false := by
  simp [Reader.silent]

/-- Every peer after a reply is one before it, changed where the reply is its own. -/
theorem Reader.mem_setPeer {f : Peer → Peer} {q : Peer} : q ∈ (r.setPeer m f).peers ↔
    ∃ p ∈ r.peers, (if p.module = msgModule m then f p else p) = q := by
  simp [Reader.setPeer]

/-- What a reply makes of a peer holds of every peer of the module that sent it. -/
theorem Reader.setPeer_holds {f : Peer → Peer} {P : Peer → Prop} (hP : ∀ p, P (f p)) {q : Peer}
    (hq : q ∈ (r.setPeer m f).peers) (hsent : q.module = msgModule m) : P q := by
  obtain ⟨p, -, rfl⟩ := Reader.mem_setPeer.1 hq
  by_cases hp : p.module = msgModule m
  · rw [if_pos hp]
    exact hP p
  · rw [if_neg hp] at hsent
    exact absurd hsent hp

/-- The first peer of a module after its reply. -/
theorem Reader.find_setPeer {f : Peer → Peer} (hmodule : ∀ p, (f p).module = p.module) {p : Peer}
    (h : r.peers.find? (fun p => p.module == msgModule m) = some p) :
    (r.setPeer m f).peers.find? (fun p => p.module == msgModule m) = some (f p) := by
  have hkeeps : ((fun p : Peer => p.module == msgModule m) ∘ fun p => if p.module == msgModule m then f p else p) =
      fun p => p.module == msgModule m := by
    funext p
    rw [Function.comp]
    split
    · rw [hmodule]
    · rfl
  have hp : p.module = msgModule m := by simpa using List.find?_some h
  unfold Reader.setPeer
  dsimp only
  rw [List.find?_map, hkeeps, h]
  simp [hp]

/-! ### What streams (R257, R258) -/

/-- A reader with what sending changes blanked: the queue, the sequence number, the credits of its members, and whether all is sent. -/
def Reader.unsent (r : Reader) : Reader :=
  { r with queue := [], seq := 0, ended := false, peers := r.peers.map fun p => { p with credits := 0 } }

/-- A reader that has sent a piece to some of its peers. -/
def Reader.sending (r : Reader) (q : Send) (who : List Peer) : Reader :=
  { r with seq := if q.target.isNone then r.seq + 1 else r.seq,
           peers := r.peers.map fun p => if who.contains p then { p with credits := p.credits - 1 } else p,
           ended := r.ended || (q.last && q.target.isNone) }

theorem Reader.sending_unsent (r : Reader) (q : Send) (who : List Peer) : (r.sending q who).unsent = r.unsent := by
  have hpeers : (r.sending q who).peers.map (fun p => { p with credits := 0 }) = r.peers.map fun p => { p with credits := 0 } := by
    unfold Reader.sending
    dsimp only
    rw [List.map_map]
    refine List.map_congr_left fun p _ => ?_
    rw [Function.comp]
    split <;> rfl
  unfold Reader.unsent
  rw [hpeers]
  rfl

/-- What a piece at the front of the queue comes to: its shard is not there, a peer has no credit, a page of a repair's source cannot be
read, or it is sent. -/
theorem State.pump_cons_cases (s : State) (r : Reader) (q : Send) (l : List Send) (reads : List Check) :
    s.pump r (q :: l) reads = s.pump r l reads ∨ s.pump r (q :: l) reads = (s, { r with queue := q :: l }, true) ∨
    (r.isRepair = true ∧ ∃ t, s.pump r (q :: l) reads = (t, r, false)) ∨
    ∃ (t : State) (who : List Peer) (rest : List Check), s.pump r (q :: l) reads = t.pump (r.sending q who) l rest := by
  rw [State.pump]
  cases r.shards.find? fun h => h.index == q.shard with
  | none => exact .inl rfl
  | some h =>
    dsimp only
    refine .inr ?_
    rcases hread : (if r.isRepair then s.readVault [nth 0 (s.sourcePages r q.shard) (q.off / 65536)] reads else (true, reads, s))
      with ⟨ok, rest, t⟩
    apply iteInduction (motive := fun p => p = (s, { r with queue := q :: l }, true) ∨ (r.isRepair = true ∧ ∃ t, p = (t, r, false)) ∨
      ∃ (t : State) (who : List Peer) (rest : List Check), p = t.pump (r.sending q who) l rest) (fun _ => .inl rfl)
    refine fun _ => .inr ?_
    cases ok with
    | false =>
      refine .inl ⟨?_, t, rfl⟩
      by_contra hrep
      rw [if_neg hrep] at hread
      cases hread
    | true => exact .inr ⟨_, _, _, rfl⟩

/-- Sending takes credits and numbers; nothing else of the reader changes. -/
theorem State.pump_unsent (l : List Send) (s : State) (r : Reader) (reads : List Check) : (s.pump r l reads).2.1.unsent = r.unsent := by
  induction l generalizing s r reads with
  | nil => rfl
  | cons q l ih =>
    obtain h | h | ⟨-, t, h⟩ | ⟨t, who, rest, h⟩ := s.pump_cons_cases r q l reads
    · rw [h, ih]
    · rw [h]; rfl
    · rw [h]
    · rw [h, ih, Reader.sending_unsent]

/-- Reading a host's image meets no shard fault. -/
theorem State.pump_of_image (l : List Send) (s : State) (r : Reader) (reads : List Check) (hrep : r.isRepair = false) :
    (s.pump r l reads).2.2 = true := by
  induction l generalizing s r reads with
  | nil => rfl
  | cons q l ih =>
    obtain h | h | ⟨hr, -⟩ | ⟨t, who, rest, h⟩ := s.pump_cons_cases r q l reads
    · rw [h, ih _ _ _ hrep]
    · rw [h]
    · rw [hrep] at hr; cases hr
    · rw [h, ih _ (r.sending q who) _ hrep]

theorem State.stream_of_image (h : r.isRepair = false) (q : List Send) (reads : List Check) (put : State → Option Reader → State) :
    s.stream r q reads put = put (s.pump r q reads).1 (some (s.pump r q reads).2.1) := by
  have hall := State.pump_of_image q s r reads h
  unfold State.stream
  generalize s.pump r q reads = p at hall ⊢
  obtain ⟨t, q, ok⟩ := p
  obtain rfl : ok = true := hall
  rfl

theorem Reader.tag_of_unsent {q : Reader} (h : q.unsent = r.unsent) : q.tag = r.tag := (congrArg Reader.tag h :)
theorem Reader.shards_of_unsent {q : Reader} (h : q.unsent = r.unsent) : q.shards = r.shards := (congrArg Reader.shards h :)

/-- A peer after sending is one before, but for its credits. -/
theorem Reader.peer_of_unsent {q : Reader} (h : q.unsent = r.unsent) {p : Peer} (hp : p ∈ q.peers) :
    ∃ p' ∈ r.peers, p'.module = p.module ∧ p'.answered = p.answered := by
  have hpeers : q.peers.map (fun p => { p with credits := 0 }) = r.peers.map fun p => { p with credits := 0 } :=
    (congrArg Reader.peers h :)
  have hmem : { p with credits := 0 } ∈ r.peers.map fun p => { p with credits := 0 } := hpeers ▸ List.mem_map_of_mem hp
  obtain ⟨p', hp', heq⟩ := List.mem_map.1 hmem
  exact ⟨p', hp', (congrArg Peer.module heq :), (congrArg Peer.answered heq :)⟩

/-! ### ACCEPT, REFUSE and CREDIT (R257, R258) -/

/-- The reader with an acceptance noted. -/
def Reader.accepted (r : Reader) (m : Msg) : Reader := r.setPeer m fun p => { p with answered := true }

theorem exec_installAccept (h : s.takes kACCEPT m) (hr : s.ripeInstall.vault.reader = some r) (htag : r.tag = m.tag.toNat)
    (reads : List Check) : ∃ l, exec (.installAccept m reads) s = .next (if r.silent && !(r.accepted m).silent then
      s.ripeInstall.stream (r.accepted m) l reads State.setReader else s.ripeInstall.setReader (some (r.accepted m))) :=
  ⟨_, congrArg Host.Outcome.next (State.instDeliver_asReader h hr htag _)⟩

theorem does_installAccept (h : s.takes kACCEPT m) (hr : s.ripeInstall.vault.reader = some r) (htag : r.tag = m.tag.toNat)
    (hrep : r.isRepair = false) (reads : List Check) : Does (.installAccept m reads) s fun t =>
      ∃ q, t.vault.reader = some q ∧ q.tag = r.tag ∧ q.shards = r.shards ∧
        (∀ p ∈ q.peers, p.module = msgModule m → p.answered = true) ∧
        ((∃ p ∈ r.peers, p.answered = false ∧ p.module ≠ msgModule m) → q.queue = r.queue ∧ t.out = s.ripeInstall.out) := by
  obtain ⟨l, hexec⟩ := exec_installAccept h hr htag reads
  have hanswered : ∀ p ∈ (r.accepted m).peers, p.module = msgModule m → p.answered = true := fun p =>
    Reader.setPeer_holds (P := fun p => p.answered = true) fun _ => rfl
  refine ⟨_, hexec, ?_⟩
  cases hall : r.silent && !(r.accepted m).silent with
  | false =>
    rw [if_neg Bool.false_ne_true]
    exact ⟨_, rfl, rfl, rfl, hanswered, fun _ => ⟨rfl, rfl⟩⟩
  | true =>
    have hun := State.pump_unsent l s.ripeInstall (r.accepted m) reads
    rw [if_pos rfl, State.stream_of_image (r := r.accepted m) hrep]
    refine ⟨_, rfl, Reader.tag_of_unsent (r := r.accepted m) hun, Reader.shards_of_unsent (r := r.accepted m) hun,
      fun p hp hsent => ?_, fun ⟨p, hp, hsilent, hother⟩ => ?_⟩
    · obtain ⟨p', hp', hmodule, hsame⟩ := Reader.peer_of_unsent hun hp
      exact hsame ▸ hanswered p' hp' (hmodule.trans hsent)
    · have hstill : (r.accepted m).silent = true :=
        Reader.silent_iff.2 ⟨p, Reader.mem_setPeer.2 ⟨p, hp, if_neg hother⟩, hsilent⟩
      simp [hstill] at hall

theorem exec_installRefuse (h : s.takes kREFUSE m) (hr : s.ripeInstall.vault.reader = some r) (htag : r.tag = m.tag.toNat) :
    exec (.installRefuse m) s = .next (if r.ended || r.committing then s.ripeInstall else
      s.ripeInstall.abortReader r m.status.toNat (msgModule m)) :=
  congrArg Host.Outcome.next (State.instDeliver_asReader h hr htag _)

theorem exec_installRefuse_of_late (h : s.takes kREFUSE m) (hr : s.ripeInstall.vault.reader = some r) (htag : r.tag = m.tag.toNat)
    (hlate : r.ended = true ∨ r.committing = true) : exec (.installRefuse m) s = .next s.ripeInstall := by
  rw [exec_installRefuse h hr htag, if_pos (by simpa using hlate)]

theorem does_installRefuse (h : s.takes kREFUSE m) (hr : s.ripeInstall.vault.reader = some r) (htag : r.tag = m.tag.toNat)
    (hrep : r.isRepair = false) (hended : r.ended = false) (hcommit : r.committing = false) :
    Does (.installRefuse m) s fun t => t.vault = { s.ripeInstall.vault with reader := none } := by
  refine ⟨_, exec_installRefuse h hr htag, ?_⟩
  rw [if_neg (by simp [hended, hcommit])]
  exact State.abortReader_vault hrep _ _

/-- The reader with a member's credits noted. -/
def Reader.credited (r : Reader) (m : Msg) : Reader := r.setPeer m fun p => { p with credits := p.credits + field m.payload 0 4 }

theorem exec_installCredit (h : s.takes kCREDIT m) (hr : s.ripeInstall.vault.reader = some r) (htag : r.tag = m.tag.toNat)
    (reads : List Check) : exec (.installCredit m reads) s =
      .next (s.ripeInstall.stream (r.credited m) (r.credited m).queue reads State.setReader) :=
  congrArg Host.Outcome.next (State.instDeliver_asReader h hr htag _)

/-- Where nothing is left to send, a credit is noted. -/
theorem does_installCredit (h : s.takes kCREDIT m) (hr : s.ripeInstall.vault.reader = some r) (htag : r.tag = m.tag.toNat)
    (hrep : r.isRepair = false) (hqueue : r.queue = []) (reads : List Check) : Does (.installCredit m reads) s fun t =>
      t.vault.reader = some (r.credited m) ∧ t.out = s.ripeInstall.out := by
  have hsame : { r.credited m with queue := [] } = r.credited m := by
    rw [← hqueue]
    rfl
  refine ⟨_, exec_installCredit h hr htag reads, ?_⟩
  rw [State.stream_of_image (r := r.credited m) hrep, show (r.credited m).queue = [] from hqueue, State.pump, hsame]
  exact ⟨rfl, rfl⟩

/-! ### REPORT (R259, R260) -/

theorem exec_installReport (h : s.takes kREPORT m) (hr : s.ripeInstall.vault.reader = some r) (htag : r.tag = m.tag.toNat)
    (reads : List Check) : exec (.installReport m reads) s = .next (s.ripeInstall.takeReport r m reads State.setReader) :=
  congrArg Host.Outcome.next (State.instDeliver_asReader h hr htag _)

theorem State.takeReport_of_committing (h : r.committing = true) (reads : List Check) (put : State → Option Reader → State) :
    s.takeReport r m reads put = s := if_pos h

/-- The reader with a member's VERIFIED noted. -/
def Reader.verified (r : Reader) (m : Msg) : Reader := r.setPeer m fun p => { p with verified := true, reported := true }

/-- VERIFIED of the last member brings COMMIT. -/
theorem State.takeReport_of_verified (hopen : r.committing = false) (hstatus : m.status = 0) (hlist : m.payload = []) (reads : List Check)
    (put : State → Option Reader → State) : s.takeReport r m reads put =
      if (r.verified m).peers.all (·.verified) then
        put (if (r.verified m).isRepair then s.sendCommit { r.verified m with committing := true, begun := s.time.clk }
          else s.instAll kCOMMIT r.tag Msg.blank) (some { r.verified m with committing := true, begun := s.time.clk })
      else put s (some (r.verified m)) := by
  unfold State.takeReport
  rw [if_neg (by simp [hopen])]
  dsimp only
  rw [if_pos (by simp [hstatus, hlist, pieces])]
  rfl

theorem does_installReport_verified (h : s.takes kREPORT m) (hr : s.ripeInstall.vault.reader = some r) (htag : r.tag = m.tag.toNat)
    (hopen : r.committing = false) (hstatus : m.status = 0) (hlist : m.payload = []) (reads : List Check) :
    Does (.installReport m reads) s fun t => ∃ q, t.vault.reader = some q ∧
      (∀ p ∈ q.peers, p.module = msgModule m → p.verified = true) ∧ (q.committing = true ↔ ∀ p ∈ q.peers, p.verified = true) := by
  have hnoted : ∀ p ∈ (r.verified m).peers, p.module = msgModule m → p.verified = true := fun p =>
    Reader.setPeer_holds (P := fun p => p.verified = true) fun _ => rfl
  refine ⟨_, exec_installReport h hr htag reads, ?_⟩
  rw [State.takeReport_of_verified hopen hstatus hlist]
  cases hall : (r.verified m).peers.all (·.verified) with
  | true =>
    rw [if_pos rfl]
    exact ⟨_, rfl, hnoted, fun _ => List.all_eq_true.1 hall, fun _ => rfl⟩
  | false =>
    have hcommit : (r.verified m).committing = false := hopen
    have hnot : ¬ ∀ p ∈ (r.verified m).peers, p.verified = true := fun hv => by simp [List.all_eq_true.2 hv] at hall
    rw [if_neg Bool.false_ne_true]
    exact ⟨_, rfl, hnoted, by simp [hcommit, hnot]⟩

/-- A REPORT's list of one shard. -/
theorem reportList_single {bs : List Byte} {n : Nat} (h : bs = leBytes 2 n) (hn : n < 65536) :
    (pieces 2 (bs.length / 2) bs).map leNat = [n] := by
  subst h
  simp [pieces, leBytes, leNat]
  omega

theorem mem_of_findKey {α : Type} {l : List (Nat × α)} {k : Nat} {v : α} (h : findKey l k = some v) : ∃ e ∈ l, e.2 = v := by
  obtain ⟨e, he, hv⟩ := Option.map_eq_some_iff.1 h
  exact ⟨e, List.mem_of_find?_eq_some he, hv⟩

/-- A peer with one more failure of each of some shards. -/
def Peer.failedOn (p : Peer) (bad : List Nat) : Peer :=
  { p with reported := true, fails := bad.foldl (fun l n => putKey l n ((findKey l n).getD 0 + 1)) p.fails }

theorem Peer.failedOn_exhausted {p : Peer} {n : Nat} (h : findKey p.fails n = some 4) :
    ((p.failedOn [n]).fails.any fun f => f.2 ≥ 5) = true := by
  have hfive : findKey (p.failedOn [n]).fails n = some 5 := by
    unfold Peer.failedOn
    dsimp only
    rw [List.foldl_cons, List.foldl_nil, h, findKey_putKey, if_pos rfl]
    rfl
  obtain ⟨e, he, hv⟩ := mem_of_findKey hfive
  exact List.any_eq_true.2 ⟨e, he, by simp [hv]⟩

/-- A member's fifth failure on a shard ends the installation. -/
theorem State.takeReport_of_exhausted {p : Peer} {n : Nat} (hopen : r.committing = false)
    (hp : r.peers.find? (fun p => p.module == msgModule m) = some p) (hlist : m.payload = leBytes 2 n) (hn : n < 65536)
    (hfails : findKey p.fails n = some 4) (reads : List Check) (put : State → Option Reader → State) :
    s.takeReport r m reads put = s.abortReader (r.setPeer m (·.failedOn [n])) stREPAIR_EXHAUSTED 0x7FF := by
  have hfind := Reader.find_setPeer (f := (·.failedOn [n])) (fun _ => rfl) hp
  unfold Peer.failedOn at hfind
  unfold State.takeReport
  rw [if_neg (by simp [hopen])]
  dsimp only
  rw [reportList_single hlist hn, if_neg (by simp)]
  rw [hfind]
  exact if_pos (Peer.failedOn_exhausted hfails)

theorem does_installReport_exhausted {p : Peer} {n : Nat} (h : s.takes kREPORT m) (hr : s.ripeInstall.vault.reader = some r)
    (htag : r.tag = m.tag.toNat) (hrep : r.isRepair = false) (hopen : r.committing = false)
    (hp : r.peers.find? (fun p => p.module == msgModule m) = some p) (hlist : m.payload = leBytes 2 n) (hn : n < 65536)
    (hfails : findKey p.fails n = some 4) (reads : List Check) :
    Does (.installReport m reads) s fun t => t.vault.reader = none := by
  refine ⟨_, exec_installReport h hr htag reads, ?_⟩
  dsimp only
  rw [State.takeReport_of_exhausted hopen hp hlist hn hfails, State.abortReader_vault (r := r.setPeer m (·.failedOn [n])) hrep]

/-! ### COMMITTED (R260) -/

/-- The reader with a member's COMMITTED noted. -/
def Reader.committedBy (r : Reader) (m : Msg) : Reader := r.setPeer m fun p => { p with committed := true }

theorem exec_installCommitted (h : s.takes kCOMMITTED m) (hr : s.ripeInstall.vault.reader = some r) (htag : r.tag = m.tag.toNat) :
    exec (.installCommitted m) s = .next (if r.committing && (r.committedBy m).peers.all (·.committed) then
      s.ripeInstall.finishReader (r.committedBy m) stOK 0x7FF else s.ripeInstall.setReader (some (r.committedBy m))) :=
  congrArg Host.Outcome.next (State.instDeliver_asReader h hr htag _)

theorem does_installCommitted (h : s.takes kCOMMITTED m) (hr : s.ripeInstall.vault.reader = some r) (htag : r.tag = m.tag.toNat)
    (hrep : r.isRepair = false) (hcommit : r.committing = true)
    (hothers : ∀ p ∈ r.peers, p.module ≠ msgModule m → p.committed = true) :
    Does (.installCommitted m) s fun t => t.vault = { s.ripeInstall.vault with reader := none } := by
  have hall : (r.committedBy m).peers.all (·.committed) = true := by
    refine List.all_eq_true.2 fun q hq => ?_
    obtain ⟨p, hp, rfl⟩ := Reader.mem_setPeer.1 hq
    split
    next => rfl
    next hother => exact hothers p hp hother
  refine ⟨_, exec_installCommitted h hr htag, ?_⟩
  rw [if_pos (by simp [hcommit, hall])]
  exact State.finishReader_vault (r := r.committedBy m) hrep _ _

theorem exec_installCommitted_of_early (h : s.takes kCOMMITTED m) (hr : s.ripeInstall.vault.reader = some r) (htag : r.tag = m.tag.toNat)
    (hcommit : r.committing = false) : exec (.installCommitted m) s = .next (s.ripeInstall.setReader (some (r.committedBy m))) := by
  rw [exec_installCommitted h hr htag, if_neg (by simp [hcommit])]

/-! ### The reader's timers (R47, R257, R260) -/

theorem exec_acceptWaitTimeout (hr : s.vault.reader = some r) : exec .acceptWaitTimeout s =
    .next (if r.silent then s.atTimer (r.begun + 100000000) fun s => s.acceptWait r else s) := by
  show Host.Outcome.next _ = _
  rw [hr]

theorem exec_acceptWaitTimeout_of_idle (hr : s.vault.reader = some r)
    (h : r.silent = false ∨ s.fallsDue (r.begun + 100000000) = false) : exec .acceptWaitTimeout s = .next s := by
  rw [exec_acceptWaitTimeout hr]
  rcases h with h | h
  · rw [if_neg (by simp [h])]
  · rw [State.atTimer_of_later h, ite_self]

theorem does_acceptWaitTimeout (hr : s.vault.reader = some r) (hrep : r.isRepair = false) (hsilent : r.silent = true)
    (hdue : s.fallsDue (r.begun + 100000000) = true) : Does .acceptWaitTimeout s fun t =>
      t.vault = { s.vault with reader := none } ∧ t.time = (s.runTo (r.begun + 100000000)).time := by
  refine ⟨_, exec_acceptWaitTimeout hr, ?_⟩
  rw [if_pos hsilent, State.atTimer_of_due hdue]
  exact ⟨(State.abortReader_vault hrep _ _).trans (by rw [State.runTo_vault]), State.acceptWait_kept.same .time (by decide)⟩

theorem exec_commitResend (hr : s.vault.reader = some r) : exec .commitResend s = .next (s.resendCommit r State.setReader) := by
  show Host.Outcome.next _ = _
  rw [hr]
  rfl

theorem exec_commitResend_of_idle (hr : s.vault.reader = some r)
    (h : r.committing = false ∨ s.fallsDue (r.begun + 10000000) = false) : exec .commitResend s = .next s := by
  rw [exec_commitResend hr]
  unfold State.resendCommit
  rcases h with h | h
  · rw [if_pos (by simp [h])]
  · rw [State.atTimer_of_later h, ite_self]

theorem does_commitResend (hr : s.vault.reader = some r) (hcommit : r.committing = true)
    (hdue : s.fallsDue (r.begun + 10000000) = true) : Does .commitResend s fun t =>
      t.time = (s.runTo (r.begun + 10000000)).time ∧ t.vault = { s.vault with reader := some { r with begun := t.time.clk } } := by
  refine ⟨_, exec_commitResend hr, ?_⟩
  unfold State.resendCommit
  rw [if_neg (by simp [hcommit]), State.atTimer_of_due hdue]
  have htime : ((s.runTo (r.begun + 10000000)).sendCommit r).time = (s.runTo (r.begun + 10000000)).time :=
    State.sendCommit_kept.same .time (by decide)
  have hvault : ((s.runTo (r.begun + 10000000)).sendCommit r).vault = s.vault :=
    (State.sendCommit_kept.same .vault (by decide)).trans State.runTo_vault
  refine ⟨htime, ?_⟩
  show { ((s.runTo (r.begun + 10000000)).sendCommit r).vault with
    reader := some { r with begun := (s.runTo (r.begun + 10000000)).time.clk } } =
      { s.vault with reader := some { r with begun := ((s.runTo (r.begun + 10000000)).sendCommit r).time.clk } }
  rw [hvault, htime]

theorem exec_readerTimeout (hr : s.vault.reader = some r) :
    exec .installReaderTimeout s = .next (s.atTimer r.timeout fun s => s.readerEnds r) := by
  show Host.Outcome.next _ = _
  rw [hr]
  rfl

theorem does_readerTimeout (hr : s.vault.reader = some r) (hrep : r.isRepair = false) (hdue : s.fallsDue r.timeout = true) :
    Does .installReaderTimeout s fun t => t.vault = { s.vault with reader := none } ∧ t.time = (s.runTo r.timeout).time := by
  refine ⟨_, exec_readerTimeout hr, ?_⟩
  rw [State.atTimer_of_due hdue]
  exact ⟨(State.readerEnds_vault hrep).trans (by rw [State.runTo_vault]), State.readerEnds_kept.same .time (by decide)⟩

end

end Sys2Proof.Machine
end

section
/-! SUPPORT. The members and the reader of an installation, together. -/
namespace Sys2Proof.Machine

section
variable {s : State} {m : Msg}

/-- A BEGIN that the module accepts opens a member, reserves its pages and creates its entry. -/
theorem does_installBegin {bs : List Byte} {v : State} {e : Nat} (h : s.takes kBEGIN m) (hopt : bit m.opt.toNat 0 = false)
    (hb : s.ripeInstall.takeBegin m = (some bs, v)) (hcoord : v.fab.coordValid = true)
    (hmask : bit (beginOf bs).mask (memberBit v.fab.row v.fab.col) = true)
    (hstatus : v.imageStatus (beginOf bs).head false = stOK) (hfree : v.memberBusy m.tag.toNat = false) (he : v.freeEntry = some e) :
    let kept := (headShards (beginOf bs).head).filter fun h => h.keptAt v.fab.row v.fab.col
    let n := (kept.map Shard.pages).sum
    (v.freeVault n).length = n → Does (.installBegin m) s fun t =>
      (∃ x : Member, t.vault.member = some x ∧ x.tag = m.tag.toNat ∧ x.reader = msgModule m ∧ x.entry = e ∧
        x.shards = (kept.map fun h => rxShard h.index h.stream) ∧ x.extent = assignPages kept (v.freeVault n) ∧
        x.committed = false ∧ x.timeoutMs = (beginOf bs).timeout ∧ x.lastMsg = v.time.clk) ∧
      t.vault.reserved = v.freeVault n ∧
      ∃ c : CatEntry, t.vault.catalogue = v.vault.catalogue ++ [c] ∧ c.index = e ∧ c.state = 1 ∧ c.kept = kept.map (·.index) := by
  intro kept n hpages
  obtain ⟨c, hvault, hc⟩ := State.beginInstall_opened (m := m) (b := beginOf bs) rfl rfl hstatus hfree he hpages
  refine ⟨_, exec_installBegin_of_whole h hopt hb hcoord hmask, ?_⟩
  dsimp only
  rw [hvault]
  exact ⟨⟨_, rfl, rfl, rfl, rfl, rfl, rfl, rfl, rfl, rfl⟩, rfl, c, rfl, hc⟩

/-- A message to a member of another tag is counted and discarded. -/
theorem State.instDeliver_asMember_of_other {kind : Nat} (h : s.takes kind m)
    (hother : ∀ x, s.ripeInstall.vault.member = some x → x.tag ≠ m.tag.toNat) (act : State → Member → State) :
    s.instDeliver kind m (fun s => s.asMember m act) = s.ripeInstall.bump 0x80028 :=
  (State.instDeliver_of_takes h _).trans (State.asMember_of_other hother act)

end

/-- Settles O39, message by message and timer by timer: the timeouts that have come, BEGIN, the member's messages and timers, then the
reader's. -/
theorem installations : Obligations.Installations := by
  unfold Obligations.Installations
  refine ⟨fun s => ⟨fun x => State.ripeInstall_member_of_due, State.ripeInstall_of_early⟩,
    fun s m => ⟨exec_installBegin_of_part, fun bs v h hopt hb hcoord hmask => ?_, State.takeBegin_single, fun x hx htag => ?_,
      fun hother => ?_, fun x hx => ?_⟩,
    fun s m reads r hr himage => ⟨fun htag => ?_, fun htag hrepair => ?_⟩, fun s r hr himage => ?_⟩
  · exact ⟨fun hstatus => (exec_installBegin_of_whole h hopt hb hcoord hmask).trans
        (congrArg Host.Outcome.next (State.beginInstall_of_badImage hstatus)),
      fun e hstatus hfree he => does_installBegin h hopt hb hcoord hmask hstatus hfree he⟩
  · exact ⟨fun r slot page h hr hopen haligned hinside hfresh hslot hpage =>
        does_installData (x := x) h hx htag hr ⟨hopen, haligned, hinside, hfresh⟩ hslot hpage,
      fun r page h hstart hr hlen hslot hpage => does_installRepair h hx htag hstart hr hlen hslot hpage,
      fun h hkeeps => exec_installEnd (x := x) h hx htag hkeeps,
      fun h => ⟨fun hcommitted => (exec_installCommit h hx htag).trans
          (congrArg Host.Outcome.next (State.commit_of_committed hcommitted)),
        fun c hopen he => ⟨fun hall hp hq => does_installCommit (x := x) h hx htag hopen he hall hp hq,
          fun hbar => (exec_installCommit h hx htag).trans (congrArg Host.Outcome.next (State.commit_of_unready hopen he hbar))⟩⟩,
      fun h => ⟨fun hcommitted => (exec_installAbort h hx htag).trans
          (congrArg Host.Outcome.next (State.abandonMember_of_committed hcommitted)),
        fun hopen => does_installAbort h hx htag hopen⟩⟩
  · exact ⟨fun h => congrArg Host.Outcome.next (State.instDeliver_asMember_of_other h hother _),
      fun h => congrArg Host.Outcome.next (State.instDeliver_asMember_of_other h hother _),
      fun h => congrArg Host.Outcome.next (State.instDeliver_asMember_of_other h hother _),
      fun h => congrArg Host.Outcome.next (State.instDeliver_asMember_of_other h hother _),
      fun h hbegins => exec_installAbort_of_other h hother hbegins⟩
  · exact ⟨does_reportTimer hx, exec_reportTimer_of_idle hx, does_inactivityTimeout hx, exec_inactivityTimeout_of_idle hx⟩
  · have hrep := Reader.isRepair_of_image himage
    exact ⟨fun h => does_installAccept h hr htag hrep reads,
      fun h => ⟨exec_installRefuse_of_late h hr htag, does_installRefuse h hr htag hrep⟩,
      fun h hqueue => does_installCredit h hr htag hrep hqueue reads,
      fun h => ⟨fun hcommit => (exec_installReport h hr htag reads).trans
          (congrArg Host.Outcome.next (State.takeReport_of_committing hcommit reads _)),
        fun hopen hstatus hlist => does_installReport_verified h hr htag hopen hstatus hlist reads,
        fun p hopen _ hp ⟨n, hlist, hn, hfails⟩ => does_installReport_exhausted h hr htag hrep hopen hp hlist hn hfails reads⟩,
      fun h => ⟨does_installCommitted h hr htag hrep, exec_installCommitted_of_early h hr htag⟩⟩
  · exact ⟨fun h => congrArg Host.Outcome.next (State.instDeliver_asReader_of_other h hr htag hrepair _),
      fun h => congrArg Host.Outcome.next (State.instDeliver_asReader_of_other h hr htag hrepair _),
      fun h => congrArg Host.Outcome.next (State.instDeliver_asReader_of_other h hr htag hrepair _),
      fun h => congrArg Host.Outcome.next (State.instDeliver_asReader_of_other h hr htag hrepair _),
      fun h => congrArg Host.Outcome.next (State.instDeliver_asReader_of_other h hr htag hrepair _)⟩
  · have hrep := Reader.isRepair_of_image himage
    exact ⟨Reader.silent_iff, does_acceptWaitTimeout hr hrep, exec_acceptWaitTimeout_of_idle hr, does_commitResend hr,
      exec_commitResend_of_idle hr, does_readerTimeout hr hrep, fun hdue => (exec_readerTimeout hr).trans
        (congrArg Host.Outcome.next (State.atTimer_of_later hdue _))⟩

end Sys2Proof.Machine
end

section
/-! SUPPORT. The numbers of instances, ports, channels and functions over a step (R273, R340, R387, R415). -/
namespace Sys2Proof.Machine

/-- A step is a tick, or a command on the state with the rest of the queue: what `Kept` names of that state stands. -/
theorem step_kept {s t : State} (h : step s = .next t) : ∃ ps rest, Kept ps { s with pending := rest } t := by
  cases hp : s.pending with
  | nil =>
    obtain rfl := Host.Outcome.next.inj ((step_of_idle hp).symm.trans h)
    exact ⟨_, s.pending, State.idle_kept⟩
  | cons c rest => exact ⟨_, rest, kept_of_exec ((step_of_pending hp).symm.trans h)⟩

/-- Settles O6: no number hangs on the queue, and what a command or a tick keeps holds the numbers. -/
theorem stepKeepsShape : Obligations.StepKeepsShape := fun s _ hs h => by
  obtain ⟨ps, rest, hk⟩ := step_kept h
  have hrest : ({ s with pending := rest } : State).shape := hs
  exact hk.shape hrest

end Sys2Proof.Machine
end

section
/-! SUPPORT. The registers of the Thaxa block (R289, R293, R295, R298 to R300). -/
namespace Sys2Proof.Machine

/-! ### The admission -/

section
variable (s : State) {v : Nat}

theorem State.writeAdmit_fab : (s.writeAdmit v).fab = { s.fab with admitted := bit v 0 } := by
  unfold State.writeAdmit
  dsimp only
  split
  · rfl
  · split <;> rfl

/-- The end of the admission fails every running step. -/
theorem State.writeAdmit_ended (h : s.fab.admitted = true) (hv : bit v 0 = false) :
    s.writeAdmit v = (s.setFab { s.fab with admitted := bit v 0 }).failSteps (fun _ => true) stNOT_ADMITTED := by
  simp [State.writeAdmit, h, hv]

theorem State.writeAdmit_begun (h : s.fab.admitted = false) (hv : bit v 0 = true) :
    s.writeAdmit v = (s.setFab { s.fab with admitted := bit v 0 }).firesFrom (s.time.tick + 1) := by
  simp [State.writeAdmit, h, hv]

theorem State.writeAdmit_serve_of_same (h : s.fab.admitted = bit v 0) : (s.writeAdmit v).serve = s.serve := by
  unfold State.writeAdmit
  rw [h]
  cases bit v 0 <;> rfl

/-- Every step of a list that fails as a whole has failed. -/
theorem State.failSteps_all (status : Nat) : ∀ r ∈ (s.failSteps (fun _ => true) status).serve.steps, r.fail.isSome := by
  intro r hr
  obtain ⟨x, -, rfl⟩ := List.mem_map.1 hr
  cases hx : x.fail <;> simp [hx]

end

/-! ### A port's fence and its settings -/

theorem State.writePortFenceClear_of_set (s : State) (k : Nat) {v : Nat} (hv : bit v 0 = true) :
    s.writePortFenceClear k v = (s.setFaults { s.faults with fencePort := putBit s.faults.fencePort k false }).storeMap 0x10030
      (putBit s.faults.fencePort k false) := by
  simp [State.writePortFenceClear, hv]

/-- The settings that a write leaves on a port; where it is not enabled, the port is down with nothing to replay. -/
structure Port.Configured (p : Port) (v : Nat) : Prop where
  enable   : p.enable = bit v 0
  rate     : p.rate = bit v 1
  fallback : p.fallback = bit v 2
  down     : bit v 0 = false → p.st = .down ∧ p.replay = []

theorem State.writePortCfg_ports (s : State) (k v : Nat) :
    ∃ p : Port, (s.writePortCfg k v).fab.ports = setNth s.fab.ports k p ∧ p.Configured v := by
  unfold State.writePortCfg
  dsimp only
  cases hv : bit v 0 with
  | false => exact ⟨_, rfl, hv.symm, rfl, rfl, fun _ => ⟨rfl, rfl⟩⟩
  | true =>
    have hon : ∀ {P : Prop}, bit v 0 = false → P := fun h => nomatch hv.symm.trans h
    rw [if_neg (by simp)]
    split
    · exact ⟨_, rfl, hv.symm, rfl, rfl, hon⟩
    · split
      · exact ⟨_, rfl, hv.symm, rfl, rfl, hon⟩
      · exact ⟨_, rfl, hv.symm, rfl, rfl, hon⟩

/-- Where one port was set, it is the one that differs. -/
theorem State.shape.port_set {s t : State} (hs : s.shape) {k : Fin 9} {p : Port} (h : t.fab.ports = setNth s.fab.ports k.val p) :
    t.port k.val = p ∧ ∀ j, j ≠ k.val → t.port j = s.port j :=
  ⟨State.port_self_of_ports h (hs.port_lt k), fun _ => State.port_other_of_ports h (hs.port_lt k)⟩

section
variable {s : State} {w : RegWr}

theorem does_fabricAdmit (h : s.accepts (rowAttempt w 0x30010 0 0)) :
    let v := s.valueOf (rowAttempt w 0x30010 0 0)
    Does (.fabricAdmit w) s fun t => t.fab = { s.fab with admitted := bit v 0 } ∧
      (s.fab.admitted = true → bit v 0 = false → t.serve = { s.serve with steps := t.serve.steps } ∧ ∀ r ∈ t.serve.steps, r.fail.isSome) ∧
      (s.fab.admitted = false → bit v 0 = true →
        t.serve = { s.serve with insts := s.serve.insts.map fun x => { x with fired := (s.time.tick + 1, 0) } }) ∧
      (s.fab.admitted = bit v 0 → t.serve = s.serve) ∧ Only [.fab, .serve, .handed, .platform, .out] s t := by
  refine does_write 0x30010 rfl h (rowAttempt_reg w _ _ _ rfl) fun l x e z => ?_
  rw [State.regEffect_admit]
  refine ⟨(s.holding l x).writeAdmit_fab, fun hwas hv => ?_, fun hwas hv => ?_, fun hsame => ?_,
    only_write (State.writeAdmit_kept.mono (by decide)).only⟩
  · rw [(s.holding l x).writeAdmit_ended hwas hv]
    exact ⟨rfl, State.failSteps_all _ _⟩
  · rw [(s.holding l x).writeAdmit_begun hwas hv]
    rfl
  · exact (s.holding l x).writeAdmit_serve_of_same hsame

theorem does_thaxaCommit (h : s.accepts (rowAttempt w 0x30028 1 0)) (hv : bit (s.valueOf (rowAttempt w 0x30028 1 0)) 0 = true) :
    Does (.thaxaCommit w) s fun t =>
      t.fab = { s.fab with sparePend := some (s.fab.spareShadow, s.fab.spareBeatShadow) } ∧ Only [.fab, .handed, .platform, .out] s t := by
  refine does_write 0x30028 rfl h (rowAttempt_reg w _ _ _ rfl) fun l x e z => ?_
  rw [State.regEffect_thaxaCommit]
  exact ⟨congrArg State.fab (if_pos hv), only_write (State.writeThaxaCommit_kept.mono (by decide)).only⟩

theorem does_portCfg {k : Fin 9} (h : s.accepts (rowAttempt w (rPort k.val 0) 0 0)) (hs : s.shape) :
    let v := s.valueOf (rowAttempt w (rPort k.val 0) 0 0)
    Does (.portCfg k w) s fun t => (t.port k.val).enable = bit v 0 ∧ (t.port k.val).rate = bit v 1 ∧
      (t.port k.val).fallback = bit v 2 ∧ (bit v 0 = false → (t.port k.val).st = .down ∧ (t.port k.val).replay = []) ∧
      (∀ j, j ≠ k.val → t.port j = s.port j) ∧ Only [.fab, .handed, .platform, .out] s t := by
  refine does_write (rPort k.val 0) rfl h (rowAttempt_reg w _ _ _ (by unfold rPort; omega)) fun l x e z => ?_
  rw [State.regEffect_portCfg]
  obtain ⟨p, hp, hset⟩ := (s.holding l x).writePortCfg_ports k.val (s.valueOf (rowAttempt w (rPort k.val 0) 0 0))
  obtain ⟨hk, hother⟩ := hs.port_set (t := ((s.holding l x).writePortCfg k.val _).telling e z) hp
  rw [hk]
  exact ⟨hset.enable, hset.rate, hset.fallback, hset.down, hother, only_write (State.writePortCfg_kept.mono (by decide)).only⟩

theorem does_portFenceClear {k : Fin 9} (h : s.accepts (rowAttempt w (rPort k.val 0x40) 1 0))
    (hv : bit (s.valueOf (rowAttempt w (rPort k.val 0x40) 1 0)) 0 = true) :
    Does (.portFenceClear k w) s fun t =>
      let m := putBit s.faults.fencePort k.val false
      t.faults = { s.faults with fencePort := m } ∧
      t.vault = { s.vault with storedFences := putKey s.vault.storedFences 0x10030 m } ∧
      Only [.faults, .vault, .handed, .platform, .out] s t := by
  refine does_write (rPort k.val 0x40) rfl h (rowAttempt_reg w _ _ _ (by unfold rPort; omega)) fun l x e z => ?_
  rw [State.regEffect_portFenceClear]
  have hdo := (s.holding l x).writePortFenceClear_of_set k.val hv
  exact ⟨congrArg State.faults hdo, congrArg State.vault hdo, only_write (State.writePortFenceClear_kept.mono (by decide)).only⟩

end

/-- Settles O13, register by register: the effect of an accepted write, on a state that differs in the records held. -/
theorem thaxaWrites : Obligations.ThaxaWrites := by
  refine fun s w port => ⟨fun h => ?_, does_fabricAdmit, does_thaxaCommit, does_portCfg, does_portFenceClear⟩
  refine does_write 0x30000 rfl h (rowAttempt_reg w _ _ _ rfl) fun l x e z => ?_
  rw [State.regEffect_coord]
  exact ⟨rfl, only_write (State.writeCoord_kept.mono (by decide)).only⟩

end Sys2Proof.Machine
end

section
/-! SUPPORT. A message of a collective that comes at a tick whose schedule entry has not fired (R46, R70, R322). -/
namespace Sys2Proof.Machine

/-- An active instance whose schedule has one entry, a TELEMETRY stamped with tick 0 of every beat. -/
def telemetryInst : Inst :=
  { Inst.reset with
    state := .active
    sched := ⟨[⟨0, { period := State.reset.time.period, cycle := 1, config := 0, entries := [⟨8, 0, 0, 1⟩], slotTables := [], lists := [],
                     colls := [], budget := none }, [], 0⟩], some 0⟩ }

/-- An admitted module in lock at tick 0 of a beat, whose entry of that tick has not fired; no port is admitted. -/
def telemetryDue : State :=
  { State.reset with
    time := { State.reset.time with st := .locked }
    fab := { State.reset.fab with admitted := true }
    serve := { State.reset.serve with insts := setNth State.reset.serve.insts 0 telemetryInst } }

/-- The entry fires all the same where a collective message comes to a port that takes none: its frame leaves. -/
theorem telemetryDue_coll : Does (.coll Msg.blank) telemetryDue fun t => t.out.length = 1 := ⟨_, rfl, by decide +kernel⟩

/-- Refutes O46: its first clause has a message at a port that is not admitted leave the state as it is. What a collective hears at a tick
comes after the entries stamped up to it (R46): COLL, SECTION and REPLAY_REQ first have the time unit come to the tick, so an entry that has
not fired there fires, and slot traffic whose slot has opened leaves, whether the checks then take the message or not. With nothing due at
the tick as a hypothesis this counterexample is none. -/
theorem not_ingressChecks : ¬ Obligations.IngressChecks := by
  intro h
  obtain ⟨hstands, -⟩ := h telemetryDue (.coll Msg.blank) 0x10 Msg.blank rfl
  obtain ⟨t, ht, hsent⟩ := telemetryDue_coll
  obtain rfl := Host.Outcome.next.inj ((hstands (by decide +kernel)).symm.trans ht)
  exact absurd hsent (by decide)

end Sys2Proof.Machine
end

section
/-! SUPPORT. A port's delay measurement and its training (R281, R283 to R287, R446). Each command sets its port, and no other. -/
namespace Sys2Proof.Machine

/-! ### Delay measurement -/

/-- A port that has asked its peer at `now`, in the run `r` (R284). -/
def Port.asking (p : Port) (now : Nat) (r : DelayRun) : Port :=
  { p with delayRun := some { r with t1 := some now, attempts := r.attempts + 1, last := now } }

/-- A port that has the results `ds`: the sixteenth gives the delay, one before it leaves the run to go on. -/
def Port.delayed (p : Port) (last : Nat) (ds : List Int) : Port :=
  if 16 ≤ ds.length then { p with linkDelay := delayMean ds % 65536, delayRun := none }
  else { p with delayRun := some ⟨none, ds, 0, last⟩ }

theorem State.askDelay_ports (s : State) (k : Nat) (r : DelayRun) :
    (s.askDelay k r).fab.ports = setNth s.fab.ports k ((s.port k).asking s.time.clk r) := rfl

section
variable {s : State} {k : Nat}

theorem State.measures_of_st (h : (s.port k).st = .delay ∨ (s.port k).st = .retrain) : s.measures k = true := by
  rcases h with h | h <;> simp [State.measures, h]

theorem State.measure_of_free (hm : s.measures k = true) (hrun : (s.port k).delayRun = none) :
    s.measure k = s.askDelay k ⟨none, [], 0, 0⟩ := by
  simp [State.measure, hm, hrun]

theorem State.measure_of_not (h : s.measures k = false ∨ (s.port k).delayRun.isSome = true) : s.measure k = s := by
  rcases h with h | h
  · simp [State.measure, h]
  · simp [State.measure, Option.isNone_eq_false_iff.2 h]

/-- A port set to a state that measures, with no run, begins one. -/
theorem State.measure_setPort_ports {q : Port} (hk : k < s.fab.ports.length) (hst : q.st = .delay ∨ q.st = .retrain)
    (hrun : q.delayRun = none) :
    ((s.setPort k q).measure k).fab.ports = setNth s.fab.ports k (q.asking s.time.clk ⟨none, [], 0, 0⟩) := by
  have hset : (s.setPort k q).fab.ports = setNth s.fab.ports k q := rfl
  have hq : (s.setPort k q).port k = q := State.port_self_of_ports hset hk
  have hask := (s.setPort k q).askDelay_ports k ⟨none, [], 0, 0⟩
  rw [hq] at hask
  rw [State.measure_of_free (State.measures_of_st (hq.symm ▸ hst)) (hq.symm ▸ hrun)]
  exact State.ports_trans hset hask

theorem State.delayIn_of_unasked (t2 t3 : Nat) (h : (s.port k).delayRun = none ∨ ∃ r, (s.port k).delayRun = some r ∧ r.t1 = none) :
    s.delayIn k t2 t3 = s := by
  rcases h with h | ⟨r, h, ht⟩
  · simp [State.delayIn, h]
  · simp [State.delayIn, h, ht]

theorem State.delayIn_of_asked (t2 t3 : Nat) {r : DelayRun} {sent : Nat} (h : (s.port k).delayRun = some r) (ht : r.t1 = some sent) :
    s.delayIn k t2 t3 = s.setPort k ((s.port k).delayed r.last
      (r.results ++ [((s.time.clk : Int) - (sent : Int)) - ((t3 : Int) - (t2 : Int))])) := by
  unfold State.delayIn Port.delayed
  simp only [h, ht]
  exact (apply_ite (s.setPort k) _ _ _).symm

end

section
variable {s : State} {k : Fin 9}

theorem State.exchange_of_none (h : (s.port k.val).delayRun = none) : s.exchange k = s := by
  simp [State.exchange, h]

theorem State.exchange_of_run {r : DelayRun} (h : (s.port k.val).delayRun = some r) :
    s.exchange k = s.atTimer (r.last + 1024) fun s => if r.attempts ≥ 64 then s.linkError k else s.askDelay k.val r := by
  simp [State.exchange, h]

theorem does_delayMeasurement (hs : s.shape) (hm : s.measures k.val = true) (hrun : (s.port k.val).delayRun = none) :
    Does (.delayMeasurement k) s fun t =>
      t.port k.val = { s.port k.val with delayRun := some ⟨some s.time.clk, [], 1, s.time.clk⟩ } ∧
      (∀ j, j ≠ k.val → t.port j = s.port j) ∧ t.out = s.out ++ [.delayReq k.val s.time.clk] := by
  obtain ⟨hp, hother⟩ := hs.port_set (s.askDelay_ports k.val ⟨none, [], 0, 0⟩)
  exact ⟨_, congrArg Host.Outcome.next (State.measure_of_free hm hrun), hp, hother, rfl⟩

theorem does_delayResp (hs : s.shape) (t2 t3 : Nat) {r : DelayRun} {sent : Nat} (h : (s.port k.val).delayRun = some r)
    (ht : r.t1 = some sent) :
    let p := s.port k.val
    let ds : List Int := r.results ++ [((s.time.clk : Int) - (sent : Int)) - ((t3 : Int) - (t2 : Int))]
    Does (.delayResp k t2 t3) s fun t => (∀ j, j ≠ k.val → t.port j = s.port j) ∧ Only [.fab] s t ∧
      (ds.length < 16 → t.port k.val = { p with delayRun := some ⟨none, ds, 0, r.last⟩ }) ∧
      (16 ≤ ds.length → t.port k.val = { p with linkDelay := ((ds.sum + 16) / 32).toNat % 65536, delayRun := none }) := by
  intro p ds
  obtain ⟨hp, hother⟩ := hs.port_set (s := s) (t := s.setPort k.val (p.delayed r.last ds)) rfl
  refine ⟨_, congrArg Host.Outcome.next (State.delayIn_of_asked t2 t3 h ht), hother, State.setPort_kept.only, fun hlt => ?_, fun hle => ?_⟩
  · exact hp.trans (if_neg (Nat.not_le.2 hlt))
  · exact hp.trans (if_pos hle)

/-- Time that runs on leaves the ports. -/
theorem State.runTo_port {due : Nat} (j : Nat) : (s.runTo due).port j = s.port j := by
  unfold State.port
  rw [State.runTo_kept.same .fab (by decide)]

theorem does_delayExchange_repeat (hs : s.shape) {r : DelayRun} (h : (s.port k.val).delayRun = some r)
    (hdue : s.fallsDue (r.last + 1024) = true) (hfew : r.attempts < 64) :
    let now := (s.runTo (r.last + 1024)).time.clk
    Does (.delayExchange k) s fun t => t.time.clk = now ∧
      t.port k.val = { s.port k.val with delayRun := some { r with t1 := some now, attempts := r.attempts + 1, last := now } } ∧
      (∀ j, j ≠ k.val → t.port j = s.port j) ∧ t.out = s.out ++ [.delayReq k.val now] := by
  have hrun : s.exchange k = (s.runTo (r.last + 1024)).askDelay k.val r := by
    rw [State.exchange_of_run h, State.atTimer_of_due hdue, if_neg (Nat.not_le.2 hfew)]
  obtain ⟨hp, hother⟩ := (State.runTo_kept.shape hs).port_set ((s.runTo (r.last + 1024)).askDelay_ports k.val r)
  rw [State.runTo_port] at hp
  refine ⟨_, congrArg Host.Outcome.next hrun, rfl, hp, fun j hj => (hother j hj).trans (State.runTo_port j), ?_⟩
  exact congrArg (· ++ _) (State.runTo_kept.same .out (by decide))

theorem does_delayExchange_fails (hs : s.shape) {r : DelayRun} (h : (s.port k.val).delayRun = some r)
    (hdue : s.fallsDue (r.last + 1024) = true) (hmany : 64 ≤ r.attempts) (hopen : bit s.faults.fencePort k.val = false) :
    Does (.delayExchange k) s fun t => (t.port k.val).st = .retrain ∧ ∀ j, j ≠ k.val → t.port j = s.port j := by
  have hrun : s.exchange k = (s.runTo (r.last + 1024)).linkError k := by
    rw [State.exchange_of_run h, State.atTimer_of_due hdue, if_pos hmany]
  have hfaults : (s.runTo (r.last + 1024)).faults = s.faults := State.runTo_kept.same .faults (by decide)
  obtain ⟨hp, hother⟩ := (State.runTo_kept.shape hs).port_set (State.linkError_ports (hfaults.symm ▸ hopen))
  exact ⟨_, congrArg Host.Outcome.next hrun, congrArg Port.st hp, fun j hj => (hother j hj).trans (State.runTo_port j)⟩

end

/-! ### TRAIN received -/

/-- A port in ALIGN or RETRAIN that has heard its peer: the plane number is checked, and the credits of one that fits are taken (R287). -/
def Port.identified (p : Port) (k : Nat) (set : TrainSet) : Port :=
  { p with
    trainSeen := decide (set.number.toNat = k), miscabled := !decide (set.number.toNat = k), peerPlane := bits set.number.toNat 0 4
    credits := if set.number.toNat = k then (List.range 4).map (fun v => (nth 0 set.credits v).toNat) else p.credits }

section
variable {s : State} {k : Fin 9} (set : TrainSet)

theorem State.trainIn_of_detect (h : (s.port k.val).st = .detect) :
    s.trainIn k.val set = s.setPort k.val { s.port k.val with trainSeen := true } := by
  simp only [State.trainIn, h]

theorem State.trainIn_of_aligning (h : (s.port k.val).st = .align ∨ (s.port k.val).st = .retrain) :
    s.trainIn k.val set = s.setPort k.val ((s.port k.val).identified k.val set) := by
  rcases h with h | h <;> simp [State.trainIn, h, Port.identified]

theorem does_train_detect (hs : s.shape) (h : (s.port k.val).st = .detect) :
    Does (.train k set) s fun t => t.port k.val = { s.port k.val with trainSeen := true } ∧
      (∀ j, j ≠ k.val → t.port j = s.port j) ∧ Only [.fab] s t := by
  obtain ⟨hp, hother⟩ := hs.port_set (t := s.setPort k.val { s.port k.val with trainSeen := true }) rfl
  exact ⟨_, congrArg Host.Outcome.next (State.trainIn_of_detect set h), hp, hother, State.setPort_kept.only⟩

theorem does_train_align (hs : s.shape) (h : (s.port k.val).st = .align ∨ (s.port k.val).st = .retrain) :
    let p := s.port k.val
    Does (.train k set) s fun t => (t.port k.val).st = p.st ∧ (t.port k.val).trainSeen = decide (set.number.toNat = k.val) ∧
      (t.port k.val).miscabled = decide (set.number.toNat ≠ k.val) ∧ (set.number.toNat ≠ k.val → (t.port k.val).credits = p.credits) ∧
      (∀ j, j ≠ k.val → t.port j = s.port j) ∧ Only [.fab] s t := by
  intro p
  obtain ⟨hp, hother⟩ := hs.port_set (t := s.setPort k.val (p.identified k.val set)) rfl
  exact ⟨_, congrArg Host.Outcome.next (State.trainIn_of_aligning set h), (congrArg Port.st hp :), congrArg Port.trainSeen hp,
    (congrArg Port.miscabled hp).trans (decide_not ..).symm, fun hne => (congrArg Port.credits hp).trans (if_neg hne), hother,
    State.setPort_kept.only⟩

end

/-! ### The exit of a training state -/

section
variable {s : State} {k : Fin 9} (hs : s.shape)

theorem State.trainExit_of_noRef (href : s.svc.refOk = false) : s.trainExit k.val = s := by
  simp [State.trainExit, href]

section
variable (href : s.svc.refOk = true)
include href

theorem State.trainExit_of_retrain_waiting (h : (s.port k.val).st = .retrain)
    (hwait : (s.port k.val).proving = true ∨ (s.port k.val).trainSeen = false) : s.trainExit k.val = s := by
  rcases hwait with hwait | hwait <;> simp [State.trainExit, href, h, hwait]

include hs

theorem does_trainingStateExit_detect (h : (s.port k.val).st = .detect) (hseen : (s.port k.val).trainSeen = true) :
    Does (.trainingStateExit k) s fun t => (t.port k.val).st = .equalize ∧ ∀ j, j ≠ k.val → t.port j = s.port j := by
  have hdo : (s.trainExit k.val).fab.ports = setNth s.fab.ports k.val { s.port k.val with st := .equalize, trainSeen := false } := by
    simp [State.trainExit, href, h, hseen]
  obtain ⟨hp, hother⟩ := hs.port_set hdo
  exact ⟨_, rfl, congrArg Port.st hp, hother⟩

theorem does_trainingStateExit_equalize (h : (s.port k.val).st = .equalize) :
    Does (.trainingStateExit k) s fun t => (t.port k.val).st = .align ∧ (t.port k.val).laneFail = 0 ∧
      (∀ j, j ≠ k.val → t.port j = s.port j) ∧ t.out = s.out ++ [.train k.val s.fab.moduleNo PortSt.align.code] := by
  have hdo : s.trainExit k.val = (s.setPort k.val { s.port k.val with st := .align, laneFail := 0, trainSeen := false }).sendTrain k.val := by
    simp [State.trainExit, href, h]
  obtain ⟨hp, hother⟩ := hs.port_set
    (t := s.setPort k.val { s.port k.val with st := .align, laneFail := 0, trainSeen := false }) rfl
  refine ⟨_, congrArg Host.Outcome.next hdo, congrArg Port.st hp, congrArg Port.laneFail hp, hother, ?_⟩
  unfold State.sendTrain
  rw [hp]
  rfl

theorem does_trainingStateExit_align (h : (s.port k.val).st = .align) (hseen : (s.port k.val).trainSeen = true) :
    Does (.trainingStateExit k) s fun t => (t.port k.val).st = .delay ∧
      (t.port k.val).delayRun = some ⟨some s.time.clk, [], 1, s.time.clk⟩ ∧ ∀ j, j ≠ k.val → t.port j = s.port j := by
  have hdo : s.trainExit k.val = (s.setPort k.val { s.port k.val with st := .delay, delayRun := none }).measure k.val := by
    simp [State.trainExit, href, h, hseen]
  obtain ⟨hp, hother⟩ := hs.port_set (State.measure_setPort_ports
    (q := { s.port k.val with st := .delay, delayRun := none }) (hs.port_lt k) (.inl rfl) rfl)
  exact ⟨_, congrArg Host.Outcome.next hdo, congrArg Port.st hp, congrArg Port.delayRun hp, hother⟩

theorem does_trainingStateExit_delay (h : (s.port k.val).st = .delay) (hrun : (s.port k.val).delayRun = none) :
    Does (.trainingStateExit k) s fun t => (t.port k.val).st = .admitted ∧ (t.port k.val).replay = [] ∧ (t.port k.val).expectSeq = 0 ∧
      (t.port k.val).tries = 0 ∧ ∀ j, j ≠ k.val → t.port j = s.port j := by
  have hdo : ∃ q : Port, (s.trainExit k.val).fab.ports = setNth s.fab.ports k.val q ∧
      q.st = .admitted ∧ q.replay = [] ∧ q.expectSeq = 0 ∧ q.tries = 0 := by
    simp only [State.trainExit, href, h, hrun]
    exact ⟨_, rfl, rfl, rfl, rfl, rfl⟩
  obtain ⟨q, hq, hst, hreplay, hseq, htries⟩ := hdo
  obtain ⟨hp, hother⟩ := hs.port_set hq
  exact ⟨_, rfl, (congrArg Port.st hp).trans hst, (congrArg Port.replay hp).trans hreplay, (congrArg Port.expectSeq hp).trans hseq,
    (congrArg Port.tries hp).trans htries, hother⟩

section
variable (h : (s.port k.val).st = .retrain) (hproving : (s.port k.val).proving = false) (hseen : (s.port k.val).trainSeen = true)
include h hproving hseen

theorem does_trainingStateExit_measuring (hmeasured : (s.port k.val).measured = false) :
    Does (.trainingStateExit k) s fun t =>
      t.port k.val = { s.port k.val with measured := true, delayRun := some ⟨some s.time.clk, [], 1, s.time.clk⟩ } ∧
      ∀ j, j ≠ k.val → t.port j = s.port j := by
  have hdo : s.trainExit k.val = (s.setPort k.val { s.port k.val with measured := true, delayRun := none }).measure k.val := by
    simp [State.trainExit, href, h, hproving, hseen, hmeasured]
  obtain ⟨hp, hother⟩ := hs.port_set (State.measure_setPort_ports
    (q := { s.port k.val with measured := true, delayRun := none }) (hs.port_lt k) (.inr h) rfl)
  exact ⟨_, congrArg Host.Outcome.next hdo, hp, hother⟩

theorem does_trainingStateExit_proving (hmeasured : (s.port k.val).measured = true) (hrun : (s.port k.val).delayRun = none) :
    Does (.trainingStateExit k) s fun t => t.port k.val = { s.port k.val with proving := true } ∧
      (∀ j, j ≠ k.val → t.port j = s.port j) ∧ t.out = s.out ++ (s.port k.val).replay.map (Out.resend k.val) := by
  have hdo : s.trainExit k.val = (s.setPort k.val { s.port k.val with proving := true }).resendAll k.val := by
    simp [State.trainExit, href, h, hproving, hseen, hmeasured, hrun]
  obtain ⟨hp, hother⟩ := hs.port_set (t := s.setPort k.val { s.port k.val with proving := true }) rfl
  refine ⟨_, congrArg Host.Outcome.next hdo, hp, hother, ?_⟩
  unfold State.resendAll
  rw [hp]
  rfl

end
end
end

end Sys2Proof.Machine
end

section
/-! SUPPORT. The bound of a training state expires (R281, R285 to R287, R446), and the statement about training. -/
namespace Sys2Proof.Machine

theorem State.watched_fab (s : State) (f : State → State) : (s.watched f).fab = (f s).fab :=
  (State.sensorEvents_kept (a1 := s)).same .fab (by decide)

theorem State.watched_faults (s : State) (f : State → State) : (s.watched f).faults = (f s).faults :=
  (State.sensorEvents_kept (a1 := s)).same .faults (by decide)

theorem State.watched_reg (s : State) (f : State → State) (o : Nat) : (s.watched f).reg o = (f s).reg o :=
  State.reg_of_regs ((State.sensorEvents_kept (a1 := s)).same .regs (by decide)) o

/-! ### An attempt of training -/

/-- A port of which an attempt of training has failed, with the lanes that did not equalize (R285, R286). -/
def Port.attempted (p : Port) (lanes : Nat) : Port :=
  { p with tries := p.tries + 1, laneFail := if p.st == .equalize then lanes else p.laneFail }

/-- A port that trains from DETECT. -/
def Port.detecting (p : Port) : Port :=
  { p with st := .detect, trainSeen := false, miscabled := false, equalizing := false, measured := false, delayRun := none }

/-- A port whose training has failed (R286). -/
def Port.lost (p : Port) : Port := { p with st := .down, trainSeen := false, delayRun := none, replay := [] }

/-- The failed attempt is of a port that TRAIN shows miscabled: it is counted at once (R287). -/
def Port.countsMiscabled (p : Port) : Bool := p.st == .align && p.miscabled

/-- A failed attempt noted at its port. -/
def State.attempted (s : State) (k : Fin 9) (lanes : Nat) : State :=
  (s.bumpIf (s.port k.val).countsMiscabled (rPort k.val 0x38)).setPort k.val ((s.port k.val).attempted lanes)

/-- The states of a training that runs from DETECT on (R285). -/
def Port.trains (p : Port) : Prop := p.st = .detect ∨ p.st = .equalize ∨ p.st = .align ∨ p.st = .delay

section
variable {s : State} {k : Nat}

theorem State.detectPort_ports (p : Port) : (s.detectPort k p).fab.ports = setNth s.fab.ports k p.detecting := rfl

theorem State.trainFailed_of_fallback (counted : Bool) (hf : (s.port k).fallback = true) (hr : (s.port k).rate = false)
    (hb : (s.port k).fellBack = false) :
    s.trainFailed k counted = s.detectPort k { s.port k with fellBack := true, tries := 0 } := by
  simp [State.trainFailed, hf, hr, hb]

/-- With no fallback left the port is down; whether the failure was counted before or now, it is counted once. -/
theorem State.trainFailed_of_none (counted : Bool)
    (h : (s.port k).fallback = false ∨ (s.port k).rate = true ∨ (s.port k).fellBack = true) :
    (s.trainFailed k counted).fab.ports = setNth s.fab.ports k (s.port k).lost ∧
      ∀ o, o ≠ 0xC0820 → (s.trainFailed k counted).reg o = (s.bumpIf (!counted) (rPort k 0x38)).reg o := by
  have hno : ((s.port k).fallback && !(s.port k).rate && !(s.port k).fellBack) = false := by
    rcases h with h | h | h <;> simp [h]
  let u := (s.setPort k (s.port k).lost).bumpIf (!counted) (rPort k 0x38)
  have hdo : s.trainFailed k counted = (u.event 0x17 0 (locOf 0 0 0 31 k) (leBytes 1 (u.reg (rPort k 0x38)))).alert 0x17 := by
    unfold State.trainFailed
    dsimp only
    rw [hno]
    rfl
  rw [hdo]
  refine ⟨?_, fun o ho => ((State.event_eventOnly ..).reg o ho).trans ?_⟩
  · exact (congrArg Fabric.ports (State.event_kept.same .fab (by decide))).trans (congrArg Fabric.ports (State.bumpIf_fab ..))
  · rw [State.reg_bumpIf, State.reg_bumpIf]
    rfl

end

section
variable {s : State} {k : Fin 9} (lanes : Nat)

theorem State.attempted_ports : (s.attempted k lanes).fab.ports = setNth s.fab.ports k.val ((s.port k.val).attempted lanes) := by
  unfold State.attempted
  rw [State.setPort_fab, State.bumpIf_fab]

/-- A failure counted when it is noted or, where not, when training ends. -/
theorem State.reg_countedOnce (s : State) (k : Fin 9) (lanes : Nat) :
    ((s.attempted k lanes).bumpIf (!(s.port k.val).countsMiscabled) (rPort k.val 0x38)).reg (rPort k.val 0x38) =
      min (s.reg (rPort k.val 0x38) + 1) 0xFFFFFFFF := by
  have hnoted : (s.attempted k lanes).reg (rPort k.val 0x38) =
      (s.bumpIf (s.port k.val).countsMiscabled (rPort k.val 0x38)).reg (rPort k.val 0x38) := rfl
  rw [State.reg_bumpIf, hnoted, State.reg_bumpIf]
  cases (s.port k.val).countsMiscabled <;> simp

theorem State.boundExpired_of_training (h : (s.port k.val).trains) :
    s.boundExpired k lanes =
      if (s.port k.val).tries + 1 ≥ 3 then (s.attempted k lanes).trainFailed k.val (s.port k.val).countsMiscabled
      else (s.attempted k lanes).detectPort k.val ((s.port k.val).attempted lanes) := by
  unfold State.boundExpired State.attempted Port.attempted Port.countsMiscabled
  rcases h with h | h | h | h <;> simp only [h]

section
variable (hs : s.shape) (h : (s.port k.val).trains)
include hs h

theorem does_trainingBoundExpiry_again (lanes : BitVec 8) (hfew : (s.port k.val).tries + 1 < 3) :
    Does (.trainingBoundExpiry k lanes) s fun t => (t.port k.val).st = .detect ∧ (t.port k.val).tries = (s.port k.val).tries + 1 ∧
      ∀ j, j ≠ k.val → t.port j = s.port j := by
  have hdo : (s.boundExpired k lanes.toNat).fab.ports = setNth s.fab.ports k.val ((s.port k.val).attempted lanes.toNat).detecting := by
    rw [State.boundExpired_of_training _ h, if_neg (Nat.not_le.2 hfew)]
    exact State.ports_trans (State.attempted_ports _) (State.detectPort_ports _)
  obtain ⟨hp, hother⟩ := hs.port_set ((congrArg Fabric.ports (s.watched_fab (·.boundExpired k lanes.toNat))).trans hdo)
  exact ⟨_, rfl, congrArg Port.st hp, congrArg Port.tries hp, hother⟩

theorem does_trainingBoundExpiry_fallback (lanes : BitVec 8) (hmany : 2 ≤ (s.port k.val).tries) (hf : (s.port k.val).fallback = true)
    (hr : (s.port k.val).rate = false) (hb : (s.port k.val).fellBack = false) :
    Does (.trainingBoundExpiry k lanes) s fun t => (t.port k.val).st = .detect ∧ (t.port k.val).fellBack = true ∧
      (t.port k.val).tries = 0 ∧ ∀ j, j ≠ k.val → t.port j = s.port j := by
  have hset := s.attempted_ports (k := k) lanes.toNat
  have hq := State.port_self_of_ports hset (hs.port_lt k)
  have hdo : ∃ q : Port, (s.boundExpired k lanes.toNat).fab.ports = setNth s.fab.ports k.val q ∧
      q.st = .detect ∧ q.fellBack = true ∧ q.tries = 0 := by
    rw [State.boundExpired_of_training _ h, if_pos (by omega), State.trainFailed_of_fallback _ (hq.symm ▸ hf) (hq.symm ▸ hr) (hq.symm ▸ hb)]
    exact ⟨_, State.ports_trans hset (State.detectPort_ports _), rfl, rfl, rfl⟩
  obtain ⟨q, hports, hst, hfell, htries⟩ := hdo
  obtain ⟨hp, hother⟩ := hs.port_set ((congrArg Fabric.ports (s.watched_fab (·.boundExpired k lanes.toNat))).trans hports)
  exact ⟨_, rfl, (congrArg Port.st hp).trans hst, (congrArg Port.fellBack hp).trans hfell, (congrArg Port.tries hp).trans htries, hother⟩

theorem does_trainingBoundExpiry_lost (lanes : BitVec 8) (hmany : 2 ≤ (s.port k.val).tries)
    (hno : (s.port k.val).fallback = false ∨ (s.port k.val).rate = true ∨ (s.port k.val).fellBack = true) :
    Does (.trainingBoundExpiry k lanes) s fun t => (t.port k.val).st = .down ∧ (t.port k.val).replay = [] ∧
      (∀ j, j ≠ k.val → t.port j = s.port j) ∧ t.reg (rPort k.val 0x38) = min (s.reg (rPort k.val 0x38) + 1) 0xFFFFFFFF := by
  have hset := s.attempted_ports (k := k) lanes.toNat
  have hq := State.port_self_of_ports hset (hs.port_lt k)
  obtain ⟨hports, hreg⟩ := State.trainFailed_of_none (s := s.attempted k lanes.toNat) (s.port k.val).countsMiscabled
    (hq.symm ▸ hno : ((s.attempted k lanes.toNat).port k.val).fallback = false ∨ ((s.attempted k lanes.toNat).port k.val).rate = true ∨
      ((s.attempted k lanes.toNat).port k.val).fellBack = true)
  have hdo : s.boundExpired k lanes.toNat = (s.attempted k lanes.toNat).trainFailed k.val (s.port k.val).countsMiscabled := by
    rw [State.boundExpired_of_training _ h, if_pos (by omega)]
  rw [← hdo] at hports hreg
  obtain ⟨hp, hother⟩ := hs.port_set
    ((congrArg Fabric.ports (s.watched_fab (·.boundExpired k lanes.toNat))).trans (State.ports_trans hset hports))
  have hne : rPort k.val 0x38 ≠ 0xC0820 := by
    have := k.isLt
    unfold rPort
    omega
  refine ⟨_, rfl, congrArg Port.st hp, congrArg Port.replay hp, hother, ?_⟩
  rw [State.watched_reg, hreg _ hne]
  exact State.reg_countedOnce ..

end

/-! ### RETRAIN -/

theorem State.boundExpired_of_proving (h : (s.port k.val).st = .retrain) (hproving : (s.port k.val).proving = true) :
    s.boundExpired k lanes = s := by
  simp [State.boundExpired, h, hproving]

theorem State.boundExpired_of_first (h : (s.port k.val).st = .retrain) (hproving : (s.port k.val).proving = false)
    (heq : (s.port k.val).equalizing = false) :
    s.boundExpired k lanes =
      s.setPort k.val { s.port k.val with equalizing := true, measured := false, trainSeen := false, delayRun := none } := by
  simp [State.boundExpired, h, hproving, heq]

theorem State.boundExpired_of_second (h : (s.port k.val).st = .retrain) (hproving : (s.port k.val).proving = false)
    (heq : (s.port k.val).equalizing = true) :
    s.boundExpired k lanes = ((s.setPort k.val { s.port k.val with laneFail := lanes }).dropPortRun k).fencePort k.val := by
  simp [State.boundExpired, h, hproving, heq]

/-- A port that is fenced (R451). -/
def Port.fenced (p : Port) : Port := { p with st := .down, replay := [], proving := false, delayRun := none }

theorem State.fencePort_ports (s : State) (k : Nat) : (s.fencePort k).fab.ports = setNth s.fab.ports k (s.port k).fenced :=
  congrArg Fabric.ports (State.fenceMap_kept.same .fab (by decide))

theorem State.event_faults (s : State) (type status loc : Nat) (detail : List Byte) : (s.event type status loc detail).faults = s.faults :=
  State.event_kept.same .faults (by decide)

theorem State.hand_faults (s : State) (origin obj : Nat) (old new : List Byte) : (s.hand origin obj old new).faults = s.faults :=
  State.hand_kept.same .faults (by decide)

theorem State.degrade_fencePort (s : State) (cause obj : Nat) : (s.degrade cause obj).faults.fencePort = s.faults.fencePort := by
  unfold State.degrade State.alert
  dsimp only
  split
  · rfl
  · rw [State.emit_faults, State.event_faults, State.hand_faults]
    rfl

/-- The record, the event and DEGRADED leave the map of fenced ports. -/
theorem State.fenceMap_fencePort (s : State) (kind sub die stack off old new loc : Nat) (cause : Option Nat) :
    (s.fenceMap kind sub die stack off old new loc cause).faults.fencePort = s.faults.fencePort := by
  have hrecord : ∀ (obj : Nat) (a b : List Byte), ((s.hand 12 obj a b).storeMap off new).faults = s.faults := fun _ _ _ => s.hand_faults ..
  unfold State.fenceMap
  dsimp only
  split
  · rw [State.degrade_fencePort, State.event_faults, hrecord]
  · rw [State.event_faults, hrecord]

theorem bit_putBit_self (w i : Nat) : bit (putBit w i true) i = true := by
  have hput : putBit w i true = w - w / 2 ^ i % 2 * 2 ^ i + 2 ^ i := by simp [putBit, putBits, bits]
  have hpos : 0 < 2 ^ i := Nat.two_pow_pos i
  unfold bit
  rw [hput]
  rcases Nat.mod_two_eq_zero_or_one (w / 2 ^ i) with h | h
  · rw [h, Nat.zero_mul, Nat.sub_zero, Nat.add_div_right _ hpos]
    exact decide_eq_true (by omega)
  · have hle : 2 ^ i ≤ w := by
      by_contra hlt
      rw [Nat.div_eq_of_lt (Nat.not_le.1 hlt)] at h
      exact absurd h (by decide)
    rw [h, Nat.one_mul, Nat.sub_add_cancel hle, h]
    rfl

theorem State.fencePort_isFenced (s : State) (k : Nat) : bit (s.fencePort k).faults.fencePort k = true := by
  unfold State.fencePort
  dsimp only
  rw [State.fenceMap_fencePort]
  exact bit_putBit_self ..

section
variable (hs : s.shape) (h : (s.port k.val).st = .retrain) (hproving : (s.port k.val).proving = false)
include hs h hproving

theorem does_trainingBoundExpiry_equalizes (lanes : BitVec 8) (heq : (s.port k.val).equalizing = false) :
    Does (.trainingBoundExpiry k lanes) s fun t =>
      t.port k.val = { s.port k.val with equalizing := true, measured := false, trainSeen := false, delayRun := none } ∧
      ∀ j, j ≠ k.val → t.port j = s.port j := by
  have hdo := congrArg (·.fab.ports) (State.boundExpired_of_first lanes.toNat h hproving heq)
  obtain ⟨hp, hother⟩ := hs.port_set ((congrArg Fabric.ports (s.watched_fab (·.boundExpired k lanes.toNat))).trans hdo)
  exact ⟨_, rfl, hp, hother⟩

theorem does_trainingBoundExpiry_fences (lanes : BitVec 8) (heq : (s.port k.val).equalizing = true) :
    Does (.trainingBoundExpiry k lanes) s fun t => (t.port k.val).st = .down ∧ bit t.faults.fencePort k.val = true ∧
      ∀ j, j ≠ k.val → t.port j = s.port j := by
  have hdo := State.boundExpired_of_second lanes.toNat h hproving heq
  have hdrop : ((s.setPort k.val { s.port k.val with laneFail := lanes.toNat }).dropPortRun k).fab.ports =
      setNth s.fab.ports k.val { s.port k.val with laneFail := lanes.toNat } :=
    congrArg Fabric.ports (State.dropPortRun_kept.same .fab (by decide))
  have hset := State.ports_trans hdrop (State.fencePort_ports _ k.val)
  obtain ⟨hp, hother⟩ := hs.port_set
    ((congrArg Fabric.ports (s.watched_fab (·.boundExpired k lanes.toNat))).trans ((congrArg (·.fab.ports) hdo).trans hset))
  refine ⟨_, rfl, congrArg Port.st hp, ?_, hother⟩
  rw [State.watched_faults, hdo]
  exact State.fencePort_isFenced ..

end
end

/-- Settles O51, command by command, and of each state of training its own way. -/
theorem linkTraining : Obligations.LinkTraining := by
  intro s k t1 t2 t3 set lanes hs
  refine ⟨does_delayMeasurement hs, fun h => congrArg Host.Outcome.next (State.measure_of_not h), rfl,
    fun h => congrArg Host.Outcome.next (State.delayIn_of_unasked t2 t3 h), fun r sent h ht => does_delayResp hs t2 t3 h ht,
    fun h => congrArg Host.Outcome.next (State.exchange_of_none h), fun r h hdue => ?_,
    fun r h hdue => ⟨does_delayExchange_repeat hs h hdue, does_delayExchange_fails hs h hdue⟩,
    does_train_detect set hs, does_train_align set hs, fun href => congrArg Host.Outcome.next (State.trainExit_of_noRef href),
    fun href => ⟨does_trainingStateExit_detect hs href, does_trainingStateExit_equalize hs href, does_trainingStateExit_align hs href,
      does_trainingStateExit_delay hs href,
      fun h hwait => congrArg Host.Outcome.next (State.trainExit_of_retrain_waiting href h hwait),
      does_trainingStateExit_measuring hs href, does_trainingStateExit_proving hs href⟩,
    fun h => ⟨does_trainingBoundExpiry_again hs h lanes, does_trainingBoundExpiry_fallback hs h lanes,
      does_trainingBoundExpiry_lost hs h lanes⟩,
    fun h hproving => does_trainingBoundExpiry_equalizes hs h hproving lanes, fun h hproving => ?_,
    fun h hproving => does_trainingBoundExpiry_fences hs h hproving lanes⟩
  · exact congrArg Host.Outcome.next ((State.exchange_of_run h).trans (State.atTimer_of_later hdue _))
  · have hstill := State.boundExpired_of_proving lanes.toNat h hproving
    exact congrArg Host.Outcome.next ((congrArg (State.sensorEvents · s) hstill).trans s.sensorEvents_self)

end Sys2Proof.Machine
end

section
/-! SUPPORT. A read of TIME_BEAT in a state whose beat number has passed 48 bits (R514, R516). -/
namespace Sys2Proof.Machine

/-- A module behind its setup lock, at beat 2^48. -/
def beatPast48Bits : State :=
  { State.reset with
    time := { State.reset.time with beat := 2 ^ 48 }
    svc := { State.reset.svc with phase := .setupLocked } }

/-- TIME_BEAT has 48 bits: it reads zero there. -/
theorem beatPast48Bits_read : beatPast48Bits.readReg .pcie 0x20030 = 0 := by decide

/-- Refutes O18: its clause on TIME_BEAT has the read return the whole number of the beat. The register holds the low 48 bits of it, and
nothing in the statement keeps the number below 2^48: at beat 2^48 the read returns zero. With the beat below 2^48 as a hypothesis this
counterexample is none. -/
theorem not_registerReads : ¬ Obligations.RegisterReads := by
  intro h
  obtain ⟨hlatch, -⟩ := h beatPast48Bits .pcie 0 0 Msg.blank
  obtain ⟨t, ht, -, hout, -⟩ := hlatch (by decide)
  obtain rfl := Host.Outcome.next.inj ht
  have hsent : [Out.data .pcie (BitVec.ofNat 64 (beatPast48Bits.readReg .pcie 0x20030)) 8] =
    [Out.data .pcie (BitVec.ofNat 64 (2 ^ 48)) 8] := hout
  rw [beatPast48Bits_read] at hsent
  injection hsent with hdata
  injection hdata with _ hvalue
  exact absurd hvalue (by decide)

end Sys2Proof.Machine
end

section
/-! SUPPORT. The deadline of a remote request at a doubled tick (R57, R315). -/
namespace Sys2Proof.Machine

/-- A LOAD of instance 0 with tag 0, its deadline at tick count 1. -/
def loadDueAtOne : Request :=
  { tag := 0, kind := 1, node := 0, inst := 0, config := 0, queue := 0, slot := 0, data := 0, length := 0, due := 1, tiles := [] }

/-- The request at tick count 0, before the doubled tick of `gatherAtDoubledTick`. -/
def requestAtDoubledTick : State :=
  { State.reset with
    time := gatherAtDoubledTick.time
    fab := { State.reset.fab with requests := [loadDueAtOne] } }

theorem requestAtDoubledTick_deadline :
    requestAtDoubledTick.shape ∧ requestAtDoubledTick.fallsDue loadDueAtOne.due = true ∧
      (requestAtDoubledTick.deadlineOf 0).time.clk = 2 ∧ max requestAtDoubledTick.time.clk loadDueAtOne.due = 1 := by
  unfold State.shape
  decide

/-- Refutes O48: its clause on a request whose deadline comes has the count stand at the deadline exactly. A doubled tick (R57) counts two
at once and may pass it: the count then stands one past the deadline. -/
theorem not_remoteRequests : ¬ Obligations.RemoteRequests := by
  rintro ⟨hmessages, -⟩
  obtain ⟨hshape, hdue, hclk, hmax⟩ := requestAtDoubledTick_deadline
  obtain ⟨-, -, -, -, -, -, hdeadline, -⟩ := hmessages requestAtDoubledTick Msg.blank hshape
  obtain ⟨t, ht, htime, -⟩ := hdeadline 0 loadDueAtOne rfl (by decide) hdue
  obtain rfl := Host.Outcome.next.inj ht
  exact absurd ((hclk.symm.trans htime).trans hmax) (by decide)

end Sys2Proof.Machine
end

section
/-! SUPPORT. The arbiters, the pick among the waiting requesters, and what a decision grants (R326 to R333). -/
namespace Sys2Proof.Machine

section
variable (s : State) (k : ArbKind) (i : Nat)

/-! ### An arbiter among the others -/

theorem State.arbNode_at : (s.arbNode k i).kind = k ∧ (s.arbNode k i).index = i := by
  unfold State.arbNode
  cases h : s.arb.nodes.find? (fun n => n.kind == k && n.index == i) with
  | none => exact ⟨rfl, rfl⟩
  | some n => simpa using List.find?_some h

theorem State.arbNode_setArbNode {n : ArbNode} (h : n.kind = k ∧ n.index = i) : (s.setArbNode n).arbNode k i = n := by
  obtain ⟨rfl, rfl⟩ := h
  have hothers : (s.arb.nodes.filter fun m => !(m.kind == n.kind && m.index == n.index)).find?
      (fun m => m.kind == n.kind && m.index == n.index) = none :=
    List.find?_eq_none.2 fun m hm => by simpa [imp_iff_not_or] using (List.mem_filter.1 hm).2
  unfold State.arbNode State.setArbNode
  rw [List.find?_append, hothers]
  simp

/-! ### The highest class, and the requester picked -/

theorem State.arbTop_le (ws : List ArbReq) (c : Nat) : s.arbTop k ws ≤ c ↔ ∀ r ∈ ws, s.arbClass k r.index.val ≤ c := by
  have hfold : ∀ b, ws.foldl (fun a r => max a (s.arbClass k r.index.val)) b ≤ c ↔
      b ≤ c ∧ ∀ r ∈ ws, s.arbClass k r.index.val ≤ c := by
    induction ws with
    | nil => simp
    | cons r rs ih => intro b; simp [ih, and_assoc]
  exact (hfold 0).trans (and_iff_right (Nat.zero_le c))

theorem State.arbClass_le_arbTop {ws : List ArbReq} {r : ArbReq} (h : r ∈ ws) : s.arbClass k r.index.val ≤ s.arbTop k ws :=
  (s.arbTop_le k ws _).1 (Nat.le_refl _) r h

/-- The highest class is that of a requester. -/
theorem State.exists_arbTop {ws : List ArbReq} (h : ws ≠ []) : ∃ r ∈ ws, s.arbClass k r.index.val = s.arbTop k ws := by
  by_contra hne
  push Not at hne
  have hlt : ∀ r ∈ ws, s.arbClass k r.index.val < s.arbTop k ws :=
    fun r hr => Nat.lt_of_le_of_ne (s.arbClass_le_arbTop k hr) (hne r hr)
  have htop := (s.arbTop_le k ws (s.arbTop k ws - 1)).2 fun r hr => Nat.le_sub_one_of_lt (hlt r hr)
  obtain ⟨r, hr⟩ := List.exists_mem_of_ne_nil ws h
  have := hlt r hr
  omega

/-- A requester put beside others of a class no lower. -/
theorem State.arbTop_append {ws : List ArbReq} {h : ArbReq} (hle : s.arbClass k h.index.val ≤ s.arbTop k ws) :
    s.arbTop k (ws ++ [h]) = s.arbTop k ws := by
  unfold State.arbTop at hle ⊢
  rw [List.foldl_append]
  exact max_eq_left hle

/-- The turn comes to every index of the kind. -/
theorem exists_turn (p : Nat) {x n : Nat} (h : x < n) : ∃ j, j < n ∧ (p + j) % n = x := by
  refine ⟨(x + (n - p % n)) % n, Nat.mod_lt _ (by omega), ?_⟩
  have hsum : p + (x + (n - p % n)) = x + n * (p / n + 1) := by
    have hp := Nat.mod_lt p (by omega : 0 < n)
    have hdiv := Nat.mod_add_div p n
    rw [Nat.mul_add]
    omega
  rw [Nat.add_mod_mod, hsum, Nat.add_mul_mod_self_left, Nat.mod_eq_of_lt h]

variable {ws : List ArbReq} {c p : Nat}

theorem State.exists_arbPick {r : ArbReq} (hr : r ∈ ws) (hi : r.index.val < arbRequesters k) (hc : s.arbClass k r.index.val = c) :
    ∃ g, s.arbPick k ws c p = some g := by
  obtain ⟨j, hj, hturn⟩ := exists_turn p hi
  refine Option.isSome_iff_exists.1 (List.findSome?_isSome_iff.2 ⟨j, List.mem_range.2 hj, ?_⟩)
  exact List.find?_isSome.2 ⟨r, hr, by simp [hturn, hc]⟩

/-- The one picked waits in the class. -/
theorem State.arbPick_mem {g : ArbReq} (h : s.arbPick k ws c p = some g) : g ∈ ws ∧ s.arbClass k g.index.val = c := by
  obtain ⟨j, -, hfind⟩ := List.exists_of_findSome?_eq_some h
  have hg := List.find?_some hfind
  simp only [Bool.and_eq_true, beq_iff_eq] at hg
  exact ⟨List.mem_of_find?_eq_some hfind, hg.2⟩

/-- A requester of the class at the pointer is the one picked. -/
theorem State.arbPick_pointer {g r : ArbReq} (h : s.arbPick k ws c p = some g) (hr : r ∈ ws) (hc : s.arbClass k r.index.val = c)
    (hp : r.index.val = p % arbRequesters k) : g.index = r.index := by
  obtain ⟨n, hn⟩ : ∃ n, arbRequesters k = n + 1 := by cases k <;> exact ⟨_, rfl⟩
  obtain ⟨g', hfind⟩ := Option.isSome_iff_exists.1 (List.find?_isSome.2 ⟨r, hr, by simp [← hp, hc]⟩ :
    (ws.find? fun r => r.index.val == (p + 0) % arbRequesters k && s.arbClass k r.index.val == c).isSome)
  have hg' := List.find?_some hfind
  simp only [Bool.and_eq_true, beq_iff_eq, Nat.add_zero] at hg'
  have hfirst : s.arbPick k ws c p = some g' := by
    unfold State.arbPick
    rw [hn, List.range_succ_eq_map, List.findSome?_cons, ← hn, hfind]
  obtain rfl : g = g' := Option.some.inj (h.symm.trans hfirst)
  exact Fin.ext (hg'.1.trans hp.symm)

end

/-! ### A grant (R330) -/

section
variable (s : State) {k : ArbKind} {i : Nat} {n : ArbNode} {ws : List ArbReq}

/-- A grant among requesters goes to one of the highest class, the one at the class's pointer where it waits. -/
theorem State.arbGrant_holder (hn : n.kind = k ∧ n.index = i) {r : ArbReq} (hr : r ∈ ws) (hi : r.index.val < arbRequesters k)
    (htop : s.arbClass k r.index.val = s.arbTop k ws) :
    ∃ g ∈ ws, ((s.arbGrant n ws).arbNode k i).holder = some g ∧ s.arbClass k g.index.val = s.arbTop k ws ∧
      ∀ q ∈ ws, s.arbClass k q.index.val = s.arbTop k ws →
        q.index.val = nth 0 n.ptrs (s.arbTop k ws) % arbRequesters k → g.index = q.index := by
  obtain ⟨rfl, rfl⟩ := hn
  obtain ⟨g, hg⟩ := s.exists_arbPick n.kind (p := nth 0 n.ptrs (s.arbTop n.kind ws)) hr hi htop
  obtain ⟨hmem, hcls⟩ := s.arbPick_mem n.kind hg
  refine ⟨g, hmem, ?_, hcls, fun q hq hc hp => s.arbPick_pointer n.kind hg hq hc hp⟩
  have hne : ws.isEmpty = false := by cases ws with
    | nil => nomatch hr
    | cons _ _ => rfl
  simp only [State.arbGrant, hne, hg, Bool.false_eq_true, if_false]
  rw [State.arbNode_setArbNode _ _ _ ⟨rfl, rfl⟩]

theorem State.arbGrant_nil (hn : n.kind = k ∧ n.index = i) : ((s.arbGrant n []).arbNode k i).holder = none :=
  congrArg ArbNode.holder (s.arbNode_setArbNode k i (n := { n with holder := none, waiting := [] }) hn)

/-- A grant counts at most a sequence declared too long (R332). -/
theorem State.arbGrant_reg {o : Nat} (ho : o ≠ 0x50068) : (s.arbGrant n ws).reg o = s.reg o := by
  unfold State.arbGrant
  split
  · rfl
  · dsimp only
    split
    · rfl
    · exact (s.reg_bumpIf _ _ o).trans (if_neg fun h => ho h.2)

end

/-! ### A decision (R330, R331) -/

section
variable {s : State} {k : ArbKind} {i : Nat} {ws : List ArbReq} {h : ArbReq}

theorem State.arbDecide_of_free {done : Bool} (hfree : (s.arbNode k i).holder = none ∨ done = true) :
    s.arbDecide k i ws done = s.arbGrant { s.arbNode k i with holder := none } ws := by
  unfold State.arbDecide
  cases done with
  | true => rfl
  | false =>
    have hnone : (s.arbNode k i).holder = none := hfree.resolve_right Bool.false_ne_true
    have hnode : ({ s.arbNode k i with holder := none } : ArbNode) = s.arbNode k i := by rw [← hnone]
    simp [hnone, hnode]

/-- The waiting requesters beside the holder. -/
def besides (h : ArbReq) (ws : List ArbReq) : List ArbReq := ws.filter fun r => r.index != h.index

theorem mem_besides {r : ArbReq} : r ∈ besides h ws ↔ r ∈ ws ∧ r.index ≠ h.index := by simp [besides]

/-- A locked holder, and one of no lower class, keeps its grant. -/
theorem State.arbDecide_of_kept (hh : (s.arbNode k i).holder = some h)
    (hkeep : (s.arbNode k i).locked h = true ∨ s.arbTop k (besides h ws) ≤ s.arbClass k h.index.val) :
    s.arbDecide k i ws false = s.setArbNode { s.arbNode k i with waiting := besides h ws } := by
  unfold State.arbDecide
  simp only [Bool.false_eq_true, if_false, hh]
  refine if_pos ?_
  rcases hkeep with hlock | htop
  · simp [hlock]
  · simp only [Bool.or_eq_true, decide_eq_true_eq]
    exact Or.inr htop

/-- An unlocked holder of a lower class is preempted, counted, and waits again. -/
theorem State.arbDecide_of_revoked (hh : (s.arbNode k i).holder = some h) (hlock : (s.arbNode k i).locked h = false)
    (htop : s.arbClass k h.index.val < s.arbTop k (besides h ws)) :
    s.arbDecide k i ws false = (s.bump (0x50048 + 8 * arbNo k)).arbGrant
      { s.arbNode k i with ptrs := setNth (s.arbNode k i).ptrs (s.arbClass k h.index.val) h.index.val } (besides h ws ++ [h]) := by
  have hne : (besides h ws).isEmpty = false := by
    cases hb : besides h ws with
    | nil => rw [hb] at htop; exact absurd htop (Nat.not_lt_zero _)
    | cons _ _ => rfl
  unfold State.arbDecide
  simp only [Bool.false_eq_true, if_false, hh]
  refine if_neg ?_
  change ¬ ((s.arbNode k i).locked h || (besides h ws).isEmpty || Decidable.decide (s.arbTop k (besides h ws) ≤ _)) = true
  simp [hlock, hne, htop]

end

/-! ### A decision point (R326, R329, R333) -/

section
variable {s : State} {kind : ArbKind} {index : Fin 768} {ws : List ArbReq} {sub : Fin 7}

theorem State.arbFlit_of_free {i : Nat} (h : (s.arbNode .thaxa i).holder = none) : s.arbFlit i = s := by
  unfold State.arbFlit
  rw [h]

/-- The flit that a grant lets go leaves the grant. -/
theorem State.arbFlit_holder (i : Nat) : ((s.arbFlit i).arbNode .thaxa i).holder = (s.arbNode .thaxa i).holder := by
  unfold State.arbFlit
  split
  · rfl
  next h hh =>
    dsimp only
    split
    · rfl
    · show ((s.setArbNode { s.arbNode .thaxa i with sent := (s.arbNode .thaxa i).sent + 1 }).arbNode .thaxa i).holder = _
      rw [State.arbNode_setArbNode]
      exact s.arbNode_at .thaxa i

/-- After a decision, at a Thaxa port, the flit that the grant lets go. -/
def State.afterDecision (s : State) (k : ArbKind) (i : Nat) : State := if k = .thaxa then s.arbFlit i else s

theorem State.afterDecision_kept {k : ArbKind} {i : Nat} : Kept [.fab, .arb] s (s.afterDecision k i) := by
  unfold State.afterDecision
  split
  · exact State.arbFlit_kept
  · exact Kept.refl s

theorem State.afterDecision_reg (k : ArbKind) (i o : Nat) : (s.afterDecision k i).reg o = s.reg o :=
  State.reg_of_regs (State.afterDecision_kept.same .regs (by decide)) o

theorem State.afterDecision_holder (k : ArbKind) (i : Nat) : ((s.afterDecision k i).arbNode k i).holder = (s.arbNode k i).holder := by
  unfold State.afterDecision
  split
  next hk => subst hk; exact s.arbFlit_holder i
  next => rfl

/-- No slot traffic holds the port, or its transfer has completed. -/
theorem State.slotMissed_of_none {i : Nat} {done : Bool}
    (h : ∀ h, (s.arbNode .thaxa i).holder = some h → done = true ∨ h.index.val ≠ 0) : s.slotMissed i done = s := by
  unfold State.slotMissed
  dsimp only
  split
  next h' hh => exact if_pos (by simpa using h h' hh)
  next => rfl

theorem State.index_lt_of_mayWait {i t : Nat} {r : ArbReq} (h : s.arbMayWait kind i t r = true) :
    r.index.val < arbRequesters kind := by
  simp only [State.arbMayWait, Bool.and_eq_true, decide_eq_true_eq] at h
  exact h.1

/-- The decision point of a port, in sevenths of a tick of the beat (R333). -/
abbrev State.pointAt (s : State) (sub : Fin 7) : Nat := s.time.tick * 7 + sub.val

/-- All requesters may wait at the arbiter and begin. -/
def State.allReady (s : State) (kind : ArbKind) (i t : Nat) (ws : List ArbReq) : Prop :=
  ∀ r ∈ ws, s.arbMayWait kind i t r = true ∧ (kind = .thaxa → s.mayBegin i t r = true)

section
variable (hi : index.val < arbCount kind) (hphase : kind = .thaxa → s.slotPhase index.val (s.pointAt sub) ≠ .closing)
  (hws : s.allReady kind index.val (s.pointAt sub) ws)
include hi hphase hws

/-- A decision where no OPEN is near and no slot traffic stands past its CLOSE: that of R330 over all requesters. -/
theorem exec_arbiterDecision {done : Bool} (hslot : ∀ h, (s.arbNode kind index.val).holder = some h →
      done = true ∨ (kind = .thaxa → h.index.val = 0 → s.slotPhase index.val (s.pointAt sub) = .inside)) :
    exec (.arbiterDecision kind index ws done sub) s = .next ((s.arbDecide kind index.val ws done).afterDecision kind index.val) := by
  have hwait : ws.filter (s.arbMayWait kind index.val (s.pointAt sub)) = ws :=
    List.filter_eq_self.2 fun r hr => (hws r hr).1
  show execArbiterDecision kind index ws done s sub = _
  unfold execArbiterDecision State.afterDecision
  rw [if_neg (Nat.not_le.2 hi)]
  cases kind with
  | thaxa =>
    have hbegin : ws.filter (s.mayBegin index.val (s.pointAt sub)) = ws :=
      List.filter_eq_self.2 fun r hr => (hws r hr).2 rfl
    simp only [State.arbPort, hwait, hbegin, if_true]
    split
    next hc => exact absurd hc (hphase rfl)
    next => rfl
    next ho =>
      rw [State.slotMissed_of_none fun h hh =>
        (hslot h hh).imp_right fun hs h0 => SlotPhase.noConfusion (ho.symm.trans (hs rfl h0))]
  | hbm | vault | cs => exact congrArg (fun l => Host.Outcome.next (s.arbDecide _ index.val l done)) hwait

/-- A free arbiter stays free without requesters; among requesters it grants one of the highest class, from its pointer on. -/
theorem arbiterDecision_of_free {done : Bool} (hfree : (s.arbNode kind index.val).holder = none ∨ done = true) :
    (ws = [] → Does (.arbiterDecision kind index ws done sub) s fun t => (t.arbNode kind index.val).holder = none) ∧
    (ws ≠ [] → Does (.arbiterDecision kind index ws done sub) s fun t => ∃ g ∈ ws, (t.arbNode kind index.val).holder = some g ∧
      (∀ r ∈ ws, s.arbClass kind r.index.val ≤ s.arbClass kind g.index.val) ∧
      (∀ r ∈ ws, s.arbClass kind r.index.val = s.arbClass kind g.index.val →
        r.index.val = nth 0 (s.arbNode kind index.val).ptrs (s.arbClass kind g.index.val) % arbRequesters kind → g.index = r.index) ∧
      Only [.arb, .fab, .regs] s t) := by
  have hexec := exec_arbiterDecision hi hphase hws
    fun h hh => hfree.symm.imp_right fun hnone => nomatch hnone.symm.trans hh
  have hnode := s.arbNode_at kind index.val
  rw [State.arbDecide_of_free hfree] at hexec
  refine ⟨fun hnil => ⟨_, hexec, ?_⟩, fun hne => ⟨_, hexec, ?_⟩⟩
  · subst hnil
    rw [State.afterDecision_holder, State.arbGrant_nil]
    exact hnode
  · obtain ⟨r, hr, htop⟩ := s.exists_arbTop kind hne
    obtain ⟨g, hg, hgrant, hcls, hpointer⟩ := s.arbGrant_holder (n := { s.arbNode kind index.val with holder := none }) hnode hr
      (State.index_lt_of_mayWait (hws r hr).1) htop
    refine ⟨g, hg, (State.afterDecision_holder _ _).trans hgrant, ?_, ?_,
      (kept_of_exec hexec).only.mono (show [Part.regs, .fab, .arb] ⊆ _ by decide)⟩
    · rw [hcls]
      exact fun q hq => s.arbClass_le_arbTop kind hq
    · rw [hcls]
      exact hpointer

/-- A holder that keeps its grant. -/
theorem arbiterDecision_of_kept {h : ArbReq} (hh : (s.arbNode kind index.val).holder = some h)
    (hslot : kind = .thaxa → h.index.val = 0 → s.slotPhase index.val (s.pointAt sub) = .inside)
    (hkeep : (s.arbNode kind index.val).locked h = true ∨ ∀ r ∈ ws, s.arbClass kind r.index.val ≤ s.arbClass kind h.index.val) :
    Does (.arbiterDecision kind index ws false sub) s fun t =>
      (t.arbNode kind index.val).holder = some h ∧ Only [.arb, .fab] s t := by
  have hexec := exec_arbiterDecision (done := false) hi hphase hws fun h' hh' => .inr (Option.some.inj (hh.symm.trans hh') ▸ hslot)
  rw [State.arbDecide_of_kept hh (hkeep.imp_right fun hle => (s.arbTop_le kind _ _).2 fun r hr => hle r (mem_besides.1 hr).1)] at hexec
  refine ⟨_, hexec, ?_, (State.afterDecision_kept.andThen (State.setArbNode_kept.mono (by decide)) (by decide)).only⟩
  rw [State.afterDecision_holder, State.arbNode_setArbNode]
  · exact hh
  · exact s.arbNode_at kind index.val

/-- A requester of a higher class than an unlocked holder's takes the grant, and the revocation is counted. -/
theorem arbiterDecision_of_revoked {h r : ArbReq} (hh : (s.arbNode kind index.val).holder = some h)
    (hslot : kind = .thaxa → h.index.val = 0 → s.slotPhase index.val (s.pointAt sub) = .inside)
    (hlock : (s.arbNode kind index.val).locked h = false) (hr : r ∈ ws) (hne : r.index ≠ h.index)
    (hlt : s.arbClass kind h.index.val < s.arbClass kind r.index.val) :
    Does (.arbiterDecision kind index ws false sub) s fun t =>
      t.reg (0x50048 + 8 * arbNo kind) = min (s.reg (0x50048 + 8 * arbNo kind) + 1) 0xFFFFFFFF ∧
      ∃ g ∈ ws, (t.arbNode kind index.val).holder = some g ∧ s.arbClass kind h.index.val < s.arbClass kind g.index.val ∧
        ∀ q ∈ ws, q.index ≠ h.index → s.arbClass kind q.index.val ≤ s.arbClass kind g.index.val := by
  have hexec := exec_arbiterDecision (done := false) hi hphase hws fun h' hh' => .inr (Option.some.inj (hh.symm.trans hh') ▸ hslot)
  have hmem : r ∈ besides h ws := mem_besides.2 ⟨hr, hne⟩
  have htop := hlt.trans_le (s.arbClass_le_arbTop kind hmem)
  rw [State.arbDecide_of_revoked hh hlock htop] at hexec
  refine ⟨_, hexec, ?_, ?_⟩
  · have hcounter : 0x50048 + 8 * arbNo kind ≠ 0x50068 := by cases kind <;> decide
    rw [State.afterDecision_reg, State.arbGrant_reg _ hcounter, State.reg_bump, if_pos rfl]
  · obtain ⟨q, hq, hqtop⟩ := s.exists_arbTop kind (List.ne_nil_of_mem hmem)
    have hall := s.arbTop_append kind htop.le
    obtain ⟨g, hg, hgrant, hcls, -⟩ := (s.bump (0x50048 + 8 * arbNo kind)).arbGrant_holder
      (n := { s.arbNode kind index.val with
        ptrs := setNth (s.arbNode kind index.val).ptrs (s.arbClass kind h.index.val) h.index.val })
      (s.arbNode_at kind index.val) (List.mem_append_left [h] hq)
      (State.index_lt_of_mayWait (hws q (mem_besides.1 hq).1).1) (hqtop.trans hall.symm)
    have hgtop : s.arbClass kind g.index.val = s.arbTop kind (besides h ws) := hcls.trans hall
    have hgws : g ∈ besides h ws := by
      refine (List.mem_append.1 hg).resolve_right fun hgh => ?_
      obtain rfl := List.mem_singleton.1 hgh
      exact absurd hgtop htop.ne
    refine ⟨g, (mem_besides.1 hgws).1, (State.afterDecision_holder _ _).trans hgrant, hgtop ▸ htop, fun p hp hph => ?_⟩
    exact hgtop ▸ s.arbClass_le_arbTop kind (mem_besides.2 ⟨hp, hph⟩)

end

/-! ### A port just before an OPEN and past a CLOSE (R75, R328, R333) -/

theorem exec_arbiterDecision_of_port {done : Bool} (hi : index.val < 9) :
    exec (.arbiterDecision .thaxa index ws done sub) s = .next (s.arbPort index.val (s.pointAt sub) ws done) :=
  if_neg (Nat.not_le.2 hi)

theorem exec_arbiterDecision_of_closing (hi : index.val < 9) (hphase : s.slotPhase index.val (s.pointAt sub) = .closing) :
    exec (.arbiterDecision .thaxa index ws false sub) s =
      .next (s.arbClose index.val (ws.filter (s.arbMayWait .thaxa index.val (s.pointAt sub))) false) := by
  rw [exec_arbiterDecision_of_port hi]
  simp only [State.arbPort, hphase]

section
variable {i : Nat} {h : ArbReq}

theorem State.arbClose_of_free (hh : (s.arbNode .thaxa i).holder = none) :
    s.arbClose i ws false = s.setArbNode { s.arbNode .thaxa i with waiting := ws } := by
  unfold State.arbClose
  simp only [hh]

theorem State.arbClose_of_locked (hh : (s.arbNode .thaxa i).holder = some h) (hlock : (s.arbNode .thaxa i).locked h = true) :
    s.arbClose i ws false = s := by
  unfold State.arbClose
  simp only [hh, hlock, Bool.false_eq_true, if_false, if_true]

theorem State.arbClose_of_unlocked (hh : (s.arbNode .thaxa i).holder = some h) (hlock : (s.arbNode .thaxa i).locked h = false) :
    s.arbClose i ws false = (s.bump 0x50048).setArbNode { s.arbNode .thaxa i with
      holder := none, waiting := besides h ws ++ [h],
      ptrs := setNth (s.arbNode .thaxa i).ptrs (s.arbClass .thaxa h.index.val) h.index.val } := by
  unfold State.arbClose
  simp only [hh, hlock, Bool.false_eq_true, if_false]
  rfl

theorem State.slotMissed_of_slot (hh : (s.arbNode .thaxa i).holder = some h) (h0 : h.index.val = 0) :
    s.slotMissed i false = ({ s with fab := { s.fab with slotMisses := s.fab.slotMisses + 1 } } : State).setArbNode
      { s.arbNode .thaxa i with holder := none } := by
  unfold State.slotMissed
  simp [hh, h0]

end

/-- SLOT waits only inside a slot. -/
theorem State.arbMayWait_slot {r : ArbReq} {i t : Nat} (h0 : r.index.val = 0) (hphase : s.slotPhase i t ≠ .inside) :
    s.arbMayWait .thaxa i t r = false := by
  simp [State.arbMayWait, h0, hphase]

/-- A locked sequence ends before the next OPEN. -/
theorem State.mayBegin_locked {r : ArbReq} {i t o : Nat} (hlock : arbLocked .thaxa r = true) (ho : s.nextOpen i t = some o)
    (h : s.mayBegin i t r = true) : t + r.declared * s.flitTime i ≤ o := by
  simpa [State.mayBegin, ho, hlock] using h

/-- Just before an OPEN no flit starts. -/
theorem arbiterDecision_of_closing (hi : index.val < 9) (hphase : s.slotPhase index.val (s.pointAt sub) = .closing)
    (hh : (s.arbNode .thaxa index.val).holder = none ∨
      ∃ h, (s.arbNode .thaxa index.val).holder = some h ∧ (s.arbNode .thaxa index.val).locked h = false) :
    Does (.arbiterDecision .thaxa index ws false sub) s fun t =>
      (t.arbNode .thaxa index.val).holder = none ∧ t.fab = s.fab := by
  refine ⟨_, exec_arbiterDecision_of_closing hi hphase, ?_, State.arbClose_kept.same .fab (by decide)⟩
  rcases hh with hnone | ⟨h, hsome, hlock⟩
  · rw [State.arbClose_of_free hnone, State.arbNode_setArbNode]
    · exact hnone
    · exact s.arbNode_at .thaxa index.val
  · rw [State.arbClose_of_unlocked hsome hlock, State.arbNode_setArbNode]
    exact s.arbNode_at .thaxa index.val

/-- An unlocked holder gives way to an OPEN: it is counted, and waits again. -/
theorem arbiterDecision_closing_revokes {h : ArbReq} (hi : index.val < 9)
    (hphase : s.slotPhase index.val (s.pointAt sub) = .closing)
    (hh : (s.arbNode .thaxa index.val).holder = some h) (hlock : (s.arbNode .thaxa index.val).locked h = false) :
    Does (.arbiterDecision .thaxa index ws false sub) s fun t =>
      t.reg 0x50048 = min (s.reg 0x50048 + 1) 0xFFFFFFFF ∧ h ∈ (t.arbNode .thaxa index.val).waiting := by
  refine ⟨_, exec_arbiterDecision_of_closing hi hphase, ?_⟩
  dsimp only
  rw [State.arbClose_of_unlocked hh hlock, State.arbNode_setArbNode]
  · exact ⟨(s.reg_bump 0x50048 0x50048).trans (if_pos rfl), List.mem_append_right _ (List.mem_singleton.2 rfl)⟩
  · exact s.arbNode_at .thaxa index.val

/-- Slot traffic past its CLOSE gives the port up. -/
theorem arbiterDecision_of_missed {h : ArbReq} (hi : index.val < 9)
    (hphase : s.slotPhase index.val (s.pointAt sub) = .outside) (hws : ∀ r ∈ ws, r.index.val = 0)
    (hh : (s.arbNode .thaxa index.val).holder = some h) (h0 : h.index.val = 0) :
    Does (.arbiterDecision .thaxa index ws false sub) s fun t =>
      (t.arbNode .thaxa index.val).holder = none ∧ t.fab = { s.fab with slotMisses := s.fab.slotMisses + 1 } := by
  have hnone : ws.filter (s.arbMayWait .thaxa index.val (s.pointAt sub)) = [] :=
    List.filter_eq_nil_iff.2 fun r hr => Bool.eq_false_iff.1 (State.arbMayWait_slot (hws r hr) (by simp [hphase]))
  have hexec : exec (.arbiterDecision .thaxa index ws false sub) s =
      .next (((s.slotMissed index.val false).arbDecide .thaxa index.val [] false).arbFlit index.val) := by
    rw [exec_arbiterDecision_of_port hi]
    simp only [State.arbPort, hphase, hnone, List.filter_nil]
  have hfree : ((s.slotMissed index.val false).arbNode .thaxa index.val).holder = none := by
    rw [State.slotMissed_of_slot hh h0, State.arbNode_setArbNode]
    exact s.arbNode_at .thaxa index.val
  have hidle :
      (((s.slotMissed index.val false).arbDecide .thaxa index.val [] false).arbNode .thaxa index.val).holder = none := by
    rw [State.arbDecide_of_free (.inl hfree), State.arbGrant_nil]
    exact State.arbNode_at ..
  refine ⟨_, hexec, (State.arbFlit_holder _).trans hidle, ?_⟩
  rw [State.arbFlit_of_free hidle, State.arbDecide_kept.same .fab (by decide), State.slotMissed_of_slot hh h0]
  rfl

end

/-- Settles O52, clause by clause: an arbiter that decides by R330, a port just before an OPEN, one past a CLOSE, who waits, who begins. -/
theorem arbiterDecisions : Obligations.ArbiterDecisions := by
  intro s kind index ws sub
  refine ⟨fun hi done => if_pos hi, fun hi hphase hws => ⟨fun done => arbiterDecision_of_free hi hphase hws, fun h hh hslot =>
      ⟨fun hlock => arbiterDecision_of_kept hi hphase hws hh hslot (.inl hlock),
        fun hle => arbiterDecision_of_kept hi hphase hws hh hslot (.inr hle),
        fun r hr hlock hne hlt => arbiterDecision_of_revoked hi hphase hws hh hslot hlock hr hne hlt⟩⟩, ?_, ?_, ?_, ?_⟩
  · rintro rfl hi hphase
    refine ⟨arbiterDecision_of_closing hi hphase, fun h => arbiterDecision_closing_revokes hi hphase, fun h hh hlock => ?_⟩
    exact (exec_arbiterDecision_of_closing hi hphase).trans (congrArg Host.Outcome.next (State.arbClose_of_locked hh hlock))
  · rintro rfl hi hphase hws h
    exact arbiterDecision_of_missed hi hphase hws
  · rintro r rfl
    exact State.arbMayWait_slot
  · exact fun r o => State.mayBegin_locked

end Sys2Proof.Machine
end

section
/-! SUPPORT. The whole effect of the accepted writes of the arbitration, ledger and power blocks (R335, R424, R427, R438, R465, R475). -/
namespace Sys2Proof.Machine

/-! ### The ledger's fill, its acknowledgement and its mirror switch (R465) -/

/-- LOW and FULL as the count of unacknowledged records gives them. -/
def Ledger.filled (l : Ledger) : Ledger :=
  { l with low := Decidable.decide (258048 ≤ l.unacked),
           full := Decidable.decide (262144 ≤ l.unacked) || (Decidable.decide (258048 ≤ l.unacked) && l.full) }

theorem Ledger.filled_low (l : Ledger) : l.filled.low = true ↔ 258048 ≤ l.filled.unacked := decide_eq_true_iff

theorem Ledger.filled_full (l : Ledger) :
    l.filled.full = true ↔ 262144 ≤ l.filled.unacked ∨ (l.filled.low = true ∧ l.full = true) := by
  simp only [Ledger.filled, Bool.or_eq_true, Bool.and_eq_true, decide_eq_true_eq]
  rfl

section
variable (s : State)

theorem State.ledgerFill_ledger : s.ledgerFill.ledger = s.ledger.filled := by
  unfold State.ledgerFill
  exact (apply_ite State.ledger _ _ _).trans (ite_self _)

theorem State.writeAck_ledger (v : Nat) :
    ∃ lost, (s.writeAck v).ledger = ({ s.ledger with ack := bits v 0 48, overrun := lost } : Ledger).filled := by
  unfold State.writeAck
  dsimp only
  rw [State.ledgerFill_ledger]
  exact iteInduction (motive := fun y : State => ∃ lost, y.ledger.filled = Ledger.filled { s.ledger with ack := _, overrun := lost })
    (fun _ => ⟨false, rfl⟩) fun _ => ⟨s.ledger.overrun, rfl⟩

/-- The mirror's switch leaves the ring; switched off it has no fill. -/
theorem State.writeLedgerCfg_keeps (v : Nat) :
    (s.writeLedgerCfg v).ledger.ring = s.ledger.ring ∧ (s.writeLedgerCfg v).ledger.head = s.ledger.head := by
  unfold State.writeLedgerCfg
  split
  · exact ⟨rfl, rfl⟩
  · split
    · exact ⟨rfl, rfl⟩
    · simp only [State.ledgerFill_ledger]
      exact ⟨rfl, rfl⟩

theorem State.writeLedgerCfg_off {v : Nat} (h : bit v 0 = false) :
    (s.writeLedgerCfg v).ledger.low = false ∧ (s.writeLedgerCfg v).ledger.full = false := by
  simp [State.writeLedgerCfg, h]

/-! ### The fused SVN (R475) -/

theorem State.writeSvnCommit_sec (origin : Nat) {v : Nat} (h : bit v 0 = true) :
    (s.writeSvnCommit origin v).sec = { s.sec with fusedSvn := max s.sec.fusedSvn s.sec.svn } := by
  unfold State.writeSvnCommit
  rw [if_pos h, State.hand_sec]

/-! ### The cap and its lease (R424) -/

/-- No lease has come to its end. -/
def State.leaseRuns : Prop := ∀ due, s.power.lease = some due → s.time.clk < due

variable {s}

theorem State.ripeLease_of_runs (h : s.leaseRuns) : s.ripeLease = s := by
  unfold State.ripeLease
  split
  next due hl => exact if_neg (Nat.not_le.2 (h due hl))
  next => rfl

theorem State.noteCap_cap : s.noteCap.power.capWatts = s.power.capWatts ∧ s.noteCap.power.capValid = s.power.capValid := by
  unfold State.noteCap
  exact iteInduction (motive := fun y : State => y.power.capWatts = _ ∧ y.power.capValid = _)
    (fun _ => ⟨rfl, rfl⟩) fun _ => ⟨rfl, rfl⟩

/-- The cap that was in force before a change does not depend on the records held. -/
theorem State.noteCap_holding (l v : List Held) : (s.holding l v).noteCap.power = s.noteCap.power := by
  unfold State.noteCap
  dsimp only
  rw [apply_ite State.power, apply_ite State.power]
  rfl

theorem State.leaseEnds_power {due : Nat} (hl : s.power.lease = some due) (hd : s.fallsDue due = true) :
    s.leaseEnds.power = { (s.runTo due).noteCap.power with lease := none, fallback := true } := by
  unfold State.leaseEnds
  rw [hl]
  dsimp only
  rw [State.atTimer_of_due hd, State.event_kept.same .power (by decide), State.powerRecord_kept.same .power (by decide)]
  rfl

/-- A lease at its end, in a beat that holds the tick: FALLBACK is set. -/
theorem State.ripeLease_power {due : Nat} (hl : s.power.lease = some due) (h : due ≤ s.time.clk) (ht : s.time.tick < s.beatTicks) :
    s.ripeLease.power = { s.noteCap.power with lease := none, fallback := true } := by
  have hd : s.fallsDue due = true := decide_eq_true (by omega)
  unfold State.ripeLease
  rw [hl]
  dsimp only
  rw [if_pos h, State.leaseEnds_power hl hd, s.runTo_of_le h]

theorem State.ripeLease_cap :
    s.ripeLease.power.capWatts = s.power.capWatts ∧ s.ripeLease.power.capValid = s.power.capValid := by
  unfold State.ripeLease
  split
  next due hl =>
    split
    next h =>
      cases hd : s.fallsDue due with
      | true =>
        rw [State.leaseEnds_power hl hd, s.runTo_of_le h]
        exact State.noteCap_cap
      | false =>
        unfold State.leaseEnds
        rw [hl]
        dsimp only
        rw [State.atTimer_of_later hd]
        exact ⟨rfl, rfl⟩
    next => exact ⟨rfl, rfl⟩
  next => exact ⟨rfl, rfl⟩

theorem State.writeCap_power (v : Nat) :
    (s.writeCap v).power = { s.ripeLease.noteCap.power with
      capWatts := bits v 0 16, capValid := true, fallback := false, lease := some (s.time.clk + s.reg 0x40008 * 1000000) } := by
  obtain ⟨htime, hreg⟩ := s.ripeLease_leaves
  have hclk : s.ripeLease.noteCap.time = s.time := (State.noteCap_kept.same .time (by decide)).trans htime
  have hlength : s.ripeLease.noteCap.reg 0x40008 = s.reg 0x40008 :=
    (State.reg_of_regs (State.noteCap_kept.same .regs (by decide)) _).trans (hreg _ (by decide))
  rw [← hclk, ← hlength]
  rfl

theorem State.writeCap_kept_of_runs (h : s.leaseRuns) (v : Nat) : Kept [.power] s (s.writeCap v) := by
  unfold State.writeCap
  rw [State.ripeLease_of_runs h]
  exact State.startLease_kept.on (State.setPower_kept.on State.noteCap_kept)

theorem State.writeRenew_power {v : Nat} (h : bit v 0 = true) :
    (s.writeRenew v).power = { s.ripeLease.power with lease := some (s.time.clk + s.reg 0x40008 * 1000000) } := by
  obtain ⟨htime, hreg⟩ := s.ripeLease_leaves
  unfold State.writeRenew
  rw [if_pos h, ← htime, ← hreg _ (by decide)]
  rfl

theorem State.writeRenew_kept_of_runs (h : s.leaseRuns) (v : Nat) : Kept [.power] s (s.writeRenew v) := by
  unfold State.writeRenew
  rw [State.ripeLease_of_runs h]
  exact Kept.ite State.startLease_kept (Kept.refl s)

/-! ### Steelyard's settings (R427, R438) -/

theorem State.writeSteelCfg_reg (u o : Nat) :
    (s.writeSteelCfg u).reg o = if o = 0x40028 then
      (if bit u 0 && !(bit (s.reg 0x40028) 0) && bits u 16 21 = 0 then putBits u 16 21 5000 else u) else s.reg o :=
  s.reg_setReg ..

/-! ### The class set's activation (R335) -/

theorem State.arbActivate_time_of_due {set : List Nat} {due origin : Nat} (hp : s.arb.pend = some (set, due, origin))
    (hd : s.fallsDue due = true) : s.arbActivate.time = (s.runTo due).time := by
  unfold State.arbActivate
  rw [hp]
  dsimp only
  rw [State.atTimer_of_due hd]
  exact State.hand_kept.same .time (by decide)

theorem State.arbActivate_of_later {set : List Nat} {due origin : Nat} (hp : s.arb.pend = some (set, due, origin))
    (hd : s.fallsDue due = false) : s.arbActivate = s := by
  unfold State.arbActivate
  rw [hp]
  exact State.atTimer_of_later hd _

end

/-! ### The writes as rows -/

section
variable {s : State} {w : RegWr}

theorem does_arbCommit (h : s.accepts (rowAttempt w 0x50020 1 0)) (hv : bit (s.valueOf (rowAttempt w 0x50020 1 0)) 0 = true) :
    Does (.arbCommit w) s fun t =>
      t.arb = { s.arb with pend := some (s.arb.shadow, s.time.clk + 128, w.origin.code) } ∧
      Only [.arb, .handed, .platform, .out] s t := by
  refine does_write 0x50020 rfl h (rowAttempt_reg w _ _ _ rfl) fun l x e z => ?_
  rw [State.regEffect_arbCommit, if_pos hv, rowAttempt_origin]
  exact ⟨rfl, only_write (State.writeArbCommit_kept.mono (by decide)).only⟩

theorem does_arbSetActivation {set : List Nat} {due origin : Nat} (hp : s.arb.pend = some (set, due, origin)) :
    (s.fallsDue due = true → Does .arbSetActivation s fun t =>
      t.arb = { s.arb with active := set, pend := none } ∧ t.time = (s.runTo due).time ∧ Only [.arb, .time, .handed] s t) ∧
    (s.fallsDue due = false → exec .arbSetActivation s = .next s) :=
  ⟨fun hd => ⟨_, rfl, s.arbActivate_of_due hp hd, State.arbActivate_time_of_due hp hd,
      (State.arbActivate_kept.mono (by decide)).only⟩,
    fun hd => congrArg Host.Outcome.next (State.arbActivate_of_later hp hd)⟩

theorem does_ledgerAck (h : s.accepts (rowAttempt w 0x70008 0 0)) :
    Does (.ledgerAck w) s fun t =>
      t.ledger.ack = bits (s.valueOf (rowAttempt w 0x70008 0 0)) 0 48 ∧ t.ledger.ring = s.ledger.ring ∧
      t.ledger.head = s.ledger.head ∧ t.ledger.mirrorEn = s.ledger.mirrorEn ∧
      (t.ledger.low ↔ 258048 ≤ t.ledger.unacked) ∧ (t.ledger.full ↔ 262144 ≤ t.ledger.unacked ∨ (t.ledger.low ∧ s.ledger.full)) ∧
      Only [.ledger, .handed, .platform, .out] s t := by
  refine does_write 0x70008 rfl h (rowAttempt_reg w _ _ _ rfl) fun l x e z => ?_
  rw [State.regEffect_ack]
  obtain ⟨lost, hledger⟩ := (s.holding l x).writeAck_ledger (s.valueOf (rowAttempt w 0x70008 0 0))
  simp only [State.telling_ledger, hledger]
  exact ⟨rfl, rfl, rfl, rfl, Ledger.filled_low _, Ledger.filled_full _, only_write (State.writeAck_kept.mono (by decide)).only⟩

theorem does_ledgerCfg (h : s.accepts (rowAttempt w 0x70010 0 0)) :
    Does (.ledgerCfg w) s fun t =>
      t.ledger.mirrorEn = bit (s.valueOf (rowAttempt w 0x70010 0 0)) 0 ∧ t.ledger.ring = s.ledger.ring ∧ t.ledger.head = s.ledger.head ∧
      (t.ledger.mirrorEn = false → t.ledger.low = false ∧ t.ledger.full = false) ∧ Only [.ledger, .handed, .platform, .out] s t := by
  refine does_write 0x70010 rfl h (rowAttempt_reg w _ _ _ rfl) fun l x e z => ?_
  rw [State.regEffect_ledgerCfg]
  have henabled := (s.holding l x).writeLedgerCfg_mirrorEn (s.valueOf (rowAttempt w 0x70010 0 0))
  obtain ⟨hring, hhead⟩ := (s.holding l x).writeLedgerCfg_keeps (s.valueOf (rowAttempt w 0x70010 0 0))
  exact ⟨henabled, hring, hhead, fun hoff => State.writeLedgerCfg_off _ (henabled.symm.trans hoff),
    only_write (State.writeLedgerCfg_kept.mono (by decide)).only⟩

theorem does_fwSvnCommit (h : s.accepts (rowAttempt w 0x70048 1 0)) (hv : bit (s.valueOf (rowAttempt w 0x70048 1 0)) 0 = true) :
    Does (.fwSvnCommit w) s fun t =>
      t.sec.fusedSvn = max s.sec.fusedSvn s.sec.svn ∧ t.sec = { s.sec with fusedSvn := t.sec.fusedSvn, events := t.sec.events } ∧
      Only [.sec, .handed, .platform, .out] s t := by
  refine does_write 0x70048 rfl h (rowAttempt_reg w _ _ _ rfl) fun l x e z => ?_
  rw [State.regEffect_svn]
  have hsec := (s.holding l x).writeSvnCommit_sec (rowAttempt w 0x70048 1 0).origin hv
  refine ⟨?_, ?_, only_write (State.writeSvnCommit_kept.mono (by decide)).only⟩ <;> rw [State.telling_sec, hsec] <;> rfl

theorem does_cap (h : s.accepts (rowAttempt w 0x40000 0 0)) :
    Does (.cap w) s fun t =>
      t.power.capWatts = bits (s.valueOf (rowAttempt w 0x40000 0 0)) 0 16 ∧ t.power.capValid = true ∧ t.power.fallback = false ∧
      t.power.lease = some (s.time.clk + s.reg 0x40008 * 1000000) ∧
      (s.leaseRuns →
        t.power = { s.noteCap.power with capWatts := t.power.capWatts, capValid := true, fallback := false, lease := t.power.lease } ∧
        Only [.power, .handed, .platform, .out] s t) := by
  refine does_write 0x40000 rfl h (rowAttempt_reg w _ _ _ rfl) fun l x e z => ?_
  rw [State.regEffect_cap]
  have hpower := (s.holding l x).writeCap_power (s.valueOf (rowAttempt w 0x40000 0 0))
  refine ⟨congrArg Power.capWatts hpower, congrArg Power.capValid hpower, congrArg Power.fallback hpower, congrArg Power.lease hpower,
    fun hruns => ⟨?_, only_write ((State.writeCap_kept_of_runs (s := s.holding l x) hruns _).mono (by decide)).only⟩⟩
  rw [State.telling_power, hpower, State.ripeLease_of_runs (s := s.holding l x) hruns, State.noteCap_holding]

theorem does_capRenew (h : s.accepts (rowAttempt w 0x40010 1 0)) (hv : bit (s.valueOf (rowAttempt w 0x40010 1 0)) 0 = true) :
    Does (.capRenew w) s fun t =>
      t.power.lease = some (s.time.clk + s.reg 0x40008 * 1000000) ∧ t.power.capWatts = s.power.capWatts ∧
      t.power.capValid = s.power.capValid ∧
      (∀ due, s.power.lease = some due → due ≤ s.time.clk → s.time.tick < s.beatTicks → t.power.fallback = true) ∧
      (s.leaseRuns → t.power = { s.power with lease := t.power.lease } ∧ Only [.power, .handed, .platform, .out] s t) := by
  refine does_write 0x40010 rfl h (rowAttempt_reg w _ _ _ rfl) fun l x e z => ?_
  rw [State.regEffect_renew]
  have hpower := State.writeRenew_power (s := s.holding l x) hv
  obtain ⟨hwatts, hvalid⟩ := State.ripeLease_cap (s := s.holding l x)
  refine ⟨congrArg Power.lease hpower, (congrArg Power.capWatts hpower).trans hwatts, (congrArg Power.capValid hpower).trans hvalid,
    fun due hl hdue ht => ?_,
    fun hruns => ⟨?_, only_write ((State.writeRenew_kept_of_runs (s := s.holding l x) hruns _).mono (by decide)).only⟩⟩
  · rw [State.telling_power, hpower, State.ripeLease_power (s := s.holding l x) hl hdue ht]
  · rw [State.telling_power, hpower, State.ripeLease_of_runs (s := s.holding l x) hruns]
    rfl

theorem does_steelyardCfg (h : s.accepts (rowAttempt w 0x40028 0 0)) :
    Does (.steelyardCfg w) s fun t =>
      let v := s.valueOf (rowAttempt w 0x40028 0 0)
      let u := bits v 0 15 + bits v 16 21 * 2 ^ 16
      t.reg 0x40028 = (if bit u 0 && !(bit (s.reg 0x40028) 0) && bits u 16 21 = 0 then putBits u 16 21 5000 else u) ∧
      Only [.regs, .handed, .platform, .out] s t ∧ ∀ o, o ≠ 0x40028 → t.reg o = s.reg o := by
  refine does_write 0x40028 rfl h (rowAttempt_reg w _ _ _ rfl) fun l x e z => ?_
  rw [State.regEffect_steel]
  exact ⟨(State.writeSteelCfg_reg (s := s.holding l x) _ _).trans (if_pos rfl),
    only_write (State.writeSteelCfg_kept.mono (by decide)).only,
    fun o ho => (State.writeSteelCfg_reg (s := s.holding l x) _ o).trans (if_neg ho)⟩

end

/-- Settles O14, block by block: the arbiter's class set, the ledger and the SVN, the cap, its lease and the steelyard. -/
theorem unitWrites : Obligations.UnitWrites :=
  ⟨fun _ _ => ⟨does_arbCommit, fun _ _ _ => does_arbSetActivation⟩, fun _ _ => ⟨does_ledgerAck, does_ledgerCfg, does_fwSvnCommit⟩,
    fun _ _ => ⟨does_cap, does_capRenew, does_steelyardCfg⟩⟩

end Sys2Proof.Machine
end

section
/-! SUPPORT. The class registers: a read returns the shadow, a write sets its fields, and which values are refused (R334, R339). -/
namespace Sys2Proof.Machine

/-! ### The fields of a class register (R339) -/

/-- The first `n` class fields of a value, without its reserved bits. -/
def classFields (v n : Nat) : Nat := (List.range n).foldl (fun a i => a + bits v (4 * i) 3 * 2 ^ (4 * i)) 0

theorem classFields_succ (v n : Nat) : classFields v (n + 1) = classFields v n + bits v (4 * n) 3 * 2 ^ (4 * n) := by
  simp [classFields, List.range_succ]

theorem bits_lt (v lo n : Nat) : bits v lo n < 2 ^ n := Nat.mod_lt _ (by positivity)

theorem classFields_lt (v n : Nat) : classFields v n < 2 ^ (4 * n) := by
  induction n with
  | zero => simp [classFields]
  | succ n ih =>
    have hfield := Nat.mul_le_mul_right (2 ^ (4 * n)) (Nat.le_sub_one_of_lt (bits_lt v (4 * n) 3))
    have hpow : 2 ^ (4 * (n + 1)) = 2 ^ (4 * n) * 16 := by ring
    rw [classFields_succ, hpow]
    omega

/-- A field put above others leaves them. -/
theorem bits_add_field (x y : Nat) {i n : Nat} (h : i < n) : bits (x + y * 2 ^ (4 * n)) (4 * i) 3 = bits x (4 * i) 3 := by
  obtain ⟨k, rfl⟩ := Nat.exists_eq_add_of_lt h
  have hmul : y * 2 ^ (4 * (i + k + 1)) = y * 2 ^ (4 * k + 1) * 2 ^ 3 * 2 ^ (4 * i) := by ring
  unfold bits
  rw [hmul, Nat.add_mul_div_right _ _ (by positivity), Nat.add_mul_mod_self_right]

theorem bits_classFields (v : Nat) {i n : Nat} (h : i < n) : bits (classFields v n) (4 * i) 3 = bits v (4 * i) 3 := by
  induction n with
  | zero => omega
  | succ n ih =>
    rw [classFields_succ]
    rcases Nat.lt_succ_iff_lt_or_eq.1 h with hlt | rfl
    · rw [bits_add_field _ _ hlt, ih hlt]
    · have hdiv : (classFields v i + bits v (4 * i) 3 * 2 ^ (4 * i)) / 2 ^ (4 * i) = bits v (4 * i) 3 := by
        rw [Nat.add_mul_div_right _ _ (by positivity), Nat.div_eq_of_lt (classFields_lt v i), Nat.zero_add]
      calc bits (classFields v i + bits v (4 * i) 3 * 2 ^ (4 * i)) (4 * i) 3
          = bits v (4 * i) 3 % 2 ^ 3 := congrArg (· % 2 ^ 3) hdiv
        _ = bits v (4 * i) 3 := Nat.mod_eq_of_lt (bits_lt ..)

/-- Class 7 put in the first field leaves the others. -/
theorem bits_putBits_first (w i : Nat) : bits (putBits w 0 3 7) (4 * i) 3 = if i = 0 then 7 else bits w (4 * i) 3 := by
  have hput : putBits w 0 3 7 = w - w % 8 + 7 := by simp [putBits, bits]
  cases i with
  | zero => rw [hput, if_pos rfl]; show (w - w % 8 + 7) / 1 % 8 = 7; omega
  | succ i =>
    have hpow : 2 ^ (4 * (i + 1)) = 16 * 2 ^ (4 * i) := by ring
    have hsame : (w - w % 8 + 7) / 16 = w / 16 := by omega
    rw [if_neg (Nat.succ_ne_zero i), hput]
    unfold bits
    rw [hpow, ← Nat.div_div_eq_div_mul, ← Nat.div_div_eq_div_mul, hsame]

/-- The shadow that a write of class register `j` leaves. -/
def classWord (j v : Nat) : Nat := if j = 0 then putBits (classFields v 8) 0 3 7 else classFields v 8

theorem bits_classWord (j v : Nat) {i : Nat} (hi : i < 8) :
    bits (classWord j v) (4 * i) 3 = if j = 0 ∧ i = 0 then 7 else bits v (4 * i) 3 := by
  unfold classWord
  by_cases hj : j = 0
  · simp only [hj, if_true, true_and, bits_putBits_first, bits_classFields v hi]
  · simp only [hj, if_false, false_and, bits_classFields v hi]

theorem State.writeArbShadow_eq (s : State) (j v : Nat) :
    s.writeArbShadow j v = { s with arb := { s.arb with shadow := setNth s.arb.shadow j (classWord j v) } } := rfl

/-! ### The class registers among the others -/

section
variable (s : State) (j : Fin 4)

theorem State.readReg_class : s.readReg .pcie (0x50000 + 8 * j.val) = nth 0 s.arb.shadow j.val := by fin_cases j <;> rfl

theorem State.regEffect_class (origin v : Nat) (x : Extra) :
    s.regEffect origin (0x50000 + 8 * j.val) v x = s.writeArbShadow j.val v := by fin_cases j <;> rfl

theorem State.recordWrite_class (origin v : Nat) (acc : Access) (old new : Nat) :
    s.recordWrite origin (0x50000 + 8 * j.val) v acc old new = s := by fin_cases j <;> rfl

theorem State.encodingOk_class (v : Nat) : s.encodingOk (0x50000 + 8 * j.val) v = arbValueOk j.val v := by fin_cases j <;> rfl

variable {s} {j} {a : Attempt}

/-- An accepted write of a class register is the write of its shadow: no record (R337), and no platform event. -/
theorem does_classWrite {c : Instr} {P : State → Prop} (hc : exec c s = .next (s.watched (·.write a Extra.none))) (h : s.accepts a)
    (ha : a.reg = 0x50000 + 8 * j.val) (hP : P (s.writeArbShadow j.val (s.valueOf a))) : Does c s P := by
  obtain ⟨i, hi, hwrite⟩ := s.write_accepted a Extra.none h
  have hshadow : s.acceptWrite a i Extra.none = s.writeArbShadow j.val (s.valueOf a) := by
    unfold State.acceptWrite
    dsimp only
    rw [s.valueOf_eq a i hi, ha, State.recordWrite_class, State.regEffect_class]
  refine does_watchedWrite hc (hwrite.trans hshadow) ?_
  rwa [State.sensorEvents_of_still] <;> rfl

/-- An accepted value holds no reserved encoding. -/
theorem State.encodingOk_of_reason (h : s.reasonOf a = 0) : s.encodingOk a.reg (s.valueOf a) = true := by
  by_contra henc
  rw [Bool.not_eq_true] at henc
  unfold State.reasonOf at h
  dsimp only at h
  cases hi : regInfo a.reg with
  | none =>
    simp only [hi] at h
    split_ifs at h <;> exact absurd h (by decide)
  | some i =>
    rw [s.valueOf_eq a i hi] at henc
    simp only [hi, henc, Bool.not_false, if_true] at h
    split_ifs at h <;> exact absurd h (by decide)

theorem arbValueOk_field {j v i : Nat} (h : arbValueOk j v = true) (hi : i < 8) :
    (j = 0 ∧ i = 0) ∨ if i < nth 0 [6, 7, 5, 8] j then bits v (4 * i) 3 ≠ 7 else bits v (4 * i) 3 = 0 := by
  have hfield := List.all_eq_true.1 h i (List.mem_range.2 hi)
  by_cases h0 : j = 0 ∧ i = 0
  · exact .inl h0
  · refine .inr ?_
    rw [if_neg (by simpa [and_comm] using h0)] at hfield
    split_ifs at hfield ⊢ <;> exact of_decide_eq_true hfield

/-- The first index is used at every kind (R327). -/
theorem classIndexes_pos (j : Fin 4) : 0 < nth 0 [6, 7, 5, 8] j.val := by fin_cases j <;> decide

/-- Class 7 of a requester other than SLOT, and a value for an unused index, are refused. -/
theorem arbValueOk_refuses {i v : Nat} (hi : i < 8)
    (hbad : (i < nth 0 [6, 7, 5, 8] j.val ∧ ¬ (j.val = 0 ∧ i = 0) ∧ bits v (4 * i) 3 = 7) ∨
      (nth 0 [6, 7, 5, 8] j.val ≤ i ∧ bits v (4 * i) 3 ≠ 0)) : arbValueOk j.val v ≠ true := by
  intro hok
  have hpos := classIndexes_pos j
  rcases hbad with ⟨hused, hslot, h7⟩ | ⟨hunused, hvalue⟩
  · have hfield := (arbValueOk_field hok hi).resolve_left hslot
    rw [if_pos hused] at hfield
    exact hfield h7
  · have hfield := (arbValueOk_field hok hi).resolve_left (by omega)
    rw [if_neg (by omega)] at hfield
    exact hvalue hfield

end

/-- Settles O11: the read, the write of a shadow field by field, and the refusals by the check of encodings. -/
theorem classShadows : Obligations.ClassShadows := by
  intro s origin offset size value j hj a used ha
  refine ⟨ha ▸ s.readReg_class ⟨j, hj⟩, fun hlen hacc => does_classWrite (j := ⟨j, hj⟩) rfl hacc ha ?_,
    fun i hi hbad hreason => ?_⟩
  · refine ⟨rfl, State.writeArbShadow_kept.only, fun k hk => nth_setNth_ne 0 _ _ hk, fun i hi => ?_⟩
    rw [State.writeArbShadow_eq]
    dsimp only
    rw [nth_setNth_self 0 _ (by omega), bits_classWord j _ hi]
  · have hok := State.encodingOk_of_reason hreason
    rw [ha, s.encodingOk_class ⟨j, hj⟩] at hok
    exact arbValueOk_refuses (j := ⟨j, hj⟩) hi hbad hok

end Sys2Proof.Machine
end

section
/-! SUPPORT. Requests: a submission that passes its checks, the cancellation and the admission timeout (R355, R356, R361), and the draws of
the sampler (R379 to R381). -/
namespace Sys2Proof.Machine

/-! ### Submission (R355, R400) -/

section
variable {s : State} {j : Job}

/-- The instance with a request at the end of its queue and the request's tiles charged. -/
def Inst.enqueue (x : Inst) (q : Seq) : Inst :=
  { x with queue := x.queue ++ [q], acct := { x.acct with csUsed := x.acct.csUsed + q.csTiles } }

/-- A completion leaves an instance as it was set. -/
theorem State.complete_setInst_inst {i : Nat} (x : Inst) (status : Nat) (result : List Byte) (h : i < s.serve.insts.length) :
    ((s.setInst i x).complete j status result).inst i = x :=
  (State.inst_of_serve (State.complete_kept.same .serve (by decide)) i).trans (State.inst_setInst_self x h)

/-- SEQ_SUBMIT to an ACTIVE instance, without an adapter, within every limit. -/
theorem State.submit_of_fits {v : GenSlot SamplerRec} {p : Sampling} {prompt : List Nat} {b : Budget} (reads : List Check)
    (htq : field j.cmd.args 5 1 < 64) (hz : argsZero j.cmd.args 20 24 = true)
    (howner : (s.ring (1024 + field j.cmd.args 5 1)).owner = j.origin) (hactive : (s.inst j.cmd.inst.val).state = .active)
    (hsampler : (s.inst j.cmd.inst.val).sampler.current = some v) (hbudget : (s.inst j.cmd.inst.val).budget = some b)
    (hread : s.readSubmit (s.inst j.cmd.inst.val) v.val j.cmd = some (p, prompt))
    (hlen : prompt.length + field j.cmd.args 12 4 ≤ b.kvBudget) (hadapter : field j.cmd.args 6 2 = 0xFFFF)
    (htiles : (s.inst j.cmd.inst.val).acct.csUsed + promptTiles prompt.length ≤ (s.inst j.cmd.inst.val).acct.csLimit) :
    s.submit j reads =
      (s.setInst j.cmd.inst.val ((s.inst j.cmd.inst.val).enqueue (s.newSeq j p prompt))).complete j stOK [] := by
  have hmax : ¬ b.kvBudget < prompt.length + (s.newSeq j p prompt).maxNew := Nat.not_lt.2 hlen
  have hcs : ¬ (s.inst j.cmd.inst.val).acct.csLimit < (s.inst j.cmd.inst.val).acct.csUsed + (s.newSeq j p prompt).csTiles :=
    Nat.not_lt.2 htiles
  simp [State.submit, Inst.enqueue, Nat.not_le.2 htq, hz, howner, hactive, hsampler, hread, hbudget, hmax, hadapter, hcs]

end

/-! ### Cancellation (R361) -/

section
variable {s : State} {j : Job} {q : Seq}

/-- The instance with the requests of one number marked for cancellation. -/
def Inst.markCancel (x : Inst) (req : Word32) : Inst :=
  { x with seqs := x.seqs.map fun y => if y.req == req then { y with cancel := true } else y }

theorem Inst.cancel_of_markCancel {x : Inst} {req : Word32} {y : Seq} (hy : y ∈ (x.markCancel req).seqs) (hreq : y.req = req) :
    y.cancel = true := by
  obtain ⟨z, -, rfl⟩ := List.mem_map.1 hy
  by_cases hz : (z.req == req) = true
  · rw [if_pos hz]
  · rw [if_neg hz] at hreq
    exact absurd (beq_iff_eq.2 hreq) hz

/-- SEQ_CANCEL of a live request: another sender's is refused, a busy one is marked, and one at rest ends. -/
theorem State.cancel_of_live (hz : argsZero j.cmd.args 4 40 = true)
    (hq : ((s.inst j.cmd.inst.val).queue ++ (s.inst j.cmd.inst.val).seqs).find?
      (fun q => q.req == BitVec.ofNat 32 (field j.cmd.args 0 4)) = some q) :
    s.cancel j =
      if q.origin ≠ j.origin then s.fail j stNOT_PERMITTED
      else if q.busy.isSome then (s.setInst j.cmd.inst.val ((s.inst j.cmd.inst.val).markCancel q.req)).complete j stOK []
      else (s.endSeq j.cmd.inst.val q stCANCELLED).complete j stOK [] := by
  have hreq : q.req = BitVec.ofNat 32 (field j.cmd.args 0 4) := beq_iff_eq.1 (List.find?_some hq :)
  unfold State.cancel
  dsimp only
  rw [if_neg (by simp [hz]), hq, hreq]
  rfl

end

/-! ### The admission timeout (R47, R356) -/

section
variable {s : State} {i : Nat} {req : Word32}

theorem State.admitTimeout_of_deadline {q : Seq} {d : Nat} (hq : (s.inst i).queue.find? (fun q => q.req == req) = some q)
    (hd : q.deadline = some d) : s.admitTimeout i req = s.atTimer d fun s => s.timeoutSeq i q := by
  simp only [State.admitTimeout, hq, hd]

theorem State.admitTimeout_of_absent (h : ∀ q ∈ (s.inst i).queue, q.req ≠ req) : s.admitTimeout i req = s := by
  have hnone : (s.inst i).queue.find? (fun q => q.req == req) = none :=
    List.find?_eq_none.2 fun q hq hreq => h q hq (beq_iff_eq.1 hreq)
  simp only [State.admitTimeout, hnone]

end

/-! ### Draws (R379 to R381) -/

section
variable {s : State} {i : Nat} {req : Word32} {w : Sampled}

theorem State.mainDraw_of_unsampled (h : s.sampled i req = none) (k : Nat) : s.mainDraw i req k = s := by
  simp only [State.mainDraw, h]

theorem State.draftDraw_of_unsampled (h : s.sampled i req = none) (k : Nat) : s.draftDraw i req k = s := by
  simp only [State.draftDraw, h]

/-- The position in the sequence of the main draw after the accepted draft tokens: past the prompt's chunk, or past them. -/
def StepSeq.drawPos (e : StepSeq) : Nat := if e.prefill then e.pos + e.rows else e.pos + (e.accepted + 1)

/-- The row of the logits of that draw. -/
def StepSeq.drawLogitRow (e : StepSeq) : Nat := if e.prefill then e.row0 + e.rows - 1 else e.row0 + e.accepted

/-- The main draw past every draft token: its token is the step's last. -/
theorem State.mainDraw_past_draft {kept : List (Nat × Nat)} {sum : Nat} {nf : Bool} (hw : s.sampled i req = some w)
    (hready : w.e.prefill = true ∨ w.e.draftEnd = true ∨ w.e.d ≤ w.e.draft.length) (hpast : w.e.draft.length = w.e.accepted)
    (hdraw : s.drawRow i w.v w.q w.e w.e.accepted w.v.logitPage w.e.drawLogitRow = (.dist kept sum, nf)) :
    s.mainDraw i req (w.e.accepted + 1) =
      s.putPart w nf (w.e.last (pick (drawU w.q.par.seed w.e.drawPos 0) kept sum)) := by
  have hturn : (w.e.accepted + 1 ≠ w.e.accepted + 1 || (!w.e.prefill && !w.e.draftEnd && w.e.draft.length < w.e.d)) = false := by
    rcases hready with h | h | h <;> simp [h]
  have hnone : (w.e.draft[w.e.accepted]? : Option Nat) = none := List.getElem?_eq_none hpast.le
  unfold StepSeq.drawLogitRow at hdraw
  simp only [State.mainDraw, hw, hturn, Nat.add_sub_cancel, ← Nat.add_assoc, hdraw, hnone, Bool.false_eq_true, if_false]
  rfl

/-- A draft draw without PROB: its token is proposed and placed on the draft token targets. -/
theorem State.draftDraw_of_dist {kept : List (Nat × Nat)} {sum : Nat} {nf : Bool} (hw : s.sampled i req = some w)
    (hmore : w.e.draft.length < w.e.d) (hopen : w.e.draftEnd = false) (hprob : w.q.par.prob = false)
    (hdraw : s.drawRow i w.v w.q w.e w.e.draft.length w.v.dlogitPage (w.run.draftRow req) = (.dist kept sum, nf)) :
    s.draftDraw i req (w.e.draft.length + 1) =
      (s.putPart w nf { w.e with
        draft := w.e.draft ++ [pick (drawU w.q.par.seed (w.e.pos + (w.e.draft.length + 1)) 3) kept sum] }).feedDraft i w.v
        (pick (drawU w.q.par.seed (w.e.pos + (w.e.draft.length + 1)) 3) kept sum) := by
  have hturn : (w.e.draft.length + 1 = 0 || w.e.draft.length + 1 > w.e.d) = false := by simp; omega
  simp only [State.draftDraw, hw, hturn, hopen, hdraw, hprob, Bool.false_and, Bool.false_eq_true, ne_eq, not_true_eq_false, if_false]

end

/-- Settles O44, command by command: a submission and a cancellation past their checks, a deadline by whether the running beat holds it,
and the draws by the request's part in its step. -/
theorem requestCommands : Obligations.RequestCommands := by
  intro s j inst req hs
  have hlen : j.cmd.inst.val < (s.consumed j.cmd).serve.insts.length := (State.consumed_kept.shape hs).inst_lt _
  refine ⟨fun v p prompt b reads hr htq hz howner hactive hsampler hbudget hread hmax hadapter htiles => ?_,
    fun q hr hz hq => ?_, fun q d hq hd => ?_, fun h => congrArg Host.Outcome.next (State.admitTimeout_of_absent h),
    fun h k => ⟨congrArg Host.Outcome.next (State.mainDraw_of_unsampled h k), congrArg Host.Outcome.next (State.draftDraw_of_unsampled h k)⟩,
    fun w kept sum nf hw hready hpast hdraw => congrArg Host.Outcome.next (State.mainDraw_past_draft hw hready hpast hdraw),
    fun w kept sum nf hw hmore hopen hprob hdraw => congrArg Host.Outcome.next (State.draftDraw_of_dist hw hmore hopen hprob hdraw)⟩
  · refine ⟨_, congrArg Host.Outcome.next (State.command_of_runs hr rfl _), ?_⟩
    rw [State.submit_of_fits (s := s.consumed j.cmd) reads htq hz howner hactive hsampler hbudget hread hmax hadapter htiles]
    beta_reduce
    rw [State.complete_setInst_inst _ _ _ hlen]
    exact ⟨rfl, rfl, rfl⟩
  · have hexec : exec (.seqCancel j.cmd) s = .next _ := congrArg Host.Outcome.next
      ((State.command_of_runs hr rfl _).trans (State.cancel_of_live (s := s.consumed j.cmd) hz hq))
    refine ⟨fun horigin => hexec.trans ?_, fun horigin hbusy => ⟨_, hexec, ?_⟩, fun horigin hbusy => hexec.trans ?_⟩
    · rw [if_pos horigin]
    · rw [if_neg (not_not.2 horigin), if_pos hbusy]
      beta_reduce
      rw [State.complete_setInst_inst _ _ _ hlen]
      exact fun y => Inst.cancel_of_markCancel
    · rw [if_neg (not_not.2 horigin), if_neg (by simp [hbusy])]
  · have htimer := State.admitTimeout_of_deadline hq hd
    exact ⟨fun h => congrArg Host.Outcome.next (htimer.trans (State.atTimer_of_due h _)),
      fun h => congrArg Host.Outcome.next (htimer.trans (State.atTimer_of_later h _))⟩

end Sys2Proof.Machine
end

section
/-! SUPPORT. The one-way cells over a step (R470, R475). -/
namespace Sys2Proof.Machine

/-- Settles O8: no cell hangs on the queue, and what a command or a tick keeps holds that neither cell falls. -/
theorem monotoneCounters : Obligations.MonotoneCounters := by
  refine ⟨fun s t h => ?_, fun s t h => ?_⟩
  · obtain ⟨_, _, hk⟩ := step_kept h
    exact hk.svn
  · obtain ⟨_, _, hk⟩ := step_kept h
    exact hk.blocks

end Sys2Proof.Machine
end

section
/-! SUPPORT. Timers that fall due at a doubled tick: the count passes them (R57, R405, R423, R424). -/
namespace Sys2Proof.Machine

/-- After reset, at the doubled tick of `gatherAtDoubledTick`. -/
def resetAtDoubledTick : State := { State.reset with time := gatherAtDoubledTick.time }

/-- Ring 0 with its moderation timer at tick count 1. -/
def irqAtDoubledTick : State :=
  resetAtDoubledTick.setRing { Ring.reset 0 with timer := some 1 }

theorem irqAtDoubledTick_timer :
    irqAtDoubledTick.shape ∧ (irqAtDoubledTick.ring 0).timer = some 1 ∧ irqAtDoubledTick.fallsDue 1 = true ∧
      (irqAtDoubledTick.irqDue 0).time.clk = 2 ∧ max irqAtDoubledTick.time.clk 1 = 1 := by
  unfold State.shape
  decide

/-- Refutes O53: its clause on a moderation timer has the count stand at the timer's tick exactly. A doubled tick (R57) counts two at once
and may pass it: the count then stands one past the timer. -/
theorem not_hostInterface : ¬ Obligations.HostInterface := by
  rintro ⟨-, hinterrupts, -⟩
  obtain ⟨hshape, htimer, hdue, hclk, hmax⟩ := irqAtDoubledTick_timer
  obtain ⟨-, -, hfires, -⟩ := hinterrupts irqAtDoubledTick 0 0 0 hshape
  obtain ⟨t, ht, htime, -⟩ := hfires 1 htimer hdue
  obtain rfl := Host.Outcome.next.inj ht
  exact absurd ((hclk.symm.trans htime).trans hmax) (by decide)

/-- The module at work with DEADLINE at tick 1. -/
def decisionAtDoubledTick : State :=
  { resetAtDoubledTick with regs := [(0x40028, 2 ^ 16)], svc := { State.reset.svc with phase := .setupLocked } }

/-- What the decision keeps past tick DEADLINE: it takes no time. -/
theorem State.decide_kept_toTick {s : State} :
    Kept [.regs, .rings, .power, .handed, .out] (s.toTick (bits s.steelCfg 16 21)) s.decide := by
  unfold State.decide
  dsimp only
  exact State.alertCheck_kept.andThen ((State.setPower_kept.mono (by decide)).ite
    (State.powerRecord_kept.andThen (State.setPower_kept.mono (by decide))))

theorem State.decide_time (s : State) : (s.watched State.decide).time = (s.toTick (bits s.steelCfg 16 21)).time :=
  ((State.sensorEvents_kept (a1 := s)).same .time (by decide)).trans (State.decide_kept_toTick.same .time (by decide))

theorem decisionAtDoubledTick_tick :
    decisionAtDoubledTick.hubRuns = true ∧ decisionAtDoubledTick.power.decided ≠ decisionAtDoubledTick.time.beat + 1 ∧
      (decisionAtDoubledTick.toTick (bits decisionAtDoubledTick.steelCfg 16 21)).time.tick = 2 ∧
      max decisionAtDoubledTick.time.tick (bits (decisionAtDoubledTick.reg 0x40028) 16 21) = 1 := by
  decide

theorem State.decideOnce_of_open {s : State} (hr : s.hubRuns = true) (hd : s.power.decided ≠ s.time.beat + 1) :
    s.watched State.decideOnce = s.watched State.decide := by
  simp [State.watched, State.decideOnce, hr, hd]

/-- Refutes O55: its clause on a decision has the count stand at tick DEADLINE exactly. A doubled tick (R57) counts two at once and may pass
it: the decision is then taken one tick past DEADLINE. -/
theorem not_powerDecision : ¬ Obligations.PowerDecision := by
  intro h
  obtain ⟨hruns, hopen, htick, hmax⟩ := decisionAtDoubledTick_tick
  obtain ⟨-, hdecides⟩ := h decisionAtDoubledTick
  obtain ⟨t, ht, htime, -⟩ := hdecides hruns hopen
  obtain rfl := Host.Outcome.next.inj ht
  rw [State.decideOnce_of_open hruns hopen, State.decide_time, htick, hmax] at htime
  exact absurd htime (by decide)

/-- A lease that ends at tick count 1. -/
def leaseAtDoubledTick : State := resetAtDoubledTick.setPower { State.reset.power with lease := some 1 }

theorem leaseAtDoubledTick_ends :
    leaseAtDoubledTick.fallsDue 1 = true ∧ leaseAtDoubledTick.leaseEnds.time.clk = 2 ∧ max leaseAtDoubledTick.time.clk 1 = 1 := by
  decide

/-- Refutes O56: its clause on a lease that ends has the count stand at the lease's tick exactly. A doubled tick (R57) counts two at once and
may pass it: the count then stands one past the lease's end. -/
theorem not_powerEvents : ¬ Obligations.PowerEvents := by
  intro h
  obtain ⟨hdue, hclk, hmax⟩ := leaseAtDoubledTick_ends
  obtain ⟨-, -, hends, -⟩ := h leaseAtDoubledTick 0 ⟨0, 0, 0, 0, 0, 0, 0, 0, 0⟩ ⟨[], []⟩ ⟨0, 0, 0, 0, 0, 0⟩ 0
    ⟨0, 0, 0, false, false, false, 0, 0, 0, 0, 0, 0, true⟩
  obtain ⟨t, ht, htime, -⟩ := hends 1 rfl hdue
  obtain rfl := Host.Outcome.next.inj ht
  exact absurd ((hclk.symm.trans htime).trans hmax) (by decide)

end Sys2Proof.Machine
end

section
/-! SUPPORT. The cut of an emission (R382). -/
namespace Sys2Proof.Machine

/-- Where R382 cuts the tokens `ts`, drawn after `e` emitted ones, that are kept as `cut`: the kept ones are a prefix within MAX_NEW, only
the last of them may be a STOP token, and the reason names what ended them. -/
structure CutAt (q : Seq) (e : Nat) (ts : List Nat) (cut : List Nat × Nat) : Prop where
  kept      : cut.1 <+: ts
  within    : e + cut.1.length ≤ q.maxNew
  noStop    : ∀ x ∈ cut.1.dropLast, x ∉ q.par.stops
  stop      : cut.2 = 1 ↔ ∃ x, cut.1.getLast? = some x ∧ x ∈ q.par.stops
  maxNew    : cut.2 = 2 ↔ e + cut.1.length = q.maxNew ∧ ∀ x ∈ cut.1, x ∉ q.par.stops
  automaton : cut.2 ≠ 3
  whole     : cut.2 = 0 → cut.1 = ts

section
variable {q : Seq} {e t : Nat} {ts : List Nat}

theorem CutAt.nil (h : e < q.maxNew) : CutAt q e [] ([], 0) where
  kept := List.prefix_rfl
  within := h.le
  noStop := by simp
  stop := by simp
  maxNew := by simp; omega
  automaton := nofun
  whole _ := rfl

theorem CutAt.atStop (h : e < q.maxNew) (ht : t ∈ q.par.stops) : CutAt q e (t :: ts) ([t], 1) where
  kept := ⟨ts, rfl⟩
  within := h
  noStop := by simp
  stop := by simp [ht]
  maxNew := by simp [ht]
  automaton := nofun
  whole := nofun

theorem CutAt.atMaxNew (h : e + 1 = q.maxNew) (ht : t ∉ q.par.stops) : CutAt q e (t :: ts) ([t], 2) where
  kept := ⟨ts, rfl⟩
  within := h.le
  noStop := by simp
  stop := by simp [ht]
  maxNew := by simp [ht, h]
  automaton := nofun
  whole := nofun

/-- A token that ends nothing goes before what the rest keeps. -/
theorem CutAt.cons {cut : List Nat × Nat} (hcut : CutAt q (e + 1) ts cut) (ht : t ∉ q.par.stops) :
    CutAt q e (t :: ts) (t :: cut.1, cut.2) := by
  obtain ⟨kept, reason⟩ := cut
  have hlen : e + (t :: kept).length = e + 1 + kept.length := by rw [List.length_cons]; omega
  refine ⟨(List.prefix_cons_inj t).2 hcut.kept, hlen.trans_le hcut.within, ?_, hcut.stop.trans ?_, hcut.maxNew.trans ?_, hcut.automaton,
    fun h0 => congrArg (t :: ·) (hcut.whole h0)⟩
  · have hnoStop := hcut.noStop
    cases kept with
    | nil => simp
    | cons a l => simpa [List.dropLast_cons_cons, ht] using hnoStop
  · cases kept with
    | nil => simp [ht]
    | cons a l => rw [List.getLast?_cons_cons]
  · rw [hlen, List.forall_mem_cons]
    exact and_congr_right fun _ => (and_iff_right ht).symm

end

theorem cutEmission_cutAt (v : SamplerRec) {q : Seq} (hmask : q.par.mask < 2) (ts : List Nat) :
    ∀ st e, e < q.maxNew → CutAt q e ts (cutEmission v q st e ts) := by
  have hends : ∀ st, autEnds v q.par st = false := fun st => by simp [autEnds, Nat.not_le.2 hmask]
  induction ts with
  | nil => exact fun _ _ => CutAt.nil
  | cons t ts ih =>
    intro st e he
    unfold cutEmission
    simp only [hends, List.contains_iff_mem, Bool.false_eq_true, if_false]
    split
    · next ht => exact .atStop he ht
    · next ht =>
      split
      · next hm => exact .atMaxNew (by omega) ht
      · next hm => exact (ih _ _ (by omega)).cons ht

/-- Settles O45: without an automaton the cut is where the STOP tokens and MAX_NEW have it, token by token. -/
theorem emissionCut : Obligations.EmissionCut := by
  intro v q ts hmask hopen
  obtain ⟨hkept, hwithin, hnoStop, hstop, hmax, haut, hwhole⟩ := cutEmission_cutAt v hmask ts q.autState q.emitted hopen
  exact ⟨hkept, hwithin, hnoStop, hstop, hmax, haut, hwhole⟩

end Sys2Proof.Machine
end

section
/-! SUPPORT. The acceptance of an image (R473). -/
namespace Sys2Proof.Machine

/-- Settles O23: `fwOk` is the conjunction of the conditions of R473. -/
theorem imageAcceptance : Obligations.ImageAcceptance := by
  intro s im
  simp only [State.fwOk, Bool.and_eq_true, decide_eq_true_eq, beq_iff_eq, and_assoc]

end Sys2Proof.Machine
end

section
/-! SUPPORT. The descriptor of a channel that has waited for a tile before (R227, R410). -/
namespace Sys2Proof.Machine

/-- A descriptor that is owned, well formed and the last of its chain: one byte from the host. -/
def plainDescriptor : Word512 := BitVec.ofNat 512 (2 ^ 511 + 2 ^ 226 + 2 ^ 192)

/-- Channel 0 of the PF in WAIT, its last copy having waited for a tile. -/
def chanThatWaited : Chan := { Chan.reset with st := .waiting, waited := true }

/-- The module with that channel. -/
def waitingAfterFilling : State := State.reset.setChan 0 chanThatWaited

/-- The PF's doorbell of channel 0. -/
def bellOfChanZero : Bell := { fn := .pf, page := 1104, offset := 0, value := 0 }

theorem plainDescriptor_runs : (descOf plainDescriptor).own = true ∧ (descOf plainDescriptor).ok = true := by decide +kernel

theorem waitingAfterFilling_bell :
    ∃ t, exec (.dmaDoorbell bellOfChanZero plainDescriptor) waitingAfterFilling = .next t ∧ (t.chan 0).waited = false :=
  ⟨_, rfl, by decide +kernel⟩

/-- Refutes O54: its clause on a doorbell in WAIT lets the descriptor that is read again change nothing of the channel but its state and its
descriptor. A channel whose last copy waited for a FILLING tile (R227) still carries that note, and the new descriptor's read clears it. -/
theorem not_dmaCommands : ¬ Obligations.DmaCommands := by
  intro h
  obtain ⟨hown, hok⟩ := plainDescriptor_runs
  obtain ⟨-, hbell, -⟩ := h waitingAfterFilling bellOfChanZero 0 [] plainDescriptor State.reset_shape
  obtain ⟨hwaits, -⟩ := hbell rfl rfl rfl
  obtain ⟨t, ht, -, hruns, -⟩ := hwaits rfl
  obtain ⟨u, hu, hwaited⟩ := waitingAfterFilling_bell
  obtain rfl := Host.Outcome.next.inj (ht.symm.trans hu)
  rw [show t.chan 0 = _ from hruns hown hok] at hwaited
  cases hwaited

end Sys2Proof.Machine
end

section
/-! SUPPORT. Rings and channels as the lists that hold them, and the writes that change nothing a sensor shows (R390, R408, R478). -/
namespace Sys2Proof.Machine

/-! ### Writes that no platform event tells of -/

/-- Where the effect of an accepted write changes nothing that a state sensor shows, the write is its record and its effect alone. -/
theorem does_stillWrite {c : Instr} {s : State} {a : Attempt} {x : Extra} {P : State → Prop} {ps : List Part} (o : Nat)
    (hc : exec c s = .next (s.watched (·.write a x))) (h : s.accepts a) (ho : a.reg = o)
    (hk : ∀ y g v, Kept ps y (y.regEffect g o v x)) (hp : ∀ l v, P ((s.holding l v).regEffect a.origin o (s.valueOf a) x))
    (hps : Part.power ∉ ps ∧ Part.faults ∉ ps ∧ Part.phase ∉ ps := by decide) : Does c s P := by
  obtain ⟨i, hi, hw⟩ := s.write_accepted a x h
  obtain ⟨l, v, ha⟩ := s.acceptWrite_eq a i x
  rw [← s.valueOf_eq a i hi, ho] at ha
  have hheld : Kept [.handed] s (s.holding l v) := Kept.upd (Kept.refl s)
  have hkept : Kept (.handed :: ps) s (s.write a x) := by
    rw [hw, ha]
    exact ((hk _ _ _).mono (List.subset_cons_self ..)).on (hheld.mono (List.cons_subset_cons _ (List.nil_subset _)))
  have hstill : s.watched (·.write a x) = s.write a x := State.watched_of_kept hkept (by simpa using hps)
  refine ⟨_, hc, ?_⟩
  rw [hstill, hw, ha]
  exact hp l v

/-- The frame of the same. -/
theorem only_stillWrite {s y : State} {ps : List Part} {l v} (h : Only ps (s.holding l v) y) (hb : [.handed] ⊆ ps := by decide) :
    Only ps s y := (State.holding_only.mono hb).trans h

/-- A write that is accepted meets its register's conditions (R507). -/
theorem State.stateOk_of_reason {s : State} {a : Attempt} (h : s.reasonOf a = 0) : s.stateOk a.reg (s.valueOf a) = true := by
  by_contra hstate
  rw [Bool.not_eq_true] at hstate
  unfold State.reasonOf at h
  dsimp only at h
  cases hi : regInfo a.reg with
  | none =>
    simp only [hi] at h
    split_ifs at h <;> exact absurd h (by decide)
  | some i =>
    rw [s.valueOf_eq a i hi] at hstate
    simp only [hi, hstate, Bool.not_false, if_true] at h
    split_ifs at h <;> exact absurd h (by decide)

/-! ### Channels -/

section
variable {s t : State} {c : Nat} {x : Chan}

theorem State.shape.chan_lt (h : s.shape) (k : Fin 32) : k.val < s.host.chans.length := by
  obtain ⟨-, -, hc, -⟩ := h
  omega

theorem State.chans_of_kept {ps : List Part} (h : Kept ps s t) (hp : Part.chans ∉ ps := by decide) : t.host.chans = s.host.chans :=
  (congrArg HostIf.chans (h.same .chans hp) :)

theorem State.chan_of_chans (h : t.host.chans = s.host.chans) (k : Nat) : t.chan k = s.chan k := by
  unfold State.chan
  rw [h]

/-- Where one channel was set, it is the one that differs. -/
theorem State.chan_set (h : t.host.chans = setNth s.host.chans c x) (hc : c < s.host.chans.length) :
    t.chan c = x ∧ ∀ k, k ≠ c → t.chan k = s.chan k := by
  unfold State.chan
  rw [h]
  exact ⟨nth_setNth_self _ _ hc, fun k hk => nth_setNth_ne _ _ _ hk⟩

theorem setNth_setNth {α : Type} (l : List α) (i : Nat) (a b : α) : setNth (setNth l i a) i b = setNth l i b := List.set_set ..

/-- A channel once its descriptor has been written back (R410, R411). -/
def Chan.writtenBack (x : Chan) (d : Desc) (status : Nat) : Chan :=
  { x with head := d.next, st := if x.stopPending || status ≠ stOK then .stopped else if d.last then .idle else .fetch,
           stopPending := false, status := status, desc := none, done := min (x.done + 1) 0xFFFFFFFF }

theorem State.writeback_chans (s : State) (c : Nat) (d : Desc) (status done : Nat) :
    (s.writeback c d status done).host.chans = setNth s.host.chans c ((s.chan c).writtenBack d status) := by
  unfold State.writeback
  dsimp only
  split
  · exact State.chans_of_kept State.msix_kept
  · rfl

/-- The descriptor written back and then its OWN cleared (R410). -/
theorem State.writeback_out (s : State) (c : Nat) (d : Desc) (status done : Nat) :
    Out.host ((s.chan c).head.toNat + 63) [0] ∈ (s.writeback c d status done).out := by
  unfold State.writeback
  dsimp only
  split
  · exact State.msix_kept.out.subset (List.mem_append_right _ (List.mem_cons_of_mem _ (List.mem_singleton_self _)))
  · exact List.mem_append_right _ (List.mem_cons_of_mem _ (List.mem_singleton_self _))

/-- Only a channel in FETCH reads a descriptor. -/
theorem State.fetchDesc_of_not_fetch (h : (s.chan c).st ≠ .fetch) (w : Word512) : s.fetchDesc c w = s := by
  simp [State.fetchDesc, h]

/-- A channel in FETCH with the descriptor it reads (R410). -/
def Chan.fetched (x : Chan) (w : Word512) : Chan :=
  if (descOf w).own = false then { x with st := .waiting }
  else if (descOf w).ok = false then x.writtenBack (descOf w) stINVALID_FIELD
  else { x with st := .run, desc := some w, waited := false }

theorem State.fetchDesc_chans (h : (s.chan c).st = .fetch) (w : Word512) :
    (s.fetchDesc c w).host.chans = setNth s.host.chans c ((s.chan c).fetched w) := by
  unfold State.fetchDesc Chan.fetched
  cases hown : (descOf w).own with
  | false => simp [h, hown]
  | true =>
    cases hok : (descOf w).ok with
    | false => simpa [h, hown, hok] using s.writeback_chans c (descOf w) stINVALID_FIELD 0
    | true => simp [h, hown, hok]

end

/-! ### Rings -/

section
variable (s : State) {x : Ring}

theorem State.ring_num (r : Nat) : (s.ring r).num = r := by
  unfold State.ring
  cases h : s.host.rings.find? fun x => x.num == r with
  | none => rfl
  | some x => simpa using List.find?_some h

theorem find?_replaced_ring {l : List Ring} (h : (l.any fun y => y.num == x.num) = true) :
    ((l.map fun y => if y.num == x.num then x else y).find? fun y => y.num == x.num) = some x := by
  induction l with
  | nil => cases h
  | cons y l ih =>
    by_cases hy : y.num = x.num
    · simp [hy]
    · have hne : (y.num == x.num) = false := by simpa using hy
      rw [List.any_cons, hne, Bool.false_or] at h
      rw [List.map_cons, hne, if_neg Bool.false_ne_true, List.find?_cons, hne]
      exact ih h

theorem find?_replaced_other {l : List Ring} {k : Nat} (hk : k ≠ x.num) :
    ((l.map fun y => if y.num == x.num then x else y).find? fun y => y.num == k) = l.find? fun y => y.num == k := by
  induction l with
  | nil => rfl
  | cons y l ih =>
    rw [List.map_cons, List.find?_cons, List.find?_cons, ih]
    by_cases hy : y.num = x.num
    · have hx : (x.num == k) = false := by simpa using Ne.symm hk
      simp [hy, hx]
    · simp [hy]

theorem State.ring_setRing_self : (s.setRing x).ring x.num = x := by
  unfold State.ring State.setRing
  dsimp only
  split
  · next h => rw [find?_replaced_ring h]; rfl
  · next h =>
    have hnone : (s.host.rings.find? fun y => y.num == x.num) = none := by simpa [List.find?_eq_none] using h
    rw [List.find?_append, hnone]
    simp

theorem State.ring_setRing_ne {k : Nat} (hk : k ≠ x.num) : (s.setRing x).ring k = s.ring k := by
  have hx : (x.num == k) = false := by simpa using Ne.symm hk
  unfold State.ring State.setRing
  dsimp only
  split
  · rw [find?_replaced_other hk]
  · rw [List.find?_append, List.find?_cons, hx, List.find?_nil, Option.or_none]

/-- Where one ring was set, it is the one that differs. -/
theorem State.ring_set {r : Nat} (hx : x.num = r) : (s.setRing x).ring r = x ∧ ∀ k, k ≠ r → (s.setRing x).ring k = s.ring k := by
  subst hx
  exact ⟨s.ring_setRing_self, fun k => s.ring_setRing_ne⟩

end

end Sys2Proof.Machine
end

section
/-! SUPPORT. The writes of a ring's configuration and of a channel's control (R390, R406, R408, R410 to R413, R415). -/
namespace Sys2Proof.Machine

/-! ### RING_CFG -/

section
variable {s : State} {w : RegWr} {ring : Fin 1104}

/-- A ring with the fields of RING_CFG. -/
def Ring.configured (x : Ring) (v : Nat) : Ring := { x with sizeLog := bits v 1 5, cq := if x.num < 512 then bits v 6 9 else 0 }

/-- A ring set up afresh. -/
def Ring.begun (x : Ring) : Ring :=
  { x with enable := true, head := 0, tail := 0, used := 0, phase := true, st := 1, err := 0, unsig := 0, timer := none, lost := 0, bells := [] }

/-- A ring disabled. -/
def Ring.ended (x : Ring) : Ring := { x with enable := false, st := 0, err := 0, timer := none, unsig := 0, bells := [] }

/-- A ring after a write of RING_CFG (R390, R413). -/
def Ring.written (x : Ring) (v : Nat) : Ring :=
  if bit v 0 then (if x.enable then x.configured v else (x.configured v).begun) else (x.configured v).ended

theorem State.writeRingCfg_eq (s : State) (r v : Nat) : s.writeRingCfg r v = s.setRing ((s.ring r).written v) := by
  have hnum := s.ring_num r
  simp only [State.writeRingCfg, Ring.written, Ring.configured, hnum]
  cases bit v 0 with
  | false => rfl
  | true => cases (s.ring r).enable <;> rfl

theorem Ring.written_num (x : Ring) (v : Nat) : (x.written v).num = x.num := by
  unfold Ring.written
  split
  · split <;> rfl
  · rfl

/-- A write of RING_CFG sets one ring, and no other. -/
theorem State.writeRingCfg_ring (s : State) (r v : Nat) :
    (s.writeRingCfg r v).ring r = (s.ring r).written v ∧ ∀ k, k ≠ r → (s.writeRingCfg r v).ring k = s.ring k := by
  rw [s.writeRingCfg_eq]
  exact s.ring_set (((s.ring r).written_num v).trans (s.ring_num r))

theorem Ring.written_on (x : Ring) {v : Nat} (hv : bit v 0 = true) :
    (x.written v).enable = true ∧ (x.written v).sizeLog = bits v 1 5 ∧ (x.written v).cq = (if x.num < 512 then bits v 6 9 else 0) ∧
      (x.enable = false → (x.written v).st = 1 ∧ (x.written v).head = 0 ∧ (x.written v).tail = 0 ∧ (x.written v).used = 0 ∧
        (x.written v).phase = true ∧ (x.written v).err = 0) := by
  simp only [Ring.written, hv, if_true]
  cases hx : x.enable with
  | false => exact ⟨rfl, rfl, rfl, fun _ => ⟨rfl, rfl, rfl, rfl, rfl, rfl⟩⟩
  | true => exact ⟨hx, rfl, rfl, nofun⟩

theorem Ring.written_off (x : Ring) {v : Nat} (hv : bit v 0 = false) : x.written v = (x.configured v).ended := by simp [Ring.written, hv]

theorem does_ringEnable (h : s.accepts (rowAttempt w (0x200010 + ring.val * 0x40) 1 0))
    (hv : bit (s.valueOf (rowAttempt w (0x200010 + ring.val * 0x40) 1 0)) 0 = true) :
    Does (.ringEnable ring w) s fun t =>
      let v := s.valueOf (rowAttempt w (0x200010 + ring.val * 0x40) 1 0)
      (t.ring ring.val).enable = true ∧ (t.ring ring.val).sizeLog = bits v 1 5 ∧
      (t.ring ring.val).cq = (if ring.val < 512 then bits v 6 9 else 0) ∧
      ((s.ring ring.val).enable = false → (t.ring ring.val).st = 1 ∧ (t.ring ring.val).head = 0 ∧ (t.ring ring.val).tail = 0 ∧
        (t.ring ring.val).used = 0 ∧ (t.ring ring.val).phase = true ∧ (t.ring ring.val).err = 0) ∧
      (∀ k, k ≠ ring.val → t.ring k = s.ring k) ∧ Only [.rings, .handed, .platform, .out] s t := by
  refine does_stillWrite (0x200010 + ring.val * 0x40) rfl h (rowAttempt_reg w _ _ _ (ringCfg_aligned ring))
    (fun y g v => State.regEffect_ringCfg y g v _ ring ▸ State.writeRingCfg_kept) fun l x => ?_
  rw [State.regEffect_ringCfg]
  obtain ⟨hself, hother⟩ := (s.holding l x).writeRingCfg_ring ring.val (s.valueOf (rowAttempt w (0x200010 + ring.val * 0x40) 1 0))
  obtain ⟨hen, hsize, hcq, hfresh⟩ := (s.ring ring.val).written_on hv
  rw [s.ring_num] at hcq
  rw [hself]
  exact ⟨hen, hsize, hcq, hfresh, hother, only_stillWrite (State.writeRingCfg_kept.mono (by decide)).only⟩

theorem does_ringDisable (h : s.accepts (rowAttempt w (0x200010 + ring.val * 0x40) 0 1))
    (hv : bit (s.valueOf (rowAttempt w (0x200010 + ring.val * 0x40) 0 1)) 0 = false) :
    Does (.ringDisable ring w) s fun t =>
      (t.ring ring.val).enable = false ∧ (t.ring ring.val).st = 0 ∧ (t.ring ring.val).err = 0 ∧ (t.ring ring.val).timer = none ∧
      (t.ring ring.val).base = (s.ring ring.val).base ∧ (t.ring ring.val).owner = (s.ring ring.val).owner ∧
      (∀ k, k ≠ ring.val → t.ring k = s.ring k) ∧ Only [.rings, .handed, .platform, .out] s t := by
  refine does_stillWrite (0x200010 + ring.val * 0x40) rfl h (rowAttempt_reg w _ _ _ (ringCfg_aligned ring))
    (fun y g v => State.regEffect_ringCfg y g v _ ring ▸ State.writeRingCfg_kept) fun l x => ?_
  rw [State.regEffect_ringCfg]
  obtain ⟨hself, hother⟩ := (s.holding l x).writeRingCfg_ring ring.val (s.valueOf (rowAttempt w (0x200010 + ring.val * 0x40) 0 1))
  rw [hself, Ring.written_off _ hv]
  exact ⟨rfl, rfl, rfl, rfl, rfl, rfl, hother, only_stillWrite (State.writeRingCfg_kept.mono (by decide)).only⟩

end

/-! ### CHAN_CTRL -/

section
variable {s : State} {w : RegWr} {chan : Fin 32}

theorem State.writeChanCtrl_of_stop (s : State) (c : Nat) {v : Nat} (h0 : bit v 0 = false) (h1 : bit v 1 = true) :
    s.writeChanCtrl c v = s.setChan c (s.chan c).stop := by
  simp [State.writeChanCtrl, h0, h1]

/-- A channel that reads the descriptor at its head. -/
def Chan.reading (x : Chan) : Chan := { x with st := .fetch, desc := none }

theorem State.writeChanCtrl_of_start (s : State) (c : Nat) {v : Nat} (h0 : bit v 0 = true) (hrest : s.chanRests c = true) :
    s.writeChanCtrl c v = s.setChan c (s.chan c).reading := by
  simp [State.writeChanCtrl, h0, hrest, Chan.reading]

theorem State.chanEffect_start (s : State) (c : Nat) {v : Nat} (h0 : bit v 0 = true) (f : Word512) :
    s.chanEffect c 0x10 v (some f) = (s.writeChanCtrl c v).fetchDesc c f := by
  show (if bit v 0 then (s.writeChanCtrl c v).fetchDesc c f else _) = _
  rw [if_pos h0]

/-- A START from rest reads the descriptor at CHAN_HEAD (R410). -/
theorem State.chanEffect_start_chans (s : State) {c v : Nat} (h0 : bit v 0 = true) (hrest : s.chanRests c = true)
    (hc : c < s.host.chans.length) (f : Word512) : (s.chanEffect c 0x10 v (some f)).host.chans =
      setNth s.host.chans c ((s.chan c).reading.fetched f) := by
  have hself : (s.setChan c (s.chan c).reading).chan c = (s.chan c).reading := nth_setNth_self _ _ hc
  rw [s.chanEffect_start c h0, s.writeChanCtrl_of_start c h0 hrest, State.fetchDesc_chans (congrArg Chan.st hself :), hself,
    State.setChan_host, setNth_setNth]

theorem State.chanCtrlOk_of_stateOk {v : Nat} (h : s.stateOk (0xC0010 + chan.val * 0x40) v = true) : s.chanCtrlOk chan.val v = true := by
  unfold State.stateOk at h
  dsimp only at h
  by_cases hp : (s.svc.phase == .standbyEntry) = true
  · rw [if_pos hp] at h
    cases h
  · rw [if_neg hp] at h
    fin_cases chan <;> exact h

/-- A write of CHAN_CTRL that stops does not start: with both bits it is refused (log 11). -/
theorem State.stop_not_start {a : Attempt} (h : s.accepts a) (hreg : a.reg = 0xC0010 + chan.val * 0x40)
    (hv : bit (s.valueOf a) 1 = true) : bit (s.valueOf a) 0 = false := by
  obtain ⟨-, -, hreason⟩ := h
  have hok := State.stateOk_of_reason hreason
  rw [hreg] at hok
  have hctrl := State.chanCtrlOk_of_stateOk hok
  simp only [State.chanCtrlOk, hv, Bool.and_true, Bool.and_eq_true, Bool.not_eq_true'] at hctrl
  exact hctrl.1

/-- A STOP reaches one channel, and no other (R411). -/
theorem does_chanStop {P : State → Prop} (hs : s.shape) (h : s.accepts (rowAttempt w (0xC0010 + chan.val * 0x40) 2 0))
    (hv : bit (s.valueOf (rowAttempt w (0xC0010 + chan.val * 0x40) 2 0)) 1 = true)
    (hP : ∀ t, t.chan chan.val = (s.chan chan.val).stop → (∀ k, k ≠ chan.val → t.chan k = s.chan k) → Only [.chans, .handed] s t → P t) :
    Does (.chanStop chan w) s P := by
  have hreg := rowAttempt_reg w _ 2 0 (chanCtrl_aligned chan)
  have hstart := State.stop_not_start h hreg hv
  refine does_stillWrite (ps := [.chans]) (0xC0010 + chan.val * 0x40) rfl h hreg (fun y g v => ?_) fun l x => ?_
  · rw [State.regEffect_chanCtrl]
    exact State.writeChanCtrl_kept
  · rw [State.regEffect_chanCtrl]
    have hdo : (s.holding l x).chanEffect chan.val 0x10 _ Extra.none.fetched = (s.holding l x).setChan chan.val (s.chan chan.val).stop :=
      (s.holding l x).writeChanCtrl_of_stop chan.val hstart hv
    rw [hdo]
    obtain ⟨hself, hother⟩ := State.chan_set (s := s) (t := (s.holding l x).setChan chan.val (s.chan chan.val).stop) rfl (hs.chan_lt chan)
    exact hP _ hself hother (only_stillWrite (State.setChan_kept.mono (by decide)).only)

theorem Chan.stop_of_read {x : Chan} (h : x.st = .fetch ∨ x.st = .waiting) :
    x.stop = { x with st := .stopped, desc := none, stopPending := false } := by
  rcases h with h | h <;> simp [Chan.stop, h]

theorem Chan.stop_of_copy {x : Chan} (h : x.st = .run ∨ x.st = .writeback) : x.stop = { x with stopPending := true } := by
  rcases h with h | h <;> simp [Chan.stop, h]

theorem Chan.stop_of_rest {x : Chan} (h : x.st = .idle ∨ x.st = .stopped ∨ x.st = .error) : x.stop = x := by
  rcases h with h | h | h <;> simp [Chan.stop, h]

theorem State.chanRests_iff (s : State) (c : Nat) : s.chanRests c = true ↔ (s.chan c).st = .idle ∨ (s.chan c).st = .stopped := by
  simp [State.chanRests]

theorem does_chanStart (hs : s.shape) (fetched : Word512) (h : s.accepts (rowAttempt w (0xC0010 + chan.val * 0x40) 1 0))
    (hv : bit (s.valueOf (rowAttempt w (0xC0010 + chan.val * 0x40) 1 0)) 0 = true) (hrest : s.chanRests chan.val = true) :
    Does (.chanStart chan w fetched) s fun t =>
      let d := descOf fetched
      (d.own = false → t.chan chan.val = { s.chan chan.val with st := .waiting, desc := none }) ∧
      (d.own = true → d.ok = true → t.chan chan.val = { s.chan chan.val with st := .run, desc := some fetched, waited := false }) ∧
      (d.own = true → d.ok = false → (t.chan chan.val).st = .stopped ∧ (t.chan chan.val).status = stINVALID_FIELD ∧
        (t.chan chan.val).head = d.next) ∧
      (∀ k, k ≠ chan.val → t.chan k = s.chan k) ∧ Only [.chans, .rings, .handed, .platform, .out] s t := by
  refine does_stillWrite (ps := [.chans, .rings, .out]) (0xC0010 + chan.val * 0x40) rfl h
    (rowAttempt_reg w _ _ _ (chanCtrl_aligned chan)) (fun y g v => ?_) fun l x => ?_
  · rw [State.regEffect_chanCtrl]
    exact State.chanEffect_kept
  · rw [State.regEffect_chanCtrl]
    have hchans := (s.holding l x).chanEffect_start_chans hv hrest (hs.chan_lt chan) fetched
    obtain ⟨hself, hother⟩ := State.chan_set (s := s) hchans (hs.chan_lt chan)
    rw [hself]
    refine ⟨fun hown => ?_, fun hown hok => ?_, fun hown hok => ?_, hother,
      only_stillWrite (State.chanEffect_kept.mono (by decide)).only⟩
    · exact if_pos hown
    · exact (if_neg (by simp [hown])).trans (if_neg (by simp [hok]))
    · rw [Chan.fetched, if_neg (by simp [hown]), if_pos hok]
      exact ⟨if_pos (by simp [stINVALID_FIELD, stOK]), rfl, rfl⟩

/-! ### DMA_ERROR -/

theorem State.writeDmaError_chan (hs : s.shape) {v : Nat} (hv : bit v 0 = true) {k : Nat} (hk : k < 32) :
    (s.writeDmaError v).chan k =
      if (s.chan k).st = .error then { s.chan k with st := if k = 31 then .idle else .stopped } else s.chan k := by
  have hlt : k < s.host.chans.length := hs.chan_lt ⟨k, hk⟩
  simp [State.writeDmaError, hv, State.chan, nth, hlt]

theorem does_busErrorClear (hs : s.shape) (h : s.accepts (rowAttempt w 0xC0800 1 0)) (hv : bit (s.valueOf (rowAttempt w 0xC0800 1 0)) 0 = true) :
    Does (.busErrorClear w) s fun t => t.host.busError = false ∧
      (∀ k, k < 32 → (s.chan k).st = .error → (t.chan k).st = if k = 31 then .idle else .stopped) ∧
      (∀ k, k < 32 → (s.chan k).st ≠ .error → t.chan k = s.chan k) ∧ Only [.chans, .handed, .platform, .out] s t := by
  refine does_stillWrite (ps := [.chans]) 0xC0800 rfl h (rowAttempt_reg w _ _ _ rfl) (fun y g v => State.writeDmaError_kept) fun l x => ?_
  rw [State.regEffect_dmaError]
  have hchan := fun k hk => State.writeDmaError_chan (s := s.holding l x) hs hv (k := k) hk
  refine ⟨?_, fun k hk herr => ?_, fun k hk hne => ?_, only_stillWrite (State.writeDmaError_kept.mono (by decide)).only⟩
  · simp [State.writeDmaError, hv]
  · exact congrArg Chan.st ((hchan k hk).trans (if_pos herr))
  · exact (hchan k hk).trans (if_neg hne)

end

/-- Settles O15, register by register: a ring's configuration, a channel's start and stop, and the end of a bus error. -/
theorem hostWrites : Obligations.HostWrites := by
  refine ⟨fun s w ring => ⟨does_ringEnable, does_ringDisable⟩, fun s w chan fetched hs => ⟨does_chanStart hs fetched, fun h hv => ?_,
    does_busErrorClear hs⟩⟩
  refine does_chanStop hs h hv fun t hself hother honly => ⟨fun hst => ?_, fun hst => ?_, fun hst => ?_, hother, honly.mono (by decide)⟩
  · rw [hself, Chan.stop_of_read hst]
  · rw [hself, Chan.stop_of_copy hst]
    exact ⟨rfl, rfl⟩
  · rw [hself]
    refine Chan.stop_of_rest (hst.elim (fun hrest => ?_) fun herr => .inr (.inr herr))
    exact ((s.chanRests_iff _).1 hrest).imp_right .inl

end Sys2Proof.Machine
end

section
/-! SUPPORT. The end of a copy and a stop that waited for it (R410, R411). -/
namespace Sys2Proof.Machine

section
variable {s : State} {c : Nat} {w : Word512}

/-- A copy that may act, or whose access is refused, ends with its write-back (R409, R410). -/
theorem State.copyDone_writesBack (hst : (s.chan c).st = .run) (hdesc : (s.chan c).desc = some w)
    (hwait : s.dmaStatus (s.chan c).owner (descOf w) = stOK →
      s.hubWaits ((descOf w).out || merges (descOf w).dst (descOf w).len) (descOf w).mpa (descOf w).len = false)
    (hostData : List Byte) (reads : List Check) (fetched : Word512) :
    ∃ (u : State) (status done : Nat), s.copyDone c hostData reads fetched = (u.writeback c (descOf w) status done).fetchDesc c fetched ∧
      u.host.chans = s.host.chans := by
  unfold State.copyDone
  simp only [hst, hdesc]
  split
  · exact ⟨_, _, _, rfl, State.chans_of_kept State.countAccess_kept⟩
  · next hok =>
    rw [hwait (not_not.1 hok), if_neg Bool.false_ne_true]
    unfold State.runCopyDesc
    have hread := State.hubRead_kept (x := s) (a := (descOf w).mpa) (t := (0, 0))
      (r := if (descOf w).out then reads else mergeReads (descOf w).mpa (descOf w).len reads)
    split
    · next u hu =>
      exact ⟨_, _, _, rfl, (State.chans_of_kept State.moveBytes_kept).trans (State.chans_of_kept (hread.of_snd hu))⟩
    · next n u hu =>
      exact ⟨_, _, _, rfl, (State.chans_of_kept State.moveBytes_kept).trans (State.chans_of_kept (hread.of_snd hu))⟩

/-- A stop that waited takes effect at the write-back: no further descriptor is read. -/
theorem State.copyDone_stops (hc : c < s.host.chans.length) (hst : (s.chan c).st = .run) (hdesc : (s.chan c).desc = some w)
    (hstop : (s.chan c).stopPending = true)
    (hwait : s.dmaStatus (s.chan c).owner (descOf w) = stOK →
      s.hubWaits ((descOf w).out || merges (descOf w).dst (descOf w).len) (descOf w).mpa (descOf w).len = false)
    (hostData : List Byte) (reads : List Check) (fetched : Word512) :
    let t := s.copyDone c hostData reads fetched
    (t.chan c).st = .stopped ∧ (t.chan c).head = (descOf w).next ∧ Out.host ((s.chan c).head.toNat + 63) [0] ∈ t.out := by
  obtain ⟨u, status, done, hdo, hu⟩ := State.copyDone_writesBack hst hdesc hwait hostData reads fetched
  have huc := State.chan_of_chans hu c
  obtain ⟨hself, -⟩ := State.chan_set (u.writeback_chans c (descOf w) status done) (hu ▸ hc)
  have hstopped : ((u.chan c).writtenBack (descOf w) status).st = .stopped := if_pos (by simp [huc, hstop])
  rw [hdo, State.fetchDesc_of_not_fetch (by rw [hself, hstopped]; decide)]
  dsimp only
  rw [hself]
  exact ⟨hstopped, rfl, huc ▸ u.writeback_out c (descOf w) status done⟩

end

/-- Settles O16: a STOP by the channel's state, and the end of a copy that a STOP has met. -/
theorem stopAtBoundary : Obligations.StopAtBoundary := by
  intro s w chan hostData fetched hs
  refine ⟨fun h hv => ⟨fun hst => ?_, fun hst => ?_, fun hst => ?_⟩, fun d reads hst hdesc hstop hwait => ?_⟩
  · exact does_chanStop hs h hv fun t hself _ _ => hself.trans (Chan.stop_of_copy (.inl hst))
  · refine does_chanStop hs h hv fun t hself _ honly => ⟨?_, ?_, honly.2 .out (by decide), honly.2 .mem (by decide)⟩
    · rw [hself, Chan.stop_of_read hst]
    · rw [hself, Chan.stop_of_read hst]
  · exact does_chanStop hs h hv fun t hself _ _ => hself.trans (Chan.stop_of_rest (hst.imp_right .inl))
  · have hevents := State.sensorEvents_kept (x := s.copyDone chan.val hostData reads fetched) (a1 := s)
    obtain ⟨hstopped, hhead, hout⟩ := State.copyDone_stops (hs.chan_lt chan) hst hdesc hstop hwait hostData reads fetched
    have hchan : (s.watched (·.copyDone chan.val hostData reads fetched)).chan chan.val = _ :=
      State.chan_of_chans (State.chans_of_kept hevents) chan.val
    refine ⟨_, rfl, ?_, ?_, hevents.out.subset hout⟩
    · rw [hchan]
      exact hstopped
    · rw [hchan]
      exact hhead

end Sys2Proof.Machine
end

section
/-! SUPPORT. What raising an event leaves of the rings that take no events (R404). -/
namespace Sys2Proof.Machine

section
variable {s t : State} {k : Nat}

theorem State.ring_ite {a b : State} {c : Prop} [Decidable c] (ha : a.ring k = s.ring k) (hb : b.ring k = s.ring k) :
    (if c then a else b).ring k = s.ring k := by
  split <;> assumption

theorem State.msix_ring (s : State) (f vector k : Nat) : (s.msix f vector).ring k = s.ring k :=
  State.ring_ite rfl (State.ring_ite rfl rfl)

/-- A ring set where ring `r` stood leaves every other one. -/
theorem State.setRing_ring (s : State) {r : Nat} (x : Ring) (hx : x.num = (s.ring r).num) (h : k ≠ r) : (s.setRing x).ring k = s.ring k :=
  s.ring_setRing_ne (hx ▸ (s.ring_num r).symm ▸ h)

theorem State.produce_ring (s : State) {r : Nat} (h : k ≠ r) : (s.produce r).ring k = s.ring k :=
  State.ring_ite (State.ring_ite ((State.msix_ring _ _ _ _).trans (s.setRing_ring _ rfl h)) (s.setRing_ring _ rfl h))
    (s.setRing_ring _ rfl h)

theorem eqParts_ring {r : Nat} (h : k ≠ r) (l : List (Event × Nat)) (a : State × Nat) : (l.foldl (eqPart r) a).1.ring k = a.1.ring k := by
  induction l generalizing a with
  | nil => rfl
  | cons p l ih => exact (ih _).trans (State.produce_ring _ h)

theorem State.eqOne_ring (s : State) {r : Nat} (parts : List Event) (h : k ≠ r) : (s.eqOne r parts).ring k = s.ring k :=
  State.ring_ite ((eqParts_ring h _ _).trans (s.setRing_ring _ rfl h)) (s.setRing_ring _ rfl h)

/-- Events change only the EQ rings. -/
theorem State.raiseTo_ring (s : State) (sees : Nat → Bool) (parts : List Event) (h : k < 1088) : (s.raiseTo sees parts).ring k = s.ring k := by
  have hrings : ∀ (rs : List Nat) (y : State), (∀ r ∈ rs, k ≠ r) → (rs.foldl (fun s r => s.eqOne r parts) y).ring k = y.ring k := by
    intro rs
    induction rs with
    | nil => exact fun _ _ => rfl
    | cons r rs ih =>
      intro y hne
      exact (ih _ fun r' hr' => hne r' (List.mem_cons_of_mem _ hr')).trans (y.eqOne_ring parts (hne r (List.mem_cons_self ..)))
  unfold State.raiseTo
  split
  · rfl
  · split
    · rfl
    · refine hrings _ s fun r hr => ?_
      obtain ⟨i, -, rfl⟩ := List.mem_map.1 (List.mem_of_mem_filter hr)
      omega

end

end Sys2Proof.Machine
end

section
/-! SUPPORT. The checks that every host command passes before its own rule (R391, R399, R412, R465). -/
namespace Sys2Proof.Machine

/-- A host command is its opcode and shape, and a rule of its own. -/
theorem exec_of_hostShape {i : Instr} {op : Nat} {c : Cmd} {h : CmdShape} (hi : hostShape i = some (op, c, h)) :
    ∃ act, ∀ s, exec i s = .next (s.command op c h act) := by
  cases i with
  | install | imageDelete | adapterBind | adapterUnbind | instanceCreate | activate | configLoad | instanceRestart | instanceRelease
  | poolSet | ownSet | tenantSet | tableLoad | routeTableLoad | automatonLoad | seqSubmit | seqCancel | hint | nopCommand =>
    cases hi
    exact ⟨_, fun _ => rfl⟩
  | _ => cases hi

/-- A descriptor that cannot be read puts its ring in ERROR (R397). -/
theorem State.ringError_ring (s : State) {r : Nat} (err : Nat) (hr : r < 1088) :
    (s.ringError r err).ring r = { s.ring r with st := 2, err := err } := by
  unfold State.ringError State.ownEvent
  rw [State.raiseTo_ring _ _ _ hr]
  exact (s.ring_set (x := { s.ring r with st := 2, err := err }) (s.ring_num r)).1

theorem State.ringError_reg (s : State) (r err : Nat) {o : Nat} (ho : o ≠ 0xC0820) : (s.ringError r err).reg o = s.reg o :=
  (State.raiseTo_eventOnly _ _ _).reg o ho

section
variable {s : State} {op : Nat} {c : Cmd} {h : CmdShape} {act : State → Job → State}

theorem State.command_of_unfetched (hf : s.mayFetch c = false) : s.command op c h act = s := by simp [State.command, hf]

theorem State.command_of_fetchError (hf : s.mayFetch c = true) (he : c.fetchError = true) :
    s.command op c h act = (s.bump 0xC0828).ringError c.sq.val 2 := by simp [State.command, hf, he]

theorem does_fetchError {i : Instr} (hi : ∀ s, exec i s = .next (s.command op c h act)) (hf : s.mayFetch c = true)
    (he : c.fetchError = true) : Does i s fun t =>
      t.reg 0xC0828 = min (s.reg 0xC0828 + 1) 0xFFFFFFFF ∧ (t.ring c.sq.val).st = 2 ∧ (t.ring c.sq.val).err = 2 ∧
      Only [.regs, .rings, .out] s t := by
  have hring := (s.bump 0xC0828).ringError_ring 2 (r := c.sq.val) (by omega)
  refine ⟨_, hi s, ?_⟩
  rw [State.command_of_fetchError hf he]
  beta_reduce
  rw [hring]
  exact ⟨((s.bump 0xC0828).ringError_reg _ _ (by decide)).trans ((s.reg_bump _ _).trans (if_pos rfl)), rfl, rfl,
    (State.ringError_kept.andThen (State.bump_kept.mono (by decide))).only⟩

theorem State.command_of_reserved (hf : s.mayFetch c = true) (he : c.fetchError = false) (hop : c.opcode.isSome = true) :
    s.command op c h act = (s.consumed c).refuse (s.jobOf op c) stINVALID_FIELD := by simp [State.command, hf, he, hop]

/-- The sender may send the command, and to this instance (R398, R399). -/
abbrev State.mayCommand (s : State) (c : Cmd) (h : CmdShape) (origin : Nat) : Prop :=
  h.allowed origin = true ∧ (h.names = true → 2 ≤ origin → (s.inst c.inst.val).owner = origin)

/-- What follows the fetch of a command whose opcode is its row's. -/
theorem State.command_of_row (hf : s.mayFetch c = true) (he : c.fetchError = false) (hop : c.opcode = none) :
    s.command op c h act =
      let u := s.consumed c
      let j := s.jobOf op c
      if ¬ s.mayCommand c h j.origin then u.refuse j stNOT_PERMITTED
      else if cmdFormed c h = false then u.refuse j stINVALID_FIELD
      else if c.busError = true then (u.bump 0xC0828).complete j stBUS_ERROR []
      else if h.change = true ∧ s.ledgerShut = true ∧ fromOutside j.origin = true then (u.bump 0x70050).complete j stBUSY []
      else act u j := by
  have hmay : (!(h.allowed (s.jobOf op c).origin) || (h.names && 2 ≤ (s.jobOf op c).origin &&
      ((s.consumed c).inst c.inst.val).owner ≠ (s.jobOf op c).origin)) = true ↔ ¬ s.mayCommand c h (s.jobOf op c).origin := by
    have hinst : (s.consumed c).inst c.inst.val = s.inst c.inst.val := rfl
    simp only [State.mayCommand, hinst, Bool.or_eq_true, Bool.not_eq_true', Bool.and_eq_true, decide_eq_true_eq, not_and_or, Classical.not_imp,
      Bool.not_eq_true, and_assoc, ne_eq]
  have hshut : (h.change && (s.consumed c).ledgerShut && fromOutside (s.jobOf op c).origin) = true ↔
      h.change = true ∧ s.ledgerShut = true ∧ fromOutside (s.jobOf op c).origin = true := by
    have hledger : (s.consumed c).ledgerShut = s.ledgerShut := rfl
    simp only [hledger, Bool.and_eq_true, and_assoc]
  unfold State.command
  simp only [hf, he, hop, Bool.not_true, Bool.false_eq_true, if_false, Option.isSome_none, hmay, hshut, Bool.not_eq_true']

end

/-- Settles O40, check by check in the order of R399. -/
theorem hostCommandChecks : Obligations.HostCommandChecks := by
  intro s i op c h hi
  obtain ⟨act, hexec⟩ := exec_of_hostShape hi
  refine ⟨fun hf => ?_, does_fetchError hexec, fun hf he hop => ?_, fun hf he hop => ?_⟩
  · rw [hexec, State.command_of_unfetched hf]
  · rw [hexec, State.command_of_reserved hf he hop]
  · have hrow := State.command_of_row (h := h) (act := act) (op := op) hf he hop
    rw [hexec, hrow]
    refine ⟨fun hmay => ?_, fun hmay hformed => ?_, fun hmay hformed hbus => ?_, fun hmay hformed hbus hchange hshut hout => ?_⟩
    · exact congrArg Host.Outcome.next (if_pos hmay)
    all_goals refine congrArg Host.Outcome.next ((if_neg (not_not.2 hmay)).trans ?_)
    · exact if_pos hformed
    · exact (if_neg (by simp [hformed])).trans (if_pos hbus)
    · exact (if_neg (by simp [hformed])).trans ((if_neg (by simp [hbus])).trans (if_pos ⟨hchange, hshut, hout⟩))

end Sys2Proof.Machine
end

section
/-! SUPPORT. The reads of the security engine, and who may send them (R464, R468, R471, R476). -/
namespace Sys2Proof.Machine

section
variable {s : State} {via : Via}

/-! ### Reads of the security engine -/

theorem not_contains_vf (hlow : 2 ≤ viaOrigin via) (hhigh : viaOrigin via ≤ 9) : [1, 10].contains (viaOrigin via) = false := by
  simp
  omega

theorem State.allowedTo_of_not_contains {origins : List Nat} (h : origins.contains (viaOrigin via) = false) (act : State → Answer) :
    s.allowedTo via origins act = (stNOT_PERMITTED, [], s) := if_neg (by rw [h]; decide)

theorem State.readCkpt_of_not_stored (h : viaOrigin via = 1 ∨ viaOrigin via = 10) {seq : Nat}
    (hc : s.ledger.store.find? (fun c => c.record.seq == seq) = none) : s.readCkpt via seq = (stNOT_FOUND, [], s) := by
  refine (State.allowedTo_of_contains (contains_reader h) _).trans ?_
  simp [hc]

theorem State.message_of_eq (h : s.answers = true) {act : State → Answer} {code : Nat} {body : List Byte} (e : act s = (code, body, s)) :
    s.message via act = s.emit (.reply via code body) := by
  rw [State.message_of_answers h, e]

theorem State.message_of_silent (h : s.answers = false) (act : State → Answer) : s.message via act = s := if_neg (by rw [h]; decide)

end

/-- Settles O21: each read answers its reader, turns a VF away, and waits for the setup lock. -/
theorem securityReads : Obligations.SecurityReads := by
  unfold Obligations.SecurityReads
  intro s via seq
  refine ⟨fun ha hr => ⟨?_, ?_, fun c hc => ?_, fun hc => ?_⟩, fun ha hlow hhigh c hc => ?_, fun ha c hc => ?_⟩
  · exact congrArg Host.Outcome.next (State.message_of_eq ha (State.identity_of_reader hr))
  · exact congrArg Host.Outcome.next (State.message_of_eq ha (State.readLedger_of_reader hr _))
  · exact congrArg Host.Outcome.next (State.message_of_eq ha (State.readCkpt_of_stored hr hc))
  · exact congrArg Host.Outcome.next (State.message_of_eq ha (State.readCkpt_of_not_stored hr hc))
  · have hvf : [1, 10].contains (viaOrigin via) = false := not_contains_vf hlow hhigh
    have refused (act : State → Answer) : s.message via (fun s => s.allowedTo via [1, 10] act) = s.emit (.reply via stNOT_PERMITTED []) :=
      State.message_of_eq ha (State.allowedTo_of_not_contains hvf act)
    simp only [List.mem_cons, List.not_mem_nil, or_false] at hc
    rcases hc with rfl | rfl | rfl
    all_goals exact congrArg Host.Outcome.next (refused _)
  · simp only [List.mem_cons, List.not_mem_nil, or_false] at hc
    rcases hc with rfl | rfl | rfl
    all_goals exact congrArg Host.Outcome.next (State.message_of_silent ha _)

end Sys2Proof.Machine
end

section
/-! SUPPORT. PLDM over I3C: its answers, its silence, and the one resend (R477, R478). -/
namespace Sys2Proof.Machine

section
variable {s : State} {via : Via}

theorem State.pldm_of_i3c (h : s.svc.island = true) (act : State → Answer) :
    s.pldm .i3c act = (act s).2.2.emit (.reply .i3c (act s).1 (act s).2.1) := if_pos (by rw [h]; rfl)

theorem State.pldm_of_other (h : via ≠ .i3c) (act : State → Answer) : s.pldm via act = s :=
  if_neg fun hc => h (eq_of_beq (Bool.and_eq_true_iff.mp hc).1)

/-- A PLDM request that changes nothing but answers: its code and body, of which `P` is said. -/
theorem does_pldm {c : Instr} {act : State → Answer} {code : Nat} {body : List Byte} {P : Nat → List Byte → Prop}
    (he : exec c s = .next (s.pldm .i3c act)) (h : s.svc.island = true) (ha : act s = (code, body, s)) (hp : P code body) :
    Does c s fun t => ∃ code body, t = s.emit (.reply .i3c code body) ∧ P code body :=
  ⟨_, he, code, body, by rw [State.pldm_of_i3c h, ha], hp⟩

/-! ### The answers whose code says what was asked -/

theorem does_getPldmVersion (h : s.svc.island = true) (type : BitVec 8) :
    Does (.getPldmVersion .i3c type) s fun t => ∃ code body, t = s.emit (.reply .i3c code body) ∧
      ((type = 0 ∨ type = 2) ↔ code = pldmSuccess) := by
  by_cases h0 : type = 0
  · exact does_pldm rfl h (if_pos (beq_iff_eq.mpr h0)) (iff_of_true (.inl h0) rfl)
  have n0 : ¬(type == 0) = true := mt eq_of_beq h0
  by_cases h2 : type = 2
  · exact does_pldm rfl h ((if_neg n0).trans (if_pos (beq_iff_eq.mpr h2))) (iff_of_true (.inr h2) rfl)
  · exact does_pldm rfl h ((if_neg n0).trans (if_neg (mt eq_of_beq h2))) (iff_of_false (not_or.mpr ⟨h0, h2⟩) (by decide))

theorem pldmCommands_isEmpty_iff (type : BitVec 8) : (pldmCommands type.toNat).isEmpty = false ↔ type = 0 ∨ type = 2 := by
  have h0 : type.toNat = 0 ↔ type = 0 := ⟨fun h => BitVec.eq_of_toNat_eq h, fun h => by rw [h]; rfl⟩
  have h2 : type.toNat = 2 ↔ type = 2 := ⟨fun h => BitVec.eq_of_toNat_eq h, fun h => by rw [h]; rfl⟩
  unfold pldmCommands
  rw [← h0, ← h2]
  split_ifs <;> simp_all

theorem does_getPldmCommands (h : s.svc.island = true) (type : BitVec 8) :
    Does (.getPldmCommands .i3c type) s fun t => ∃ code body, t = s.emit (.reply .i3c code body) ∧
      ((type = 0 ∨ type = 2) ↔ code = pldmSuccess) := by
  rw [← pldmCommands_isEmpty_iff]
  cases he : (pldmCommands type.toNat).isEmpty
  · exact does_pldm rfl h (if_neg (by simp [he])) (by simp)
  · exact does_pldm rfl h (if_pos he) (by simp [pldmUnsupported, pldmSuccess])

/-- PDR records are numbered from 1 to 18, and 0 is the first. -/
theorem getElem?_sensorIds (n : Nat) : (sensorIds[max n 1 - 1]?).isSome = true ↔ n ≤ 18 := by
  rw [isSome_getElem?, show sensorIds.length = 18 from rfl]
  omega

theorem does_getPdr (h : s.svc.island = true) (record : BitVec 32) :
    Does (.getPdr .i3c record) s fun t => ∃ code body, t = s.emit (.reply .i3c code body) ∧
      (record.toNat ≤ 18 ↔ code = pldmSuccess) := by
  rw [← getElem?_sensorIds]
  cases hr : sensorIds[max record.toNat 1 - 1]? with
  | some id => exact does_pldm rfl h (by dsimp only; rw [hr]) (by simp)
  | none => exact does_pldm rfl h (by dsimp only; rw [hr]) (by simp [pldmBadRecord, pldmSuccess])

theorem does_getSensorReading (h : s.svc.island = true) (sensor : BitVec 16) :
    Does (.getSensorReading .i3c sensor) s fun t => ∃ code body, t = s.emit (.reply .i3c code body) ∧
      (sensorNumeric sensor.toNat = true ↔ code = pldmSuccess) ∧
      (sensorNumeric sensor.toNat = true → s.hubRuns = true →
        body = leBytes 1 0 ++ leBytes 1 (s.sensorRange sensor.toNat (s.power.last.sensor sensor.toNat)) ++
          leBytes 4 (s.power.last.sensor sensor.toNat)) := by
  cases hn : sensorNumeric sensor.toNat
  · exact does_pldm rfl h (if_pos (by simp [hn])) (by simp [pldmBadSensor, pldmSuccess])
  cases hh : s.hubRuns
  · exact does_pldm rfl h ((if_neg (by simp [hn])).trans (if_pos (by simp [hh]))) (by simp)
  · exact does_pldm rfl h ((if_neg (by simp [hn])).trans (if_neg (by simp [hh]))) (by simp)

theorem stateSensor_iff (n : Nat) :
    (!(sensorIds.contains n) || sensorNumeric n) = false ↔ n = 0x20 ∨ n = 0x21 ∨ n = 0x22 := by
  simp only [sensorIds, sensorNumeric, Bool.or_eq_false_iff, Bool.not_eq_false', List.contains_iff_mem, List.mem_cons,
    List.not_mem_nil, or_false, Bool.and_eq_false_iff, decide_eq_false_iff_not]
  omega

theorem does_getStateSensorReadings (h : s.svc.island = true) (sensor : BitVec 16) :
    Does (.getStateSensorReadings .i3c sensor) s fun t => ∃ code body, t = s.emit (.reply .i3c code body) ∧
      ((sensor.toNat = 0x20 ∨ sensor.toNat = 0x21 ∨ sensor.toNat = 0x22) ↔ code = pldmSuccess) ∧
      (sensor.toNat = 0x22 → body = leBytes 1 0 ++ leBytes 1 (s.svc.phase.code + 1)) := by
  rw [← stateSensor_iff]
  cases hn : !(sensorIds.contains sensor.toNat) || sensorNumeric sensor.toNat
  · by_cases hh : (!s.hubRuns && decide (sensor.toNat ≠ 0x22)) = true
    · refine does_pldm rfl h ((if_neg (by rw [hn]; decide)).trans (if_pos hh)) ⟨iff_of_true rfl rfl, fun h22 => ?_⟩
      simp [h22] at hh
    · refine does_pldm rfl h ((if_neg (by rw [hn]; decide)).trans (if_neg hh)) ⟨iff_of_true rfl rfl, fun h22 => ?_⟩
      rw [h22]
      rfl
  · refine does_pldm rfl h (if_pos hn) ⟨by simp [pldmBadSensor, pldmSuccess], fun h22 => ?_⟩
    simp [h22, sensorIds, sensorNumeric] at hn

/-! ### The one resend -/

theorem State.resendEvent_of_none (h : s.sec.receiver = none ∨ ∀ e ∈ s.sec.events, e.1 ≠ sensor) : s.resendEvent sensor = s := by
  unfold State.resendEvent
  rcases h with h | h
  · rw [h]
    split <;> simp_all
  · rw [List.find?_eq_none.mpr (by simpa using h)]

theorem State.resendEvent_of_some {sensor eid : Nat} {e : Nat × Nat × Nat} (he : s.sec.events.find? (fun e => e.1 == sensor) = some e)
    (hr : s.sec.receiver = some eid) (send : State → State)
    (hs : send = fun u => (u.setSec { u.sec with events := u.sec.events.erase e }).emit (.platformEvent eid sensor e.2.1)) :
    s.resendEvent sensor = if s.hubRuns then s.atTimer (e.2.2 + resendTicks) send else send s := by
  unfold State.resendEvent
  rw [he, hr, hs]

end

/-- Settles O24: the island's responder answers I3C alone, and a platform event is sent again once. -/
theorem pldmMessages : Obligations.PldmMessages := by
  unfold Obligations.PldmMessages
  refine ⟨fun s tid eid type record sensor hi => ?_, fun s sensor e eid he hr => ?_, fun s sensor h => ?_⟩
  · have answer {act : State → Answer} {code : Nat} {body : List Byte} {t : State} (e : act s = (code, body, t)) :
        (.next (s.pldm .i3c act) : Res) = .next (t.emit (.reply .i3c code body)) := by rw [State.pldm_of_i3c hi, e]
    refine ⟨fun h0 hff => answer (if_neg (by simpa using And.intro h0 hff)), answer rfl, answer rfl, answer rfl, answer rfl,
      does_getPldmVersion hi type, does_getPldmCommands hi type, does_getPdr hi record, does_getSensorReading hi sensor,
      does_getStateSensorReadings hi sensor, fun via hv c hc => ?_⟩
    simp only [List.mem_cons, List.not_mem_nil, or_false] at hc
    rcases hc with rfl | rfl | rfl | rfl | rfl | rfl | rfl | rfl | rfl | rfl
    all_goals exact congrArg Host.Outcome.next (State.pldm_of_other hv _)
  · have key := State.resendEvent_of_some he hr _ rfl
    refine ⟨fun h => ?_, fun h hd => ?_, fun h hd => ?_⟩
    all_goals refine congrArg Host.Outcome.next (key.trans ?_)
    · exact if_neg (by simp [h])
    · exact (if_pos h).trans (State.atTimer_of_due hd _)
    · exact (if_pos h).trans (State.atTimer_of_later hd _)
  · exact congrArg Host.Outcome.next (State.resendEvent_of_none h)

end Sys2Proof.Machine
end

section
/-! SUPPORT. Signed SPDM responses, their chunks, and the requests deferred while a checkpoint is signed (R470, R479, R480). -/
namespace Sys2Proof.Machine

section
variable {s : State} {via : Via}

theorem State.spdmDo_of_ready (ha : s.answers = true) (hv : ∀ n, via ≠ .vf n) {ready : Spdm → Bool} (hr : ready (s.spdm via) = true)
    (act : State → State) : s.spdmDo via ready act = act s := by
  unfold State.spdmDo
  cases via with
  | vf n => exact absurd rfl (hv n)
  | pf => simp [ha, hr]
  | i3c => simp [ha, hr]

/-- A request at its place in the exchange does what it does there. -/
theorem does_spdm {c : Instr} {ready : Spdm → Bool} {act : State → State} {P : State → Prop} (he : exec c s = .next (s.spdmDo via ready act))
    (ha : s.answers = true) (hv : ∀ n, via ≠ .vf n) (hr : ready (s.spdm via) = true) (hp : P (act s)) : Does c s P :=
  ⟨_, he.trans (congrArg Host.Outcome.next (State.spdmDo_of_ready ha hv hr act)), hp⟩

/-! ### The SPDM state of a transport -/

theorem State.spdm_setSpdm (s : State) (via : Via) (x : Spdm) : (s.setSpdm via x).spdm via = x := by
  unfold State.spdm State.setSpdm
  split <;> rfl

theorem State.spdm_of_sec {t u : State} (h : t.sec = u.sec) (via : Via) : t.spdm via = u.spdm via := by
  unfold State.spdm
  rw [h]

theorem State.spdm_spdmReply_setSpdm (s : State) (via : Via) (x : Spdm) (code : Nat) (body : List Byte) :
    ((s.setSpdm via x).spdmReply via code body).spdm via = x :=
  (State.spdm_of_sec rfl via).trans (State.spdm_setSpdm s via x)

theorem State.setSpdm_nextLeaf (s : State) (via : Via) (x : Spdm) : (s.setSpdm via x).sec.nextLeaf = s.sec.nextLeaf := by
  unfold State.setSpdm
  split <;> rfl

theorem State.setSpdm_deferred (s : State) (via : Via) (x : Spdm) : (s.setSpdm via x).sec.deferred = s.sec.deferred := by
  unfold State.setSpdm
  split <;> rfl

theorem State.spdmError_sec (s : State) (via : Via) (err : Nat) : (s.spdmError via err).sec = s.sec := rfl

/-! ### Signed responses -/

theorem State.takeLeaf_of_left (hl : s.sec.nextLeaf < s.sec.blocks * 1024) (he : s.sec.exhausted = false) :
    s.takeLeaf = (some s.sec.nextLeaf, s.setSec { s.sec with nextLeaf := s.sec.nextLeaf + 1 }) := by
  unfold State.takeLeaf
  rw [if_pos hl, if_neg (by simp [he])]
  rfl

/-- A signed response takes the next leaf, and its bytes wait to be fetched from the first on. -/
theorem State.sendSigned_of_left (hl : s.sec.nextLeaf < s.sec.blocks * 1024) (he : s.sec.exhausted = false) (via : Via) (code : Nat)
    (body : List Byte) :
    let t := s.sendSigned via code body
    (t.spdm via).large = leBytes 1 code ++ body ++ Config.identitySign s.sec.nextLeaf (leBytes 1 code ++ body) ∧
    (t.spdm via).chunk = 0 ∧ t.sec.nextLeaf = s.sec.nextLeaf + 1 ∧ t.sec.deferred = s.sec.deferred := by
  unfold State.sendSigned
  rw [State.takeLeaf_of_left hl he]
  dsimp only
  rw [State.spdm_of_sec (State.spdmError_sec ..), State.spdm_setSpdm, State.spdmError_sec, State.setSpdm_nextLeaf, State.setSpdm_deferred]
  exact ⟨rfl, rfl, rfl, rfl⟩

/-! ### Chunks -/

/-- The chunk that comes next, of a large response that it does not end before. -/
theorem State.chunk_of_next {seqNo : BitVec 16} (hc : seqNo.toNat = (s.spdm via).chunk)
    (hl : seqNo.toNat * Config.spdmChunk < (s.spdm via).large.length) :
    ¬((s.spdm via).large.isEmpty || Decidable.decide (seqNo.toNat ≠ (s.spdm via).chunk) ||
      ((s.spdm via).large.drop (seqNo.toNat * Config.spdmChunk)).isEmpty) = true := by
  have hne : (s.spdm via).large ≠ [] := fun h => by simp [h] at hl
  simp only [Bool.or_eq_true, List.isEmpty_iff, List.drop_eq_nil_iff, decide_eq_true_iff, not_or]
  exact ⟨⟨hne, not_not.mpr hc⟩, by omega⟩

/-! ### Vendor-defined requests -/

theorem reader_of_not_vf (hv : ∀ n, via ≠ .vf n) : viaOrigin via = 1 ∨ viaOrigin via = 10 := by
  cases via with
  | pf => exact .inl rfl
  | vf n => exact absurd rfl (hv n)
  | i3c => exact .inr rfl

theorem State.vendor_of_identity (h : viaOrigin via = 1 ∨ viaOrigin via = 10) (body : List Byte) :
    s.vendor via (1 : BitVec 8).toNat body = (stOK, endorsementRecord, s) := (if_pos rfl).trans (State.identity_of_reader h)

theorem State.vendor_of_unused {type : Nat} (h : type = 0 ∨ type = 4 ∨ 9 < type) (body : List Byte) :
    s.vendor via type body = (stNOT_PERMITTED, [], s) := by
  unfold State.vendor
  simp only [show type ≠ 1 by omega, show type ≠ 2 by omega, show type ≠ 3 by omega, show type ≠ 5 by omega, show type ≠ 6 by omega,
    show type ≠ 7 by omega, show type ≠ 8 by omega, show type ≠ 9 by omega, if_false]

end

/-- Settles O26: signed responses and their leaves, chunks in order, and the vendor-defined requests that carry no message. -/
theorem spdmSigned : Obligations.SpdmSigned := by
  unfold Obligations.SpdmSigned
  refine ⟨fun s via nonce ha hv hr => ⟨fun hs hd hl he => ?_, fun hs => ?_, fun d rest tok hd hvia hs hl he => ?_⟩,
    fun s via seqNo ha hv hr => ⟨fun hc hl => ?_, fun body => ?_, fun type body ht => ?_⟩⟩
  · refine does_spdm rfl ha hv hr ?_
    obtain ⟨hlarge, hchunk, hleaf, -⟩ := State.sendSigned_of_left hl he via spdmCHALLENGE_AUTH (leBytes 1 0xFF ++ fit 32 nonce)
    unfold State.sign
    rw [if_pos (by simp [hs, hd])]
    exact ⟨hlarge, hchunk, hleaf⟩
  · refine does_spdm rfl ha hv hr ?_
    unfold State.sign
    rw [if_neg (by simp [hs])]
    exact ⟨rfl, rfl⟩
  · refine does_spdm rfl ha hv hr ?_
    rw [hd]
    dsimp only
    rw [if_pos (by simp [hvia, hs])]
    obtain ⟨hlarge, -, hleaf, hdef⟩ :=
      State.sendSigned_of_left (s := s.setSec { s.sec with deferred := rest }) hl he via d.code d.body
    exact ⟨hdef, hleaf, hlarge⟩
  · refine does_spdm rfl ha hv hr ?_
    dsimp only
    rw [if_neg (State.chunk_of_next hc hl)]
    refine ⟨rfl, fun hlast => ?_, fun hmore => ?_⟩
    · rw [State.spdm_spdmReply_setSpdm, if_pos hlast]
    · rw [State.spdm_spdmReply_setSpdm, if_neg (by omega), if_neg (by omega)]
      exact ⟨rfl, rfl⟩
  · refine congrArg Host.Outcome.next ((State.spdmDo_of_ready ha hv hr _).trans ?_)
    rw [State.vendor_of_identity (reader_of_not_vf hv)]
  · refine congrArg Host.Outcome.next ((State.spdmDo_of_ready ha hv hr _).trans ?_)
    rw [State.vendor_of_unused ht]

end Sys2Proof.Machine
end

section
/-! SUPPORT. The checks of a register write one after the other, and what a refused write leaves (R507). -/
namespace Sys2Proof.Machine

section
variable {s : State} {a : Attempt} {i : RegInfo}

/-! ### The checks -/

/-- A write of 4 or 8 bytes at a multiple of its size. -/
def Attempt.sized (a : Attempt) : Prop := (a.size = 4 ∨ a.size = 8) ∧ a.off % a.size = 0

theorem State.reasonOf_of_not_sized (h : a.size ≠ 4 ∧ a.size ≠ 8 ∨ a.off % a.size ≠ 0) : s.reasonOf a = reasonSIZE :=
  if_pos (by simpa using h)

theorem Attempt.sized.passes (h : a.sized) : ¬(!(a.size == 4 || a.size == 8) || Decidable.decide (a.off % a.size ≠ 0)) = true := by
  obtain ⟨hsize, hoff⟩ := h
  simp only [hoff, Bool.or_eq_true, Bool.not_eq_true', Bool.or_eq_false_iff, beq_eq_false_iff_ne, decide_eq_true_eq]
  omega

theorem State.reasonOf_of_no_register (h : a.sized) (hr : a.outside = true ∨ regInfo a.reg = none) : s.reasonOf a = reasonADDRESS := by
  refine (if_neg h.passes).trans ?_
  by_cases ho : a.outside = true
  · exact if_pos ho
  · rw [hr.resolve_left ho]
    exact if_neg ho

/-- The checks of a register that exists, in their order. -/
theorem State.reasonOf_of_register (h : a.sized) (ho : a.outside = false) (hi : regInfo a.reg = some i) : s.reasonOf a =
    if i.access = .lk ∧ s.svc.locked = true ∧ a.origin ≤ 1 then reasonACCESS
    else if s.originMay i a.origin a.reg = false then reasonORIGIN
    else if i.access = .ro then reasonACCESS
    else if s.encodingOk a.reg (s.produced a i.access) = false then reasonENCODING
    else if s.stateOk a.reg (s.produced a i.access) = false then reasonSTATE
    else if s.ledgerShut = true ∧ fromOutside a.origin = true ∧ ledgerExempt a.origin a.reg = false then reasonLEDGER
    else 0 := by
  refine (if_neg h.passes).trans ((if_neg (by simp [ho])).trans ?_)
  rw [hi]
  simp only [Bool.and_eq_true, beq_iff_eq, decide_eq_true_eq, Bool.not_eq_true', and_assoc]

/-! ### What a refused write leaves -/

/-- A refused write latched: its flag and its fields. -/
def State.noted (s : State) (a : Attempt) (r : Nat) : State := (s.setReg 0x10008 1).setReg 0x10018 (refusedWord a r)

theorem State.noted_kept {r : Nat} : Kept [.regs] s (s.noted a r) := State.setReg_kept.on State.setReg_kept

theorem State.reg_noted (s : State) (a : Attempt) (r o : Nat) : (s.noted a r).reg o =
    if o = 0x10018 then refusedWord a r else if o = 0x10008 then 1 else s.reg o := by
  rw [State.noted, State.reg_setReg, State.reg_setReg]

/-- The registers after a refused write whose reason is counted at `k`. -/
theorem State.reg_bump_noted (s : State) (a : Attempt) (r k o : Nat) (h8 : k ≠ 0x10008) (h18 : k ≠ 0x10018) :
    ((s.noted a r).bump k).reg o = if o = k then min (s.reg k + 1) 0xFFFFFFFF else if o = 0x10018 then refusedWord a r
      else if o = 0x10008 then 1 else s.reg o := by
  rw [State.reg_bump, State.reg_noted, State.reg_noted, if_neg h18, if_neg h8]

/-- A write refused because the ledger is full is counted apart and not recorded (R465). -/
theorem State.refuseWrite_of_ledger (h : s.answers = true) : s.refuseWrite a reasonLEDGER = (s.noted a reasonLEDGER).bump 0x70050 :=
  (if_pos h).trans (if_pos rfl)

/-- Another refusal is recorded, with the register as it stands, unless the full ledger holds the record off (R465). -/
theorem State.refuseWrite_of_reason (h : s.answers = true) {r : Nat} (hr : r ≠ reasonLEDGER) : s.refuseWrite a r =
    if s.ledgerShut = true ∧ fromOutside a.origin = true then (s.noted a r).bump 0x10010
    else ((s.noted a r).bump 0x10010).handCq a.origin true (objReg a.reg)
      (leBytes 8 (((s.noted a r).bump 0x10010).readReg .pcie a.reg)) (leBytes 8 (((s.noted a r).bump 0x10010).readReg .pcie a.reg)) none := by
  refine (if_pos h).trans ((if_neg hr).trans ?_)
  simp only [← Bool.and_eq_true]
  rfl

theorem State.reg_handCq (s : State) (origin : Nat) (refused : Bool) (obj : Nat) (old new : List Byte) (cq : Option Cqe) (o : Nat) :
    (s.handCq origin refused obj old new cq).reg o = s.reg o := by
  unfold State.handCq
  dsimp only
  split <;> rfl

theorem State.handCq_of_running (h : s.ledger.running = true) (origin : Nat) (refused : Bool) (obj : Nat) (old new : List Byte)
    (cq : Option Cqe) : (s.handCq origin refused obj old new cq).ledger.held =
      enterHeld { due := s.time.clk + 1000, stamp := s.now, origin := origin, refused := refused, boot := false, object := obj,
                  old := old, new := new, cq := cq } s.ledger.held := by
  unfold State.handCq
  rw [if_pos h]

theorem State.refuseWrite_only (h : s.answers = true) (r : Nat) : Only [.regs, .handed] s (s.refuseWrite a r) := by
  by_cases hr : r = reasonLEDGER
  · rw [hr, State.refuseWrite_of_ledger h]
    exact ((State.bump_kept.on State.noted_kept).mono (by decide)).only
  · rw [State.refuseWrite_of_reason h hr]
    have hnote : Kept [.regs, .handed] s ((s.noted a r).bump 0x10010) := (State.bump_kept.on State.noted_kept).mono (by decide)
    split_ifs
    · exact hnote.only
    · exact (State.handCq_kept.andThen hnote).only

theorem State.reg_refuseWrite (h : s.answers = true) (r o : Nat) : (s.refuseWrite a r).reg o =
    ((s.noted a r).bump (if r = reasonLEDGER then 0x70050 else 0x10010)).reg o := by
  by_cases hr : r = reasonLEDGER
  · rw [hr, State.refuseWrite_of_ledger h, if_pos rfl]
  · rw [State.refuseWrite_of_reason h hr, if_neg hr]
    split_ifs
    · rfl
    · exact State.reg_handCq ..

theorem State.refuseWrite_unrecorded (h : s.answers = true) {r : Nat}
    (hr : r = reasonLEDGER ∨ (s.ledgerShut = true ∧ fromOutside a.origin = true)) :
    (s.refuseWrite a r).ledger.held = s.ledger.held ∧ (s.refuseWrite a r).svc.held = s.svc.held := by
  by_cases hl : r = reasonLEDGER
  · rw [hl, State.refuseWrite_of_ledger h]
    exact ⟨rfl, rfl⟩
  · rw [State.refuseWrite_of_reason h hl, if_pos (hr.resolve_left hl)]
    exact ⟨rfl, rfl⟩

theorem State.refuseWrite_recorded (h : s.answers = true) {r : Nat} (hr : r ≠ reasonLEDGER)
    (ho : s.ledgerShut = false ∨ fromOutside a.origin = false) (hrun : s.ledger.running = true) :
    ∃ h : Held, (s.refuseWrite a r).ledger.held = enterHeld h s.ledger.held ∧ h.refused = true ∧ h.origin = a.origin ∧
      h.object = objReg a.reg ∧ h.old = h.new ∧ h.stamp = s.now ∧ h.due = s.time.clk + 1000 := by
  rw [State.refuseWrite_of_reason h hr, if_neg (by rcases ho with ho | ho <;> simp [ho]), State.handCq_of_running (by exact hrun)]
  exact ⟨_, rfl, rfl, rfl, rfl, rfl, rfl, rfl⟩

/-! ### The fields of REFUSED_LAST -/

theorem bits_refusedWord {r : Nat} (ho : a.origin < 16) (hr : r < 16) :
    bits (refusedWord a r) 0 24 = a.off % 2 ^ 24 ∧ bits (refusedWord a r) 24 4 = a.origin ∧ bits (refusedWord a r) 28 4 = r := by
  unfold bits refusedWord
  omega

end

/-- Settles O9: the order of the checks, the trace of a refusal, and the phase check before them. -/
theorem writeChecks : Obligations.WriteChecks := by
  unfold Obligations.WriteChecks
  refine ⟨fun s a => ⟨State.reasonOf_of_not_sized, fun hsize hoff => ⟨State.reasonOf_of_no_register ⟨hsize, hoff⟩, fun i ho hi => ?_⟩⟩,
    fun s a r h => ⟨State.refuseWrite_only h r, ?_, ?_, ?_, ?_, fun o h8 h18 h10 h50 => ?_, State.refuseWrite_unrecorded h,
      State.refuseWrite_recorded h⟩,
    fun a r => bits_refusedWord, fun s origin offset size value => ⟨fun hp => ?_, fun hp ho hr => ?_⟩⟩
  · rw [State.reasonOf_of_register ⟨hsize, hoff⟩ ho hi]
    refine ⟨fun hlk => if_pos hlk, fun hlk hm => ?_, fun hlk hm => ⟨fun hro => ?_, fun hro => ⟨fun he => ?_, fun he => ⟨fun hs => ?_,
      fun hs => ⟨fun hl => ?_, fun hl => ?_⟩⟩⟩⟩⟩
    all_goals rw [if_neg hlk]
    · rw [if_pos hm]
    all_goals rw [if_neg (by simp [hm])]
    · rw [if_pos hro]
    all_goals rw [if_neg hro]
    · rw [if_pos he]
    all_goals rw [if_neg (by simp [he])]
    · rw [if_pos hs]
    all_goals rw [if_neg (by simp [hs])]
    · rw [if_pos hl]
    · rw [if_neg hl]
  iterate 4 -- one for each register that a refusal writes
    rw [State.reg_refuseWrite h]
    split_ifs <;> exact State.reg_bump_noted s a r _ _ (by decide) (by decide)
  · rw [State.reg_refuseWrite h]
    split_ifs <;> rw [State.reg_bump_noted s a r _ _ (by decide) (by decide)] <;> simp [h8, h18, h10, h50]
  · exact congrArg Host.Outcome.next
      ((congrArg (·.sensorEvents s) (State.write_of_pathDown _ hp)).trans (State.sensorEvents_self s))
  · exact congrArg Host.Outcome.next
      ((congrArg (·.sensorEvents s) (State.write_of_notReady _ hp ho hr)).trans
        (State.watched_of_kept (f := (·.refuseWrite _ _)) State.refuseWrite_kept))

end Sys2Proof.Machine
end

section
/-! SUPPORT. The ledger's next record: what it holds, what it leaves behind, and the checkpoint it may bring (R459 to R464, R467). -/
namespace Sys2Proof.Machine

section
variable {s t : State} {h : Held}

/-! ### What keeps the ledger unit -/

theorem Kept.ledger_eq {ps : List Part} (k : Kept ps s t) (hl : Part.ledger ∉ ps := by decide) (hh : Part.handed ∉ ps := by decide) :
    t.ledger = s.ledger := by
  have h1 := k.same .ledger hl
  have h2 := k.same .handed hh
  simp only [State.agree, Prod.mk.injEq] at h1 h2
  calc t.ledger = { ({ t.ledger with held := [] } : Ledger) with held := t.ledger.held } := rfl
    _ = _ := by rw [h1, h2.1]

theorem State.runTo_ledger (due : Nat) : (s.runTo due).ledger = s.ledger := State.runTo_kept.ledger_eq

/-! ### A record handed over -/

theorem State.handCq_of_off (hr : s.ledger.running = false) (origin : Nat) (refused : Bool) (obj : Nat) (old new : List Byte)
    (cq : Option Cqe) :
    (s.handCq origin refused obj old new cq).svc.held = s.svc.held ++
      [{ due := s.time.clk + 1000, stamp := s.now, origin := origin, refused := refused, boot := false, object := obj,
         old := old, new := new, cq := cq }] ∧
    (s.handCq origin refused obj old new cq).ledger.held = s.ledger.held := by
  unfold State.handCq
  rw [if_neg (by simp [hr])]
  exact ⟨rfl, rfl⟩

theorem State.handCq_svc_held (hr : s.ledger.running = true) (origin : Nat) (refused : Bool) (obj : Nat) (old new : List Byte)
    (cq : Option Cqe) : (s.handCq origin refused obj old new cq).svc.held = s.svc.held := by
  unfold State.handCq
  rw [if_pos hr]

theorem mem_enterHeld (h : Held) (l : List Held) : h ∈ enterHeld h l := by simp [enterHeld]

/-! ### A record placed -/

/-- The ledger with `r` as the newest of its ring. -/
def Ledger.taking (l : Ledger) (r : LedgerRec) (lost : Bool) : Ledger :=
  ({ l with ring := (r :: l.ring).take 262144, head := r.seq, overrun := l.overrun || lost } : Ledger).filled

theorem State.place_ledger (s : State) (r : LedgerRec) : ∃ lost, (s.place r).ledger = s.ledger.taking r lost := by
  refine ⟨s.ledger.mirrorEn && Decidable.decide (s.ledger.unacked ≥ 262144), ?_⟩
  unfold State.place
  dsimp only
  rw [State.raiseTo_kept.ledger_eq, apply_ite State.ledger, State.emit_ledger, ite_self, State.ledgerFill_ledger]
  exact congrArg (fun l : Ledger => l.taking r _) State.bumpIf_kept.ledger_eq

/-- `r` is the record that `h` becomes as the next one of the ledger, which `t` has taken. -/
structure Appended (s : State) (h : Held) (r : LedgerRec) (t : State) : Prop where
  seq     : r.seq = s.ledger.head + 1
  stamp   : r.stamp = h.stamp
  origin  : r.origin = h.origin
  refused : r.refused = h.refused
  object  : r.object = h.object
  chain   : r.chain = shake256 16 (s.lastBytes ++ slice { r with chain := [] }.bytes 0 48)
  ring    : t.ledger.ring = (r :: s.ledger.ring).take 262144
  head    : t.ledger.head = r.seq

/-- The record of `h` with its digests, before its chain. -/
def Held.unchained (h : Held) (seq : Nat) (old new : List Byte) : LedgerRec :=
  { seq := seq, stamp := h.stamp, origin := h.origin, refused := h.refused, boot := h.boot, object := h.object,
    oldDigest := old, newDigest := new, chain := [] }

/-- The record of `h` with its digests and its chain over the record before it. -/
def State.nextRec (s : State) (h : Held) (old new : List Byte) : LedgerRec :=
  { h.unchained (s.ledger.head + 1) old new with
    chain := chainOf s.lastBytes (h.unchained (s.ledger.head + 1) old new) }

/-- A state whose ring took the record of `h` has appended it. -/
theorem State.appended_of_ring {old new : List Byte} (hring : t.ledger.ring = (s.nextRec h old new :: s.ledger.ring).take 262144)
    (hhead : t.ledger.head = s.ledger.head + 1) : Appended s h (s.nextRec h old new) t :=
  ⟨rfl, rfl, rfl, rfl, rfl, rfl, hring, hhead⟩

/-! ### A record that is no checkpoint -/

/-- The record of a change. -/
def State.changeRec (s : State) (h : Held) : LedgerRec := s.nextRec h (shake256 12 h.old) (shake256 12 h.new)

theorem State.append_ledger (s : State) (h : Held) : ∃ lost, (s.append h (s.ledger.head + 1)).ledger =
    { s.ledger.taking (s.changeRec h) lost with since := s.ledger.since + 1 } := by
  obtain ⟨lost, hp⟩ := s.place_ledger (s.changeRec h)
  refine ⟨lost, ?_⟩
  calc (s.append h (s.ledger.head + 1)).ledger
      = { (s.place (s.changeRec h)).ledger with since := (s.place (s.changeRec h)).ledger.since + 1 } := rfl
    _ = _ := by rw [hp]; rfl

/-- The completion that waited for a record is written with it. -/
def State.completing (s : State) (h : Held) : State := match h.cq with | some q => s.cqWrite q | none => s

theorem State.completing_ledger (s : State) (h : Held) : (s.completing h).ledger = s.ledger := by
  unfold State.completing
  split
  · exact State.cqWrite_kept.ledger_eq
  · rfl

theorem State.appendHeld_of_change (hc : h.isCkpt = false) : s.appendHeld h =
    if ((s.append h (s.ledger.head + 1)).completing h).ledger.since ≥ 65536
    then ((s.append h (s.ledger.head + 1)).completing h).checkpoint else (s.append h (s.ledger.head + 1)).completing h :=
  if_neg (by simp [hc])

/-- A checkpoint of a running ledger unit is among the held records. -/
theorem State.checkpoint_held (hr : s.ledger.running = true) : ∃ k ∈ s.checkpoint.ledger.held, k.isCkpt = true := by
  unfold State.checkpoint
  split_ifs with hany
  · exact List.any_eq_true.mp hany
  · have hrun : s.takeLeaf.2.ledger.running = true := by
      have hledger := (State.takeLeaf_kept (x := s)).same .ledger (by decide)
      exact (congrArg Ledger.running hledger :).trans hr
    refine ⟨_, (State.handCq_of_running hrun ..).symm ▸ mem_enterHeld _ _, ?_⟩
    simp [Held.isCkpt, object, clsCheckpoint]

/-- A checkpoint handed over leaves the ledger but for what is held. -/
theorem State.checkpoint_ledger (s : State) : ({ s.checkpoint.ledger with held := [] } : Ledger) = { s.ledger with held := [] } :=
  State.checkpoint_kept.same .ledger (by decide)

theorem State.appendHeld_change (hr : s.ledger.running = true) (hc : h.isCkpt = false) :
    Appended s h (s.changeRec h) (s.appendHeld h) ∧ (s.appendHeld h).ledger.since = s.ledger.since + 1 ∧
    (s.ledger.since + 1 < 65536 → (s.appendHeld h).ledger.held = s.ledger.held) ∧
    (65536 ≤ s.ledger.since + 1 → ∃ k ∈ (s.appendHeld h).ledger.held, k.isCkpt = true) := by
  obtain ⟨lost, ha⟩ := s.append_ledger h
  have hl := ((s.append h (s.ledger.head + 1)).completing_ledger h).trans ha
  rw [State.appendHeld_of_change hc]
  have hsince : ((s.append h (s.ledger.head + 1)).completing h).ledger.since = s.ledger.since + 1 := congrArg Ledger.since hl
  rw [hsince]
  split_ifs with hfull
  · have hk := ((s.append h (s.ledger.head + 1)).completing h).checkpoint_ledger
    rw [hl] at hk
    exact ⟨State.appended_of_ring (congrArg Ledger.ring hk :) (congrArg Ledger.head hk :), (congrArg Ledger.since hk :), fun h => by omega,
      fun _ => State.checkpoint_held ((congrArg Ledger.running hl :).trans hr)⟩
  · exact ⟨State.appended_of_ring (congrArg Ledger.ring hl :) (congrArg Ledger.head hl :), hsince, fun _ => (congrArg Ledger.held hl :),
      fun h => by omega⟩

/-! ### A checkpoint -/

/-- The bytes of the last checkpoint; none before the first. -/
def Ledger.lastCkptBytes (l : Ledger) : List Byte := match l.lastCkpt with | some r => r.bytes | none => []

/-- The record of a checkpoint: the digest of the one before it and of its own first bytes (R467). -/
def State.ckptRec (s : State) (h : Held) : LedgerRec :=
  s.nextRec h (shake256 12 s.ledger.lastCkptBytes)
    (shake256 12 (slice (h.unchained (s.ledger.head + 1) (shake256 12 s.ledger.lastCkptBytes) []).bytes 0 36))

theorem State.appendHeld_ckpt (hc : h.isCkpt = true) :
    Appended s h (s.ckptRec h) (s.appendHeld h) ∧ (s.appendHeld h).ledger.lastCkpt = some (s.ckptRec h) ∧
    (s.appendHeld h).ledger.since = 0 ∧ (s.appendHeld h).ledger.held = s.ledger.held ∧
    (s.appendHeld h).ledger.signing = if s.sec.exhausted then s.ledger.signing else s.ledger.signing ++ [s.ckptRec h] := by
  obtain ⟨lost, hp⟩ := s.place_ledger (s.ckptRec h)
  have ha : (s.appendHeld h).ledger = { (s.place (s.ckptRec h)).ledger with
      since := 0, sinceClk := h.due - 1000, lastCkpt := some (s.ckptRec h),
      signing := if (s.place (s.ckptRec h)).sec.exhausted then (s.place (s.ckptRec h)).ledger.signing
        else (s.place (s.ckptRec h)).ledger.signing ++ [s.ckptRec h] } := congrArg State.ledger (if_pos hc)
  rw [hp, State.place_kept.sec_eq] at ha
  exact ⟨State.appended_of_ring (congrArg Ledger.ring ha :) (congrArg Ledger.head ha :), (congrArg Ledger.lastCkpt ha :),
    (congrArg Ledger.since ha :), (congrArg Ledger.held ha :), (congrArg Ledger.signing ha :)⟩

/-! ### The next of the held records -/

/-- At the tick at which `h` is due, the ledger unit takes it from the held records. -/
def State.atAppend (s : State) (h : Held) (rest : List Held) : State :=
  (s.runTo h.due).setLedger { (s.runTo h.due).ledger with held := rest }

theorem State.atAppend_ledger (s : State) (h : Held) (rest : List Held) : (s.atAppend h rest).ledger = { s.ledger with held := rest } :=
  congrArg (fun l : Ledger => { l with held := rest }) (s.runTo_ledger h.due)

theorem State.atAppend_lastBytes (s : State) (h : Held) (rest : List Held) : (s.atAppend h rest).lastBytes = s.lastBytes := by
  unfold State.lastBytes
  rw [s.atAppend_ledger]
  have hv : (s.atAppend h rest).vault = s.vault := State.runTo_vault
  rw [hv]

theorem State.atAppend_time (s : State) (h : Held) (rest : List Held) : ((s.atAppend h rest).appendHeld h).time = (s.runTo h.due).time :=
  State.appendHeld_kept.same .time (by decide)

theorem State.atAppend_sec (s : State) (h : Held) (rest : List Held) : (s.atAppend h rest).sec = s.sec :=
  State.runTo_kept.sec_eq

theorem State.appendNext_of_due {rest : List Held} (hr : s.ledger.running = true) (hh : s.ledger.held = h :: rest)
    (hd : s.fallsDue h.due = true) : s.appendNext = (s.atAppend h rest).appendHeld h := by
  unfold State.appendNext
  rw [hh]
  exact (if_pos hr).trans (State.atTimer_of_due hd _)

theorem State.appendNext_of_none (hn : s.ledger.held = [] ∨ s.ledger.running = false ∨ (∀ h ∈ s.ledger.held.head?, s.fallsDue h.due = false)) :
    s.appendNext = s := by
  unfold State.appendNext
  cases hh : s.ledger.held with
  | nil => rfl
  | cons h rest =>
    rw [hh] at hn
    rcases hn with hn | hn | hn
    · exact absurd hn (List.cons_ne_nil _ _)
    · exact if_neg (by simp [hn])
    · dsimp only
      rw [State.atTimer_of_later (hn h rfl), ite_self]

end

/-- Settles O19: what is handed over, and the record that the ledger takes next. -/
theorem ledgerAppend : Obligations.LedgerAppend := by
  unfold Obligations.LedgerAppend
  refine ⟨fun s origin obj old new => ⟨State.handCq_kept.only, fun hr => ⟨State.handCq_of_running hr .., State.handCq_svc_held hr ..⟩,
    fun hr => State.handCq_of_off hr ..⟩, fun s h rest hr hh hd => ?_, fun s hn => congrArg Host.Outcome.next (State.appendNext_of_none hn)⟩
  refine ⟨_, congrArg Host.Outcome.next (State.appendNext_of_due hr hh hd), s.atAppend_time h rest, ?_⟩
  have hl := s.atAppend_ledger h rest
  have hb := s.atAppend_lastBytes h rest
  have hs := s.atAppend_sec h rest
  generalize s.atAppend h rest = x at hl hb hs ⊢
  cases hc : h.isCkpt
  · obtain ⟨a, hsince, hheld, hckpt⟩ := x.appendHeld_change (by rw [hl]; exact hr) hc
    rw [hl] at hsince hheld hckpt
    exact ⟨_, by simpa [hl] using a.seq, a.stamp, a.origin, a.refused, a.object, hb ▸ a.chain, by simpa [hl] using a.ring, a.head,
      fun _ => ⟨rfl, rfl, hsince, hheld, hckpt⟩, nofun⟩
  · obtain ⟨a, hlast, hsince, hheld, hsign⟩ := x.appendHeld_ckpt hc
    rw [hl] at hheld hsign
    rw [hs] at hsign
    refine ⟨_, by simpa [hl] using a.seq, a.stamp, a.origin, a.refused, a.object, hb ▸ a.chain, by simpa [hl] using a.ring, a.head,
      nofun, fun _ => ⟨rfl, ?_, hlast, hsince, hheld, fun he => ?_, fun he => ?_⟩⟩
    · show shake256 12 x.ledger.lastCkptBytes = _
      rw [hl]
      rfl
    · rw [hsign, he]
      rfl
    · rw [hsign, he]
      rfl

end Sys2Proof.Machine
end

section
/-! SUPPORT. Accepted writes of the fault block and of the setup lock (R115, R447, R456, R511). -/
namespace Sys2Proof.Machine

section
variable {s : State}

/-- An accepted write is the effect of its register on a state that differs in the records held, watched for what the state sensors show. -/
theorem does_sensedWrite {c : Instr} {a : Attempt} {x : Extra} {P : State → Prop} (o : Nat)
    (hc : exec c s = .next (s.watched (·.write a x))) (h : s.accepts a) (ho : a.reg = o)
    (hp : ∀ l v, P (((s.holding l v).regEffect a.origin o (s.valueOf a) x).sensorEvents s)) : Does c s P := by
  obtain ⟨i, hi, hw⟩ := s.write_accepted a x h
  obtain ⟨l, v, ha⟩ := s.acceptWrite_eq a i x
  rw [← s.valueOf_eq a i hi, ho] at ha
  refine ⟨_, hc, ?_⟩
  show P ((s.write a x).sensorEvents s)
  rw [hw, ha]
  exact hp l v

/-! ### PROVE_REQUEST -/

/-- `runs'` is `runs` after a detection on region `region` of unit `u` at `stamp`: merged into its run, or a run of kind `run` that waits
for its start (R447). -/
def Detected (runs runs' : List Run) (u : ProveUnit) (region run : Nat) (stamp : Stamp) : Prop :=
  ((∃ r ∈ runs, r.unit = u ∧ r.region = region) → runs'.length = runs.length) ∧
  ((∀ r ∈ runs, r.unit ≠ u ∨ r.region ≠ region) →
    ∃ r : Run, runs' = runs ++ [r] ∧ r.unit = u ∧ r.run = run ∧ r.started = none ∧ r.first = stamp)

theorem State.detect_detected {u : ProveUnit} (hf : s.isFenced u = false) (cls region run : Nat) (more : Bool) :
    Detected s.faults.runs (s.detect cls u region run more).faults.runs u region run s.now := by
  have hany : (s.faults.runs.any fun r => r.unit == u && r.region == region) = true ↔ ∃ r ∈ s.faults.runs, r.unit = u ∧ r.region = region := by
    simp [List.any_eq_true]
  unfold State.detect
  rw [if_neg (by simp [hf])]
  split_ifs with hrun
  · refine ⟨fun _ => List.length_map _, fun hnone => ?_⟩
    obtain ⟨r, hr, hu, hreg⟩ := hany.mp hrun
    exact absurd (hnone r hr) (by simp [hu, hreg])
  · refine ⟨fun h => absurd (hany.mpr h) hrun, fun _ => ?_⟩
    dsimp only
    split
    · split_ifs <;> exact ⟨_, rfl, rfl, rfl, rfl, rfl⟩
    · exact ⟨_, rfl, rfl, rfl, rfl, rfl⟩

theorem proveTarget_port {v run : Nat} {k : Fin 9} (h : proveTarget v = some (run, .port k)) : run = 6 := by
  unfold proveTarget at h
  dsimp only at h
  split_ifs at h <;> simp_all

theorem State.writeProveRequest_detected {v run : Nat} {u : ProveUnit} (hv : proveTarget v = some (run, u)) (hf : s.isFenced u = false) :
    Detected s.faults.runs (s.writeProveRequest v).faults.runs u 0 run s.now := by
  unfold State.writeProveRequest
  rw [hv]
  cases u with
  | port k =>
    obtain rfl := proveTarget_port hv
    dsimp only
    split_ifs
    · rw [State.linkError_of_open hf]
      refine State.detect_detected (s := (s.setPort k.val _).emit _) ?_ ..
      exact hf
    · exact State.detect_detected hf ..
  | _ => exact State.detect_detected hf ..

theorem State.stateOk_prove (v : Nat) : s.stateOk 0x60018 v = if s.svc.phase == .standbyEntry then false else
    match proveTarget v with | some (_, u) => !(s.isFenced u) | none => false := rfl

/-- PROVE_REQUEST takes no unit that is fenced. -/
theorem State.isFenced_of_stateOk {v run : Nat} {u : ProveUnit} (h : s.stateOk 0x60018 v = true) (hv : proveTarget v = some (run, u)) :
    s.isFenced u = false := by
  rw [State.stateOk_prove, hv] at h
  split_ifs at h
  simpa using h

theorem does_proveRequest (w : RegWr) {run : Nat} {u : ProveUnit} (h : s.accepts (rowAttempt w 0x60018 0 0))
    (hv : proveTarget (s.valueOf (rowAttempt w 0x60018 0 0)) = some (run, u)) : Does (.proveRequest w) s fun t =>
      Only [.faults, .fab, .handed, .platform, .out] s t ∧ Detected s.faults.runs t.faults.runs u 0 run s.now := by
  have hreg : (rowAttempt w 0x60018 0 0).reg = 0x60018 := rowAttempt_reg w _ _ _ rfl
  have hok := State.stateOk_of_reason h.2.2
  rw [hreg] at hok
  have hf := State.isFenced_of_stateOk hok hv
  refine does_write 0x60018 rfl h hreg fun l x e z => ?_
  rw [State.regEffect_prove]
  exact ⟨only_write (State.writeProveRequest_kept.mono (by decide)).only, State.writeProveRequest_detected (s := s.holding l x) hv hf⟩

/-! ### FAULT_CLEAR -/

/-- The vault with the stored copies of the fences of ports alone (R456). -/
def Vault.portsFenced (v : Vault) : Vault := { v with storedFences := v.storedFences.filter fun p => p.1 == 0x10030 }

/-- The faults with every fence of a bridge, channel or bank cleared, and `status` for the causes that stay (R456). -/
def Faults.cleared (f : Faults) (status : Nat) : Faults := { f with status := status, fenceBridge := 0, fenceCs := 0, fenceStack := [] }

theorem State.routeChanges_fields (l : List Nat) (s : State) : let t := l.foldl (fun s b => s.routeChange b false) s
    t.faults = s.faults ∧ t.vault = s.vault ∧ t.fab = { s.fab with routeDue := t.fab.routeDue } := by
  induction l generalizing s with
  | nil => exact ⟨rfl, rfl, rfl⟩
  | cons b l ih =>
    obtain ⟨hfaults, hvault, hfab⟩ := ih (s.routeChange b false)
    exact ⟨hfaults, hvault, hfab⟩

/-- What stays of DEGRADED: the causes that a frame and the planes still give. -/
def State.statusLeft (s : State) : Nat := flag ((List.range 4).any fun d => bit (s.rodMap d) 9) * 2 + flag s.planesLost * 64

theorem State.statusLeft_bit (s : State) : bit s.statusLeft 0 = false := by
  unfold State.statusLeft bit
  simp
  omega

theorem State.writeFaultClear_fields {v : Nat} (hv : bit v 0 = true) : let t := s.writeFaultClear v
    t.faults = s.faults.cleared s.statusLeft ∧ t.vault = s.vault.portsFenced ∧ t.fab = { s.fab with routeDue := t.fab.routeDue } := by
  unfold State.writeFaultClear
  rw [if_neg (by simp [hv])]
  exact State.routeChanges_fields _ _

theorem does_faultClear (w : RegWr) (h : s.accepts (rowAttempt w 0x60008 1 0)) (hv : bit (s.valueOf (rowAttempt w 0x60008 1 0)) 0 = true) :
    Does (.faultClear w) s fun t => ∃ u : State, t = u.routesOpen.sensorEvents s ∧
      u.faults = { s.faults with status := u.faults.status, fenceBridge := 0, fenceCs := 0, fenceStack := [] } ∧
      bit u.faults.status 0 = false ∧ (∀ p ∈ u.vault.storedFences, p.1 = 0x10030) ∧
      u.vault = { s.vault with storedFences := u.vault.storedFences } ∧ u.fab = { s.fab with routeDue := u.fab.routeDue } ∧
      Only [.faults, .vault, .fab, .handed] s u := by
  refine does_sensedWrite 0x60008 rfl h (rowAttempt_reg w _ _ _ rfl) fun l x => ?_
  obtain ⟨hfaults, hvault, hfab⟩ := State.writeFaultClear_fields (s := s.holding l x) hv
  refine ⟨_, congrArg (State.sensorEvents · s) (State.regEffect_faultClear ..), ?_, ?_, ?_, ?_, hfab,
    only_stillWrite (State.writeFaultClear_kept.mono (by decide)).only⟩
  · rw [hfaults]
    rfl
  · rw [hfaults]
    exact State.statusLeft_bit _
  · rw [hvault]
    intro p hp
    exact eq_of_beq (List.mem_filter.mp hp).2
  · rw [hvault]
    rfl

/-! ### FENCE_CLEAR of a frame -/

/-- The arrays and the memory of frame `d` without its shift, where it has one (R115). -/
def State.unshifted (s : State) (d : Nat) : State := if bit (s.rodMap d) 7 then s.unmapRod d (bits (s.rodMap d) 0 6) else s

/-- What a FENCE_CLEAR of frame `d` leaves of a state that its shift has been taken from. -/
def State.unfenced (s : State) (d : Nat) : State :=
  let t := ((s.setReg (rFrame d 0) 0x3F).storeRods d 0x3F).setDead (s.faults.dead.filter (fun p => p.1 ≠ d))
  t.setFaults { s.faults with dead := s.faults.dead.filter (fun p => p.1 ≠ d), remaps := s.faults.remaps.filter (fun p => p.1 ≠ d) }

theorem State.writeFenceClear_of_set {d v : Nat} (hv : bit v 0 = true) : s.writeFenceClear d v = (s.unshifted d).unfenced d := by
  unfold State.writeFenceClear
  rw [if_neg (by simp [hv])]
  rfl

theorem State.unshifted_kept (d : Nat) : Kept [.arr, .mem] s (s.unshifted d) := by
  unfold State.unshifted
  exact Kept.ite State.unmapRod_kept (Kept.refl s)

theorem State.reg_unfenced (s : State) (d o : Nat) : (s.unfenced d).reg o = if o = rFrame d 0 then 0x3F else s.reg o :=
  State.reg_setReg ..

theorem State.mem_dead_unfenced {d : Nat} {p : Nat × Nat} : p ∈ (s.unfenced d).faults.dead ↔ p ∈ s.faults.dead ∧ p.1 ≠ d := by
  refine List.mem_filter.trans (and_congr_right fun _ => ?_)
  exact decide_eq_true_iff

theorem State.mem_remaps_unfenced {d : Nat} {p : Nat × Nat} : p ∈ (s.unfenced d).faults.remaps ↔ p ∈ s.faults.remaps ∧ p.1 ≠ d := by
  refine List.mem_filter.trans (and_congr_right fun _ => ?_)
  exact decide_eq_true_iff

theorem does_fenceClear (die : Fin 4) (w : RegWr) (h : s.accepts (rowAttempt w (rFrame die.val 8) 1 0))
    (hv : bit (s.valueOf (rowAttempt w (rFrame die.val 8) 1 0)) 0 = true) : Does (.fenceClear die w) s fun t =>
      t.reg (rFrame die.val 0) = 0x3F ∧ (∀ o, o ≠ rFrame die.val 0 → t.reg o = s.reg o) ∧
      (∀ p, p ∈ t.faults.dead ↔ p ∈ s.faults.dead ∧ p.1 ≠ die.val) ∧
      t.vault = { s.vault with storedRods := setNth s.vault.storedRods die.val 0x3F, storedDead := t.faults.dead } ∧
      (∀ p, p ∈ t.faults.remaps ↔ p ∈ s.faults.remaps ∧ p.1 ≠ die.val) ∧
      (bit (s.rodMap die.val) 7 = false → t.arr = s.arr ∧ t.mem = s.mem) ∧
      (bit (s.rodMap die.val) 7 = true → ∃ u : State, u = s.unmapRod die.val (bits (s.rodMap die.val) 0 6) ∧ t.arr = u.arr ∧ t.mem = u.mem) ∧
      Only [.regs, .arr, .mem, .faults, .vault, .handed, .platform, .out] s t := by
  refine does_write (rFrame die.val 8) rfl h (rowAttempt_reg w _ _ _ (rFrame_aligned die)) fun l x e z => ?_
  rw [State.regEffect_fenceClear, State.writeFenceClear_of_set hv]
  have hk := (s.holding l x).unshifted_kept die.val
  have hregs (o : Nat) : ((s.holding l x).unshifted die.val).reg o = s.reg o := State.reg_of_regs (hk.same .regs (by decide)) o
  have hfaults : ((s.holding l x).unshifted die.val).faults = s.faults := hk.same .faults (by decide)
  have hvault : ((s.holding l x).unshifted die.val).vault = s.vault := hk.same .vault (by decide)
  have honly : Only [.regs, .arr, .mem, .faults, .vault, .handed, .platform, .out] (s.holding l x)
      (((s.holding l x).unshifted die.val).unfenced die.val) := by
    rw [← State.writeFenceClear_of_set hv]
    exact (State.writeFenceClear_kept.mono (by decide)).only
  refine ⟨?_, fun o ho => ?_, fun p => ?_, ?_, fun p => ?_, fun hm => ?_, fun hm => ⟨_, rfl, ?_⟩, only_write honly⟩
  · exact (State.reg_unfenced ..).trans (if_pos rfl)
  · exact (State.reg_unfenced ..).trans ((if_neg ho).trans (hregs o))
  · exact State.mem_dead_unfenced.trans (by rw [hfaults])
  · show ({ ((s.holding l x).unshifted die.val).vault with
      storedRods := setNth ((s.holding l x).unshifted die.val).vault.storedRods die.val 0x3F, storedDead := _ } : Vault) = _
    rw [hvault]
    rfl
  · exact State.mem_remaps_unfenced.trans (by rw [hfaults])
  · have hu : (s.holding l x).unshifted die.val = s.holding l x := if_neg (hm ▸ Bool.false_ne_true)
    rw [hu]
    exact ⟨rfl, rfl⟩
  · have hu : (s.holding l x).unshifted die.val = (s.holding l x).unmapRod die.val (bits (s.rodMap die.val) 0 6) := if_pos hm
    rw [hu]
    unfold State.unmapRod
    split_ifs <;> exact ⟨rfl, rfl⟩

/-! ### The setup lock -/

theorem State.hand_svc (s : State) (origin obj : Nat) (old new : List Byte) :
    (s.hand origin obj old new).svc = { s.svc with held := (s.hand origin obj old new).svc.held } := by
  unfold State.hand State.handCq
  dsimp only
  split <;> rfl

/-- The lock set, before its record. -/
def State.lockSet (s : State) : State :=
  let s := { s with svc := { s.svc with locked := true } }
  if s.svc.phase == .boot then s.setPhase .setupLocked else s

theorem State.lockSet_svc (s : State) :
    s.lockSet.svc = { s.svc with locked := true, phase := if s.svc.phase = .boot then .setupLocked else s.svc.phase } := by
  unfold State.lockSet
  by_cases hb : s.svc.phase = .boot
  · rw [if_pos (by simpa using hb), if_pos hb]
    rfl
  · rw [if_neg (by simpa using hb), if_neg hb]

theorem State.setLock_svc (s : State) (origin : Nat) : (s.setLock origin).svc =
    { s.svc with locked := true, held := (s.setLock origin).svc.held, phase := if s.svc.phase = .boot then .setupLocked else s.svc.phase } := by
  have hrec : (s.setLock origin).svc = { s.lockSet.svc with held := (s.setLock origin).svc.held } := State.hand_svc ..
  rw [State.lockSet_svc] at hrec
  exact hrec

theorem does_setupLock (w : RegWr) (h : s.accepts (rowAttempt w 0x10000 1 0)) (hv : bit (s.valueOf (rowAttempt w 0x10000 1 0)) 0 = true) :
    Does (.setupLock w) s fun t =>
      t.svc = { s.svc with locked := true, held := t.svc.held, phase := if s.svc.phase = .boot then .setupLocked else s.svc.phase } ∧
      Only [.svc, .phase, .handed, .platform, .out] s t := by
  refine does_write 0x10000 rfl h (rowAttempt_reg w _ _ _ rfl) fun l x e z => ?_
  rw [State.regEffect_lock, if_pos hv]
  exact ⟨State.setLock_svc (s.holding l x) _, only_write (State.setLock_kept.mono (by decide)).only⟩

end

/-- Settles O17: a requested run, the fences cleared, and the lock that ends boot. -/
theorem faultWrites : Obligations.FaultWrites := by
  unfold Obligations.FaultWrites
  exact ⟨fun s w die => ⟨fun run u h hv => does_proveRequest w h hv, does_faultClear w, does_fenceClear die w⟩, fun s w => does_setupLock w⟩

end Sys2Proof.Machine
end

section
/-! SUPPORT. The start of the module: what the ledger unit, the rebuilt map, the boot ROM and the firmware leave (R248, R461, R474, R486). -/
namespace Sys2Proof.Machine

section
variable {s t : State}

/-! ### Fields that the start keeps -/

/-- What is kept of the service block, but for the records that wait in the island. -/
theorem Kept.svc_eq {ps : List Part} (k : Kept ps s t) (hs : Part.svc ∉ ps := by decide) (hp : Part.phase ∉ ps := by decide) :
    ({ t.svc with held := [] } : Service) = { s.svc with held := [] } := by
  have hsvc : ({ t.svc with held := [], phase := .off } : Service) = { s.svc with held := [], phase := .off } := k.same .svc hs
  have hphase : t.svc.phase = s.svc.phase := k.same .phase hp
  calc ({ t.svc with held := [] } : Service)
      = { ({ t.svc with held := [], phase := .off } : Service) with phase := t.svc.phase } := rfl
    _ = { s.svc with held := [] } := by rw [hsvc, hphase]

theorem Kept.running_eq {ps : List Part} (k : Kept ps s t) (hl : Part.ledger ∉ ps := by decide) : t.ledger.running = s.ledger.running :=
  (congrArg Ledger.running (k.same .ledger hl) :)

/-- The vault but for its stored fence maps. -/
def Vault.unfenced (v : Vault) : Vault := { v with storedFences := [] }

/-! ### HBM4 training -/

theorem State.degrade_vault (s : State) (cause obj : Nat) : (s.degrade cause obj).vault = s.vault :=
  State.degrade_kept.same .vault (by decide)

theorem State.event_vault (s : State) (type status loc : Nat) (detail : List Byte) : (s.event type status loc detail).vault = s.vault :=
  State.event_kept.same .vault (by decide)

/-- A fence keeps the vault but for its stored copy. -/
theorem State.fenceMap_vault (s : State) (kind sub die stack off old new loc : Nat) (cause : Option Nat) :
    (s.fenceMap kind sub die stack off old new loc cause).vault.unfenced = s.vault.unfenced := by
  have hstored (obj : Nat) (a b : List Byte) : ((s.hand 12 obj a b).storeMap off new).vault.unfenced = s.vault.unfenced :=
    (congrArg Vault.unfenced (s.hand_vault 12 obj a b) :)
  unfold State.fenceMap
  dsimp only
  split
  · rw [State.degrade_vault, State.event_vault, hstored]
  · rw [State.event_vault, hstored]

theorem State.fenceChannel_vault (s : State) (k c : Nat) : (s.fenceChannel k c).vault.unfenced = s.vault.unfenced := State.fenceMap_vault ..

/-- The channels that did not train are fenced. -/
def State.fenceUntrained (s : State) (untrained : List (Fin 24 × Fin 32)) : State :=
  untrained.foldl (fun s c => if bit (s.fenceStack c.1.val) c.2.val then s else s.fenceChannel c.1.val c.2.val) s

theorem State.fenceUntrained_vault (l : List (Fin 24 × Fin 32)) (s : State) : (s.fenceUntrained l).vault.unfenced = s.vault.unfenced := by
  induction l generalizing s with
  | nil => rfl
  | cons c l ih =>
    refine (ih _).trans ?_
    beta_reduce
    split
    · rfl
    · exact s.fenceChannel_vault ..

theorem State.fenceUntrained_kept (l : List (Fin 24 × Fin 32)) :
    Kept [.regs, .vault, .rings, .faults, .handed, .out] s (s.fenceUntrained l) :=
  Kept.foldl _ _ (Kept.refl s) fun _ _ => Kept.ite (Kept.refl _) State.fenceChannel_kept

theorem State.trainHbm_svc (s : State) (l : List (Fin 24 × Fin 32)) :
    ({ (s.trainHbm l).svc with held := [] } : Service) = { s.svc with held := [], hbmReady := true } :=
  (congrArg (fun v : Service => { v with hbmReady := true }) (s.fenceUntrained_kept l).svc_eq :)

theorem State.trainHbm_vault (s : State) (l : List (Fin 24 × Fin 32)) : (s.trainHbm l).vault.unfenced = s.vault.unfenced :=
  State.fenceUntrained_vault l s

/-! ### The firmware -/

/-- The identity of the image in force. -/
def Security.running (x : Security) (image : List Byte) : Security :=
  { x with svn := field image 8 4, build := field image 12 4, digest := fwDigest image }

/-- The security engine but for what a reservation of leaves changes. -/
def Security.leafless (x : Security) : Security := { x with blocks := 0, nextLeaf := 0, exhausted := false }

theorem State.reserveLeaves_leafless (s : State) : s.reserveLeaves.sec.leafless = s.sec.leafless := by
  unfold State.reserveLeaves
  dsimp only
  split
  · rfl
  · rw [State.hand_sec]
    rfl

/-- The firmware's state before it sets the lock: the leaf block and the stored maps. -/
def State.loaded (s : State) (image : List Byte) : State :=
  let s := (s.setSec (s.sec.running image)).reserveLeaves
  let s := s.bootRegs.foldl (fun s r => s.bootWrite r.1 r.2) s
  let s := s.setFaults { s.faults with dead := s.vault.storedDead }
  (s.setFab { s.fab with hubRoutes := (List.range 8).filter (fun b => isRing b && bit s.faults.fenceBridge b) }).degradeFromFences

theorem State.firmware_eq (s : State) (image : List Byte) : s.firmware image = (s.loaded image).setLock 0 := by
  unfold State.firmware State.loaded
  dsimp only [State.setSec]
  rfl

theorem State.loaded_kept_leaves (s : State) (image : List Byte) :
    Kept [.time, .regs, .arr, .mem, .fab, .rings, .faults, .handed, .out] (s.setSec (s.sec.running image)).reserveLeaves (s.loaded image) := by
  refine Kept.on (State.degradeFromFences_kept.mono (by decide)) (Kept.on (Kept.mono State.setFab_kept (by decide))
    (Kept.on (State.setFaults_kept.mono (by decide)) ?_))
  exact Kept.foldl _ _ (Kept.refl _) fun _ _ => State.bootWrite_kept.mono (by decide)

theorem State.loaded_kept (s : State) (image : List Byte) :
    Kept [.time, .regs, .arr, .mem, .fab, .rings, .faults, .handed, .sec, .out] s (s.loaded image) :=
  ((s.loaded_kept_leaves image).mono (by decide)).on ((State.reserveLeaves_kept.mono (by decide)).on
    (Kept.upd (Kept.refl s)))

theorem State.firmware_sec (s : State) (image : List Byte) : (s.firmware image).sec.leafless = (s.sec.running image).leafless := by
  rw [State.firmware_eq, State.setLock_kept.sec_eq, (s.loaded_kept_leaves image).sec_eq, State.reserveLeaves_leafless]
  rfl

theorem State.firmware_svc {image : List Byte} (hp : s.svc.phase = .boot) : ({ (s.firmware image).svc with held := [] } : Service) =
    { s.svc with held := [], locked := true, phase := .setupLocked } := by
  have hk := (s.loaded_kept image).svc_eq
  have hphase : (s.loaded image).svc.phase = .boot := ((s.loaded_kept image).same .phase (by decide)).trans hp
  rw [State.firmware_eq, State.setLock_svc, if_pos hphase]
  exact (congrArg (fun v : Service => { v with locked := true, phase := .setupLocked }) hk :)

/-! ### The boot ROM -/

/-- What a boot with the accepted image `im` makes of `x`. -/
structure BootedWith (x : State) (im : List Byte) (t : State) : Prop where
  svc     : ({ t.svc with held := [] } : Service) = { x.svc with held := [], phase := .setupLocked, locked := true, hbmReady := true }
  running : t.ledger.running = x.ledger.running
  vault   : t.vault.unfenced = x.vault.unfenced
  sec     : t.sec.leafless = (x.sec.running im).leafless

/-- What a boot that finds no image makes of `x`. -/
structure Recovering (x t : State) : Prop where
  svc     : ({ t.svc with held := [] } : Service) = { x.svc with held := [], phase := .recovery }
  running : t.ledger.running = x.ledger.running
  vault   : t.vault = x.vault
  sec     : t.sec.recovery = true
  asked   : Out.askImage ∈ t.out

/-- The state that waits for an image in RECOVERY. -/
def State.asking (s : State) : State :=
  { s.setPhase .recovery with sec := { s.sec with recovery := true } }.emit .askImage

theorem State.asking_recovering {x : State} (k : Kept [.handed] x s) : Recovering x s.asking :=
  ⟨(congrArg (fun v : Service => { v with phase := .recovery }) k.svc_eq :), k.running_eq, k.same .vault (by decide), rfl,
    List.mem_append_right _ (List.mem_singleton_self _)⟩

theorem State.bootImage_recovering {image : Option (List Byte)} (h : ∀ im, image = some im → s.fwOk im = false)
    (untrained : List (Fin 24 × Fin 32)) (train : Bool) : Recovering s (s.bootImage image untrained train) := by
  cases image with
  | none => exact State.asking_recovering State.fwRecord_kept
  | some im =>
    have he : s.bootImage (some im) untrained train = ((s.fwRecord 2 [] (fwDigest im)).fwRecord 5 [] []).asking := if_neg (by simp [h im rfl])
    rw [he]
    exact State.asking_recovering (State.fwRecord_kept.on State.fwRecord_kept)

/-- A firmware's state, once HBM4 is trained, is that of a boot. -/
theorem State.trainHbm_booted {x y : State} {im : List Byte} (untrained : List (Fin 24 × Fin 32))
    (hsvc : ({ y.svc with held := [] } : Service) = { x.svc with held := [], locked := true, phase := .setupLocked })
    (hrun : y.ledger.running = x.ledger.running) (hvault : y.vault = x.vault) (hsec : y.sec.leafless = (x.sec.running im).leafless) :
    BootedWith x im (y.trainHbm untrained) := by
  refine ⟨(y.trainHbm_svc untrained).trans ?_, State.trainHbm_kept.running_eq.trans hrun, (y.trainHbm_vault untrained).trans ?_,
    (congrArg Security.leafless State.trainHbm_kept.sec_eq).trans hsec⟩
  · exact (congrArg (fun v : Service => { v with hbmReady := true }) hsvc :)
  · rw [hvault]

theorem State.firmware_booted {im : List Byte} (untrained : List (Fin 24 × Fin 32)) (hp : s.svc.phase = .boot) :
    BootedWith s im ((s.firmware im).trainHbm untrained) :=
  State.trainHbm_booted untrained (State.firmware_svc hp) State.firmware_kept.running_eq (State.firmware_kept.same .vault (by decide))
    (s.firmware_sec im)

/-- A boot that goes on from a recorded verdict. -/
theorem BootedWith.of_recorded {x : State} {im : List Byte} (b : BootedWith (x.setPhase .boot) im t) (k : Kept [.handed] s x) :
    BootedWith s im t :=
  ⟨b.svc.trans (congrArg (fun v : Service => { v with phase := .setupLocked, locked := true, hbmReady := true }) k.svc_eq :),
    b.running.trans k.running_eq, b.vault.trans (congrArg Vault.unfenced (k.same .vault (by decide))),
    b.sec.trans (congrArg (fun v : Security => (v.running im).leafless) k.sec_eq)⟩

theorem State.bootImage_booted {im : List Byte} (h : s.fwOk im = true) (untrained : List (Fin 24 × Fin 32)) :
    BootedWith s im (s.bootImage (some im) untrained true) := by
  have he : s.bootImage (some im) untrained true = (((s.fwRecord 1 [] (fwDigest im)).setPhase .boot).firmware im).trainHbm untrained := by
    unfold State.bootImage
    dsimp only
    rw [if_pos h, if_pos rfl]
  rw [he]
  exact (State.firmware_booted untrained rfl).of_recorded State.fwRecord_kept

/-! ### The ledger unit starts -/

theorem Ledger.taking_running (l : Ledger) (r : LedgerRec) (lost : Bool) : (l.taking r lost).running = l.running := rfl

theorem State.append_running (s : State) (h : Held) (n : Nat) : (s.append h n).ledger.running = s.ledger.running := by
  have hplace (r : LedgerRec) : (s.place r).ledger.running = s.ledger.running := by
    obtain ⟨lost, hp⟩ := s.place_ledger r
    rw [hp, Ledger.taking_running]
  exact hplace _

/-- The ledger unit runs. -/
structure LedgerRuns (s : State) : Prop where
  running : s.ledger.running = true

theorem LedgerRuns.append {s : State} (r : LedgerRuns s) (h : Held) (n : Nat) : LedgerRuns (s.append h n) :=
  ⟨(s.append_running h n).trans r.running⟩

theorem LedgerRuns.recounted {s : State} (r : LedgerRuns s) : LedgerRuns (s.setLedger { s.ledger with since := 0 }) := ⟨r.running⟩

theorem State.openRing_runs (s : State) (boot : Held) : LedgerRuns (s.openRing boot) :=
  LedgerRuns.recounted (LedgerRuns.append ⟨rfl⟩ boot _)

theorem LedgerRuns.deferred {s : State} (r : LedgerRuns s) (l : List Held) : LedgerRuns (l.foldl (fun s h =>
    let s := s.runTo (s.time.clk + 1)
    s.append { h with stamp := s.now } (s.ledger.head + 1)) s) := by
  induction l generalizing s with
  | nil => exact r
  | cons h l ih => exact ih (LedgerRuns.append ⟨(congrArg Ledger.running (s.runTo_ledger _)).trans r.running⟩ _ _)

theorem LedgerRuns.island {s : State} (r : LedgerRuns s) (l : List Held) : LedgerRuns { s with svc := { s.svc with held := l } } := ⟨r.running⟩

theorem State.startLedger_runs (s : State) (ok : Bool) (digest : List Byte) : LedgerRuns (s.startLedger ok digest) :=
  ((s.openRing_runs _).island []).deferred _

/-! ### The map is rebuilt -/

theorem State.flushJournal_mapReady (s : State) : s.flushJournal.vault.mapReady = s.vault.mapReady :=
  (congrArg Vault.mapReady s.flushJournal_noJournal :)

theorem State.freeExtent_mapReady (s : State) (c : CatEntry) : (s.freeExtent c).vault.mapReady = s.vault.mapReady := by
  unfold State.freeExtent
  generalize c.extent = l
  induction l generalizing s with
  | nil => rfl
  | cons e l ih => exact (ih _).trans (congrArg Vault.mapReady (s.journal_noJournal (.free e.2)) :)

theorem State.discardEntry_mapReady (s : State) (c : CatEntry) : (s.discardEntry c).vault.mapReady = s.vault.mapReady := by
  unfold State.discardEntry
  dsimp only
  rw [State.hand_vault]
  exact State.freeExtent_mapReady _ c

theorem State.rebuildMap_mapReady (s : State) (reads : List JournalRead) : (s.rebuildMap reads).vault.mapReady = true := by
  unfold State.rebuildMap
  dsimp only
  rw [State.flushJournal_mapReady]
  generalize List.filter _ _ = l
  have hfold (x : State) : (l.foldl State.discardEntry x).vault.mapReady = x.vault.mapReady := by
    induction l generalizing x with
    | nil => rfl
    | cons c l ih => exact (ih _).trans (x.discardEntry_mapReady c)
  exact hfold _

/-! ### The start -/

/-- The supplies are on (R486 step 3). -/
def State.supplied (s : State) : State :=
  { s with svc := { s.svc with phase := .supplies, supplies := [true, true, true, true], mark := none, stepNo := 3 } }

/-- The boot ROM takes the stored image with the ledger unit running and the map rebuilt, and `s` is as it was but for that. -/
structure AtBootRom (s x : State) : Prop where
  svc     : ({ x.svc with held := [] } : Service) =
    { s.svc with held := [], phase := .boot, supplies := [true, true, true, true], mark := none, stepNo := 3 }
  running : x.ledger.running = true
  map     : x.vault.mapReady = true
  sec     : x.sec = s.sec

theorem State.rebuildMap_atBootRom {y : State} (k : Kept [.time, .regs, .rings, .ledger, .handed, .out] (s.supplied.setPhase .boot) y) (r : LedgerRuns y)
    (reads : List JournalRead) : AtBootRom s (y.rebuildMap reads) :=
  ⟨State.rebuildMap_kept.svc_eq.trans k.svc_eq, State.rebuildMap_kept.running_eq.trans r.running, y.rebuildMap_mapReady reads,
    State.rebuildMap_kept.sec_eq.trans k.sec_eq⟩

/-- The ledger unit as the boot ROM finds it running. -/
def State.ledgerUp (s : State) (ok : Bool) (digest : List Byte) : State := (s.supplied.setPhase .boot).startLedger ok digest

theorem State.start_of_ledgerUp (s : State) (boot : StartUp) : ∃ ok digest, s.start boot =
    ((s.ledgerUp ok digest).rebuildMap boot.journal).bootImage (s.ledgerUp ok digest).vault.image boot.untrained true := by
  unfold State.start State.ledgerUp State.supplied
  dsimp only
  exact ⟨_, _, rfl⟩

theorem State.start_eq (s : State) (boot : StartUp) :
    ∃ x, AtBootRom s x ∧ s.start boot = x.bootImage s.vault.image boot.untrained true := by
  obtain ⟨ok, digest, he⟩ := s.start_of_ledgerUp boot
  have hk : Kept [.time, .regs, .rings, .ledger, .handed, .out] (s.supplied.setPhase .boot) (s.ledgerUp ok digest) := State.startLedger_kept
  have himage : (s.ledgerUp ok digest).vault.image = s.vault.image := congrArg Vault.image (hk.same .vault (by decide))
  exact ⟨_, State.rebuildMap_atBootRom hk (State.startLedger_runs ..) boot.journal, himage ▸ he⟩

theorem State.fwOk_of_sec {x : State} (h : x.sec = s.sec) (im : List Byte) : x.fwOk im = s.fwOk im := by
  unfold State.fwOk
  rw [h]

/-- A start boots from the stored image, with its own marker gone. -/
theorem State.start_booted (s : State) (boot : StartUp) : s.booted (s.start boot) ∧ (s.start boot).svc.mainEn = s.svc.mainEn := by
  obtain ⟨x, hx, he⟩ := s.start_eq boot
  rw [he]
  by_cases hok : ∃ im, s.vault.image = some im ∧ s.fwOk im = true
  · obtain ⟨im, him, hok⟩ := hok
    rw [him]
    have hb : BootedWith x im _ := State.bootImage_booted ((State.fwOk_of_sec hx.sec im).trans hok) boot.untrained
    generalize x.bootImage (some im) boot.untrained true = t at hb ⊢
    refine ⟨⟨fun im' him' _ => ?_, fun hno => ?_⟩, ?_⟩
    · obtain rfl : im = im' := Option.some.inj (him.symm.trans him')
      exact ⟨(congrArg Service.phase hb.svc :), (congrArg Service.locked hb.svc :), (congrArg Service.hbmReady hb.svc :),
        hb.running.trans hx.running, (congrArg Vault.mapReady hb.vault :).trans hx.map, (congrArg Security.svn hb.sec :),
        (congrArg Security.digest hb.sec :)⟩
    · exact absurd hok (by simp [hno im him])
    · exact (congrArg Service.mainEn hb.svc :).trans (congrArg Service.mainEn hx.svc :)
  · have hno : ∀ im, s.vault.image = some im → s.fwOk im = false := fun im him => by
      by_contra hc
      exact hok ⟨im, him, by simpa using hc⟩
    have hr : Recovering x _ := State.bootImage_recovering (fun im him => (State.fwOk_of_sec hx.sec im).trans (hno im him)) boot.untrained true
    generalize x.bootImage s.vault.image boot.untrained true = t at hr ⊢
    refine ⟨⟨fun im him hok' => absurd hok' (by simp [hno im him]), fun _ => ?_⟩, ?_⟩
    · exact ⟨(congrArg Service.phase hr.svc :), hr.sec, hr.running.trans hx.running, hr.asked⟩
    · exact (congrArg Service.mainEn hr.svc :).trans (congrArg Service.mainEn hx.svc :)

end
end Sys2Proof.Machine
end

section
/-! SUPPORT. The pins and supplies: halts, lost supplies, the lost reference, and RECOVERY's image (R434, R474, R485, R492, R494, R520,
R525 to R527). -/
namespace Sys2Proof.Machine

section
variable {s t : State}

/-! ### A pin's command, watched for what the state sensors show -/

/-- A watched command does its effect, and platform events. -/
theorem does_watched {c : Instr} {f : State → State} {P : State → Prop} (hc : exec c s = .next (s.watched f))
    (hp : ∀ e o, (f s).out <+: o → P ((f s).telling e o)) : Does c s P := by
  have hk : Kept [.platform, .out] (f s) ((f s).sensorEvents s) := State.sensorEvents_kept
  refine ⟨_, hc, ?_⟩
  have ht : s.watched f = (f s).telling ((f s).sensorEvents s).sec.events ((f s).sensorEvents s).out := hk.only.platform
  rw [ht]
  exact hp _ _ hk.out

/-- A watched command whose effect leaves what the state sensors show is that effect. -/
theorem exec_of_still {c : Instr} {f : State → State} (hc : exec c s = .next (s.watched f)) (ht : f s = t) (hpower : t.power = s.power)
    (hfaults : t.faults = s.faults) (hphase : t.svc.phase = s.svc.phase) : exec c s = .next t := by
  rw [hc]
  refine congrArg Host.Outcome.next ?_
  unfold State.watched
  rw [ht]
  exact State.sensorEvents_of_still hpower hfaults hphase

/-! ### Without supplies -/

theorem State.supplyLess_hubOff (s : State) (keepHbm : Bool) : (s.supplyLess keepHbm).hubOff := by
  refine ⟨rfl, rfl, rfl, rfl, rfl, rfl, rfl, rfl, rfl, rfl, rfl, rfl, fun c hc => .inr ?_⟩
  have hkept := (List.mem_filter.mp hc).2
  exact (Bool.and_eq_true_iff.mp hkept).2

/-- The halted module (R434). -/
def State.halted (s : State) (cause : Nat) : State := ((s.supplyLess false).latchCause cause).setPhase .halted

theorem State.halted_haltedBy (s : State) (cause : Nat) : (s.halted cause).haltedBy cause := ⟨rfl, rfl, s.supplyLess_hubOff false⟩

theorem State.telling_haltedBy {cause : Nat} (h : s.haltedBy cause) (e : List (Nat × Nat × Nat)) (o : List Out) :
    (s.telling e o).haltedBy cause := h

/-- The state of a running module that halts, before its supplies go. -/
def State.halting (s : State) (cause : Nat) : State :=
  let s := s.dropOps.clearAdmit
  let s := (s.failSteps (fun _ => true) stNOT_ADMITTED).abandonAll
  let s := if s.vault.mapReady then s.quiesce else s
  let s := s.regRecord 12 0xB0008 s.svc.cause cause
  ((s.event 0x2B 0 locNone (leBytes 1 (haltDetail cause))).alert 0x2B).appendAll

theorem State.halting_kept (s : State) (cause : Nat) :
    Kept [.regs, .serve, .vault, .fab, .rings, .power, .faults, .ledger, .handed, .sec, .out] s (s.halting cause) := by
  have hready (y : State) : Kept [.vault] y (if y.vault.mapReady then y.quiesce else y) := Kept.ite State.quiesce_kept (Kept.refl y)
  refine Kept.andThen State.appendAll_kept (Kept.andThen State.alert_kept (Kept.andThen State.event_kept
    (Kept.andThen State.regRecord_kept (Kept.andThen (hready _) ?_))))
  exact Kept.andThen State.abandonAll_kept (Kept.andThen State.failSteps_kept (Kept.andThen State.clearAdmit_kept
    (State.dropOps_kept.mono (by decide))))

theorem State.orderlyHalt_of_hub (h : s.hubRuns = true) (cause : Nat) : s.orderlyHalt cause = (s.halting cause).halted cause := if_pos h

theorem State.orderlyHalt_of_supplies (h : s.hubRuns = false) (hp : s.svc.phase = .supplies) (cause : Nat) :
    s.orderlyHalt cause = s.halted cause := (if_neg (by simp [h])).trans (if_pos (by simp [hp]))

theorem State.orderlyHalt_of_rest (h : s.hubRuns = false) (hp : s.svc.phase ≠ .supplies) (cause : Nat) : s.orderlyHalt cause = s :=
  (if_neg (by simp [h])).trans (if_neg (by simp [hp]))

/-- A module with supplies halts. -/
theorem State.orderlyHalt_haltedBy (h : s.hubRuns = true ∨ s.svc.phase = .supplies) (cause : Nat) :
    (s.orderlyHalt cause).haltedBy cause := by
  cases hh : s.hubRuns with
  | true =>
    rw [State.orderlyHalt_of_hub hh]
    exact State.halted_haltedBy _ _
  | false =>
    rw [State.orderlyHalt_of_supplies hh (h.resolve_left (by simp [hh]))]
    exact State.halted_haltedBy _ _

/-- A halt leaves the pins. -/
theorem State.orderlyHalt_pins (s : State) (cause : Nat) :
    (s.orderlyHalt cause).svc.mainEn = s.svc.mainEn ∧ (s.orderlyHalt cause).svc.refOk = s.svc.refOk := by
  cases hh : s.hubRuns with
  | true =>
    have hk := (s.halting_kept cause).svc_eq
    have he := State.orderlyHalt_of_hub hh cause
    generalize s.halting cause = x at hk he
    rw [he]
    exact ⟨(congrArg Service.mainEn hk :), (congrArg Service.refOk hk :)⟩
  | false =>
    by_cases hp : s.svc.phase = .supplies
    · rw [State.orderlyHalt_of_supplies hh hp]
      exact ⟨rfl, rfl⟩
    · rw [State.orderlyHalt_of_rest hh hp]
      exact ⟨rfl, rfl⟩

/-! ### Standby loses HBM4's supply (R485, R492) -/

/-- The end of a standby whose memory is lost. -/
def State.standbyLost (s : State) : State :=
  let s := (s.supplyLess false).setPhase .off
  { s with svc := { s.svc with markBad := true, mark := none } }

theorem State.loseVhbm_of_standby (h : s.svc.phase = .standby) : s.loseVhbm = s.standbyLost := if_pos (by simp [h])

theorem State.loseVhbm_of_other (h : s.svc.phase ≠ .standby) : s.loseVhbm = s := if_neg (by simpa using h)

theorem State.hubRuns_of_standby (h : s.svc.phase = .standby) : s.hubRuns = false := by
  unfold State.hubRuns
  rw [h]

theorem State.trip_of_standby (h : s.svc.phase = .standby) : s.trip = s.standbyLost := by
  unfold State.trip
  rw [if_neg (by simp [State.hubRuns_of_standby h, h]), if_pos (by simp [h]), State.loseVhbm_of_standby h]

theorem State.mainOff_of_standby (h : s.svc.phase = .standby) :
    s.mainOff = (State.standbyLost { s with svc := { s.svc with mainEn := false } }).latchCause 7 := by
  have hl : State.loseVhbm { s with svc := { s.svc with mainEn := false } } = _ := State.loseVhbm_of_standby h
  unfold State.mainOff
  dsimp only
  split
  case h_6 => exact congrArg (·.latchCause 7) hl
  all_goals simp_all

theorem State.mainOff_of_supplied (h : s.hubRuns = true ∨ s.svc.phase = .supplies) :
    s.mainOff = State.orderlyHalt { s with svc := { s.svc with mainEn := false } } 7 := by
  unfold State.mainOff
  dsimp only
  split <;> simp_all [State.hubRuns]

theorem State.mainOff_of_rest (h : s.hubRuns = false) (hs : s.svc.phase ≠ .supplies) (hb : s.svc.phase ≠ .standby) :
    s.mainOff = { s with svc := { s.svc with mainEn := false } } := by
  unfold State.mainOff
  dsimp only
  split <;> simp_all [State.hubRuns]

/-! ### The reference lost (R60, R527) -/

/-- What a link error of a port keeps, apart from that port. -/
structure Relinked (s t : State) : Prop where
  time     : t.time = s.time
  svc      : t.svc = s.svc
  admitted : t.fab.admitted = s.fab.admitted
  fences   : t.faults.fencePort = s.faults.fencePort
  length   : t.fab.ports.length = s.fab.ports.length

theorem Relinked.refl (s : State) : Relinked s s := ⟨rfl, rfl, rfl, rfl, rfl⟩

theorem Relinked.trans {u : State} (a : Relinked s t) (b : Relinked t u) : Relinked s u :=
  ⟨b.time.trans a.time, b.svc.trans a.svc, b.admitted.trans a.admitted, b.fences.trans a.fences, b.length.trans a.length⟩

theorem State.detect_port_svc (s : State) (cls region run : Nat) (more : Bool) (k : Fin 9) :
    (s.detect cls (.port k) region run more).svc = s.svc := by
  unfold State.detect
  split
  · rfl
  · split <;> rfl

theorem State.detect_fencePort (s : State) (cls region run : Nat) (more : Bool) (k : Fin 9) :
    (s.detect cls (.port k) region run more).faults.fencePort = s.faults.fencePort := by
  unfold State.detect
  split
  · rfl
  · split <;> rfl

theorem State.linkError_relinked (s : State) (k : Fin 9) : Relinked s (s.linkError k) := by
  have hk := State.linkError_kept (x := s) (a1 := k)
  cases hf : bit s.faults.fencePort k.val with
  | true =>
    rw [State.linkError_of_fenced hf]
    exact .refl s
  | false =>
    refine ⟨hk.same .time (by decide), ?_, ?_, ?_, State.ports_length (State.linkError_ports hf)⟩
    · rw [State.linkError_of_open hf]
      exact State.detect_port_svc ..
    · rw [State.linkError_of_open hf, State.detect_port_fab]
      rfl
    · rw [State.linkError_of_open hf, State.detect_fencePort]
      rfl

/-- A link error of every admitted port of `l`. -/
def State.relink (s : State) (l : List (Fin 9)) : State :=
  l.foldl (fun s k => if (s.port k.val).st == .admitted then s.linkError k else s) s

/-- The same of one port. -/
def State.relinkOne (s : State) (k : Fin 9) : State := if (s.port k.val).st == .admitted then s.linkError k else s

theorem State.relinkOne_relinked (s : State) (k : Fin 9) : Relinked s (s.relinkOne k) := by
  unfold State.relinkOne
  split
  · exact s.linkError_relinked k
  · exact .refl s

theorem State.relink_relinked (s : State) (l : List (Fin 9)) : Relinked s (s.relink l) := by
  induction l generalizing s with
  | nil => exact .refl s
  | cons k l ih => exact (s.relinkOne_relinked k).trans (ih _)

theorem State.relinkOne_port (s : State) (k : Fin 9) (hk : k.val < s.fab.ports.length) {j : Nat} (hj : j ≠ k.val) :
    (s.relinkOne k).port j = s.port j := by
  unfold State.relinkOne
  split
  · obtain ⟨p, hp, -⟩ := State.linkError_sets hk
    exact State.port_other_of_ports hp hk hj
  · rfl

theorem State.relink_port (l : List (Fin 9)) (s : State) (hs : s.fab.ports.length = 9) {j : Nat} (hj : ∀ k ∈ l, j ≠ k.val) :
    (s.relink l).port j = s.port j := by
  induction l generalizing s with
  | nil => rfl
  | cons k l ih =>
    refine (ih _ ((s.relinkOne_relinked k).length.trans hs) fun m hm => hj m (List.mem_cons_of_mem _ hm)).trans ?_
    exact s.relinkOne_port k (by rw [hs]; exact k.isLt) (hj k (List.mem_cons_self ..))

/-- Every admitted port of `l` that is not fenced has lost its link. -/
theorem State.relink_retrained {l : List (Fin 9)} (hl : l.Nodup) (s : State) (hs : s.fab.ports.length = 9) {k : Fin 9} (hk : k ∈ l)
    (hst : (s.port k.val).st = .admitted) (hf : bit s.faults.fencePort k.val = false) : ((s.relink l).port k.val).st = .retrain := by
  induction l generalizing s with
  | nil => cases hk
  | cons m l ih =>
    obtain ⟨hm, hl⟩ := List.nodup_cons.mp hl
    have hlen := (s.relinkOne_relinked m).length.trans hs
    show (((s.relinkOne m).relink l).port k.val).st = .retrain
    by_cases hkm : k = m
    · subst hkm
      rw [State.relink_port l _ hlen fun j (hj : j ∈ l) h => hm ((Fin.ext h : k = j) ▸ hj)]
      have hone : s.relinkOne k = s.linkError k := if_pos (by simp [hst])
      rw [hone, State.port_self_of_ports (State.linkError_ports hf) (by rw [hs]; exact k.isLt)]
      rfl
    · refine ih hl _ hlen ((List.mem_cons.mp hk).resolve_left hkm) ?_ ?_
      · rw [s.relinkOne_port m (by rw [hs]; exact m.isLt) fun h => hkm (Fin.ext h)]
        exact hst
      · rw [(s.relinkOne_relinked m).fences]
        exact hf

theorem State.lockLoss_ports (s : State) (cause : Nat) : (s.lockLoss cause).fab.ports = s.fab.ports := by
  have hfab : (s.lockLoss cause).fab = s.lockLost.fab :=
    (State.event_kept.same .fab (by decide)).trans (State.timeRecord_kept.same .fab (by decide))
  rw [hfab]
  rfl

theorem State.refLost_ports (s : State) : s.refLost.fab.ports = s.fab.ports := by
  unfold State.refLost
  split
  · rfl
  · exact s.lockLoss_ports 6

theorem State.refLost_st (s : State) : s.refLost.time.st = .unlocked := by
  unfold State.refLost
  split
  next h => exact eq_of_beq h
  · rfl

theorem State.clearAdmit_fab (s : State) : s.clearAdmit.fab = { s.fab with admitted := false } := by
  unfold State.clearAdmit
  split
  next h =>
    have hrec (x : State) : (x.regRecord 12 0x30010 1 0).fab = x.fab := State.regRecord_kept.same .fab (by decide)
    rw [hrec, State.writeAdmit_fab]
    rfl
  next h =>
    have hf : s.fab.admitted = false := by simpa using h
    calc s.fab = { s.fab with admitted := s.fab.admitted } := rfl
      _ = { s.fab with admitted := false } := by rw [hf]

/-- A module that has lost its reference, before its ports lose their links. -/
def State.refGone (s : State) : State := (State.refLost { s with svc := { s.svc with refOk := false } }).clearAdmit

theorem State.refGone_ports (s : State) : s.refGone.fab.ports = s.fab.ports :=
  (congrArg Fabric.ports (State.clearAdmit_fab _)).trans (State.refLost_ports _)

theorem State.refGone_port (s : State) (k : Nat) : s.refGone.port k = s.port k := by
  unfold State.port
  rw [State.refGone_ports]

theorem State.refGone_faults (s : State) : s.refGone.faults = s.faults :=
  (State.clearAdmit_kept.same .faults (by decide)).trans (State.refLost_kept.same .faults (by decide))

theorem State.refGone_refOk (s : State) : s.refGone.svc.refOk = false :=
  (congrArg Service.refOk State.clearAdmit_kept.svc_eq :).trans (congrArg Service.refOk State.refLost_kept.svc_eq :)

theorem State.refGone_st (s : State) : s.refGone.time.st = .unlocked :=
  (congrArg TimeUnit.st (State.clearAdmit_kept.same .time (by decide)) :).trans (State.refLost_st _)

theorem State.loseRef_of_hub (h : s.hubRuns = true) : s.loseRef = s.refGone.relink (List.finRange 9) := by
  unfold State.loseRef
  exact if_pos h

theorem does_refLoss (hs : s.shape) (h : s.hubRuns = true) : Does .refLoss s fun t =>
    t.svc.refOk = false ∧ t.fab.admitted = false ∧ t.time.st = .unlocked ∧
      ∀ k, k < 9 → (s.port k).st = .admitted → bit s.faults.fencePort k = false → (t.port k).st = .retrain := by
  refine does_watched (f := State.loseRef) rfl fun e o _ => ?_
  rw [State.loseRef_of_hub h]
  have hr := s.refGone.relink_relinked (List.finRange 9)
  have hlen : s.refGone.fab.ports.length = 9 := (congrArg List.length s.refGone_ports).trans hs.2.1
  have hports : ∀ k, k < 9 → (s.port k).st = .admitted → bit s.faults.fencePort k = false →
      ((s.refGone.relink (List.finRange 9)).port k).st = .retrain := fun k hk hst hf =>
    State.relink_retrained (List.nodup_finRange 9) s.refGone hlen (k := ⟨k, hk⟩) (List.mem_finRange _)
      (by rw [s.refGone_port]; exact hst) (by rw [s.refGone_faults]; exact hf)
  generalize s.refGone.relink (List.finRange 9) = t at hr hports ⊢
  exact ⟨(congrArg Service.refOk hr.svc).trans s.refGone_refOk, hr.admitted.trans (congrArg Fabric.admitted (State.clearAdmit_fab _)),
    (congrArg TimeUnit.st hr.time).trans s.refGone_st, hports⟩

/-! ### RECOVERY's image (R474) -/

/-- An image that RECOVERY takes, stored in place of the old one. -/
def State.storing (s : State) (image : List Byte) : State :=
  { s.setVault { s.vault with image := some image } with sec := { s.sec with recovery := false, recoveryBoot := true } }

theorem State.storing_fwOk (s : State) (image im : List Byte) : (s.storing image).fwOk im = s.fwOk im := rfl

theorem does_recoveryImage {image : List Byte} (untrained : List (Fin 24 × Fin 32)) (hp : s.svc.phase = .recovery)
    (hok : s.fwOk image = true) : Does (.recoveryImageReceived image untrained) s fun t =>
      t.svc.phase = .setupLocked ∧ t.svc.locked = true ∧ t.svc.hbmReady = true ∧ t.vault.image = some image ∧ t.sec.recovery = false := by
  refine does_watched (f := (·.recoverImage image untrained)) rfl fun e o _ => ?_
  have hr : s.recoverImage image untrained = (s.storing image).bootImage (some image) untrained true :=
    (if_neg (by simp [hp])).trans (if_pos hok)
  rw [hr]
  have hb : BootedWith (s.storing image) image _ := State.bootImage_booted ((s.storing_fwOk image image).trans hok) untrained
  generalize (s.storing image).bootImage (some image) untrained true = t at hb ⊢
  exact ⟨(congrArg Service.phase hb.svc :), (congrArg Service.locked hb.svc :), (congrArg Service.hbmReady hb.svc :),
    (congrArg Vault.image hb.vault :), (congrArg Security.recovery hb.sec :)⟩

theorem does_recoveryImage_rejected {image : List Byte} (untrained : List (Fin 24 × Fin 32)) (hp : s.svc.phase = .recovery)
    (hok : s.fwOk image = false) : Does (.recoveryImageReceived image untrained) s fun t =>
      t.svc.phase = .recovery ∧ t.vault = s.vault ∧ Only [.handed, .platform, .out] s t := by
  refine does_watched (f := (·.recoverImage image untrained)) rfl fun e o _ => ?_
  have hr : s.recoverImage image untrained = s.fwRecord 2 [] (fwDigest image) :=
    (if_neg (by simp [hp])).trans (if_neg (by simp [hok]))
  rw [hr]
  have hk : Kept [.handed] s (s.fwRecord 2 [] (fwDigest image)) := State.fwRecord_kept
  exact ⟨(hk.same .phase (by decide)).trans hp, hk.same .vault (by decide),
    (hk.only.mono (by decide)).trans (State.telling_only.mono (by decide))⟩

/-! ### The start and the halt by pins -/

/-- MAIN_EN asserted, before the module acts on it. -/
def State.mainHigh (s : State) : State := { s with svc := { s.svc with mainEn := true } }

/-- A module from which MAIN_EN starts: it is off, or it has ended and MAIN_EN was deasserted since (R434, R525). -/
def State.rests (s : State) : Prop :=
  s.svc.phase = .off ∨ ((s.svc.phase = .halted ∨ s.svc.phase = .removeReady) ∧ s.svc.mainEn = false)

theorem State.rests_iff (s : State) :
    (s.svc.phase == .off || ((s.svc.phase == .halted || s.svc.phase == .removeReady) && !s.svc.mainEn)) = true ↔ s.rests := by
  simp [State.rests]

theorem State.mainOn_of_ready (h : s.rests) (hi : s.svc.island = true) (hp : s.mayPowerUp = true) (boot : StartUp) :
    s.mainOn boot = s.mainHigh.start boot := by
  unfold State.mainOn
  exact if_pos (by rw [(s.rests_iff).mpr h]; exact Bool.and_eq_true_iff.mpr ⟨hi, hp⟩)

theorem State.mainOn_of_unready (h : s.rests) (hr : ¬(s.svc.island = true ∧ s.mayPowerUp = true)) (boot : StartUp) :
    s.mainOn boot = s.mainHigh.setPhase .off := by
  unfold State.mainOn
  rw [(s.rests_iff).mpr h]
  exact (if_neg fun hc => hr (Bool.and_eq_true_iff.mp hc)).trans (if_pos rfl)

theorem State.mainOn_of_busy (h : ¬s.rests) (boot : StartUp) : s.mainOn boot = s.mainHigh := by
  unfold State.mainOn
  rw [Bool.eq_false_iff.mpr (mt (s.rests_iff).mp h)]
  exact (if_neg Bool.false_ne_true).trans (if_neg Bool.false_ne_true)

/-- A boot is one whatever is sent after it. -/
theorem State.booted_telling (h : s.booted t) (e : List (Nat × Nat × Nat)) {o : List Out} (ho : t.out <+: o) : s.booted (t.telling e o) := by
  obtain ⟨haccepted, hasked⟩ := h
  refine ⟨haccepted, fun hno => ?_⟩
  obtain ⟨hphase, hrecovery, hrun, hout⟩ := hasked hno
  exact ⟨hphase, hrecovery, hrun, ho.subset hout⟩

/-- What a boot is depends on the stored image and the fused SVN alone. -/
theorem State.booted_of_same {x : State} (h : x.booted t) (hv : x.vault = s.vault) (hs : x.sec = s.sec) : s.booted t := by
  unfold State.booted at h ⊢
  simpa only [hv, State.fwOk_of_sec hs] using h

theorem State.mainOn_booted (h : s.rests) (hi : s.svc.island = true) (hp : s.mayPowerUp = true) (boot : StartUp) :
    s.booted (s.mainOn boot) ∧ (s.mainOn boot).svc.mainEn = true := by
  rw [State.mainOn_of_ready h hi hp]
  have hm : s.mainHigh.svc.mainEn = true := rfl
  have hv : s.mainHigh.vault = s.vault := rfl
  have hs : s.mainHigh.sec = s.sec := rfl
  obtain ⟨hb, he⟩ := s.mainHigh.start_booted boot
  exact ⟨State.booted_of_same hb hv hs, he.trans hm⟩

theorem does_mainEnAssert_ready (h : s.rests) (hi : s.svc.island = true) (hp : s.mayPowerUp = true) (boot : StartUp) :
    Does (.mainEnAssert boot) s fun t => s.booted t ∧ t.svc.mainEn = true := by
  refine does_watched (f := (·.mainOn boot)) rfl fun e o ho => ?_
  obtain ⟨hb, hm⟩ := State.mainOn_booted h hi hp boot
  generalize s.mainOn boot = t at hb hm ho ⊢
  exact ⟨State.booted_telling hb e ho, hm⟩

theorem does_mainEnAssert_unready (h : s.rests) (hr : ¬(s.svc.island = true ∧ s.mayPowerUp = true)) (boot : StartUp) :
    Does (.mainEnAssert boot) s fun t => t.svc = { s.svc with mainEn := true, phase := .off, held := t.svc.held } ∧
      Only [.svc, .phase, .platform, .out] s t := by
  refine does_watched (f := (·.mainOn boot)) rfl fun e o _ => ?_
  rw [State.mainOn_of_unready h hr]
  have hk : Kept [.svc, .phase] s (s.mainHigh.setPhase .off) := (State.setPhase_kept.mono (by decide)).on (Kept.upd (Kept.refl s))
  exact ⟨rfl, (hk.only.mono (by decide)).trans (State.telling_only.mono (by decide))⟩

theorem does_mainEnDeassert_halts (h : s.hubRuns = true ∨ s.svc.phase = .supplies) :
    Does .mainEnDeassert s fun t => t.haltedBy 7 ∧ t.svc.mainEn = false := by
  refine does_watched (f := State.mainOff) rfl fun e o _ => ?_
  rw [State.mainOff_of_supplied h]
  obtain ⟨hm, -⟩ := State.orderlyHalt_pins { s with svc := { s.svc with mainEn := false } } 7
  have hh : (State.orderlyHalt { s with svc := { s.svc with mainEn := false } } 7).haltedBy 7 := State.orderlyHalt_haltedBy (by exact h) 7
  generalize State.orderlyHalt { s with svc := { s.svc with mainEn := false } } 7 = t at hm hh ⊢
  exact ⟨State.telling_haltedBy hh e o, hm⟩

theorem does_presentSenseLoss_halts (h : s.hubRuns = true ∨ s.svc.phase = .supplies) : Does .presentSenseLoss s (·.haltedBy 3) :=
  does_watched (f := (·.orderlyHalt 3)) rfl fun e o _ => State.telling_haltedBy (State.orderlyHalt_haltedBy h 3) e o

/-- Standby whose memory is lost, with the cause latched then. -/
theorem does_standbyLost {c : Instr} {f : State → State} {cause : Nat} (hc : exec c s = .next (s.watched f))
    (ht : ∃ y : State, f s = y.standbyLost.latchCause cause) : Does c s fun t =>
      t.svc.phase = .off ∧ t.svc.markBad = true ∧ t.svc.mark = none ∧ t.hubOff ∧ t.svc.cause = cause := by
  obtain ⟨y, ht⟩ := ht
  refine does_watched hc fun e o _ => ?_
  rw [ht]
  exact ⟨rfl, rfl, rfl, y.supplyLess_hubOff false, rfl⟩

theorem State.latchCause_standbyLost (s : State) : s.standbyLost = s.standbyLost.latchCause s.svc.cause := rfl

/-- The ways that standby loses its memory (R485, R492). -/
theorem does_endStandby (h : s.svc.phase = .standby) : ∀ c ∈ [Instr.vhbmLoss, .mainEnDeassert, .hardwareTrip], Does c s fun t =>
    t.svc.phase = .off ∧ t.svc.markBad = true ∧ t.svc.mark = none ∧ t.hubOff ∧
      t.svc.cause = (if c = .mainEnDeassert then 7 else s.svc.cause) := by
  intro c hc
  simp only [List.mem_cons, List.not_mem_nil, or_false] at hc
  rcases hc with rfl | rfl | rfl
  · rw [if_neg (by decide)]
    exact does_standbyLost (f := State.loseVhbm) rfl ⟨s, (State.loseVhbm_of_standby h).trans s.latchCause_standbyLost⟩
  · rw [if_pos rfl]
    exact does_standbyLost (f := State.mainOff) rfl ⟨_, State.mainOff_of_standby h⟩
  · rw [if_neg (by decide)]
    exact does_standbyLost (f := State.trip) rfl ⟨s, (State.trip_of_standby h).trans s.latchCause_standbyLost⟩

theorem does_inputLoss (s : State) : Does .inputLoss s fun t =>
    t.svc = { Service.reset with refOk := s.svc.refOk, mainEn := s.svc.mainEn } ∧ t.hubOff ∧ t.sec.tid = 0 ∧ t.sec.receiver = none := by
  refine does_watched (f := State.loseInputs) rfl fun e o _ => ?_
  obtain ⟨hmain, href⟩ := s.orderlyHalt_pins 3
  unfold State.loseInputs
  generalize s.orderlyHalt 3 = y at hmain href
  obtain ⟨htime, hregs, harr, hserve, hfab, harb, hhost, hpower, hledger, -, -, hmap, hmem⟩ := y.supplyLess_hubOff false
  refine ⟨?_, ⟨htime, hregs, harr, hserve, hfab, harb, hhost, hpower, hledger, rfl, rfl, hmap, hmem⟩, rfl, rfl⟩
  rw [← hmain, ← href]
  rfl

theorem does_bringUpBoundExpiry (s : State) (bound : Fin 10) :
    Does (.bringUpBoundExpiry bound) s fun t => Out.alert 0x2D ∈ t.out ∧ Only [.regs, .rings, .out] s t :=
  ⟨_, rfl, List.mem_append_right _ (List.mem_singleton_self _), State.serviceEvent_kept.only⟩

end

/-- Settles O59: what each pin, supply and reference does in the states that take it, and the image that RECOVERY takes. -/
theorem pinsAndSupplies : Obligations.PinsAndSupplies := by
  unfold Obligations.PinsAndSupplies
  intro s boot untrained image bound hs
  refine ⟨rfl, rfl, fun hr hp => does_mainEnAssert_ready hr hp.1 hp.2 boot, fun hr hp => does_mainEnAssert_unready hr hp boot,
    fun hr => exec_of_still (f := (·.mainOn boot)) rfl (State.mainOn_of_busy hr boot) rfl rfl rfl,
    fun h => ⟨does_mainEnDeassert_halts h, does_presentSenseLoss_halts h⟩, fun hh hp => ⟨?_, fun hb => ?_⟩, does_endStandby, fun hb => ?_,
    does_inputLoss s, fun h => ?_, does_refLoss hs, does_bringUpBoundExpiry s bound, fun hp => ?_, does_recoveryImage untrained,
    does_recoveryImage_rejected untrained⟩
  · exact exec_of_still (f := (·.orderlyHalt 3)) rfl (State.orderlyHalt_of_rest hh hp 3) rfl rfl rfl
  · exact exec_of_still (f := State.mainOff) rfl (State.mainOff_of_rest hh hp hb) rfl rfl rfl
  · exact exec_of_still (f := State.loseVhbm) rfl (State.loseVhbm_of_other hb) rfl rfl rfl
  · exact exec_of_still (f := State.loseRef) rfl (if_neg (h ▸ Bool.false_ne_true)) rfl rfl rfl
  · exact exec_of_still (f := (·.recoverImage image untrained)) rfl (if_pos (by simpa using hp)) rfl rfl rfl

end Sys2Proof.Machine
end

section
/-! SUPPORT. SVC_CTRL (R490 to R495): what each of its commands leaves, and why O58 stays open. Its statement holds just where the boot ROM
accepts no image, and whether it accepts one rests on `Config.xmssVerify`, which the model leaves uninterpreted. -/
namespace Sys2Proof.Machine

section
variable {s t : State}

/-- A watched write of SVC_CTRL, accepted: the effect of the bit that is set, and platform events. -/
theorem does_svcWrite {c : Instr} {on bitNo : Nat} {w : RegWr} {x : Extra} {f : State → State} {P : State → Prop}
    (hc : exec c s = .next (s.watched (·.write (rowAttempt w 0xB0010 on 0) x)))
    (ha : s.accepts (rowAttempt w 0xB0010 on 0) ∧ svcBit (s.valueOf (rowAttempt w 0xB0010 on 0)) = some bitNo)
    (hf : ∀ (y : State) (v : Nat), svcBit v = some bitNo → y.svcEffect v x = f y)
    (hp : ∀ l v e o, (f (s.holding l v)).out <+: o → P ((f (s.holding l v)).telling e o)) : Does c s P := by
  refine does_sensedWrite 0xB0010 hc ha.1 (rowAttempt_reg w _ _ _ rfl) fun l v => ?_
  rw [State.regEffect_svc, hf _ _ ha.2]
  have hk : Kept [.platform, .out] (f (s.holding l v)) ((f (s.holding l v)).sensorEvents s) := State.sensorEvents_kept
  rw [hk.only.platform]
  exact hp _ _ _ _ hk.out

/-! ### STANDBY -/

/-- What STANDBY leaves: HBM4 alone under its supply, or the module as it ran with the alert. -/
def StandbyOutcome (t : State) : Prop :=
  (t.svc.phase = .standby ∧ t.hubOff ∧ t.svc.mark.isSome = true ∧ t.svc.markBad = false ∧ t.svc.supplies = [true, false, false, false]) ∨
  (t.svc.phase = .setupLocked ∧ Out.alert 0x2D ∈ t.out)

theorem State.serviceEvent_alert (s : State) (kind count : Nat) : Out.alert 0x2D ∈ (s.serviceEvent kind count).out :=
  List.mem_append_right _ (List.mem_singleton_self _)

/-- Standby entered, with its marker. -/
def State.standingBy (s : State) (m : StandbyMark) : State :=
  let s := (s.supplyLess true).setPhase .standby
  { s with svc := { s.svc with mark := some m, markBad := false } }

theorem State.standingBy_outcome (s : State) (m : StandbyMark) : StandbyOutcome (s.standingBy m) :=
  .inl ⟨rfl, s.supplyLess_hubOff true, rfl, rfl, rfl⟩

theorem State.returned_outcome (s : State) : StandbyOutcome ((s.setPhase .setupLocked).serviceEvent 1 0) := by
  have hphase : ((s.setPhase .setupLocked).serviceEvent 1 0).svc.phase = (s.setPhase .setupLocked).svc.phase :=
    State.serviceEvent_kept.same .phase (by decide)
  exact .inr ⟨hphase, State.serviceEvent_alert ..⟩

theorem State.enterStandby_outcome (s : State) : StandbyOutcome s.enterStandby := by
  unfold State.enterStandby
  dsimp only
  split
  · exact State.returned_outcome _
  · exact State.standingBy_outcome _ _

theorem StandbyOutcome.telling (h : StandbyOutcome t) (e : List (Nat × Nat × Nat)) {o : List Out} (ho : t.out <+: o) :
    StandbyOutcome (t.telling e o) :=
  h.imp id fun ⟨hphase, halert⟩ => ⟨hphase, ho.subset halert⟩

theorem does_standby (w : RegWr) (ha : s.accepts (rowAttempt w 0xB0010 1 0) ∧ svcBit (s.valueOf (rowAttempt w 0xB0010 1 0)) = some 0) :
    Does (.standby w) s StandbyOutcome :=
  does_svcWrite (f := State.enterStandby) rfl ha (fun y v hv => by simp only [State.svcEffect, hv])
    fun l v e _ ho => (State.enterStandby_outcome _).telling e ho

/-! ### PREPARE_REMOVE -/

/-- What PREPARE_REMOVE leaves, from a module whose hub runs where `hub` says so. -/
def RemoveOutcome (hub : Bool) (t : State) : Prop := t.svc.phase = .removeReady ∧ t.svc.cause = 8 ∧ (hub = true → t.hubOff)

theorem State.unsupplied_outcome (s : State) (hub : Bool) :
    RemoveOutcome hub (((s.supplyLess false).latchCause 8).setPhase .removeReady) := ⟨rfl, rfl, fun _ => s.supplyLess_hubOff false⟩

theorem State.removeModule_outcome (s : State) : RemoveOutcome s.hubRuns s.removeModule := by
  unfold State.removeModule
  split
  · exact State.unsupplied_outcome ..
  next h => exact ⟨rfl, rfl, fun hh => absurd hh h⟩

theorem does_prepareRemove (w : RegWr) (ha : s.accepts (rowAttempt w 0xB0010 4 0) ∧ svcBit (s.valueOf (rowAttempt w 0xB0010 4 0)) = some 2) :
    Does (.prepareRemove w) s (RemoveOutcome s.hubRuns) := by
  refine does_svcWrite (f := State.removeModule) rfl ha (fun y v hv => by simp only [State.svcEffect, hv]) fun l v e o _ => ?_
  have h : RemoveOutcome s.hubRuns (s.holding l v).removeModule := State.removeModule_outcome (s.holding l v)
  exact h

/-! ### RESUME and RESET where the stored image is not accepted -/

/-- A start with no accepted image waits for one in RECOVERY; the marker is gone and the cause stands. -/
theorem State.start_recovering (h : ∀ im, s.vault.image = some im → s.fwOk im = false) (boot : StartUp) :
    (s.start boot).svc.phase = .recovery ∧ (s.start boot).svc.cause = s.svc.cause ∧ (s.start boot).svc.mark = none := by
  obtain ⟨x, hx, he⟩ := s.start_eq boot
  rw [he]
  have hr : Recovering x _ := State.bootImage_recovering (fun im him => (State.fwOk_of_sec hx.sec im).trans (h im him)) boot.untrained true
  generalize x.bootImage s.vault.image boot.untrained true = t at hr ⊢
  exact ⟨(congrArg Service.phase hr.svc :), (congrArg Service.cause hr.svc :).trans (congrArg Service.cause hx.svc :),
    (congrArg Service.mark hr.svc :).trans (congrArg Service.mark hx.svc :)⟩

theorem State.resumeModule_of_recovery {boot : StartUp} (h : ((s.latchCause 1).start boot).svc.phase = .recovery) (checks : List Check) :
    s.resumeModule checks boot =
      ((s.latchCause 1).start boot).setMem { ((s.latchCause 1).start boot).mem with pages := [] } := by
  unfold State.resumeModule
  exact if_pos (by rw [h]; rfl)

/-- What RESUME leaves of `s`. -/
def ResumeOutcome (s t : State) : Prop := s.booted t ∧ t.svc.cause = 1 ∧ t.svc.mark = none

theorem State.latchCause_booted (s : State) (cause : Nat) (boot : StartUp) : s.booted ((s.latchCause cause).start boot) := by
  have hv : (s.latchCause cause).vault = s.vault := rfl
  have hs : (s.latchCause cause).sec = s.sec := rfl
  exact State.booted_of_same ((s.latchCause cause).start_booted boot).1 hv hs

theorem State.setMem_booted (h : s.booted t) (m : MemSys) : s.booted (t.setMem m) := h

theorem ResumeOutcome.of_start (hb : s.booted t) (hcause : t.svc.cause = 1) (hmark : t.svc.mark = none) :
    ResumeOutcome s (t.setMem { t.mem with pages := [] }) := ⟨State.setMem_booted hb _, hcause, hmark⟩

theorem State.resumeModule_recovering (h : ∀ im, s.fwOk im = false) (checks : List Check) (boot : StartUp) :
    ResumeOutcome s (s.resumeModule checks boot) := by
  have hs : (s.latchCause 1).sec = s.sec := rfl
  have hc : (s.latchCause 1).svc.cause = 1 := rfl
  obtain ⟨hphase, hcause, hmark⟩ := State.start_recovering (fun im _ => (State.fwOk_of_sec hs im).trans (h im)) boot
  have hb := s.latchCause_booted 1 boot
  rw [State.resumeModule_of_recovery hphase]
  exact ResumeOutcome.of_start hb (hcause.trans hc) hmark

/-- A module without supplies after a RESET's halt. -/
def State.resetOff (s : State) : State := (((s.orderlyHalt 2).supplyLess false).latchCause 2).setPhase .off

theorem State.orderlyHalt_vinOk (s : State) (cause : Nat) : (s.orderlyHalt cause).svc.vinOk = s.svc.vinOk := by
  cases hh : s.hubRuns with
  | true =>
    have hk := (s.halting_kept cause).svc_eq
    have he := State.orderlyHalt_of_hub hh cause
    generalize s.halting cause = x at hk he
    rw [he]
    exact (congrArg Service.vinOk hk :)
  | false =>
    by_cases hp : s.svc.phase = .supplies
    · rw [State.orderlyHalt_of_supplies hh hp]
      rfl
    · rw [State.orderlyHalt_of_rest hh hp]

theorem State.resetOff_fields (s : State) : s.resetOff.svc.phase = .off ∧ s.resetOff.hubOff ∧ s.resetOff.svc.cause = 2 ∧
    s.resetOff.svc.mainEn = s.svc.mainEn ∧ s.resetOff.mayPowerUp = s.mayPowerUp := by
  obtain ⟨hmain, href⟩ := s.orderlyHalt_pins 2
  have hvin := s.orderlyHalt_vinOk 2
  unfold State.resetOff State.mayPowerUp
  rw [← hmain, ← hvin, ← href]
  generalize s.orderlyHalt 2 = y
  exact ⟨rfl, y.supplyLess_hubOff false, rfl, rfl, rfl⟩

theorem State.resetModule_eq (s : State) (boot : StartUp) : s.resetModule boot =
    if s.svc.mainEn = true ∧ s.mayPowerUp = true then s.resetOff.start boot else s.resetOff := by
  obtain ⟨-, -, -, hmain, hpower⟩ := s.resetOff_fields
  rw [← hmain, ← hpower]
  simp only [← Bool.and_eq_true]
  unfold State.resetModule State.resetOff
  rfl

/-- What RESET leaves of `s`. -/
def ResetOutcome (s t : State) : Prop :=
  t.svc.cause = 2 ∧ (s.svc.mainEn = true → s.mayPowerUp = true → s.booted t) ∧
    (¬(s.svc.mainEn = true ∧ s.mayPowerUp = true) → t.svc.phase = .off ∧ t.hubOff)

/-- Where no image is accepted, a boot of one state is a boot of another. -/
theorem State.booted_of_none {x : State} (hs : ∀ im, s.fwOk im = false) (hx : ∀ im, x.fwOk im = false) (h : x.booted t) : s.booted t :=
  ⟨fun im _ hok => absurd hok (by simp [hs im]), fun _ => h.2 fun im _ => hx im⟩

theorem ResetOutcome.telling (h : ResetOutcome s t) (e : List (Nat × Nat × Nat)) {o : List Out} (ho : t.out <+: o) :
    ResetOutcome s (t.telling e o) :=
  ⟨h.1, fun hm hp => State.booted_telling (h.2.1 hm hp) e ho, h.2.2⟩

theorem State.resetModule_of_none (h : ∀ (s : State) im, s.fwOk im = false) (boot : StartUp) : ResetOutcome s (s.resetModule boot) := by
  obtain ⟨hphase, hoff, hcause, -, -⟩ := s.resetOff_fields
  rw [s.resetModule_eq boot]
  split
  next hp =>
    obtain ⟨-, hc, -⟩ := State.start_recovering (s := s.resetOff) (fun im _ => h _ im) boot
    exact ⟨hc.trans hcause, fun _ _ => State.booted_of_none (h s) (h s.resetOff) (s.resetOff.start_booted boot).1, fun hn => absurd hp hn⟩
  next hp => exact ⟨hcause, fun hm hv => absurd ⟨hm, hv⟩ hp, fun _ => ⟨hphase, hoff⟩⟩

/-! ### An accepted image that waits in the journal -/

/-- The vault runs, and the only record of its journal waits to put `im` in force (R475). -/
structure Awaiting (v : Vault) (im : List Byte) : Prop where
  mapReady  : v.mapReady = true
  quiescent : v.quiescent = false
  flights   : v.flights = []
  buffer    : v.buffer = [JRec.sealed 0 (.stored true)]
  next      : v.nextImage = some im

theorem State.quiesce_image {im : List Byte} (h : Awaiting s.vault im) : s.quiesce.vault.image = some im := by
  have he : s.programsEnded = s.setVault { s.vault with powerFail := true, waiting := [] } := by
    unfold State.programsEnded
    rw [h.flights]
    rfl
  have hq : s.programsEnded.vault.quiescent = false := by
    rw [he]
    exact h.quiescent
  have hfold : (s.programsEnded.vault.buffer.foldl Vault.settle s.programsEnded.vault).image = some im := by
    rw [he]
    show (s.vault.buffer.foldl Vault.settle _).image = some im
    rw [h.buffer]
    show (if s.vault.nextImage.isSome then s.vault.nextImage else s.vault.image) = some im
    rw [h.next]
    rfl
  rw [State.quiesce_eq]
  show s.programsEnded.flushJournal.vault.image = some im
  rw [State.flushJournal_of_running _ hq]
  exact hfold

/-- A running module before its vault is quiesced for a halt. -/
def State.draining (s : State) : State := (s.dropOps.clearAdmit.failSteps (fun _ => true) stNOT_ADMITTED).abandonAll

theorem State.draining_vault (s : State) : s.draining.vault = s.vault := by
  have hk : Kept [.regs, .serve, .fab, .rings, .power, .faults, .handed, .out] s s.draining :=
    Kept.andThen State.abandonAll_kept (Kept.andThen State.failSteps_kept (Kept.andThen State.clearAdmit_kept
      (State.dropOps_kept.mono (by decide))))
  exact hk.same .vault (by decide)

/-- A halt's record, event and alert, with the ledger emptied. -/
def State.announcing (s : State) (cause : Nat) : State :=
  (((s.regRecord 12 0xB0008 s.svc.cause cause).event 0x2B 0 locNone (leBytes 1 (haltDetail cause))).alert 0x2B).appendAll

theorem State.announcing_vault (s : State) (cause : Nat) : (s.announcing cause).vault = s.vault := by
  have hk : Kept [.regs, .rings, .ledger, .handed, .sec, .out] s (s.announcing cause) :=
    Kept.andThen State.appendAll_kept (Kept.andThen State.alert_kept (Kept.andThen State.event_kept (State.regRecord_kept.mono (by decide))))
  exact hk.same .vault (by decide)

theorem State.halting_eq (s : State) (cause : Nat) :
    s.halting cause = (if s.draining.vault.mapReady then s.draining.quiesce else s.draining).announcing cause := rfl

theorem State.halting_vault (s : State) (cause : Nat) (h : s.vault.mapReady = true) :
    (s.halting cause).vault = s.draining.quiesce.vault := by
  rw [State.halting_eq, State.announcing_vault, s.draining_vault, if_pos h]

/-! ### The fused SVN through a halt -/

theorem State.takeLeaf_fusedSvn (s : State) : s.takeLeaf.2.sec.fusedSvn = s.sec.fusedSvn := by
  have hres : s.reserveLeaves.sec.fusedSvn = s.sec.fusedSvn := (congrArg Security.fusedSvn s.reserveLeaves_leafless :)
  unfold State.takeLeaf
  dsimp only
  by_cases hleft : s.sec.nextLeaf < s.sec.blocks * 1024
  · rw [if_pos hleft]
    split <;> rfl
  · rw [if_neg hleft]
    split <;> exact hres

theorem State.checkpoint_fusedSvn (s : State) : s.checkpoint.sec.fusedSvn = s.sec.fusedSvn := by
  unfold State.checkpoint
  dsimp only
  split
  · rfl
  · rw [State.hand_sec, State.takeLeaf_fusedSvn]

theorem State.appendHeld_fusedSvn (s : State) (h : Held) : (s.appendHeld h).sec.fusedSvn = s.sec.fusedSvn := by
  cases hc : h.isCkpt with
  | true =>
    have he : s.appendHeld h = s.placeCkpt h := if_pos hc
    rw [he, State.placeCkpt_kept.sec_eq]
  | false =>
    have hk : ((s.append h (s.ledger.head + 1)).completing h).sec = s.sec := by
      have hcomp (x : State) : (x.completing h).sec = x.sec := by
        unfold State.completing
        split
        · exact State.cqWrite_kept.sec_eq
        · rfl
      rw [hcomp, State.append_kept.sec_eq]
    rw [State.appendHeld_of_change hc]
    split_ifs
    · rw [State.checkpoint_fusedSvn, hk]
    · rw [hk]

theorem State.appendOnce_fusedSvn (s : State) : s.appendOnce.sec.fusedSvn = s.sec.fusedSvn := by
  have hfold (l : List Held) (x : State) : (l.foldl (fun s h => s.appendHeld h) x).sec.fusedSvn = x.sec.fusedSvn := by
    induction l generalizing x with
    | nil => rfl
    | cons h l ih => exact (ih _).trans (x.appendHeld_fusedSvn h)
  exact hfold _ _

theorem State.announcing_fusedSvn (s : State) (cause : Nat) : (s.announcing cause).sec.fusedSvn = s.sec.fusedSvn := by
  unfold State.announcing State.appendAll
  rw [State.appendOnce_fusedSvn, State.appendOnce_fusedSvn, State.alert_kept.sec_eq, State.event_kept.sec_eq, State.regRecord_kept.sec_eq]

theorem State.halting_fusedSvn (s : State) (cause : Nat) : (s.halting cause).sec.fusedSvn = s.sec.fusedSvn := by
  have hk : Kept [.regs, .serve, .fab, .rings, .power, .faults, .handed, .out] s s.draining :=
    Kept.andThen State.abandonAll_kept (Kept.andThen State.failSteps_kept (Kept.andThen State.clearAdmit_kept
      (State.dropOps_kept.mono (by decide))))
  rw [State.halting_eq, State.announcing_fusedSvn]
  split
  · rw [State.quiesce_kept.sec_eq, hk.sec_eq]
  · rw [hk.sec_eq]

/-! ### RESET with an image that waits -/

/-- RESET's halt leaves the waiting image in force. -/
theorem State.resetOff_image {im : List Byte} (hh : s.hubRuns = true) (h : Awaiting s.vault im) : s.resetOff.vault.image = some im := by
  have hv : (s.halting 2).vault.image = some im := by
    rw [s.halting_vault 2 h.mapReady]
    exact State.quiesce_image (s.draining_vault ▸ h)
  unfold State.resetOff
  rw [State.orderlyHalt_of_hub hh]
  generalize s.halting 2 = x at hv ⊢
  exact hv

theorem State.resetOff_fusedSvn (hh : s.hubRuns = true) : s.resetOff.sec.fusedSvn = s.sec.fusedSvn := by
  have hv := s.halting_fusedSvn 2
  unfold State.resetOff
  rw [State.orderlyHalt_of_hub hh]
  generalize s.halting 2 = x at hv ⊢
  exact hv


end

/-- A module with supplies in whose vault `im` waits to be put in force, no image being stored. -/
def awaiting (im : List Byte) : State :=
  { Tests.up with
    vault := { Tests.up.vault with image := none, nextImage := some im, buffer := [JRec.sealed 0 (.stored true)] }
    svc := { Tests.up.svc with vinOk := true }
    sec := { Tests.up.sec with fusedSvn := 0 } }

/-- The checks of a write do not read the image that waits. -/
theorem awaiting_reasonOf (im : List Byte) (a : Attempt) : (awaiting im).reasonOf a = (awaiting []).reasonOf a := rfl

theorem awaiting_valueOf (im : List Byte) (a : Attempt) : (awaiting im).valueOf a = (awaiting []).valueOf a := rfl

theorem awaiting_accepts (im : List Byte) : (awaiting im).accepts (rowAttempt (Tests.mg 8) 0xB0010 8 0) ∧
    svcBit ((awaiting im).valueOf (rowAttempt (Tests.mg 8) 0xB0010 8 0)) = some 3 := by
  refine ⟨⟨rfl, fun _ => rfl, ?_⟩, ?_⟩
  · rw [awaiting_reasonOf]
    decide +kernel
  · rw [awaiting_valueOf]
    decide +kernel

theorem awaiting_awaiting (im : List Byte) : Awaiting (awaiting im).vault im := ⟨rfl, rfl, rfl, rfl, rfl⟩

/-- An image accepted by one state is accepted where no SVN is fused. -/
theorem State.fwOk_of_svn {s x : State} {im : List Byte} (h : s.fwOk im = true) (hx : x.sec.fusedSvn = 0) : x.fwOk im = true := by
  obtain ⟨hfields, hkey, hsig, hbody, -⟩ := (imageAcceptance s im).mp h
  exact (imageAcceptance x im).mpr ⟨hfields, hkey, hsig, hbody, hx ▸ Nat.zero_le _⟩

/-- RESET boots from the image that waited, not from the one stored before. -/
theorem State.resetModule_awaiting {s : State} {im : List Byte} (hh : s.hubRuns = true) (hm : s.svc.mainEn = true) (hp : s.mayPowerUp = true)
    (ha : Awaiting s.vault im) (hsvn : s.sec.fusedSvn = 0) (hok : s.fwOk im = true) (boot : StartUp) :
    (s.resetModule boot).svc.phase = .setupLocked := by
  rw [s.resetModule_eq boot, if_pos ⟨hm, hp⟩]
  have hoff : s.resetOff.fwOk im = true := State.fwOk_of_svn hok ((State.resetOff_fusedSvn hh).trans hsvn)
  obtain ⟨hbooted, -⟩ := (s.resetOff.start_booted boot).1
  exact (hbooted im (State.resetOff_image hh ha) hoff).1

theorem does_svcReset (w : RegWr) (boot : StartUp) {s : State} {P : State → Prop}
    (ha : s.accepts (rowAttempt w 0xB0010 8 0) ∧ svcBit (s.valueOf (rowAttempt w 0xB0010 8 0)) = some 3)
    (hp : ∀ l v e o, ((s.holding l v).resetModule boot).out <+: o → P (((s.holding l v).resetModule boot).telling e o)) :
    Does (.svcReset w boot) s P :=
  does_svcWrite (f := (·.resetModule boot)) rfl ha (fun y v hv => by simp only [State.svcEffect, hv]) hp

theorem does_svcReset_awaiting {im : List Byte} (hok : (awaiting im).fwOk im = true) :
    Does (.svcReset (Tests.mg 8) ⟨[], []⟩) (awaiting im) (·.svc.phase = .setupLocked) := by
  refine does_svcReset _ _ (awaiting_accepts im) fun l v e o _ => ?_
  have hsec : ((awaiting im).holding l v).fwOk im = true := (State.fwOk_of_sec rfl im).trans hok
  have h := State.resetModule_awaiting (s := (awaiting im).holding l v) rfl rfl rfl (awaiting_awaiting im) rfl hsec ⟨[], []⟩
  generalize ((awaiting im).holding l v).resetModule ⟨[], []⟩ = t at h ⊢
  exact h

theorem ResumeOutcome.telling {s t : State} (h : ResumeOutcome s t) (e : List (Nat × Nat × Nat)) {o : List Out} (ho : t.out <+: o) :
    ResumeOutcome s (t.telling e o) := ⟨State.booted_telling h.1 e ho, h.2.1, h.2.2⟩

theorem ResumeOutcome.of_none {s x t : State} (h : ∀ (s : State) im, s.fwOk im = false) (r : ResumeOutcome x t) : ResumeOutcome s t :=
  ⟨State.booted_of_none (h s) (h x) r.1, r.2⟩

theorem State.svcEffect_resume {s : State} {v : Nat} (hv : svcBit v = some 1) (x : Extra) :
    s.svcEffect v x = s.resumeModule x.checks x.boot := by
  simp only [State.svcEffect, hv]

/-- RESUME is the effect of a function `f` that does what it does on every state. -/
theorem does_resume {s : State} {w : RegWr} {checks : List Check} {boot : StartUp} {f : State → State} {P : State → Prop}
    (hf : ∀ y, f y = y.resumeModule checks boot)
    (ha : s.accepts (rowAttempt w 0xB0010 2 0) ∧ svcBit (s.valueOf (rowAttempt w 0xB0010 2 0)) = some 1)
    (hp : ∀ l v e o, (f (s.holding l v)).out <+: o → P ((f (s.holding l v)).telling e o)) : Does (.resume w checks boot) s P :=
  does_svcWrite rfl ha (fun y _ hv => (State.svcEffect_resume hv _).trans (hf y).symm) hp

theorem does_resume_of_none (h : ∀ (s : State) im, s.fwOk im = false) {s : State} (w : RegWr) (checks : List Check) (boot : StartUp)
    (ha : s.accepts (rowAttempt w 0xB0010 2 0) ∧ svcBit (s.valueOf (rowAttempt w 0xB0010 2 0)) = some 1) :
    Does (.resume w checks boot) s (ResumeOutcome s) := by
  obtain ⟨f, hf⟩ : ∃ f : State → State, ∀ y, f y = y.resumeModule checks boot := ⟨_, fun _ => rfl⟩
  refine does_resume hf ha fun l v e o ho => ResumeOutcome.telling ?_ e ho
  rw [hf]
  exact ResumeOutcome.of_none h (State.resumeModule_recovering (h (s.holding l v)) checks boot)

/-- SVC_CTRL keeps to its statement just where the boot ROM accepts no image at all, which rests on the uninterpreted verification of
signatures: the halt of a RESET puts an image that waits in the journal in force before the boot that follows. -/
theorem serviceCommands_iff_no_image : Obligations.ServiceCommands ↔ ∀ (s : State) im, s.fwOk im = false := by
  refine ⟨fun h s im => ?_, fun h => ?_⟩
  · by_contra hok
    have hok : (awaiting im).fwOk im = true := State.fwOk_of_svn (s := s) (by simpa using hok) rfl
    obtain ⟨t, ht, hphase⟩ := does_svcReset_awaiting hok
    obtain ⟨-, -, -, hreset⟩ := h (awaiting im) (Tests.mg 8) [] ⟨[], []⟩
    obtain ⟨u, hu, -, hbooted, -⟩ := hreset (awaiting_accepts im)
    obtain rfl : t = u := Host.Outcome.next.inj (ht.symm.trans hu)
    obtain ⟨hrecovery, -⟩ := (hbooted rfl rfl).2 fun im' h' => nomatch h'
    exact absurd (hphase.symm.trans hrecovery) (by decide)
  · intro s w checks boot asked
    refine ⟨does_standby w, does_resume_of_none h w checks boot, does_prepareRemove w, fun ha => does_svcReset w boot ha fun l v e o ho => ?_⟩
    obtain ⟨hcause, hboots, hrests⟩ := State.resetModule_of_none h (s := s.holding l v) boot
    have hr : ResetOutcome s ((s.holding l v).resetModule boot) :=
      ⟨hcause, fun hm hp => State.booted_of_none (h s) (h (s.holding l v)) (hboots hm hp), hrests⟩
    exact hr.telling e ho

/-- With a verification that accepts nothing, SVC_CTRL keeps to its statement. -/
theorem serviceCommands_of_none_verified (h : ∀ key message signature, Config.xmssVerify key message signature = false) :
    Obligations.ServiceCommands := by
  refine serviceCommands_iff_no_image.mpr fun s im => ?_
  by_contra hok
  obtain ⟨-, -, hsig, -, -⟩ := (imageAcceptance s im).mp (by simpa using hok)
  exact absurd hsig (by simp [h])

/-- With a fused key and a verification that accept the test image, it does not. -/
theorem not_serviceCommands_of_verified (hkey : shake256 32 Tests.key1 = Config.fwKeyDigest)
    (hsig : Config.xmssVerify Tests.key1 (slice Tests.firmware1 0 128) (slice Tests.firmware1 128 2820) = true) :
    ¬Obligations.ServiceCommands := fun h => by
  have hok := Tests.meets_fwOk hkey hsig (awaiting []) (Nat.zero_le 5)
  exact absurd hok (by simp [serviceCommands_iff_no_image.mp h])

end Sys2Proof.Machine
end
